-- ==== Sys2Proof/Word.lean ====
section
/-!
DEFINITION. The word types of the part and their plainest arithmetic: 32-bit registers (R486), 16-bit Kuxon words
(R274), bytes, 64-bit time-base values (R10), and the sign readings the manual uses.
-/
namespace Sys2Proof

/-- A register of a page: every register is 32 bits wide (R486). -/
abbrev Word := BitVec 32
/-- A Kuxon data word (chapter 10). -/
abbrev Word16 := BitVec 16
/-- One byte of memory. -/
abbrev Byte := BitVec 8
/-- A time-base value (R10, R29). -/
abbrev Time := BitVec 64

end Sys2Proof
end

