-- ==== Sys2Proof/Terms.lean ====
section
/-!
DEFINITION. The names that commands carry as operands: the two halves, the bus masters of Table 01.4 and their numbers.
-/
namespace Sys2Proof

/-- Half A or Half B (R16). -/
inductive Half where
  | A | B
deriving DecidableEq, Repr

/-- 0 for Half A, 1 for Half B: the half's region number. -/
def Half.n : Half → Nat
  | .A => 0
  | .B => 1

/-- The other half. -/
def Half.peer : Half → Half
  | .A => .B
  | .B => .A

/-- The half of a region number. -/
def Half.ofRegion (n : Nat) : Half := if n % 2 = 0 then .A else .B

/-- The bus masters (Table 01.4): a Kuxon core of region 0 (Half A), 1 (Half B) or 2 (service), the DMA of a region, a
Loupe pipe, a host endpoint through BAR index 0 or BAR index 2, a host endpoint through BAR index 4 (its mailbox), the blitter, the
Prism fetch, the referee's sequencer. -/
inductive Master where
  | referee
  | core (region : Fin 3) (core : Fin 20)
  | dma (region : Fin 3)
  | loupe (h : Half) (pipe : Fin 2)
  | host (h : Half) (bar2 : Bool)
  | mailbox (h : Half)
  | blitter
  | prism
deriving DecidableEq, Repr

/-- A number for each bus master. All windows of a host endpoint belong to one master. -/
def Master.id : Master → Nat
  | .referee => 0
  | .core r c => 1 + r.val * 32 + c.val
  | .dma r => 100 + r.val
  | .loupe h k => 110 + 2 * h.n + k.val
  | .host h _ => 120 + h.n
  | .mailbox h => 120 + h.n
  | .blitter => 130
  | .prism => 131

/-- Does a master write from outside a half: a host endpoint or a service core (R221 step 3)? -/
def Master.outside : Master → Bool
  | .host _ _ => true
  | .core rg _ => rg = 2
  | _ => false

/-- How DRAM training ends on channel 0 and 1 of Half A and of Half B (R325): 0 trained, else the step that failed. -/
structure Train where
  a0 : Fin 6 := 0
  a1 : Fin 6 := 0
  b0 : Fin 6 := 0
  b1 : Fin 6 := 0
deriving DecidableEq, Repr

/-- The outcome on channel `k` of a half. -/
def Train.of (t : Train) (h : Half) (k : Nat) : Nat :=
  match h with
  | .A => if k = 0 then t.a0 else t.a1
  | .B => if k = 0 then t.b0 else t.b1

/-- How a frame reaches a Rerok receiver (R169): in order, or to be discarded for a code error, or for a CRC mismatch or an
illegal TYPE, LEN or field. -/
inductive Rx where
  | ok | codeError | bad
deriving DecidableEq, Repr

/-- The times of a board HB, in word clocks modulo 2^16 (R174, R186): the part's count at its first symbol, and its fields ECHO and TURN. -/
structure HbTimes where
  arrival : BitVec 16
  echo : BitVec 16
  turn : BitVec 16
deriving DecidableEq, Repr
/-- RTT = arrival − ECHO − TURN (R186). -/
def HbTimes.rtt (x : HbTimes) : BitVec 16 := x.arrival - x.echo - x.turn

end Sys2Proof
end

