-- ==== Sys2Proof/Syntax.lean ====
section
/-!
DEFINITION. The commands of the part: one constructor per row of the table of operations and events, in its order, with the
operands each carries.
-/
namespace Sys2Proof

/-- The commands. -/
inductive Instr where
  /-- R476: VDD_REF rises above its reset level and the whole part takes a power-on reset, then runs the boot sequence. -/
  | refereePowerOn (up : BitVec 3) (tr : Train)
  /-- R332: A half's DRAM fill ends and sc0 reports the half's INIT complete to the referee. -/
  | memoryFillDone (h : Half)
  /-- R211: The referee moves halves out of INIT into CHARGE, STANDBY, REJOINING, SPLIT or QUARANTINE. -/
  | halfInitComplete
  /-- R211: One half has not completed INIT within 5 s of release, so the other takes charge and the late half is quarantined. -/
  | initTimeout (h : Half)
  /-- R29: The beam unit advances TB by one every 8 core cycles and sends the angle broadcast of each beam. -/
  | tbTick (h : Half)
  /-- R29: Every 1,024 ticks the referee compares the two time bases and stretches or shortens one tick if needed. -/
  | tbCompare (phase : Fin 10) (shorten : Bool)
  /-- R45: The glitch filter accepts a new level on an A, B or Z line and the decoder updates count, angle and direction. -/
  | beamInputEdge (h : Half) (b : Fin 4) (a bb z : Bool) (samples : Nat)
  /-- R55: No edge arrives for STALL microseconds and the beam reports velocity 0 and sets STOPPED. -/
  | beamStallTimeout (h : Half) (b : Fin 4)
  /-- R60: A BEAM commit swaps all beams and taps at the third sampling edge after the request reaches the page. -/
  | beamCommitSwap (h : Half)
  /-- R65: A write of BEAM_RESYNC.GO takes a faulted beam to SEEKING or SYNCED with its followed revolution counter. -/
  | beamResync (h : Half) (b : Fin 4)
  /-- R56: A write of BEAM_PRED_CTL.REQ starts a prediction, or sets OVERRUN if the unit is busy. -/
  | predReq (h : Half)
  /-- R56: Forty cycles after REQ the prediction writes its time or flags and raises PRED_DONE. -/
  | predDone (h : Half)
  /-- R64: At every TB multiple of 400 the beam unit takes a replica snapshot of each beam for BEAM frames. -/
  | replicaSnapshot (h : Half)
  /-- R36: The row engine accepts a forward crossing of a context's tap and performs the row boundary for that context. -/
  | rowTrigger (h : Half) (e : Fin 8) (c : Fin 32) (rev8 : BitVec 8)
  /-- R82: The engine starts the render at the head of its due list, new row, replay or re-render from a record. -/
  | renderStart (h : Half) (e : Fin 8)
  /-- R91: A tile or motif cache line fill returns data, an absent mark or an uncorrectable error. -/
  | lineFillReturn (h : Half) (e : Fin 8) (mot : Bool) (line : BitVec 34) (ue : Bool)
  /-- R153: A render ends and its row waits for its engine's gather lane. -/
  | renderComplete (h : Half) (e : Fin 8) (stall : Nat)
  /-- R154: A free lane starts gathering a rendered row segment by segment into stamped events. -/
  | gatherStart (h : Half) (e : Fin 8) (bad : List (BitVec 16))
  /-- R154: A lane finishes reading a row, frees its rendered-row cache entry and may take the next row. -/
  | gatherComplete (h : Half) (e : Fin 8)
  /-- R203: Eight cycles after a segment's last event is queued the seal unit computes its seal and sends it to the peer. -/
  | sealCompute (h : Half)
  /-- R129: After all seals of a new row are computed the engine writes its row-state record and advances H. -/
  | rowRecordWrite (h : Half) (e : Fin 8) (c : Fin 32)
  /-- R93: A write of ROW_TCINV.ALL requests invalidation of the whole tile cache between renders. -/
  | tcinvAll (h : Half) (e : Fin 8)
  /-- R93: A write of ROW_TCINV.RANGE samples BASE and LEN and requests invalidation of that range. -/
  | tcinvRange (h : Half) (e : Fin 8)
  /-- R93: Between renders the tile cache invalidation is applied, BUSY clears and TCINV_DONE is raised. -/
  | tcinvDone (h : Half) (e : Fin 8)
  /-- R113: A write of ROW_MCINV.ALL requests invalidation of the whole motif cache between renders. -/
  | mcinvAll (h : Half) (e : Fin 8)
  /-- R113: A write of ROW_MCINV.RANGE requests invalidation of the sampled range of the motif cache. -/
  | mcinvRange (h : Half) (e : Fin 8)
  /-- R113: Between renders the motif cache invalidation is applied and MCINV_DONE is raised. -/
  | mcinvDone (h : Half) (e : Fin 8)
  /-- R77: ROW_CMD ARM takes an IDLE context to ARMED, resetting H, RECS and incrementing ARMGEN. -/
  | arm (h : Half) (e : Fin 8) (c : Fin 32)
  /-- R78: ROW_CMD HOLD is set pending to put a running context into HOLD at a row boundary. -/
  | hold (h : Half) (e : Fin 8) (c : Fin 32) (byRow : Bool)
  /-- R78: ROW_CMD RESUME is set pending to return a held context to RUNNING at a held trigger. -/
  | resume (h : Half) (e : Fin 8) (c : Fin 32) (byRow : Bool)
  /-- R78: ROW_CMD STOP is set pending to take a context to DRAINING at a row boundary. -/
  | stop (h : Half) (e : Fin 8) (c : Fin 32) (byRow : Bool)
  /-- R78: ROW_CMD ABORT takes a context to IDLE at once, drops its due entries and cancels its queued events. -/
  | abort (h : Half) (e : Fin 8) (c : Fin 32)
  /-- R78: A reserved ROW_CMD code is rejected with CMD_REJ and changes nothing. -/
  | rowCmdReserved (h : Half) (e : Fin 8) (c : Fin 32)
  /-- R76: A DRAINING context enters IDLE when no queue holds an event of it any longer. -/
  | drainingComplete (h : Half) (e : Fin 8) (c : Fin 32)
  /-- R75: A write of ROW_BIND binds an IDLE context or is dropped with BIND_REJ. -/
  | rowBindWrite (h : Half) (e : Fin 8) (c : Fin 32) (v : Word)
  /-- R128: A write of ROW_HRc_LO, ROW_HRc_HI or ROW_XCFGc takes effect only while the context is IDLE. -/
  | rowHistoryWrite (h : Half) (e : Fin 8) (c : Fin 32) (which : Fin 3) (v : Word)
  /-- R349: A write of ROW_RIDXc binds an IDLE context to a row index or is dropped with BIND_REJ. -/
  | rowRidxWrite (h : Half) (e : Fin 8) (c : Fin 32) (v : Word)
  /-- R103: A write of ROW_MAW_IDX loads the addressed motif entry into the master's staging words. -/
  | mawIdxWrite (m : Master) (h : Half) (e : Fin 8) (v : Word)
  /-- R103: A write of ROW_MAW_D7 writes all staging words to the motif entry atomically and may advance IDX. -/
  | mawEntryWrite (m : Master) (h : Half) (e : Fin 8) (v : Word)
  /-- R80: The row engine accepts a FAULT, OFF or SEEKING state marker and holds running contexts of the beam. -/
  | beamStateMarker (h : Half) (e : Fin 8) (b : Fin 4) (code : Fin 4) (dir : Bool)
  /-- R80: After pending renders of an OFF beam are queued, the queues cancel their unsent events and ports reopen sessions. -/
  | beamDisabledCancel (h : Half) (b : Fin 4)
  /-- R134: A reverse direction marker puts a reversible running context into REVERSING and orders cancellation of forward events. -/
  | reverseDirectionMarker (h : Half) (e : Fin 8) (b : Fin 4)
  /-- R135: A reverse crossing in REVERSING sets ROWNUM to k-1 and adds the re-render of row k-1-L. -/
  | reverseTrigger (h : Half) (e : Fin 8) (c : Fin 32) (rev8 : BitVec 8)
  /-- R137: A forward direction marker ends REVERSING, enters replay and orders cancellation of reverse events. -/
  | forwardDirectionMarker (h : Half) (e : Fin 8) (b : Fin 4)
  /-- R158: A cancellation scan of a context's segments ends and reports completion 16s+8 cycles after the request. -/
  | cancelScanComplete (h : Half) (ctx : BitVec 8)
  /-- R147: A write of HRN_TW_DATA writes the shadow harness bank, or is dropped with WPEND while pending or copying. -/
  | hrnTwDataWrite (h : Half) (v : Word)
  /-- R147: The 1,032-cycle validation of the shadow harness bank ends, building segment maps and reaching the page. -/
  | hrnValidationDone (h : Half)
  /-- R147: The copy of the new active bank into the shadow bank ends and HRN_STAT.COPY clears. -/
  | hrnCopyDone (h : Half)
  /-- R159: A write of AEQ_CNT_IDX latches the five counters and status of one channel in one cycle. -/
  | aeqCntLatch (h : Half) (ch : BitVec 16)
  /-- R160: A head event falls behind the replica beam and is cancelled at once or sent to be reported unfired. -/
  | expired (h : Half) (ch : BitVec 16)
  /-- R158: An uncorrectable queue SRAM error cancels the channel's unsent events and reports UE_PRIV. -/
  | queueUe (h : Half) (ch : BitVec 16)
  /-- R176: At each frame boundary the port transmitter picks the next frame by priority and applies RLK swaps. -/
  | frameBoundary (h : Half) (p : Fin 64) (elapsed : Nat) (clk : BitVec 16)
  /-- R196: The peer's confirmation of a mirror record arrives and the port may send the frame. -/
  | mirrorConfirm (h : Half) (p : Fin 64)
  /-- R196: No mirror confirmation arrives within 1 µs, so the port counts it and reports a fault. -/
  | mirrorLate (h : Half) (p : Fin 64)
  /-- R185: Every 1 ms the port queues an AUD credit audit frame. -/
  | audTimer (h : Half) (p : Fin 64)
  /-- R178: The port's heartbeat period expires and it queues an HB frame. -/
  | hbTimer (h : Half) (p : Fin 64)
  /-- R178: The receiver sees 1,024 symbols without code error, aligns and sets LOCKED. -/
  | receiverLock (h : Half) (p : Fin 64)
  /-- R186: A valid board HB updates PDLY and board status and may establish the link in training. -/
  | hbReceive (h : Half) (p : Fin 64) (rx : Rx) (epoch : Word) (times : HbTimes) (locked sess active fenced : Bool) (ver : BitVec 8) (pool : BitVec 16) (id : Word)
  /-- R182: A cumulative ACK frees acknowledged frames and events or triggers resend on RETRY. -/
  | ackReceive (h : Half) (p : Fin 64) (rx : Rx) (epoch : Word) (next : BitVec 16) (retry : Bool)
  /-- R184: A CRD that advances adds returned credits and may complete the session opening into UP. -/
  | crdReceive (h : Half) (p : Fin 64) (rx : Rx) (epoch : Word) (ct : Word)
  /-- R191: An accepted STS applies its fire reports to channel counters and records board status and audit result. -/
  | stsReceive (h : Half) (p : Fin 64) (rx : Rx) (epoch : Word) (seq : BitVec 16) (status audd : Word) (reports : List Word)
  /-- R175: A board MGT response completes the outstanding request and raises MGT_DONE. -/
  | mgtResponseReceive (h : Half) (p : Fin 64) (rx : Rx) (epoch : Word) (seq : BitVec 16) (tag : BitVec 8) (op : Fin 4) (count : Fin 16) (status : BitVec 8) (data : List Word)
  /-- R201: A write of RLK_MGT_CTL.GO sends a board register request, or sets STATUS 0xFE if the port is not UP. -/
  | mgtGo (h : Half) (p : Fin 64) (v : Word)
  /-- R183: An MGT request without response for 1 ms completes with STATUS 0xFF. -/
  | mgtTimeout (h : Half) (p : Fin 64)
  /-- R183: The oldest unacknowledged frame passes RTO and the port resends from NEXT. -/
  | retransmitTimeout (h : Half) (p : Fin 64)
  /-- R178: Training does not complete in 10 ms, so the port counts TOUT and enters DOWN. -/
  | trainingTimeout (h : Half) (p : Fin 64)
  /-- R178: One millisecond after a training timeout with EN still 1 the port enters TRAINING again. -/
  | trainingRetry (h : Half) (p : Fin 64)
  /-- R180: Too many errors or 500 µs without a valid frame return the port to TRAINING. -/
  | linkDown (h : Half) (p : Fin 64)
  /-- R205: A peer seal record arrives and is paired and compared with the own record. -/
  | sealRecordReceive (h : Half)
  /-- R205: A seal record waits TMO microseconds without its pair, so the instance is held and fault 0x02 reported. -/
  | sealTmo (h : Half) (mine : Bool)
  /-- R215: The referee votes on a fault report, logs it and starts its decision. -/
  | faultReport
  /-- R215: A report queued during a decision, takeover or rejoin is treated once that action completes. -/
  | faultReportDequeue
  /-- R209: The 20 µs window closes without a matching report and the reporting half is accused. -/
  | commonModeTimeout
  /-- R207: A half's self-check word arrives at the referee for the decision. -/
  | selfCheckWord (h : Half)
  /-- R207: A half returns no self-check word within 20 µs and counts as suspect. -/
  | selfCheckTimeout (h : Half)
  /-- R213: Every port of the old half has confirmed the fence, so the epoch is incremented and CHARGE issued. -/
  | fenceConfirm (elapsed : Nat) (tr : Train)
  /-- R213: A port has not confirmed the fence in 5 µs, so the referee disables its transmit driver. -/
  | fenceTimeout (h : Half) (p : Fin 64)
  /-- R206: The surviving half cancels, re-gathers and re-enqueues every held instance oldest first. -/
  | reissue (h : Half)
  /-- R220: Ten milliseconds after a half enters QUARANTINE with AUTOREJOIN the referee issues REJOIN. -/
  | autorejoinTimeout (h : Half) (elapsed : Nat) (tr : Train)
  /-- R231: Referee request RELEASE moves a half in STANDBY to QUARANTINE. -/
  | release (ep : Half) (still : Bool) (tag : BitVec 8) (h : Half)
  /-- R221: Referee request REJOIN resets a quarantined half with DRAM kept, reloads it and starts the rejoin. -/
  | rejoin (ep : Half) (still : Bool) (tag : BitVec 8) (h : Half) (elapsed : Nat) (tr : Train)
  /-- R221: The copy engine finishes the copy list and the rejoin moves to the STATE phase. -/
  | rejoinCopyDone
  /-- R225: Referee request HANDOVER moves charge to the half in STANDBY without reissue. -/
  | handover (ep : Half) (still : Bool) (tag : BitVec 8)
  /-- R231: Referee request STOP_CLEAR releases both STOP_REQ lines. -/
  | stopClear (ep : Half) (still : Bool) (tag : BitVec 8)
  /-- R231: Referee request FLOG_CLEAR clears the fault log and its head. -/
  | flogClear (ep : Half) (still : Bool) (tag : BitVec 8)
  /-- R231: A reserved referee request code is refused with REF_STATE. -/
  | mbxReservedRequest (ep : Half) (still : Bool) (tag : BitVec 8)
  /-- R245: A camera line marker arrives, the line is stamped, accepted, correlated and its pixels sampled into cells. -/
  | cxpLineMarker (h : Half) (k : Fin 2) (stream : BitVec 8) (fmt : Fin 5) (fresh : Bool) (pix : List (BitVec 24))
  /-- R254: Twice LINEPER after a row was fully imaged the pipe closes it. -/
  | loupeRowTimeout (h : Half) (k : Fin 2)
  /-- R255: The render port returns an expected row or an absent mark to the pipe's buffer. -/
  | expectedRowArrive (h : Half) (e : Fin 8)
  /-- R83: An idle engine takes a Loupe render request and renders the row from its record. -/
  | loupeRenderRequest (h : Half) (e : Fin 8)
  /-- R261: A defect record's write response arrives, WR advances and RING may be raised. -/
  | defectRecordWritten (h : Half) (k : Fin 2)
  /-- R245: In travel mode the port sends a trigger packet when the position passes the next pitch. -/
  | travelTrigger (h : Half) (k : Fin 2)
  /-- R242: A received control, event or heartbeat packet is placed in the receive FIFO or dropped. -/
  | cxpControlRx (h : Half) (k : Fin 2) (kind : Fin 3) (ok : Bool) (payload : List Word)
  /-- R242: A write to CXP_CTLTX fills the transmit FIFO and the last payload word sends the packet. -/
  | cxpCtltxWrite (h : Half) (k : Fin 2) (v : Word)
  /-- R242: A read of CXP_CTLRX pops a word of the receive FIFO. -/
  | cxpCtlrxRead (h : Half) (k : Fin 2)
  /-- R243: The receiver sees 1,024 clean symbols and a valid packet and the link goes UP. -/
  | cxpLinkUp (h : Half) (k : Fin 2)
  /-- R243: Eight code errors in 64 symbols take the link DOWN and discard the line in progress. -/
  | cxpLinkDown (h : Half) (k : Fin 2) (line : Bool)
  /-- R243: A line overflows the 4 KiB receive FIFO and is discarded with OVF. -/
  | cxpFifoOverflow (h : Half) (k : Fin 2)
  /-- R247: A write of LPE_FFW_DATA or LPE_KNW_DATA writes a shadow bank or is dropped with WREJ. -/
  | lpeTableWrite (h : Half) (k : Fin 2) (knot : Bool) (v : Word)
  /-- R247: The copy of the new active flat-field or knot bank into the shadow bank ends. -/
  | lpeBankCopyDone (h : Half) (k : Fin 2)
  /-- R261: A write of LPE_RING_RD frees ring slots or is dropped with WREJ. -/
  | lpeRingRdWrite (h : Half) (k : Fin 2) (v : Word)
  /-- R252: A write of the TLOG registers takes effect only while the pipe is disabled. -/
  | lpeTlogWrite (h : Half) (k : Fin 2) (hi : Bool) (v : Word)
  /-- R297: ADD rd, rs adds the registers and sets Z, N, C and V. -/
  | add (r : Fin 3) (c : Fin 20) (rd rs : Fin 16)
  /-- R297: ADC adds the registers and C and sets all flags. -/
  | adc (r : Fin 3) (c : Fin 20) (rd rs : Fin 16)
  /-- R297: SUB subtracts rs from rd and sets all flags with C as borrow. -/
  | sub (r : Fin 3) (c : Fin 20) (rd rs : Fin 16)
  /-- R297: SBC subtracts rs and the borrow from rd. -/
  | sbc (r : Fin 3) (c : Fin 20) (rd rs : Fin 16)
  /-- R297: AND writes the bitwise and of the registers and sets Z and N. -/
  | and (r : Fin 3) (c : Fin 20) (rd rs : Fin 16)
  /-- R297: OR writes the bitwise or of the registers and sets Z and N. -/
  | or (r : Fin 3) (c : Fin 20) (rd rs : Fin 16)
  /-- R297: XOR writes the bitwise exclusive or and sets Z and N. -/
  | xor (r : Fin 3) (c : Fin 20) (rd rs : Fin 16)
  /-- R297: MOV copies rs to rd without changing flags. -/
  | mov (r : Fin 3) (c : Fin 20) (rd rs : Fin 16)
  /-- R297: CMP sets flags from rd minus rs without writing. -/
  | cmp (r : Fin 3) (c : Fin 20) (rd rs : Fin 16)
  /-- R297: TST sets Z and N from rd and rs without writing. -/
  | tst (r : Fin 3) (c : Fin 20) (rd rs : Fin 16)
  /-- R297: ADDI adds a sign-extended or LIMM immediate to rd. -/
  | addi (r : Fin 3) (c : Fin 20) (rd : Fin 16) (lim : Option (BitVec 14)) (imm : BitVec 6)
  /-- R297: MOVI loads a sign-extended or LIMM immediate into rd. -/
  | movi (r : Fin 3) (c : Fin 20) (rd : Fin 16) (lim : Option (BitVec 14)) (imm : BitVec 6)
  /-- R297: CMPI sets flags from rd minus an immediate. -/
  | cmpi (r : Fin 3) (c : Fin 20) (rd : Fin 16) (lim : Option (BitVec 14)) (imm : BitVec 6)
  /-- R297: NEG negates rd and sets all flags. -/
  | neg (r : Fin 3) (c : Fin 20) (rd : Fin 16)
  /-- R297: NOT inverts every bit of rd. -/
  | not (r : Fin 3) (c : Fin 20) (rd : Fin 16)
  /-- R298: MUL writes the low half of the unsigned product. -/
  | mul (r : Fin 3) (c : Fin 20) (rd rs : Fin 16)
  /-- R298: MULHU writes the high half of the unsigned product. -/
  | mulhu (r : Fin 3) (c : Fin 20) (rd rs : Fin 16)
  /-- R298: DIVU writes the unsigned quotient, or the decided result with DZ on division by zero. -/
  | divu (r : Fin 3) (c : Fin 20) (rd rs : Fin 16)
  /-- R298: DIVS writes the signed quotient truncated toward zero. -/
  | divs (r : Fin 3) (c : Fin 20) (rd rs : Fin 16)
  /-- R298: REMU writes the unsigned remainder. -/
  | remu (r : Fin 3) (c : Fin 20) (rd rs : Fin 16)
  /-- R298: REMS writes the signed remainder with the dividend's sign. -/
  | rems (r : Fin 3) (c : Fin 20) (rd rs : Fin 16)
  /-- R300: SHL shifts rd left by rs[4:0]. -/
  | shl (r : Fin 3) (c : Fin 20) (rd rs : Fin 16)
  /-- R300: SHR shifts rd right with zero fill by rs[4:0]. -/
  | shr (r : Fin 3) (c : Fin 20) (rd rs : Fin 16)
  /-- R300: SAR shifts rd right with sign fill by rs[4:0]. -/
  | sar (r : Fin 3) (c : Fin 20) (rd rs : Fin 16)
  /-- R300: ROR rotates rd right by rs[4:0]. -/
  | ror (r : Fin 3) (c : Fin 20) (rd rs : Fin 16)
  /-- R300: SHLI shifts rd left by an immediate count. -/
  | shli (r : Fin 3) (c : Fin 20) (rd : Fin 16) (n : Fin 16)
  /-- R300: SHRI shifts rd right with zero fill by an immediate count. -/
  | shri (r : Fin 3) (c : Fin 20) (rd : Fin 16) (n : Fin 16)
  /-- R300: SARI shifts rd right with sign fill by an immediate count. -/
  | sari (r : Fin 3) (c : Fin 20) (rd : Fin 16) (n : Fin 16)
  /-- R300: RORI rotates rd right by an immediate count. -/
  | rori (r : Fin 3) (c : Fin 20) (rd : Fin 16) (n : Fin 16)
  /-- R301: PAR sets C to the parity of rd. -/
  | par (r : Fin 3) (c : Fin 20) (rd : Fin 16)
  /-- R301: BREV reverses the 16 bits of rd. -/
  | brev (r : Fin 3) (c : Fin 20) (rd : Fin 16)
  /-- R301: BREVN reverses the low n bits of rd and clears the rest. -/
  | brevn (r : Fin 3) (c : Fin 20) (rd : Fin 16) (n : Fin 16)
  /-- R301: SWPB swaps the bytes of rd. -/
  | swpb (r : Fin 3) (c : Fin 20) (rd : Fin 16)
  /-- R301: SXB sign-extends the low byte of rd. -/
  | sxb (r : Fin 3) (c : Fin 20) (rd : Fin 16)
  /-- R302: CRC takes one CRC step over rd into KCRC. -/
  | crc (r : Fin 3) (c : Fin 20) (rd : Fin 16)
  /-- R303: LD loads a data word from rs plus displacement into rd. -/
  | ld (r : Fin 3) (c : Fin 20) (rd rs : Fin 16) (lim : Option (BitVec 14)) (slow : Bool)
  /-- R303: ST stores rd to rs plus displacement. -/
  | st (r : Fin 3) (c : Fin 20) (rd rs : Fin 16) (lim : Option (BitVec 14))
  /-- R303: LDP loads a word and then increments rs. -/
  | ldp (r : Fin 3) (c : Fin 20) (rd rs : Fin 16) (lim : Option (BitVec 14)) (slow : Bool)
  /-- R303: STP stores a word and then increments rs. -/
  | stp (r : Fin 3) (c : Fin 20) (rd rs : Fin 16) (lim : Option (BitVec 14))
  /-- R304: Bcc branches on its condition, CALL writing the return address to k15. -/
  | bcc (r : Fin 3) (c : Fin 20) (cond : Fin 16) (lim : Option (BitVec 14)) (imm : BitVec 6)
  /-- R305: JR sets the PC to rs. -/
  | jr (r : Fin 3) (c : Fin 20) (rs : Fin 16)
  /-- R305: CALLR writes the return address to rd and jumps to rs. -/
  | callr (r : Fin 3) (c : Fin 20) (rd rs : Fin 16)
  /-- R306: LOOP sets KLS, KLE and KLC and starts or skips the hardware loop. -/
  | loop (r : Fin 3) (c : Fin 20) (rd : Fin 16) (lim : Option (BitVec 14)) (imm : BitVec 6)
  /-- R307: NOP does nothing. -/
  | nop (r : Fin 3) (c : Fin 20)
  /-- R307: RETI restores PC, KSTAT, holding word, latch and replay register from the entry. -/
  | reti (r : Fin 3) (c : Fin 20)
  /-- R122: WAITROW takes the lowest occupied release slot or suspends the beam core until a release arrives. -/
  | waitrow (r : Fin 3) (c : Fin 20) (rd : Fin 16)
  /-- R286: WAITANGLE waits until the chosen beam reaches the target position in its direction. -/
  | waitangle (r : Fin 3) (c : Fin 20) (rd : Fin 16)
  /-- R286: WAITEVT waits until a masked, non-interrupt line is pending. -/
  | waitevt (r : Fin 3) (c : Fin 20) (rd rs : Fin 16)
  /-- R122: A release reaches a waiting beam core and WAITROW returns the context and latches the row. -/
  | waitrowComplete (r : Fin 3) (c : Fin 20)
  /-- R286: A broadcast meets the target, or the beam goes OFF or FAULT, and WAITANGLE completes. -/
  | waitangleComplete (r : Fin 3) (c : Fin 20)
  /-- R286: A masked line becomes pending and WAITEVT returns its number and clears it. -/
  | waitevtComplete (r : Fin 3) (c : Fin 20)
  /-- R286: KWTMO ticks pass before a wait completes and it completes with 0x8000. -/
  | waitTimeout (r : Fin 3) (c : Fin 20)
  /-- R309: REP repeats the following string instruction k14 times or until its stop condition. -/
  | rep (r : Fin 3) (c : Fin 20) (upTo : Nat) (slow : Bool)
  /-- R308: MOVS copies one word from k12 to k13 and advances both. -/
  | movs (r : Fin 3) (c : Fin 20) (slow : Bool)
  /-- R308: FILLS stores rd at k13 and advances it. -/
  | fills (r : Fin 3) (c : Fin 20) (rd : Fin 16)
  /-- R308: CMPS compares the words at k12 and k13 and advances both. -/
  | cmps (r : Fin 3) (c : Fin 20) (slow : Bool)
  /-- R308: SCANS compares the word at k12 with rd and advances k12. -/
  | scans (r : Fin 3) (c : Fin 20) (rd : Fin 16) (slow : Bool)
  /-- R308: CRCS takes a CRC step over the word at k12 and advances it. -/
  | crcs (r : Fin 3) (c : Fin 20) (slow : Bool)
  /-- R311: CUST runs the custom microcode routine named by its decode entry. -/
  | cust (r : Fin 3) (c : Fin 20) (sel : Fin 16) (lim : Option (BitVec 14)) (f : BitVec 6) (due : Nat)
  /-- R293: A reserved or misused instruction word raises ILLEGAL before any state changes. -/
  | illegal (r : Fin 3) (c : Fin 20)
  /-- R282: An enabled pending line is taken as an interrupt, abandoning a long instruction if needed. -/
  | interruptEntry (r : Fin 3) (c : Fin 20)
  /-- R279: A far read response arrives and the stalled load completes. -/
  | farReadResponse (r : Fin 3) (c : Fin 20) (saved : Bool)
  /-- R279: A far read or posted write has no response within 64 µs and raises FARERR. -/
  | farerr (r : Fin 3) (c : Fin 20) (write saved : Bool)
  /-- R279: A load of KFSYNC waits for all posted far writes and returns the timeout count. -/
  | farSync (r : Fin 3) (c : Fin 20)
  /-- R280: A load of KTB0 copies the whole TB into KTB0-KTB3 in one cycle. -/
  | ktbLoad (r : Fin 3) (c : Fin 20)
  /-- R287: A write of KMBOUT sends a word to the mailbox named by KMBDST or sets DROP. -/
  | mailboxSend (r : Fin 3) (c : Fin 20) (v : BitVec 16)
  /-- R287: A mailbox word reaches its destination core's inbound mailbox. -/
  | mailboxDeliver (r : Fin 3) (c : Fin 20) (tr : Fin 3) (tc : Fin 32)
  /-- R287: A read of KMBIN pops the oldest inbound mailbox word. -/
  | mailboxPop (r : Fin 3) (c : Fin 20)
  /-- R288: A core write to KHMBOUT pushes a word to the host and raises HMB_OUT, or is dropped. -/
  | hostMailboxPush (r : Fin 3) (c : Fin 20) (v : BitVec 16)
  /-- R288: A core read of KHMBIN pops a word from the host. -/
  | hostMailboxPop (r : Fin 3) (c : Fin 20)
  /-- R288: A host write to KXC_HMBIN delivers a word to the core, or is dropped with HMB_DROP. -/
  | kxcHmbinWrite (r : Fin 3) (c : Fin 20) (v : Word)
  /-- R288: A host read of KXC_HMBOUT pops a word from the core. -/
  | kxcHmboutRead (r : Fin 3) (c : Fin 20)
  /-- R289: Writing 0x5A3C to KWDOG reloads the watchdog. -/
  | kwdogReload (r : Fin 3) (c : Fin 20) (v : BitVec 16)
  /-- R289: No valid KWDOG write for PERIOD µs halts the core in WDOG and reports fault WDOG. -/
  | watchdogExpire (r : Fin 3) (c : Fin 20)
  /-- R281: KXC_CTL.RUN starts a stopped core at KXC_PC, clearing INH and IE from DOUBLE or WDOG. -/
  | kxcRun (r : Fin 3) (c : Fin 20)
  /-- R290: KXC_CTL.HALT halts the core at the next instruction boundary. -/
  | kxcHalt (r : Fin 3) (c : Fin 20)
  /-- R281: KXC_CTL.STEP executes one instruction and halts. -/
  | kxcStep (r : Fin 3) (c : Fin 20)
  /-- R290: KXC_CTL.CRESET resets the core registers and control space and enters RESET. -/
  | creset (r : Fin 3) (c : Fin 20)
  /-- R281: A write of KXC_PMW_DATA writes program memory of a stopped core or is dropped with PMW_REJ. -/
  | pmwWrite (r : Fin 3) (c : Fin 20) (v : Word)
  /-- R314: A write to UCS_WIN_Dk or UCS_DECk loads the store during loading or is dropped with WREJ. -/
  | ucsWindowWrite (m : Master) (r : Fin 3) (dec : Bool) (k : Fin 16) (v : Word)
  /-- R315: A sequencer fetches an uncorrectable microword, stops the routine and reports UE_PRIV. -/
  | ueFetch (r : Fin 3) (who : Fin 30) (w : BitVec 12)
  /-- R337: Every SSPACE cycles the SRAM walker reads the next ECC word. -/
  | scrubSramRead (h : Half) (found : Fin 4)
  /-- R337: Every DSPACE × 64 ns the DRAM walker reads the next burst. -/
  | scrubDramRead (h : Half) (found : Fin 3) (word : Fin 8)
  /-- R331: In a free cycle within 16 cycles the memory writes back a corrected word. -/
  | eccWriteback
  /-- R335: Every 2^LEAKP µs the bucket subtracts one from a nonzero level. -/
  | bucketLeak (rg : Fin 4) (pg : BitVec 12)
  /-- R338: A read of SCB_ESRC pops the oldest source FIFO entry. -/
  | scbEsrcPop (h : Half)
  /-- R339: A write of PG_ECC_LOG_IDX.CLR clears the page's error log. -/
  | eccLogClear (rg : Fin 4) (pg : BitVec 12)
  /-- R325: A DRAM device signals a command parity error and the controller repeats the command once. -/
  | caParityError (h : Half) (ch : Fin 2) (again : Bool) (word : BitVec 32)
  /-- R348: NVH MAP maps an object's pages as ABSENT from its extents and check array. -/
  | map (h : Half) (ent ext : List Byte) (chk : Option (List Word))
  /-- R348: NVH UNMAP clears MAPPED for a range of pages. -/
  | unmap (h : Half)
  /-- R348: NVH LOAD queues the ABSENT pages of a range at the earliest deadline. -/
  | load (h : Half)
  /-- R348: NVH DROP sets a range of pages ABSENT and discards their loads. -/
  | drop (h : Half)
  /-- R344: NVH REMOUNT selects the valid volume header copy with the higher SEQ. -/
  | remount (h : Half) (capacity : BitVec 32) (b0 b1 : List Byte)
  /-- R348: A reserved NVH_MAPCMD operation is refused with OP. -/
  | mapReservedOp (h : Half)
  /-- R348: A write of NVH_MAPCMD while MAPBUSY is dropped with MAP_REJ. -/
  | mapRej (h : Half) (op : Fin 8)
  /-- R344: The NVH initialises the drive, mounts the volume and exchanges VOLID with the peer. -/
  | driveMount (h : Half) (ok : Bool) (capacity : BitVec 32) (b0 b1 : List Byte)
  /-- R350: The NVH looks up a page-ahead request in the row index and queues loads by deadline. -/
  | pageAheadRequest (h : Half)
  /-- R350: With room for an outstanding Read the NVH issues the earliest-deadline load and marks the page LOADING. -/
  | nvmeReadIssue (h : Half)
  /-- R351: A page's Read completes and its CRC makes it RESIDENT, re-read or BAD. -/
  | pageArrive (h : Half) (g : BitVec 20) (data : List Byte)
  /-- R343: An NVMe command without completion after TMO ms is counted and may reset the controller. -/
  | cmdTmo (h : Half) (g : Option (BitVec 20))
  /-- R353: A log write or firmware command completes on its queue. -/
  | nvmeCompletion (h : Half) (fw : Bool)
  /-- R353: An advance of NVH_LOGWR makes the NVH fill in and write a staged log block. -/
  | logBlockSubmit (h : Half)
  /-- R343: A write of NVH_DBq forwards a firmware queue doorbell, held back during a brown-out warning. -/
  | fwDoorbell (h : Half) (q : Fin 6) (tail held : BitVec 8)
  /-- R361: DMA_CTLc.START fetches the descriptor at DMA_DESCc. -/
  | dmaStart (r : Fin 3) (c : Fin 16)
  /-- R362: DMA_CTLc.DOORBELL sets RING in RUN or re-reads the tail descriptor in END. -/
  | dmaDoorbell (r : Fin 3) (c : Fin 16)
  /-- R364: DMA_CTLc.STOP aborts the running descriptor or stops an ended channel. -/
  | dmaStop (r : Fin 3) (c : Fin 16)
  /-- R361: A fetched descriptor is taken if owned, completed as DESC_BAD if malformed, or stops the channel. -/
  | descriptorFetch (r : Fin 3) (c : Fin 16)
  /-- R360: After all write responses the channel writes DONE and STAT back and re-reads the chain words. -/
  | descriptorComplete (r : Fin 3) (c : Fin 16) (rd wr : BitVec 24)
  /-- R362: The re-read of words 6 and 7 arrives and the channel fetches NEXT, re-reads or enters END. -/
  | descriptorReread (r : Fin 3) (c : Fin 16)
  /-- R363: An access has no response within 64 µs and the descriptor completes as TIMEOUT. -/
  | dmaTimeout (r : Fin 3) (c : Fin 16) (rd wr : BitVec 24) (wb : Fin 3)
  /-- R368: A write of DMA_LATCH latches a channel's three counters in one cycle. -/
  | dmaLatch (r : Fin 3) (c : Fin 16)
  /-- R392: A head reaches its latch point and pending commits swap, L7 and layer staleness are judged. -/
  | latchPoint (c : Fin 2)
  /-- R378: A write to PRZ_L7REFRESH records the refresh TB of L7 for a composition. -/
  | l7Refresh (mask : BitVec 2)
  /-- R376: A write of PRZ_REFLAT invalidates the static prefix. -/
  | reflat (c : Fin 2)
  /-- R373: A camera line arrives and the Prism writes its samples into the camera ring or drops it. -/
  | cameraViewLine (h : Half) (k : Fin 2) (busy : Bool)
  /-- R381: The last writeback response of a complete frame arrives and PRZ_WBTB is stored. -/
  | wbDone (c : Fin 2)
  /-- R381: A line's writeback is unfinished when the next line starts and the frame's writeback is abandoned. -/
  | wbDrop (c : Fin 2) (lines : BitVec 11)
  /-- R393: The pixel clock locks after enable or mode change and the raster starts at a latch point. -/
  | rasterStart (c : Fin 2)
  /-- R396: An active pixel is missing, so the head blanks, counts it and restarts vertical timing. -/
  | underrun (c : Fin 2) (lines : BitVec 11)
  /-- R390: In compatibility scan-out the head fetches a line whenever its buffer has room. -/
  | compatLineFetch (c : Fin 2) (shown : BitVec 11)
  /-- R388: A write of DHD_DCMD adds a word to the DSI command FIFO or sets DROP. -/
  | dsiCommandWrite (v : Word)
  /-- R388: A whole packet is sent in vertical blanking or between frame transfers. -/
  | dsiCommandSend
  /-- R388: A bus-turnaround response arrives into DHD_DRSP and CMD_DONE is raised. -/
  | cmdDone (data : List Byte)
  /-- R388: No response arrives within 1 ms, so TMO is set and CMD_DONE raised. -/
  | dsiResponseTimeout
  /-- R395: An accepted TE edge starts a command-mode frame transfer or is counted early. -/
  | teEdge
  /-- R395: No TE edge for two frame periods, so the transfer starts without one. -/
  | teMiss
  /-- R405: BLT_CMD.GO captures and validates the operation registers and starts the operation. -/
  | bltGo (op : Fin 8) (blend : Fin 4) (transp : Bool)
  /-- R406: BLT_CMD.ABORT stops a running operation at the next 16-byte destination boundary. -/
  | bltAbort
  /-- R406: After all write responses the blitter clears BUSY, records ERR and raises DONE or ERROR. -/
  | bltComplete (pixels : BitVec 27)
  /-- R406: A blitter access has no response in 64 µs and the operation stops with TIMEOUT. -/
  | bltTimeout (pixels : BitVec 27)
  /-- R417: At each sample period the mixer applies block changes, takes inputs, advances voices, mixes and pushes outputs. -/
  | audioSamplePeriod (mics : List (BitVec 24))
  /-- R418: No zero crossing within 10 ms, so a pending gain change takes effect. -/
  | zcTmo (which : Fin 3) (src : Fin 52) (b : Fin 16)
  /-- R412: An input port receives a frame into its FIFO. -/
  | audioFrameReceive (p : Fin 2) (slots : List (BitVec 24))
  /-- R412: An output port sends its next frame at frame sync or repeats the previous one. -/
  | audioFrameSync (p : Fin 2)
  /-- R415: A write of AUD_KEYON starts voices at the next block boundary. -/
  | keyon (v : Word)
  /-- R415: A write of AUD_KEYOFF ramps voices down at the next block boundary. -/
  | keyoff (v : Word)
  /-- R421: A write of AUD_PLATCH latches all counters of one port. -/
  | audPlatch (p : Fin 4)
  /-- R429: A write of EVC_TW_DATA stores a source's delivery entry or raises CFG_ERR. -/
  | evcTableWrite (r : Fin 3) (v : Word)
  /-- R431: The EVC_VMOD interval of an INFO or WARN vector ends and a due message is sent. -/
  | msixModerationExpire (h : Half) (v : Fin 64)
  /-- R431: The host unmasks a vector and its pending message is sent if still asserted. -/
  | msixUnmask (h : Half) (v : Fin 64)
  /-- R431: A write of EVC_EOI clears in-service and resends if the vector is still asserted. -/
  | eoi (h : Half) (v : Fin 64)
  /-- R435: An inbound read without internal response in 64 µs completes with Completer Abort. -/
  | hostReadTimeout (h : Half)
  /-- R435: A hot reset or link loss resets the HIF page and MSI-X table and closes the mailbox session. -/
  | hostLinkDown (h : Half)
  /-- R437: MBX_SESS.OPEN grants D5 to the endpoint or refuses with REF_NOD5 or REF_HELD. -/
  | mbxOpen (ep : Half)
  /-- R437: MBX_SESS.CLOSE ends the endpoint's D5 session. -/
  | mbxClose (ep : Half)
  /-- R437: A write of MBX_KEEP restarts the session timeout. -/
  | mbxKeep (ep : Half)
  /-- R437: Ten seconds without a request or keep ends the session. -/
  | mbxSessionTimeout
  /-- R441: A delivered source event advances the prescaler and may tick the timer. -/
  | timerSourceEvent (r : Fin 3) (t : Fin 16)
  /-- R445: A capture trigger stores the count in the capture queue or counts CAPLOST. -/
  | timerCaptureEdge (r : Fin 3) (t : Fin 16)
  /-- R442: A write of TMR_CTL.RUN starts or stops ticking. -/
  | timerRun (r : Fin 3) (t : Fin 16) (run : Bool)
  /-- R444: TMR_CTL.CLR zeroes count, TICKS and accumulator and checks a passed compare. -/
  | timerClr (r : Fin 3) (t : Fin 16) (run : Bool)
  /-- R445: TMR_CTL.CAPNOW captures the count. -/
  | capnow (r : Fin 3) (t : Fin 16) (run : Bool)
  /-- R445: A read of TMR_CAP pops the oldest capture. -/
  | timerCapPop (r : Fin 3) (t : Fin 16)
  /-- R453: A pad input changes and the synchronised level reaches its input functions. -/
  | pinEdge (n : BitVec 8) (level : Bool)
  /-- R456: A pattern matcher's result holds for FILT_M1+1 samples and updates its output and event. -/
  | pmMatch (m : Fin 8)
  /-- R449: A bank's detected supply level changes and its pads return to reset state. -/
  | bankV (k : Fin 8) (v18 : Bool)
  /-- R455: A store to KPIN_XOR toggles the written bits of KPIN_OUT. -/
  | kpinXor (c : Fin 8) (v : BitVec 16)
  /-- R468: CFG_FLCMD READ reads 256 bytes of the flash into CFG_FLBUF. -/
  | flashRead (m : Master)
  /-- R468: CFG_FLCMD PROGRAM writes a 256-byte page or is refused. -/
  | flashProgram (m : Master)
  /-- R468: CFG_FLCMD ERASE erases 64 KiB or is refused. -/
  | flashErase (m : Master)
  /-- R468: A flash command completes and FLDONE is raised. -/
  | fldone
  /-- R470: SEC_OTPCMD program writes a customer key hash from a D5 session. -/
  | otpProgram (m : Master) (slot : BitVec 2)
  /-- R470: SEC_OTPCMD revoke revokes a customer key. -/
  | otpRevoke (m : Master) (slot : BitVec 2)
  /-- R470: An OTP operation completes. -/
  | otpdone
  /-- R471: SEC_ATCMD.GO starts building and signing an attestation report. -/
  | attestGo
  /-- R471: The signed report is in SEC_REPORT and ATDONE is raised. -/
  | atdone
  /-- R474: A supply falls below its warning level and its region refuses commits and holds writes. -/
  | boWarn (rg : Fin 3) (mv : BitVec 12)
  /-- R474: The supply stays above warning plus 20 mV for 10 µs and the warning ends. -/
  | boClear (rg : Fin 3) (mv : BitVec 12) (elapsed : Nat) (tr : Train)
  /-- R475: A supply reaches its reset level and only its region is reset. -/
  | boReset (rg : Fin 4) (mv : BitVec 12)
  /-- R477: PWR_REQ.WARM stops production, fences both halves and resets halves and service. -/
  | warm (src : Option (Master × BitVec 16))
  /-- R476: PWR_REQ.SVCRST resets the service region. -/
  | svcrst (src : Option (Master × BitVec 16))
  /-- R481: PWR_REQ.HSTBY puts a half into half standby. -/
  | hstby (h : Half) (src : Option (Master × BitVec 16))
  /-- R481: PWR_REQ.WAKE relocks, retrains and puts the half into INIT. -/
  | wake (h : Half) (elapsed : Nat) (tr : Train) (src : Option (Master × BitVec 16))
  /-- R481: PWR_REQ.DIM stops the heads, Prism, Condenser and blitter. -/
  | dim (src : Option (Master × BitVec 16))
  /-- R481: PWR_REQ.UNDIM restarts the heads. -/
  | undim (src : Option (Master × BitVec 16))
  /-- R485: A write of PWR_CLR clears BROWNOUT_SEEN in the pages of a region. -/
  | pwrClr (m : Master) (mask : BitVec 3)
  /-- R483: The service temperature reaches ON and the service cores and blitter slow down. -/
  | throttle (t : BitVec 8)
  /-- R483: A region's temperature exceeds 105 °C and HOT is raised. -/
  | hot (rg : Fin 3) (t : BitVec 8)
  /-- R478: PG_CTL.RESET returns a block's registers and pending commit to reset values, or is refused. -/
  | blockReset (rg : Fin 4) (pg : BitVec 12)
  /-- R481: A write of PG_CTL.ENABLE stops or resumes the block's clock. -/
  | clockGate (rg : Fin 4) (pg : BitVec 12) (enable : Bool)
  /-- R488: PG_COMMIT.REQ arms a page or group commit after request-time checks. -/
  | commitReq (rg : Fin 4) (pg : BitVec 12) (group bound : Fin 16)
  /-- R490: PG_COMMIT.CANCEL withdraws the armed request of a page or group. -/
  | commitCancel (rg : Fin 4) (pg : BitVec 12) (group bound : Fin 16)
  /-- R493: The owner writes WRITERS or FREEZE of PG_LOCK. -/
  | pgLockWrite (m : Master) (rg : Fin 4) (pg : BitVec 12) (v : Word)
  /-- R24: A write to a register without behaviour of its own passes the domain check and takes effect. -/
  | registerWrite (m : Master) (a : BitVec 40) (data : List Byte)
  /-- R51: In each sampling cycle between edges the beam unit advances the interpolated angle, raising any tap crossing it passes and reducing velocity once it stops at its limit. -/
  | interpolatedAngleAdvance (h : Half) (b : Fin 4)
  /-- R208: A half PLL loses lock, sets PLL in its self-check word and reports fault 0x0D to the referee. -/
  | pllLoss (h : Half)
  /-- R398: A display head's pixel clock loses lock and the DHD page raises LOCK_LOST. -/
  | lockLost (c : Fin 2)
  /-- R432: A host endpoint's PCIe link trains up and the HIF page raises LINK_UP and shows speed and width. -/
  | hostLinkUp (h : Half) (speed width : Fin 5)
  /-- R483: The service temperature falls below ON minus HYST, THROT clears and the service cores and blitter return to full speed. -/
  | throttleClear (t : BitVec 8)
  /-- R196: The peer half receives a mirror record of a closed EVT frame, updates its port state and confirms it in the next cycle. -/
  | mirrorRecordReceive (h : Half) (p : Fin 64)
  /-- R343: The NVH finishes resetting the NVMe controller and re-creating its queues, raises CTRL_RESET and resumes loading. -/
  | ctrlReset (h : Half)
  /-- R326: The DRAM device temperature crosses 85 °C with AUTO2X set and the controller changes between 1x and 2x refresh, updating MEC_STAT.REF2X. -/
  | ref2x (h : Half) (ch : Fin 2) (temp : BitVec 8)
  /-- R11: A read of an RC register returns its value and then clears it. -/
  | rcRead (m : Master) (a : BitVec 40)
  /-- R32: A master's read of a 64-bit register's low word, such as BEAM_TB_LO or BEAM_ANGLEb, latches the high word for that master. -/
  | lowWordRead (m : Master) (a : BitVec 40)
deriving DecidableEq, Repr

end Sys2Proof
end

