-- ==== Sys2Proof/Decode.lean ====
section
/-!
DEFINITION. Commands come from outside as commands: no row of the table gives an encoding, so no word spells one.
-/
namespace Sys2Proof

/-- The command that a word spells by the table's bits: the table gives none of its rows bits. -/
def decodeTableWord (_nbits _w : Nat) : Option Instr := none

end Sys2Proof
end

