-- ==== Sys2Proof/Config.lean ====
section
/-!
DEFINITION. What an implementation fixes and what the manual leaves open. Each constant here is opaque: nothing can
evaluate it, so every claim holds for every value it may have. Notes: the assumption log names each one.
-/
namespace Sys2Proof.Config

/-- The value of an unstated or undefined result number `n` (notes/assumptions/1.md). -/
opaque freeWord (n : Nat) : Word
/-- What a signed register field of `bits` bits shows of a value outside its range (notes/assumptions/101.md). -/
opaque fieldOver (bits : Nat) (v : Int) : Nat
/-- The time that a prediction (R56) gives where its divisor is 0: not stated. -/
opaque predZero (delta v a : Int) : Nat
/-- A byte the outside world answers behind a way out of the part (the root port, the host endpoint of each half) at an address there, at the `n`-th
such read. -/
opaque outsideByte (way address n : Nat) : Byte
/-- A byte of a rendered-row pool through its SRAM window (Table 13.3), at the `n`-th such read: which block holds which cells is
not stated. -/
opaque poolByte (address n : Nat) : Byte
/-- Is a bilinear sample (R375) that lies between two values, `num / den`, rounded up (odd) or down (even)? Not stated. -/
opaque lensRound (num den : Nat) : Nat
/-- Is a result of the acoustic unit that lies between two values, `num / den`, rounded up (odd) or down (even)? Not stated for ramps (R418),
voices (R415), the stethoscope (R419) and the meters (R422). -/
opaque audioRound (num : Int) (den : Nat) : Nat
/-- What a 40-bit accumulator holds of a sum outside its range (R416). -/
opaque accOverflow (sum : Int) : Int
/-- What a meter's filter keeps of a result (R422), both in 2^-22 of a sample unit times 2^22: the precision is not stated. -/
opaque meterKeep (y : Int) : Int
/-- What a meter's 24-bit result shows of a value beyond it (R422). -/
opaque meterOver (v : Nat) : Nat

/-- The line that a command-mode transfer (R395) has come to at a time; the level of the colour slots outside the active pixels (R386); whether DRAM is in
self-refresh between bursts at a time (R391); a byte that an uncorrectable word of DRAM shows in a frame: none is stated. -/
opaque transferLine (tb : Nat) : Nat
opaque blankPixel (line pos : Nat) : Nat
opaque selfRefresh (tb k : Nat) : Nat
opaque ueByte (address n : Nat) : Byte

/-- The present level of a function whose owner moves it within a step: the wires of the acoustic unit, the match pulses of timers (Table 22.1). -/
opaque funcLevel (f n : Nat) : Bool

/-- A byte of a page on which a write landed while it was loaded (R351), at an address and an arrival. -/
opaque loadedByte (address n : Nat) : Byte
/-- How the bring-up of a half ends whose REJOIN a write of MBX_REQ asks for: elapsed ticks and DRAM training (R221), coded as one number. -/
opaque bringUp (n : Nat) : Nat

/-- What a page-table entry holds that another master overwrote (R347): kept entry, bytes found. -/
opaque pageEntry (kept found : Nat) : Nat
/-- What a flash byte that is not erased holds after a PROGRAM of it (R468): not stated. -/
opaque flashOver (old new : Byte) : Byte
/-- The vendor root key hash, the fuses NA and -I, the serial number and the certificate of a part (R2, R470, Table 23.10). -/
opaque rootHash : Nat
opaque fusedNA : Bool
opaque fusedInd : Bool
opaque serial : Time
opaque cert (i : Nat) : Word
/-- SHA-384 of a byte string (R465, R470, R471), as a number. -/
opaque sha384 (bytes : List Byte) : Nat
/-- ECDSA P-384 signature made with the device's identity key over a byte string (R471), as a number. -/
opaque sign (bytes : List Byte) : Nat
/-- Does an ECDSA P-384 signature by the key of a key hash verify over a byte string (R465)? -/
opaque verifies (keyHash signature : Nat) (bytes : List Byte) : Bool
/-- The entries of Sorzamet's routines in the render (0) and Loupe (1) partitions (R316, R320), as word addresses. -/
opaque ucsEntries (part : Nat) : List Nat
/-- The status screen of R463 for a value of CFG_BOOTST: bytes by offset in frame SRAM. -/
opaque statusScreen (bootst : Nat) : List (Nat × Byte)

end Sys2Proof.Config
end

