-- ==== Sys2Proof/Machine/Fields.lean ====
section
/-!
DEFINITION. The register fields of every page, from the register tables of the manual: offset in the page, distance between
instances of an indexed register, lowest bit, width. `F.ix i` is the field in instance i of its register.
-/
namespace Sys2Proof.Machine

/-- A field of a register: page offset, stride between instances, lowest bit and width. -/
structure Fld where
  off : Nat
  stride : Nat
  lo : Nat
  w : Nat
deriving DecidableEq, Repr

/-- The field in instance `i` of its register. -/
def Fld.ix (f : Fld) (i : Nat) : Fld := { f with off := f.off + f.stride * i }

def PG_ID.LAYOUT : Fld := ⟨0x000, 0x4, 0, 8⟩
def PG_ID.INSTANCE : Fld := ⟨0x000, 0x4, 8, 8⟩
def PG_ID.TYPE : Fld := ⟨0x000, 0x4, 16, 16⟩
def PG_CAP.CAP : Fld := ⟨0x004, 0x4, 0, 32⟩
def PG_STAT.READY : Fld := ⟨0x008, 0x4, 0, 1⟩
def PG_STAT.BUSY : Fld := ⟨0x008, 0x4, 1, 1⟩
def PG_STAT.FAULT : Fld := ⟨0x008, 0x4, 2, 1⟩
def PG_STAT.DEFAULTED : Fld := ⟨0x008, 0x4, 3, 1⟩
def PG_STAT.QUARANTINED : Fld := ⟨0x008, 0x4, 4, 1⟩
def PG_STAT.BROWNOUT_SEEN : Fld := ⟨0x008, 0x4, 5, 1⟩
def PG_CTL.ENABLE : Fld := ⟨0x00C, 0x4, 0, 1⟩
def PG_CTL.RESET : Fld := ⟨0x00C, 0x4, 1, 1⟩
def PG_CTL.VIEW : Fld := ⟨0x00C, 0x4, 2, 1⟩
def PG_COMMIT.REQ : Fld := ⟨0x010, 0x4, 0, 1⟩
def PG_COMMIT.PENDING : Fld := ⟨0x010, 0x4, 1, 1⟩
def PG_COMMIT.CANCEL : Fld := ⟨0x010, 0x4, 2, 1⟩
def PG_COMMIT.GROUP : Fld := ⟨0x010, 0x4, 4, 4⟩
def PG_COMMIT.BOUND : Fld := ⟨0x010, 0x4, 8, 4⟩
def PG_COMMIT.RESULT : Fld := ⟨0x010, 0x4, 16, 8⟩
def PG_EVT_RAW.RAW : Fld := ⟨0x014, 0x4, 0, 32⟩
def PG_EVT_EN.EN : Fld := ⟨0x018, 0x4, 0, 32⟩
def PG_EVT_PEND.PEND : Fld := ⟨0x01C, 0x4, 0, 32⟩
def PG_EVT_ROUTE.ROUTE : Fld := ⟨0x020, 0x4, 0, 32⟩
def PG_ECC_CE.CE : Fld := ⟨0x024, 0x4, 0, 16⟩
def PG_ECC_UE.UE : Fld := ⟨0x028, 0x4, 0, 16⟩
def PG_ECC_LOG_IDX.SEL : Fld := ⟨0x02C, 0x4, 0, 3⟩
def PG_ECC_LOG_IDX.NEXT : Fld := ⟨0x02C, 0x4, 4, 3⟩
def PG_ECC_LOG_IDX.VALID : Fld := ⟨0x02C, 0x4, 8, 4⟩
def PG_ECC_LOG_IDX.CLR : Fld := ⟨0x02C, 0x4, 16, 1⟩
def PG_ECC_LOG_ADDR.ADDR : Fld := ⟨0x030, 0x4, 0, 31⟩
def PG_ECC_LOG_ADDR.UE : Fld := ⟨0x030, 0x4, 31, 1⟩
def PG_BUCKET.FILL : Fld := ⟨0x034, 0x4, 0, 8⟩
def PG_BUCKET.LEAKP : Fld := ⟨0x034, 0x4, 8, 5⟩
def PG_BUCKET.THR : Fld := ⟨0x034, 0x4, 16, 16⟩
def PG_LOCK.OWNER : Fld := ⟨0x038, 0x4, 0, 3⟩
def PG_LOCK.WRITERS : Fld := ⟨0x038, 0x4, 8, 6⟩
def PG_LOCK.FREEZE : Fld := ⟨0x038, 0x4, 31, 1⟩
def PG_SEQ.WRITES : Fld := ⟨0x03C, 0x4, 0, 32⟩
def BEAM_CFG.EN : Fld := ⟨0x040, 0x20, 0, 1⟩
def BEAM_CFG.MODE : Fld := ⟨0x040, 0x20, 1, 1⟩
def BEAM_CFG.CRITICAL : Fld := ⟨0x040, 0x20, 2, 1⟩
def BEAM_CFG.RUN_UNSYNCED : Fld := ⟨0x040, 0x20, 3, 1⟩
def BEAM_CFG.INV_DIR : Fld := ⟨0x040, 0x20, 4, 1⟩
def BEAM_CFG.IDX_EN : Fld := ⟨0x040, 0x20, 5, 1⟩
def BEAM_CFG.IDX_QUAL : Fld := ⟨0x040, 0x20, 6, 3⟩
def BEAM_CFG.FILT : Fld := ⟨0x040, 0x20, 10, 6⟩
def BEAM_CFG.WIN : Fld := ⟨0x040, 0x20, 16, 4⟩
def BEAM_CFG.AWIN : Fld := ⟨0x040, 0x20, 20, 4⟩
def BEAM_CPR.CPR : Fld := ⟨0x044, 0x20, 0, 21⟩
def BEAM_IDX.IDX_OFFSET : Fld := ⟨0x048, 0x20, 0, 20⟩
def BEAM_IDX.IDX_TOL : Fld := ⟨0x048, 0x20, 24, 8⟩
def BEAM_HYST.HYST : Fld := ⟨0x04C, 0x20, 0, 16⟩
def BEAM_SPEED.SPEED : Fld := ⟨0x050, 0x20, 0, 32⟩
def BEAM_STALL.STALL : Fld := ⟨0x054, 0x20, 0, 24⟩
def BEAM_COARSE.COARSE : Fld := ⟨0x058, 0x20, 0, 32⟩
def BEAM_TAP.FWD : Fld := ⟨0x100, 0x4, 0, 1⟩
def BEAM_TAP.REV : Fld := ⟨0x100, 0x4, 1, 1⟩
def BEAM_TAP.ANGLE : Fld := ⟨0x100, 0x4, 8, 24⟩
def BEAM_STATE.STATE : Fld := ⟨0x800, 0x40, 0, 2⟩
def BEAM_STATE.DIR : Fld := ⟨0x800, 0x40, 2, 1⟩
def BEAM_STATE.STOPPED : Fld := ⟨0x800, 0x40, 3, 1⟩
def BEAM_STATE.IN_HYST : Fld := ⟨0x800, 0x40, 4, 1⟩
def BEAM_STATE.PRED_COARSE : Fld := ⟨0x800, 0x40, 5, 1⟩
def BEAM_STATE.FAULT_CAUSE : Fld := ⟨0x800, 0x40, 8, 4⟩
def BEAM_ANGLE.ANGLE : Fld := ⟨0x804, 0x40, 0, 32⟩
def BEAM_REV.REV : Fld := ⟨0x808, 0x40, 0, 32⟩
def BEAM_VEL.VEL : Fld := ⟨0x80C, 0x40, 0, 32⟩
def BEAM_ACC.ACC : Fld := ⟨0x810, 0x40, 0, 32⟩
def BEAM_COUNT.COUNT : Fld := ⟨0x814, 0x40, 0, 20⟩
def BEAM_IDXDEV.DEV : Fld := ⟨0x818, 0x40, 0, 16⟩
def BEAM_IDXDEV.SEEN : Fld := ⟨0x818, 0x40, 16, 16⟩
def BEAM_QERR.QERR : Fld := ⟨0x81C, 0x40, 0, 16⟩
def BEAM_QERR.GLITCH : Fld := ⟨0x81C, 0x40, 16, 16⟩
def BEAM_SLIP.SLIPS : Fld := ⟨0x820, 0x40, 0, 16⟩
def BEAM_SLIP.REVERSALS : Fld := ⟨0x820, 0x40, 16, 16⟩
def BEAM_XLOST.XLOST : Fld := ⟨0x824, 0x40, 0, 16⟩
def BEAM_RESYNC.GO : Fld := ⟨0x828, 0x40, 0, 1⟩
def BEAM_PRED_CTL.BEAM : Fld := ⟨0x900, 0x4, 0, 2⟩
def BEAM_PRED_CTL.REQ : Fld := ⟨0x900, 0x4, 4, 1⟩
def BEAM_PRED_CTL.BUSY : Fld := ⟨0x900, 0x4, 5, 1⟩
def BEAM_PRED_ANGLE.ANGLE : Fld := ⟨0x904, 0x4, 0, 32⟩
def BEAM_PRED_REV.REV : Fld := ⟨0x908, 0x4, 0, 32⟩
def BEAM_PRED_TLO.T : Fld := ⟨0x90C, 0x4, 0, 32⟩
def BEAM_PRED_THI.T : Fld := ⟨0x910, 0x4, 0, 32⟩
def BEAM_PRED_STAT.VALID : Fld := ⟨0x914, 0x4, 0, 1⟩
def BEAM_PRED_STAT.NEVER : Fld := ⟨0x914, 0x4, 1, 1⟩
def BEAM_PRED_STAT.STOPS_SHORT : Fld := ⟨0x914, 0x4, 2, 1⟩
def BEAM_PRED_STAT.FAR : Fld := ⟨0x914, 0x4, 3, 1⟩
def BEAM_PRED_STAT.COARSE : Fld := ⟨0x914, 0x4, 4, 1⟩
def BEAM_PRED_STAT.OVERRUN : Fld := ⟨0x914, 0x4, 5, 1⟩
def BEAM_TB_LO.T : Fld := ⟨0x920, 0x4, 0, 32⟩
def BEAM_TB_HI.T : Fld := ⟨0x924, 0x4, 0, 32⟩
def ROW_CFG.PREFETCH : Fld := ⟨0x040, 0x4, 0, 1⟩
def ROW_CPLEN.PLANE_EN : Fld := ⟨0x100, 0x4, 0, 8⟩
def ROW_CPLEN.BG : Fld := ⟨0x100, 0x4, 8, 4⟩
def ROW_MTAB.BASE : Fld := ⟨0x140, 0x4, 0, 12⟩
def ROW_MTAB.COUNT : Fld := ⟨0x140, 0x4, 16, 11⟩
def ROW_MCFG.MEN : Fld := ⟨0x144, 0x4, 0, 1⟩
def ROW_MCFG.LIMIT_M1 : Fld := ⟨0x144, 0x4, 8, 7⟩
def ROW_MXOFF.MXOFF : Fld := ⟨0x148, 0x4, 0, 17⟩
def ROW_ACT.ACTION : Fld := ⟨0x180, 0x4, 0, 4⟩
def ROW_ACT.PROFILE : Fld := ⟨0x180, 0x4, 4, 4⟩
def ROW_ACT.MODE : Fld := ⟨0x180, 0x4, 8, 1⟩
def ROW_ACT.OFFSET : Fld := ⟨0x180, 0x4, 16, 16⟩
def ROW_YT_LO.E : Fld := ⟨0x200, 0x8, 0, 32⟩
def ROW_YT_HI.E : Fld := ⟨0x204, 0x8, 0, 32⟩
def ROW_PCFG.TSIZE : Fld := ⟨0x300, 0x40, 0, 2⟩
def ROW_PCFG.DEPTH : Fld := ⟨0x300, 0x40, 2, 2⟩
def ROW_PCFG.TRANSP : Fld := ⟨0x300, 0x40, 4, 1⟩
def ROW_PCFG.YSEL_OVR : Fld := ⟨0x300, 0x40, 5, 1⟩
def ROW_PCFG.YSEL : Fld := ⟨0x300, 0x40, 6, 4⟩
def ROW_PMAP_LO.BASE : Fld := ⟨0x304, 0x40, 6, 26⟩
def ROW_PMAP_HI.BASE : Fld := ⟨0x308, 0x40, 0, 8⟩
def ROW_PDIM.WT_M1 : Fld := ⟨0x30C, 0x40, 0, 13⟩
def ROW_PDIM.HT_M1 : Fld := ⟨0x30C, 0x40, 16, 16⟩
def ROW_PTILE_LO.BASE : Fld := ⟨0x310, 0x40, 6, 26⟩
def ROW_PTILE_HI.BASE : Fld := ⟨0x314, 0x40, 0, 8⟩
def ROW_PTCNT.COUNT : Fld := ⟨0x318, 0x40, 0, 21⟩
def ROW_PHSC.HSCROLL : Fld := ⟨0x31C, 0x40, 0, 19⟩
def ROW_PVSC.VSCROLL : Fld := ⟨0x320, 0x40, 0, 23⟩
def ROW_PWIN.X0 : Fld := ⟨0x324, 0x40, 0, 16⟩
def ROW_PWIN.X1 : Fld := ⟨0x324, 0x40, 16, 16⟩
def ROW_PYLD.Y : Fld := ⟨0x328, 0x40, 0, 23⟩
def ROW_PYLD.LOAD : Fld := ⟨0x328, 0x40, 31, 1⟩
def ROW_CSEL.CTX : Fld := ⟨0x800, 0x4, 0, 5⟩
def ROW_BIND.BEAM : Fld := ⟨0x804, 0x4, 0, 2⟩
def ROW_BIND.TAP : Fld := ⟨0x804, 0x4, 2, 6⟩
def ROW_BIND.LEAD_M1 : Fld := ⟨0x804, 0x4, 8, 4⟩
def ROW_BIND.REVERSIBLE : Fld := ⟨0x804, 0x4, 12, 1⟩
def ROW_BIND.CRITICAL : Fld := ⟨0x804, 0x4, 13, 1⟩
def ROW_BIND.W_M1 : Fld := ⟨0x804, 0x4, 16, 16⟩
def ROW_START.START : Fld := ⟨0x808, 0x4, 0, 32⟩
def ROW_CMD.CMD : Fld := ⟨0x80C, 0x4, 0, 4⟩
def ROW_CMD.WHEN : Fld := ⟨0x80C, 0x4, 8, 1⟩
def ROW_CMDROW.ROW : Fld := ⟨0x810, 0x4, 0, 32⟩
def ROW_CSTAT.STATE : Fld := ⟨0x814, 0x4, 0, 3⟩
def ROW_CSTAT.FAULT_CAUSE : Fld := ⟨0x814, 0x4, 4, 4⟩
def ROW_CSTAT.REFUSE : Fld := ⟨0x814, 0x4, 8, 8⟩
def ROW_CSTAT.DUE : Fld := ⟨0x814, 0x4, 16, 1⟩
def ROW_CSTAT.PARKED : Fld := ⟨0x814, 0x4, 17, 1⟩
def ROW_CSTAT.CMD_PEND : Fld := ⟨0x814, 0x4, 18, 1⟩
def ROW_ROWNUM.N : Fld := ⟨0x818, 0x4, 0, 32⟩
def ROW_PAGE.AHEAD : Fld := ⟨0x81C, 0x4, 0, 16⟩
def ROW_CCNT_REND.ROWS : Fld := ⟨0x820, 0x4, 0, 32⟩
def ROW_CCNT_ERR.TILE_RANGE : Fld := ⟨0x824, 0x4, 0, 16⟩
def ROW_CCNT_ERR.MAP_RSV : Fld := ⟨0x824, 0x4, 16, 16⟩
def ROW_CCNT_XING.HELD : Fld := ⟨0x828, 0x4, 0, 16⟩
def ROW_CCNT_XING.REFUSED : Fld := ⟨0x828, 0x4, 16, 16⟩
def ROW_CCNT_LATE.LATE : Fld := ⟨0x82C, 0x4, 0, 16⟩
def ROW_CCNT_LATE.PARKS : Fld := ⟨0x82C, 0x4, 16, 16⟩
def ROW_PYPOS.Y : Fld := ⟨0x830, 0x4, 0, 23⟩
def ROW_HELDN.N : Fld := ⟨0x850, 0x4, 0, 32⟩
def ROW_STAT.BUSY : Fld := ⟨0x900, 0x4, 0, 1⟩
def ROW_STAT.CUR : Fld := ⟨0x900, 0x4, 1, 5⟩
def ROW_STAT.DUE_CNT : Fld := ⟨0x900, 0x4, 8, 6⟩
def ROW_STAT.LOUPE : Fld := ⟨0x900, 0x4, 16, 1⟩
def ROW_TCINV.ALL : Fld := ⟨0x904, 0x4, 0, 1⟩
def ROW_TCINV.RANGE : Fld := ⟨0x904, 0x4, 1, 1⟩
def ROW_TCINV.BUSY : Fld := ⟨0x904, 0x4, 31, 1⟩
def ROW_TCINV_BASE_LO.BASE : Fld := ⟨0x908, 0x4, 6, 26⟩
def ROW_TCINV_BASE_HI.BASE : Fld := ⟨0x90C, 0x4, 0, 8⟩
def ROW_TCINV_LEN.LEN : Fld := ⟨0x910, 0x4, 6, 26⟩
def ROW_TC_HIT.COUNT : Fld := ⟨0x914, 0x4, 0, 32⟩
def ROW_TC_MISS.COUNT : Fld := ⟨0x918, 0x4, 0, 32⟩
def ROW_STALL.CYCLES : Fld := ⟨0x91C, 0x4, 0, 32⟩
def ROW_MAXREND.CYCLES : Fld := ⟨0x920, 0x4, 0, 16⟩
def ROW_EVT_CTX.CTX : Fld := ⟨0x924, 0x4, 0, 32⟩
def ROW_MAW_IDX.IDX : Fld := ⟨0x928, 0x4, 0, 12⟩
def ROW_MAW_IDX.AUTOINC : Fld := ⟨0x928, 0x4, 16, 1⟩
def ROW_MAW_D.W : Fld := ⟨0x940, 0x4, 0, 32⟩
def ROW_MC_HIT.COUNT : Fld := ⟨0x960, 0x4, 0, 32⟩
def ROW_MC_MISS.COUNT : Fld := ⟨0x964, 0x4, 0, 32⟩
def ROW_MCINV.ALL : Fld := ⟨0x968, 0x4, 0, 1⟩
def ROW_MCINV.RANGE : Fld := ⟨0x968, 0x4, 1, 1⟩
def ROW_MCINV.BUSY : Fld := ⟨0x968, 0x4, 31, 1⟩
def ROW_MOVF.DROPS : Fld := ⟨0xA00, 0x8, 0, 16⟩
def ROW_MOVF.ROWS : Fld := ⟨0xA00, 0x8, 16, 16⟩
def ROW_MERR.BAD : Fld := ⟨0xA04, 0x8, 0, 16⟩
def ROW_MERR.LIVEWR : Fld := ⟨0xA04, 0x8, 16, 16⟩
def ROW_MPEAK.PEAK : Fld := ⟨0xB00, 0x4, 0, 11⟩
def ROW_MPEAK.FIDLOST : Fld := ⟨0xB00, 0x4, 16, 16⟩
def ROW_XCFG.LPEN : Fld := ⟨0xB80, 0x4, 0, 1⟩
def ROW_XCFG.LPCORE : Fld := ⟨0xB80, 0x4, 1, 1⟩
def ROW_XCFG.GRP : Fld := ⟨0xB80, 0x4, 2, 4⟩
def ROW_XCFG.GLINK : Fld := ⟨0xB80, 0x4, 6, 1⟩
def ROW_XCFG.RSHIFT : Fld := ⟨0xB80, 0x4, 16, 16⟩
def ROW_HR_LO.DLOG2 : Fld := ⟨0xC00, 0x10, 0, 5⟩
def ROW_HR_LO.BASE_LO : Fld := ⟨0xC00, 0x10, 20, 12⟩
def ROW_HR_HI.BASE_HI : Fld := ⟨0xC04, 0x10, 0, 8⟩
def ROW_HWM.H : Fld := ⟨0xC08, 0x10, 0, 32⟩
def ROW_REVST.RECS : Fld := ⟨0xC0C, 0x10, 0, 17⟩
def ROW_REVST.REVHELD : Fld := ⟨0xC0C, 0x10, 17, 1⟩
def ROW_REVST.PHASE : Fld := ⟨0xC0C, 0x10, 18, 2⟩
def ROW_RCNT.REVROWS : Fld := ⟨0xE00, 0x8, 0, 16⟩
def ROW_RCNT.REPLAYS : Fld := ⟨0xE00, 0x8, 16, 16⟩
def ROW_RERR.SKIPS : Fld := ⟨0xE04, 0x8, 0, 8⟩
def ROW_RERR.DUEDROP : Fld := ⟨0xE04, 0x8, 8, 8⟩
def ROW_RERR.LIMIT : Fld := ⟨0xE04, 0x8, 16, 8⟩
def ROW_RERR.RECBAD : Fld := ⟨0xE04, 0x8, 24, 8⟩
def ROW_RIDX.BASE : Fld := ⟨0xF00, 0x4, 0, 28⟩
def ROW_RIDX.EN : Fld := ⟨0xF00, 0x4, 31, 1⟩
def HRN_GMASK.MASK : Fld := ⟨0x040, 0x4, 0, 16⟩
def HRN_GOFF.GOFF : Fld := ⟨0x080, 0x4, 0, 16⟩
def HRN_TW_IDX.IDX : Fld := ⟨0x800, 0x4, 0, 16⟩
def HRN_TW_IDX.AUTOINC : Fld := ⟨0x800, 0x4, 16, 1⟩
def HRN_TW_DATA.ENTRY : Fld := ⟨0x804, 0x4, 0, 32⟩
def HRN_STAT.COPY : Fld := ⟨0x808, 0x4, 0, 1⟩
def HRN_STAT.VALIDATING : Fld := ⟨0x808, 0x4, 1, 1⟩
def HRN_STAT.LANES : Fld := ⟨0x808, 0x4, 8, 8⟩
def HRN_SEGMAP_IDX.CTX : Fld := ⟨0x80C, 0x4, 0, 8⟩
def HRN_SEGMAP_LO.MAP : Fld := ⟨0x810, 0x4, 0, 32⟩
def HRN_SEGMAP_HI.MAP : Fld := ⟨0x814, 0x4, 0, 32⟩
def HRN_CERR.COLRANGE : Fld := ⟨0x820, 0x4, 0, 16⟩
def HRN_CERR.BEAMMIS : Fld := ⟨0x820, 0x4, 16, 16⟩
def HRN_GMASKED.COUNT : Fld := ⟨0x824, 0x4, 0, 32⟩
def HRN_UE.COUNT : Fld := ⟨0x828, 0x4, 0, 16⟩
def HRN_MAXGATH.CYCLES : Fld := ⟨0x82C, 0x4, 0, 16⟩
def AEQ_LEADT.TICKS : Fld := ⟨0x040, 0x4, 0, 24⟩
def AEQ_MINSPAN.SPAN : Fld := ⟨0x044, 0x4, 0, 32⟩
def AEQ_MAXSPAN.SPAN : Fld := ⟨0x048, 0x4, 0, 32⟩
def AEQ_CFG.QFULL_CRIT : Fld := ⟨0x04C, 0x4, 0, 1⟩
def AEQ_CFG.EXPIRE : Fld := ⟨0x04C, 0x4, 1, 1⟩
def AEQ_CNT_IDX.CH : Fld := ⟨0x800, 0x4, 0, 16⟩
def AEQ_CNT_ENQ.COUNT : Fld := ⟨0x804, 0x4, 0, 32⟩
def AEQ_CNT_FIRED.COUNT : Fld := ⟨0x808, 0x4, 0, 32⟩
def AEQ_CNT_CANC.COUNT : Fld := ⟨0x80C, 0x4, 0, 32⟩
def AEQ_CNT_UNF.COUNT : Fld := ⟨0x810, 0x4, 0, 32⟩
def AEQ_CNT_DROP.COUNT : Fld := ⟨0x814, 0x4, 0, 32⟩
def AEQ_CHST.OCC : Fld := ⟨0x818, 0x4, 0, 4⟩
def AEQ_CHST.SENT : Fld := ⟨0x818, 0x4, 4, 4⟩
def AEQ_CHST.REF_ACTION : Fld := ⟨0x818, 0x4, 8, 4⟩
def AEQ_CHST.REF_PROFILE : Fld := ⟨0x818, 0x4, 12, 4⟩
def AEQ_QFULL.COUNT : Fld := ⟨0x830, 0x4, 0, 32⟩
def AEQ_EXPIRED.COUNT : Fld := ⟨0x834, 0x4, 0, 32⟩
def AEQ_LATE.COUNT : Fld := ⟨0x838, 0x4, 0, 32⟩
def AEQ_UE.COUNT : Fld := ⟨0x83C, 0x4, 0, 32⟩
def AEQ_POCC.QUEUED : Fld := ⟨0x900, 0x4, 0, 16⟩
def AEQ_POCC.SENT : Fld := ⟨0x900, 0x4, 16, 16⟩
def RLK_CFG.EN : Fld := ⟨0x040, 0x4, 0, 1⟩
def RLK_CFG.RBEAM : Fld := ⟨0x040, 0x4, 1, 2⟩
def RLK_CFG.CRIT : Fld := ⟨0x040, 0x4, 3, 1⟩
def RLK_CFG.AUDIT_CRIT : Fld := ⟨0x040, 0x4, 4, 1⟩
def RLK_CFG.ERRLIM : Fld := ⟨0x040, 0x4, 8, 8⟩
def RLK_CFG.RTO : Fld := ⟨0x040, 0x4, 16, 10⟩
def RLK_STAT.STATE : Fld := ⟨0x800, 0x4, 0, 3⟩
def RLK_STAT.SESS : Fld := ⟨0x800, 0x4, 3, 1⟩
def RLK_STAT.LOCKED : Fld := ⟨0x800, 0x4, 4, 1⟩
def RLK_STAT.BACTIVE : Fld := ⟨0x800, 0x4, 5, 1⟩
def RLK_STAT.BFENCED : Fld := ⟨0x800, 0x4, 6, 1⟩
def RLK_STAT.RSTALE : Fld := ⟨0x800, 0x4, 7, 1⟩
def RLK_STAT.BFAULT : Fld := ⟨0x800, 0x4, 8, 8⟩
def RLK_STAT.POOL : Fld := ⟨0x800, 0x4, 16, 16⟩
def RLK_EPOCH.EPOCH : Fld := ⟨0x804, 0x4, 0, 32⟩
def RLK_BOARD_ID.ID : Fld := ⟨0x808, 0x4, 0, 32⟩
def RLK_PDLY.PDLY : Fld := ⟨0x80C, 0x4, 0, 16⟩
def RLK_SEQ.TXNEXT : Fld := ⟨0x810, 0x4, 0, 16⟩
def RLK_SEQ.OLDEST : Fld := ⟨0x810, 0x4, 16, 16⟩
def RLK_CREDIT.C : Fld := ⟨0x814, 0x4, 0, 16⟩
def RLK_ES.COUNT : Fld := ⟨0x818, 0x4, 0, 32⟩
def RLK_CR.COUNT : Fld := ⟨0x81C, 0x4, 0, 32⟩
def RLK_AUDD.D : Fld := ⟨0x820, 0x4, 0, 32⟩
def RLK_ERR.CRC : Fld := ⟨0x828, 0x4, 0, 16⟩
def RLK_ERR.CODE : Fld := ⟨0x828, 0x4, 16, 16⟩
def RLK_RETX.RESENT : Fld := ⟨0x82C, 0x4, 0, 16⟩
def RLK_RETX.RETRY : Fld := ⟨0x82C, 0x4, 16, 16⟩
def RLK_LINK.RETRAIN : Fld := ⟨0x830, 0x4, 0, 16⟩
def RLK_LINK.TOUT : Fld := ⟨0x830, 0x4, 16, 16⟩
def RLK_RPT.RPTBAD : Fld := ⟨0x834, 0x4, 0, 16⟩
def RLK_RPT.AHEAD : Fld := ⟨0x834, 0x4, 16, 16⟩
def RLK_AUDF.AUDIT : Fld := ⟨0x838, 0x4, 0, 16⟩
def RLK_AUDF.LOST : Fld := ⟨0x838, 0x4, 16, 16⟩
def RLK_MIRR.LATE : Fld := ⟨0x83C, 0x4, 0, 16⟩
def RLK_MIRR.MGAP : Fld := ⟨0x83C, 0x4, 16, 16⟩
def RLK_MGT_CTL.GO : Fld := ⟨0x900, 0x4, 0, 1⟩
def RLK_MGT_CTL.OP : Fld := ⟨0x900, 0x4, 1, 2⟩
def RLK_MGT_CTL.COUNT_M1 : Fld := ⟨0x900, 0x4, 4, 4⟩
def RLK_MGT_CTL.BUSY : Fld := ⟨0x900, 0x4, 8, 1⟩
def RLK_MGT_CTL.STATUS : Fld := ⟨0x900, 0x4, 16, 8⟩
def RLK_MGT_ADDR.ADDR : Fld := ⟨0x904, 0x4, 0, 32⟩
def RLK_MGT_D.DATA : Fld := ⟨0x940, 0x4, 0, 32⟩
def SEAL_CFG.TMO : Fld := ⟨0x040, 0x4, 0, 5⟩
def SEAL_STAT.OWN : Fld := ⟨0x800, 0x4, 0, 11⟩
def SEAL_STAT.PEER : Fld := ⟨0x800, 0x4, 16, 11⟩
def SEAL_STAT.SEND : Fld := ⟨0x800, 0x4, 28, 1⟩
def SEAL_STAT.GATE : Fld := ⟨0x800, 0x4, 29, 1⟩
def SEAL_STAT.OBSERVE : Fld := ⟨0x800, 0x4, 30, 1⟩
def SEAL_STAT.HELD : Fld := ⟨0x800, 0x4, 31, 1⟩
def SEAL_CMP.COUNT : Fld := ⟨0x804, 0x4, 0, 32⟩
def SEAL_MISM.COUNT : Fld := ⟨0x808, 0x4, 0, 32⟩
def SEAL_TMOC.COUNT : Fld := ⟨0x80C, 0x4, 0, 32⟩
def SEAL_OBSM.COUNT : Fld := ⟨0x810, 0x4, 0, 32⟩
def SEAL_REISS.COUNT : Fld := ⟨0x814, 0x4, 0, 32⟩
def SEAL_SCW.SCW : Fld := ⟨0x818, 0x4, 0, 32⟩
def SEAL_NOREC.COUNT : Fld := ⟨0x81C, 0x4, 0, 32⟩
def SEAL_LOG.REC : Fld := ⟨0x820, 0x4, 0, 32⟩
def SEAL_LOGP.SEAL : Fld := ⟨0x830, 0x4, 0, 32⟩
def REF_ID.STEPPING : Fld := ⟨0x800, 0x4, 0, 8⟩
def REF_ID.PART : Fld := ⟨0x800, 0x4, 16, 16⟩
def REF_HSTATE.HSA : Fld := ⟨0x804, 0x4, 0, 3⟩
def REF_HSTATE.HSB : Fld := ⟨0x804, 0x4, 4, 3⟩
def REF_HSTATE.INCHARGE : Fld := ⟨0x804, 0x4, 8, 1⟩
def REF_HSTATE.MODE : Fld := ⟨0x804, 0x4, 9, 1⟩
def REF_HSTATE.RJPHASE : Fld := ⟨0x804, 0x4, 12, 2⟩
def REF_HSTATE.STOP : Fld := ⟨0x804, 0x4, 16, 1⟩
def REF_HSTATE.BUSY : Fld := ⟨0x804, 0x4, 17, 1⟩
def REF_EPOCH.EPOCH : Fld := ⟨0x808, 0x4, 0, 32⟩
def REF_CFG.PREFER : Fld := ⟨0x80C, 0x4, 0, 1⟩
def REF_CFG.AUTOREJOIN : Fld := ⟨0x80C, 0x4, 1, 1⟩
def REF_CFG.RJ_ROWS : Fld := ⟨0x80C, 0x4, 8, 8⟩
def REF_COUNT.TAKEOVERS : Fld := ⟨0x810, 0x4, 0, 16⟩
def REF_COUNT.HANDOVERS : Fld := ⟨0x810, 0x4, 16, 16⟩
def REF_LASTDEC.CODE : Fld := ⟨0x814, 0x4, 0, 8⟩
def REF_LASTDEC.ACCUSED : Fld := ⟨0x814, 0x4, 8, 1⟩
def REF_LASTDEC.NONE : Fld := ⟨0x814, 0x4, 9, 1⟩
def REF_LASTDEC.RULE : Fld := ⟨0x814, 0x4, 10, 3⟩
def REF_LASTDEC.OUTCOME : Fld := ⟨0x814, 0x4, 13, 3⟩
def REF_LASTDEC.ELAPSED : Fld := ⟨0x814, 0x4, 16, 16⟩
def REF_SCW.SCW : Fld := ⟨0x818, 0x4, 0, 32⟩
def REF_FLOG_HEAD.TOTAL : Fld := ⟨0x820, 0x4, 0, 32⟩
def REF_EPFLOOR.FLOOR : Fld := ⟨0x824, 0x4, 0, 32⟩
def REF_MBXDROP.ENDPOINT_A : Fld := ⟨0x828, 0x4, 0, 16⟩
def REF_MBXDROP.ENDPOINT_B : Fld := ⟨0x828, 0x4, 16, 16⟩
def REF_RJLIST.BASE : Fld := ⟨0x840, 0x4, 0, 16⟩
def REF_RJLIST.LEN : Fld := ⟨0x840, 0x4, 16, 16⟩
def REF_FLOG.ENTRY : Fld := ⟨0xC00, 0x4, 0, 32⟩
def LPE_BIND.ENGINE : Fld := ⟨0x040, 0x4, 0, 3⟩
def LPE_BIND.CTX : Fld := ⟨0x040, 0x4, 3, 5⟩
def LPE_BIND.TBEAM : Fld := ⟨0x040, 0x4, 8, 2⟩
def LPE_BIND.AHEAD : Fld := ⟨0x040, 0x4, 12, 2⟩
def LPE_BIND.ATEN : Fld := ⟨0x040, 0x4, 31, 1⟩
def LPE_TOFF_LO.FRAC : Fld := ⟨0x044, 0x4, 0, 32⟩
def LPE_TOFF_HI.UNITS : Fld := ⟨0x048, 0x4, 0, 32⟩
def LPE_MINSTEP.STEP : Fld := ⟨0x04C, 0x4, 0, 32⟩
def LPE_VPH.LO : Fld := ⟨0x050, 0x4, 0, 16⟩
def LPE_VPH.HI : Fld := ⟨0x050, 0x4, 16, 16⟩
def LPE_XPH.LO : Fld := ⟨0x054, 0x4, 0, 16⟩
def LPE_XPH.HI : Fld := ⟨0x054, 0x4, 16, 16⟩
def LPE_LINE.LINEPER : Fld := ⟨0x058, 0x4, 0, 24⟩
def LPE_LENS.TRK : Fld := ⟨0x05C, 0x4, 0, 4⟩
def LPE_LENS.SELV_EN : Fld := ⟨0x05C, 0x4, 4, 1⟩
def LPE_LENS.FID_EN : Fld := ⟨0x05C, 0x4, 5, 1⟩
def LPE_LENS.BGBRIGHT : Fld := ⟨0x05C, 0x4, 6, 1⟩
def LPE_LENS.LOAD : Fld := ⟨0x05C, 0x4, 7, 1⟩
def LPE_LENS.THR : Fld := ⟨0x05C, 0x4, 8, 8⟩
def LPE_LENS.REGTMO : Fld := ⟨0x05C, 0x4, 16, 16⟩
def LPE_LOFF.OFF : Fld := ⟨0x060, 0x4, 0, 32⟩
def LPE_LGAIN.GAIN : Fld := ⟨0x064, 0x4, 0, 32⟩
def LPE_SELV.X0 : Fld := ⟨0x068, 0x4, 0, 14⟩
def LPE_SELV.X1 : Fld := ⟨0x068, 0x4, 16, 14⟩
def LPE_AGG.GAP : Fld := ⟨0x070, 0x4, 0, 8⟩
def LPE_AGG.RECMAX : Fld := ⟨0x070, 0x4, 8, 8⟩
def LPE_AGG.MINSAMP : Fld := ⟨0x070, 0x4, 16, 4⟩
def LPE_STOPCLS.NOW : Fld := ⟨0x074, 0x4, 0, 16⟩
def LPE_STOPCLS.COUNT : Fld := ⟨0x074, 0x4, 16, 16⟩
def LPE_STOPWIN.WIN_M1 : Fld := ⟨0x078, 0x4, 0, 8⟩
def LPE_STOPWIN.N : Fld := ⟨0x078, 0x4, 8, 8⟩
def LPE_STOPWIN.STREAKN : Fld := ⟨0x078, 0x4, 16, 7⟩
def LPE_ATROW.ROW : Fld := ⟨0x07C, 0x4, 0, 32⟩
def LPE_RING_LO.BASE : Fld := ⟨0x080, 0x4, 12, 20⟩
def LPE_RING_HI.BASE : Fld := ⟨0x084, 0x4, 0, 8⟩
def LPE_RING_CFG.LOG2 : Fld := ⟨0x088, 0x4, 0, 5⟩
def LPE_RING_CFG.THR : Fld := ⟨0x088, 0x4, 8, 16⟩
def LPE_FID.SRCH : Fld := ⟨0x08C, 0x4, 0, 10⟩
def LPE_FID.REJ : Fld := ⟨0x08C, 0x4, 16, 10⟩
def LPE_APP.LO : Fld := ⟨0x0C0, 0x4, 0, 8⟩
def LPE_APP.HI : Fld := ⟨0x0C0, 0x4, 8, 8⟩
def LPE_APP.CLASS : Fld := ⟨0x0C0, 0x4, 16, 4⟩
def LPE_APP.MODE : Fld := ⟨0x0C0, 0x4, 20, 2⟩
def LPE_STAT.RUN : Fld := ⟨0x800, 0x4, 0, 1⟩
def LPE_STAT.REGOK : Fld := ⟨0x800, 0x4, 1, 1⟩
def LPE_STAT.ROWOPEN : Fld := ⟨0x800, 0x4, 2, 1⟩
def LPE_STAT.CURSOR : Fld := ⟨0x800, 0x4, 3, 1⟩
def LPE_STAT.STOPREQ : Fld := ⟨0x800, 0x4, 4, 1⟩
def LPE_CURROW.ROW : Fld := ⟨0x804, 0x4, 0, 32⟩
def LPE_ROFF.OFF_T : Fld := ⟨0x808, 0x4, 0, 32⟩
def LPE_RGAIN.GAIN_T : Fld := ⟨0x80C, 0x4, 0, 32⟩
def LPE_RING_WR.IDX : Fld := ⟨0x810, 0x4, 0, 21⟩
def LPE_RING_RD.IDX : Fld := ⟨0x814, 0x4, 0, 21⟩
def LPE_FFW_IDX.IDX : Fld := ⟨0x818, 0x4, 0, 14⟩
def LPE_FFW_IDX.AUTOINC : Fld := ⟨0x818, 0x4, 16, 1⟩
def LPE_FFW_DATA.GAIN : Fld := ⟨0x81C, 0x4, 0, 16⟩
def LPE_FFW_DATA.OFF : Fld := ⟨0x81C, 0x4, 16, 16⟩
def LPE_KNW_IDX.IDX : Fld := ⟨0x820, 0x4, 0, 7⟩
def LPE_KNW_IDX.AUTOINC : Fld := ⟨0x820, 0x4, 16, 1⟩
def LPE_KNW_DATA.U : Fld := ⟨0x824, 0x4, 0, 32⟩
def LPE_TLOG_LO.DLOG2 : Fld := ⟨0x828, 0x4, 0, 5⟩
def LPE_TLOG_LO.BASE : Fld := ⟨0x828, 0x4, 12, 20⟩
def LPE_TLOG_HI.BASE : Fld := ⟨0x82C, 0x4, 0, 8⟩
def LPE_CLINE.LINES : Fld := ⟨0x830, 0x4, 0, 32⟩
def LPE_CSKIP.STILL : Fld := ⟨0x834, 0x4, 0, 16⟩
def LPE_CSKIP.PHASE : Fld := ⟨0x834, 0x4, 16, 16⟩
def LPE_CEXP.NOEXP : Fld := ⟨0x838, 0x4, 0, 16⟩
def LPE_CEXP.NOREC : Fld := ⟨0x838, 0x4, 16, 16⟩
def LPE_CCOR.MISS : Fld := ⟨0x83C, 0x4, 0, 16⟩
def LPE_CCOR.AHEAD : Fld := ⟨0x83C, 0x4, 16, 16⟩
def LPE_CREG.HOLD : Fld := ⟨0x840, 0x4, 0, 16⟩
def LPE_CREG.UNCMP : Fld := ⟨0x840, 0x4, 16, 16⟩
def LPE_CREC.RECS : Fld := ⟨0x844, 0x4, 0, 32⟩
def LPE_CLOST.LOST : Fld := ⟨0x848, 0x4, 0, 16⟩
def LPE_CLOST.OVF : Fld := ⟨0x848, 0x4, 16, 16⟩
def LPE_CFEAT.REJ : Fld := ⟨0x84C, 0x4, 0, 16⟩
def LPE_CFEAT.WIDE : Fld := ⟨0x84C, 0x4, 16, 16⟩
def CXP_CFG.RATE : Fld := ⟨0x040, 0x4, 0, 4⟩
def CXP_CFG.FMT : Fld := ⟨0x040, 0x4, 4, 2⟩
def CXP_CFG.TRIG : Fld := ⟨0x040, 0x4, 6, 2⟩
def CXP_CFG.LCORE : Fld := ⟨0x040, 0x4, 8, 2⟩
def CXP_CFG.TIMER : Fld := ⟨0x040, 0x4, 10, 4⟩
def CXP_CFG.STREAM : Fld := ⟨0x040, 0x4, 16, 8⟩
def CXP_TPITCH.PITCH : Fld := ⟨0x044, 0x4, 0, 32⟩
def CXP_LAT.LAT : Fld := ⟨0x048, 0x4, 0, 12⟩
def CXP_LAT.TOL : Fld := ⟨0x048, 0x4, 16, 12⟩
def CXP_STAT.LINK : Fld := ⟨0x800, 0x4, 0, 2⟩
def CXP_STAT.RATE : Fld := ⟨0x800, 0x4, 2, 4⟩
def CXP_STAT.STREAMING : Fld := ⟨0x800, 0x4, 6, 1⟩
def CXP_CTLTX.WORD : Fld := ⟨0x804, 0x4, 0, 32⟩
def CXP_CTLRX.WORD : Fld := ⟨0x808, 0x4, 0, 32⟩
def CXP_CTLLV.TXFREE : Fld := ⟨0x80C, 0x4, 0, 7⟩
def CXP_CTLLV.RXCOUNT : Fld := ⟨0x80C, 0x4, 16, 7⟩
def CXP_CERR.CRC : Fld := ⟨0x810, 0x4, 0, 16⟩
def CXP_CERR.LOST : Fld := ⟨0x810, 0x4, 16, 16⟩
def CXP_CLINE.FMT : Fld := ⟨0x814, 0x4, 0, 16⟩
def CXP_CLINE.TRUNC : Fld := ⟨0x814, 0x4, 16, 16⟩
def CXP_CTRIG.MISS : Fld := ⟨0x818, 0x4, 0, 16⟩
def CXP_CTRIG.ORPHAN : Fld := ⟨0x818, 0x4, 16, 16⟩
def KXC_CTL.RUN : Fld := ⟨0x800, 0x4, 0, 1⟩
def KXC_CTL.HALT : Fld := ⟨0x800, 0x4, 1, 1⟩
def KXC_CTL.STEP : Fld := ⟨0x800, 0x4, 2, 1⟩
def KXC_CTL.CRESET : Fld := ⟨0x800, 0x4, 3, 1⟩
def KXC_STAT.STATE : Fld := ⟨0x804, 0x4, 0, 3⟩
def KXC_STAT.CAUSE : Fld := ⟨0x804, 0x4, 16, 4⟩
def KXC_PC.PC : Fld := ⟨0x808, 0x4, 0, 14⟩
def KXC_PMW_IDX.IDX : Fld := ⟨0x80C, 0x4, 0, 14⟩
def KXC_PMW_IDX.AUTOINC : Fld := ⟨0x80C, 0x4, 16, 1⟩
def KXC_PMW_DATA.WORD : Fld := ⟨0x810, 0x4, 0, 14⟩
def KXC_WDOG.PERIOD : Fld := ⟨0x814, 0x4, 0, 24⟩
def KXC_HMBIN.WORD : Fld := ⟨0x818, 0x4, 0, 16⟩
def KXC_HMBOUT.WORD : Fld := ⟨0x81C, 0x4, 0, 16⟩
def KXC_HMBLV.OUTCNT : Fld := ⟨0x820, 0x4, 0, 4⟩
def KXC_HMBLV.INFREE : Fld := ⟨0x820, 0x4, 4, 4⟩
def UCS_LDSTAT.RESULT : Fld := ⟨0x800, 0x4, 0, 8⟩
def UCS_LDSTAT.ADDR : Fld := ⟨0x800, 0x4, 16, 12⟩
def UCS_WIN_IDX.IDX : Fld := ⟨0x808, 0x4, 0, 12⟩
def UCS_WIN_IDX.AUTOINC : Fld := ⟨0x808, 0x4, 16, 1⟩
def UCS_WIN_D.DATA : Fld := ⟨0x80C, 0x4, 0, 32⟩
def UCS_DEC.ENTRY : Fld := ⟨0x840, 0x4, 0, 12⟩
def UCS_DEC.FORM : Fld := ⟨0x840, 0x4, 12, 2⟩
def UCS_DEC.ATTR : Fld := ⟨0x840, 0x4, 14, 1⟩
def UCS_DEC.VALID : Fld := ⟨0x840, 0x4, 15, 1⟩
def UCS_ERR.MADDR : Fld := ⟨0x880, 0x4, 0, 16⟩
def UCS_ERR.ABANDON : Fld := ⟨0x880, 0x4, 16, 16⟩
def MEC_CFG.AUTO2X : Fld := ⟨0x040, 0x4, 0, 1⟩
def MEC_CFG.PDEN : Fld := ⟨0x040, 0x4, 1, 1⟩
def MEC_GEOM.DENSITY : Fld := ⟨0x800, 0x4, 0, 2⟩
def MEC_GEOM.RANKS2 : Fld := ⟨0x800, 0x4, 2, 1⟩
def MEC_GEOM.ABSENT : Fld := ⟨0x800, 0x4, 8, 1⟩
def MEC_STAT.TRAINED : Fld := ⟨0x804, 0x4, 0, 1⟩
def MEC_STAT.FILLING : Fld := ⟨0x804, 0x4, 1, 1⟩
def MEC_STAT.SELFREF : Fld := ⟨0x804, 0x4, 2, 1⟩
def MEC_STAT.REF2X : Fld := ⟨0x804, 0x4, 3, 1⟩
def MEC_STAT.TFAIL : Fld := ⟨0x804, 0x4, 8, 8⟩
def MEC_TEMP.TEMP : Fld := ⟨0x808, 0x4, 0, 8⟩
def MEC_ERR.CAPAR : Fld := ⟨0x80C, 0x4, 0, 16⟩
def MEC_ERR.CAFAIL : Fld := ⟨0x80C, 0x4, 16, 16⟩
def SCB_CFG.SEN : Fld := ⟨0x040, 0x4, 0, 1⟩
def SCB_CFG.DEN : Fld := ⟨0x040, 0x4, 1, 1⟩
def SCB_CFG.SVC : Fld := ⟨0x040, 0x4, 2, 1⟩
def SCB_SSPACE.SPACE : Fld := ⟨0x044, 0x4, 0, 16⟩
def SCB_DSPACE.SPACE : Fld := ⟨0x048, 0x4, 0, 16⟩
def SCB_SPOS.WORD : Fld := ⟨0x800, 0x4, 0, 24⟩
def SCB_SPOS.MEM : Fld := ⟨0x800, 0x4, 24, 8⟩
def SCB_DPOS.BURST : Fld := ⟨0x804, 0x4, 0, 31⟩
def SCB_PASS.SRAM : Fld := ⟨0x808, 0x4, 0, 16⟩
def SCB_PASS.DRAM : Fld := ⟨0x808, 0x4, 16, 16⟩
def SCB_ESRC.PAGE : Fld := ⟨0x80C, 0x4, 0, 12⟩
def SCB_ESRC.REGION : Fld := ⟨0x80C, 0x4, 12, 2⟩
def SCB_ESRC.MEM : Fld := ⟨0x80C, 0x4, 16, 3⟩
def SCB_ESRC.KIND : Fld := ⟨0x80C, 0x4, 20, 2⟩
def SCB_ESRC.VALID : Fld := ⟨0x80C, 0x4, 31, 1⟩
def SCB_ELOST.LOST : Fld := ⟨0x810, 0x4, 0, 16⟩
def NVH_CFG.EN : Fld := ⟨0x040, 0x4, 0, 1⟩
def NVH_CFG.TMO : Fld := ⟨0x040, 0x4, 4, 8⟩
def NVH_CFG.RSTN : Fld := ⟨0x040, 0x4, 12, 4⟩
def NVH_CFG.FWQ : Fld := ⟨0x040, 0x4, 16, 4⟩
def NVH_CFG.LOGEN : Fld := ⟨0x040, 0x4, 20, 1⟩
def NVH_PTBASE.BASE : Fld := ⟨0x044, 0x4, 0, 17⟩
def NVH_QBASE.BASE : Fld := ⟨0x048, 0x4, 0, 20⟩
def NVH_LOGSTG.BASE : Fld := ⟨0x04C, 0x4, 0, 28⟩
def NVH_LOGCFG.LOG2 : Fld := ⟨0x050, 0x4, 0, 4⟩
def NVH_LOGCFG.FLUSHN : Fld := ⟨0x050, 0x4, 8, 8⟩
def NVH_STAT.DRIVE : Fld := ⟨0x800, 0x4, 0, 2⟩
def NVH_STAT.MOUNTED : Fld := ⟨0x800, 0x4, 2, 1⟩
def NVH_STAT.SLOT : Fld := ⟨0x800, 0x4, 3, 1⟩
def NVH_STAT.PEERDIFF : Fld := ⟨0x800, 0x4, 4, 1⟩
def NVH_STAT.MAPBUSY : Fld := ⟨0x800, 0x4, 5, 1⟩
def NVH_STAT.BROWNHOLD : Fld := ⟨0x800, 0x4, 6, 1⟩
def NVH_STAT.MAPRESULT : Fld := ⟨0x800, 0x4, 16, 8⟩
def NVH_VOLID_LO.VOLID : Fld := ⟨0x804, 0x4, 0, 32⟩
def NVH_VOLID_HI.VOLID : Fld := ⟨0x808, 0x4, 0, 32⟩
def NVH_VOLSEQ.SEQ : Fld := ⟨0x80C, 0x4, 0, 32⟩
def NVH_MAPOBJ.OBJID : Fld := ⟨0x810, 0x4, 0, 32⟩
def NVH_MAPDST.PAGE : Fld := ⟨0x814, 0x4, 0, 19⟩
def NVH_MAPCNT.COUNT : Fld := ⟨0x818, 0x4, 0, 19⟩
def NVH_MAPCMD.OP : Fld := ⟨0x81C, 0x4, 0, 3⟩
def NVH_LOGWR.IDX : Fld := ⟨0x820, 0x4, 0, 21⟩
def NVH_LOGRD.IDX : Fld := ⟨0x824, 0x4, 0, 21⟩
def NVH_LOGSEQ_LO.SEQ : Fld := ⟨0x828, 0x4, 0, 32⟩
def NVH_LOGSEQ_HI.SEQ : Fld := ⟨0x82C, 0x4, 0, 32⟩
def NVH_DB.TAIL : Fld := ⟨0x840, 0x4, 0, 8⟩
def NVH_CLOAD.PAGES : Fld := ⟨0x880, 0x4, 0, 32⟩
def NVH_CERR.CHECKFAIL : Fld := ⟨0x884, 0x4, 0, 16⟩
def NVH_CERR.TMO : Fld := ⟨0x884, 0x4, 16, 16⟩
def NVH_CPA.DROP : Fld := ⟨0x888, 0x4, 0, 16⟩
def NVH_CPA.HELD : Fld := ⟨0x888, 0x4, 16, 16⟩
def NVH_CDB.DBDROP : Fld := ⟨0x88C, 0x4, 0, 16⟩
def DMA_CFG.RATE : Fld := ⟨0x040, 0x4, 0, 9⟩
def DMA_CFG.PRIO : Fld := ⟨0x040, 0x4, 12, 2⟩
def DMA_CTL.START : Fld := ⟨0x800, 0x40, 0, 1⟩
def DMA_CTL.DOORBELL : Fld := ⟨0x800, 0x40, 1, 1⟩
def DMA_CTL.STOP : Fld := ⟨0x800, 0x40, 2, 1⟩
def DMA_CTL.STATE : Fld := ⟨0x800, 0x40, 8, 2⟩
def DMA_CTL.RING : Fld := ⟨0x800, 0x40, 10, 1⟩
def DMA_DESC_LO.ADDR : Fld := ⟨0x804, 0x40, 5, 27⟩
def DMA_DESC_HI.ADDR : Fld := ⟨0x808, 0x40, 0, 8⟩
def DMA_STAT.STATUS : Fld := ⟨0x80C, 0x40, 0, 4⟩
def DMA_RDONE.BYTES : Fld := ⟨0x810, 0x40, 0, 24⟩
def DMA_WDONE.BYTES : Fld := ⟨0x814, 0x40, 0, 24⟩
def DMA_TAKEN.COUNT : Fld := ⟨0x818, 0x40, 0, 32⟩
def DMA_DONE.COUNT : Fld := ⟨0x81C, 0x40, 0, 32⟩
def DMA_FAIL.COUNT : Fld := ⟨0x820, 0x40, 0, 32⟩
def DMA_LATCH.CH : Fld := ⟨0xC00, 0x4, 0, 4⟩
def PRZ_CFG.PLUTEN : Fld := ⟨0x040, 0x4, 0, 1⟩
def PRZ_BG.BG : Fld := ⟨0x044, 0x4, 0, 30⟩
def PRZ_COND.BASE : Fld := ⟨0x048, 0x4, 0, 7⟩
def PRZ_COND.SIZE : Fld := ⟨0x048, 0x4, 8, 7⟩
def PRZ_WBCFG.WBEN : Fld := ⟨0x04C, 0x4, 0, 1⟩
def PRZ_WBCFG.WBFMT : Fld := ⟨0x04C, 0x4, 1, 1⟩
def PRZ_WBCFG.PITCH : Fld := ⟨0x04C, 0x4, 16, 16⟩
def PRZ_WB_LO.BASE : Fld := ⟨0x050, 0x4, 4, 28⟩
def PRZ_WB_HI.BASE : Fld := ⟨0x054, 0x4, 0, 8⟩
def PRZ_LCFG.EN : Fld := ⟨0x100, 0x40, 0, 1⟩
def PRZ_LCFG.SRC : Fld := ⟨0x100, 0x40, 1, 2⟩
def PRZ_LCFG.FMT : Fld := ⟨0x100, 0x40, 4, 3⟩
def PRZ_LCFG.STATIC : Fld := ⟨0x100, 0x40, 7, 1⟩
def PRZ_LCFG.KEYEN : Fld := ⟨0x100, 0x40, 8, 1⟩
def PRZ_LCFG.LENS : Fld := ⟨0x100, 0x40, 9, 3⟩
def PRZ_LCFG.FILT : Fld := ⟨0x100, 0x40, 12, 1⟩
def PRZ_LCFG.EXPECT : Fld := ⟨0x100, 0x40, 16, 8⟩
def PRZ_LBASE_LO.BASE : Fld := ⟨0x104, 0x40, 4, 28⟩
def PRZ_LBASE_HI.BASE : Fld := ⟨0x108, 0x40, 0, 8⟩
def PRZ_LPITCH.PITCH : Fld := ⟨0x10C, 0x40, 0, 16⟩
def PRZ_LSIZE.SW_M1 : Fld := ⟨0x110, 0x40, 0, 13⟩
def PRZ_LSIZE.SH_M1 : Fld := ⟨0x110, 0x40, 16, 13⟩
def PRZ_LPOS.X : Fld := ⟨0x114, 0x40, 0, 11⟩
def PRZ_LPOS.Y : Fld := ⟨0x114, 0x40, 16, 11⟩
def PRZ_LDST.DW_M1 : Fld := ⟨0x118, 0x40, 0, 12⟩
def PRZ_LDST.DH_M1 : Fld := ⟨0x118, 0x40, 16, 12⟩
def PRZ_LKEYLO.KEY : Fld := ⟨0x11C, 0x40, 0, 30⟩
def PRZ_LKEYHI.KEY : Fld := ⟨0x120, 0x40, 0, 30⟩
def PRZ_LLIVE.FIRST : Fld := ⟨0x124, 0x40, 0, 16⟩
def PRZ_LLIVE.SKIP : Fld := ⟨0x124, 0x40, 16, 3⟩
def PRZ_LLIVE.ENGINE : Fld := ⟨0x124, 0x40, 20, 3⟩
def PRZ_LLIVE.CTX : Fld := ⟨0x124, 0x40, 24, 5⟩
def PRZ_LGEN.GEN : Fld := ⟨0x128, 0x40, 0, 32⟩
def PRZ_LLUTOFF.LUTOFF : Fld := ⟨0x12C, 0x40, 0, 10⟩
def PRZ_STAT.LSTALE : Fld := ⟨0x800, 0x4, 0, 7⟩
def PRZ_STAT.L7STALE : Fld := ⟨0x800, 0x4, 7, 1⟩
def PRZ_STAT.CONDENSED : Fld := ⟨0x800, 0x4, 8, 1⟩
def PRZ_STAT.FLATTENING : Fld := ⟨0x800, 0x4, 9, 1⟩
def PRZ_REFLAT.REFLAT : Fld := ⟨0x804, 0x4, 0, 1⟩
def PRZ_PLW_IDX.IDX : Fld := ⟨0x808, 0x4, 0, 13⟩
def PRZ_PLW_IDX.AUTOINC : Fld := ⟨0x808, 0x4, 16, 1⟩
def PRZ_PLW_DATA.RGB : Fld := ⟨0x80C, 0x4, 0, 30⟩
def PRZ_PLW_DATA.T : Fld := ⟨0x80C, 0x4, 31, 1⟩
def PRZ_QLW_IDX.IDX : Fld := ⟨0x810, 0x4, 0, 12⟩
def PRZ_QLW_IDX.AUTOINC : Fld := ⟨0x810, 0x4, 16, 1⟩
def PRZ_QLW_DATA.OUT : Fld := ⟨0x814, 0x4, 0, 8⟩
def PRZ_WBTB_LO.TB : Fld := ⟨0x818, 0x4, 0, 32⟩
def PRZ_WBTB_HI.TB : Fld := ⟨0x81C, 0x4, 0, 32⟩
def PRZ_CNT.ROWMISS : Fld := ⟨0x820, 0x4, 0, 16⟩
def PRZ_CNT.CAMDROP : Fld := ⟨0x820, 0x4, 16, 16⟩
def PRZ_CNT2.WBDROP : Fld := ⟨0x824, 0x4, 0, 16⟩
def PRZ_CNT2.STALE : Fld := ⟨0x824, 0x4, 16, 16⟩
def PRZ_L7RANGE.BASE : Fld := ⟨0x080, 0x4, 0, 8⟩
def PRZ_L7RANGE.SIZE : Fld := ⟨0x080, 0x4, 8, 8⟩
def PRZ_MAXAGE.MAXAGE : Fld := ⟨0x084, 0x4, 0, 16⟩
def PRZ_STALECOL.COL : Fld := ⟨0x08C, 0x4, 0, 30⟩
def PRZ_L7CTL.PLUTLOCK : Fld := ⟨0x094, 0x4, 0, 1⟩
def PRZ_L7REFRESH.REFRESH : Fld := ⟨0x840, 0x4, 0, 2⟩
def PRZ_L7AGE.AGE : Fld := ⟨0x844, 0x4, 0, 16⟩
def DHD_CFG.EN : Fld := ⟨0x040, 0x4, 0, 1⟩
def DHD_CFG.MODE : Fld := ⟨0x040, 0x4, 1, 3⟩
def DHD_CFG.SCAN : Fld := ⟨0x040, 0x4, 4, 1⟩
def DHD_CFG.HINV : Fld := ⟨0x040, 0x4, 5, 1⟩
def DHD_CFG.VINV : Fld := ⟨0x040, 0x4, 6, 1⟩
def DHD_CFG.LINK : Fld := ⟨0x040, 0x4, 7, 1⟩
def DHD_CFG.MAP : Fld := ⟨0x040, 0x4, 8, 2⟩
def DHD_CFG.LANES_M1 : Fld := ⟨0x040, 0x4, 10, 2⟩
def DHD_CFG.CMDMODE : Fld := ⟨0x040, 0x4, 12, 1⟩
def DHD_CFG.BURST : Fld := ⟨0x040, 0x4, 13, 1⟩
def DHD_CFG.PF666 : Fld := ⟨0x040, 0x4, 14, 1⟩
def DHD_DSIRATE.RATE : Fld := ⟨0x044, 0x4, 0, 8⟩
def DHD_COMPAT_LO.BASE : Fld := ⟨0x048, 0x4, 4, 28⟩
def DHD_COMPAT_HI.BASE : Fld := ⟨0x04C, 0x4, 0, 8⟩
def DHD_CPITCH.PITCH : Fld := ⟨0x050, 0x4, 0, 16⟩
def DHD_CPITCH.CFMT : Fld := ⟨0x050, 0x4, 16, 1⟩
def DHD_TE.TEPOL : Fld := ⟨0x054, 0x4, 0, 1⟩
def DHD_STAT.RUN : Fld := ⟨0x800, 0x4, 0, 1⟩
def DHD_STAT.LOCKED : Fld := ⟨0x800, 0x4, 1, 1⟩
def DHD_STAT.VBLANK : Fld := ⟨0x800, 0x4, 2, 1⟩
def DHD_STAT.LINE : Fld := ⟨0x800, 0x4, 16, 11⟩
def DHD_FCNT.FRAMES : Fld := ⟨0x804, 0x4, 0, 32⟩
def DHD_FLIPTB_LO.TB : Fld := ⟨0x808, 0x4, 0, 32⟩
def DHD_FLIPTB_HI.TB : Fld := ⟨0x80C, 0x4, 0, 32⟩
def DHD_LAT.TOL : Fld := ⟨0x810, 0x4, 0, 24⟩
def DHD_UNDER.COUNT : Fld := ⟨0x814, 0x4, 0, 16⟩
def DHD_TECNT.MISS : Fld := ⟨0x818, 0x4, 0, 16⟩
def DHD_TECNT.EARLY : Fld := ⟨0x818, 0x4, 16, 16⟩
def DHD_DCMD.WORD : Fld := ⟨0x840, 0x4, 0, 32⟩
def DHD_DCLV.FREE : Fld := ⟨0x844, 0x4, 0, 7⟩
def DHD_DCLV.DROP : Fld := ⟨0x844, 0x4, 8, 1⟩
def DHD_DCLV.TMO : Fld := ⟨0x844, 0x4, 9, 1⟩
def DHD_DRSP.DATA : Fld := ⟨0x848, 0x4, 0, 32⟩
def BLT_CMD.GO : Fld := ⟨0x800, 0x4, 0, 1⟩
def BLT_CMD.ABORT : Fld := ⟨0x800, 0x4, 1, 1⟩
def BLT_CMD.OP : Fld := ⟨0x800, 0x4, 4, 3⟩
def BLT_CMD.BLEND : Fld := ⟨0x800, 0x4, 8, 2⟩
def BLT_CMD.TRANSP : Fld := ⟨0x800, 0x4, 10, 1⟩
def BLT_STAT.BUSY : Fld := ⟨0x804, 0x4, 0, 1⟩
def BLT_STAT.ERR : Fld := ⟨0x804, 0x4, 8, 4⟩
def BLT_DST_LO.BASE : Fld := ⟨0x808, 0x4, 0, 32⟩
def BLT_DST_HI.BASE : Fld := ⟨0x80C, 0x4, 0, 8⟩
def BLT_DFMT.FMT : Fld := ⟨0x810, 0x4, 0, 3⟩
def BLT_DFMT.PITCH : Fld := ⟨0x810, 0x4, 16, 16⟩
def BLT_SRC_LO.BASE : Fld := ⟨0x814, 0x4, 0, 32⟩
def BLT_SRC_HI.BASE : Fld := ⟨0x818, 0x4, 0, 8⟩
def BLT_SFMT.FMT : Fld := ⟨0x81C, 0x4, 0, 3⟩
def BLT_SFMT.PITCH : Fld := ⟨0x81C, 0x4, 16, 16⟩
def BLT_DXY.X : Fld := ⟨0x820, 0x4, 0, 13⟩
def BLT_DXY.Y : Fld := ⟨0x820, 0x4, 16, 13⟩
def BLT_SXY.X : Fld := ⟨0x824, 0x4, 0, 13⟩
def BLT_SXY.Y : Fld := ⟨0x824, 0x4, 16, 13⟩
def BLT_SIZE.W_M1 : Fld := ⟨0x828, 0x4, 0, 13⟩
def BLT_SIZE.H_M1 : Fld := ⟨0x828, 0x4, 16, 13⟩
def BLT_LEND.X : Fld := ⟨0x82C, 0x4, 0, 13⟩
def BLT_LEND.Y : Fld := ⟨0x82C, 0x4, 16, 13⟩
def BLT_CLIP0.X : Fld := ⟨0x830, 0x4, 0, 13⟩
def BLT_CLIP0.Y : Fld := ⟨0x830, 0x4, 16, 13⟩
def BLT_CLIP1.X : Fld := ⟨0x834, 0x4, 0, 13⟩
def BLT_CLIP1.Y : Fld := ⟨0x834, 0x4, 16, 13⟩
def BLT_FG.COL : Fld := ⟨0x838, 0x4, 0, 32⟩
def BLT_BG.COL : Fld := ⟨0x83C, 0x4, 0, 32⟩
def BLT_ALPHA.A : Fld := ⟨0x840, 0x4, 0, 8⟩
def BLT_ALPHA.THICK : Fld := ⟨0x840, 0x4, 8, 8⟩
def BLT_CNT.OPS : Fld := ⟨0x844, 0x4, 0, 16⟩
def BLT_CNT.REJ : Fld := ⟨0x844, 0x4, 16, 16⟩
def BLT_PIX.PIXELS : Fld := ⟨0x848, 0x4, 0, 27⟩
def AUD_CFG.FS : Fld := ⟨0x040, 0x4, 0, 1⟩
def AUD_CFG.BLK : Fld := ⟨0x040, 0x4, 1, 3⟩
def AUD_CFG.RAMP : Fld := ⟨0x040, 0x4, 16, 16⟩
def AUD_PCFG.EN : Fld := ⟨0x044, 0x4, 0, 1⟩
def AUD_PCFG.FMT : Fld := ⟨0x044, 0x4, 1, 2⟩
def AUD_PCFG.SLAVE : Fld := ⟨0x044, 0x4, 3, 1⟩
def AUD_PDM.EN : Fld := ⟨0x054, 0x4, 0, 4⟩
def AUD_STETH.EN : Fld := ⟨0x058, 0x4, 0, 1⟩
def AUD_STETH.SRC : Fld := ⟨0x058, 0x4, 1, 5⟩
def AUD_STETH.PORT : Fld := ⟨0x058, 0x4, 6, 1⟩
def AUD_STETH.SLOT : Fld := ⟨0x058, 0x4, 7, 3⟩
def AUD_STETH.STGAIN : Fld := ⟨0x058, 0x4, 16, 16⟩
def AUD_MCFG.PERIOD_M1 : Fld := ⟨0x05C, 0x4, 0, 12⟩
def AUD_SGAIN.GAIN : Fld := ⟨0x100, 0x4, 0, 16⟩
def AUD_VSTART.INDEX : Fld := ⟨0x200, 0x20, 0, 17⟩
def AUD_VLOOP.INDEX : Fld := ⟨0x204, 0x20, 0, 17⟩
def AUD_VENDX.INDEX : Fld := ⟨0x208, 0x20, 0, 17⟩
def AUD_VPITCH.INC : Fld := ⟨0x20C, 0x20, 0, 24⟩
def AUD_VMODE.LOOP : Fld := ⟨0x210, 0x20, 0, 1⟩
def AUD_BUS_LO.MASK : Fld := ⟨0x600, 0x10, 0, 32⟩
def AUD_BUS_HI.MASK : Fld := ⟨0x604, 0x10, 0, 20⟩
def AUD_BUS_CTL.BGAIN : Fld := ⟨0x608, 0x10, 0, 16⟩
def AUD_BUS_CTL.AUTOSCALE : Fld := ⟨0x608, 0x10, 16, 1⟩
def AUD_BUS_CTL.GMODE : Fld := ⟨0x608, 0x10, 17, 1⟩
def AUD_KEYON.VOICES : Fld := ⟨0x800, 0x4, 0, 32⟩
def AUD_KEYOFF.VOICES : Fld := ⟨0x804, 0x4, 0, 32⟩
def AUD_VACT.ACTIVE : Fld := ⟨0x808, 0x4, 0, 32⟩
def AUD_VEND.ENDED : Fld := ⟨0x80C, 0x4, 0, 32⟩
def AUD_WTW_IDX.IDX : Fld := ⟨0x810, 0x4, 0, 16⟩
def AUD_WTW_IDX.AUTOINC : Fld := ⟨0x810, 0x4, 16, 1⟩
def AUD_WTW_DATA.DATA : Fld := ⟨0x814, 0x4, 0, 32⟩
def AUD_MBW_IDX.BAND : Fld := ⟨0x818, 0x4, 0, 5⟩
def AUD_MBW_IDX.WORD : Fld := ⟨0x818, 0x4, 5, 3⟩
def AUD_MBW_DATA.DATA : Fld := ⟨0x81C, 0x4, 0, 24⟩
def AUD_MSEQ.PERIODS : Fld := ⟨0x820, 0x4, 0, 32⟩
def AUD_CLIP.BUSES : Fld := ⟨0x824, 0x4, 0, 16⟩
def AUD_PSTAT.FILL : Fld := ⟨0x830, 0x4, 0, 6⟩
def AUD_PLATCH.PORT : Fld := ⟨0x840, 0x4, 0, 2⟩
def AUD_PRX.COUNT : Fld := ⟨0x844, 0x4, 0, 32⟩
def AUD_PTAKEN.COUNT : Fld := ⟨0x848, 0x4, 0, 32⟩
def AUD_PDROP.COUNT : Fld := ⟨0x84C, 0x4, 0, 32⟩
def AUD_PINSERT.COUNT : Fld := ⟨0x850, 0x4, 0, 32⟩
def AUD_MRMS.VALUE : Fld := ⟨0x900, 0x8, 0, 24⟩
def AUD_MPEAK.VALUE : Fld := ⟨0x904, 0x8, 0, 24⟩
def HIF_WIN.BASE : Fld := ⟨0x800, 0x4, 0, 14⟩
def HIF_WIN.DOM : Fld := ⟨0x800, 0x4, 16, 2⟩
def HIF_OBASE_LO.OBASE : Fld := ⟨0x804, 0x4, 0, 32⟩
def HIF_OBASE_HI.OBASE : Fld := ⟨0x808, 0x4, 0, 32⟩
def HIF_STAT.LINKUP : Fld := ⟨0x80C, 0x4, 0, 1⟩
def HIF_STAT.SPEED : Fld := ⟨0x80C, 0x4, 4, 3⟩
def HIF_STAT.WIDTH : Fld := ⟨0x80C, 0x4, 8, 4⟩
def HIF_ERR.SIZE : Fld := ⟨0x810, 0x4, 0, 8⟩
def HIF_ERR.DOM : Fld := ⟨0x810, 0x4, 8, 8⟩
def HIF_ERR.CA : Fld := ⟨0x810, 0x4, 16, 8⟩
def HIF_ERR.OUTDOWN : Fld := ⟨0x810, 0x4, 24, 8⟩
def EVC_TW_IDX.SRC : Fld := ⟨0x800, 0x4, 0, 9⟩
def EVC_TW_IDX.AUTOINC : Fld := ⟨0x800, 0x4, 16, 1⟩
def EVC_TW_DATA.ENTRY : Fld := ⟨0x804, 0x4, 0, 32⟩
def EVC_EOI.VEC : Fld := ⟨0x808, 0x4, 0, 6⟩
def EVC_VMOD.MOD : Fld := ⟨0x840, 0x4, 0, 10⟩
def EVC_ASSERT.LINES : Fld := ⟨0x940, 0x4, 0, 32⟩
def EVC_INSVC_LO.VECS : Fld := ⟨0x980, 0x4, 0, 32⟩
def EVC_INSVC_HI.VECS : Fld := ⟨0x984, 0x4, 0, 32⟩
def EVC_DVLOG.PAGE : Fld := ⟨0x988, 0x4, 0, 12⟩
def EVC_DVLOG.OFFSET : Fld := ⟨0x988, 0x4, 12, 12⟩
def EVC_DVLOG.DOMAIN : Fld := ⟨0x988, 0x4, 24, 3⟩
def EVC_DVLOG.DECODE : Fld := ⟨0x988, 0x4, 28, 1⟩
def EVC_DVCNT.COUNT : Fld := ⟨0x98C, 0x4, 0, 16⟩
def TMR_CFG.SRC : Fld := ⟨0x040, 0x4, 0, 3⟩
def TMR_CFG.EDGE : Fld := ⟨0x040, 0x4, 4, 2⟩
def TMR_CFG.SEL : Fld := ⟨0x040, 0x4, 8, 8⟩
def TMR_CFG.DIRM : Fld := ⟨0x040, 0x4, 16, 2⟩
def TMR_CFG.MODE : Fld := ⟨0x040, 0x4, 20, 1⟩
def TMR_CFG.CMPEN : Fld := ⟨0x040, 0x4, 21, 1⟩
def TMR_CFG.CAPSRC : Fld := ⟨0x040, 0x4, 24, 2⟩
def TMR_DIV.DIV : Fld := ⟨0x044, 0x4, 0, 32⟩
def TMR_PERIOD.PERIOD : Fld := ⟨0x048, 0x4, 0, 32⟩
def TMR_CMP.CMP : Fld := ⟨0x04C, 0x4, 0, 32⟩
def TMR_INTERVAL.INTERVAL : Fld := ⟨0x050, 0x4, 0, 32⟩
def TMR_CTL.RUN : Fld := ⟨0x800, 0x4, 0, 1⟩
def TMR_CTL.CLR : Fld := ⟨0x800, 0x4, 1, 1⟩
def TMR_CTL.CAPNOW : Fld := ⟨0x800, 0x4, 2, 1⟩
def TMR_COUNT.COUNT : Fld := ⟨0x804, 0x4, 0, 32⟩
def TMR_TICKS.TICKS : Fld := ⟨0x808, 0x4, 0, 32⟩
def TMR_NEXT.NC : Fld := ⟨0x80C, 0x4, 0, 32⟩
def TMR_CAP.VALUE : Fld := ⟨0x810, 0x4, 0, 32⟩
def TMR_CAPST.LEVEL : Fld := ⟨0x814, 0x4, 0, 3⟩
def TMR_CNT.MISSED : Fld := ⟨0x818, 0x4, 0, 16⟩
def TMR_CNT.CAPLOST : Fld := ⟨0x818, 0x4, 16, 16⟩
def TMR_FLAGS.PERIOD_LATE : Fld := ⟨0x81C, 0x4, 0, 1⟩
def GPX_BANK.V18 : Fld := ⟨0x040, 0x4, 0, 1⟩
def GPX_PM_SEL0.PINS : Fld := ⟨0x080, 0x10, 0, 32⟩
def GPX_PM_SEL1.PINS : Fld := ⟨0x084, 0x10, 0, 32⟩
def GPX_PM_CFG.COUNT_M1 : Fld := ⟨0x088, 0x10, 0, 3⟩
def GPX_PM_CFG.MODE : Fld := ⟨0x088, 0x10, 4, 2⟩
def GPX_PM_CFG.FILT_M1 : Fld := ⟨0x088, 0x10, 8, 4⟩
def GPX_PM_CFG.MASK : Fld := ⟨0x088, 0x10, 16, 8⟩
def GPX_PM_CFG.VALUE : Fld := ⟨0x088, 0x10, 24, 8⟩
def GPX_BSTAT.DET18 : Fld := ⟨0x800, 0x4, 0, 8⟩
def GPX_PMST.MATCH : Fld := ⟨0x804, 0x4, 0, 8⟩
def GPX_CONFLICT.LOSER : Fld := ⟨0x808, 0x4, 0, 10⟩
def GPX_CONFLICT.PIN : Fld := ⟨0x808, 0x4, 16, 8⟩
def GPX_CONFLICT.VALID : Fld := ⟨0x808, 0x4, 31, 1⟩
def GPX_CONFCNT.COUNT : Fld := ⟨0x80C, 0x4, 0, 16⟩
def GPX_IN.LEVEL : Fld := ⟨0x820, 0x4, 0, 32⟩
def GPX_PMCNT.COUNT : Fld := ⟨0x840, 0x4, 0, 32⟩
def GPX_PAD.OD : Fld := ⟨0x100, 0x4, 0, 1⟩
def GPX_PAD.DRV : Fld := ⟨0x100, 0x4, 1, 2⟩
def GPX_PAD.SLOW : Fld := ⟨0x100, 0x4, 3, 1⟩
def GPX_PAD.PULL : Fld := ⟨0x100, 0x4, 4, 2⟩
def GPX_PAD.HYS : Fld := ⟨0x100, 0x4, 6, 1⟩
def GPX_PAD.LOWTHR : Fld := ⟨0x100, 0x4, 7, 1⟩
def GPX_PAD.ANA : Fld := ⟨0x100, 0x4, 8, 1⟩
def GPX_FSEL.PIN : Fld := ⟨0x100, 0x4, 0, 8⟩
def GPX_FSEL.EN : Fld := ⟨0x100, 0x4, 8, 1⟩
def GPX_FSEL.INV : Fld := ⟨0x100, 0x4, 9, 1⟩
def CFG_DEFAULTED.SET : Fld := ⟨0x800, 0x4, 0, 1⟩
def CFG_BOOTST.STRAPDEV : Fld := ⟨0x804, 0x4, 0, 1⟩
def CFG_BOOTST.STRAPBAD : Fld := ⟨0x804, 0x4, 1, 1⟩
def CFG_BOOTST.CAUSE0 : Fld := ⟨0x804, 0x4, 8, 4⟩
def CFG_BOOTST.CAUSE1 : Fld := ⟨0x804, 0x4, 12, 4⟩
def CFG_USE.SVC : Fld := ⟨0x808, 0x4, 0, 2⟩
def CFG_USE.HA : Fld := ⟨0x808, 0x4, 2, 2⟩
def CFG_USE.HB : Fld := ⟨0x808, 0x4, 4, 2⟩
def CFG_SEQ0.SEQ : Fld := ⟨0x80C, 0x4, 0, 32⟩
def CFG_SEQ1.SEQ : Fld := ⟨0x810, 0x4, 0, 32⟩
def CFG_FLADDR.ADDR : Fld := ⟨0x814, 0x4, 0, 28⟩
def CFG_FLADDR.DEV : Fld := ⟨0x814, 0x4, 31, 1⟩
def CFG_FLCMD.OP : Fld := ⟨0x818, 0x4, 0, 2⟩
def CFG_FLSTAT.BUSY : Fld := ⟨0x81C, 0x4, 0, 1⟩
def CFG_FLSTAT.RESULT : Fld := ⟨0x81C, 0x4, 4, 4⟩
def CFG_FLBUF.DATA : Fld := ⟨0x900, 0x4, 0, 32⟩
def SEC_OTPST.ROOT : Fld := ⟨0x800, 0x4, 0, 1⟩
def SEC_OTPST.CUST1 : Fld := ⟨0x800, 0x4, 1, 1⟩
def SEC_OTPST.CUST2 : Fld := ⟨0x800, 0x4, 2, 1⟩
def SEC_OTPST.REV : Fld := ⟨0x800, 0x4, 3, 2⟩
def SEC_OTPST.NA : Fld := ⟨0x800, 0x4, 8, 1⟩
def SEC_OTPST.IND : Fld := ⟨0x800, 0x4, 9, 1⟩
def SEC_SERIAL_LO.SERIAL : Fld := ⟨0x804, 0x4, 0, 32⟩
def SEC_SERIAL_HI.SERIAL : Fld := ⟨0x808, 0x4, 0, 32⟩
def SEC_OTPCMD.OP : Fld := ⟨0x80C, 0x4, 0, 2⟩
def SEC_OTPCMD.SLOT : Fld := ⟨0x80C, 0x4, 4, 2⟩
def SEC_ATCMD.GO : Fld := ⟨0x810, 0x4, 0, 1⟩
def SEC_STAT.ATBUSY : Fld := ⟨0x814, 0x4, 0, 1⟩
def SEC_STAT.OTPBUSY : Fld := ⟨0x814, 0x4, 1, 1⟩
def SEC_STAT.RESULT : Fld := ⟨0x814, 0x4, 4, 4⟩
def SEC_KHASH.HASH : Fld := ⟨0x880, 0x4, 0, 32⟩
def SEC_NONCE.DATA : Fld := ⟨0x920, 0x4, 0, 32⟩
def SEC_OTPBUF.DATA : Fld := ⟨0x960, 0x4, 0, 32⟩
def SEC_REPORT.REPORT : Fld := ⟨0xA00, 0x4, 0, 32⟩
def SEC_CERT.CERT : Fld := ⟨0xC00, 0x4, 0, 32⟩
def PWR_WARN.WA : Fld := ⟨0x040, 0x4, 0, 4⟩
def PWR_WARN.WB : Fld := ⟨0x040, 0x4, 4, 4⟩
def PWR_WARN.WS : Fld := ⟨0x040, 0x4, 8, 4⟩
def PWR_THROT.ON : Fld := ⟨0x044, 0x4, 0, 8⟩
def PWR_THROT.HYST : Fld := ⟨0x044, 0x4, 8, 4⟩
def PWR_STAT.WARN : Fld := ⟨0x800, 0x4, 0, 3⟩
def PWR_STAT.THROT : Fld := ⟨0x800, 0x4, 3, 1⟩
def PWR_STAT.DIM : Fld := ⟨0x800, 0x4, 4, 1⟩
def PWR_STAT.HSTBY : Fld := ⟨0x800, 0x4, 5, 2⟩
def PWR_VMON.MV : Fld := ⟨0x804, 0x4, 0, 12⟩
def PWR_TEMP.TEMP : Fld := ⟨0x814, 0x4, 0, 8⟩
def PWR_REQ.WARM : Fld := ⟨0x840, 0x4, 0, 1⟩
def PWR_REQ.SVCRST : Fld := ⟨0x840, 0x4, 1, 1⟩
def PWR_REQ.HSTBY : Fld := ⟨0x840, 0x4, 2, 2⟩
def PWR_REQ.WAKE : Fld := ⟨0x840, 0x4, 4, 2⟩
def PWR_REQ.DIM : Fld := ⟨0x840, 0x4, 6, 1⟩
def PWR_REQ.UNDIM : Fld := ⟨0x840, 0x4, 7, 1⟩
def PWR_REQ.KEY : Fld := ⟨0x840, 0x4, 16, 16⟩
def PWR_CLR.BOSEEN : Fld := ⟨0x844, 0x4, 0, 3⟩
def PWR_CNT.WARNS : Fld := ⟨0x848, 0x4, 0, 16⟩
def PWR_CNT.REJ : Fld := ⟨0x848, 0x4, 16, 16⟩
def PWR_LASTRST.A : Fld := ⟨0x84C, 0x4, 0, 4⟩
def PWR_LASTRST.B : Fld := ⟨0x84C, 0x4, 4, 4⟩
def PWR_LASTRST.S : Fld := ⟨0x84C, 0x4, 8, 4⟩
def MSIX_PBA.PEND : Fld := ⟨0xBF0, 0x4, 0, 32⟩
def MSIX_ADDR_LO.ADDR : Fld := ⟨0xC00, 0x10, 0, 32⟩
def MSIX_ADDR_HI.ADDR : Fld := ⟨0xC04, 0x10, 0, 32⟩
def MSIX_DATA.DATA : Fld := ⟨0xC08, 0x10, 0, 32⟩
def MSIX_CTRL.MASK : Fld := ⟨0xC0C, 0x10, 0, 1⟩

end Sys2Proof.Machine
end

