-- ==== Sys2Proof/Machine/RegTable.lean ====
section
/-!
DEFINITION. What each register of each page is made of: per register one row with its offset, number of instances, distance
between them, the bits of each access code of Table 00.3 and the reset value. Offsets that no row holds are RSV (R486).
-/
namespace Sys2Proof.Machine

/-- One register of a page layout. The masks say which bits carry RW, RWS, W1C and RC access, and which bits a read
shows (RO bits are in `rd` alone; WO bits in none of the read masks). -/
structure RegRow where
  off : Nat
  cnt : Nat
  stride : Nat
  rw : Nat
  rws : Nat
  w1c : Nat
  rc : Nat
  rd : Nat
  wo : Nat
  reset : Nat
deriving DecidableEq, Repr

def regsHdr : List RegRow := [
  ⟨0x000, 1, 0x4, 0x0, 0x0, 0x0, 0x0, 0xFFFFFFFF, 0x0, 0x1⟩, -- PG_ID
  ⟨0x004, 1, 0x4, 0x0, 0x0, 0x0, 0x0, 0xFFFFFFFF, 0x0, 0x0⟩, -- PG_CAP
  ⟨0x008, 1, 0x4, 0x0, 0x0, 0x0, 0x0, 0x3F, 0x0, 0x0⟩, -- PG_STAT
  ⟨0x00C, 1, 0x4, 0x5, 0x0, 0x0, 0x0, 0x5, 0x2, 0x1⟩, -- PG_CTL
  ⟨0x010, 1, 0x4, 0xFF0, 0x0, 0x0, 0x0, 0xFF0FF2, 0x5, 0x0⟩, -- PG_COMMIT
  ⟨0x014, 1, 0x4, 0x0, 0x0, 0x0, 0x0, 0xFFFFFFFF, 0x0, 0x0⟩, -- PG_EVT_RAW
  ⟨0x018, 1, 0x4, 0xFFFFFFFF, 0x0, 0x0, 0x0, 0xFFFFFFFF, 0x0, 0x0⟩, -- PG_EVT_EN
  ⟨0x01C, 1, 0x4, 0x0, 0x0, 0xFFFFFFFF, 0x0, 0xFFFFFFFF, 0x0, 0x0⟩, -- PG_EVT_PEND
  ⟨0x020, 1, 0x4, 0xFFFFFFFF, 0x0, 0x0, 0x0, 0xFFFFFFFF, 0x0, 0x0⟩, -- PG_EVT_ROUTE
  ⟨0x024, 1, 0x4, 0x0, 0x0, 0x0, 0xFFFF, 0xFFFF, 0x0, 0x0⟩, -- PG_ECC_CE
  ⟨0x028, 1, 0x4, 0x0, 0x0, 0x0, 0xFFFF, 0xFFFF, 0x0, 0x0⟩, -- PG_ECC_UE
  ⟨0x02C, 1, 0x4, 0x7, 0x0, 0x0, 0x0, 0xF77, 0x10000, 0x0⟩, -- PG_ECC_LOG_IDX
  ⟨0x030, 1, 0x4, 0x0, 0x0, 0x0, 0x0, 0xFFFFFFFF, 0x0, 0x0⟩, -- PG_ECC_LOG_ADDR
  ⟨0x034, 1, 0x4, 0xFFFF1FFF, 0x0, 0x0, 0x0, 0xFFFF1FFF, 0x0, 0x401410⟩, -- PG_BUCKET
  ⟨0x038, 1, 0x4, 0x80003F00, 0x0, 0x0, 0x0, 0x80003F07, 0x0, 0x0⟩, -- PG_LOCK
  ⟨0x03C, 1, 0x4, 0x0, 0x0, 0x0, 0x0, 0xFFFFFFFF, 0x0, 0x0⟩] -- PG_SEQ

def regsBeam0 : List RegRow := [
  ⟨0x040, 4, 0x20, 0x0, 0xFFFDFF, 0x0, 0x0, 0xFFFDFF, 0x0, 0xF41020⟩, -- BEAM_CFG
  ⟨0x044, 4, 0x20, 0x0, 0x1FFFFF, 0x0, 0x0, 0x1FFFFF, 0x0, 0x10000⟩, -- BEAM_CPR
  ⟨0x048, 4, 0x20, 0x0, 0xFF0FFFFF, 0x0, 0x0, 0xFF0FFFFF, 0x0, 0x2000000⟩, -- BEAM_IDX
  ⟨0x04C, 4, 0x20, 0x0, 0xFFFF, 0x0, 0x0, 0xFFFF, 0x0, 0x4⟩, -- BEAM_HYST
  ⟨0x050, 4, 0x20, 0x0, 0xFFFFFFFF, 0x0, 0x0, 0xFFFFFFFF, 0x0, 0x0⟩, -- BEAM_SPEED
  ⟨0x054, 4, 0x20, 0x0, 0xFFFFFF, 0x0, 0x0, 0xFFFFFF, 0x0, 0x186A0⟩, -- BEAM_STALL
  ⟨0x058, 4, 0x20, 0x0, 0xFFFFFFFF, 0x0, 0x0, 0xFFFFFFFF, 0x0, 0x0⟩, -- BEAM_COARSE
  ⟨0x100, 256, 0x4, 0x0, 0xFFFFFF03, 0x0, 0x0, 0xFFFFFF03, 0x0, 0x0⟩, -- BEAM_TAP
  ⟨0x800, 4, 0x40, 0x0, 0x0, 0x0, 0x0, 0xF3F, 0x0, 0x8⟩, -- BEAM_STATE
  ⟨0x804, 4, 0x40, 0x0, 0x0, 0x0, 0x0, 0xFFFFFFFF, 0x0, 0x0⟩, -- BEAM_ANGLE
  ⟨0x808, 4, 0x40, 0x0, 0x0, 0x0, 0x0, 0xFFFFFFFF, 0x0, 0x0⟩, -- BEAM_REV
  ⟨0x80C, 4, 0x40, 0x0, 0x0, 0x0, 0x0, 0xFFFFFFFF, 0x0, 0x0⟩, -- BEAM_VEL
  ⟨0x810, 4, 0x40, 0x0, 0x0, 0x0, 0x0, 0xFFFFFFFF, 0x0, 0x0⟩, -- BEAM_ACC
  ⟨0x814, 4, 0x40, 0x0, 0x0, 0x0, 0x0, 0xFFFFF, 0x0, 0x0⟩, -- BEAM_COUNT
  ⟨0x818, 4, 0x40, 0x0, 0x0, 0x0, 0x0, 0xFFFFFFFF, 0x0, 0x0⟩, -- BEAM_IDXDEV
  ⟨0x81C, 4, 0x40, 0x0, 0x0, 0x0, 0xFFFFFFFF, 0xFFFFFFFF, 0x0, 0x0⟩, -- BEAM_QERR
  ⟨0x820, 4, 0x40, 0x0, 0x0, 0x0, 0xFFFFFFFF, 0xFFFFFFFF, 0x0, 0x0⟩, -- BEAM_SLIP
  ⟨0x824, 4, 0x40, 0x0, 0x0, 0x0, 0xFFFF, 0xFFFF, 0x0, 0x0⟩, -- BEAM_XLOST
  ⟨0x828, 4, 0x40, 0x0, 0x0, 0x0, 0x0, 0x0, 0x1, 0x0⟩, -- BEAM_RESYNC
  ⟨0x900, 1, 0x4, 0x3, 0x0, 0x0, 0x0, 0x23, 0x10, 0x0⟩] -- BEAM_PRED_CTL

def regsBeam1 : List RegRow := [
  ⟨0x904, 1, 0x4, 0xFFFFFFFF, 0x0, 0x0, 0x0, 0xFFFFFFFF, 0x0, 0x0⟩, -- BEAM_PRED_ANGLE
  ⟨0x908, 1, 0x4, 0xFFFFFFFF, 0x0, 0x0, 0x0, 0xFFFFFFFF, 0x0, 0x0⟩, -- BEAM_PRED_REV
  ⟨0x90C, 1, 0x4, 0x0, 0x0, 0x0, 0x0, 0xFFFFFFFF, 0x0, 0x0⟩, -- BEAM_PRED_TLO
  ⟨0x910, 1, 0x4, 0x0, 0x0, 0x0, 0x0, 0xFFFFFFFF, 0x0, 0x0⟩, -- BEAM_PRED_THI
  ⟨0x914, 1, 0x4, 0x0, 0x0, 0x0, 0x0, 0x3F, 0x0, 0x0⟩, -- BEAM_PRED_STAT
  ⟨0x920, 1, 0x4, 0x0, 0x0, 0x0, 0x0, 0xFFFFFFFF, 0x0, 0x0⟩, -- BEAM_TB_LO
  ⟨0x924, 1, 0x4, 0x0, 0x0, 0x0, 0x0, 0xFFFFFFFF, 0x0, 0x0⟩] -- BEAM_TB_HI

def regsBeam : List RegRow := regsBeam0 ++ regsBeam1

def regsRow0 : List RegRow := [
  ⟨0x040, 1, 0x4, 0x0, 0x1, 0x0, 0x0, 0x1, 0x0, 0x1⟩, -- ROW_CFG
  ⟨0x800, 1, 0x4, 0x1F, 0x0, 0x0, 0x0, 0x1F, 0x0, 0x0⟩, -- ROW_CSEL
  ⟨0x900, 1, 0x4, 0x0, 0x0, 0x0, 0x0, 0x13F3F, 0x0, 0x0⟩, -- ROW_STAT
  ⟨0x904, 1, 0x4, 0x0, 0x0, 0x0, 0x0, 0x80000000, 0x3, 0x0⟩, -- ROW_TCINV
  ⟨0x908, 1, 0x4, 0xFFFFFFC0, 0x0, 0x0, 0x0, 0xFFFFFFC0, 0x0, 0x0⟩, -- ROW_TCINV_BASE_LO
  ⟨0x90C, 1, 0x4, 0xFF, 0x0, 0x0, 0x0, 0xFF, 0x0, 0x0⟩, -- ROW_TCINV_BASE_HI
  ⟨0x910, 1, 0x4, 0xFFFFFFC0, 0x0, 0x0, 0x0, 0xFFFFFFC0, 0x0, 0x0⟩, -- ROW_TCINV_LEN
  ⟨0x914, 1, 0x4, 0x0, 0x0, 0x0, 0xFFFFFFFF, 0xFFFFFFFF, 0x0, 0x0⟩, -- ROW_TC_HIT
  ⟨0x918, 1, 0x4, 0x0, 0x0, 0x0, 0xFFFFFFFF, 0xFFFFFFFF, 0x0, 0x0⟩, -- ROW_TC_MISS
  ⟨0x91C, 1, 0x4, 0x0, 0x0, 0x0, 0xFFFFFFFF, 0xFFFFFFFF, 0x0, 0x0⟩, -- ROW_STALL
  ⟨0x920, 1, 0x4, 0x0, 0x0, 0x0, 0xFFFF, 0xFFFF, 0x0, 0x0⟩, -- ROW_MAXREND
  ⟨0x924, 1, 0x4, 0x0, 0x0, 0xFFFFFFFF, 0x0, 0xFFFFFFFF, 0x0, 0x0⟩, -- ROW_EVT_CTX
  ⟨0x928, 1, 0x4, 0x10FFF, 0x0, 0x0, 0x0, 0x10FFF, 0x0, 0x0⟩, -- ROW_MAW_IDX
  ⟨0x940, 8, 0x4, 0xFFFFFFFF, 0x0, 0x0, 0x0, 0xFFFFFFFF, 0x0, 0x0⟩, -- ROW_MAW_D
  ⟨0x960, 1, 0x4, 0x0, 0x0, 0x0, 0xFFFFFFFF, 0xFFFFFFFF, 0x0, 0x0⟩, -- ROW_MC_HIT
  ⟨0x964, 1, 0x4, 0x0, 0x0, 0x0, 0xFFFFFFFF, 0xFFFFFFFF, 0x0, 0x0⟩, -- ROW_MC_MISS
  ⟨0x968, 1, 0x4, 0x0, 0x0, 0x0, 0x0, 0x80000000, 0x3, 0x0⟩, -- ROW_MCINV
  ⟨0xA00, 32, 0x8, 0x0, 0x0, 0x0, 0xFFFFFFFF, 0xFFFFFFFF, 0x0, 0x0⟩, -- ROW_MOVF
  ⟨0xA04, 32, 0x8, 0x0, 0x0, 0x0, 0xFFFFFFFF, 0xFFFFFFFF, 0x0, 0x0⟩, -- ROW_MERR
  ⟨0xB00, 32, 0x4, 0x0, 0x0, 0x0, 0xFFFF07FF, 0xFFFF07FF, 0x0, 0x0⟩] -- ROW_MPEAK

def regsRow1 : List RegRow := [
  ⟨0xB80, 32, 0x4, 0xFFFF007F, 0x0, 0x0, 0x0, 0xFFFF007F, 0x0, 0x0⟩, -- ROW_XCFG
  ⟨0xC00, 32, 0x10, 0xFFF0001F, 0x0, 0x0, 0x0, 0xFFF0001F, 0x0, 0x0⟩, -- ROW_HR_LO
  ⟨0xC04, 32, 0x10, 0xFF, 0x0, 0x0, 0x0, 0xFF, 0x0, 0x0⟩, -- ROW_HR_HI
  ⟨0xC08, 32, 0x10, 0x0, 0x0, 0x0, 0x0, 0xFFFFFFFF, 0x0, 0xFFFFFFFF⟩, -- ROW_HWM
  ⟨0xC0C, 32, 0x10, 0x0, 0x0, 0x0, 0x0, 0xFFFFF, 0x0, 0x0⟩, -- ROW_REVST
  ⟨0xE00, 32, 0x8, 0x0, 0x0, 0x0, 0xFFFFFFFF, 0xFFFFFFFF, 0x0, 0x0⟩, -- ROW_RCNT
  ⟨0xE04, 32, 0x8, 0x0, 0x0, 0x0, 0xFFFFFFFF, 0xFFFFFFFF, 0x0, 0x0⟩, -- ROW_RERR
  ⟨0xF00, 32, 0x4, 0x8FFFFFFF, 0x0, 0x0, 0x0, 0x8FFFFFFF, 0x0, 0x0⟩] -- ROW_RIDX

def regsRow : List RegRow := regsRow0 ++ regsRow1

def regsRowc0 : List RegRow := [
  ⟨0x100, 1, 0x4, 0x0, 0xFFF, 0x0, 0x0, 0xFFF, 0x0, 0x0⟩, -- ROW_CPLEN
  ⟨0x140, 1, 0x4, 0x0, 0x7FF0FFF, 0x0, 0x0, 0x7FF0FFF, 0x0, 0x0⟩, -- ROW_MTAB
  ⟨0x144, 1, 0x4, 0x0, 0x7F01, 0x0, 0x0, 0x7F01, 0x0, 0x7F00⟩, -- ROW_MCFG
  ⟨0x148, 1, 0x4, 0x0, 0x1FFFF, 0x0, 0x0, 0x1FFFF, 0x0, 0x0⟩, -- ROW_MXOFF
  ⟨0x180, 16, 0x4, 0x0, 0xFFFF01FF, 0x0, 0x0, 0xFFFF01FF, 0x0, 0x0⟩, -- ROW_ACT
  ⟨0x200, 16, 0x8, 0x0, 0xFFFFFFFF, 0x0, 0x0, 0xFFFFFFFF, 0x0, 0x0⟩, -- ROW_YT_LO
  ⟨0x204, 16, 0x8, 0x0, 0xFFFFFFFF, 0x0, 0x0, 0xFFFFFFFF, 0x0, 0x0⟩, -- ROW_YT_HI
  ⟨0x300, 8, 0x40, 0x0, 0x3FF, 0x0, 0x0, 0x3FF, 0x0, 0x10⟩, -- ROW_PCFG
  ⟨0x304, 8, 0x40, 0x0, 0xFFFFFFC0, 0x0, 0x0, 0xFFFFFFC0, 0x0, 0x0⟩, -- ROW_PMAP_LO
  ⟨0x308, 8, 0x40, 0x0, 0xFF, 0x0, 0x0, 0xFF, 0x0, 0x0⟩, -- ROW_PMAP_HI
  ⟨0x30C, 8, 0x40, 0x0, 0xFFFF1FFF, 0x0, 0x0, 0xFFFF1FFF, 0x0, 0x0⟩, -- ROW_PDIM
  ⟨0x310, 8, 0x40, 0x0, 0xFFFFFFC0, 0x0, 0x0, 0xFFFFFFC0, 0x0, 0x0⟩, -- ROW_PTILE_LO
  ⟨0x314, 8, 0x40, 0x0, 0xFF, 0x0, 0x0, 0xFF, 0x0, 0x0⟩, -- ROW_PTILE_HI
  ⟨0x318, 8, 0x40, 0x0, 0x1FFFFF, 0x0, 0x0, 0x1FFFFF, 0x0, 0x0⟩, -- ROW_PTCNT
  ⟨0x31C, 8, 0x40, 0x0, 0x7FFFF, 0x0, 0x0, 0x7FFFF, 0x0, 0x0⟩, -- ROW_PHSC
  ⟨0x320, 8, 0x40, 0x0, 0x7FFFFF, 0x0, 0x0, 0x7FFFFF, 0x0, 0x0⟩, -- ROW_PVSC
  ⟨0x324, 8, 0x40, 0x0, 0xFFFFFFFF, 0x0, 0x0, 0xFFFFFFFF, 0x0, 0xFFFF0000⟩, -- ROW_PWIN
  ⟨0x328, 8, 0x40, 0x0, 0x807FFFFF, 0x0, 0x0, 0x807FFFFF, 0x0, 0x0⟩, -- ROW_PYLD
  ⟨0x804, 1, 0x4, 0xFFFF3FFF, 0x0, 0x0, 0x0, 0xFFFF3FFF, 0x0, 0xFFFF3100⟩, -- ROW_BIND
  ⟨0x808, 1, 0x4, 0xFFFFFFFF, 0x0, 0x0, 0x0, 0xFFFFFFFF, 0x0, 0x0⟩] -- ROW_START

def regsRowc1 : List RegRow := [
  ⟨0x80C, 1, 0x4, 0x0, 0x0, 0x0, 0x0, 0x0, 0x10F, 0x0⟩, -- ROW_CMD
  ⟨0x810, 1, 0x4, 0xFFFFFFFF, 0x0, 0x0, 0x0, 0xFFFFFFFF, 0x0, 0x0⟩, -- ROW_CMDROW
  ⟨0x814, 1, 0x4, 0x0, 0x0, 0x0, 0x0, 0x7FFF7, 0x0, 0x0⟩, -- ROW_CSTAT
  ⟨0x818, 1, 0x4, 0x0, 0x0, 0x0, 0x0, 0xFFFFFFFF, 0x0, 0x0⟩, -- ROW_ROWNUM
  ⟨0x81C, 1, 0x4, 0xFFFF, 0x0, 0x0, 0x0, 0xFFFF, 0x0, 0x0⟩, -- ROW_PAGE
  ⟨0x820, 1, 0x4, 0x0, 0x0, 0x0, 0x0, 0xFFFFFFFF, 0x0, 0x0⟩, -- ROW_CCNT_REND
  ⟨0x824, 1, 0x4, 0x0, 0x0, 0x0, 0xFFFFFFFF, 0xFFFFFFFF, 0x0, 0x0⟩, -- ROW_CCNT_ERR
  ⟨0x828, 1, 0x4, 0x0, 0x0, 0x0, 0xFFFFFFFF, 0xFFFFFFFF, 0x0, 0x0⟩, -- ROW_CCNT_XING
  ⟨0x82C, 1, 0x4, 0x0, 0x0, 0x0, 0xFFFFFFFF, 0xFFFFFFFF, 0x0, 0x0⟩, -- ROW_CCNT_LATE
  ⟨0x830, 8, 0x4, 0x0, 0x0, 0x0, 0x0, 0x7FFFFF, 0x0, 0x0⟩, -- ROW_PYPOS
  ⟨0x850, 1, 0x4, 0x0, 0x0, 0x0, 0x0, 0xFFFFFFFF, 0x0, 0x0⟩] -- ROW_HELDN

def regsRowc : List RegRow := regsRowc0 ++ regsRowc1

def regsHrn : List RegRow := [
  ⟨0x040, 1, 0x4, 0x0, 0xFFFF, 0x0, 0x0, 0xFFFF, 0x0, 0x0⟩, -- HRN_GMASK
  ⟨0x080, 16, 0x4, 0x0, 0xFFFF, 0x0, 0x0, 0xFFFF, 0x0, 0x0⟩, -- HRN_GOFF
  ⟨0x800, 1, 0x4, 0x1FFFF, 0x0, 0x0, 0x0, 0x1FFFF, 0x0, 0x0⟩, -- HRN_TW_IDX
  ⟨0x804, 1, 0x4, 0xFFFFFFFF, 0x0, 0x0, 0x0, 0xFFFFFFFF, 0x0, 0x0⟩, -- HRN_TW_DATA
  ⟨0x808, 1, 0x4, 0x0, 0x0, 0x0, 0x0, 0xFF03, 0x0, 0x0⟩, -- HRN_STAT
  ⟨0x80C, 1, 0x4, 0xFF, 0x0, 0x0, 0x0, 0xFF, 0x0, 0x0⟩, -- HRN_SEGMAP_IDX
  ⟨0x810, 1, 0x4, 0x0, 0x0, 0x0, 0x0, 0xFFFFFFFF, 0x0, 0x0⟩, -- HRN_SEGMAP_LO
  ⟨0x814, 1, 0x4, 0x0, 0x0, 0x0, 0x0, 0xFFFFFFFF, 0x0, 0x0⟩, -- HRN_SEGMAP_HI
  ⟨0x820, 1, 0x4, 0x0, 0x0, 0x0, 0xFFFFFFFF, 0xFFFFFFFF, 0x0, 0x0⟩, -- HRN_CERR
  ⟨0x824, 1, 0x4, 0x0, 0x0, 0x0, 0xFFFFFFFF, 0xFFFFFFFF, 0x0, 0x0⟩, -- HRN_GMASKED
  ⟨0x828, 1, 0x4, 0x0, 0x0, 0x0, 0xFFFF, 0xFFFF, 0x0, 0x0⟩, -- HRN_UE
  ⟨0x82C, 1, 0x4, 0x0, 0x0, 0x0, 0xFFFF, 0xFFFF, 0x0, 0x0⟩] -- HRN_MAXGATH

def regsAeq : List RegRow := [
  ⟨0x040, 1, 0x4, 0x0, 0xFFFFFF, 0x0, 0x0, 0xFFFFFF, 0x0, 0x30D40⟩, -- AEQ_LEADT
  ⟨0x044, 1, 0x4, 0x0, 0xFFFFFFFF, 0x0, 0x0, 0xFFFFFFFF, 0x0, 0x1000000⟩, -- AEQ_MINSPAN
  ⟨0x048, 1, 0x4, 0x0, 0xFFFFFFFF, 0x0, 0x0, 0xFFFFFFFF, 0x0, 0x80000000⟩, -- AEQ_MAXSPAN
  ⟨0x04C, 1, 0x4, 0x0, 0x3, 0x0, 0x0, 0x3, 0x0, 0x3⟩, -- AEQ_CFG
  ⟨0x800, 1, 0x4, 0xFFFF, 0x0, 0x0, 0x0, 0xFFFF, 0x0, 0x0⟩, -- AEQ_CNT_IDX
  ⟨0x804, 1, 0x4, 0x0, 0x0, 0x0, 0x0, 0xFFFFFFFF, 0x0, 0x0⟩, -- AEQ_CNT_ENQ
  ⟨0x808, 1, 0x4, 0x0, 0x0, 0x0, 0x0, 0xFFFFFFFF, 0x0, 0x0⟩, -- AEQ_CNT_FIRED
  ⟨0x80C, 1, 0x4, 0x0, 0x0, 0x0, 0x0, 0xFFFFFFFF, 0x0, 0x0⟩, -- AEQ_CNT_CANC
  ⟨0x810, 1, 0x4, 0x0, 0x0, 0x0, 0x0, 0xFFFFFFFF, 0x0, 0x0⟩, -- AEQ_CNT_UNF
  ⟨0x814, 1, 0x4, 0x0, 0x0, 0x0, 0x0, 0xFFFFFFFF, 0x0, 0x0⟩, -- AEQ_CNT_DROP
  ⟨0x818, 1, 0x4, 0x0, 0x0, 0x0, 0x0, 0xFFFF, 0x0, 0x0⟩, -- AEQ_CHST
  ⟨0x830, 1, 0x4, 0x0, 0x0, 0x0, 0xFFFFFFFF, 0xFFFFFFFF, 0x0, 0x0⟩, -- AEQ_QFULL
  ⟨0x834, 1, 0x4, 0x0, 0x0, 0x0, 0xFFFFFFFF, 0xFFFFFFFF, 0x0, 0x0⟩, -- AEQ_EXPIRED
  ⟨0x838, 1, 0x4, 0x0, 0x0, 0x0, 0xFFFFFFFF, 0xFFFFFFFF, 0x0, 0x0⟩, -- AEQ_LATE
  ⟨0x83C, 1, 0x4, 0x0, 0x0, 0x0, 0xFFFFFFFF, 0xFFFFFFFF, 0x0, 0x0⟩, -- AEQ_UE
  ⟨0x900, 64, 0x4, 0x0, 0x0, 0x0, 0x0, 0xFFFFFFFF, 0x0, 0x0⟩] -- AEQ_POCC

def regsRlk : List RegRow := [
  ⟨0x040, 1, 0x4, 0x0, 0x3FFFF1F, 0x0, 0x0, 0x3FFFF1F, 0x0, 0x191008⟩, -- RLK_CFG
  ⟨0x800, 1, 0x4, 0x0, 0x0, 0x0, 0x0, 0xFFFFFFFF, 0x0, 0x0⟩, -- RLK_STAT
  ⟨0x804, 1, 0x4, 0x0, 0x0, 0x0, 0x0, 0xFFFFFFFF, 0x0, 0x0⟩, -- RLK_EPOCH
  ⟨0x808, 1, 0x4, 0x0, 0x0, 0x0, 0x0, 0xFFFFFFFF, 0x0, 0x0⟩, -- RLK_BOARD_ID
  ⟨0x80C, 1, 0x4, 0x0, 0x0, 0x0, 0x0, 0xFFFF, 0x0, 0x0⟩, -- RLK_PDLY
  ⟨0x810, 1, 0x4, 0x0, 0x0, 0x0, 0x0, 0xFFFFFFFF, 0x0, 0x0⟩, -- RLK_SEQ
  ⟨0x814, 1, 0x4, 0x0, 0x0, 0x0, 0x0, 0xFFFF, 0x0, 0x0⟩, -- RLK_CREDIT
  ⟨0x818, 1, 0x4, 0x0, 0x0, 0x0, 0x0, 0xFFFFFFFF, 0x0, 0x0⟩, -- RLK_ES
  ⟨0x81C, 1, 0x4, 0x0, 0x0, 0x0, 0x0, 0xFFFFFFFF, 0x0, 0x0⟩, -- RLK_CR
  ⟨0x820, 1, 0x4, 0x0, 0x0, 0x0, 0x0, 0xFFFFFFFF, 0x0, 0x0⟩, -- RLK_AUDD
  ⟨0x828, 1, 0x4, 0x0, 0x0, 0x0, 0xFFFFFFFF, 0xFFFFFFFF, 0x0, 0x0⟩, -- RLK_ERR
  ⟨0x82C, 1, 0x4, 0x0, 0x0, 0x0, 0xFFFFFFFF, 0xFFFFFFFF, 0x0, 0x0⟩, -- RLK_RETX
  ⟨0x830, 1, 0x4, 0x0, 0x0, 0x0, 0xFFFFFFFF, 0xFFFFFFFF, 0x0, 0x0⟩, -- RLK_LINK
  ⟨0x834, 1, 0x4, 0x0, 0x0, 0x0, 0xFFFFFFFF, 0xFFFFFFFF, 0x0, 0x0⟩, -- RLK_RPT
  ⟨0x838, 1, 0x4, 0x0, 0x0, 0x0, 0xFFFFFFFF, 0xFFFFFFFF, 0x0, 0x0⟩, -- RLK_AUDF
  ⟨0x83C, 1, 0x4, 0x0, 0x0, 0x0, 0xFFFFFFFF, 0xFFFFFFFF, 0x0, 0x0⟩, -- RLK_MIRR
  ⟨0x900, 1, 0x4, 0xF6, 0x0, 0x0, 0x0, 0xFF01F6, 0x1, 0x0⟩, -- RLK_MGT_CTL
  ⟨0x904, 1, 0x4, 0xFFFFFFFF, 0x0, 0x0, 0x0, 0xFFFFFFFF, 0x0, 0x0⟩, -- RLK_MGT_ADDR
  ⟨0x940, 16, 0x4, 0xFFFFFFFF, 0x0, 0x0, 0x0, 0xFFFFFFFF, 0x0, 0x0⟩] -- RLK_MGT_D

def regsSeal : List RegRow := [
  ⟨0x040, 1, 0x4, 0x0, 0x1F, 0x0, 0x0, 0x1F, 0x0, 0x10⟩, -- SEAL_CFG
  ⟨0x800, 1, 0x4, 0x0, 0x0, 0x0, 0x0, 0xF7FF07FF, 0x0, 0x0⟩, -- SEAL_STAT
  ⟨0x804, 1, 0x4, 0x0, 0x0, 0x0, 0xFFFFFFFF, 0xFFFFFFFF, 0x0, 0x0⟩, -- SEAL_CMP
  ⟨0x808, 1, 0x4, 0x0, 0x0, 0x0, 0xFFFFFFFF, 0xFFFFFFFF, 0x0, 0x0⟩, -- SEAL_MISM
  ⟨0x80C, 1, 0x4, 0x0, 0x0, 0x0, 0xFFFFFFFF, 0xFFFFFFFF, 0x0, 0x0⟩, -- SEAL_TMOC
  ⟨0x810, 1, 0x4, 0x0, 0x0, 0x0, 0xFFFFFFFF, 0xFFFFFFFF, 0x0, 0x0⟩, -- SEAL_OBSM
  ⟨0x814, 1, 0x4, 0x0, 0x0, 0x0, 0xFFFFFFFF, 0xFFFFFFFF, 0x0, 0x0⟩, -- SEAL_REISS
  ⟨0x818, 1, 0x4, 0x0, 0x0, 0x0, 0x0, 0xFFFFFFFF, 0x0, 0x0⟩, -- SEAL_SCW
  ⟨0x81C, 1, 0x4, 0x0, 0x0, 0x0, 0xFFFFFFFF, 0xFFFFFFFF, 0x0, 0x0⟩, -- SEAL_NOREC
  ⟨0x820, 4, 0x4, 0x0, 0x0, 0x0, 0x0, 0xFFFFFFFF, 0x0, 0x0⟩, -- SEAL_LOG
  ⟨0x830, 1, 0x4, 0x0, 0x0, 0x0, 0x0, 0xFFFFFFFF, 0x0, 0x0⟩] -- SEAL_LOGP

def regsRef : List RegRow := [
  ⟨0x800, 1, 0x4, 0x0, 0x0, 0x0, 0x0, 0xFFFF00FF, 0x0, 0x964000B0⟩, -- REF_ID
  ⟨0x804, 1, 0x4, 0x0, 0x0, 0x0, 0x0, 0x33377, 0x0, 0x0⟩, -- REF_HSTATE
  ⟨0x808, 1, 0x4, 0x0, 0x0, 0x0, 0x0, 0xFFFFFFFF, 0x0, 0x0⟩, -- REF_EPOCH
  ⟨0x80C, 1, 0x4, 0x0, 0x0, 0x0, 0x0, 0xFF03, 0x0, 0x800⟩, -- REF_CFG
  ⟨0x810, 1, 0x4, 0x0, 0x0, 0x0, 0x0, 0xFFFFFFFF, 0x0, 0x0⟩, -- REF_COUNT
  ⟨0x814, 1, 0x4, 0x0, 0x0, 0x0, 0x0, 0xFFFFFFFF, 0x0, 0x0⟩, -- REF_LASTDEC
  ⟨0x818, 2, 0x4, 0x0, 0x0, 0x0, 0x0, 0xFFFFFFFF, 0x0, 0x0⟩, -- REF_SCW
  ⟨0x820, 1, 0x4, 0x0, 0x0, 0x0, 0x0, 0xFFFFFFFF, 0x0, 0x0⟩, -- REF_FLOG_HEAD
  ⟨0x824, 1, 0x4, 0x0, 0x0, 0x0, 0x0, 0xFFFFFFFF, 0x0, 0x1⟩, -- REF_EPFLOOR
  ⟨0x828, 1, 0x4, 0x0, 0x0, 0x0, 0x0, 0xFFFFFFFF, 0x0, 0x0⟩, -- REF_MBXDROP
  ⟨0x840, 16, 0x4, 0x0, 0x0, 0x0, 0x0, 0xFFFFFFFF, 0x0, 0x0⟩, -- REF_RJLIST
  ⟨0xC00, 256, 0x4, 0x0, 0x0, 0x0, 0x0, 0xFFFFFFFF, 0x0, 0x0⟩] -- REF_FLOG

def regsLpe0 : List RegRow := [
  ⟨0x040, 1, 0x4, 0x0, 0x800033FF, 0x0, 0x0, 0x800033FF, 0x0, 0x2100⟩, -- LPE_BIND
  ⟨0x044, 1, 0x4, 0x0, 0xFFFFFFFF, 0x0, 0x0, 0xFFFFFFFF, 0x0, 0x0⟩, -- LPE_TOFF_LO
  ⟨0x048, 1, 0x4, 0x0, 0xFFFFFFFF, 0x0, 0x0, 0xFFFFFFFF, 0x0, 0x0⟩, -- LPE_TOFF_HI
  ⟨0x04C, 1, 0x4, 0x0, 0xFFFFFFFF, 0x0, 0x0, 0xFFFFFFFF, 0x0, 0x0⟩, -- LPE_MINSTEP
  ⟨0x050, 1, 0x4, 0x0, 0xFFFFFFFF, 0x0, 0x0, 0xFFFFFFFF, 0x0, 0xDFFF2000⟩, -- LPE_VPH
  ⟨0x054, 1, 0x4, 0x0, 0xFFFFFFFF, 0x0, 0x0, 0xFFFFFFFF, 0x0, 0xDFFF2000⟩, -- LPE_XPH
  ⟨0x058, 1, 0x4, 0x0, 0xFFFFFF, 0x0, 0x0, 0xFFFFFF, 0x0, 0x3D09⟩, -- LPE_LINE
  ⟨0x05C, 1, 0x4, 0x0, 0xFFFFFFFF, 0x0, 0x0, 0xFFFFFFFF, 0x0, 0x408034⟩, -- LPE_LENS
  ⟨0x060, 1, 0x4, 0x0, 0xFFFFFFFF, 0x0, 0x0, 0xFFFFFFFF, 0x0, 0x0⟩, -- LPE_LOFF
  ⟨0x064, 1, 0x4, 0x0, 0xFFFFFFFF, 0x0, 0x0, 0xFFFFFFFF, 0x0, 0x10000000⟩, -- LPE_LGAIN
  ⟨0x068, 2, 0x4, 0x0, 0x3FFF3FFF, 0x0, 0x0, 0x3FFF3FFF, 0x0, 0x0⟩, -- LPE_SELV
  ⟨0x070, 1, 0x4, 0x0, 0xFFFFF, 0x0, 0x0, 0xFFFFF, 0x0, 0x44002⟩, -- LPE_AGG
  ⟨0x074, 1, 0x4, 0x0, 0xFFFFFFFF, 0x0, 0x0, 0xFFFFFFFF, 0x0, 0x0⟩, -- LPE_STOPCLS
  ⟨0x078, 1, 0x4, 0x0, 0x7FFFFF, 0x0, 0x0, 0x7FFFFF, 0x0, 0x1F⟩, -- LPE_STOPWIN
  ⟨0x07C, 1, 0x4, 0x0, 0xFFFFFFFF, 0x0, 0x0, 0xFFFFFFFF, 0x0, 0x0⟩, -- LPE_ATROW
  ⟨0x080, 1, 0x4, 0x0, 0xFFFFF000, 0x0, 0x0, 0xFFFFF000, 0x0, 0x0⟩, -- LPE_RING_LO
  ⟨0x084, 1, 0x4, 0x0, 0xFF, 0x0, 0x0, 0xFF, 0x0, 0x0⟩, -- LPE_RING_HI
  ⟨0x088, 1, 0x4, 0x0, 0xFFFF1F, 0x0, 0x0, 0xFFFF1F, 0x0, 0x10A⟩, -- LPE_RING_CFG
  ⟨0x08C, 1, 0x4, 0x0, 0x3FF03FF, 0x0, 0x0, 0x3FF03FF, 0x0, 0x80008⟩, -- LPE_FID
  ⟨0x0C0, 16, 0x4, 0x0, 0x3FFFFF, 0x0, 0x0, 0x3FFFFF, 0x0, 0xFF00⟩] -- LPE_APP

def regsLpe1 : List RegRow := [
  ⟨0x800, 1, 0x4, 0x0, 0x0, 0x0, 0x0, 0x1F, 0x0, 0x0⟩, -- LPE_STAT
  ⟨0x804, 1, 0x4, 0x0, 0x0, 0x0, 0x0, 0xFFFFFFFF, 0x0, 0x0⟩, -- LPE_CURROW
  ⟨0x808, 1, 0x4, 0x0, 0x0, 0x0, 0x0, 0xFFFFFFFF, 0x0, 0x0⟩, -- LPE_ROFF
  ⟨0x80C, 1, 0x4, 0x0, 0x0, 0x0, 0x0, 0xFFFFFFFF, 0x0, 0x10000000⟩, -- LPE_RGAIN
  ⟨0x810, 1, 0x4, 0x0, 0x0, 0x0, 0x0, 0x1FFFFF, 0x0, 0x0⟩, -- LPE_RING_WR
  ⟨0x814, 1, 0x4, 0x1FFFFF, 0x0, 0x0, 0x0, 0x1FFFFF, 0x0, 0x0⟩, -- LPE_RING_RD
  ⟨0x818, 1, 0x4, 0x13FFF, 0x0, 0x0, 0x0, 0x13FFF, 0x0, 0x0⟩, -- LPE_FFW_IDX
  ⟨0x81C, 1, 0x4, 0xFFFFFFFF, 0x0, 0x0, 0x0, 0xFFFFFFFF, 0x0, 0x0⟩, -- LPE_FFW_DATA
  ⟨0x820, 1, 0x4, 0x1007F, 0x0, 0x0, 0x0, 0x1007F, 0x0, 0x0⟩, -- LPE_KNW_IDX
  ⟨0x824, 1, 0x4, 0xFFFFFFFF, 0x0, 0x0, 0x0, 0xFFFFFFFF, 0x0, 0x0⟩, -- LPE_KNW_DATA
  ⟨0x828, 1, 0x4, 0xFFFFF01F, 0x0, 0x0, 0x0, 0xFFFFF01F, 0x0, 0x0⟩, -- LPE_TLOG_LO
  ⟨0x82C, 1, 0x4, 0xFF, 0x0, 0x0, 0x0, 0xFF, 0x0, 0x0⟩, -- LPE_TLOG_HI
  ⟨0x830, 1, 0x4, 0x0, 0x0, 0x0, 0xFFFFFFFF, 0xFFFFFFFF, 0x0, 0x0⟩, -- LPE_CLINE
  ⟨0x834, 1, 0x4, 0x0, 0x0, 0x0, 0xFFFFFFFF, 0xFFFFFFFF, 0x0, 0x0⟩, -- LPE_CSKIP
  ⟨0x838, 1, 0x4, 0x0, 0x0, 0x0, 0xFFFFFFFF, 0xFFFFFFFF, 0x0, 0x0⟩, -- LPE_CEXP
  ⟨0x83C, 1, 0x4, 0x0, 0x0, 0x0, 0xFFFFFFFF, 0xFFFFFFFF, 0x0, 0x0⟩, -- LPE_CCOR
  ⟨0x840, 1, 0x4, 0x0, 0x0, 0x0, 0xFFFFFFFF, 0xFFFFFFFF, 0x0, 0x0⟩, -- LPE_CREG
  ⟨0x844, 1, 0x4, 0x0, 0x0, 0x0, 0xFFFFFFFF, 0xFFFFFFFF, 0x0, 0x0⟩, -- LPE_CREC
  ⟨0x848, 1, 0x4, 0x0, 0x0, 0x0, 0xFFFFFFFF, 0xFFFFFFFF, 0x0, 0x0⟩, -- LPE_CLOST
  ⟨0x84C, 1, 0x4, 0x0, 0x0, 0x0, 0xFFFFFFFF, 0xFFFFFFFF, 0x0, 0x0⟩] -- LPE_CFEAT

def regsLpe : List RegRow := regsLpe0 ++ regsLpe1

def regsCxp : List RegRow := [
  ⟨0x040, 1, 0x4, 0x0, 0xFF3FFF, 0x0, 0x0, 0xFF3FFF, 0x0, 0x0⟩, -- CXP_CFG
  ⟨0x044, 1, 0x4, 0x0, 0xFFFFFFFF, 0x0, 0x0, 0xFFFFFFFF, 0x0, 0x0⟩, -- CXP_TPITCH
  ⟨0x048, 1, 0x4, 0x0, 0xFFF0FFF, 0x0, 0x0, 0xFFF0FFF, 0x0, 0x640000⟩, -- CXP_LAT
  ⟨0x800, 1, 0x4, 0x0, 0x0, 0x0, 0x0, 0x7F, 0x0, 0x0⟩, -- CXP_STAT
  ⟨0x804, 1, 0x4, 0x0, 0x0, 0x0, 0x0, 0x0, 0xFFFFFFFF, 0x0⟩, -- CXP_CTLTX
  ⟨0x808, 1, 0x4, 0x0, 0x0, 0x0, 0x0, 0xFFFFFFFF, 0x0, 0x0⟩, -- CXP_CTLRX
  ⟨0x80C, 1, 0x4, 0x0, 0x0, 0x0, 0x0, 0x7F007F, 0x0, 0x40⟩, -- CXP_CTLLV
  ⟨0x810, 1, 0x4, 0x0, 0x0, 0x0, 0xFFFFFFFF, 0xFFFFFFFF, 0x0, 0x0⟩, -- CXP_CERR
  ⟨0x814, 1, 0x4, 0x0, 0x0, 0x0, 0xFFFFFFFF, 0xFFFFFFFF, 0x0, 0x0⟩, -- CXP_CLINE
  ⟨0x818, 1, 0x4, 0x0, 0x0, 0x0, 0xFFFFFFFF, 0xFFFFFFFF, 0x0, 0x0⟩] -- CXP_CTRIG

def regsKxc : List RegRow := [
  ⟨0x800, 1, 0x4, 0x0, 0x0, 0x0, 0x0, 0x0, 0xF, 0x0⟩, -- KXC_CTL
  ⟨0x804, 1, 0x4, 0x0, 0x0, 0x0, 0x0, 0xF0007, 0x0, 0x0⟩, -- KXC_STAT
  ⟨0x808, 1, 0x4, 0x3FFF, 0x0, 0x0, 0x0, 0x3FFF, 0x0, 0x0⟩, -- KXC_PC
  ⟨0x80C, 1, 0x4, 0x13FFF, 0x0, 0x0, 0x0, 0x13FFF, 0x0, 0x0⟩, -- KXC_PMW_IDX
  ⟨0x810, 1, 0x4, 0x3FFF, 0x0, 0x0, 0x0, 0x3FFF, 0x0, 0x0⟩, -- KXC_PMW_DATA
  ⟨0x814, 1, 0x4, 0xFFFFFF, 0x0, 0x0, 0x0, 0xFFFFFF, 0x0, 0x0⟩, -- KXC_WDOG
  ⟨0x818, 1, 0x4, 0x0, 0x0, 0x0, 0x0, 0x0, 0xFFFF, 0x0⟩, -- KXC_HMBIN
  ⟨0x81C, 1, 0x4, 0x0, 0x0, 0x0, 0x0, 0xFFFF, 0x0, 0x0⟩, -- KXC_HMBOUT
  ⟨0x820, 1, 0x4, 0x0, 0x0, 0x0, 0x0, 0xFF, 0x0, 0x80⟩] -- KXC_HMBLV

def regsUcs : List RegRow := [
  ⟨0x800, 1, 0x4, 0x0, 0x0, 0x0, 0x0, 0xFFF00FF, 0x0, 0x0⟩, -- UCS_LDSTAT
  ⟨0x808, 1, 0x4, 0x10FFF, 0x0, 0x0, 0x0, 0x10FFF, 0x0, 0x0⟩, -- UCS_WIN_IDX
  ⟨0x80C, 4, 0x4, 0xFFFFFFFF, 0x0, 0x0, 0x0, 0xFFFFFFFF, 0x0, 0x0⟩, -- UCS_WIN_D
  ⟨0x840, 16, 0x4, 0xFFFF, 0x0, 0x0, 0x0, 0xFFFF, 0x0, 0x0⟩, -- UCS_DEC
  ⟨0x880, 1, 0x4, 0x0, 0x0, 0x0, 0xFFFFFFFF, 0xFFFFFFFF, 0x0, 0x0⟩] -- UCS_ERR

def regsMec : List RegRow := [
  ⟨0x040, 1, 0x4, 0x0, 0x3, 0x0, 0x0, 0x3, 0x0, 0x3⟩, -- MEC_CFG
  ⟨0x800, 1, 0x4, 0x0, 0x0, 0x0, 0x0, 0x107, 0x0, 0x0⟩, -- MEC_GEOM
  ⟨0x804, 1, 0x4, 0x0, 0x0, 0x0, 0x0, 0xFF0F, 0x0, 0x0⟩, -- MEC_STAT
  ⟨0x808, 1, 0x4, 0x0, 0x0, 0x0, 0x0, 0xFF, 0x0, 0x0⟩, -- MEC_TEMP
  ⟨0x80C, 1, 0x4, 0x0, 0x0, 0x0, 0xFFFFFFFF, 0xFFFFFFFF, 0x0, 0x0⟩] -- MEC_ERR

def regsScb : List RegRow := [
  ⟨0x040, 1, 0x4, 0x0, 0x7, 0x0, 0x0, 0x7, 0x0, 0x7⟩, -- SCB_CFG
  ⟨0x044, 1, 0x4, 0x0, 0xFFFF, 0x0, 0x0, 0xFFFF, 0x0, 0x40⟩, -- SCB_SSPACE
  ⟨0x048, 1, 0x4, 0x0, 0xFFFF, 0x0, 0x0, 0xFFFF, 0x0, 0x10⟩, -- SCB_DSPACE
  ⟨0x800, 1, 0x4, 0x0, 0x0, 0x0, 0x0, 0xFFFFFFFF, 0x0, 0x0⟩, -- SCB_SPOS
  ⟨0x804, 1, 0x4, 0x0, 0x0, 0x0, 0x0, 0x7FFFFFFF, 0x0, 0x0⟩, -- SCB_DPOS
  ⟨0x808, 1, 0x4, 0x0, 0x0, 0x0, 0xFFFFFFFF, 0xFFFFFFFF, 0x0, 0x0⟩, -- SCB_PASS
  ⟨0x80C, 1, 0x4, 0x0, 0x0, 0x0, 0x80373FFF, 0x80373FFF, 0x0, 0x0⟩, -- SCB_ESRC
  ⟨0x810, 1, 0x4, 0x0, 0x0, 0x0, 0xFFFF, 0xFFFF, 0x0, 0x0⟩] -- SCB_ELOST

def regsNvh0 : List RegRow := [
  ⟨0x040, 1, 0x4, 0x0, 0x1FFFF1, 0x0, 0x0, 0x1FFFF1, 0x0, 0x3321⟩, -- NVH_CFG
  ⟨0x044, 1, 0x4, 0x0, 0x1FFFF, 0x0, 0x0, 0x1FFFF, 0x0, 0x0⟩, -- NVH_PTBASE
  ⟨0x048, 1, 0x4, 0x0, 0xFFFFF, 0x0, 0x0, 0xFFFFF, 0x0, 0x0⟩, -- NVH_QBASE
  ⟨0x04C, 1, 0x4, 0x0, 0xFFFFFFF, 0x0, 0x0, 0xFFFFFFF, 0x0, 0x0⟩, -- NVH_LOGSTG
  ⟨0x050, 1, 0x4, 0x0, 0xFF0F, 0x0, 0x0, 0xFF0F, 0x0, 0x1004⟩, -- NVH_LOGCFG
  ⟨0x800, 1, 0x4, 0x0, 0x0, 0x0, 0x0, 0xFF007F, 0x0, 0x0⟩, -- NVH_STAT
  ⟨0x804, 1, 0x4, 0x0, 0x0, 0x0, 0x0, 0xFFFFFFFF, 0x0, 0x0⟩, -- NVH_VOLID_LO
  ⟨0x808, 1, 0x4, 0x0, 0x0, 0x0, 0x0, 0xFFFFFFFF, 0x0, 0x0⟩, -- NVH_VOLID_HI
  ⟨0x80C, 1, 0x4, 0x0, 0x0, 0x0, 0x0, 0xFFFFFFFF, 0x0, 0x0⟩, -- NVH_VOLSEQ
  ⟨0x810, 1, 0x4, 0xFFFFFFFF, 0x0, 0x0, 0x0, 0xFFFFFFFF, 0x0, 0x0⟩, -- NVH_MAPOBJ
  ⟨0x814, 1, 0x4, 0x7FFFF, 0x0, 0x0, 0x0, 0x7FFFF, 0x0, 0x0⟩, -- NVH_MAPDST
  ⟨0x818, 1, 0x4, 0x7FFFF, 0x0, 0x0, 0x0, 0x7FFFF, 0x0, 0x0⟩, -- NVH_MAPCNT
  ⟨0x81C, 1, 0x4, 0x0, 0x0, 0x0, 0x0, 0x0, 0x7, 0x0⟩, -- NVH_MAPCMD
  ⟨0x820, 1, 0x4, 0x1FFFFF, 0x0, 0x0, 0x0, 0x1FFFFF, 0x0, 0x0⟩, -- NVH_LOGWR
  ⟨0x824, 1, 0x4, 0x0, 0x0, 0x0, 0x0, 0x1FFFFF, 0x0, 0x0⟩, -- NVH_LOGRD
  ⟨0x828, 1, 0x4, 0xFFFFFFFF, 0x0, 0x0, 0x0, 0xFFFFFFFF, 0x0, 0x0⟩, -- NVH_LOGSEQ_LO
  ⟨0x82C, 1, 0x4, 0xFFFFFFFF, 0x0, 0x0, 0x0, 0xFFFFFFFF, 0x0, 0x0⟩, -- NVH_LOGSEQ_HI
  ⟨0x840, 6, 0x4, 0x0, 0x0, 0x0, 0x0, 0x0, 0xFF, 0x0⟩, -- NVH_DB
  ⟨0x880, 1, 0x4, 0x0, 0x0, 0x0, 0xFFFFFFFF, 0xFFFFFFFF, 0x0, 0x0⟩, -- NVH_CLOAD
  ⟨0x884, 1, 0x4, 0x0, 0x0, 0x0, 0xFFFFFFFF, 0xFFFFFFFF, 0x0, 0x0⟩] -- NVH_CERR

def regsNvh1 : List RegRow := [
  ⟨0x888, 1, 0x4, 0x0, 0x0, 0x0, 0xFFFFFFFF, 0xFFFFFFFF, 0x0, 0x0⟩, -- NVH_CPA
  ⟨0x88C, 1, 0x4, 0x0, 0x0, 0x0, 0xFFFF, 0xFFFF, 0x0, 0x0⟩] -- NVH_CDB

def regsNvh : List RegRow := regsNvh0 ++ regsNvh1

def regsDma : List RegRow := [
  ⟨0x040, 16, 0x4, 0x0, 0x31FF, 0x0, 0x0, 0x31FF, 0x0, 0x100⟩, -- DMA_CFG
  ⟨0x800, 16, 0x40, 0x0, 0x0, 0x0, 0x0, 0x700, 0x7, 0x0⟩, -- DMA_CTL
  ⟨0x804, 16, 0x40, 0xFFFFFFE0, 0x0, 0x0, 0x0, 0xFFFFFFE0, 0x0, 0x0⟩, -- DMA_DESC_LO
  ⟨0x808, 16, 0x40, 0xFF, 0x0, 0x0, 0x0, 0xFF, 0x0, 0x0⟩, -- DMA_DESC_HI
  ⟨0x80C, 16, 0x40, 0x0, 0x0, 0x0, 0x0, 0xF, 0x0, 0x0⟩, -- DMA_STAT
  ⟨0x810, 16, 0x40, 0x0, 0x0, 0x0, 0x0, 0xFFFFFF, 0x0, 0x0⟩, -- DMA_RDONE
  ⟨0x814, 16, 0x40, 0x0, 0x0, 0x0, 0x0, 0xFFFFFF, 0x0, 0x0⟩, -- DMA_WDONE
  ⟨0x818, 16, 0x40, 0x0, 0x0, 0x0, 0x0, 0xFFFFFFFF, 0x0, 0x0⟩, -- DMA_TAKEN
  ⟨0x81C, 16, 0x40, 0x0, 0x0, 0x0, 0x0, 0xFFFFFFFF, 0x0, 0x0⟩, -- DMA_DONE
  ⟨0x820, 16, 0x40, 0x0, 0x0, 0x0, 0x0, 0xFFFFFFFF, 0x0, 0x0⟩, -- DMA_FAIL
  ⟨0xC00, 1, 0x4, 0x0, 0x0, 0x0, 0x0, 0x0, 0xF, 0x0⟩] -- DMA_LATCH

def regsPrz0 : List RegRow := [
  ⟨0x040, 1, 0x4, 0x0, 0x1, 0x0, 0x0, 0x1, 0x0, 0x0⟩, -- PRZ_CFG
  ⟨0x044, 1, 0x4, 0x0, 0x3FFFFFFF, 0x0, 0x0, 0x3FFFFFFF, 0x0, 0x0⟩, -- PRZ_BG
  ⟨0x048, 1, 0x4, 0x0, 0x7F7F, 0x0, 0x0, 0x7F7F, 0x0, 0x0⟩, -- PRZ_COND
  ⟨0x04C, 1, 0x4, 0x0, 0xFFFF0003, 0x0, 0x0, 0xFFFF0003, 0x0, 0x0⟩, -- PRZ_WBCFG
  ⟨0x050, 1, 0x4, 0x0, 0xFFFFFFF0, 0x0, 0x0, 0xFFFFFFF0, 0x0, 0x0⟩, -- PRZ_WB_LO
  ⟨0x054, 1, 0x4, 0x0, 0xFF, 0x0, 0x0, 0xFF, 0x0, 0x0⟩, -- PRZ_WB_HI
  ⟨0x100, 7, 0x40, 0x0, 0xFF1FF7, 0x0, 0x0, 0xFF1FF7, 0x0, 0x0⟩, -- PRZ_LCFG
  ⟨0x104, 7, 0x40, 0x0, 0xFFFFFFF0, 0x0, 0x0, 0xFFFFFFF0, 0x0, 0x0⟩, -- PRZ_LBASE_LO
  ⟨0x108, 7, 0x40, 0x0, 0xFF, 0x0, 0x0, 0xFF, 0x0, 0x0⟩, -- PRZ_LBASE_HI
  ⟨0x10C, 7, 0x40, 0x0, 0xFFFF, 0x0, 0x0, 0xFFFF, 0x0, 0x0⟩, -- PRZ_LPITCH
  ⟨0x110, 7, 0x40, 0x0, 0x1FFF1FFF, 0x0, 0x0, 0x1FFF1FFF, 0x0, 0x0⟩, -- PRZ_LSIZE
  ⟨0x114, 7, 0x40, 0x0, 0x7FF07FF, 0x0, 0x0, 0x7FF07FF, 0x0, 0x0⟩, -- PRZ_LPOS
  ⟨0x118, 7, 0x40, 0x0, 0xFFF0FFF, 0x0, 0x0, 0xFFF0FFF, 0x0, 0x0⟩, -- PRZ_LDST
  ⟨0x11C, 7, 0x40, 0x0, 0x3FFFFFFF, 0x0, 0x0, 0x3FFFFFFF, 0x0, 0x0⟩, -- PRZ_LKEYLO
  ⟨0x120, 7, 0x40, 0x0, 0x3FFFFFFF, 0x0, 0x0, 0x3FFFFFFF, 0x0, 0x0⟩, -- PRZ_LKEYHI
  ⟨0x124, 7, 0x40, 0x0, 0x1F77FFFF, 0x0, 0x0, 0x1F77FFFF, 0x0, 0x0⟩, -- PRZ_LLIVE
  ⟨0x128, 7, 0x40, 0x0, 0xFFFFFFFF, 0x0, 0x0, 0xFFFFFFFF, 0x0, 0x0⟩, -- PRZ_LGEN
  ⟨0x12C, 7, 0x40, 0x0, 0x3FF, 0x0, 0x0, 0x3FF, 0x0, 0x0⟩, -- PRZ_LLUTOFF
  ⟨0x800, 1, 0x4, 0x0, 0x0, 0x0, 0x0, 0x3FF, 0x0, 0x0⟩, -- PRZ_STAT
  ⟨0x804, 1, 0x4, 0x0, 0x0, 0x0, 0x0, 0x0, 0x1, 0x0⟩] -- PRZ_REFLAT

def regsPrz1 : List RegRow := [
  ⟨0x808, 1, 0x4, 0x11FFF, 0x0, 0x0, 0x0, 0x11FFF, 0x0, 0x0⟩, -- PRZ_PLW_IDX
  ⟨0x80C, 1, 0x4, 0xBFFFFFFF, 0x0, 0x0, 0x0, 0xBFFFFFFF, 0x0, 0x0⟩, -- PRZ_PLW_DATA
  ⟨0x810, 1, 0x4, 0x10FFF, 0x0, 0x0, 0x0, 0x10FFF, 0x0, 0x0⟩, -- PRZ_QLW_IDX
  ⟨0x814, 1, 0x4, 0xFF, 0x0, 0x0, 0x0, 0xFF, 0x0, 0x0⟩, -- PRZ_QLW_DATA
  ⟨0x818, 1, 0x4, 0x0, 0x0, 0x0, 0x0, 0xFFFFFFFF, 0x0, 0x0⟩, -- PRZ_WBTB_LO
  ⟨0x81C, 1, 0x4, 0x0, 0x0, 0x0, 0x0, 0xFFFFFFFF, 0x0, 0x0⟩, -- PRZ_WBTB_HI
  ⟨0x820, 1, 0x4, 0x0, 0x0, 0x0, 0xFFFFFFFF, 0xFFFFFFFF, 0x0, 0x0⟩, -- PRZ_CNT
  ⟨0x824, 1, 0x4, 0x0, 0x0, 0x0, 0xFFFFFFFF, 0xFFFFFFFF, 0x0, 0x0⟩] -- PRZ_CNT2

def regsPrz : List RegRow := regsPrz0 ++ regsPrz1

def regsPrzp : List RegRow := [
  ⟨0x100, 2, 0x40, 0x0, 0xFF1F77, 0x0, 0x0, 0xFF1F77, 0x0, 0x0⟩, -- PRZ_LCFG
  ⟨0x104, 2, 0x40, 0x0, 0xFFFFFFF0, 0x0, 0x0, 0xFFFFFFF0, 0x0, 0x0⟩, -- PRZ_LBASE_LO
  ⟨0x108, 2, 0x40, 0x0, 0xFF, 0x0, 0x0, 0xFF, 0x0, 0x0⟩, -- PRZ_LBASE_HI
  ⟨0x10C, 2, 0x40, 0x0, 0xFFFF, 0x0, 0x0, 0xFFFF, 0x0, 0x0⟩, -- PRZ_LPITCH
  ⟨0x110, 2, 0x40, 0x0, 0x1FFF1FFF, 0x0, 0x0, 0x1FFF1FFF, 0x0, 0x0⟩, -- PRZ_LSIZE
  ⟨0x114, 2, 0x40, 0x0, 0x7FF07FF, 0x0, 0x0, 0x7FF07FF, 0x0, 0x0⟩, -- PRZ_LPOS
  ⟨0x118, 2, 0x40, 0x0, 0xFFF0FFF, 0x0, 0x0, 0xFFF0FFF, 0x0, 0x0⟩, -- PRZ_LDST
  ⟨0x11C, 2, 0x40, 0x0, 0x3FFFFFFF, 0x0, 0x0, 0x3FFFFFFF, 0x0, 0x0⟩, -- PRZ_LKEYLO
  ⟨0x120, 2, 0x40, 0x0, 0x3FFFFFFF, 0x0, 0x0, 0x3FFFFFFF, 0x0, 0x0⟩, -- PRZ_LKEYHI
  ⟨0x124, 2, 0x40, 0x0, 0x1F77FFFF, 0x0, 0x0, 0x1F77FFFF, 0x0, 0x0⟩, -- PRZ_LLIVE
  ⟨0x128, 2, 0x40, 0x0, 0xFFFFFFFF, 0x0, 0x0, 0xFFFFFFFF, 0x0, 0x0⟩, -- PRZ_LGEN
  ⟨0x12C, 2, 0x40, 0x0, 0x3FF, 0x0, 0x0, 0x3FF, 0x0, 0x0⟩, -- PRZ_LLUTOFF
  ⟨0x808, 1, 0x4, 0x11FFF, 0x0, 0x0, 0x0, 0x11FFF, 0x0, 0x0⟩, -- PRZ_PLW_IDX
  ⟨0x80C, 1, 0x4, 0xBFFFFFFF, 0x0, 0x0, 0x0, 0xBFFFFFFF, 0x0, 0x0⟩, -- PRZ_PLW_DATA
  ⟨0x080, 1, 0x4, 0x0, 0xFFFF, 0x0, 0x0, 0xFFFF, 0x0, 0x0⟩, -- PRZ_L7RANGE
  ⟨0x084, 2, 0x4, 0x0, 0xFFFF, 0x0, 0x0, 0xFFFF, 0x0, 0x1F4⟩, -- PRZ_MAXAGE
  ⟨0x08C, 2, 0x4, 0x0, 0x3FFFFFFF, 0x0, 0x0, 0x3FFFFFFF, 0x0, 0x3FF00000⟩, -- PRZ_STALECOL
  ⟨0x094, 1, 0x4, 0x0, 0x1, 0x0, 0x0, 0x1, 0x0, 0x1⟩, -- PRZ_L7CTL
  ⟨0x840, 1, 0x4, 0x0, 0x0, 0x0, 0x0, 0x0, 0x3, 0x0⟩, -- PRZ_L7REFRESH
  ⟨0x844, 2, 0x4, 0x0, 0x0, 0x0, 0x0, 0xFFFF, 0x0, 0x0⟩] -- PRZ_L7AGE

def regsDhd : List RegRow := [
  ⟨0x040, 1, 0x4, 0x0, 0x7FFF, 0x0, 0x0, 0x7FFF, 0x0, 0xC02⟩, -- DHD_CFG
  ⟨0x044, 1, 0x4, 0x0, 0xFF, 0x0, 0x0, 0xFF, 0x0, 0x96⟩, -- DHD_DSIRATE
  ⟨0x048, 1, 0x4, 0x0, 0xFFFFFFF0, 0x0, 0x0, 0xFFFFFFF0, 0x0, 0x0⟩, -- DHD_COMPAT_LO
  ⟨0x04C, 1, 0x4, 0x0, 0xFF, 0x0, 0x0, 0xFF, 0x0, 0x0⟩, -- DHD_COMPAT_HI
  ⟨0x050, 1, 0x4, 0x0, 0x1FFFF, 0x0, 0x0, 0x1FFFF, 0x0, 0x0⟩, -- DHD_CPITCH
  ⟨0x054, 1, 0x4, 0x0, 0x1, 0x0, 0x0, 0x1, 0x0, 0x0⟩, -- DHD_TE
  ⟨0x800, 1, 0x4, 0x0, 0x0, 0x0, 0x0, 0x7FF0007, 0x0, 0x0⟩, -- DHD_STAT
  ⟨0x804, 1, 0x4, 0x0, 0x0, 0x0, 0x0, 0xFFFFFFFF, 0x0, 0x0⟩, -- DHD_FCNT
  ⟨0x808, 1, 0x4, 0x0, 0x0, 0x0, 0x0, 0xFFFFFFFF, 0x0, 0x0⟩, -- DHD_FLIPTB_LO
  ⟨0x80C, 1, 0x4, 0x0, 0x0, 0x0, 0x0, 0xFFFFFFFF, 0x0, 0x0⟩, -- DHD_FLIPTB_HI
  ⟨0x810, 1, 0x4, 0x0, 0x0, 0x0, 0x0, 0xFFFFFF, 0x0, 0x0⟩, -- DHD_LAT
  ⟨0x814, 1, 0x4, 0x0, 0x0, 0x0, 0xFFFF, 0xFFFF, 0x0, 0x0⟩, -- DHD_UNDER
  ⟨0x818, 1, 0x4, 0x0, 0x0, 0x0, 0xFFFFFFFF, 0xFFFFFFFF, 0x0, 0x0⟩, -- DHD_TECNT
  ⟨0x840, 1, 0x4, 0x0, 0x0, 0x0, 0x0, 0x0, 0xFFFFFFFF, 0x0⟩, -- DHD_DCMD
  ⟨0x844, 1, 0x4, 0x0, 0x0, 0x300, 0x0, 0x37F, 0x0, 0x40⟩, -- DHD_DCLV
  ⟨0x848, 4, 0x4, 0x0, 0x0, 0x0, 0x0, 0xFFFFFFFF, 0x0, 0x0⟩] -- DHD_DRSP

def regsBlt : List RegRow := [
  ⟨0x800, 1, 0x4, 0x770, 0x0, 0x0, 0x0, 0x770, 0x3, 0x0⟩, -- BLT_CMD
  ⟨0x804, 1, 0x4, 0x0, 0x0, 0x0, 0x0, 0xF01, 0x0, 0x0⟩, -- BLT_STAT
  ⟨0x808, 1, 0x4, 0xFFFFFFFF, 0x0, 0x0, 0x0, 0xFFFFFFFF, 0x0, 0x0⟩, -- BLT_DST_LO
  ⟨0x80C, 1, 0x4, 0xFF, 0x0, 0x0, 0x0, 0xFF, 0x0, 0x0⟩, -- BLT_DST_HI
  ⟨0x810, 1, 0x4, 0xFFFF0007, 0x0, 0x0, 0x0, 0xFFFF0007, 0x0, 0x0⟩, -- BLT_DFMT
  ⟨0x814, 1, 0x4, 0xFFFFFFFF, 0x0, 0x0, 0x0, 0xFFFFFFFF, 0x0, 0x0⟩, -- BLT_SRC_LO
  ⟨0x818, 1, 0x4, 0xFF, 0x0, 0x0, 0x0, 0xFF, 0x0, 0x0⟩, -- BLT_SRC_HI
  ⟨0x81C, 1, 0x4, 0xFFFF0007, 0x0, 0x0, 0x0, 0xFFFF0007, 0x0, 0x0⟩, -- BLT_SFMT
  ⟨0x820, 1, 0x4, 0x1FFF1FFF, 0x0, 0x0, 0x0, 0x1FFF1FFF, 0x0, 0x0⟩, -- BLT_DXY
  ⟨0x824, 1, 0x4, 0x1FFF1FFF, 0x0, 0x0, 0x0, 0x1FFF1FFF, 0x0, 0x0⟩, -- BLT_SXY
  ⟨0x828, 1, 0x4, 0x1FFF1FFF, 0x0, 0x0, 0x0, 0x1FFF1FFF, 0x0, 0x0⟩, -- BLT_SIZE
  ⟨0x82C, 1, 0x4, 0x1FFF1FFF, 0x0, 0x0, 0x0, 0x1FFF1FFF, 0x0, 0x0⟩, -- BLT_LEND
  ⟨0x830, 1, 0x4, 0x1FFF1FFF, 0x0, 0x0, 0x0, 0x1FFF1FFF, 0x0, 0x0⟩, -- BLT_CLIP0
  ⟨0x834, 1, 0x4, 0x1FFF1FFF, 0x0, 0x0, 0x0, 0x1FFF1FFF, 0x0, 0x1FFF1FFF⟩, -- BLT_CLIP1
  ⟨0x838, 1, 0x4, 0xFFFFFFFF, 0x0, 0x0, 0x0, 0xFFFFFFFF, 0x0, 0x0⟩, -- BLT_FG
  ⟨0x83C, 1, 0x4, 0xFFFFFFFF, 0x0, 0x0, 0x0, 0xFFFFFFFF, 0x0, 0x0⟩, -- BLT_BG
  ⟨0x840, 1, 0x4, 0xFFFF, 0x0, 0x0, 0x0, 0xFFFF, 0x0, 0x1FF⟩, -- BLT_ALPHA
  ⟨0x844, 1, 0x4, 0x0, 0x0, 0x0, 0xFFFFFFFF, 0xFFFFFFFF, 0x0, 0x0⟩, -- BLT_CNT
  ⟨0x848, 1, 0x4, 0x0, 0x0, 0x0, 0x0, 0x7FFFFFF, 0x0, 0x0⟩] -- BLT_PIX

def regsAud0 : List RegRow := [
  ⟨0x040, 1, 0x4, 0x0, 0xFFFF000F, 0x0, 0x0, 0xFFFF000F, 0x0, 0x1E00008⟩, -- AUD_CFG
  ⟨0x044, 4, 0x4, 0x0, 0xF, 0x0, 0x0, 0xF, 0x0, 0x0⟩, -- AUD_PCFG
  ⟨0x054, 1, 0x4, 0x0, 0xF, 0x0, 0x0, 0xF, 0x0, 0x0⟩, -- AUD_PDM
  ⟨0x058, 1, 0x4, 0x0, 0xFFFF03FF, 0x0, 0x0, 0xFFFF03FF, 0x0, 0x0⟩, -- AUD_STETH
  ⟨0x05C, 1, 0x4, 0x0, 0xFFF, 0x0, 0x0, 0xFFF, 0x0, 0x0⟩, -- AUD_MCFG
  ⟨0x100, 52, 0x4, 0x0, 0xFFFF, 0x0, 0x0, 0xFFFF, 0x0, 0x4000⟩, -- AUD_SGAIN
  ⟨0x200, 32, 0x20, 0x0, 0x1FFFF, 0x0, 0x0, 0x1FFFF, 0x0, 0x0⟩, -- AUD_VSTART
  ⟨0x204, 32, 0x20, 0x0, 0x1FFFF, 0x0, 0x0, 0x1FFFF, 0x0, 0x0⟩, -- AUD_VLOOP
  ⟨0x208, 32, 0x20, 0x0, 0x1FFFF, 0x0, 0x0, 0x1FFFF, 0x0, 0x0⟩, -- AUD_VENDX
  ⟨0x20C, 32, 0x20, 0x0, 0xFFFFFF, 0x0, 0x0, 0xFFFFFF, 0x0, 0x10000⟩, -- AUD_VPITCH
  ⟨0x210, 32, 0x20, 0x0, 0x1, 0x0, 0x0, 0x1, 0x0, 0x0⟩, -- AUD_VMODE
  ⟨0x600, 16, 0x10, 0x0, 0xFFFFFFFF, 0x0, 0x0, 0xFFFFFFFF, 0x0, 0x0⟩, -- AUD_BUS_LO
  ⟨0x604, 16, 0x10, 0x0, 0xFFFFF, 0x0, 0x0, 0xFFFFF, 0x0, 0x0⟩, -- AUD_BUS_HI
  ⟨0x608, 16, 0x10, 0x0, 0x3FFFF, 0x0, 0x0, 0x3FFFF, 0x0, 0x4000⟩, -- AUD_BUS_CTL
  ⟨0x800, 1, 0x4, 0x0, 0x0, 0x0, 0x0, 0x0, 0xFFFFFFFF, 0x0⟩, -- AUD_KEYON
  ⟨0x804, 1, 0x4, 0x0, 0x0, 0x0, 0x0, 0x0, 0xFFFFFFFF, 0x0⟩, -- AUD_KEYOFF
  ⟨0x808, 1, 0x4, 0x0, 0x0, 0x0, 0x0, 0xFFFFFFFF, 0x0, 0x0⟩, -- AUD_VACT
  ⟨0x80C, 1, 0x4, 0x0, 0x0, 0xFFFFFFFF, 0x0, 0xFFFFFFFF, 0x0, 0x0⟩, -- AUD_VEND
  ⟨0x810, 1, 0x4, 0x1FFFF, 0x0, 0x0, 0x0, 0x1FFFF, 0x0, 0x0⟩, -- AUD_WTW_IDX
  ⟨0x814, 1, 0x4, 0xFFFFFFFF, 0x0, 0x0, 0x0, 0xFFFFFFFF, 0x0, 0x0⟩] -- AUD_WTW_DATA

def regsAud1 : List RegRow := [
  ⟨0x818, 1, 0x4, 0xFF, 0x0, 0x0, 0x0, 0xFF, 0x0, 0x0⟩, -- AUD_MBW_IDX
  ⟨0x81C, 1, 0x4, 0xFFFFFF, 0x0, 0x0, 0x0, 0xFFFFFF, 0x0, 0x0⟩, -- AUD_MBW_DATA
  ⟨0x820, 1, 0x4, 0x0, 0x0, 0x0, 0x0, 0xFFFFFFFF, 0x0, 0x0⟩, -- AUD_MSEQ
  ⟨0x824, 1, 0x4, 0x0, 0x0, 0xFFFF, 0x0, 0xFFFF, 0x0, 0x0⟩, -- AUD_CLIP
  ⟨0x830, 4, 0x4, 0x0, 0x0, 0x0, 0x0, 0x3F, 0x0, 0x0⟩, -- AUD_PSTAT
  ⟨0x840, 1, 0x4, 0x0, 0x0, 0x0, 0x0, 0x0, 0x3, 0x0⟩, -- AUD_PLATCH
  ⟨0x844, 1, 0x4, 0x0, 0x0, 0x0, 0x0, 0xFFFFFFFF, 0x0, 0x0⟩, -- AUD_PRX
  ⟨0x848, 1, 0x4, 0x0, 0x0, 0x0, 0x0, 0xFFFFFFFF, 0x0, 0x0⟩, -- AUD_PTAKEN
  ⟨0x84C, 1, 0x4, 0x0, 0x0, 0x0, 0x0, 0xFFFFFFFF, 0x0, 0x0⟩, -- AUD_PDROP
  ⟨0x850, 1, 0x4, 0x0, 0x0, 0x0, 0x0, 0xFFFFFFFF, 0x0, 0x0⟩, -- AUD_PINSERT
  ⟨0x900, 32, 0x8, 0x0, 0x0, 0x0, 0x0, 0xFFFFFF, 0x0, 0x0⟩, -- AUD_MRMS
  ⟨0x904, 32, 0x8, 0x0, 0x0, 0x0, 0x0, 0xFFFFFF, 0x0, 0x0⟩] -- AUD_MPEAK

def regsAud : List RegRow := regsAud0 ++ regsAud1

def regsHif : List RegRow := [
  ⟨0x800, 1, 0x4, 0x33FFF, 0x0, 0x0, 0x0, 0x33FFF, 0x0, 0x0⟩, -- HIF_WIN
  ⟨0x804, 1, 0x4, 0xFFFFFFFF, 0x0, 0x0, 0x0, 0xFFFFFFFF, 0x0, 0x0⟩, -- HIF_OBASE_LO
  ⟨0x808, 1, 0x4, 0xFFFFFFFF, 0x0, 0x0, 0x0, 0xFFFFFFFF, 0x0, 0x0⟩, -- HIF_OBASE_HI
  ⟨0x80C, 1, 0x4, 0x0, 0x0, 0x0, 0x0, 0xF71, 0x0, 0x0⟩, -- HIF_STAT
  ⟨0x810, 1, 0x4, 0x0, 0x0, 0x0, 0xFFFFFFFF, 0xFFFFFFFF, 0x0, 0x0⟩, -- HIF_ERR
  ⟨0xBF0, 2, 0x4, 0x0, 0x0, 0x0, 0x0, 0xFFFFFFFF, 0x0, 0x0⟩, -- MSIX_PBA
  ⟨0xC00, 64, 0x10, 0xFFFFFFFF, 0x0, 0x0, 0x0, 0xFFFFFFFF, 0x0, 0x0⟩, -- MSIX_ADDR_LO
  ⟨0xC04, 64, 0x10, 0xFFFFFFFF, 0x0, 0x0, 0x0, 0xFFFFFFFF, 0x0, 0x0⟩, -- MSIX_ADDR_HI
  ⟨0xC08, 64, 0x10, 0xFFFFFFFF, 0x0, 0x0, 0x0, 0xFFFFFFFF, 0x0, 0x0⟩, -- MSIX_DATA
  ⟨0xC0C, 64, 0x10, 0x1, 0x0, 0x0, 0x0, 0x1, 0x0, 0x1⟩] -- MSIX_CTRL

def regsEvc : List RegRow := [
  ⟨0x800, 1, 0x4, 0x101FF, 0x0, 0x0, 0x0, 0x101FF, 0x0, 0x0⟩, -- EVC_TW_IDX
  ⟨0x804, 1, 0x4, 0xFFFFFFFF, 0x0, 0x0, 0x0, 0xFFFFFFFF, 0x0, 0x0⟩, -- EVC_TW_DATA
  ⟨0x808, 1, 0x4, 0x0, 0x0, 0x0, 0x0, 0x0, 0x3F, 0x0⟩, -- EVC_EOI
  ⟨0x840, 64, 0x4, 0x3FF, 0x0, 0x0, 0x0, 0x3FF, 0x0, 0x0⟩, -- EVC_VMOD
  ⟨0x940, 16, 0x4, 0x0, 0x0, 0x0, 0x0, 0xFFFFFFFF, 0x0, 0x0⟩, -- EVC_ASSERT
  ⟨0x980, 1, 0x4, 0x0, 0x0, 0x0, 0x0, 0xFFFFFFFF, 0x0, 0x0⟩, -- EVC_INSVC_LO
  ⟨0x984, 1, 0x4, 0x0, 0x0, 0x0, 0x0, 0xFFFFFFFF, 0x0, 0x0⟩, -- EVC_INSVC_HI
  ⟨0x988, 1, 0x4, 0x0, 0x0, 0x0, 0x17FFFFFF, 0x17FFFFFF, 0x0, 0x0⟩, -- EVC_DVLOG
  ⟨0x98C, 1, 0x4, 0x0, 0x0, 0x0, 0xFFFF, 0xFFFF, 0x0, 0x0⟩] -- EVC_DVCNT

def regsTmr : List RegRow := [
  ⟨0x040, 1, 0x4, 0x0, 0x333FF37, 0x0, 0x0, 0x333FF37, 0x0, 0x10010⟩, -- TMR_CFG
  ⟨0x044, 1, 0x4, 0x0, 0xFFFFFFFF, 0x0, 0x0, 0xFFFFFFFF, 0x0, 0x10000⟩, -- TMR_DIV
  ⟨0x048, 1, 0x4, 0x0, 0xFFFFFFFF, 0x0, 0x0, 0xFFFFFFFF, 0x0, 0xFFFFFFFF⟩, -- TMR_PERIOD
  ⟨0x04C, 1, 0x4, 0x0, 0xFFFFFFFF, 0x0, 0x0, 0xFFFFFFFF, 0x0, 0x0⟩, -- TMR_CMP
  ⟨0x050, 1, 0x4, 0x0, 0xFFFFFFFF, 0x0, 0x0, 0xFFFFFFFF, 0x0, 0x0⟩, -- TMR_INTERVAL
  ⟨0x800, 1, 0x4, 0x1, 0x0, 0x0, 0x0, 0x1, 0x6, 0x0⟩, -- TMR_CTL
  ⟨0x804, 1, 0x4, 0x0, 0x0, 0x0, 0x0, 0xFFFFFFFF, 0x0, 0x0⟩, -- TMR_COUNT
  ⟨0x808, 1, 0x4, 0x0, 0x0, 0x0, 0x0, 0xFFFFFFFF, 0x0, 0x0⟩, -- TMR_TICKS
  ⟨0x80C, 1, 0x4, 0x0, 0x0, 0x0, 0x0, 0xFFFFFFFF, 0x0, 0x0⟩, -- TMR_NEXT
  ⟨0x810, 1, 0x4, 0x0, 0x0, 0x0, 0xFFFFFFFF, 0xFFFFFFFF, 0x0, 0x0⟩, -- TMR_CAP
  ⟨0x814, 1, 0x4, 0x0, 0x0, 0x0, 0x0, 0x7, 0x0, 0x0⟩, -- TMR_CAPST
  ⟨0x818, 1, 0x4, 0x0, 0x0, 0x0, 0xFFFFFFFF, 0xFFFFFFFF, 0x0, 0x0⟩, -- TMR_CNT
  ⟨0x81C, 1, 0x4, 0x0, 0x0, 0x1, 0x0, 0x1, 0x0, 0x0⟩] -- TMR_FLAGS

def regsGpx0 : List RegRow := [
  ⟨0x040, 8, 0x4, 0x0, 0x1, 0x0, 0x0, 0x1, 0x0, 0x0⟩, -- GPX_BANK
  ⟨0x080, 8, 0x10, 0x0, 0xFFFFFFFF, 0x0, 0x0, 0xFFFFFFFF, 0x0, 0x0⟩, -- GPX_PM_SEL0
  ⟨0x084, 8, 0x10, 0x0, 0xFFFFFFFF, 0x0, 0x0, 0xFFFFFFFF, 0x0, 0x0⟩, -- GPX_PM_SEL1
  ⟨0x088, 8, 0x10, 0x0, 0xFFFF0F37, 0x0, 0x0, 0xFFFF0F37, 0x0, 0x0⟩, -- GPX_PM_CFG
  ⟨0x800, 1, 0x4, 0x0, 0x0, 0x0, 0x0, 0xFF, 0x0, 0x0⟩, -- GPX_BSTAT
  ⟨0x804, 1, 0x4, 0x0, 0x0, 0x0, 0x0, 0xFF, 0x0, 0x0⟩, -- GPX_PMST
  ⟨0x808, 1, 0x4, 0x0, 0x0, 0x0, 0x80FF03FF, 0x80FF03FF, 0x0, 0x0⟩, -- GPX_CONFLICT
  ⟨0x80C, 1, 0x4, 0x0, 0x0, 0x0, 0xFFFF, 0xFFFF, 0x0, 0x0⟩, -- GPX_CONFCNT
  ⟨0x820, 8, 0x4, 0x0, 0x0, 0x0, 0x0, 0xFFFFFFFF, 0x0, 0x0⟩, -- GPX_IN
  ⟨0x840, 8, 0x4, 0x0, 0x0, 0x0, 0xFFFFFFFF, 0xFFFFFFFF, 0x0, 0x0⟩] -- GPX_PMCNT

def regsGpxa : List RegRow := [
  ⟨0x100, 64, 0x4, 0x0, 0x1FF, 0x0, 0x0, 0x1FF, 0x0, 0x20⟩] -- GPX_PAD

def regsGpxf : List RegRow := [
  ⟨0x100, 128, 0x4, 0x0, 0x3FF, 0x0, 0x0, 0x3FF, 0x0, 0x0⟩] -- GPX_FSEL

def regsCfg : List RegRow := [
  ⟨0x800, 1, 0x4, 0x0, 0x0, 0x0, 0x0, 0x1, 0x0, 0x0⟩, -- CFG_DEFAULTED
  ⟨0x804, 1, 0x4, 0x0, 0x0, 0x0, 0x0, 0xFF03, 0x0, 0x0⟩, -- CFG_BOOTST
  ⟨0x808, 1, 0x4, 0x0, 0x0, 0x0, 0x0, 0x3F, 0x0, 0x3F⟩, -- CFG_USE
  ⟨0x80C, 1, 0x4, 0x0, 0x0, 0x0, 0x0, 0xFFFFFFFF, 0x0, 0x0⟩, -- CFG_SEQ0
  ⟨0x810, 1, 0x4, 0x0, 0x0, 0x0, 0x0, 0xFFFFFFFF, 0x0, 0x0⟩, -- CFG_SEQ1
  ⟨0x814, 1, 0x4, 0x8FFFFFFF, 0x0, 0x0, 0x0, 0x8FFFFFFF, 0x0, 0x0⟩, -- CFG_FLADDR
  ⟨0x818, 1, 0x4, 0x0, 0x0, 0x0, 0x0, 0x0, 0x3, 0x0⟩, -- CFG_FLCMD
  ⟨0x81C, 1, 0x4, 0x0, 0x0, 0x0, 0x0, 0xF1, 0x0, 0x0⟩, -- CFG_FLSTAT
  ⟨0x900, 64, 0x4, 0xFFFFFFFF, 0x0, 0x0, 0x0, 0xFFFFFFFF, 0x0, 0x0⟩] -- CFG_FLBUF

def regsSec : List RegRow := [
  ⟨0x800, 1, 0x4, 0x0, 0x0, 0x0, 0x0, 0x31F, 0x0, 0x0⟩, -- SEC_OTPST
  ⟨0x804, 1, 0x4, 0x0, 0x0, 0x0, 0x0, 0xFFFFFFFF, 0x0, 0x0⟩, -- SEC_SERIAL_LO
  ⟨0x808, 1, 0x4, 0x0, 0x0, 0x0, 0x0, 0xFFFFFFFF, 0x0, 0x0⟩, -- SEC_SERIAL_HI
  ⟨0x80C, 1, 0x4, 0x0, 0x0, 0x0, 0x0, 0x0, 0x33, 0x0⟩, -- SEC_OTPCMD
  ⟨0x810, 1, 0x4, 0x0, 0x0, 0x0, 0x0, 0x0, 0x1, 0x0⟩, -- SEC_ATCMD
  ⟨0x814, 1, 0x4, 0x0, 0x0, 0x0, 0x0, 0xF3, 0x0, 0x0⟩, -- SEC_STAT
  ⟨0x880, 36, 0x4, 0x0, 0x0, 0x0, 0x0, 0xFFFFFFFF, 0x0, 0x0⟩, -- SEC_KHASH
  ⟨0x920, 12, 0x4, 0xFFFFFFFF, 0x0, 0x0, 0x0, 0xFFFFFFFF, 0x0, 0x0⟩, -- SEC_NONCE
  ⟨0x960, 12, 0x4, 0xFFFFFFFF, 0x0, 0x0, 0x0, 0xFFFFFFFF, 0x0, 0x0⟩, -- SEC_OTPBUF
  ⟨0xA00, 96, 0x4, 0x0, 0x0, 0x0, 0x0, 0xFFFFFFFF, 0x0, 0x0⟩, -- SEC_REPORT
  ⟨0xC00, 256, 0x4, 0x0, 0x0, 0x0, 0x0, 0xFFFFFFFF, 0x0, 0x0⟩] -- SEC_CERT

def regsPwr : List RegRow := [
  ⟨0x040, 1, 0x4, 0x0, 0xFFF, 0x0, 0x0, 0xFFF, 0x0, 0x444⟩, -- PWR_WARN
  ⟨0x044, 1, 0x4, 0x0, 0xFFF, 0x0, 0x0, 0xFFF, 0x0, 0x564⟩, -- PWR_THROT
  ⟨0x800, 1, 0x4, 0x0, 0x0, 0x0, 0x0, 0x7F, 0x0, 0x0⟩, -- PWR_STAT
  ⟨0x804, 4, 0x4, 0x0, 0x0, 0x0, 0x0, 0xFFF, 0x0, 0x0⟩, -- PWR_VMON
  ⟨0x814, 4, 0x4, 0x0, 0x0, 0x0, 0x0, 0xFF, 0x0, 0x0⟩, -- PWR_TEMP
  ⟨0x840, 1, 0x4, 0x0, 0x0, 0x0, 0x0, 0x0, 0xFFFF00FF, 0x0⟩, -- PWR_REQ
  ⟨0x844, 1, 0x4, 0x0, 0x0, 0x0, 0x0, 0x0, 0x7, 0x0⟩, -- PWR_CLR
  ⟨0x848, 1, 0x4, 0x0, 0x0, 0x0, 0xFFFFFFFF, 0xFFFFFFFF, 0x0, 0x0⟩, -- PWR_CNT
  ⟨0x84C, 1, 0x4, 0x0, 0x0, 0x0, 0x0, 0xFFF, 0x0, 0x0⟩] -- PWR_LASTRST

end Sys2Proof.Machine
end

