-- ==== Sys2Proof/Machine/Pages.lean ====
section
/-!
DEFINITION. The page index of Table 25.4: which block instance stands at which page, who owns it, which boundaries its
commits accept, its PG_CAP, its event bits and its registers. A page is numbered by its region (0 Half A, 1 Half B,
2 service, 3 referee) times 4,096 plus its page index (R494).
-/
namespace Sys2Proof.Machine

/-- The block types of Table 25.4. -/
inductive Block where
  | ref | beam | row | hrn | aeq | rlk | seal | lpe | cxp | kxc | ucs | dma | mec | scb | nvh | hif | evc | tmr
  | prz | dhd | blt | aud | gpx | sec | cfg | pwr
deriving DecidableEq, Repr

/-- One row of Table 25.4 with what the block's chapter adds. `half` says whether the row stands in both halves; else
`region` names its region. `owner` is D0 to D4 (D1 stands for the half's production domain in a half). `bounds` holds the
boundary selects the page accepts, `noShadow` the code with which a page without shadowed registers refuses a commit,
`events` the bits PG_EVT_RAW has. -/
structure PageRow where
  block : Block
  half : Bool
  region : Nat
  first : Nat
  count : Nat
  base : Nat
  type : Nat
  owner : Nat
  bounds : List Nat
  noShadow : Option Nat
  cap : Nat
  events : Nat
  regs : List RegRow
deriving DecidableEq, Repr

/-- Half pages of Table 25.4 (R67, R96, R162, R200, R232, R269, R290, R322, R340, R355, R368, R439, R448). -/
def pageRowsHalf : List PageRow := [
  ⟨.beam, true, 0, 0, 1, 0x000, 0x10, 1, [0], none, 0x02004004, 0x07FFFFFF, regsBeam⟩,
  ⟨.row, true, 0, 0, 8, 0x001, 0x11, 1, [0, 1], none, 0x02000820, 0x001F3FFF, regsRow⟩,
  ⟨.hrn, true, 0, 0, 1, 0x009, 0x12, 1, [0, 1], none, 0x00080040, 0x1F, regsHrn⟩,
  ⟨.aeq, true, 0, 0, 1, 0x00A, 0x13, 1, [0], none, 0x00004008, 0x1F, regsAeq⟩,
  ⟨.seal, true, 0, 0, 1, 0x00B, 0x15, 1, [0], none, 0x00000400, 0x7F, regsSeal⟩,
  ⟨.lpe, true, 0, 0, 2, 0x00C, 0x16, 1, [0], none, 0x01044000, 0x1FF, regsLpe⟩,
  ⟨.cxp, true, 0, 0, 2, 0x00E, 0x17, 1, [0], none, 0x000000F6, 0x7F, regsCxp⟩,
  ⟨.rlk, true, 0, 0, 64, 0x010, 0x14, 1, [0], none, 0x00001080, 0xFFF, regsRlk⟩,
  ⟨.kxc, true, 0, 0, 20, 0x050, 0x20, 1, [], some 0xA0, 0x00404000, 0x3F, regsKxc⟩,
  ⟨.ucs, true, 0, 0, 1, 0x064, 0x21, 1, [], some 0xA8, 0x00101000, 0x3F, regsUcs⟩,
  ⟨.dma, true, 0, 0, 1, 0x065, 0x22, 1, [0], none, 0x00001010, 0xFFFFFFFF, regsDma⟩,
  ⟨.mec, true, 0, 0, 2, 0x066, 0x23, 1, [0], none, 0x00000C80, 0x3, regsMec⟩,
  ⟨.scb, true, 0, 0, 1, 0x068, 0x24, 1, [0], none, 0x00000010, 0x7F, regsScb⟩,
  ⟨.nvh, true, 0, 0, 1, 0x069, 0x25, 1, [0], none, 0x00400008, 0x3FF, regsNvh⟩,
  ⟨.hif, true, 0, 0, 1, 0x06A, 0x26, 1, [], some 0x28, 0x00000040, 0xF, regsHif⟩,
  ⟨.evc, true, 0, 0, 1, 0x06B, 0x27, 1, [], some 0x28, 0x00000200, 0x7, regsEvc⟩,
  ⟨.tmr, true, 0, 0, 16, 0x070, 0x28, 1, [0], none, 0x00040020, 0x7F, regsTmr⟩]

/-- Service and referee pages of Table 25.4 (R235, R290, R322, R368, R382, R397, R410, R424, R439, R448, R457, R472, R485). -/
def pageRowsOther : List PageRow := [
  ⟨.kxc, false, 2, 0, 7, 0x000, 0x20, 3, [], some 0xA0, 0x00404000, 0x3F, regsKxc⟩,
  ⟨.kxc, false, 2, 7, 1, 0x007, 0x20, 4, [], some 0xA0, 0x00404000, 0x3F, regsKxc⟩,
  ⟨.ucs, false, 2, 0, 1, 0x008, 0x21, 3, [], some 0xA8, 0x00100800, 0x3F, regsUcs⟩,
  ⟨.dma, false, 2, 0, 1, 0x009, 0x22, 3, [0], none, 0x00001008, 0x80FF00FF, regsDma⟩,
  ⟨.tmr, false, 2, 0, 16, 0x010, 0x28, 3, [0], none, 0x00040020, 0x7F, regsTmr⟩,
  ⟨.prz, false, 2, 0, 1, 0x020, 0x30, 3, [2], none, 0x00000408, 0xFF, regsPrz⟩,
  ⟨.prz, false, 2, 1, 1, 0x021, 0x30, 3, [3], none, 0x00000408, 0xFF, regsPrz⟩,
  ⟨.prz, false, 2, 2, 1, 0x022, 0x30, 4, [2, 3], none, 0x00000002, 0x82, regsPrzp⟩,
  ⟨.dhd, false, 2, 0, 1, 0x023, 0x32, 4, [2], none, 0x0000FF00, 0x7F, regsDhd⟩,
  ⟨.dhd, false, 2, 1, 1, 0x024, 0x32, 4, [3], none, 0x0000FF01, 0x7F, regsDhd⟩,
  ⟨.blt, false, 2, 0, 1, 0x025, 0x33, 3, [], some 0xF8, 0x2000007F, 0xF, regsBlt⟩,
  ⟨.aud, false, 2, 0, 1, 0x026, 0x34, 3, [4], none, 0x00342020, 0x7F, regsAud⟩,
  ⟨.gpx, false, 2, 0, 1, 0x027, 0x35, 3, [0], none, 0x02800100, 0xFF07, regsGpx0⟩,
  ⟨.gpx, false, 2, 1, 4, 0x028, 0x35, 3, [0], none, 0x02800100, 0x7, regsGpxa⟩,
  ⟨.gpx, false, 2, 5, 5, 0x02C, 0x35, 3, [0], none, 0x02800100, 0x7, regsGpxf⟩,
  ⟨.sec, false, 2, 0, 1, 0x031, 0x03, 3, [], some 0x19, 0x00000003, 0x7, regsSec⟩,
  ⟨.cfg, false, 2, 0, 1, 0x032, 0x02, 3, [], some 0x18, 0x00000002, 0x7, regsCfg⟩,
  ⟨.pwr, false, 2, 0, 1, 0x033, 0x36, 3, [0], none, 0x00000004, 0x7F, regsPwr⟩,
  ⟨.evc, false, 2, 0, 1, 0x034, 0x27, 3, [], some 0x28, 0x00000200, 0x7, regsEvc⟩,
  ⟨.ref, false, 3, 0, 1, 0x000, 0x01, 0, [], none, 0x00000000, 0x3FF, regsRef⟩]

/-- The row of Table 25.4 that places page `p`, with the instance number, or none where the page is reserved (R25). -/
def pageRowOf (p : Nat) : Option (PageRow × Nat) :=
  let reg := p / 4096
  let ix := p % 4096
  let rows := if reg < 2 then pageRowsHalf else pageRowsOther
  match rows.find? (fun r => (if r.half then reg < 2 else reg = r.region) && r.base ≤ ix && ix < r.base + r.count) with
  | some r => some (r, r.first + (ix - r.base))
  | none => none

/-- The page of block `b`, instance `i`, in region `reg`: the number of the page in Table 25.4 (0xFFFF where the region has
none, a page no row holds). -/
def pageOf (reg : Nat) (b : Block) (i : Nat) : Nat :=
  let rows := if reg < 2 then pageRowsHalf else pageRowsOther
  match rows.find? (fun r => (if r.half then reg < 2 else reg = r.region) && r.block == b && r.first ≤ i && i < r.first + r.count) with
  | some r => reg * 4096 + r.base + (i - r.first)
  | none => 0xFFFF

/-- Where a register's copy is kept: page times 2^20, plus 4,096 times (1 + context) for the registers of a ROW page that
every context has a copy of (R96), plus the byte offset in the page. -/
abbrev Loc := Nat

/-- The location base of a page. -/
def locOf (p : Nat) : Loc := p * 0x100000
/-- The location base of context `c`'s copies on ROW page `p`. -/
def ctxLocOf (p c : Nat) : Loc := p * 0x100000 + (c + 1) * 0x1000

/-- The register row that holds offset `off`. -/
def rowAt (rs : List RegRow) (off : Nat) : Option RegRow :=
  rs.find? (fun r => r.off ≤ off && (off - r.off) % r.stride = 0 && (off - r.off) / r.stride < r.cnt)

/-- The offsets of a ROW page that address the context selected by ROW_CSEL (R96). -/
def isCtxOff (off : Nat) : Bool := (0x100 ≤ off && off < 0x500) || (0x804 ≤ off && off < 0x854)

/-- The owner of a page: D1 or D2 by half for half pages (R494). -/
def PageRow.ownerIn (r : PageRow) (reg : Nat) : Nat := if r.half then reg + 1 else r.owner

/-- PG_LOCK at reset (R493): the owner and D5, the owner alone on pages owned by D0 or D4, and the writers that R472 and
R485 name for CFG, SEC and PWR. -/
def PageRow.lockReset (r : PageRow) (reg : Nat) : Nat :=
  let o := r.ownerIn reg
  let w := match r.block with
    | .cfg => 0b101110
    | .sec => 0b101110
    | .pwr => 0b101110
    | _ => if o = 0 ∨ o = 4 then 2 ^ o else 2 ^ o + 2 ^ 5
  o + w * 2 ^ 8

/-- The reset value of the header register at `off` (Table 25.1, Table 13.5). -/
def hdrReset (r : PageRow) (reg inst off : Nat) : Nat :=
  match off with
  | 0x000 => 0x01 + inst * 2 ^ 8 + r.type * 2 ^ 16
  | 0x004 => r.cap
  | 0x038 => r.lockReset reg
  | _ => match rowAt regsHdr off with | some x => x.reset | none => 0

/-- What every register reads as until something writes it: the reset values of the register tables. DHD_CFG.EN resets to 1
on head 0 and 0 on head 1 (Table 17.3). A register without a reset value of its own ("—", R13) starts at 0. -/
def regReset (key : Nat) : Word :=
  let p := key / 0x100000
  let bank := key % 0x100000 / 0x1000
  let off := key % 0x1000
  match pageRowOf p with
  | none => 0
  | some (r, inst) =>
    if bank = 0 ∧ off < 0x40 then BitVec.ofNat 32 (hdrReset r (p / 4096) inst off)
    else if bank = 0 then
      (match rowAt r.regs off with
       | some x => BitVec.ofNat 32 (if r.block = .dhd ∧ off = 0x040 ∧ inst = 0 then x.reset + 1 else x.reset)
       | none => 0)
    else (match rowAt regsRowc off with | some x => BitVec.ofNat 32 x.reset | none => 0)

/-- One field of a word, as a number. -/
def fget (f : Fld) (w : Word) : Nat := w.toNat / 2 ^ f.lo % 2 ^ f.w
/-- A word with one field replaced; bits of the value beyond the field are dropped. -/
def fput (f : Fld) (v : Nat) (w : Word) : Word :=
  BitVec.ofNat 32 (w.toNat - fget f w * 2 ^ f.lo + v % 2 ^ f.w * 2 ^ f.lo)
/-- The masked bits of `w` replaced by those of `v`. -/
def maskPut (mask : Nat) (v w : Word) : Word := (w &&& ~~~(BitVec.ofNat 32 mask)) ||| (v &&& BitVec.ofNat 32 mask)
/-- A number read as a signed number of `n` bits. -/
def sgn (n v : Nat) : Int := if v % 2 ^ n < 2 ^ (n - 1) then (v % 2 ^ n : Nat) else (v % 2 ^ n : Nat) - (2 ^ n : Nat)
/-- A signed number as `n` bits. -/
def usgn (n : Nat) (v : Int) : Nat := (v % (2 ^ n : Nat)).toNat
/-- Bit `i` of a number. -/
def bit (v i : Nat) : Bool := v / 2 ^ i % 2 = 1
/-- 1 or 0. -/
def b2n (b : Bool) : Nat := if b then 1 else 0

end Sys2Proof.Machine
end

