-- ==== Sys2Proof/Machine/SMap.lean ====
section
/-!
DEFINITION. Sparse maps in one canonical form: a list of key and value pairs with strictly rising keys in which no entry
equals what an unlisted key reads as. The register sets, memory, and every indexed bank of units are held this way, so
that equal contents are equal data.
-/
namespace Sys2Proof.Machine

/-- A sparse map from a number to a value. -/
abbrev SMap (α : Type) := List (Nat × α)

/-- The value under key `k`: the listed one, else what the rule `d` says an unlisted key reads as. -/
def SMap.get {α : Type} (d : Nat → α) : SMap α → Nat → α
  | [], k => d k
  | (j, v) :: m, k => if k = j then v else SMap.get d m k

/-- Insert or replace an entry, keeping the keys rising. -/
def SMap.put {α : Type} (k : Nat) (v : α) : SMap α → SMap α
  | [] => [(k, v)]
  | (j, u) :: m => if k < j then (k, v) :: (j, u) :: m else if k = j then (k, v) :: m else (j, u) :: SMap.put k v m

/-- Remove every entry of a key. -/
def SMap.del {α : Type} (k : Nat) : SMap α → SMap α
  | [] => []
  | (j, u) :: m => if k = j then SMap.del k m else (j, u) :: SMap.del k m

/-- Write a value. Writing what an unlisted key reads as removes the entry, so the canonical form is kept. -/
def SMap.set {α : Type} [DecidableEq α] (d : Nat → α) (m : SMap α) (k : Nat) (v : α) : SMap α :=
  if v = d k then SMap.del k m else SMap.put k v m

/-- Change the value of one key by a function. -/
def SMap.modify {α : Type} [DecidableEq α] (d : Nat → α) (m : SMap α) (k : Nat) (f : α → α) : SMap α :=
  SMap.set d m k (f (SMap.get d m k))

/-- Return every key that `p` selects to its unlisted value. -/
def SMap.erase {α : Type} (p : Nat → Bool) (m : SMap α) : SMap α := m.filter (fun e => !p e.1)

/-- The keys rise strictly from above `lo`, and no entry equals the unlisted value. -/
def SMap.wfFrom {α : Type} [DecidableEq α] (d : Nat → α) : Nat → SMap α → Bool
  | _, [] => true
  | lo, (j, v) :: m => decide (lo ≤ j) && decide (v ≠ d j) && SMap.wfFrom d (j + 1) m

/-- The canonical form of a sparse map. -/
def SMap.wf {α : Type} [DecidableEq α] (d : Nat → α) (m : SMap α) : Bool := SMap.wfFrom d 0 m

end Sys2Proof.Machine
end

