-- ==== Sys2Proof/Machine/Types.lean ====
section
/-!
DEFINITION. The records of the part's state that stand behind its registers: what each unit holds that no register shows
whole. Every record is plain data.
-/
namespace Sys2Proof.Machine

/-! ### Beam unit (chapter 02) -/

/-- The filter of one encoder line (R45): the level sampled now, how many cycles it has been sampled, and the level the
filter has accepted. -/
structure Line where
  raw : Bool := false
  run : Nat := 0
  acc : Bool := false
deriving DecidableEq, Repr

/-- The state codes of a beam (Table 02.1). -/
inductive BeamState where
  | off | seeking | synced | fault
deriving DecidableEq, Repr

/-- One beam in the sampling domain (R45–R65). Counts and positions are kept unwrapped: `u` is revolution × CPR + count,
`pos` is revolution × 2^32 + BA32 angle. `hist` holds the accepted edges in direction DIR since the estimates restarted,
newest first, as position and sampling-cycle time. `velK`, `accK` and `tc2` are the estimates of the last edge and twice
the centre of its velocity window (R52, R54); `velEdge` is the velocity at that edge; `vel` and `acc` are what the beam
reports now. `hold` is set while a slip against DIR freezes the angle (R49), `atLim` once the interpolation has stopped at its limit since
the last edge (R55); `lastEdge` is the cycle of the last accepted edge or of the enable. The fields beginning with b are the last
broadcast (R63). -/
structure Beam where
  lineA : Line := {}
  lineB : Line := {}
  lineZ : Line := {}
  now : Nat := 0
  state : BeamState := .off
  dir : Bool := false
  inHyst : Bool := false
  stopped : Bool := true
  u : Int := 0
  ext : Int := 0
  uIdx : Int := 0
  pos : Int := 0
  aLast : Int := 0
  tau : Nat := 0
  stepPrev : Nat := 0
  sameDir : Nat := 0
  lastDir : Bool := false
  hist : List (Int × Nat) := []
  edges : Nat := 0
  velK : Int := 0
  accK : Int := 0
  tc2 : Nat := 0
  velEdge : Int := 0
  vel : Int := 0
  acc : Int := 0
  coarseRun : Nat := 0
  fast : Bool := false
  hold : Bool := false
  atLim : Bool := false
  lastEdge : Nat := 0
  bDir : Bool := false
  bInHyst : Bool := false
  bStopped : Bool := true
  bState : BeamState := .off
deriving DecidableEq, Repr

/-- What a crossing record says (Table 02.4 KIND). -/
inductive XKind where
  | crossing | dirMarker | stateMarker
deriving DecidableEq, Repr

/-- A record of the crossing queue (Table 02.4); `cyc` is the sampling cycle in which its beam raised it, `angle` for a crossing the angle of
its tap in that cycle (R151), `wait` its WAIT. -/
structure XRec where
  beam : Nat
  tap : Nat
  dir : Bool
  kind : XKind
  rev : Nat
  state : Nat
  cyc : Nat
  angle : Nat := 0
  wait : Nat := 0
deriving DecidableEq, Repr

/-- A replica snapshot of one beam (R64). -/
structure Snap where
  tb : Nat := 0
  angle : Nat := 0
  rev : Nat := 0
  vel : Nat := 0
  acc : Nat := 0
  dir : Bool := false
  valid : Bool := false
deriving DecidableEq, Repr

/-- The outcome of a prediction that the unit is working on (R56, Table 02.2). -/
structure Pred where
  time : Nat := 0
  never : Bool := false
  short : Bool := false
  far : Bool := false
  coarse : Bool := false
deriving DecidableEq, Repr

/-- A fault report on its way to the referee (Table 08.4): reporting half, code, the context, beam, channel, port or instance
it is about, the DETAIL of its log entry (Table 08.16), for SEAL_TMO whether the reporter's own record is the missing
one, and whether it is about a memory of the service region, which its walker reports and which accuses no half (R209, Table 13.4). -/
structure Report where
  half : Half
  code : Nat
  obj : Nat := 0
  det : Nat := 0
  miss : Bool := false
  svc : Bool := false
deriving DecidableEq, Repr

/-! ### Row engines, motifs, line programs (chapters 03–05) -/

/-- The context states (Table 03.1). -/
inductive CtxState where
  | idle | armed | running | hold | reversing | draining | fault
deriving DecidableEq, Repr

/-- What a render is (R130, R206): a new row, a forward replay, a reverse re-render, a render for a REISSUE. -/
inductive RKind where
  | new | replay | reverse | reissue
deriving DecidableEq, Repr

/-- The row-boundary commands of ROW_CMD (Table 03.2). -/
inductive RowCmd where
  | hold | resume | stop
deriving DecidableEq, Repr

/-- A due entry (R82): what to render and with what it was captured at its trigger (R84, R87, R148). `image` is the active
set in the order of Table 05.2; `bank`, `gmask`, `goff` and `segs` are the harness bank and its context's segment map as they
stood at step 1, `phys` the physical bank it stood in. `batch` numbers the trigger or fill that added it (R138); `again` marks a row that is
rendered once more because its pool words were lost (Table 13.4). -/
structure Due where
  ctx : Nat
  row : Nat
  kind : RKind
  batch : Nat := 0
  image : List Word := []
  ys : List Nat := []
  bind : Word := 0
  tb : Nat := 0
  rev : Nat := 0
  late : Bool := false
  refused : Bool := false
  yloaded : Nat := 0
  bank : List (Nat × Nat) := []
  gmask : Nat := 0
  goff : List Nat := []
  segs : Nat := 0
  phys : Nat := 0
  again : Bool := false
deriving DecidableEq, Repr

/-- An opaque cell: colour index, yarn table, priority level. -/
structure Cell where
  v : Nat
  yt : Nat
  pri : Nat
deriving DecidableEq, Repr

/-- A row in the rendered-row cache (R74): cell codes from column 0, the fiducial list (R115), and the blocks of the pool it lies in (R328). -/
structure RRow where
  due : Due
  codes : List Nat
  fids : List Nat
  mdrop : Nat
  gathered : Bool
  blocks : List Nat := []
deriving DecidableEq, Repr

/-- A row whose record is still to be written (step 7 of R36). -/
structure RecJob where
  due : Due
  fids : List Nat
  mdrop : Nat
deriving DecidableEq, Repr

/-- A request to invalidate cache lines between renders (R93, R113). -/
inductive Inval where
  | all
  | range (base len : Nat)
deriving DecidableEq, Repr

/-- A Loupe request for an expected row (R255): pipe and row. -/
structure LReq where
  pipe : Nat
  row : Nat
deriving DecidableEq, Repr

/-- What a gather lane still has to read (R154): the codes of its row, its anchor, the key of its segment 0, the channels whose entries it cannot
read, and the segments to come, ascending. -/
structure Gath where
  codes : List Nat := []
  ka : Nat := 0
  pa : Nat := 0
  key : Nat := 0
  bad : List Nat := []
  segs : List Nat := []
deriving DecidableEq, Repr

/-- One row engine (R73): due list (its first 32 entries; what follows waits for room, notes/assumptions/106.md), the production render `cur` or
the Loupe render `lcur` in progress with the lines it waits for, how far it has come (`step`: three steps for each 64-column group and two for each
kept motif, R91, R113), the plane cells of the groups done and the motif cells drawn, the pool blocks it has claimed and whether it waits for
one (R328), and its motif scan (entries kept, dropped and malformed, and whether a fiducial one was dropped); parked entries with the line
each lacks, Loupe requests that wait for a page likewise, rows waiting for the gather lane, the row being gathered, whether it was
abandoned (R81) and what its lane has to read yet, records to write, the rendered-row cache (oldest first), the tile and motif caches (line number and 64-byte contents, most
recently used first), prefetches, pending invalidations, the Loupe request being served and those behind it, and the beams (bit b) it was
last told are SYNCED and are turning backwards (R77, R134). -/
structure Engine where
  due : List Due := []
  cur : Option Due := none
  lcur : Option Due := none
  step : Nat := 0
  cells : List (Option (Nat × Cell)) := []
  mcells : List (Nat × List (Nat × Cell)) := []
  blocks : List Nat := []
  blocked : Bool := false
  want : List Nat := []
  wantM : List Nat := []
  kept : List (Nat × Nat) := []
  mdrop : Nat := 0
  mbad : Nat := 0
  mfid : Bool := false
  parked : List (Due × Nat) := []
  lparked : List (LReq × Nat) := []
  ready : List RRow := []
  lane : Option Due := none
  laneOff : Bool := false
  gath : Gath := {}
  recs : List RecJob := []
  rrc : List RRow := []
  tc : List (Nat × Nat) := []
  mc : List (Nat × Nat) := []
  pf : List Nat := []
  tinv : Option Inval := none
  minv : Option Inval := none
  loupe : Option LReq := none
  loupeQ : List LReq := []
  batch : Nat := 0
  syncs : Nat := 0
  backs : Nat := 0
deriving DecidableEq, Repr

/-- One context behind its registers: a pending row-boundary command (R78), ARMGEN and the START captured at ARM (R130), whether the next release is the first (R122), the harness anchor
(R151), and, while a cancellation runs, the due entries of its fill and of the triggers behind it, which are added afterwards (R134). -/
structure Ctx where
  cmd : Option (RowCmd × Bool × Nat) := none
  armgen : Nat := 0
  start : Nat := 0
  first : Bool := false
  ka : Nat := 0
  pa : Nat := 0
  waiting : Bool := false
  held : List Due := []
deriving DecidableEq, Repr

/-- A release in a slot of a beam core's release queue (R122), or taken and open (R123). -/
structure Release where
  ctx : Nat
  row : Nat
  skipped : Bool
  first : Bool
deriving DecidableEq, Repr

/-- A page-ahead request on its way to the pattern-store paging unit (R94). -/
structure PageReq where
  engine : Nat
  ctx : Nat
  row : Nat
  time : Nat
deriving DecidableEq, Repr

/-- What a line fill brought back (R91). -/
inductive FillResult where
  | data | absent | uncorrectable
deriving DecidableEq, Repr

/-! ### Harness, queues, seals (chapters 06, 08) -/

/-- The harness unit: two physical banks, which is active, the active segment maps and those of the last
validation (R147); and the beams (bit b) whose OFF marker waits for the cancellation of R80. -/
structure Harness where
  bank0 : List (Nat × Nat) := []
  bank1 : List (Nat × Nat) := []
  active1 : Bool := false
  maps : List (Nat × Nat) := []
  newMaps : List (Nat × Nat) := []
  offs : Nat := 0
deriving DecidableEq, Repr

/-- An event in a channel's queue (R156): the 64-bit event, whether a port has sent it and under which SEQ, the context whose
row produced it, the instance (bits [79:0] of its seal record), and whether the instance's seals compared equal. -/
structure QEv where
  ev : Nat
  sent : Bool := false
  seq : Nat := 0
  ctx : Nat
  inst : Nat
  clear : Bool := false
deriving DecidableEq, Repr

/-- One channel (R150, R156, R159): queue oldest first, the state of the last event sent, the five counters, and events sent
and not yet reported. -/
structure Chan where
  q : List QEv := []
  lastSent : Nat := 0
  enq : Nat := 0
  canc : Nat := 0
  fired : Nat := 0
  unf : Nat := 0
  drop : Nat := 0
  unrep : Nat := 0
deriving DecidableEq, Repr

/-- A cancellation request being scanned (Table 06.5): context, direction (none for all), and whether the context's fill waits for it. -/
structure Scan where
  ctx : Nat
  dir : Option Bool
  fills : Bool
deriving DecidableEq, Repr

/-- A gathered segment on its way to the seal unit (R203), with what the unit stores beside its record (R205): the anchor and
the reference state each state-mode channel had. -/
structure SealJob where
  key : Nat
  kind : RKind
  events : List Nat
  ka : Nat
  pa : Nat
  refs : List (Nat × Nat)
deriving DecidableEq, Repr

/-- A seal record (R204, R205): bits [79:0], the events it counts, its CRC; whether it is the half's own, and then also the anchor and reference
states; and whether it stays in its table for a held instance. -/
structure SealRec where
  key : Nat
  nev : Nat
  crc : Nat
  ka : Nat := 0
  pa : Nat := 0
  refs : List (Nat × Nat) := []
  mine : Bool := false
  held : Bool := false
deriving DecidableEq, Repr

/-- The seal unit of a half (R205): segments to seal, own and peer tables, records on the channel to the peer, held instances
oldest first, the sticky bits of the self-check word (Table 08.3), the time bases of the last bucket overflow (plus 1; 0 none)
and of the last correctable errors in privileged memories. -/
structure SealUnit where
  jobs : List SealJob := []
  own : List SealRec := []
  peer : List SealRec := []
  out : List SealRec := []
  held : List SealRec := []
  bucketAt : Nat := 0
  ceAt : List Nat := []
  ue : Bool := false
  wdog : Bool := false
  pll : Bool := false
deriving DecidableEq, Repr

/-! ### Rerok ports (chapter 07) -/

/-- A sequenced frame of a port (R181): SEQ, payload words after the epoch, and the channels whose events it carries. -/
structure Frame where
  seq : Nat
  type : Nat
  words : List Nat
  chans : List Nat := []
deriving DecidableEq, Repr

/-- What a port waits for from its board before it sends on: nothing; the CRD that opens a session; ACK and CRD (and which of
them have come) after a CHG with OPEN = 0 in training; the ACK after a new epoch (R179, R197). -/
inductive Await where
  | none | crd
  | both (ack crd : Bool)
  | ack
deriving DecidableEq, Repr

/-- An accepted STS as a port keeps it for its peer (R195): SEQ, status word, audit result, reports. -/
structure StsRec where
  seq : Nat
  status : Nat
  audd : Nat
  reports : List Nat
deriving DecidableEq, Repr

/-- A port behind its registers (chapter 07): next SEQ expected, unacknowledged frames oldest first, SEQs to resend, SEQs of MGT
requests that are no longer resent, the frames
waiting at the transmitter (CHG with OPEN, ACK, AUD, HB, an MGT request), the closed EVT frame that waits for its mirror
confirmation or to be sent, mirror records on their way to the peer and confirmations on their way back, what the board's
reply is awaited for, the training HBs, the RTT values, retraining times, the MGT tag, the snapshot last sent, the accepted
STS frames, the fence confirmation, whether the referee has disabled the driver, the symbols after K28.5 of the last frame sent and the
code groups that left at the last frame boundary; credits held (a 32-bit number, RLK_CREDIT shows its low half); the times of the errors
and of the code errors of the last millisecond and of the last valid frame (R180); whether the running disparity is positive (R167);
whether its half is in CHARGE. -/
structure Port where
  rxNext : Nat := 0
  unack : List Frame := []
  rtx : List Nat := []
  dead : List Nat := []
  chg : Option Bool := none
  ack : Bool := false
  retry : Bool := false
  retryFor : Option Nat := none
  aud : Bool := false
  hb : Bool := false
  mgt : Option (List Nat) := none
  closed : Option Frame := none
  confirmed : Bool := false
  mirrors : List Frame := []
  confirms : Nat := 0
  await : Await := .none
  goodHb : Nat := 0
  rtts : List Nat := []
  retrains : List Nat := []
  tag : Nat := 0
  snap : Nat := 0
  sts : List StsRec := []
  fenced : Bool := false
  drvOff : Bool := false
  sent : List Nat := []
  wire : List Nat := []
  credits : Nat := 0
  errAt : List Nat := []
  codeAt : List Nat := []
  validAt : Nat := 0
  disp : Bool := false
  lead : Bool := false
deriving DecidableEq, Repr

/-! ### Loupe (chapter 09) -/

/-- The open row of a pipe (R249, R254): row, the lowest column of its cell array, sum and count per cell, and whether an
accepted line of it has updated the map. -/
structure OpenRow where
  row : Nat
  base : Option Nat := none
  sums : List (Nat × Nat × Nat) := []
  updated : Bool := false
deriving DecidableEq, Repr

/-- A row in a pipe's buffer (R255): cell codes and fiducial list. -/
structure ExpRow where
  row : Nat
  codes : List Nat
  fids : List Nat
deriving DecidableEq, Repr

/-- A streak entry (R262): column range, class, length, and whether the close in progress has extended it. -/
structure Streak where
  lo : Nat
  hi : Nat
  cls : Nat
  len : Nat
  fresh : Bool
deriving DecidableEq, Repr

/-- A pipe behind its registers: flat-field and knot banks, which is active, whether the copy back runs; P_max; the newest
travel-log row and its ARMGEN; cursor; open row; last closed row and its ARMGEN; lines since an update of the map; buffer,
requests and rows that the render port returned absent (R256); defect records waiting to be written and WR at the last RING; the closed rows of the window, newest first,
and the streaks; the corrected intensities of the last line (R247), and whether the camera view still has to take it (R373). -/
structure Pipe where
  ff0 : List (Nat × Nat) := []
  ff1 : List (Nat × Nat) := []
  kn0 : List (Nat × Nat) := []
  kn1 : List (Nat × Nat) := []
  active1 : Bool := false
  copying : Bool := false
  pmax : Option Nat := none
  newest : Option (Nat × Nat) := none
  cursor : Option Nat := none
  row : Option OpenRow := none
  closed : Option (Nat × Nat) := none
  quiet : Nat := 0
  exp : List ExpRow := []
  asked : List Nat := []
  gone : List Nat := []
  recs : List Nat := []
  ringAt : Nat := 0
  window : List Bool := []
  streaks : List Streak := []
  line : List Nat := []
  fresh : Bool := false
deriving DecidableEq, Repr

/-- A camera port behind its registers: trigger queue (TB and position), the last trigger position, transmit and receive FIFO
words, the words of the last packet sent, and whether the present image is discarded. -/
structure Cxp where
  trigs : List (Nat × Nat) := []
  lastTrig : Option Nat := none
  tx : List Nat := []
  rx : List Nat := []
  sent : List Nat := []
  badImage : Bool := false
deriving DecidableEq, Repr

/-- A change of a beam's broadcast (R245): TB, 64-bit position, whether the beam is SYNCED and turns backwards. -/
structure BHist where
  tb : Nat
  pos : Nat
  sync : Bool
  back : Bool
deriving DecidableEq, Repr

/-! ### Kuxon cores (chapters 10–12) -/

/-- The target of a data access: a byte address of local RAM or memory, a word of the control space, half of a register (page,
offset, upper half, the context a ROW page is addressed by), nothing. -/
inductive KTarget where
  | ram (a : Nat)
  | ctl (w : Nat)
  | reg (page off : Nat) (hi : Bool) (ctx : Option Nat)
  | far (page off : Nat) (hi : Bool)
  | mem (a : Nat)
  | none
deriving DecidableEq, Repr

/-- The replay register of a core (R296): empty; an abandoned read of word address `a`, which leads to `t`, whose response is awaited; has come, with
the latch (R277) that the load leaves; or has failed. -/
inductive Replay where
  | empty
  | awaited (a : Nat) (t : KTarget)
  | ready (a v : Nat) (latch : Option (Nat × Nat))
  | failed (a : Nat)
deriving DecidableEq, Repr

/-- What a core waits for within an instruction (R286, R279, R296): nothing; a release, an angle or a line of the mask for
register `rd`; the response of a load from word address `a`, which leads to `t` (its displacement prefix makes `len` words; `inc` is the
register LDP counts up); the posted writes of a KFSYNC load; the response of a read from word address `a`, which leads to `t`, within an
iteration of the string word `w`, behind REP or alone. -/
inductive KWait where
  | none
  | row (rd : Nat)
  | angle (rd : Nat)
  | evt (rd mask : Nat)
  | load (rd a len : Nat) (inc : Option Nat) (t : KTarget)
  | sync (rd len : Nat) (inc : Option Nat)
  | str (w : Nat) (rep : Bool) (a : Nat) (t : KTarget)
deriving DecidableEq, Repr

/-- What R277 and R296 save at entry: the holding word, the latch (register address and its high word), the replay register,
and beside it the first operand of an abandoned CMPS iteration (address and word). -/
structure KSaved where
  hold : Nat := 0
  latch : Option (Nat × Nat) := none
  replay : Replay := .empty
  first : Option (Nat × Nat) := none
deriving DecidableEq, Repr

/-- A Kuxon core (chapter 10): registers, the stored words of its control space (Table 10.4, by the low byte of the address),
PC, the pair state of R277 and its saved copy, what it waits for, whether a STEP is in progress, posted far writes outstanding
and timed out since the last KFSYNC load, mailboxes, DROP; the TB at which its wait began (R286); the TB from which its
watchdog counts and the ticks it had counted before that (R289). -/
structure Kux where
  k : SMap Nat := []
  ctl : SMap Nat := []
  pc : Nat := 0
  pair : KSaved := {}
  saved : KSaved := {}
  wait : KWait := .none
  stepping : Bool := false
  posted : Nat := 0
  touts : Nat := 0
  mbin : List Nat := []
  hostIn : List Nat := []
  hostOut : List Nat := []
  drop : Bool := false
  waitFrom : Nat := 0
  wdogFrom : Nat := 0
  wdogRan : Nat := 0
deriving DecidableEq, Repr

/-- A mailbox word on its way (R287): sender, destination, word. -/
structure MboxWord where
  region : Nat
  core : Nat
  toRegion : Nat
  toCore : Nat
  word : Nat
deriving DecidableEq, Repr

/-! ### Pattern store (chapter 14) -/

/-- A paging Read outstanding on queue 1 (R350): page, deadline, whether it is the second read of the page (R351), whether a
DROP discards it (Table 14.6), whether a write has landed on the page meanwhile (R351). -/
structure NRead where
  page : Nat
  time : Nat
  again : Bool := false
  drop : Bool := false
  dirty : Bool := false
deriving DecidableEq, Repr

/-- An NVMe host block behind its registers: load queue (page, deadline), outstanding Reads, row indexes whose CHECK failed
(R350), the map operation written and not yet executed, consecutive timeouts and whether a controller reset runs (R343), the
blocks it may use (R342), the SEQ of the mounted header and its defect-log region, log blocks submitted and not complete and the LBAs they go to,
blocks since the last Flush (R353), the last
tail forwarded per firmware queue and the commands held behind it (R354). -/
structure Nvh where
  loads : List (Nat × Nat) := []
  out : List NRead := []
  badIdx : List Nat := []
  mapOp : Nat := 0
  tmos : Nat := 0
  resetting : Bool := false
  cap : Nat := 0
  volSeq : Nat := 0
  logLba : Nat := 0
  logBlocks : Nat := 0
  logOut : Nat := 0
  logTo : List Nat := []
  logSince : Nat := 0
  flushes : Nat := 0
  tails : SMap Nat := []
  held : SMap Nat := []
deriving DecidableEq, Repr

/-! ### Displays (chapters 16, 17) -/

/-- A frame of a composition (R374): the service TB and the registers of its latch point, the newest row of each live-row layer
(R372), whether layer L7 is stale, whether the static prefix comes from the Condenser, whether the frame is written back; for each layer that is
not ready the BASE of the buffer it shows (R380). -/
structure DFrame where
  tb : Nat := 0
  regs : SMap Word := []
  rows : List (Option Nat) := []
  stale : Bool := false
  cond : Bool := false
  wb : Bool := false
  bases : List (Nat × Nat) := []
deriving DecidableEq, Repr

/-- A composition behind its registers: its frame; the TB of L7's last refresh, and an uncorrectable read of its range since
(R378); whether the static prefix is invalid (R376); per layer the GEN last seen and the latch points it has stood, and BASE (plus 1; 0 none) at
the last latch point at which it was ready (R380); per camera layer the lines written to its ring (R373). -/
structure Prism where
  frame : DFrame := {}
  refresh : Nat := 0
  ueL7 : Bool := false
  invalid : Bool := true
  gens : SMap (Nat × Nat) := []
  bufs : SMap Nat := []
  cams : SMap Nat := []
deriving DecidableEq, Repr

/-- A display head behind its registers: the service TB at which its raster was last placed (R392, R393); the surface lines of the frame that the head
has fetched, and how many of them its buffer still holds (R390); the DSI FIFO's words, the packet whose response is awaited, the last packet sent (R388); whether a command-mode
transfer is in progress (R395). -/
structure Head where
  placed : Nat := 0
  lines : List (List Byte) := []
  buffered : Nat := 0
  fifo : List Nat := []
  bta : Bool := false
  sent : List Nat := []
  transfer : Bool := false
deriving DecidableEq, Repr

/-! ### Acoustic unit and timers (chapters 19, 21) -/

/-- A gain behind its register (R418): the present value (Q2.14), the ramp in progress (its start, target, samples done and length;
length 0 none) and a target that waits for a zero crossing. -/
structure Gain where
  cur : Nat := 0x4000
  start : Nat := 0
  target : Nat := 0x4000
  done : Nat := 0
  len : Nat := 0
  zc : Option Nat := none
deriving DecidableEq, Repr

/-- An audio port: the frames in its FIFO, oldest first; the frame last taken by the mixer (input) or last sent (output); its
counters RX or MIXED, TAKEN or TX, DROP, INSERT (R412, R421). -/
structure APort where
  fifo : List (List Int) := []
  last : List Int := []
  rx : Nat := 0
  taken : Nat := 0
  drops : Nat := 0
  inserts : Nat := 0
deriving DecidableEq, Repr

/-- A voice: its 17.16 position and the key-off ramp (R415). -/
structure Voice where
  pos : Nat := 0
  off : Gain := {}
deriving DecidableEq, Repr

/-- A meter band (R422): the last two inputs and results of its filter, newest first, and of the period the sum of squares and the
greatest magnitude. A result is held in 2^-22 of a sample unit. -/
structure Band where
  x1 : Int := 0
  x2 : Int := 0
  y1 : Int := 0
  y2 : Int := 0
  sum : Nat := 0
  peak : Nat := 0
deriving DecidableEq, Repr

/-- The acoustic unit behind its registers: ports; voices; source gains (key source × 16 + bus), bus gains, scales, the
stethoscope's gain; each source's and bus's sample of the previous period; key commands for the next block; periods left of the
block; blocks and periods of the meter period; wavetable words; meter words as written and as they act (key band × 8 + word);
bands. -/
structure Audio where
  ports : SMap APort := []
  voices : SMap Voice := []
  sgain : SMap Gain := []
  bgain : SMap Gain := []
  scale : SMap Gain := []
  steth : Gain := { cur := 0, target := 0 }
  xs : SMap Int := []
  bs : SMap Int := []
  keyOn : Nat := 0
  keyOff : Nat := 0
  left : Nat := 0
  blocks : Nat := 0
  periods : Nat := 0
  wave : SMap Nat := []
  words : SMap Nat := []
  acts : SMap Nat := []
  bands : SMap Band := []
deriving DecidableEq, Repr

/-- A timer behind its registers: the prescaler's accumulator (R441), the capture queue, oldest first (R445), and the source events and capture edges
that are on their way to it (Table 21.1). -/
structure Timer where
  acc : Nat := 0
  caps : List Nat := []
  evs : Nat := 0
  edges : Nat := 0
deriving DecidableEq, Repr

/-! ### Flash and identity (chapter 23) -/

/-- A flash command that the controller carries out (R468): OP, device and offset, and for a PROGRAM its bytes. -/
structure FlashOp where
  op : Nat
  dev : Nat
  addr : Nat
  data : List Byte
deriving DecidableEq, Repr

/-- An OTP operation in progress (R470): OP, customer slot, the hash to program. -/
structure OtpOp where
  op : Nat
  slot : Nat
  hash : Nat
deriving DecidableEq, Repr

/-! ### DMA, blitter, power (chapters 15, 18, 24) -/

/-- What a DMA channel is doing in RUN (R360–R362): awaiting a descriptor; moving the data of one (its eight words); awaiting the
re-read of words 6 and 7 of a descriptor that moved its data; awaiting that of one that failed. -/
inductive DmaPhase where
  | none
  | fetch
  | move (words : List Nat)
  | reread
  | last
deriving DecidableEq, Repr

/-- A DMA channel behind its registers: what it does, whether STOP waits for its next access boundary (R364), and its three live
counters (R365), shown through DMA_LATCH. -/
structure DmaCh where
  phase : DmaPhase := .none
  stopping : Bool := false
  taken : Nat := 0
  done : Nat := 0
  fail : Nat := 0
deriving DecidableEq, Repr

/-- The blitter operation in progress (R405, R406): the registers it captured, whether ABORT waits, and whether it was started in service
dim and waits for its end (R481). -/
structure BltOp where
  regs : SMap Word
  abort : Bool := false
  held : Bool := false
deriving DecidableEq, Repr

/-! ### Events and commits (chapters 20, 25) -/

/-- A write that left the part through a half's host endpoint (`host`), at the host address, or through its root port (R435). -/
structure OutWrite where
  half : Half
  host : Bool
  addr : Nat
  data : List Byte
deriving DecidableEq, Repr
/-- An MSI-X message sent by an endpoint (R431). -/
structure Msix where
  half : Half
  vec : Nat
  addr : Nat
  data : Nat
deriving DecidableEq, Repr

end Sys2Proof.Machine
end

