-- ==== Sys2Proof/Machine/State.lean ====
section
/-!
DEFINITION. The state of the whole part as plain data: the queue of waiting commands, the referee island, memory, and the
devices of the two halves and the service region with their register sets; why a step can stop; the state at reset.
-/
namespace Sys2Proof.Machine

/-- Memory by system address (Table 01.7): sorted cells, an unlisted byte reads as 0, the fill of R332. -/
abbrev Mem := SMap Byte

/-- What an unlisted byte of memory reads as. -/
def memFill (_ : Nat) : Byte := 0

/-- The devices of the part: everything but the referee island and memory. Banks of like units are sparse maps; a unit that
is not listed is in its reset state. -/
structure Dev where
  /-- active registers of every page (R486), by location and offset -/
  regs : SMap Word := []
  /-- shadow registers (R487), by location and offset -/
  shadow : SMap Word := []
  /-- PG_CTL.VIEW per page and master (R487), key page × 256 + master -/
  views : SMap Bool := []
  /-- ROW_CSEL per ROW page and master (R96), key page × 256 + master -/
  csels : SMap Nat := []
  /-- high words latched by low-word reads (R32), key (location + offset of the high word) × 256 + master -/
  latched : SMap (Option Word) := []
  /-- time bases of the halves and the service copy (R29, R31) -/
  tbA : Nat := 0
  tbB : Nat := 0
  tbS : Nat := 0
  /-- core cycles of the next tick of each half: 8, or 9 or 7 after an adjustment (R29) -/
  tickA : Nat := 8
  tickB : Nat := 8
  /-- reports on their way to the referee (R208) -/
  reports : List Report := []
  /-- how many free values have been handed out (the model's own counter, notes/assumptions/1.md) -/
  freeCount : Nat := 0
  /-- EVC tables (R429), key EVC × 512 + source; EVC 0 Half A, 1 Half B, 2 service -/
  evcTab : SMap Nat := []
  /-- asserted event sources (EVC_ASSERTi, R429), key source number -/
  lines : SMap Bool := []
  /-- vectors in service (R431), key half × 64 + vector -/
  inService : SMap Bool := []
  /-- the time of the last message of each vector (R431), key half × 64 + vector; 0 none yet -/
  lastMsg : SMap Nat := []
  /-- MSI-X messages sent by the endpoints, oldest first (R431) -/
  msix : List Msix := []
  /-- writes that left the part, oldest first (R435) -/
  outs : List OutWrite := []
  /-- KIP, interrupt lines pending at each core (R282, R430), key region × 32 + core -/
  kip : SMap Nat := []
  /-- beams (R48), key half × 4 + beam -/
  beams : SMap Beam := []
  /-- crossing queues of the halves (R61), and the records the last handshake delivered -/
  xqA : List XRec := []
  xqB : List XRec := []
  xlA : List XRec := []
  xlB : List XRec := []
  /-- replica snapshots (R64), key half × 4 + beam -/
  snaps : SMap Snap := []
  /-- predictions in progress (R56), key half -/
  preds : SMap Pred := []
  /-- row engines (R73), key half × 8 + engine -/
  engines : SMap Engine := []
  /-- contexts (R76), key (half × 8 + engine) × 32 + context -/
  ctxs : SMap Ctx := []
  /-- motif attribute stores (R102), one 256-bit entry under key (half × 8 + engine) × 4,096 + entry -/
  motifs : SMap Nat := []
  /-- staging words of ROW_MAW_Dk (R103), key (page × 256 + master) × 8 + word -/
  staging : SMap Word := []
  /-- ROW_MAW_IDX per ROW page and master (R103), key page × 256 + master -/
  mawIdx : SMap Word := []
  /-- release slots (R122), key (half × 16 + beam core) × 32 + context -/
  slots : SMap (Option Release) := []
  /-- open releases (R123), key half × 16 + beam core -/
  openRel : SMap (Option Release) := []
  /-- page-ahead requests posted to the paging unit of each half (R94), oldest first -/
  pagesA : List PageReq := []
  pagesB : List PageReq := []
  /-- harness units (R145), key half -/
  harness : SMap Harness := []
  /-- channels (R156), key half × 65,536 + channel -/
  chans : SMap Chan := []
  /-- cancellation scans in progress of each half (R158), oldest first -/
  scansA : List Scan := []
  scansB : List Scan := []
  /-- seal units (R203), key half -/
  seals : SMap SealUnit := []
  /-- Rerok ports (R177), key half × 64 + port -/
  ports : SMap Port := []
  /-- Loupe pipes and camera ports (R238), key half × 2 + pipe -/
  pipes : SMap Pipe := []
  cxps : SMap Cxp := []
  /-- the broadcast of the last 4,096 ticks as its changes, newest first (R245), key half × 4 + beam -/
  bhist : SMap (List BHist) := []
  /-- the value the last read command returned (the model's own field, notes/assumptions/43.md) -/
  readData : Word := 0
  /-- page tables of the NVHs (R347), 16-byte entries by half × 2^20 + page -/
  ptab : SMap Nat := []
  /-- 64-bit words of memory whose check bits are uncorrectable (R336), by number (address / 8), and the words of the other
  memories with one, as page, memory of the page and word -/
  ueLines : List Nat := []
  ueWords : List (Nat × Nat × Nat) := []
  /-- compositions and heads (chapters 16, 17), key 0 or 1; pre-blend LUTs, key (composition × 8 + layer) × 1,024 + entry;
  post-blend LUTs, key composition × 4,096 + channel × 1,024 + entry (Table 16.2) -/
  prisms : SMap Prism := []
  heads : SMap Head := []
  preLut : SMap Nat := []
  postLut : SMap Nat := []
  /-- NVMe host blocks (R342), key half -/
  nvhs : SMap Nvh := []
  /-- ECC (chapter 13): the log entries of each page (page × 8 + entry), the bucket levels (page), corrected words not yet
  written back (page, memory, word), the source FIFO of each half's scrubber (R338) -/
  eccLog : SMap Nat := []
  buckets : SMap Nat := []
  ceWords : List (Nat × Nat × Nat) := []
  /-- 64-bit words of DRAM, by number, whose next access meets a failed command (R325); the TB of each bucket's last leak (R335), by page -/
  caBad : List Nat := []
  leaks : SMap Nat := []
  /-- the master and the domain that the last decode-error event recorded (R25); no master is a row engine or another unit of a block -/
  decBy : Option (Option Master × Nat) := none
  esrcA : List Nat := []
  esrcB : List Nat := []
  /-- Kuxon cores (chapter 10), their program memories and the control stores (R312): keys region × 32 + core, that × 16,384 +
  word, region × 4,096 + word -/
  kux : SMap Kux := []
  pmem : SMap Nat := []
  ucs : SMap Nat := []
  /-- is the service region loading (R314)? -/
  svcLoading : Bool := false
  /-- mailbox words between cores (R287), oldest first -/
  mboxes : List MboxWord := []
  /-- synchronised pad levels (R453), by pin, and the banks whose pads stand in their reset state (R449), bit k -/
  pads : SMap Bool := []
  bankOff : Nat := 0
  /-- the acoustic unit (chapter 19); timers (R440), key region × 16 + timer -/
  aud : Audio := {}
  timers : SMap Timer := []
  /-- boot flash (R459): bytes by device × 2^28 + offset; how many bytes the board's device `d` holds, 0 where none answers; and the
  command its controller carries out -/
  flash : SMap Byte := []
  flashLen : SMap Nat := []
  flOp : Option FlashOp := none
  /-- customer key hashes in OTP and the revoked slots, bit by slot (R470); the OTP operation in progress -/
  otp : SMap (Option Nat) := []
  otpRev : Nat := 0
  otpOp : Option OtpOp := none
  /-- the nonce of the report being built, and the measurements: 0 configuration, 1 service, 2 Half A, 3 Half B (R471) -/
  atNonce : Nat := 0
  meas : SMap Nat := []
  /-- DMA channels (chapter 15), key region × 16 + channel; the blitter operation in progress (R405) -/
  dmas : SMap DmaCh := []
  blt : Option BltOp := none
  /-- halves whose pipes have requested a stop since STOP_CLEAR (R264) -/
  stopReqs : List Half := []
  /-- is the service region released; the request bits of accepted writes of PWR_REQ that wait (R485) -/
  svcUp : Bool := false
  asks : List Nat := []
deriving DecidableEq, Repr

/-- The half states (Table 08.5). -/
inductive HalfState where
  | off | init | standby | charge | quarantine | rejoining | split
deriving DecidableEq, Repr

/-- A voted report (R215): the report, the number of its log entry (none once the log was cleared), the TB of the vote. -/
structure Vote where
  rep : Report
  entry : Option Nat
  tb : Nat
deriving DecidableEq, Repr

/-- What a half has answered to a CHECK (R207). -/
inductive SelfCheck where
  | awaited | silent
  | word (w : Nat)
deriving DecidableEq, Repr

/-- What the referee is working on: nothing; the window of R209; a self-check, with a second 0x02 report of the same instance;
the fence of a takeover, with its rule and the microseconds to its decision; of a handover; of a chip warm reset. -/
inductive Act where
  | idle
  | common (v : Vote)
  | check (v : Vote) (a b : SelfCheck) (second : Option Vote)
  | takeover (v : Vote) (old : Half) (rule elapsed : Nat)
  | handover (old : Half)
  | warm
deriving DecidableEq, Repr

/-- The referee island (R18, R208–R237, R437): half states, split operation and service host, rejoin phase, epoch; fences held
for a change of charge; the configuration fields of Table 23.4; whether the part runs on the factory defaults (R463); the
half in charge; counters, last decision, self-check words; the fault log; STOP_REQ lines; the action in progress and the
reports behind it; REISSUE commands on their way; the rejoining half, the contexts (of its peer) still to transfer and the
NEW instances compared equal per context; INIT complete reports; whether the halves leave INIT after a
power-on or chip warm reset, and whether no boot has run since VDD_REF rose; the mailboxes; the last records of the time bases (R480); halves in half standby (R481); supplies that meet the
recovery condition (R473, R484). -/
structure Referee where
  hsA : HalfState := .off
  hsB : HalfState := .off
  split : Bool := false
  svcHost : Half := .A
  rjPhase : Nat := 0
  epoch : Nat := 1
  fenceA : Bool := false
  fenceB : Bool := false
  prefer : Half := .A
  autorejoin : Bool := false
  rjRows : Nat := 8
  epfloor : Nat := 1
  rjlist : List Nat := []
  swA : Nat := 0
  swB : Nat := 0
  d4 : Option Half := none
  d5mask : Nat := 0
  defaults : Bool := false
  inCharge : Half := .A
  takeovers : Nat := 0
  handovers : Nat := 0
  lastdec : Nat := 0
  scwA : Nat := 0
  scwB : Nat := 0
  flogTotal : Nat := 0
  flog : SMap Nat := []
  stopA : Bool := false
  stopB : Bool := false
  act : Act := .idle
  waiting : List Vote := []
  reissueA : Bool := false
  reissueB : Bool := false
  rjHalf : Option Half := none
  rjCtxs : List Nat := []
  rjEqual : SMap Nat := []
  initA : Bool := false
  initB : Bool := false
  powerOn : Bool := true
  cold : Bool := true
  session : Option Half := none
  rspA : Nat := 0x80000000
  rspB : Nat := 0x80000000
  sessResA : Nat := 0
  sessResB : Nat := 0
  dropA : Nat := 0
  dropB : Nat := 0
  recA : Nat := 0
  recB : Nat := 0
  sbyA : Bool := false
  sbyB : Bool := false
  supA : Bool := false
  supB : Bool := false
  supS : Bool := false
deriving DecidableEq, Repr

/-- The whole machine: waiting commands, the referee island, memory and the devices. -/
structure State where
  pending : List Instr
  ref : Referee
  mem : Mem
  dev : Dev
deriving DecidableEq, Repr

/-- Reasons a step can fault. The manual gives every command an effect, so nothing raises one; the constructor stands for
the type to have a name. Safe: a claim about a fault can only say that none occurs. -/
inductive Fault where
  /-- raised by no command -/
  | none
deriving DecidableEq, Repr

/-- Reasons a step can be refused. -/
inductive Refusal where
  /-- raised by the dispatch for a command without a meaning in this model. Safe: nothing is claimed of it -/
  | notModelled (mnemonic : String)
deriving DecidableEq, Repr

/-- The part before VDD_REF rises: every register at its reset value, both halves OFF, memory filled, no command waiting. -/
def State.reset : State := { pending := [], ref := {}, mem := [], dev := {} }

end Sys2Proof.Machine
end

