-- ==== Sys2Proof/Machine/Ops.lean ====
section
/-!
DEFINITION. The named operations every meaning is built from: how a meaning answers a next state, reading and writing
registers and fields, memory, free values, raising page events and delivering them (chapter 20), reporting faults.
-/
namespace Sys2Proof.Machine

open Sys2Proof

/-! ### Answers. The three shapes of a meaning: it changes devices; memory and devices; or the referee island as well. -/

/-- A change of memory: one byte stored, or a range filled with zero data (R332). -/
inductive MemOp where
  | store (a : Nat) (b : Byte)
  | fill (lo len : Nat)
deriving DecidableEq, Repr

/-- Memory after one change. -/
def Mem.apply (m : Mem) : MemOp → Mem
  | .store a b => SMap.set memFill m a b
  | .fill lo len => SMap.erase (fun k => lo ≤ k && k < lo + len) m

/-- Memory after a list of changes, in order. -/
def Mem.applyAll (m : Mem) (ops : List MemOp) : Mem := ops.foldl Mem.apply m

abbrev Answer := Host.Outcome State Fault Refusal

/-- A command that changes devices only. -/
def onDev (f : State → Dev) (s : State) : Answer := .next { s with dev := f s }
/-- A command that changes memory and devices. -/
def onMem (f : State → List MemOp × Dev) (s : State) : Answer :=
  .next { s with mem := s.mem.applyAll (f s).1, dev := (f s).2 }
/-- A command of the referee's own sequencer: the only shape that changes the referee island (R18). -/
def onRef (f : State → Referee × List MemOp × Dev) (s : State) : Answer :=
  .next { s with ref := (f s).1, mem := s.mem.applyAll (f s).2.1, dev := (f s).2.2 }

/-- A signed value as a field of `n` bits shows it: outside the field's range the manual states no result (notes/assumptions/101.md). -/
def fitS (n : Nat) (v : Int) : Nat :=
  if -(2 ^ (n - 1) : Nat) ≤ v ∧ v < (2 ^ (n - 1) : Nat) then usgn n v else Config.fieldOver n v % 2 ^ n

/-! ### Registers -/

/-- The word of an active register. -/
def Dev.rd (d : Dev) (l : Loc) (off : Nat) : Word := SMap.get regReset d.regs (l + off)
/-- The word of a shadow register. -/
def Dev.rdS (d : Dev) (l : Loc) (off : Nat) : Word := SMap.get regReset d.shadow (l + off)
/-- Store a word into an active register. -/
def Dev.wr (d : Dev) (l : Loc) (off : Nat) (w : Word) : Dev := { d with regs := SMap.set regReset d.regs (l + off) w }
/-- Store a word into a shadow register. -/
def Dev.wrS (d : Dev) (l : Loc) (off : Nat) (w : Word) : Dev := { d with shadow := SMap.set regReset d.shadow (l + off) w }
/-- A field of the active set. -/
def Dev.g (d : Dev) (l : Loc) (f : Fld) : Nat := fget f (d.rd l f.off)
/-- A field of the shadow set. -/
def Dev.gS (d : Dev) (l : Loc) (f : Fld) : Nat := fget f (d.rdS l f.off)
/-- Set a field of the active set. -/
def Dev.p (d : Dev) (l : Loc) (f : Fld) (v : Nat) : Dev := d.wr l f.off (fput f v (d.rd l f.off))
/-- Set a field of the shadow set. -/
def Dev.pS (d : Dev) (l : Loc) (f : Fld) (v : Nat) : Dev := d.wrS l f.off (fput f v (d.rdS l f.off))
/-- Set a field of both sets, as a block's own update of a shadowed field does (R487). -/
def Dev.pB (d : Dev) (l : Loc) (f : Fld) (v : Nat) : Dev := (d.p l f v).pS l f v
/-- Is a one-bit field set? -/
def Dev.on (d : Dev) (l : Loc) (f : Fld) : Bool := d.g l f = 1
/-- Add to a saturating counter field. -/
def Dev.sat (d : Dev) (l : Loc) (f : Fld) (n : Nat := 1) : Dev := d.p l f (min (d.g l f + n) (2 ^ f.w - 1))
/-- Add to a wrapping counter field. -/
def Dev.wrap (d : Dev) (l : Loc) (f : Fld) (n : Nat := 1) : Dev := d.p l f (d.g l f + n)
/-- Put a field to the greater of its value and `v`. -/
def Dev.maxF (d : Dev) (l : Loc) (f : Fld) (v : Nat) : Dev := d.p l f (max (d.g l f) (min v (2 ^ f.w - 1)))

/-- The page of a block instance in a half, as a location. -/
def hLoc (h : Half) (b : Block) (i : Nat := 0) : Loc := locOf (pageOf h.n b i)
/-- The page of a block instance in the service region, as a location. -/
def sLoc (b : Block) (i : Nat := 0) : Loc := locOf (pageOf 2 b i)
/-- The page of a block instance in a region, as a location. -/
def rLoc (r : Nat) (b : Block) (i : Nat := 0) : Loc := locOf (pageOf r b i)

/-- A two-register 64-bit value. -/
def Dev.g64 (d : Dev) (l : Loc) (lo hi : Fld) : Nat := d.g l lo + d.g l hi * 2 ^ 32
/-- Write a 64-bit value to its two registers. -/
def Dev.p64 (d : Dev) (l : Loc) (lo hi : Fld) (v : Nat) : Dev := (d.p l lo (v % 2 ^ 32)).p l hi (v / 2 ^ 32)

/-- The time base of a half (R29). -/
def Dev.tb (d : Dev) : Half → Nat
  | .A => d.tbA
  | .B => d.tbB
/-- Set the time base of a half. -/
def Dev.setTb (d : Dev) (h : Half) (v : Nat) : Dev :=
  match h with
  | .A => { d with tbA := v % 2 ^ 64 }
  | .B => { d with tbB := v % 2 ^ 64 }
/-- The time base a region counts on: the half's, or the service copy (R31). -/
def Dev.tbR (d : Dev) (r : Nat) : Nat := if r = 0 then d.tbA else if r = 1 then d.tbB else d.tbS

/-- A free value: the manual states no value here (notes/assumptions/1.md). -/
def Dev.free (d : Dev) : Word × Dev := (Config.freeWord d.freeCount, { d with freeCount := d.freeCount + 1 })

/-- Report a fault to the referee (R208), with the DETAIL of its log entry. An uncorrectable error of a privileged memory and
a loss of lock also stand in the next self-check word (Table 08.3). -/
def Dev.report (d : Dev) (h : Half) (code obj det : Nat) (miss : Bool := false) : Dev :=
  { d with
    reports := d.reports ++ [⟨h, code, obj, det, miss, false⟩]
    seals := if code = 0x04 ∨ code = 0x0D then
      SMap.modify (fun _ => ({} : SealUnit)) d.seals h.n (fun u => { u with ue := u.ue || decide (code = 0x04), pll := u.pll || decide (code = 0x0D) })
      else d.seals }
/-- Report a fault of a page's block: DETAIL names its type and instance (Table 08.16). -/
def Dev.reportP (d : Dev) (h : Half) (code obj : Nat) (l : Loc) : Dev :=
  d.report h code obj (d.g l PG_ID.TYPE * 2 ^ 16 + d.g l PG_ID.INSTANCE * 2 ^ 24)

/-! ### Events and their delivery (R426–R431) -/

/-- The event sources a page drives and the line each comes from: 0, 1, 2 for both lines of a page with one source, and
8 + m for a bit of GPX instance 0 that drives a matcher's source (Table 20.1, R458). -/
def pageSources (p : Nat) : List (Nat × Nat) :=
  let two (b : Nat) : List (Nat × Nat) := [(b, 0), (b + 1, 1)]
  match pageRowOf p with
  | none => []
  | some (r, i) =>
    let hb := if p / 4096 = 0 then 16 else if p / 4096 = 1 then 224 else 432
    if p / 4096 < 2 then
      (match r.block with
       | .beam => two hb
       | .row => two (hb + 2 + 2 * i)
       | .hrn => two (hb + 18)
       | .aeq => two (hb + 20)
       | .rlk => two (hb + 22 + 2 * i)
       | .seal => two (hb + 150)
       | .lpe => two (hb + 152 + 2 * i)
       | .cxp => two (hb + 156 + 2 * i)
       | .kxc => [(hb + 160 + i, 2)]
       | .ucs => [(hb + 180, 2)]
       | .dma => two (hb + 181)
       | .mec => [(hb + 183 + i, 2)]
       | .scb => two (hb + 185)
       | .nvh => two (hb + 187)
       | .tmr => [(hb + 189 + i, 2)]
       | .hif => [(hb + 205, 2)]
       | .evc => [(hb + 206, 2)]
       | _ => [])
    else if p / 4096 = 2 then
      (match r.block with
       | .kxc => [(hb + i, 2)]
       | .dma => two (hb + 8)
       | .tmr => [(hb + 10 + i, 2)]
       | .prz => [(hb + 26 + i, 2)]
       | .dhd => [(hb + 29 + i, 2)]
       | .blt => [(hb + 31, 2)]
       | .aud => two (hb + 32)
       | .ucs => [(hb + 34, 2)]
       | .gpx => two (hb + 35) ++ (if i = 0 then (List.range 8).map (fun m => (hb + 37 + m, 8 + m)) else [])
       | .sec => [(hb + 45, 2)]
       | .cfg => [(hb + 46, 2)]
       | .pwr => [(hb + 47, 2)]
       | .evc => [(hb + 48, 2)]
       | _ => [])
    else (List.range 10).map (fun i => (i, 16 + i))

/-- The pending and enabled events of a page. -/
def Dev.livePend (d : Dev) (p : Nat) : Nat :=
  ((d.rd (locOf p) 0x01C) &&& (d.rd (locOf p) 0x018)).toNat

/-- The level of one line of a page (R426). Line `16 + i` of the REF page is bit i of its PG_EVT_RAW (R427). -/
def Dev.pageLine (d : Dev) (p sel : Nat) : Bool :=
  let live := d.livePend p
  let route := (d.rd (locOf p) 0x020).toNat
  let matchers := if p = pageOf 2 .gpx 0 then 0xFF00 else 0
  let bits := if sel = 0 then live &&& (0xFFFFFFFF - route) &&& (0xFFFFFFFF - matchers)
    else if sel = 1 then live &&& route &&& (0xFFFFFFFF - matchers)
    else if sel = 2 then live
    else if sel < 16 then live &&& (2 ^ sel)
    else (d.rd (locOf p) 0x014).toNat &&& (2 ^ (sel - 16))
  bits ≠ 0

/-- The level of one event source as page `p` and, for the two lines all GPX pages share, the other GPX pages drive it. -/
def Dev.sourceLevel (d : Dev) (p : Nat) (sel : Nat) : Bool :=
  if pageOf 2 .gpx 0 ≤ p ∧ p ≤ pageOf 2 .gpx 9 ∧ sel < 2 then
    (List.range 10).any (fun i => d.pageLine (pageOf 2 .gpx i) sel)
  else d.pageLine p sel

/-- Is an event source asserted? EVC_ASSERTi shows this in every EVC. -/
def Dev.asserted (d : Dev) (src : Nat) : Bool := SMap.get (fun _ => false) d.lines src

/-- The entry of a source in an EVC's table (Table 20.2). -/
def Dev.evcEntry (d : Dev) (evc src : Nat) : Nat := SMap.get (fun _ => 0) d.evcTab (evc * 512 + src)

/-- The KIP word of a core. -/
def Dev.kipOf (d : Dev) (region core : Nat) : Nat := SMap.get (fun _ => 0) d.kip (region * 32 + core)
/-- Set lines pending at a core (R282). -/
def Dev.orKip (d : Dev) (region core mask : Nat) : Dev :=
  { d with kip := SMap.modify (fun _ => 0) d.kip (region * 32 + core) (fun k => k ||| (mask % 0x10000)) }
/-- Clear pending lines of a core. -/
def Dev.clearKip (d : Dev) (region core mask : Nat) : Dev :=
  { d with kip := SMap.modify (fun _ => 0) d.kip (region * 32 + core) (fun k => k &&& (0xFFFF - mask % 0x10000)) }

/-- Is any asserted source of EVC `evc` mapped to line `line` of core `core` (R430)? -/
def Dev.coreLineHigh (d : Dev) (evc core line : Nat) : Bool :=
  d.evcTab.any (fun e => e.1 / 512 = evc && bit e.2 7 && e.2 / 2 ^ 8 % 32 = core && e.2 / 2 ^ 13 % 16 = line && d.asserted (e.1 % 512))

/-- The sources of vector `v` that are asserted at endpoint `h`: their table entries (R431). -/
def Dev.vecSources (d : Dev) (h : Half) (v : Nat) : List Nat :=
  (d.evcTab.filter (fun e => e.1 / 512 = h.n && bit e.2 0 && e.2 / 2 % 64 = v && d.asserted (e.1 % 512))).map (fun e => e.2)

/-- Deliver vector `v` of an endpoint if it is due (R431 steps 1 and 2): asserted, not in service, not masked, and outside
the moderation interval for class INFO or WARN. A masked vector sets its PBA bit. -/
def Dev.deliver (d : Dev) (h : Half) (v : Nat) : Dev :=
  let l := hLoc h .hif
  let es := d.vecSources h v
  let cls := es.foldl (fun c e => max c (e / 2 ^ 17 % 4)) 0
  let key := h.n * 64 + v
  let last := SMap.get (fun _ => 0) d.lastMsg key
  let now := d.tb h
  if es = [] ∨ SMap.get (fun _ => false) d.inService key then d
  else if d.on l (MSIX_CTRL.MASK.ix v) then
    d.wr l (0xBF0 + 4 * (v / 32)) (d.rd l (0xBF0 + 4 * (v / 32)) ||| BitVec.ofNat 32 (2 ^ (v % 32)))
  else if cls ≤ 1 ∧ last ≠ 0 ∧ now < last - 1 + 100 * d.g (hLoc h .evc) (EVC_VMOD.MOD.ix v) then d
  else { d with
    msix := d.msix ++ [⟨h, v, d.g l (MSIX_ADDR_LO.ADDR.ix v) + d.g l (MSIX_ADDR_HI.ADDR.ix v) * 2 ^ 32, d.g l (MSIX_DATA.DATA.ix v)⟩]
    inService := SMap.set (fun _ => false) d.inService key true
    lastMsg := SMap.set (fun _ => 0) d.lastMsg key (now + 1) }

/-- A source's line takes a level: EVC_ASSERT follows, and a rising edge is delivered to the mapped cores and vectors by the
three EVCs (R429–R431). -/
def Dev.setLine (d : Dev) (src : Nat) (level : Bool) : Dev :=
  let was := d.asserted src
  let d1 := { d with lines := SMap.set (fun _ => false) d.lines src level }
  if level && !was then
    (List.range 3).foldl (fun x evc =>
      let e := x.evcEntry evc src
      let core := e / 2 ^ 8 % 32
      let line := e / 2 ^ 13 % 16
      let y := if bit e 7 && !d.coreLineHigh evc core line then x.orKip evc core (2 ^ line) else x
      if bit e 0 ∧ evc < 2 then y.deliver (Half.ofRegion evc) (e / 2 % 64) else y) d1
  else d1

/-- Change a page's event registers by `f`, then let its lines follow. -/
def Dev.withLines (d : Dev) (p : Nat) (f : Dev → Dev) : Dev :=
  let d1 := f d
  (pageSources p).foldl (fun x sl => let lv := x.sourceLevel p sl.2; if lv = x.asserted sl.1 then x else x.setLine sl.1 lv) d1

/-- Raise event `n` of a page (R426): its raw and pending bits are set. A page whose clock is gated raises nothing (R481). -/
def Dev.raise (d : Dev) (l : Loc) (n : Nat) : Dev :=
  if d.g l PG_CTL.ENABLE = 0 then d
  else d.withLines (l / 0x100000) (fun x =>
    let y := x.wr l 0x014 (x.rd l 0x014 ||| BitVec.ofNat 32 (2 ^ n))
    y.wr l 0x01C (y.rd l 0x01C ||| BitVec.ofNat 32 (2 ^ n)))

/-- Raise event `n` of a ROW page for a context and mark the context in ROW_EVT_CTX (R100). -/
def Dev.raiseCtx (d : Dev) (l : Loc) (c n : Nat) : Dev :=
  (d.wr l ROW_EVT_CTX.CTX.off (d.rd l ROW_EVT_CTX.CTX.off ||| BitVec.ofNat 32 (2 ^ c))).raise l n

/-- Clear pending bits of a page (W1C): a momentary event's raw bit goes with its pending bit (R426). -/
def Dev.clearPend (d : Dev) (l : Loc) (mask : Word) : Dev :=
  d.withLines (l / 0x100000) (fun x =>
    let y := x.wr l 0x01C (x.rd l 0x01C &&& ~~~mask)
    y.wr l 0x014 (y.rd l 0x014 &&& ~~~mask))

/-! ### Memory -/

/-- A byte of memory. -/
def Mem.byte (m : Mem) (a : Nat) : Byte := SMap.get memFill m a
/-- `n` bytes from address `a`, least significant first, as a number. -/
def Mem.read (m : Mem) (a : Nat) : Nat → Nat
  | 0 => 0
  | n + 1 => (m.byte a).toNat + 256 * Mem.read m (a + 1) n
/-- The stores that put the `n` low bytes of `v` at `a`, least significant byte first. -/
def storeN (a v : Nat) : Nat → List MemOp
  | 0 => []
  | n + 1 => .store a (BitVec.ofNat 8 v) :: storeN (a + 1) (v / 256) n
/-- The stores that put a list of bytes at `a`. -/
def storeBytes (a : Nat) : List Byte → List MemOp
  | [] => []
  | b :: bs => .store a b :: storeBytes (a + 1) bs
/-- `n` bytes from address `a`. -/
def Mem.bytes (m : Mem) (a : Nat) : Nat → List Byte
  | 0 => []
  | n + 1 => m.byte a :: Mem.bytes m (a + 1) n

/-- The DRAM of a half that is populated, in bytes from its first address (Table 13.1, R324). -/
def Dev.dramSize (d : Dev) (h : Half) : Nat :=
  let l := hLoc h .mec
  let den := d.g l MEC_GEOM.DENSITY
  if den = 0 ∨ d.on l MEC_GEOM.ABSENT ∨ d.on (hLoc h .mec 1) MEC_GEOM.ABSENT then 0 else 2 ^ (32 + den) * (1 + d.g l MEC_GEOM.RANKS2)
/-- Is an address in populated DRAM or in a memory of Table 13.3 whose bytes are kept (R25, R33)? DRAM answers nothing while it
is filled (R332). -/
def Dev.backed (d : Dev) (a : Nat) : Bool :=
  if a < 2 ^ 35 then a < d.dramSize .A && !d.on (hLoc .A .mec) MEC_STAT.FILLING
  else if a < 2 ^ 36 then a - 2 ^ 35 < d.dramSize .B && !d.on (hLoc .B .mec) MEC_STAT.FILLING
  else if a < 0x1102000000 then 0x1100000000 ≤ a && a % 0x1000000 < 0x140000
  else a < 0x1103880000
/-- A byte fetched from memory; reserved and unpopulated addresses read as 0 (R25). -/
def fetch (d : Dev) (m : Mem) (a : Nat) : Byte := if d.backed a then m.byte a else 0
/-- `n` fetched bytes, least significant first, as a number. -/
def fetchN (d : Dev) (m : Mem) (a : Nat) : Nat → Nat
  | 0 => 0
  | n + 1 => (fetch d m a).toNat + 256 * fetchN d m (a + 1) n
/-- `n` fetched bytes. -/
def fetchBytes (d : Dev) (m : Mem) (a : Nat) : Nat → List Byte
  | 0 => []
  | n + 1 => fetch d m a :: fetchBytes d m (a + 1) n

/-- The stores that put bytes at an address, where memory stands behind it; a write elsewhere is dropped (R25). -/
def Dev.put (d : Dev) (a : Nat) : List Byte → List MemOp
  | [] => []
  | b :: bs => if d.backed a then .store a b :: Dev.put d (a + 1) bs else Dev.put d (a + 1) bs

/-- Insert into a list without repeats, keeping order. -/
def addNew (l : List Nat) (x : Nat) : List Nat := if l.contains x then l else l ++ [x]
/-- The words of a region's control store, and one of them; beyond the store there is none (R312, notes/assumptions/111.md). -/
def ucsSize (r : Nat) : Nat := if r = 2 then 2048 else 4096
def Dev.ucsWord (d : Dev) (r w : Nat) : Nat := if ucsSize r ≤ w then 0 else SMap.get (fun _ => 0) d.ucs (r * 4096 + w)
/-- Does a 64-byte line of memory hold an uncorrectable word (R336)? -/
def Dev.lineUe (d : Dev) (n : Nat) : Bool := d.ueLines.any (fun w => w / 8 = n)
/-- Is the 64-bit ECC word that holds a byte uncorrectable? -/
def Dev.byteUe (d : Dev) (a : Nat) : Bool := d.ueLines.contains (a / 8)

/-- Where the entry of a page lies (R347). -/
def Dev.pteAddr (d : Dev) (h : Half) (g : Nat) : Nat :=
  let a := d.g (hLoc h .nvh) NVH_PTBASE.BASE * 2 ^ 23 + 16 * g
  if a < 2 ^ 36 then h.n * 2 ^ 35 + a % 2 ^ 35 else a
/-- Pages of populated DRAM: the table has an entry for each (R347). -/
def Dev.pages (d : Dev) (h : Half) : Nat := d.dramSize h / 65536
/-- The page table entry of page `g` of a half (Table 14.5), none beyond populated DRAM: the NVH's own, but for an entry that another master overwrote,
whose content is a free value (R347). -/
def Dev.pte (d : Dev) (m : Mem) (h : Half) (g : Nat) : Nat :=
  let kept := SMap.get (fun _ => 0) d.ptab (h.n * 2 ^ 20 + g)
  let seen := fetchN d m (d.pteAddr h g) 16
  if d.pages h ≤ g then 0
  else if d.on (hLoc h .nvh) NVH_CFG.EN && decide (seen ≠ kept) then Config.pageEntry kept seen else kept

/-- What a fill finds (R351): the page of a DRAM address is ordinary or RESIDENT, absent, or BAD. An entry that another
master overwrote is a free value (R347). -/
def pageMark (d : Dev) (m : Mem) (a : Nat) : FillResult :=
  if 2 ^ 36 ≤ a then .data
  else
    let hh := Half.ofRegion (a / 2 ^ 35)
    let e := d.pte m hh (a % 2 ^ 35 / 65536)
    if !bit e 64 then .data
    else match e / 2 ^ 65 % 4 with
      | 2 => .data
      | 3 => .uncorrectable
      | _ => .absent

/-- The address a half's own engines mean: a DRAM address lies in their own half (notes/assumptions/23.md). -/
def halfAddr (h : Half) (a : Nat) : Nat := if a < 2 ^ 36 then h.n * 2 ^ 35 + a % 2 ^ 35 else a

/-- CRC-32 of IEEE 802.3 (R129): one byte, reflected. -/
def crc32Byte (c : Nat) (b : Byte) : Nat :=
  (List.range 8).foldl (fun x _ => if x % 2 = 1 then (x / 2) ^^^ 0xEDB88320 else x / 2) (c ^^^ b.toNat)
/-- CRC-32 of IEEE 802.3 over a byte string. -/
def crc32 (bs : List Byte) : Nat := (bs.foldl crc32Byte 0xFFFFFFFF) ^^^ 0xFFFFFFFF
/-- The `n` low bytes of a number, least significant first. -/
def toBytes (v : Nat) : Nat → List Byte
  | 0 => []
  | n + 1 => BitVec.ofNat 8 v :: toBytes (v / 256) n

/-- Integer square root by bits: the greatest r < 2^n with r * r ≤ v. -/
def isqrt (v : Nat) : Nat → Nat → Nat
  | 0, r => r
  | n + 1, r => if (r + 2 ^ n) * (r + 2 ^ n) ≤ v then isqrt v n (r + 2 ^ n) else isqrt v n r

/-- Is a half frozen for diagnosis (R220) or without supply? -/
def Referee.hs (r : Referee) : Half → HalfState
  | .A => r.hsA
  | .B => r.hsB
/-- Is the STOP_REQ line of a half asserted: by the referee's decisions, or for the pipes, both lines in paired operation and the
half's own in split (R264)? -/
def Referee.stopLine (r : Referee) (d : Dev) (h : Half) : Bool :=
  (match h with | .A => r.stopA | .B => r.stopB) || (if r.split then d.stopReqs.contains h else d.stopReqs ≠ [])
/-- Is a half in half standby (R481)? -/
def Referee.sby (r : Referee) : Half → Bool
  | .A => r.sbyA
  | .B => r.sbyB
/-- A half whose blocks run: not in QUARANTINE (R220), not in OFF, not in half standby. -/
def Referee.live (r : Referee) (h : Half) : Bool := r.hs h ≠ .quarantine && r.hs h ≠ .off && !r.sby h
/-- Do the cores, DMA channels and timers of a region run: a half's as `live` says and once its memories are filled (R332), the service
region's once it is released? -/
def State.regionOn (s : State) (r : Nat) : Bool :=
  if r = 2 then s.dev.svcUp
  else s.ref.live (Half.ofRegion r) && !s.dev.on (hLoc (Half.ofRegion r) .mec) MEC_STAT.FILLING
/-- Does the clock of a page's block run (R481)? -/
def Dev.clocked (d : Dev) (l : Loc) : Bool := d.on l PG_CTL.ENABLE
/-- A command to a block of a half: no effect while the half is frozen or off. -/
def onHalf (h : Half) (f : State → Dev) : State → Answer := onDev (fun s => if s.ref.live h then f s else s.dev)
/-- An act of a block of a half by itself: no effect while the half is frozen or off or the block's clock is gated. -/
def onBlock (h : Half) (l : Loc) (f : State → Dev) : State → Answer :=
  onDev (fun s => if s.ref.live h && s.dev.clocked l then f s else s.dev)
/-- An act of a block of a half that also stores to memory. -/
def onBlockMem (h : Half) (l : Loc) (f : State → List MemOp × Dev) : State → Answer :=
  onMem (fun s => if s.ref.live h && s.dev.clocked l then f s else ([], s.dev))
/-- An act of a block of the service region: no effect while it is not released or the block's clock is gated. -/
def onSvc (l : Loc) (f : State → Dev) : State → Answer := onDev (fun s => if s.dev.svcUp && s.dev.clocked l then f s else s.dev)
/-- A register access of the service region: no effect while it is not released. -/
def onSvcReg (f : State → Dev) : State → Answer := onDev (fun s => if s.dev.svcUp then f s else s.dev)
/-- A register write that a page accepts: counted in PG_SEQ (R486), then acted on. -/
def Dev.seq (d : Dev) (l : Loc) : Dev := d.wrap (l / 0x100000 * 0x100000) PG_SEQ.WRITES
/-- The half that rejoins and takes the register writes of half `h` over: from the start of STATE (R221 step 3). -/
def Referee.rejoinerOf (r : Referee) (h : Half) : Option Half :=
  match r.rjHalf with
  | none => none
  | some x => if x.peer = h ∧ 2 ≤ r.rjPhase ∧ r.hs x = .rejoining then some x else none
/-- A register write given as a row of its own names no master: it counts as a host's or a service core's, so that the half that rejoins takes it over
as well (R221 step 3; notes/assumptions/114.md). -/
def forwarded (h : Half) (f : Half → State → Answer) (s : State) : Answer :=
  match f h s, s.ref.rejoinerOf h with
  | .next t, some x => f x t
  | o, _ => o
/-- A register write of a known master: only one from outside the half goes over. -/
def forwardedBy (m : Master) (h : Half) (f : Half → State → Answer) : State → Answer := if m.outside then forwarded h f else f h
/-- The same for a page of region `r`. -/
def forwardedR (r : Fin 3) (f : Fin 3 → State → Answer) (s : State) : Answer :=
  if r.val = 2 then f r s else forwarded (Half.ofRegion r.val) (fun h => f ⟨h.n, by cases h <;> decide⟩) s
/-- A register write to a half's page. -/
def onWrite (h : Half) (l : Loc) (f : State → Dev → Dev) : State → Answer := onHalf h (fun s => f s (s.dev.seq l))

/-! ### The rasters of the display heads (R384, R392, R395) -/

/-- A standard mode (Table 17.1): active area, pixel clock in kHz, front porch, sync and back porch of a line in pixels and of a frame in lines, and
whether each sync is high while asserted. -/
structure Timing where
  w : Nat
  h : Nat
  khz : Nat
  hfp : Nat
  hsync : Nat
  hbp : Nat
  vfp : Nat
  vsync : Nat
  vbp : Nat
  hpos : Bool
  vpos : Bool
deriving DecidableEq, Repr
/-- The timing of a mode. -/
def timing (mode : Nat) : Timing :=
  match mode with
  | 0 => ⟨800, 480, 33300, 40, 128, 88, 10, 2, 33, false, false⟩
  | 1 => ⟨1024, 600, 51200, 160, 20, 140, 12, 3, 20, false, false⟩
  | 2 => ⟨1280, 800, 71000, 48, 32, 80, 3, 6, 14, true, false⟩
  | 3 => ⟨1366, 768, 72000, 14, 56, 64, 1, 3, 28, true, true⟩
  | 4 => ⟨1920, 1080, 148500, 88, 44, 148, 4, 5, 36, true, true⟩
  | 5 => ⟨1920, 1200, 154000, 48, 32, 80, 3, 6, 26, true, false⟩
  | 6 => ⟨1280, 1024, 108000, 48, 112, 248, 1, 3, 38, true, true⟩
  | _ => ⟨1024, 768, 65000, 24, 136, 160, 3, 6, 29, false, false⟩
/-- Pixel clocks of a line, and lines of a frame. -/
def Timing.htotal (t : Timing) : Nat := t.w + t.hfp + t.hsync + t.hbp
def Timing.vtotal (t : Timing) : Nat := t.h + t.vfp + t.vsync + t.vbp
/-- The active area of a mode. -/
def modeSize (mode : Nat) : Nat × Nat := ((timing mode).w, (timing mode).h)
/-- The DHD page of a head. -/
def dhdL (c : Nat) : Loc := sLoc .dhd c
/-- A head. -/
def Dev.head (d : Dev) (c : Nat) : Head := SMap.get (fun _ => {}) d.heads c
def Dev.modHead (d : Dev) (c : Nat) (f : Head → Head) : Dev := { d with heads := SMap.modify (fun _ => ({} : Head)) d.heads c f }
/-- Does head 1 run in command mode? -/
def Dev.cmdMode (d : Dev) : Bool := d.on (dhdL 1) DHD_CFG.CMDMODE && d.on (dhdL 1) DHD_STAT.RUN
/-- The present raster line of a head (R384, R392–R395). The raster was last placed, at line DHD_STAT.LINE as stored, at `placed`; from there it runs at
its nominal clock, and waits for the command of its latch point before line V. In command mode it rests at line V and a transfer has its own pace
(notes/assumptions/122.md). -/
def Dev.rasterLine (d : Dev) (c : Nat) : Nat :=
  let l := dhdL c
  let t := timing (d.g l DHD_CFG.MODE)
  if !d.on l DHD_STAT.RUN then 0
  else if c = 1 ∧ d.cmdMode then (if (d.head 1).transfer then Config.transferLine d.tbS % (t.h + 1) else t.h)
  else
    let n := d.g l DHD_STAT.LINE + (d.tbS - (d.head c).placed) * t.khz / (100000 * t.htotal)
    if n < t.vtotal then n else min (n - t.vtotal) (t.h - 1)
/-- DHD_STAT as it reads: the stored RUN and LOCKED, and the raster's line. -/
def Dev.headStat (d : Dev) (c : Nat) : Nat :=
  let l := dhdL c
  let line := d.rasterLine c
  d.g l DHD_STAT.RUN + d.g l DHD_STAT.LOCKED * 2 + b2n (d.on l DHD_STAT.RUN && decide ((modeSize (d.g l DHD_CFG.MODE)).2 ≤ line)) * 4 + line * 2 ^ 16

end Sys2Proof.Machine
end

