-- ==== Sys2Proof/Machine/Ecc.lean ====
section
/-!
DEFINITION. Error correction (chapter 13): the on-chip memories of Table 13.2, what a corrected and an uncorrectable word do
to counters, logs, buckets and the scrubber's source FIFO (R334–R336), the walkers (R337), command parity and refresh
(R325, R326).
-/
namespace Sys2Proof.Machine

open Sys2Proof

/-- One memory of a region (Table 13.2): its page's block and instance, memory index, ECC words, whether it is privileged, and
where in memory it is mapped (Table 13.3). -/
structure EccMem where
  block : Block
  inst : Nat
  mem : Nat
  words : Nat
  priv : Bool
  base : Option Nat := none
deriving DecidableEq, Repr

/-- The memories of a half, in the order of Table 13.2. -/
def halfMems (h : Nat) : List EccMem :=
  let eng (m w : Nat) (p : Bool) := (List.range 8).map (fun e => (⟨.row, e, m, w, p, none⟩ : EccMem))
  eng 0 65536 false ++ eng 1 32768 false
    ++ (List.range 8).map (fun e => ⟨.row, e, 2, 32768, false, some (0x1100200000 + 0x1000000 * h + 0x40000 * e)⟩)
    ++ eng 3 8192 true ++ eng 4 16384 true
    ++ [⟨.hrn, 0, 0, 65536, true, none⟩, ⟨.aeq, 0, 0, 458752, true, none⟩, ⟨.aeq, 0, 1, 196608, true, none⟩]
    ++ (List.range 20).map (fun c => ⟨.kxc, c, 0, 8192, false, some (0x1100000000 + 0x1000000 * h + 0x10000 * c)⟩)
    ++ (List.range 20).map (fun c => ⟨.kxc, c, 1, 16384, false, none⟩)
    ++ [⟨.ucs, 0, 0, 8192, true, none⟩, ⟨.lpe, 0, 0, 40960, false, none⟩, ⟨.lpe, 1, 0, 40960, false, none⟩, ⟨.seal, 0, 0, 4096, false, none⟩]
/-- The memories of the service region, in the order of Table 13.2. -/
def svcMems : List EccMem :=
  [⟨.prz, 0, 0, 2097152, false, some 0x1102000000⟩, ⟨.prz, 0, 1, 1048576, false, some 0x1103000000⟩, ⟨.prz, 0, 2, 44032, false, none⟩]
    ++ (List.range 8).map (fun c => ⟨.kxc, c, 0, 8192, false, some (0x1103800000 + 0x10000 * c)⟩)
    ++ (List.range 8).map (fun c => ⟨.kxc, c, 1, 16384, false, none⟩)
    ++ [⟨.ucs, 0, 0, 4096, true, none⟩, ⟨.aud, 0, 0, 32768, false, none⟩]

/-- Does a system address lie in the layer L7 range of frame SRAM (R377)? -/
def Dev.inL7 (d : Dev) (a : Nat) : Bool :=
  let l := sLoc .prz 2
  let lo := 0x1102000000 + d.g l PRZ_L7RANGE.BASE * 65536
  lo ≤ a && a < lo + d.g l PRZ_L7RANGE.SIZE * 65536
/-- Is a word of a memory privileged (Table 13.2)? -/
def Dev.eccPriv (d : Dev) (e : EccMem) (w : Nat) : Bool :=
  e.priv || (e.block = .prz && e.mem = 0 && d.inL7 (0x1102000000 + 8 * w))

/-- The source FIFO of a scrubber. -/
def Dev.esrc (d : Dev) : Half → List Nat
  | .A => d.esrcA
  | .B => d.esrcB
def Dev.setEsrc (d : Dev) (h : Half) (q : List Nat) : Dev :=
  match h with
  | .A => { d with esrcA := q }
  | .B => { d with esrcB := q }
/-- The half a page of a half belongs to. -/
def halfOfPage (p : Nat) : Option Half := if p / 4096 < 2 then some (Half.ofRegion (p / 4096)) else none
/-- A source entry (R338): page, memory, kind (0 CE_LOG, 1 BUCKET, 2 UE). It goes to the scrubber of the page's half, and for a page of the
service region or the referee to the scrubber `walker` that walks them. -/
def Dev.sourceEntry (d : Dev) (walker : Half) (p mem kind : Nat) : Dev :=
  let by_ := (halfOfPage p).getD walker
  let l := hLoc by_ .scb
  if (d.esrc by_).length < 16 then
    (d.setEsrc by_ (d.esrc by_ ++ [p % 4096 + p / 4096 * 2 ^ 12 + mem * 2 ^ 16 + kind * 2 ^ 20 + 2 ^ 31])).raise l kind
  else d.sat l SCB_ELOST.LOST

/-- Log an address of a page (R334): counted but not logged again when it is there. Answers whether it is new. -/
def Dev.eccEntry (d : Dev) (p entry : Nat) : Bool × Dev :=
  let l := locOf p
  let valid := d.g l PG_ECC_LOG_IDX.VALID
  let next := d.g l PG_ECC_LOG_IDX.NEXT
  if (List.range 8).any (fun i => i < valid && SMap.get (fun _ => 0) d.eccLog (p * 8 + i) % 2 ^ 31 = entry % 2 ^ 31) then (false, d)
  else (true, (({ d with eccLog := SMap.set (fun _ => 0) d.eccLog (p * 8 + next) entry }).p l PG_ECC_LOG_IDX.NEXT (next + 1)).p l
    PG_ECC_LOG_IDX.VALID (min 8 (valid + 1)))

/-- The log address of a word (Table 13.5): a MEC page logs the address of the 64-byte burst in its channel, divided by 8 (a channel holds every
other 256 bytes of the half, R324; DEDUCED, notes/assumptions/56.md); other pages log the word with its memory index above it. -/
def eccAddr (p mem w : Nat) : Nat :=
  match pageRowOf p with
  | some (r, _) => if r.block = .mec then (w / 64 * 32 + w % 32) / 8 * 8 % 2 ^ 31 else w % 2 ^ 24 + mem * 2 ^ 24
  | none => 0

/-- A correction in a page's memory (R334, R335): the corrected word waits to be written back (R331). -/
def Dev.eccCe (d : Dev) (by_ : Half) (p mem w : Nat) (priv : Bool) : Dev :=
  let l := locOf p
  let d0 := { d.sat l PG_ECC_CE.CE with ceWords := if d.ceWords.contains (p, mem, w) then d.ceWords else d.ceWords ++ [(p, mem, w)] }
  let d1 := d0.eccEntry p (eccAddr p mem w)
  if !priv then (if d1.1 then d1.2.sourceEntry by_ p mem 0 else d1.2)
  else
    let level := min 65535 (SMap.get (fun _ => 0) d1.2.buckets p + d.g l PG_BUCKET.FILL)
    let spills := d.g l PG_BUCKET.FILL ≠ 0 && d.g l PG_BUCKET.THR ≤ level
    let d2 := { d1.2 with buckets := SMap.set (fun _ => 0) d1.2.buckets p (if spills then 0 else level) }
    let d3 := if spills then d2.sourceEntry by_ p mem 1 else d2
    match halfOfPage p with
    | none => d3
    | some h => { d3 with seals := SMap.modify (fun _ => ({} : SealUnit)) d3.seals h.n (fun u =>
        { u with ceAt := d3.tb h :: u.ceAt.filter (fun t => decide (d3.tb h < t + 100000)), bucketAt := if spills then d3.tb h + 1 else u.bucketAt }) }
/-- What an uncorrectable word of frame SRAM or Condenser SRAM does to the compositions (R376, R378): one in the L7 range makes L7
stale, one in a Condenser region makes the prefix invalid. -/
def Dev.przUe (d : Dev) (mem w : Nat) (priv : Bool) : Dev :=
  [0, 1].foldl (fun y c =>
    let l := sLoc .prz c
    let lo := d.g l PRZ_COND.BASE * 8192
    { y with prisms := SMap.modify (fun _ => ({} : Prism)) y.prisms c (fun x =>
      { x with ueL7 := x.ueL7 || (decide (mem = 0) && priv)
               invalid := x.invalid || (decide (mem = 1) && decide (lo ≤ w) && decide (w < lo + d.g l PRZ_COND.SIZE * 8192)) }) }) d
/-- An uncorrectable word of a page's memory (R336): counted, logged, a source entry; a privileged memory of a half reports
UE_PRIV, one of the service region is logged by the referee and accuses no half (R209, Table 13.4; notes/assumptions/88.md). -/
def Dev.eccUe (d : Dev) (by_ : Half) (p mem w : Nat) (priv : Bool) (obj : Nat := 0) : Dev :=
  let l := locOf p
  let d0 := ((d.sat l PG_ECC_UE.UE).eccEntry p (eccAddr p mem w + 2 ^ 31)).2.sourceEntry by_ p mem 2
  let d1 := if p = pageOf 2 .prz 0 then d0.przUe mem w priv else d0
  match priv, halfOfPage p with
  | true, some h => d1.reportP h 0x04 obj l
  | true, none =>
    if p / 4096 = 2 then { d1 with reports := d1.reports ++ [⟨by_, 0x04, obj, d1.g l PG_ID.TYPE * 2 ^ 16 + d1.g l PG_ID.INSTANCE * 2 ^ 24, false, true⟩] }
    else d1
  | _, _ => d1
/-- Under which keys an uncorrectable word stands: the entries it holds for the harness banks (two to a word) and the motif
attribute stores (four words to an entry), else the word itself. -/
def ueKeys (e : EccMem) (p w : Nat) : List (Nat × Nat × Nat) :=
  if e.block = .hrn then [(p, w / 32768, 2 * (w % 32768)), (p, w / 32768, 2 * (w % 32768) + 1)]
  else if e.block = .row ∧ e.mem = 4 then [(p, 4, w / 4)]
  else [(p, e.mem, w)]
/-- Does an uncorrectable word of a memory stay so until it is written (R331)? A cache line is fetched again at once (Table 13.4), which writes it. -/
def EccMem.kept (e : EccMem) : Bool := !(e.block = .row && e.mem ≤ 1)
/-- Mark a word uncorrectable where it lies. -/
def Dev.markUe (d : Dev) (e : EccMem) (p w : Nat) : Dev :=
  match e.base with
  | some b => if d.ueLines.contains (b / 8 + w) then d else { d with ueLines := d.ueLines ++ [b / 8 + w] }
  | none => if e.kept then { d with ueWords := d.ueWords ++ (ueKeys e p w).filter (fun x => !d.ueWords.contains x) } else d
/-- Is a word of a memory uncorrectable? -/
def Dev.wordUe (d : Dev) (e : EccMem) (p w : Nat) : Bool :=
  match e.base with
  | some b => d.ueLines.contains (b / 8 + w)
  | none => (ueKeys e p w).any (fun x => d.ueWords.contains x)

/-! ### Scrubbers (R337) -/

/-- Does the scrubber of this half walk the service memories (R337)? -/
def Referee.svcWalk (r : Referee) (h : Half) : Bool := if r.split then r.svcHost = h else r.hs h = .charge
/-- The scrubber that walks the service region. -/
def Referee.walker (r : Referee) : Half := if r.svcWalk .B then .B else .A
/-- The memories a scrubber walks, in order, with their pages: its half's, the service region's, the three copies of the referee state. -/
def State.walked (s : State) (h : Half) : List (EccMem × Nat) :=
  (halfMems h.n).map (fun e => (e, pageOf h.n e.block e.inst)) ++
    (if s.ref.svcWalk h && s.dev.on (hLoc h .scb) SCB_CFG.SVC then svcMems.map (fun e => (e, pageOf 2 e.block e.inst)) ++
      [((⟨.ref, 0, 0, 3072, true, none⟩ : EccMem), pageOf 3 .ref 0)] else [])
/-- The MEC page of a half-relative address (R324). -/
def mecPage (h : Half) (a : Nat) : Nat := pageOf h.n .mec (a / 256 % 2)
/-- SCRUB_DRAM_READ: the walker reads a 64-byte burst; `word` is the 64-bit word of it that `found` is about. -/
def scrubDram (s : State) (h : Half) (found : Nat) (word : Nat) : Dev :=
  let d := s.dev
  let l := hLoc h .scb
  let b := d.g l SCB_DPOS.BURST
  let size := d.dramSize h
  if !d.on l SCB_CFG.DEN ∨ size = 0 then d
  else
    let p := mecPage h (b * 64)
    let base := h.n * 2 ^ 35 / 8
    let bad := d.ueLines.filter (fun w => w / 8 = base / 8 + b)
    let w := b * 8 + word
    let d1 := if found = 2 ∧ !bad.contains (base + w) then { d with ueLines := d.ueLines ++ [base + w] } else d
    let bad1 := if found = 2 ∧ !bad.contains (base + w) then bad ++ [base + w] else bad
    let d2 := bad1.foldl (fun y x => y.eccUe h p 0 (x - base) false) d1
    let d3 := if found = 1 ∧ !bad.contains (base + w) then d2.eccCe h p 0 w false else d2
    if (b + 1) * 64 < size then d3.p l SCB_DPOS.BURST (b + 1)
    else ((d3.p l SCB_DPOS.BURST 0).wrap l SCB_PASS.DRAM).raise l 4
def execScrubDramRead (h : Half) (found : Fin 3) (word : Fin 8) : State → Answer := onBlock h (hLoc h .scb) (fun s => scrubDram s h found word)

/-! ### Write-back, buckets, logs -/

/-- ECC_WRITEBACK (R331): the oldest corrected word is written back; its data is what it was. -/
def execEccWriteback : State → Answer := onDev (fun s => { s.dev with ceWords := s.dev.ceWords.drop 1 })
/-- The leak period of a page's bucket, 2^LEAKP microseconds in ticks, and the tick of its last leak. -/
def Dev.leakPeriod (d : Dev) (p : Nat) : Nat := 100 * 2 ^ d.g (locOf p) PG_BUCKET.LEAKP
def Dev.lastLeak (d : Dev) (p : Nat) : Nat := SMap.get (fun _ => 0) d.leaks p
/-- BUCKET_LEAK (R335): when a leak period has passed since the last leak, a nonzero level loses one. Earlier, nothing happens. -/
def execBucketLeak (rg : Fin 4) (pg : BitVec 12) : State → Answer :=
  let p := rg.val * 4096 + pg.toNat
  onDev (fun s =>
    if s.dev.lastLeak p + s.dev.leakPeriod p ≤ s.dev.tbR rg then
      { s.dev with
        buckets := SMap.modify (fun _ => 0) s.dev.buckets p (fun v => v - 1)
        leaks := SMap.set (fun _ => 0) s.dev.leaks p (s.dev.tbR rg - (s.dev.tbR rg - s.dev.lastLeak p) % s.dev.leakPeriod p) }
    else s.dev)
/-- Pop the oldest source entry: 0 when there is none. -/
def Dev.esrcPop (d : Dev) (h : Half) : Nat × Dev := ((d.esrc h).headD 0, d.setEsrc h ((d.esrc h).drop 1))
def execScbEsrcPop (h : Half) : State → Answer :=
  onHalf h (fun s => let x := s.dev.esrcPop h; { x.2 with readData := BitVec.ofNat 32 x.1 })
/-- Clear a page's error log (R339). -/
def Dev.eccClear (d : Dev) (p : Nat) : Dev :=
  (({ d with eccLog := SMap.erase (fun k => k / 8 = p) d.eccLog }).p (locOf p) PG_ECC_LOG_IDX.NEXT 0).p (locOf p) PG_ECC_LOG_IDX.VALID 0
/-- ECC_LOG_CLEAR (R339). -/
def execEccLogClear (rg : Fin 4) (pg : BitVec 12) : State → Answer :=
  let clear (p : Nat) : State → Answer := onDev (fun s => match pageRowOf p, halfOfPage p with
    | none, _ => s.dev
    | _, some h => if s.ref.live h then (s.dev.seq (locOf p)).eccClear p else s.dev
    | _, none => (s.dev.seq (locOf p)).eccClear p)
  if rg.val < 2 then forwarded (Half.ofRegion rg.val) (fun h => clear (h.n * 4096 + pg.toNat)) else clear (rg.val * 4096 + pg.toNat)

/-! ### Memory controllers -/

/-- CA_PARITY_ERROR (R325): a command is repeated once; a second error is an uncorrectable error of its access, at a half-relative 64-bit
word: the next access to that word takes it. -/
def execCaParityError (h : Half) (ch : Fin 2) (again : Bool) (word : BitVec 32) : State → Answer :=
  let l := hLoc h .mec ch
  onBlock h l (fun s =>
    let d1 := (s.dev.sat l MEC_ERR.CAPAR).raise l 0
    if again then
      (let d2 := (d1.sat l MEC_ERR.CAFAIL).eccUe h (pageOf h.n .mec ch) 0 word.toNat false
       { d2 with caBad := d2.caBad ++ [h.n * 2 ^ 32 + word.toNat] })
    else d1)
/-- The refresh rate of a channel (R326): 2x while AUTO2X = 1 and the device is above 85 °C. -/
def Dev.refreshRate (d : Dev) (l : Loc) : Dev :=
  d.p l MEC_STAT.REF2X (b2n (d.on l MEC_CFG.AUTO2X && decide (85 < sgn 8 (d.g l MEC_TEMP.TEMP))))
/-- REF2X (R326): a new device temperature; the refresh rate follows it while AUTO2X = 1. -/
def execRef2x (h : Half) (ch : Fin 2) (temp : BitVec 8) : State → Answer :=
  let l := hLoc h .mec ch
  onBlock h l (fun s =>
    (s.dev.p l MEC_TEMP.TEMP temp.toNat).refreshRate l)

end Sys2Proof.Machine
end

