-- ==== Sys2Proof/Machine/Access.lean ====
section
/-!
DEFINITION. Accesses to the memories of the system map (R25, R33, R34): the domain of a master (R22, R23), where the service
window leads, reads, and writes with what R331 keeps of a word that is uncorrectable.
-/
namespace Sys2Proof.Machine

open Sys2Proof

/-! ### The map and what goes wrong in it -/

/-- The first address of the register pages, and the address after the last page. -/
def pagesLo : Nat := 0x1000000000
def pagesHi : Nat := 0x1003010000
/-- Is an address a register address? -/
def isPage (a : Nat) : Bool := pagesLo ≤ a && a < pagesHi
/-- Is an address in the service window? -/
def inSw (a : Nat) : Bool := 0x1200000000 ≤ a && a < 0x1300000000
/-- Is an address reserved, or DRAM that is not populated (R25)? -/
def Dev.reserved (d : Dev) (a : Nat) : Bool :=
  if a < 2 ^ 35 then d.dramSize .A ≤ a
  else if a < 2 ^ 36 then d.dramSize .B ≤ a - 2 ^ 35
  else if a < 0x1100000000 then !isPage a
  else if a < 0x1102000000 then !(a % 0x1000000 < 0x140000 || (0x200000 ≤ a % 0x1000000 && a % 0x1000000 < 0x400000))
  else if a < 0x1200000000 then 0x1103880000 ≤ a
  else !(inSw a || (0x2000000000 ≤ a && a < 0x5000000000))
/-- An EVC records a violation or decode error: the first since its log was read; the others are counted. -/
def Dev.violation (d : Dev) (reg page off dom : Nat) (decode : Bool) : Dev :=
  let l := rLoc reg .evc
  let o := EVC_DVLOG.PAGE.off
  let d1 := if d.rd l o = 0 then d.wr l o (BitVec.ofNat 32 (page % 4096 + off % 4096 * 2 ^ 12 + dom % 8 * 2 ^ 24 + b2n decode * 2 ^ 28))
    else d.sat l EVC_DVCNT.COUNT
  d1.raise l (if decode then 1 else 0)
/-- A write dropped under R24: on the EVC of the page's region; the referee's page reports to the service EVC, which has no other. -/
def Dev.dropped (d : Dev) (p off dom : Nat) : Dev := d.violation (if p / 4096 = 3 then 2 else p / 4096) p off dom false
/-- An access to a reserved address (R25): the event records the master (none for a unit that Table 01.4 does not list) and its domain. -/
def Dev.decodeErr (d : Dev) (m : Option Master) (a dom : Nat) : Dev := { d.violation 2 (a / 4096) (a % 4096) dom true with decBy := some (m, dom) }

/-! ### Masters and windows -/

/-- The domain that a master's accesses carry (Table 01.4, R23, R434). -/
def Dev.domainOf (d : Dev) (r : Referee) : Master → Nat
  | .referee => 0
  | .core rg c => if rg.val < 2 then rg.val + 1 else if c.val = 7 then 4 else 3
  | .dma rg => rg.val + 1
  | .loupe h _ => h.n + 1
  | .host h false => h.n + 1
  | .mailbox h => h.n + 1
  | .host h true =>
    match d.g (hLoc h .hif) HIF_WIN.DOM with
    | 1 => 3
    | 2 => if r.d4 = some h then 4 else h.n + 1
    | 3 => if r.session = some h then 5 else h.n + 1
    | _ => h.n + 1
  | .blitter => 3
  | .prism => 3

/-- The half that serves the service window (R34). -/
def Referee.server (r : Referee) : Half := if r.split then r.svcHost else r.inCharge
/-- The first address of a half's service-window area. -/
def Referee.swBase (r : Referee) (h : Half) : Nat := h.n * 2 ^ 35 + (match h with | .A => r.swA | .B => r.swB) * 2 ^ 32
/-- Where a byte of the peer's DRAM goes in the rejoining half `x` (R221): a range of the copy list to the same offset, the service
window to the service window of `x`; `off` is half-relative. -/
def Referee.copyOf (r : Referee) (x : Half) (off : Nat) : Option Nat :=
  let sw := r.swBase x.peer % 2 ^ 35
  if sw ≤ off ∧ off < sw + 2 ^ 32 then some (r.swBase x + (off - sw))
  else if r.rjlist.any (fun e => e % 65536 * 2 ^ 20 ≤ off && off < (e % 65536 + e / 65536 % 65536) * 2 ^ 20) then some (x.n * 2 ^ 35 + off)
  else none
/-- The addresses a write reaches: both copies of the service window, or the serving half's alone while a half is out (R34);
and, from the start of COPY, the rejoining half's copy of a forwarded DRAM write (R221). -/
def Referee.targets (r : Referee) (a : Nat) : List Nat :=
  let base :=
    if inSw a then
      if r.split then [r.swBase r.svcHost + (a - 0x1200000000)]
      else ([Half.A, Half.B].filter (fun h => h = r.inCharge || r.hs h = .standby || r.hs h = .charge)).map (fun h => r.swBase h + (a - 0x1200000000))
    else [a]
  match r.rjHalf with
  | none => base
  | some x =>
    if r.rjPhase = 0 then base
    else base ++ base.filterMap (fun b => if b < 2 ^ 36 ∧ b / 2 ^ 35 = x.peer.n then r.copyOf x (b % 2 ^ 35) else none)

/-- Where an address of the outbound ranges leads (R435): the half, whether it is its host endpoint or its root port, and the address there; at the host
HIF_OBASE, its bits [35:0] ignored, plus the offset in the range. -/
def Dev.outboundAt (d : Dev) (a : Nat) : Option (Half × Bool × Nat) :=
  if 0x3000000000 ≤ a ∧ a < 0x5000000000 then
    let h := Half.ofRegion ((a - 0x3000000000) / 2 ^ 36)
    let l := hLoc h .hif
    some (h, true, (d.g l HIF_OBASE_LO.OBASE + d.g l HIF_OBASE_HI.OBASE * 2 ^ 32) / 2 ^ 36 * 2 ^ 36 + (a - 0x3000000000) % 2 ^ 36)
  else if 0x2000000000 ≤ a ∧ a < 0x3000000000 then some (Half.ofRegion (a / 2 ^ 35 % 2), false, a % 2 ^ 35)
  else none
/-- A byte as a master reads it from memory. -/
def readByte (r : Referee) (d : Dev) (m : Mem) (a0 : Nat) : Byte :=
  let a := if inSw a0 then r.swBase r.server + (a0 - 0x1200000000) else a0
  match d.outboundAt a with
  | some (h, host, b) =>
    if host ∧ !d.on (hLoc h .hif) HIF_STAT.LINKUP then 0 else Config.outsideByte (2 * h.n + b2n host) b d.freeCount
  | none =>
  if 0x1100000000 ≤ a ∧ a < 0x1102000000 ∧ 0x200000 ≤ a % 0x1000000 ∧ a % 0x1000000 < 0x400000 then Config.poolByte a d.freeCount
  else if 0x1102000000 ≤ a ∧ a < 0x1103000000 ∧ d.byteUe a then 0
  else fetch d m a
/-- `n` bytes as a master reads them. -/
def readBytes (r : Referee) (d : Dev) (m : Mem) (a : Nat) (n : Nat) : List Byte := (List.range n).map (fun i => readByte r d m (a + i))
/-- `n` bytes as a little-endian number. -/
def readNum (r : Referee) (d : Dev) (m : Mem) (a : Nat) : Nat → Nat
  | 0 => 0
  | n + 1 => (readByte r d m a).toNat + 256 * readNum r d m (a + 1) n
/-- Where a read leads: the service window to the DRAM of the half that serves it (R34). -/
def Referee.served (r : Referee) (a0 : Nat) : Nat := if inSw a0 then r.swBase r.server + (a0 - 0x1200000000) else a0
/-- Does a read meet an uncorrectable word of DRAM or local RAM, or a failed command (Table 13.4, R325)? -/
def readUe (r : Referee) (d : Dev) (a0 n : Nat) : Bool :=
  let a := r.served a0
  !(0x1102000000 ≤ a && a < 0x1103800000) && (d.ueLines ++ d.caBad).any (fun w => a / 8 ≤ w && w ≤ (a + n - 1) / 8)

/-- The page and memory index that report a memory address (Table 13.2). -/
def eccPageOf (a : Nat) : Nat × Nat :=
  if a < 2 ^ 36 then (mecPage (Half.ofRegion (a / 2 ^ 35)) (a % 2 ^ 35), 0)
  else if a < 0x1102000000 then (pageOf (a / 0x1000000 % 2) .kxc (a % 0x1000000 / 0x10000), 0)
  else if a < 0x1103000000 then (pageOf 2 .prz 0, 0)
  else if a < 0x1103800000 then (pageOf 2 .prz 0, 1)
  else (pageOf 2 .kxc ((a - 0x1103800000) / 0x10000), 0)
/-- The word index in its memory of a memory address. -/
def eccWordOf (a : Nat) : Nat :=
  if a < 2 ^ 36 then a % 2 ^ 35 / 8
  else if a < 0x1102000000 then a % 0x10000 / 8
  else if a < 0x1103800000 then a % 0x1000000 / 8
  else a % 0x10000 / 8
/-- The memories of the map that are read only (Table 13.3): the rendered-row pools and the Condenser. -/
def readOnly (a : Nat) : Bool :=
  (0x1100000000 ≤ a && a < 0x1102000000 && 0x200000 ≤ a % 0x1000000 && a % 0x1000000 < 0x400000) || (0x1103000000 ≤ a && a < 0x1103800000)
/-- Is a byte in a range no one writes through the map (Table 13.3, R377)? -/
def Dev.writeShut (d : Dev) (dom a : Nat) : Bool := (d.inL7 a && dom ≠ 4) || readOnly a
/-- An uncorrectable 64-bit word of mapped memory, by number, met by an access (R336). -/
def Dev.wordHit (d : Dev) (walker : Half) (w : Nat) : Dev :=
  d.eccUe walker (eccPageOf (8 * w)).1 (eccPageOf (8 * w)).2 (eccWordOf (8 * w)) (d.inL7 (8 * w))
/-- The system address of a word of mapped memory (Tables 13.2 and 13.3) under its page and memory index. -/
def eccSysOf (p mem w : Nat) : Option Nat :=
  match pageRowOf p with
  | some (row, i) =>
    (match row.block with
     | .mec => some (p / 4096 * 2 ^ 35 + 8 * w)
     | .row => if mem = 2 then some (0x1100200000 + 0x1000000 * (p / 4096) + 0x40000 * i + 8 * w) else none
     | .kxc => if mem = 0 then some ((if p / 4096 < 2 then 0x1100000000 + 0x1000000 * (p / 4096) else 0x1103800000) + 0x10000 * i + 8 * w) else none
     | .prz => if mem = 0 then some (0x1102000000 + 8 * w) else if mem = 1 then some (0x1103000000 + 8 * w) else none
     | _ => none)
  | none => none
/-- The corrected words not yet written back that an access to `n` bytes at `a` touches (R331). -/
def Dev.ceIn (d : Dev) (a n : Nat) : List (Nat × Nat × Nat) :=
  d.ceWords.filter (fun e => match eccSysOf e.1 e.2.1 e.2.2 with | some b => decide (a < b + 8) && decide (b < a + n) | none => false)
/-- What the code does at a read of `n` bytes at `a` (R331, R334, R336): a word still to be written back is corrected again; an uncorrectable one is
counted and logged; a failed command (R325) has been counted and is done with. -/
def Dev.readEcc (d : Dev) (walker : Half) (a n : Nat) : Dev :=
  let hit (w : Nat) : Bool := a / 8 ≤ w && w ≤ (a + n - 1) / 8
  let d1 := (d.ueLines.filter hit).foldl (fun y w => y.wordHit walker w) d
  let d2 := (d.ceIn a n).foldl (fun y e => y.eccCe walker e.1 e.2.1 e.2.2 (d.inL7 ((eccSysOf e.1 e.2.1 e.2.2).getD 0))) d1
  if d.caBad = [] then d2 else { d2 with caBad := d2.caBad.filter (fun w => !hit w) }
/-- A write lands on pages that the NVH of their half is loading: their content is undefined (R351). -/
def Dev.dirtied (d : Dev) (a n : Nat) : Dev :=
  let k := a / 2 ^ 35
  let on (g : Nat) : Bool := a % 2 ^ 35 / 65536 ≤ g && g ≤ (a % 2 ^ 35 + n - 1) / 65536
  if 2 ≤ k ∨ !(SMap.get (fun _ => ({} : Nvh)) d.nvhs k).out.any (fun r => on r.page) then d
  else { d with nvhs := SMap.modify (fun _ => ({} : Nvh)) d.nvhs k (fun y => { y with out := y.out.map (fun r => { r with dirty := r.dirty || on r.page }) }) }
/-- A write to memory at one address: a word that is uncorrectable takes it only when the write covers all of it, and is then
correct again; else nothing of that word is written and the error counts. A write-back that a word still waits for is discarded (R331). -/
def Dev.storeAt (d : Dev) (walker : Half) (dom a : Nat) (bs : List Byte) : List MemOp × Dev :=
  let n := bs.length
  let covered (w : Nat) : Bool := a ≤ 8 * w && 8 * w + 8 ≤ a + n
  let part := d.ueLines.filter (fun w => a / 8 ≤ w && w ≤ (a + n - 1) / 8 && !covered w)
  let ops := (d.put a bs).filter (fun o => match o with | .store x _ => !part.contains (x / 8) && !d.writeShut dom x | .fill _ _ => true)
  if n = 0 then (ops, d)
  else
    let late := d.ceIn a n
    -- a write from outside D4 into the L7 range is a domain violation (R377, R24), reported by the service region
    let d0 := match if dom = 4 then none else (List.range n).find? (fun i => d.inL7 (a + i)) with
      | some i => d.violation 2 ((a + i) / 4096) ((a + i) % 4096) dom false
      | none => d
    let d1 := { d0 with
      ueLines := d.ueLines.filter (fun w => !covered w)
      ceWords := if late = [] then d.ceWords else d.ceWords.filter (fun e => !late.contains e) }
    (ops, part.foldl (fun y w => y.wordHit walker w) (d1.dirtied a n))
/-- A master's write to memory. An outbound write leaves the part (R435, notes/assumptions/46.md). -/
def storeMem (r : Referee) (d : Dev) (by_ : Half) (dom a : Nat) (bs : List Byte) : List MemOp × Dev :=
  match d.outboundAt a with
  | some (h, host, b) => ([], { d with outs := d.outs ++ [⟨h, host, b, bs⟩] })
  | none => (r.targets a).foldl (fun x t => let y := x.2.storeAt by_ dom t bs; (x.1 ++ y.1, y.2)) ([], d)

end Sys2Proof.Machine
end

