-- ==== Sys2Proof/Machine/Beam.lean ====
section
/-!
DEFINITION. The beam unit (chapter 02): glitch filter, quadrature decoding, hysteresis, index, interpolation, estimates,
taps and crossings, faults, predictions, the broadcast and the replica; and the time base (R29).
-/
namespace Sys2Proof.Machine

open Sys2Proof

def Dev.beam (d : Dev) (h : Half) (b : Nat) : Beam := SMap.get (fun _ => {}) d.beams (h.n * 4 + b)
def Dev.setBeam (d : Dev) (h : Half) (b : Nat) (x : Beam) : Dev :=
  { d with beams := SMap.set (fun _ => {}) d.beams (h.n * 4 + b) x }
def Dev.modBeam (d : Dev) (h : Half) (b : Nat) (f : Beam → Beam) : Dev := d.setBeam h b (f (d.beam h b))

/-- State code of Table 02.1. -/
def BeamState.code : BeamState → Nat
  | .off => 0 | .seeking => 1 | .synced => 2 | .fault => 3

/-- A field of beam `b`'s registers in the active set. -/
def Dev.bg (d : Dev) (h : Half) (b : Nat) (f : Fld) : Nat := d.g (hLoc h .beam) (f.ix b)

/-- The crossing queue of a half. -/
def Dev.xq (d : Dev) : Half → List XRec
  | .A => d.xqA
  | .B => d.xqB
def Dev.setXq (d : Dev) (h : Half) (q : List XRec) : Dev :=
  match h with | .A => { d with xqA := q } | .B => { d with xqB := q }
/-- The records the last handshake delivered. -/
def Dev.xl (d : Dev) : Half → List XRec
  | .A => d.xlA
  | .B => d.xlB
def Dev.setXl (d : Dev) (h : Half) (q : List XRec) : Dev :=
  match h with | .A => { d with xlA := q } | .B => { d with xlB := q }

/-- A(c) of R50, unwrapped: the position of the edge between count u − 1 and count u. -/
def edgePos (cpr : Nat) (u : Int) : Int :=
  (u / (cpr : Int)) * 2 ^ 32 + (u % (cpr : Int)) * 2 ^ 32 / (cpr : Int)

/-- Insert a record behind those of earlier sampling cycles, of earlier beams in its cycle, and those its beam raised before it (R61). -/
def insertX (x : XRec) : List XRec → List XRec
  | [] => [x]
  | y :: q => if x.cyc < y.cyc ∨ (x.cyc = y.cyc ∧ x.beam < y.beam) then x :: y :: q else y :: insertX x q
/-- Put a record on the crossing queue. A full queue drops and counts it, raises XING_OVF with
its code in FAULT_CAUSE and reports it (R62, R65). -/
def Dev.pushX (d : Dev) (h : Half) (x : XRec) : Dev :=
  if (d.xq h).length < 512 then d.setXq h (insertX x (d.xq h))
  else (((d.sat (hLoc h .beam) (BEAM_XLOST.XLOST.ix x.beam)).p (hLoc h .beam) (BEAM_STATE.FAULT_CAUSE.ix x.beam) 5).raise (hLoc h .beam) 24).reportP h 0x07 x.beam (hLoc h .beam)
/-- A handshake delivers the eight oldest records; each that stays has waited four sampling cycles more (R61, R66). -/
def Dev.handshake (d : Dev) (h : Half) : Dev :=
  (d.setXl h ((d.xq h).take 8)).setXq h (((d.xq h).drop 8).map (fun x => { x with wait := x.wait + 4 }))

/-- The word of a crossing record (Table 02.4). -/
def XRec.word (x : XRec) : Nat :=
  x.beam + x.tap * 2 ^ 2 + b2n x.dir * 2 ^ 8 + (match x.kind with | .crossing => 0 | .dirMarker => 1 | .stateMarker => 2) * 2 ^ 9
    + min x.wait 255 * 2 ^ 11 + x.rev % 256 * 2 ^ 19 + x.state % 8 * 2 ^ 27

/-- A direction or state marker of a beam (R61). -/
def Dev.marker (d : Dev) (h : Half) (b : Nat) (k : XKind) : Dev :=
  let x := d.beam h b
  d.pushX h { beam := b, tap := 0, dir := x.dir, kind := k, rev := (x.pos / 2 ^ 32 % 256).toNat, state := x.state.code, cyc := x.now }

/-- Sorted insertion by key, ahead of equal keys. -/
def insertTap (e : Int × Nat) : List (Int × Nat) → List (Int × Nat)
  | [] => [e]
  | x :: xs => if e.1 ≤ x.1 then e :: x :: xs else x :: insertTap e xs

/-- The angle of a tap in the active set. -/
def Dev.tapAngle (d : Dev) (h : Half) (b t : Nat) : Nat := d.g (hLoc h .beam) (BEAM_TAP.ANGLE.ix (64 * b + t)) * 256
/-- The taps that a movement from `p0` to `p1` passes, in the order of R61, each with its position (R59). Taps at one angle come in
ascending tap number (DESIGN CHOICE, notes/assumptions/21.md). -/
def Dev.tapsPassed (d : Dev) (h : Half) (b : Nat) (p0 p1 : Int) : List (Int × Nat) :=
  let l := hLoc h .beam
  let fwd : Bool := decide (p0 < p1)
  let lo := if fwd then p0 else p1
  let hi := if fwd then p1 else p0
  let hits := (List.range 64).filterMap (fun t =>
    let en := d.on l ((if fwd then BEAM_TAP.FWD else BEAM_TAP.REV).ix (64 * b + t))
    let T : Int := d.tapAngle h b t
    let q := lo + 1 + (T - (lo + 1)) % 2 ^ 32
    if en && decide (q ≤ hi) then some (if fwd then q else -q, t) else none)
  (hits.foldr insertTap []).map (fun e => (if fwd then e.1 else -e.1, e.2))

/-- Does the beam's state raise crossings (Table 02.1)? -/
def Dev.crosses (d : Dev) (h : Half) (b : Nat) : Bool :=
  match (d.beam h b).state with
  | .synced => true
  | .seeking => d.bg h b BEAM_CFG.RUN_UNSYNCED = 1
  | _ => false

/-- Move the angle in direction DIR, raising the crossings it passes (R59). A target that does not lie ahead moves nothing. -/
def Dev.moveTo (d : Dev) (h : Half) (b : Nat) (p : Int) : Dev :=
  let x := d.beam h b
  if (if x.dir then p < x.pos else x.pos < p) then
    let d1 := d.setBeam h b { x with pos := p }
    if d.crosses h b then
      (d.tapsPassed h b x.pos p).foldl (fun y qt => y.pushX h {
        beam := b, tap := qt.2, dir := x.dir, kind := .crossing, rev := (qt.1 / 2 ^ 32 % 256).toNat, state := 0, cyc := x.now, angle := d.tapAngle h b qt.2 }) d1
    else d1
  else d

/-- Restart the estimates (R54). -/
def Beam.restart (x : Beam) : Beam :=
  { x with
    hist := [], edges := 0, velK := 0, accK := 0, vel := 0, acc := 0, velEdge := 0, coarseRun := 0, tau := 0, stepPrev := 0, fast := false, hold := false, atLim := false }

/-- A beam fault (R65, Table 02.3): its event and cause; codes 1 to 3 lead to FAULT, which leaves hysteresis (DESIGN CHOICE,
notes/assumptions/99.md). -/
def Dev.beamFault (d : Dev) (h : Half) (b code : Nat) : Dev :=
  let l := hLoc h .beam
  let ev := if code = 1 then 6 * b + 3 else if code = 2 then 6 * b + 2 else if code = 3 then 6 * b + 1 else 6 * b + 4
  let d1 := (d.p l (BEAM_STATE.FAULT_CAUSE.ix b) code).raise l ev
  let d2 := if code ≤ 3 ∧ (d.beam h b).state ≠ .fault then
      (d1.modBeam h b (fun x => { x.restart with state := .fault, stopped := true, inHyst := false })).marker h b .stateMarker
    else d1
  if d.bg h b BEAM_CFG.CRITICAL = 1 then d2.reportP h 0x07 b l else d2

/-- The velocity a beam reports at sampling time `now` from the estimates of its last edge (R54), 16.16 BA32 per tick. -/
def Beam.velAt (x : Beam) (now : Nat) : Int := x.velK + (x.accK * (2 * (now : Int) - x.tc2)).tdiv (2 ^ 18)

/-- Nth entry of the edge history. -/
def Beam.edgeAt (x : Beam) (i : Nat) : Int × Nat := (x.hist.drop i).headD (0, 0)

/-- The estimates after an accepted edge in direction DIR at position `p` (R52–R54, R57). -/
def Dev.estimate (d : Dev) (h : Half) (b : Nat) (p : Int) : Dev :=
  let l := hLoc h .beam
  let x := d.beam h b
  let W := 2 ^ d.bg h b BEAM_CFG.WIN
  let aw := d.bg h b BEAM_CFG.AWIN
  let M := 2 ^ aw
  let hist := ((p, x.now) :: x.hist).take (M + W + 1)
  let y := { x with hist := hist, edges := x.edges + 1, tau := 0, stepPrev := 0, aLast := p, atLim := false }
  let e0 := y.edgeAt 0
  let w := min W (hist.length - 1)
  let ew := y.edgeAt w
  let dt0 : Int := e0.2 - ew.2
  let velK := if y.edges < 2 ∨ dt0 = 0 then 0 else ((e0.1 - ew.1) * 2 ^ 17).tdiv dt0
  let wm := min W (hist.length - 1 - M)
  let eM := y.edgeAt M
  let eMw := y.edgeAt (M + wm)
  let dtM : Int := eM.2 - eMw.2
  let S : Int := (e0.2 + ew.2 : Int) - (eM.2 + eMw.2)
  let accK := if aw = 15 ∨ y.edges < M + W ∨ wm = 0 ∨ dt0 * dtM * S = 0 then 0
    else (((e0.1 - ew.1) * dtM - (eM.1 - eMw.1) * dt0) * 2 ^ 35).tdiv (dt0 * dtM * S)
  let predicted := x.velAt x.now
  let limit : Int := d.bg h b BEAM_COARSE.COARSE
  let within : Bool := decide ((velK - predicted).natAbs ≤ limit.natAbs)
  let judged : Bool := decide (limit ≠ 0) && decide (2 ≤ x.edges)
  let run := if judged && within then x.coarseRun + 1 else 0
  let z := { y with velK := velK, accK := accK, tc2 := e0.2 + ew.2, coarseRun := run }
  let v := z.velAt z.now
  let d1 := d.setBeam h b { z with velEdge := v, vel := v, acc := accK }
  if limit = 0 then d1.p l (BEAM_STATE.PRED_COARSE.ix b) 0
  else if judged && !within then d1.p l (BEAM_STATE.PRED_COARSE.ix b) 1
  else if M ≤ run then d1.p l (BEAM_STATE.PRED_COARSE.ix b) 0
  else d1

/-- The velocity and acceleration that a beam reports, as BEAM_VEL and BEAM_ACC show them: 0 in hysteresis and in FAULT (R47, R65); a value
beyond 32 bits is not stated (notes/assumptions/101.md). -/
def Beam.repVel (x : Beam) : Nat := if x.inHyst ∨ x.state = .fault then 0 else fitS 32 x.vel
def Beam.repAcc (x : Beam) : Nat := if x.inHyst ∨ x.state = .fault then 0 else fitS 32 x.acc
/-- OVERSPEED (Table 02.3, code 4): |BEAM_VEL| begins to exceed BEAM_SPEED. -/
def Dev.speedCheck (d : Dev) (h : Half) (b : Nat) : Dev :=
  let x := d.beam h b
  let speed := d.bg h b BEAM_SPEED.SPEED
  let fast : Bool := decide (speed ≠ 0) && decide (speed < (sgn 32 x.repVel).natAbs)
  let d1 := d.setBeam h b { x with fast := fast }
  if fast && !x.fast then d1.beamFault h b 4 else d1

/-- A reversal (R47): DIR inverts, the marker goes ahead of the reverse crossings, the angle steps to the edge's angle. -/
def Dev.reverse (d : Dev) (h : Half) (b : Nat) (edge : Int) : Dev :=
  let l := hLoc h .beam
  let d1 := d.modBeam h b (fun x => { x.restart with dir := !x.dir, inHyst := false, ext := x.u })
  let d2 := ((d1.sat l (BEAM_SLIP.REVERSALS.ix b)).raise l (6 * b + 5)).marker h b .dirMarker
  (d2.moveTo h b edge).estimate h b edge

/-- An accepted quadrature edge in sense `fwd` (R46, R47, R50, R65 LOST_INDEX). -/
def Dev.edge (d : Dev) (h : Half) (b : Nat) (fwd : Bool) : Dev :=
  let x := d.beam h b
  let cpr := d.bg h b BEAM_CPR.CPR
  let u1 := if fwd then x.u + 1 else x.u - 1
  let pos := edgePos cpr (if fwd then u1 else x.u)
  let same := if x.sameDir = 0 ∨ x.lastDir ≠ !fwd then 1 else x.sameDir + 1
  let y := { x with u := u1, lastDir := !fwd, sameDir := same, lastEdge := x.now, stopped := x.stopped && (decide (same < 2) || decide (x.state = .fault)) }
  if x.state = .fault then d.setBeam h b y
  else
    let d1 :=
      if fwd = !x.dir then
        if (if x.dir then u1 < x.ext else x.ext < u1) then
          ((d.setBeam h b { y with ext := u1, inHyst := false, hold := x.hold && decide (if x.dir then x.pos < pos else pos < x.pos) }).moveTo h b pos).estimate h b pos
        else d.setBeam h b y
      else
        let d0 := d.setBeam h b { y with inHyst := true, vel := 0, acc := 0 }
        if d.bg h b BEAM_HYST.HYST ≤ (x.ext - u1).natAbs then d0.reverse h b pos else d0
    if x.state = .synced ∧ d.bg h b BEAM_CFG.MODE = 0 ∧ d.bg h b BEAM_CFG.IDX_EN = 1
        ∧ cpr + d.bg h b BEAM_IDX.IDX_TOL < (u1 - x.uIdx).natAbs then d1.beamFault h b 3 else d1

/-- Does AB qualify an index edge under IDX_QUAL (R49)? -/
def idxQualifies (qual : Nat) (a bb : Bool) : Bool :=
  if qual = 0 then true else 4 ≤ qual && qual - 4 = b2n a * 2 + b2n bb

/-- A rising edge of the filtered Z line (R49). A slip against DIR freezes the angle until edges in DIR bring the count past it. What the
index does in FAULT, to the time since the last edge, and in hysteresis: notes/assumptions/8.md and 99.md. -/
def Dev.index (d : Dev) (h : Half) (b : Nat) : Dev :=
  let l := hLoc h .beam
  let x := d.beam h b
  let cpr : Int := d.bg h b BEAM_CPR.CPR
  let off : Int := d.bg h b BEAM_IDX.IDX_OFFSET
  if d.bg h b BEAM_CFG.MODE = 1 ∨ d.bg h b BEAM_CFG.IDX_EN = 0 ∨ !idxQualifies (d.bg h b BEAM_CFG.IDX_QUAL) x.lineA.acc x.lineB.acc then d
  else match x.state with
  | .seeking =>
    let u := x.pos / 2 ^ 32 * cpr + off
    let p := edgePos cpr.toNat u
    let shift := p - x.aLast
    ((((d.wrap l (BEAM_IDXDEV.SEEN.ix b)).setBeam h b { x with
        u := u, ext := x.ext + (u - x.u), uIdx := u, pos := p, aLast := p, tau := 0, stepPrev := 0, atLim := false, hold := false, state := .synced,
        hist := x.hist.map (fun e => (e.1 + shift, e.2)) }).raise l (6 * b)).marker h b .stateMarker)
  | .synced =>
    let dev := (x.u - off + cpr / 2) % cpr - cpr / 2
    let d1 := (d.wrap l (BEAM_IDXDEV.SEEN.ix b)).p l (BEAM_IDXDEV.DEV.ix b) (fitS 16 dev)
    if dev = 0 then d1.setBeam h b { x with uIdx := x.u }
    else if (d.bg h b BEAM_IDX.IDX_TOL : Int) < dev.natAbs then (d1.setBeam h b { x with uIdx := x.u }).beamFault h b 2
    else
      let u := x.u - dev
      let p := edgePos cpr.toNat (if x.dir then u + 1 else u)
      let against : Bool := if x.dir then decide (dev < 0) else decide (0 < dev)
      let behind : Bool := if x.dir then decide (x.pos < p) else decide (p < x.pos)
      let d2 := (d1.sat l (BEAM_SLIP.SLIPS.ix b)).setBeam h b { x with
        u := u, ext := x.ext - dev, uIdx := u, aLast := p, tau := 0, stepPrev := 0, atLim := false, hold := against || (x.hold && behind) }
      if x.inHyst || against then d2 else d2.moveTo h b p
  | _ => d

/-- One sampling cycle of interpolation between edges (R51), with the reduction of R55. -/
def Dev.interpolate (d : Dev) (h : Half) (b : Nat) : Dev :=
  let x := d.beam h b
  if x.inHyst ∨ x.state = .fault ∨ x.state = .off then d
  else
    let cpr := d.bg h b BEAM_CPR.CPR
    let tau := x.tau + 1
    let accs : Int := if x.dir then -x.accK else x.accK
    let raw : Int := ((x.velEdge.natAbs : Int) * tau * 2 ^ 18 + accs * tau * tau) / 2 ^ 35
    let s1 := if accs < 0 ∧ raw < x.stepPrev then (x.stepPrev : Int) else raw
    let next := edgePos cpr (if x.dir then x.u else x.u + 1)
    let lim : Int := (next - x.aLast).natAbs - 1
    let limited : Bool := x.atLim || decide (lim < s1)
    let step := if limited then lim else s1
    let vel := if x.stopped then 0 else if limited then
        (let m : Nat := min x.vel.natAbs (2 ^ 49 / (cpr * tau)); if x.dir then -(m : Int) else (m : Int))
      else x.velAt x.now
    let acc := if limited ∨ x.stopped then 0 else x.accK
    let d1 := d.setBeam h b { x with tau := tau, stepPrev := step.toNat, vel := if x.edges < 2 then 0 else vel, acc := acc, atLim := limited }
    if x.hold then d1 else d1.moveTo h b (if x.dir then x.aLast - step else x.aLast + step)

/-- The glitch filter of one line in one sampling cycle (R45): the line, whether it accepts, whether it drops a pulse. -/
def Line.sample (x : Line) (level : Bool) (filt : Nat) : Line × Bool × Bool :=
  if level = x.acc then ({ x with raw := level, run := 0 }, false, decide (0 < x.run))
  else if filt ≤ x.run + 1 then ({ raw := level, run := 0, acc := level }, true, false)
  else ({ x with raw := level, run := x.run + 1 }, false, false)

/-- A line in the cycle of a swap that has set FILT (R45): a run that holds FILT samples or more is accepted. -/
def Line.settle (x : Line) (filt : Nat) : Line × Bool × Bool :=
  if x.raw ≠ x.acc ∧ filt ≤ x.run then ({ x with run := 0, acc := x.raw }, true, false) else (x, false, false)

/-- Place of AB in the forward sequence 00, 01, 11, 10 (R46). -/
def grayPlace (a bb : Bool) : Nat :=
  match a, bb with | false, false => 0 | false, true => 1 | true, true => 2 | true, false => 3

/-- The state and count registers follow the beam. -/
def Dev.showBeam (d : Dev) (h : Half) (b : Nat) : Dev :=
  let l := hLoc h .beam
  let x := d.beam h b
  ((((d.p l (BEAM_STATE.STATE.ix b) x.state.code).p l (BEAM_STATE.DIR.ix b) (b2n x.dir)).p l (BEAM_STATE.STOPPED.ix b) (b2n x.stopped)).p l
    (BEAM_STATE.IN_HYST.ix b) (b2n x.inHyst)).p l (BEAM_COUNT.COUNT.ix b) (x.u % (d.bg h b BEAM_CPR.CPR : Int)).toNat

/-- What a beam decodes in a cycle in which the filter has left its lines at `ra`, `rb`, `rz` (R46–R51): a quadrature error, an edge, else what
`quiet` does, then the index, then the speed limit. -/
def Dev.decodeBeam (d : Dev) (h : Half) (b : Nat) (ra rb rz : Line × Bool × Bool) (quiet : Dev → Dev) : Dev :=
  let l := hLoc h .beam
  let x := d.beam h b
  let glitches := b2n ra.2.2 + b2n rb.2.2 + b2n rz.2.2
  let d1 := (if glitches = 0 then d else d.sat l (BEAM_QERR.GLITCH.ix b) glitches).setBeam h b { x with lineA := ra.1, lineB := rb.1, lineZ := rz.1 }
  if x.state = .off then d1
  else
    let d2 :=
      if ra.2.1 && rb.2.1 then (d1.sat l (BEAM_QERR.QERR.ix b)).beamFault h b 1
      else if ra.2.1 || rb.2.1 then
        let up := (grayPlace ra.1.acc rb.1.acc + 4 - grayPlace x.lineA.acc x.lineB.acc) % 4 = 1
        d1.edge h b (if d.bg h b BEAM_CFG.INV_DIR = 1 then !up else up)
      else quiet d1
    (if rz.2.1 && rz.1.acc then d2.index h b else d2).speedCheck h b
/-- One sampling cycle of a beam with the given levels at its lines (R45–R51). -/
def Dev.sampleBeam (d : Dev) (h : Half) (b : Nat) (a bb z : Bool) : Dev :=
  let x := d.beam h b
  let filt := d.bg h b BEAM_CFG.FILT
  (d.setBeam h b { x with now := x.now + 1 }).decodeBeam h b (x.lineA.sample a filt) (x.lineB.sample bb filt) (x.lineZ.sample z filt)
    (fun y => y.interpolate h b)

/-- A number of sampling cycles with unchanged line levels. -/
def Dev.sampleRun (d : Dev) (h : Half) (b : Nat) (a bb z : Bool) : Nat → Dev
  | 0 => d
  | n + 1 => Dev.sampleRun (d.sampleBeam h b a bb z) h b a bb z n

/-- A half in QUARANTINE keeps decoding (R220) while its pages' events stay as they were frozen (R438); a half in OFF is
held in reset. -/
def beamGuard (s : State) (h : Half) (f : Dev → Dev) : Dev :=
  let l := hLoc h .beam
  match s.ref.hs h with
  | .off => s.dev
  | _ => if s.ref.sby h ∨ !s.dev.clocked l then s.dev else match s.ref.hs h with
  | .quarantine =>
    let d := f s.dev
    { (d.wr l 0x014 (s.dev.rd l 0x014)).wr l 0x01C (s.dev.rd l 0x01C) with
      lines := s.dev.lines, kip := s.dev.kip, msix := s.dev.msix, inService := s.dev.inService, lastMsg := s.dev.lastMsg }
  | _ => f s.dev

/-- BEAM_INPUT_EDGE (R45): the lines of a beam input are sampled at new levels for a number of sampling cycles. -/
def execBeamInputEdge (h : Half) (b : Fin 4) (a bb z : Bool) (samples : Nat) : State → Answer :=
  onDev (fun s => beamGuard s h (fun d => (d.sampleRun h b a bb z samples).showBeam h b))

/-- INTERPOLATED_ANGLE_ADVANCE (R51, R55): one sampling cycle with the line levels as they are. -/
def execInterpolatedAngleAdvance (h : Half) (b : Fin 4) : State → Answer :=
  onDev (fun s => beamGuard s h (fun d =>
    let x := d.beam h b
    (d.sampleBeam h b x.lineA.raw x.lineB.raw x.lineZ.raw).showBeam h b))

/-- Has no edge come for STALL microseconds, 200 sampling cycles each (R55)? -/
def Dev.stallDue (d : Dev) (h : Half) (b : Nat) : Bool :=
  decide ((d.beam h b).lastEdge + 200 * d.bg h b BEAM_STALL.STALL ≤ (d.beam h b).now)
/-- BEAM_STALL_TIMEOUT (R55): no edge for STALL microseconds. Earlier, nothing happens. -/
def execBeamStallTimeout (h : Half) (b : Fin 4) : State → Answer :=
  onDev (fun s => beamGuard s h (fun d =>
    if d.stallDue h b then
      (d.modBeam h b (fun x => { x with stopped := true, sameDir := 0, vel := 0, acc := 0, velEdge := 0, velK := 0, accK := 0, fast := false })).showBeam h b
    else d))

/-- BEAM_RESYNC (R65): a beam in FAULT takes the edge angle of its count and the followed revolution counter, and enters
SEEKING in shaft mode with IDX_EN = 1, else SYNCED. -/
def Dev.resync (d : Dev) (h : Half) (b : Nat) : Dev :=
  let x := d.beam h b
  if x.state = .fault then
    let seek : Bool := d.bg h b BEAM_CFG.MODE = 0 ∧ d.bg h b BEAM_CFG.IDX_EN = 1
    let p := edgePos (d.bg h b BEAM_CPR.CPR) x.u
    let d1 := d.setBeam h b { x.restart with state := if seek then .seeking else .synced, pos := p, aLast := p, ext := x.u, uIdx := x.u, inHyst := false, stopped := true, sameDir := 0 }
    let d2 := if seek then d1 else d1.raise (hLoc h .beam) (6 * b)
    (d2.marker h b .stateMarker).showBeam h b
  else d

def execBeamResync (h : Half) (b : Fin 4) : State → Answer :=
  forwarded h (fun h => onDev (fun s => beamGuard s h (fun d => (d.seq (hLoc h .beam)).resync h b)))

/-- What a swap of the BEAM page does to beam `b` whose enable was `was` (R45, R49, R57, Table 02.1): runs that the new FILT completes are accepted; the
beam starts, stops, or goes on under its new limits. STOPPED is 1 where it starts or stops (DESIGN CHOICE, notes/assumptions/99.md). -/
def Dev.beamSwapped (d0 : Dev) (h : Half) (was : Nat → Bool) (b : Nat) : Dev :=
  let en := d0.bg h b BEAM_CFG.EN = 1
  let filt := d0.bg h b BEAM_CFG.FILT
  let y := d0.beam h b
  let ra := y.lineA.settle filt
  let rb := y.lineB.settle filt
  let rz := y.lineZ.settle filt
  let d := if d0.bg h b BEAM_COARSE.COARSE = 0 then d0.p (hLoc h .beam) (BEAM_STATE.PRED_COARSE.ix b) 0 else d0
  if en ∧ !was b then
    let seek : Bool := d.bg h b BEAM_CFG.MODE = 0 ∧ d.bg h b BEAM_CFG.IDX_EN = 1
    let x := { y with lineA := ra.1, lineB := rb.1, lineZ := rz.1 }
    let d1 := d.setBeam h b { x.restart with
      state := if seek then .seeking else .synced, u := 0, ext := 0, uIdx := 0, pos := 0, aLast := 0, dir := false, inHyst := false, stopped := true, sameDir := 0, lastEdge := x.now }
    ((if seek then d1 else d1.raise (hLoc h .beam) (6 * b)).marker h b .stateMarker).showBeam h b
  else if !en ∧ was b then
    let x := { y with lineA := ra.1, lineB := rb.1, lineZ := rz.1 }
    ((d.setBeam h b { x.restart with state := .off, u := 0, ext := 0, pos := 0, aLast := 0, dir := false, inHyst := false, stopped := true }).marker h b .stateMarker).showBeam h b
  else (d.decodeBeam h b ra rb rz id).showBeam h b

/-- Which beams of a half are enabled. -/
def Dev.beamsOn (d : Dev) (h : Half) (b : Nat) : Bool := d.bg h b BEAM_CFG.EN = 1

/-- What follows a swap of the BEAM page: enabled and disabled beams start and stop. -/
def Dev.afterBeamSwap (d : Dev) (h : Half) (was : Nat → Bool) : Dev :=
  (List.range 4).foldl (fun x b => x.beamSwapped h was b) d

/-- The result codes a BEAM commit finds in one beam's shadow set (Table 02.11), BEAM_USED apart (R60). -/
def Dev.beamCodes (d : Dev) (h : Half) (b : Nat) : List Nat :=
  let l := hLoc h .beam
  let s (f : Fld) := d.gS l (f.ix b)
  let a (f : Fld) := d.g l (f.ix b)
  let win := s BEAM_CFG.WIN
  let aw := s BEAM_CFG.AWIN
  (if s BEAM_CFG.FILT < 2 ∨ 32 < s BEAM_CFG.FILT then [0x40] else [])
  ++ (if s BEAM_CPR.CPR < 4 ∨ 1048576 < s BEAM_CPR.CPR ∨ s BEAM_CPR.CPR ≤ s BEAM_IDX.IDX_OFFSET then [0x41] else [])
  ++ (if s BEAM_HYST.HYST = 0 then [0x42] else [])
  ++ (if 1 ≤ s BEAM_CFG.IDX_QUAL ∧ s BEAM_CFG.IDX_QUAL ≤ 3 then [0x43] else [])
  ++ (if a BEAM_CFG.EN = 1 ∧ (s BEAM_CPR.CPR ≠ a BEAM_CPR.CPR ∨ s BEAM_CFG.MODE ≠ a BEAM_CFG.MODE ∨ s BEAM_CFG.INV_DIR ≠ a BEAM_CFG.INV_DIR) then [0x44] else [])
  ++ (if 7 ≤ win ∨ aw = 13 ∨ aw = 14 ∨ aw < win then [0x45] else [])
  ++ (if s BEAM_STALL.STALL = 0 then [0x46] else [])

/-- What the prediction arithmetic of R56 gives for a beam, target revolution and angle, from the broadcast values. Where its divisor is 0 no result
is stated (notes/assumptions/12.md). -/
def Dev.predict (d : Dev) (h : Half) (b rev angle : Nat) : Pred :=
  let l := hLoc h .beam
  let x := d.beam h b
  let p : Nat := d.g l (BEAM_REV.REV.ix b) * 2 ^ 32 + d.g l (BEAM_ANGLE.ANGLE.ix b)
  let raw := sgn 64 (rev * 2 ^ 32 + angle + 2 ^ 64 - p)
  let delta := if x.bDir then -raw else raw
  let v0 := sgn 32 (d.g l (BEAM_VEL.VEL.ix b))
  let a0 := sgn 32 (d.g l (BEAM_ACC.ACC.ix b))
  let v := if x.bDir then -v0 else v0
  let a := if x.bDir then -a0 else a0
  let coarse : Bool := d.on l (BEAM_STATE.PRED_COARSE.ix b)
  let all1 := 2 ^ 64 - 1
  if x.bState ≠ .synced ∨ x.bInHyst then { time := all1, never := true, coarse := coarse }
  else if delta < 0 ∨ v = 0 then { time := all1, never := true, coarse := coarse }
  else
    let disc := v * v + 2 * a * delta
    if disc < 0 then { time := all1, never := true, short := true, coarse := coarse }
    else
      let num := 2 * delta * 2 ^ 32
      let den := v * 2 ^ 16 + isqrt (disc.toNat * 2 ^ 32) 80 0
      if den = 0 then { time := Config.predZero delta v a % 2 ^ 64, coarse := coarse }
      else
        let dt := if den < 0 then (-2 * num - den) / (-2 * den) else (2 * num + den) / (2 * den)
        if 2 ^ 32 ≤ dt then { time := d.tb h + 2 ^ 32 - 1, far := true, coarse := coarse }
        else { time := ((d.tb h + dt) % 2 ^ 64).toNat, coarse := coarse }

/-- PRED_REQ (R56): a request starts the unit, or sets OVERRUN while the unit is busy. -/
def Dev.predReq (d : Dev) (h : Half) : Dev :=
  let l := hLoc h .beam
  if d.on l BEAM_PRED_CTL.BUSY then d.p l BEAM_PRED_STAT.OVERRUN 1
  else
    let r := d.predict h (d.g l BEAM_PRED_CTL.BEAM) (d.g l BEAM_PRED_REV.REV) (d.g l BEAM_PRED_ANGLE.ANGLE)
    { (d.p l BEAM_PRED_CTL.BUSY 1).p l BEAM_PRED_STAT.OVERRUN 0 with preds := SMap.set (fun _ => {}) d.preds h.n r }

def execPredReq (h : Half) : State → Answer := forwarded h (fun h => onWrite h (hLoc h .beam) (fun _ d => d.predReq h))

/-- PRED_DONE (R56): 40 core cycles after REQ the result is written. -/
def execPredDone (h : Half) : State → Answer :=
  onHalf h (fun s =>
    let d := s.dev
    let l := hLoc h .beam
    let r := SMap.get (fun _ => ({} : Pred)) d.preds h.n
    if d.on l BEAM_PRED_CTL.BUSY then
      ((((((({ d with preds := SMap.set (fun _ => {}) d.preds h.n {} }.p64 l BEAM_PRED_TLO.T BEAM_PRED_THI.T (r.time % 2 ^ 64)).p l BEAM_PRED_STAT.VALID 1).p l
        BEAM_PRED_STAT.NEVER (b2n r.never)).p l BEAM_PRED_STAT.STOPS_SHORT (b2n r.short)).p l BEAM_PRED_STAT.FAR (b2n r.far)).p l
        BEAM_PRED_STAT.COARSE (b2n r.coarse)).p l BEAM_PRED_CTL.BUSY 0).raise l 25
    else d)

/-- The broadcast of one beam at a TB tick (R63). -/
def Dev.broadcast (d : Dev) (h : Half) (b : Nat) : Dev :=
  let l := hLoc h .beam
  let x := d.beam h b
  ((((d.setBeam h b { x with bDir := x.dir, bInHyst := x.inHyst, bStopped := x.stopped, bState := x.state }).p l
    (BEAM_ANGLE.ANGLE.ix b) (x.pos % 2 ^ 32).toNat).p l (BEAM_REV.REV.ix b) (x.pos / 2 ^ 32 % 2 ^ 32).toNat).p l
    (BEAM_VEL.VEL.ix b) x.repVel).p l (BEAM_ACC.ACC.ix b) x.repAcc
/-- The changes of a beam's broadcast that the last 4,096 ticks need, newest first. -/
def keepHist (now : Nat) : List BHist → List BHist
  | [] => []
  | x :: rest => if x.tb + 4096 ≤ now then [x] else x :: keepHist now rest
/-- The camera ports' history of the broadcast (R245) at a tick. -/
def Dev.histTick (d : Dev) (h : Half) (b : Nat) : Dev :=
  let x := d.beam h b
  let t := d.tb h
  let e : BHist := ⟨t, (x.pos % 2 ^ 64).toNat, x.bState == .synced, x.bDir⟩
  let old := SMap.get (fun _ => []) d.bhist (h.n * 4 + b)
  match old with
  | y :: _ => if { y with tb := t } = e then d else { d with bhist := SMap.set (fun _ => []) d.bhist (h.n * 4 + b) (keepHist t (e :: old)) }
  | [] => { d with bhist := SMap.set (fun _ => []) d.bhist (h.n * 4 + b) [e] }

/-- TB_TICK (R29, R63, R31): the time base advances by one, the beams broadcast, the crossing queue hands over up to 8
records every second tick (R61), and the service copy follows the half that is its source. -/
def Dev.tick (d : Dev) (h : Half) (isSource : Bool) : Dev :=
  let t := (d.tb h + 1) % 2 ^ 64
  let d1 := (List.range 4).foldl (fun x b => (x.broadcast h b).histTick h b) (d.setTb h t)
  let d2 := match h with | .A => { d1 with tickA := 8 } | .B => { d1 with tickB := 8 }
  let d3 := if t % 2 = 0 then d2.handshake h else d2
  if isSource then { d3 with tbS := max d3.tbS t } else d3

/-- The half whose time base the service region copies (R31): the half in charge, or the service host in split operation. -/
def Referee.tbSource (r : Referee) (h : Half) : Bool :=
  if r.split then r.svcHost = h else r.hs h = .charge

/-- The replica snapshot of one beam (R64). -/
def Dev.snapOf (d : Dev) (h : Half) (b : Nat) : Snap :=
  let l := hLoc h .beam
  let x := d.beam h b
  { tb := d.tb h, angle := d.g l (BEAM_ANGLE.ANGLE.ix b), rev := d.g l (BEAM_REV.REV.ix b),
    vel := if x.bInHyst then 0 else d.g l (BEAM_VEL.VEL.ix b), acc := d.g l (BEAM_ACC.ACC.ix b), dir := x.bDir, valid := x.bState = .synced }

/-- The last snapshot of a beam. -/
def Dev.snap (d : Dev) (h : Half) (b : Nat) : Snap := SMap.get (fun _ => {}) d.snaps (h.n * 4 + b)

/-- REPLICA_SNAPSHOT (R64): at a TB value that is a multiple of 400. -/
def execReplicaSnapshot (h : Half) : State → Answer :=
  onHalf h (fun s =>
    if s.dev.tb h % 400 = 0 then
      (List.range 4).foldl (fun x b => { x with snaps := SMap.set (fun _ => {}) x.snaps (h.n * 4 + b) (s.dev.snapOf h b) }) s.dev
    else s.dev)

end Sys2Proof.Machine
end

