-- ==== Sys2Proof/Machine/Queue.lean ====
section
/-!
DEFINITION. Actuator event queues, conservation counters, cancellation, expiry and the calendar's tests (chapter 06).
-/
namespace Sys2Proof.Machine

open Sys2Proof

/-- A channel of a half. -/
def Dev.chan (d : Dev) (h : Half) (ch : Nat) : Chan := SMap.get (fun _ => {}) d.chans (h.n * 65536 + ch)
def Dev.modChan (d : Dev) (h : Half) (ch : Nat) (f : Chan → Chan) : Dev :=
  { d with chans := SMap.modify (fun _ => {}) d.chans (h.n * 65536 + ch) f }
/-- Change every channel of a half that holds anything. -/
def Dev.mapChans (d : Dev) (h : Half) (f : Nat → Chan → Chan) : Dev :=
  (d.chans.map (fun e => e.1)).foldl (fun x k => if k / 65536 = h.n then x.modChan h (k % 65536) (f (k % 65536)) else x) d

/-! Fields of an event (Table 06.4). -/
def evAction (e : Nat) : Nat := e / 2 ^ 10 % 16
def evProfile (e : Nat) : Nat := e / 2 ^ 14 % 16
/-- The state an event sets: ACTION and PROFILE (R150). -/
def evState (e : Nat) : Nat := e / 2 ^ 10 % 256
/-- REV:STAMP, 40 bits. -/
def evPos (e : Nat) : Nat := e / 2 ^ 18 % 2 ^ 40
def evDir (e : Nat) : Bool := bit e 58

/-- The state of a channel's newest held event, or of the last one sent when the queue is empty (R150). -/
def Chan.ref (x : Chan) : Nat := match x.q.getLast? with | some e => evState e.ev | none => x.lastSent
/-- Unsent events held. -/
def Chan.occ (x : Chan) : Nat := (x.q.filter (fun e => !e.sent)).length
/-- Sent events not yet acknowledged. -/
def Chan.sentHeld (x : Chan) : Nat := (x.q.filter (fun e => e.sent)).length
/-- The head: the oldest unsent event (R156). -/
def Chan.head (x : Chan) : Option QEv := x.q.find? (fun e => !e.sent)

/-- Remove the unsent events a predicate selects and count them cancelled (R158). -/
def Chan.cancel (p : QEv → Bool) (x : Chan) : Chan :=
  let gone := x.q.filter (fun e => !e.sent && p e)
  { x with q := x.q.filter (fun e => !(!e.sent && p e)), canc := (x.canc + gone.length) % 2 ^ 32 }

/-- The segment seals of an event: must they have compared equal before it is sent (R39, R205)? -/
def Referee.gated (r : Referee) (h : Half) : Bool :=
  !r.split && (r.hs h.peer == .standby || r.hs h.peer == .charge)
/-- The seal unit of a half. -/
def Dev.sealU (d : Dev) (h : Half) : SealUnit := SMap.get (fun _ => {}) d.seals h.n
def Dev.modSeal (d : Dev) (h : Half) (f : SealUnit → SealUnit) : Dev :=
  { d with seals := SMap.modify (fun _ => {}) d.seals h.n f }
/-- Is an instance held (R205)? -/
def Dev.isHeld (d : Dev) (h : Half) (key : Nat) : Bool := (d.sealU h).held.any (fun r => r.key = key)

/-- Condition 1 of R160. -/
def Dev.cond1 (d : Dev) (r : Referee) (h : Half) (e : QEv) : Bool :=
  r.split || (!d.isHeld h e.inst && (e.clear || !r.gated h))

/-- The beam a port takes its replica from. -/
def Dev.rbeam (d : Dev) (h : Half) (p : Nat) : Nat := d.g (hLoc h .rlk p) RLK_CFG.RBEAM

/-- The lead span of a port's calendar (R160). -/
def Dev.span (d : Dev) (h : Half) (b : Nat) : Nat :=
  let l := hLoc h .aeq
  min (d.g l AEQ_MAXSPAN.SPAN) (max (d.g l AEQ_MINSPAN.SPAN)
    ((sgn 32 (d.g (hLoc h .beam) (BEAM_VEL.VEL.ix b))).natAbs * d.g l AEQ_LEADT.TICKS / 2 ^ 16))

/-- The distance d of R160, signed 40 bits. -/
def Dev.dist (d : Dev) (h : Half) (b : Nat) (ev : Nat) : Int :=
  let p := d.g (hLoc h .beam) (BEAM_REV.REV.ix b) % 256 * 2 ^ 32 + d.g (hLoc h .beam) (BEAM_ANGLE.ANGLE.ix b)
  let s := evPos ev
  sgn 40 (if evDir ev then p + 2 ^ 40 - s else s + 2 ^ 40 - p)

/-- Conditions 2 and 3 of R160: the broadcast beam is SYNCED and turns in the event's direction. -/
def Dev.beamRuns (d : Dev) (h : Half) (b : Nat) (ev : Nat) : Bool :=
  let x := SMap.get (fun _ => ({} : Beam)) d.beams (h.n * 4 + b)
  x.bState == .synced && x.bDir == evDir ev

/-- Condition 4 of R160, with an expired event counting as meeting it when EXPIRE = 0. -/
def Dev.inWindow (d : Dev) (h : Half) (b : Nat) (ev : Nat) : Bool :=
  let x := d.dist h b ev
  decide (x ≤ d.span h b) && (decide (0 ≤ x) || !d.on (hLoc h .aeq) AEQ_CFG.EXPIRE)

/-- Is a head event eligible (R160)? -/
def Dev.eligible (d : Dev) (r : Referee) (h : Half) (p : Nat) (e : QEv) : Bool :=
  let b := d.rbeam h p
  d.cond1 r h e && d.beamRuns h b e.ev && d.inWindow h b e.ev

/-- An event that becomes a candidate while conditions 2 to 4 already hold is late (R160). -/
def Dev.candidate (d : Dev) (h : Half) (ch : Nat) : Dev :=
  match (d.chan h ch).head with
  | none => d
  | some e =>
    let b := d.rbeam h (ch / 1024)
    if d.beamRuns h b e.ev && d.inWindow h b e.ev then (d.sat (hLoc h .aeq) AEQ_LATE.COUNT).raise (hLoc h .aeq) 2 else d

/-- Place an event in its channel's queue (R156), or drop it where 8 slots are occupied (R157). -/
def Dev.enqueue (d : Dev) (h : Half) (ch : Nat) (e : QEv) : Dev :=
  let l := hLoc h .aeq
  let x := d.chan h ch
  if 8 ≤ x.q.length then
    let d1 := ((d.modChan h ch (fun x => { x with drop := (x.drop + 1) % 2 ^ 32 })).sat l AEQ_QFULL.COUNT).raise l 0
    if d.on l AEQ_CFG.QFULL_CRIT then d1.reportP h 0x08 ch l else d1
  else
    let d1 := d.modChan h ch (fun x => { x with q := x.q ++ [e], enq := (x.enq + 1) % 2 ^ 32 })
    if x.occ = 0 then d1.candidate h ch else d1

/-- Cancel unsent events of one channel; a channel whose head goes has a new candidate (R158, R160). -/
def Dev.cancelCh (d : Dev) (h : Half) (p : QEv → Bool) (ch : Nat) : Dev :=
  let d1 := d.modChan h ch (Chan.cancel p)
  if (d1.chan h ch).head = (d.chan h ch).head then d1 else d1.candidate h ch
/-- Cancel unsent events in every channel of a half. -/
def Dev.cancelAll (d : Dev) (h : Half) (p : QEv → Bool) : Dev :=
  (d.chans.map (fun e => e.1)).foldl (fun x k => if k / 65536 = h.n then x.cancelCh h p (k % 65536) else x) d
/-- Cancel unsent events of a context in every channel (R158), but those of a held instance, which only expiry and REISSUE remove (R205). -/
def Dev.cancelCtx (d : Dev) (h : Half) (ctx : Nat) (dir : Option Bool) : Dev :=
  d.cancelAll h (fun e => !d.isHeld h e.inst && decide (e.ctx = ctx) && (match dir with | none => true | some v => evDir e.ev == v))

/-- Scans in progress. -/
def Dev.scans (d : Dev) : Half → List Scan
  | .A => d.scansA
  | .B => d.scansB
def Dev.setScans (d : Dev) (h : Half) (q : List Scan) : Dev :=
  match h with | .A => { d with scansA := q } | .B => { d with scansB := q }
/-- Request a cancellation for a context; the fill of an earlier request of it no longer follows (notes/assumptions/31.md). -/
def Dev.requestScan (d : Dev) (h : Half) (s : Scan) : Dev :=
  d.setScans h ((d.scans h).map (fun x => if x.ctx = s.ctx then { x with fills := false } else x) ++ [s])

/-- AEQ_CNT_LATCH (R159): the five counters and the status of one channel in one cycle. -/
def Dev.cntLatch (d : Dev) (h : Half) (ch : Nat) : Dev :=
  let l := hLoc h .aeq
  let x := d.chan h ch
  (((((((((d.p l AEQ_CNT_IDX.CH ch).p l AEQ_CNT_ENQ.COUNT x.enq).p l AEQ_CNT_FIRED.COUNT x.fired).p l AEQ_CNT_CANC.COUNT x.canc).p l
    AEQ_CNT_UNF.COUNT x.unf).p l AEQ_CNT_DROP.COUNT x.drop).p l AEQ_CHST.OCC x.occ).p l AEQ_CHST.SENT x.sentHeld).p l
    AEQ_CHST.REF_ACTION (x.ref % 16)).p l AEQ_CHST.REF_PROFILE (x.ref / 16)

def execAeqCntLatch (h : Half) (ch : BitVec 16) : State → Answer :=
  forwarded h (fun h => onWrite h (hLoc h .aeq) (fun _ d => d.cntLatch h ch.toNat))

/-- EXPIRED (R160): the head event of a channel lies behind the beam. With EXPIRE = 1 it is cancelled at once. -/
def Dev.expire (d : Dev) (h : Half) (ch : Nat) : Dev :=
  let l := hLoc h .aeq
  match (d.chan h ch).head with
  | none => d
  | some e =>
    let b := d.rbeam h (ch / 1024)
    if d.beamRuns h b e.ev && decide (d.dist h b e.ev < 0) && d.on l AEQ_CFG.EXPIRE then
      let d1 := d.modChan h ch (fun x => { x with
        q := x.q.filter (fun y => y.sent) ++ (x.q.filter (fun y => !y.sent)).drop 1, canc := (x.canc + 1) % 2 ^ 32 })
      ((d1.sat l AEQ_EXPIRED.COUNT).raise l 1).candidate h ch
    else d

def execExpired (h : Half) (ch : BitVec 16) : State → Answer :=
  onBlock h (hLoc h .aeq) (fun s => s.dev.expire h ch.toNat)

/-- What an uncorrectable error in the queue memory of a channel does to it (R158). -/
def Dev.queueLost (d : Dev) (h : Half) (ch : Nat) : Dev :=
  let l := hLoc h .aeq
  ((d.modChan h ch (fun x => x.cancel (fun _ => true))).sat l AEQ_UE.COUNT).raise l 3
/-- QUEUE_UE (R158): an uncorrectable error in the queue memory of a channel. -/
def Dev.queueUe (d : Dev) (h : Half) (ch : Nat) : Dev := (d.queueLost h ch).eccUe h (pageOf h.n .aeq 0) 0 (7 * ch) true ch

def execQueueUe (h : Half) (ch : BitVec 16) : State → Answer :=
  onBlock h (hLoc h .aeq) (fun s => (s.dev.queueUe h ch.toNat))

end Sys2Proof.Machine
end

