-- ==== Sys2Proof/Machine/Row.lean ====
section
/-!
DEFINITION. Row engines and their contexts (R73–R81, R93, R103–R104, R113, R128, R130, R349): the engine and context
records, faults, commands, bindings, invalidations, the motif attribute store, and what a record's image holds.
-/
namespace Sys2Proof.Machine

open Sys2Proof

/-! ### Records and registers of an engine and its contexts -/

def Dev.eng (d : Dev) (h : Half) (e : Nat) : Engine := SMap.get (fun _ => {}) d.engines (h.n * 8 + e)
def Dev.modEng (d : Dev) (h : Half) (e : Nat) (f : Engine → Engine) : Dev :=
  { d with engines := SMap.modify (fun _ => {}) d.engines (h.n * 8 + e) f }
def Dev.cx (d : Dev) (h : Half) (e c : Nat) : Ctx := SMap.get (fun _ => {}) d.ctxs ((h.n * 8 + e) * 32 + c)
def Dev.modCx (d : Dev) (h : Half) (e c : Nat) (f : Ctx → Ctx) : Dev :=
  { d with ctxs := SMap.modify (fun _ => {}) d.ctxs ((h.n * 8 + e) * 32 + c) f }
/-- The page of a row engine. -/
def rowL (h : Half) (e : Nat) : Loc := hLoc h .row e
/-- The registers of a context on its page (R96). -/
def cxL (h : Half) (e c : Nat) : Loc := ctxLocOf (pageOf h.n .row e) c

/-- Codes of Table 03.1. -/
def CtxState.code : CtxState → Nat
  | .idle => 0 | .armed => 1 | .running => 2 | .hold => 3 | .reversing => 4 | .draining => 5 | .fault => 6
/-- The state of a code; code 7 is never shown. -/
def CtxState.ofCode : Nat → CtxState
  | 1 => .armed | 2 => .running | 3 => .hold | 4 => .reversing | 5 => .draining | 6 => .fault | _ => .idle
/-- The state of a context. -/
def Dev.cst (d : Dev) (h : Half) (e c : Nat) : CtxState := CtxState.ofCode (d.g (cxL h e c) ROW_CSTAT.STATE)
def Dev.setCst (d : Dev) (h : Half) (e c : Nat) (s : CtxState) : Dev := d.p (cxL h e c) ROW_CSTAT.STATE s.code

/-- L of a context (R75). -/
def Dev.leadOf (d : Dev) (h : Half) (e c : Nat) : Nat := d.g (cxL h e c) ROW_BIND.LEAD_M1 + 1
/-- The beam a context is bound to. -/
def Dev.beamOf (d : Dev) (h : Half) (e c : Nat) : Nat := d.g (cxL h e c) ROW_BIND.BEAM
def Dev.rownum (d : Dev) (h : Half) (e c : Nat) : Nat := d.g (cxL h e c) ROW_ROWNUM.N
/-- The signed 32-bit difference of two row numbers. -/
def rowDiff (a b : Nat) : Int := sgn 32 (a + 2 ^ 32 - b % 2 ^ 32)

/-- The unstarted due entries of a context. -/
def Dev.dueOf (d : Dev) (h : Half) (e c : Nat) : List Due := (d.eng h e).due.filter (fun x => decide (x.ctx = c) && !x.again)
/-- Is a render of the context parked (R91)? -/
def Dev.parked (d : Dev) (h : Half) (e c : Nat) : Bool := (d.eng h e).parked.any (fun x => x.1.ctx = c)

/-- Enter HOLD (R79): ROW_HELDN starts from ROW_ROWNUM. Due entries stay, and so do the renders that wait for a cancellation: their fill and
their triggers came before (DEDUCED, notes/assumptions/31.md). -/
def Dev.enterHold (d : Dev) (h : Half) (e c : Nat) (revheld : Bool) : Dev :=
  ((d.setCst h e c .hold).p (cxL h e c) ROW_HELDN.N (d.rownum h e c)).p (rowL h e) (ROW_REVST.REVHELD.ix c) (b2n revheld)

/-- Drop a context's due entries that have not started, parked ones included, and the renders that wait behind a cancellation. -/
def Dev.dropDue (d : Dev) (h : Half) (e c : Nat) : Dev :=
  ((d.modEng h e (fun x => { x with due := x.due.filter (fun y => decide (y.ctx ≠ c) || y.again), parked := x.parked.filter (fun y => y.1.ctx ≠ c) })).modCx h e c
    (fun x => { x with waiting := false, held := [] })).p (cxL h e c) ROW_CSTAT.PARKED 0
/-- How many due entries `dropDue` drops (R134): a render that waits behind a cancellation is no due entry yet. -/
def Dev.dueCount (d : Dev) (h : Half) (e c : Nat) : Nat :=
  (d.dueOf h e c).length + ((d.eng h e).parked.filter (fun x => x.1.ctx = c)).length

/-- Nothing is left of the render in the pipe: its lines, cells and pool blocks. -/
def Engine.clearPipe (x : Engine) : Engine := { x with want := [], wantM := [], step := 0, cells := [], mcells := [], blocks := [], blocked := false }
/-- Abandon a context's renders in progress (R81): the render pipe's row, rows waiting for the lane with their places in the rendered-row cache,
and records to write. The row in the lane keeps its place until the lane is free, which finishes its present segment (GATHER_COMPLETE). -/
def Engine.abandon (x : Engine) (c : Nat) : Engine :=
  let y := if x.cur.any (fun y => y.ctx = c) then { x.clearPipe with cur := none } else x
  { y with
    due := y.due.filter (fun z => !(z.again && decide (z.ctx = c)))
    ready := y.ready.filter (fun z => z.due.ctx ≠ c)
    recs := y.recs.filter (fun z => z.due.ctx ≠ c)
    laneOff := y.laneOff || y.lane.any (fun z => z.ctx = c)
    rrc := y.rrc.filter (fun z => z.gathered || z.due.ctx ≠ c || y.lane = some z.due) }
/-- The same with the pipe's status. -/
def Dev.abandon (d : Dev) (h : Half) (e c : Nat) : Dev :=
  let d1 := d.modEng h e (fun x => x.abandon c)
  if (d.eng h e).cur.any (fun y => y.ctx = c) then d1.p (rowL h e) ROW_STAT.BUSY 0 else d1
/-- Has a production render of a context started whose steps are not all complete (R81, R134): in the pipe, before or in the lane, before its
record, or to be rendered once more (Table 13.4)? -/
def Engine.started (g : Engine) (c : Nat) : Bool :=
  g.cur.any (fun x => x.ctx = c) || g.due.any (fun x => x.again && x.ctx = c) || g.ready.any (fun x => x.due.ctx = c) || g.lane.any (fun x => x.ctx = c) || g.recs.any (fun x => x.due.ctx = c)
/-- The engine whose pool loses a word of block `b` (Table 13.4): a row that waits for the lane is rendered once more, before the next due entry. -/
def Engine.renew (g : Engine) (b : Nat) : Engine :=
  match g.ready.find? (fun y => y.blocks.contains b) with
  | none => g
  | some y => { g with ready := g.ready.erase y, rrc := g.rrc.filter (fun z => z.gathered || z.due ≠ y.due), due := { y.due with again := true } :: g.due }
/-- The engine whose tile or motif cache loses a word (Table 13.4): the line is invalidated and fetched again. -/
def Engine.refetch (g : Engine) (mot : Bool) (w : Nat) : Engine :=
  let sets := if mot then 512 else 1024
  let c := if mot then g.mc else g.tc
  match (c.filter (fun y => y.1 % sets = w / 64))[w / 8 % 8]? with
  | none => g
  | some y =>
    let pf := addNew g.pf (2 * y.1 + b2n mot)
    if mot then { g with mc := g.mc.erase y, pf := pf } else { g with tc := g.tc.erase y, pf := pf }
/-- The new rows of a context that have started and have no record yet. -/
def Engine.newRows (g : Engine) (c : Nat) : List Nat :=
  ((g.cur.toList ++ g.due.filter (fun x => x.again) ++ g.ready.map (fun x => x.due) ++ g.recs.map (fun x => x.due)).filter (fun x => x.ctx = c && x.kind == .new)).map (fun x => x.row)
/-- H as it stands once the renders that have started are complete (R130, R134 step 3). -/
def Dev.hwmAfter (d : Dev) (h : Half) (e c : Nat) : Nat :=
  ((d.eng h e).newRows c).foldl (fun m r => if 0 < rowDiff r m then r else m) (d.g (rowL h e) (ROW_HWM.H.ix c))

/-- A context fault (R81, Table 03.3). The read that found UE_CTX has reported it already (R336). -/
def Dev.ctxFault (d : Dev) (h : Half) (e c cause : Nat) : Dev :=
  let d1 := (((d.dropDue h e c).abandon h e c).setCst h e c .fault).p (cxL h e c) ROW_CSTAT.FAULT_CAUSE cause
  let d2 := (d1.modCx h e c (fun x => { x with cmd := none })).raiseCtx (rowL h e) c 0
  if cause ≠ 4 ∧ d.on (cxL h e c) ROW_BIND.CRITICAL then d2.reportP h 0x06 (32 * e + c) (rowL h e) else d2

/-! ### Commands (R77, R78) -/

/-- A rejected command (R78): CMD_REJ, and nothing else changes. -/
def Dev.cmdRej (d : Dev) (h : Half) (e c : Nat) : Dev := d.raiseCtx (rowL h e) c 3

/-- The signed Y modulus Hc of a plane of the active set (R87, R88). -/
def Dev.planeHc (d : Dev) (h : Half) (e c p : Nat) : Nat :=
  (d.g (cxL h e c) (ROW_PDIM.HT_M1.ix p) + 1) * 2 ^ (3 + d.g (cxL h e c) (ROW_PCFG.TSIZE.ix p))

/-- The ring depth D of a context, 0 without a ring (R128). -/
def Dev.ringD (d : Dev) (h : Half) (e c : Nat) : Nat :=
  let k := d.g (rowL h e) (ROW_HR_LO.DLOG2.ix c)
  if k = 0 then 0 else 2 ^ k
/-- The ring base of a context. -/
def Dev.ringBase (d : Dev) (h : Half) (e c : Nat) : Nat :=
  d.g (rowL h e) (ROW_HR_LO.BASE_LO.ix c) * 2 ^ 20 + d.g (rowL h e) (ROW_HR_HI.BASE_HI.ix c) * 2 ^ 32

/-- Does the ring lie in populated DRAM (R128)? -/
def Dev.ringFits (d : Dev) (h : Half) (e c : Nat) : Bool :=
  let b := d.ringBase h e c
  decide (b < 2 ^ 36) && decide (b % 2 ^ 35 + d.ringD h e c * 1024 ≤ d.dramSize h)

/-- Are the conditions of R77, R78 and R128 for an ARM met? -/
def Dev.armOk (d : Dev) (h : Half) (e c : Nat) : Bool :=
  let k := d.g (rowL h e) (ROW_HR_LO.DLOG2.ix c)
  d.cst h e c == .idle && d.g (hLoc h .beam) (BEAM_CFG.MODE.ix (d.beamOf h e c)) == 0
    && (if k = 0 then !d.on (cxL h e c) ROW_BIND.REVERSIBLE else decide (8 ≤ k) && decide (k ≤ 16) && d.ringFits h e c)

/-- ARM (R77, R130). -/
def Dev.arm (d : Dev) (h : Half) (e c : Nat) : Dev :=
  let l := rowL h e
  let lc := cxL h e c
  let start := d.g lc ROW_START.START
  if d.armOk h e c then
    let d1 := ((((d.setCst h e c .armed).p l (ROW_HWM.H.ix c) (start + 2 ^ 32 - 1)).p l (ROW_REVST.RECS.ix c) 0).p l
      (ROW_REVST.REVHELD.ix c) 0).p l (ROW_REVST.PHASE.ix c) 0
    let d2 := (List.range 8).foldl (fun x p => x.p lc (ROW_PYPOS.Y.ix p)
      (if x.on lc (ROW_PYLD.LOAD.ix p) then x.g lc (ROW_PYLD.Y.ix p) % x.planeHc h e c p else 0)) d1
    d2.modCx h e c (fun x => { x with armgen := (x.armgen + 1) % 2 ^ 32, start := start, first := true, cmd := none })
  else d.cmdRej h e c

/-- HOLD, RESUME and STOP (R78): set pending, or rejected. -/
def Dev.pendCmd (d : Dev) (h : Half) (e c : Nat) (k : RowCmd) (byRow : Bool) : Dev :=
  let lc := cxL h e c
  let st := d.cst h e c
  let allowed : Bool := match k with
    | .hold => st == .running
    | .resume => st == .hold
    | .stop => st == .running || st == .hold
  let row := d.g lc ROW_CMDROW.ROW
  let behind : Bool := byRow && decide (rowDiff row (if st = .hold then d.g lc ROW_HELDN.N else d.rownum h e c) ≤ 0)
  if allowed && !behind then d.modCx h e c (fun x => { x with cmd := some (k, byRow, row) }) else d.cmdRej h e c

/-- ABORT (R78, R81): IDLE at once; all unsent events of the context are cancelled by a scan. -/
def Dev.abort (d : Dev) (h : Half) (e c : Nat) : Dev :=
  if d.cst h e c = .idle then d.cmdRej h e c
  else ((((d.dropDue h e c).abandon h e c).setCst h e c .idle).modCx h e c (fun x => { x with cmd := none })).requestScan h
    ⟨32 * e + c, none, false⟩

def execArm (h : Half) (e : Fin 8) (c : Fin 32) : State → Answer := forwarded h (fun h => onWrite h (rowL h e) (fun _ d => d.arm h e c))
def execHold (h : Half) (e : Fin 8) (c : Fin 32) (byRow : Bool) : State → Answer :=
  forwarded h (fun h => onWrite h (rowL h e) (fun _ d => d.pendCmd h e c .hold byRow))
def execResume (h : Half) (e : Fin 8) (c : Fin 32) (byRow : Bool) : State → Answer :=
  forwarded h (fun h => onWrite h (rowL h e) (fun _ d => d.pendCmd h e c .resume byRow))
def execStop (h : Half) (e : Fin 8) (c : Fin 32) (byRow : Bool) : State → Answer :=
  forwarded h (fun h => onWrite h (rowL h e) (fun _ d => d.pendCmd h e c .stop byRow))
def execAbort (h : Half) (e : Fin 8) (c : Fin 32) : State → Answer := forwarded h (fun h => onWrite h (rowL h e) (fun _ d => d.abort h e c))
/-- ROW_CMD_RESERVED (Table 03.2). -/
def execRowCmdReserved (h : Half) (e : Fin 8) (c : Fin 32) : State → Answer := forwarded h (fun h => onWrite h (rowL h e) (fun _ d => d.cmdRej h e c))

/-- A write of ROW_CMD by its value. -/
def Dev.rowCmd (d : Dev) (h : Half) (e c v : Nat) : Dev :=
  match v % 16 with
  | 1 => d.arm h e c
  | 2 => d.pendCmd h e c .hold (bit v 8)
  | 3 => d.pendCmd h e c .resume (bit v 8)
  | 4 => d.pendCmd h e c .stop (bit v 8)
  | 5 => d.abort h e c
  | _ => d.cmdRej h e c

/-- Does any queue of the half hold an event of the context, or is a row of it still on its way there? -/
def Dev.ctxBusy (d : Dev) (h : Half) (e c : Nat) : Bool :=
  let g := d.eng h e
  d.chans.any (fun k => decide (k.1 / 65536 = h.n) && k.2.q.any (fun ev => ev.ctx = 32 * e + c))
    || g.cur.any (fun x => x.ctx = c) || g.ready.any (fun x => x.due.ctx = c) || g.lane.any (fun x => x.ctx = c)

/-- DRAINING_COMPLETE (R76). -/
def Dev.drained (d : Dev) (h : Half) (e c : Nat) : Dev :=
  if d.cst h e c = .draining ∧ d.ctxBusy h e c = false then (d.setCst h e c .idle).modCx h e c (fun x => { x with cmd := none }) else d

def execDrainingComplete (h : Half) (e : Fin 8) (c : Fin 32) : State → Answer :=
  onBlock h (rowL h e) (fun s => s.dev.drained h e c)

/-! ### Bindings that only an IDLE context takes (R75, R126, R128, R349) -/

/-- A write of an IDLE-only register of a context at offset `off` of location `l` with writable bits `mask`. -/
def Dev.idleWrite (d : Dev) (h : Half) (e c : Nat) (l off mask : Nat) (v : Word) : Dev :=
  if d.cst h e c = .idle then d.wr l off (maskPut mask v (d.rd l off)) else d.raiseCtx (rowL h e) c 4

/-- ROW_BIND_WRITE (R75). -/
def Dev.bindWrite (d : Dev) (h : Half) (e c : Nat) (v : Word) : Dev :=
  d.idleWrite h e c (cxL h e c) ROW_BIND.BEAM.off 0xFFFF3FFF v
def execRowBindWrite (h : Half) (e : Fin 8) (c : Fin 32) (v : Word) : State → Answer :=
  forwarded h (fun h => onWrite h (rowL h e) (fun _ d => d.bindWrite h e c v))

/-- Does another context of the half name commit group `g` (R126)? -/
def Dev.groupNamed (d : Dev) (h : Half) (e c g : Nat) : Bool :=
  g ≠ 0 && (List.range 8).any (fun e2 => (List.range 32).any (fun c2 =>
    (e2 ≠ e || c2 ≠ c) && d.g (rowL h e2) (ROW_XCFG.GRP.ix c2) == g))

/-- ROW_HISTORY_WRITE (R126, R128): register 0 is ROW_HRc_LO, 1 ROW_HRc_HI, 2 ROW_XCFGc. -/
def Dev.histWrite (d : Dev) (h : Half) (e c which : Nat) (v : Word) : Dev :=
  match which with
  | 0 => d.idleWrite h e c (rowL h e) (ROW_HR_LO.DLOG2.ix c).off 0xFFF0001F v
  | 1 => d.idleWrite h e c (rowL h e) (ROW_HR_HI.BASE_HI.ix c).off 0xFF v
  | _ => if d.groupNamed h e c (fget ROW_XCFG.GRP v) then d.raiseCtx (rowL h e) c 4
    else d.idleWrite h e c (rowL h e) (ROW_XCFG.LPEN.ix c).off 0xFFFF007F v
def execRowHistoryWrite (h : Half) (e : Fin 8) (c : Fin 32) (which : Fin 3) (v : Word) : State → Answer :=
  forwarded h (fun h => onWrite h (rowL h e) (fun _ d => d.histWrite h e c which v))

/-- ROW_RIDX_WRITE (R349). -/
def Dev.ridxWrite (d : Dev) (h : Half) (e c : Nat) (v : Word) : Dev :=
  d.idleWrite h e c (rowL h e) (ROW_RIDX.BASE.ix c).off 0x8FFFFFFF v
def execRowRidxWrite (h : Half) (e : Fin 8) (c : Fin 32) (v : Word) : State → Answer :=
  forwarded h (fun h => onWrite h (rowL h e) (fun _ d => d.ridxWrite h e c v))

/-! ### Cache invalidation (R93, R113) -/

/-- BASE and LEN as sampled at the write. -/
def Dev.invRange (d : Dev) (h : Half) (e : Nat) : Inval :=
  let l := rowL h e
  .range (d.g l ROW_TCINV_BASE_LO.BASE * 64 + d.g l ROW_TCINV_BASE_HI.BASE * 2 ^ 32) (d.g l ROW_TCINV_LEN.LEN * 64)
/-- Does an invalidation cover a 64-byte line? -/
def Inval.covers (i : Inval) (line : Nat) : Bool :=
  match i with
  | .all => true
  | .range b n => decide (b ≤ line * 64) && decide (line * 64 < b + n)

/-- A write of ROW_TCINV. Writing ALL and RANGE together performs ALL (R98). A second write while BUSY is 1 takes the place of the one that waits:
the manual does not say what it does (DESIGN CHOICE, notes/assumptions/105.md). -/
def Dev.tcInv (d : Dev) (h : Half) (e : Nat) (all : Bool) : Dev :=
  (d.modEng h e (fun x => { x with tinv := some (if all then .all else d.invRange h e) })).p (rowL h e) ROW_TCINV.BUSY 1
def Dev.mcInv (d : Dev) (h : Half) (e : Nat) (all : Bool) : Dev :=
  (d.modEng h e (fun x => { x with minv := some (if all then .all else d.invRange h e) })).p (rowL h e) ROW_MCINV.BUSY 1
def execTcinvAll (h : Half) (e : Fin 8) : State → Answer := forwarded h (fun h => onWrite h (rowL h e) (fun _ d => d.tcInv h e true))
def execTcinvRange (h : Half) (e : Fin 8) : State → Answer := forwarded h (fun h => onWrite h (rowL h e) (fun _ d => d.tcInv h e false))
def execMcinvAll (h : Half) (e : Fin 8) : State → Answer := forwarded h (fun h => onWrite h (rowL h e) (fun _ d => d.mcInv h e true))
def execMcinvRange (h : Half) (e : Fin 8) : State → Answer := forwarded h (fun h => onWrite h (rowL h e) (fun _ d => d.mcInv h e false))

/-- TCINV_DONE (R93): between renders only. -/
def Dev.tcInvDone (d : Dev) (h : Half) (e : Nat) : Dev :=
  match (d.eng h e).cur, (d.eng h e).lcur, (d.eng h e).tinv with
  | none, none, some i => ((d.modEng h e (fun x => { x with tc := x.tc.filter (fun y => !i.covers y.1), tinv := none })).p (rowL h e)
      ROW_TCINV.BUSY 0).raise (rowL h e) 6
  | _, _, _ => d
/-- MCINV_DONE (R113). -/
def Dev.mcInvDone (d : Dev) (h : Half) (e : Nat) : Dev :=
  match (d.eng h e).cur, (d.eng h e).lcur, (d.eng h e).minv with
  | none, none, some i => ((d.modEng h e (fun x => { x with mc := x.mc.filter (fun y => !i.covers y.1), minv := none })).p (rowL h e)
      ROW_MCINV.BUSY 0).raise (rowL h e) 13
  | _, _, _ => d
def execTcinvDone (h : Half) (e : Fin 8) : State → Answer := onBlock h (rowL h e) (fun s => s.dev.tcInvDone h e)
def execMcinvDone (h : Half) (e : Fin 8) : State → Answer := onBlock h (rowL h e) (fun s => s.dev.mcInvDone h e)

/-! ### Motif attribute store (R102–R104) -/

/-- The key of a master's copy of something on page `p`. -/
def perMaster (p : Nat) (m : Master) : Nat := p * 256 + m.id
/-- An entry of an engine's attribute store. -/
def Dev.motif (d : Dev) (h : Half) (e i : Nat) : Nat := SMap.get (fun _ => 0) d.motifs ((h.n * 8 + e) * 4096 + i)
/-- A master's staging word. -/
def Dev.stage (d : Dev) (p : Nat) (m : Master) (k : Nat) : Word := SMap.get (fun _ => 0) d.staging (perMaster p m * 8 + k)
def Dev.setStage (d : Dev) (p : Nat) (m : Master) (k : Nat) (w : Word) : Dev :=
  { d with staging := SMap.set (fun _ => 0) d.staging (perMaster p m * 8 + k) w }
/-- A master's ROW_MAW_IDX. -/
def Dev.maw (d : Dev) (p : Nat) (m : Master) : Word := SMap.get (fun _ => 0) d.mawIdx (perMaster p m)
def Dev.setMaw (d : Dev) (p : Nat) (m : Master) (w : Word) : Dev :=
  { d with mawIdx := SMap.set (fun _ => 0) d.mawIdx (perMaster p m) w }

/-- MAW_IDX_WRITE (R103): loads the entry into the staging words. -/
def Dev.mawIdxWrite (d : Dev) (m : Master) (h : Half) (e : Nat) (v : Word) : Dev :=
  let p := pageOf h.n .row e
  let w := v &&& 0x00010FFF
  let x := d.motif h e (fget ROW_MAW_IDX.IDX w)
  (List.range 8).foldl (fun y k => y.setStage p m k (BitVec.ofNat 32 (x / 2 ^ (32 * k)))) (d.setMaw p m w)
def execMawIdxWrite (m : Master) (h : Half) (e : Fin 8) (v : Word) : State → Answer :=
  forwardedBy m h (fun h => onWrite h (rowL h e) (fun _ d => d.mawIdxWrite m h e v))

/-- Does entry `i` lie in the motif table that a register set names? -/
def inTable (mtab : Word) (i : Nat) : Bool :=
  decide (fget ROW_MTAB.BASE mtab ≤ i) && decide (i < fget ROW_MTAB.BASE mtab + fget ROW_MTAB.COUNT mtab)

/-- MAW_ENTRY_WRITE (R103, R104): all eight staging words go to the entry as one unit. -/
def Dev.mawEntryWrite (d : Dev) (m : Master) (h : Half) (e : Nat) (v : Word) : Dev :=
  let p := pageOf h.n .row e
  let l := rowL h e
  let w := d.maw p m
  let i := fget ROW_MAW_IDX.IDX w
  let d1 := d.setStage p m 7 v
  let x := (List.range 8).foldr (fun k acc => acc * 2 ^ 32 + (d1.stage p m k).toNat) 0
  let d2 := { d1 with motifs := SMap.set (fun _ => 0) d1.motifs ((h.n * 8 + e) * 4096 + i) x,
                      ueWords := d1.ueWords.filter (fun u => u ≠ (p, 4, i)) }
  let d3 := if fget ROW_MAW_IDX.AUTOINC w = 1 then d2.setMaw p m (fput ROW_MAW_IDX.IDX (i + 1) w) else d2
  (List.range 32).foldl (fun y c =>
    if y.cst h e c ≠ .idle ∧ (inTable (y.rd (cxL h e c) 0x140) i ∨ inTable (y.rdS (cxL h e c) 0x140) i) then
      (y.sat l (ROW_MERR.LIVEWR.ix c)).raiseCtx l c 10
    else y) d3
def execMawEntryWrite (m : Master) (h : Half) (e : Fin 8) (v : Word) : State → Answer :=
  forwardedBy m h (fun h => onWrite h (rowL h e) (fun _ d => d.mawEntryWrite m h e v))

/-! ### The register image of a row (Table 05.2) -/

/-- The ROW page offsets of the image words, in the order of a record from 0x080. -/
def imageOffs : List Nat :=
  [0x100, 0x140, 0x144, 0x148] ++ (List.range 16).map (fun k => 0x180 + 4 * k)
    ++ (List.range 16).flatMap (fun t => [0x200 + 8 * t, 0x204 + 8 * t])
    ++ (List.range 8).flatMap (fun p => (List.range 11).map (fun j => 0x300 + 0x40 * p + 4 * j))
/-- The active set of a context as an image. -/
def Dev.image (d : Dev) (h : Half) (e c : Nat) : List Word := imageOffs.map (fun o => d.rd (cxL h e c) o)
/-- Word `i` of an image. -/
def imgAt (img : List Word) (i : Nat) : Word := img.getD i 0
/-- A field of plane `p` of an image: `j` is the place of its register in Table 05.2. -/
def imgP (img : List Word) (p j : Nat) (f : Fld) : Nat := fget f (imgAt img (52 + 11 * p + j))
/-- W, Wc, Hc, S and D of a plane of an image (R85, R88). -/
def imgS (img : List Word) (p : Nat) : Nat := 2 ^ (3 + imgP img p 0 ROW_PCFG.TSIZE)
def imgD (img : List Word) (p : Nat) : Nat := 2 ^ imgP img p 0 ROW_PCFG.DEPTH
def imgWt (img : List Word) (p : Nat) : Nat := imgP img p 3 ROW_PDIM.WT_M1 + 1
def imgHt (img : List Word) (p : Nat) : Nat := imgP img p 3 ROW_PDIM.HT_M1 + 1
/-- Is a plane enabled in an image (R90)? -/
def imgEn (img : List Word) (p : Nat) : Bool := bit (fget ROW_CPLEN.PLANE_EN (imgAt img 0)) p

/-- The refusal codes of an incoming context set (R97, Tables 03.11 and 04.7). -/
def Dev.setCodes (d : Dev) (h : Half) (e c : Nat) : List Nat :=
  let lc := cxL h e c
  let en (p : Nat) : Bool := bit (d.gS lc ROW_CPLEN.PLANE_EN) p
  let planes := List.range 8
  let base := d.gS lc ROW_MTAB.BASE
  let n := d.gS lc ROW_MTAB.COUNT
  let men : Bool := d.gS lc ROW_MCFG.MEN = 1
  (if planes.any (fun p => en p && d.gS lc (ROW_PCFG.DEPTH.ix p) == 3) then [0x50] else [])
  ++ (if planes.any (fun p => en p && (d.gS lc (ROW_PTCNT.COUNT.ix p) == 0 || decide (1048576 < d.gS lc (ROW_PTCNT.COUNT.ix p)))) then [0x51] else [])
  ++ (if men && decide (4096 < base + n) then [0x52] else [])
  ++ (if men && decide (1024 < n) then [0x53] else [])

end Sys2Proof.Machine
end

