-- ==== Sys2Proof/Machine/Trigger.lean ====
section
/-!
DEFINITION. The row boundary (R36, R37, R77–R80, R87, R94, R97, R121–R127), direction and state markers, reversal and its
fills (R134–R140), the harness bank window and its commit (R147), and the cancellation scans that fills wait for (R158).
-/
namespace Sys2Proof.Machine

open Sys2Proof

/-! ### Harness banks (R145, R147) -/

def Dev.harn (d : Dev) (h : Half) : Harness := SMap.get (fun _ => {}) d.harness h.n
def Dev.modHarn (d : Dev) (h : Half) (f : Harness → Harness) : Dev := { d with harness := SMap.modify (fun _ => {}) d.harness h.n f }
/-- The active and the shadow bank. -/
def Harness.active (x : Harness) : SMap Nat := if x.active1 then x.bank1 else x.bank0
def Harness.shadow (x : Harness) : SMap Nat := if x.active1 then x.bank0 else x.bank1
def Harness.setShadow (x : Harness) (b : SMap Nat) : Harness := if x.active1 then { x with bank0 := b } else { x with bank1 := b }
/-- A channel's entry in a bank; the fill of R332 left every entry 0. -/
def entryOf (b : SMap Nat) (ch : Nat) : Nat := SMap.get (fun _ => 0) b ch
/-- Fields of a harness entry (Table 06.1). -/
def enCtx (x : Nat) : Nat := x % 256
def enCol (x : Nat) : Nat := x / 2 ^ 8 % 65536
def enXform (x : Nat) : Nat := x / 2 ^ 24 % 16
def enGrp (x : Nat) : Nat := x / 2 ^ 28 % 16

/-- HRN_TW_DATA_WRITE (R147): the shadow bank takes an entry, unless a request is pending or the copy runs. -/
def Dev.twWrite (d : Dev) (h : Half) (v : Word) : Dev :=
  let l := hLoc h .hrn
  if d.on l PG_COMMIT.PENDING || d.on l HRN_STAT.COPY || d.on l HRN_STAT.VALIDATING then d.raise l 2
  else
    let i := d.g l HRN_TW_IDX.IDX
    let d1 := { d.modHarn h (fun x => x.setShadow (SMap.set (fun _ => 0) x.shadow i v.toNat)) with
      ueWords := d.ueWords.filter (fun u => u ≠ (pageOf h.n .hrn 0, if (d.harn h).active1 then 0 else 1, i)) }
    if d.on l HRN_TW_IDX.AUTOINC then d1.p l HRN_TW_IDX.IDX (i + 1) else d1
def execHrnTwDataWrite (h : Half) (v : Word) : State → Answer := forwarded h (fun h => onWrite h (hLoc h .hrn) (fun _ d => d.twWrite h v))

/-- The segment maps of a bank (R147): contexts with their 64-bit maps. Every channel that is not OFF counts. -/
def segMaps (b : SMap Nat) : SMap Nat :=
  let listed := b.foldl (fun m e =>
    if enXform e.2 = 15 then m else SMap.modify (fun _ => 0) m (enCtx e.2) (fun v => v ||| 2 ^ (e.1 / 1024))) []
  -- a channel that is not listed names context 0 with column 0
  (List.range 64).foldl (fun m s =>
    if (b.filter (fun e => e.1 / 1024 = s)).length < 1024 then SMap.modify (fun _ => 0) m 0 (fun v => v ||| 2 ^ s) else m) listed

/-- A page swaps: the shadow registers become active, RESULT reads OK and the request is done (R487, R490). -/
def Dev.swapPage (d : Dev) (l : Loc) : Dev :=
  let block (k : Nat) : Bool := l + 0x40 ≤ k && k < l + 0x800
  let m := (d.shadow.filter (fun e => block e.1)).foldr (fun e m => SMap.set regReset m e.1 e.2) (SMap.erase block d.regs)
  let d1 := { d with regs := m }
  (d1.p l PG_COMMIT.PENDING 0).p l PG_COMMIT.RESULT 0
/-- A page is refused with a code and raises its CFG_ERR event `ev` (R490). -/
def Dev.refusePage (d : Dev) (l : Loc) (code ev : Nat) : Dev := (d.p l PG_COMMIT.RESULT code).raise l ev

/-- The swap of the HRN page exchanges the banks and starts the copy back (R147). -/
def Dev.swapHrn (d : Dev) (h : Half) : Dev :=
  ((d.swapPage (hLoc h .hrn)).modHarn h (fun x => { x with active1 := !x.active1, maps := x.newMaps })).p (hLoc h .hrn) HRN_STAT.COPY 1

/-- HRN_COPY_DONE (R147): the shadow bank is a copy of the active one; an uncorrectable word of the active bank is copied as an
entry with XFORM = 15 and reported. -/
def Dev.hrnCopyDone (d : Dev) (h : Half) : Dev :=
  let l := hLoc h .hrn
  if d.on l HRN_STAT.COPY then
    let x := d.harn h
    let act := if x.active1 then 1 else 0
    let bad := (d.ueWords.filter (fun u => decide (u.1 = pageOf h.n .hrn 0) && decide (u.2.1 = act))).map (fun u => u.2.2)
    let d1 := { (d.modHarn h (fun y => y.setShadow (bad.foldl (fun b ch => SMap.set (fun _ => 0) b ch (15 * 2 ^ 24)) y.active))).p l HRN_STAT.COPY 0 with
      ueWords := d.ueWords.filter (fun u => !(decide (u.1 = pageOf h.n .hrn 0) && decide (u.2.1 = 1 - act))) }
    bad.foldl (fun y ch => ((y.sat l HRN_UE.COUNT).raise l 3).eccUe h (pageOf h.n .hrn 0) 0 (act * 32768 + ch / 2) true ch) d1
  else d
def execHrnCopyDone (h : Half) : State → Answer := onBlock h (hLoc h .hrn) (fun s => s.dev.hrnCopyDone h)

/-! ### Row-boundary groups (R126) -/

/-- The pages of a half whose armed request is of row-boundary group `g`: their locations and CFG_ERR events. -/
def Dev.rowGroup (d : Dev) (h : Half) (g : Nat) : List (Loc × Nat) :=
  if g = 0 then [] else
    (((List.range 8).map (fun e => (rowL h e, 7))) ++ [(hLoc h .hrn, 4)]).filter (fun p =>
      d.on p.1 PG_COMMIT.PENDING && d.g p.1 PG_COMMIT.GROUP == g && d.g p.1 PG_COMMIT.BOUND == 1)
/-- Has the group's request reached its last page: no bank validation of it is running (R126, R147)? -/
def Dev.groupReady (d : Dev) (h : Half) (g : Nat) : Bool :=
  !((d.rowGroup h g).any (fun p => p.1 == hLoc h .hrn) && d.on (hLoc h .hrn) HRN_STAT.VALIDATING)
/-- Swap the pages of a row-boundary group. -/
def Dev.swapRowGroup (d : Dev) (h : Half) (ps : List (Loc × Nat)) : Dev :=
  ps.foldl (fun x p => if p.1 = hLoc h .hrn then x.swapHrn h else x.swapPage p.1) d

/-! ### Triggers -/

/-- What a due entry captures of the harness unit (R148). -/
def Dev.capture (d : Dev) (h : Half) (e c : Nat) (x : Due) : Due :=
  let l := hLoc h .hrn
  let hr := d.harn h
  { x with bank := hr.active, gmask := d.g l HRN_GMASK.MASK, goff := (List.range 16).map (fun g => d.g l (HRN_GOFF.GOFF.ix g)),
           segs := SMap.get (fun _ => 0) hr.maps (32 * e + c), phys := b2n hr.active1 }

/-- Production work abandons a Loupe render (R83); its request restarts when the due list is next empty. -/
def Dev.loupeAbandon (d : Dev) (h : Half) (e : Nat) : Dev :=
  match (d.eng h e).loupe with
  | none => d
  | some q =>
    let d1 := d.modEng h e (fun x => { (if x.lcur.isSome then x.clearPipe else x) with lcur := none, loupe := none, loupeQ := q :: x.loupeQ })
    (if (d.eng h e).lcur.isSome then d1.p (rowL h e) ROW_STAT.BUSY 0 else d1).p (rowL h e) ROW_STAT.LOUPE 0

/-- Put a due entry at the tail of the due list, or behind the context's cancellation while that runs (R134). -/
def Dev.addDue (d : Dev) (h : Half) (e c : Nat) (x : Due) : Dev :=
  if (d.cx h e c).waiting then d.modCx h e c (fun y => { y with held := y.held ++ [x] })
  else (d.modEng h e (fun y => { y with due := y.due ++ [x] })).loupeAbandon h e

/-- A fresh batch number (R138). -/
def Dev.newBatch (d : Dev) (h : Half) (e : Nat) : Nat × Dev :=
  ((d.eng h e).batch + 1, d.modEng h e (fun x => { x with batch := x.batch + 1 }))

/-- The release queue slot of a context at a beam core (R122), and the core's open release (R123). -/
def Dev.slot (d : Dev) (h : Half) (core c : Nat) : Option Release := SMap.get (fun _ => none) d.slots ((h.n * 16 + core) * 32 + c)
def Dev.setSlot (d : Dev) (h : Half) (core c : Nat) (r : Option Release) : Dev :=
  { d with slots := SMap.set (fun _ => none) d.slots ((h.n * 16 + core) * 32 + c) r }
def Dev.openR (d : Dev) (h : Half) (core : Nat) : Option Release := SMap.get (fun _ => none) d.openRel (h.n * 16 + core)
def Dev.setOpen (d : Dev) (h : Half) (core : Nat) (r : Option Release) : Dev :=
  { d with openRel := SMap.set (fun _ => none) d.openRel (h.n * 16 + core) r }
/-- The beam core of a context's line program (R121). -/
def Dev.lpCore (d : Dev) (h : Half) (e c : Nat) : Nat := 2 * e + d.g (rowL h e) (ROW_XCFG.LPCORE.ix c)

/-- Step 1: the late prologue of R37 and R123. -/
def Dev.lateAt (d : Dev) (h : Half) (e c : Nat) : Bool :=
  let core := d.lpCore h e c
  d.on (rowL h e) (ROW_XCFG.LPEN.ix c) && ((d.slot h core c).isSome || (d.openR h core).any (fun r => r.ctx = c))

/-- Step 1: the set and the group of the context swap, or are refused (R97, R125, R126). Answers whether the set swapped. -/
def Dev.step1Swap (d : Dev) (h : Half) (e c : Nat) : Bool × Dev :=
  let l := rowL h e
  let lc := cxL h e c
  let g := d.g l (ROW_XCFG.GRP.ix c)
  let ps := if d.groupReady h g then d.rowGroup h g else []
  match d.setCodes h e c with
  | [] =>
    let d1 := imageOffs.foldl (fun x o => x.wr lc o (d.rdS lc o)) d
    (true, d1.swapRowGroup h ps)
  | code :: _ =>
    let d1 := ((((d.p lc ROW_CSTAT.REFUSE code).p l PG_COMMIT.RESULT code).sat lc ROW_CCNT_XING.REFUSED).raiseCtx l c 2)
    if d.on l (ROW_XCFG.GLINK.ix c) then (false, ps.foldl (fun x p => x.refusePage p.1 5 p.2) d1)
    else (false, d1.swapRowGroup h ps)

/-- Step 1: YLOAD, then capture, then the advance of every plane (R87). Answers the captured Y and the loaded planes. -/
def Dev.step1Y (d : Dev) (h : Half) (e c : Nat) (swapped : Bool) : List Nat × Nat × Dev :=
  let lc := cxL h e c
  let loads := (List.range 8).filter (fun p => swapped && d.on lc (ROW_PYLD.LOAD.ix p))
  let d1 := loads.foldl (fun x p => (x.pB lc (ROW_PYLD.LOAD.ix p) 0).p lc (ROW_PYPOS.Y.ix p) (x.g lc (ROW_PYLD.Y.ix p) % x.planeHc h e c p)) d
  let ys := (List.range 8).map (fun p => d1.g lc (ROW_PYPOS.Y.ix p))
  let d2 := (List.range 8).foldl (fun x p => x.p lc (ROW_PYPOS.Y.ix p) ((x.g lc (ROW_PYPOS.Y.ix p) + 1) % x.planeHc h e c p)) d1
  (ys, loads.foldl (fun v p => v + 2 ^ p) 0, d2)

/-- Step 2: the release of row `r` (R122). -/
def Dev.release (d : Dev) (h : Half) (e c r : Nat) : Dev :=
  let l := rowL h e
  let core := d.lpCore h e c
  let first := (d.cx h e c).first
  if d.on l (ROW_XCFG.LPEN.ix c) then
    let d1 := d.modCx h e c (fun x => { x with first := false })
    match d.slot h core c with
    | none => d1.setSlot h core c (some ⟨c, r, false, first⟩)
    | some old => ((d1.setSlot h core c (some ⟨c, r, true, old.first || first⟩)).sat l (ROW_RERR.SKIPS.ix c)).raiseCtx l c 20
  else d

/-- After step 2: the page-ahead request of row `n + L + AHEAD` (R94). -/
def Dev.pageAhead (d : Dev) (h : Half) (e c n rev8 angle : Nat) : Dev :=
  let ahead := d.g (cxL h e c) ROW_PAGE.AHEAD
  if ahead = 0 then d
  else
    let b := d.beamOf h e c
    let now := d.g (hLoc h .beam) (BEAM_REV.REV.ix b)
    let rev := (now + usgn 32 (sgn 8 (rev8 + 256 - now % 256)) + ahead) % 2 ^ 32
    let t := d.predict h b rev angle
    let q : PageReq := ⟨e, c, (n + d.leadOf h e c + ahead) % 2 ^ 32, if t.never || t.far then 2 ^ 64 - 1 else t.time % 2 ^ 64⟩
    match h with | .A => { d with pagesA := d.pagesA ++ [q] } | .B => { d with pagesB := d.pagesB ++ [q] }

/-- Does pipe `k` log the forward triggers of a context: it is enabled, with a travel log of a legal size (R252)? -/
def Dev.travelLogs (d : Dev) (h : Half) (e c k : Nat) : Bool :=
  let l := hLoc h .lpe k
  d.clocked l && d.g l LPE_BIND.ENGINE == e && d.g l LPE_BIND.CTX == c && decide (8 ≤ d.g l LPE_TLOG_LO.DLOG2) && decide (d.g l LPE_TLOG_LO.DLOG2 ≤ 16)
/-- The entry that pipe `k` writes: its address and its bytes (Table 09.3). -/
def Dev.travelEntry (d : Dev) (h : Half) (e c n k : Nat) : Nat × List Byte :=
  let l := hLoc h .lpe k
  let b := d.g l LPE_BIND.TBEAM
  let base := halfAddr h (d.g l LPE_TLOG_LO.BASE * 2 ^ 12 + d.g l LPE_TLOG_HI.BASE * 2 ^ 32)
  let pos := d.g (hLoc h .beam) (BEAM_ANGLE.ANGLE.ix b) + d.g (hLoc h .beam) (BEAM_REV.REV.ix b) * 2 ^ 32
  (base + n % 2 ^ d.g l LPE_TLOG_LO.DLOG2 * 16, toBytes (n % 2 ^ 32 + (d.cx h e c).armgen * 2 ^ 32 + pos * 2 ^ 64) 16)
/-- The travel-log entries of a forward trigger of row `n` (R252), which the pipes keep as the newest (R253). `d` is the state at the trigger's
reference point, `x` the state the entries are written in. -/
def Dev.travelLog (d x : Dev) (r : Referee) (h : Half) (e c n : Nat) : List MemOp × Dev :=
  ((List.range 2).filter (fun k => d.travelLogs h e c k)).foldl (fun y k =>
    let t := d.travelEntry h e c n k
    let z := storeMem r y.2 h (h.n + 1) t.1 t.2
    (y.1 ++ z.1, { z.2 with pipes := SMap.modify (fun _ => {}) z.2.pipes (h.n * 2 + k) (fun q => { q with newest := some (n % 2 ^ 32, (d.cx h e c).armgen) }) }))
    ([], x)

/-- The due entry of a forward render of row `r` (R130): a new row runs steps 1 and 2 now; a replay runs neither. A new row that has started and
is not recorded yet is no new row again (R133). -/
def Dev.forwardDue (d : Dev) (h : Half) (e c r rev8 batch : Nat) : Due × Dev :=
  let l := rowL h e
  let lc := cxL h e c
  let bind := d.rd lc ROW_BIND.BEAM.off
  if 0 < rowDiff r (d.hwmAfter h e c) then
    let late := d.lateAt h e c
    let d1 := if late then (d.sat lc ROW_CCNT_LATE.LATE).raiseCtx l c 1 else d
    let sw := d1.step1Swap h e c
    let y := sw.2.step1Y h e c sw.1
    let x : Due := { ctx := c, row := r, kind := .new, batch := batch, image := y.2.2.image h e c, ys := y.1, bind := bind, tb := d.tb h, rev := rev8,
                     late := late, refused := !sw.1, yloaded := y.2.1 }
    let d2 := (y.2.2.p l (ROW_REVST.PHASE.ix c) 0).release h e c r
    (y.2.2.capture h e c x, d2)
  else (d.capture h e c { ctx := c, row := r, kind := .replay, batch := batch, bind := bind, tb := d.tb h, rev := rev8 }, d)

/-- The angle of a context's tap at the sampling edge that raised a crossing (R151): that of the crossing record as it was delivered; where no
such record stands, the angle of the active set (notes/assumptions/30.md). -/
def Dev.crossAngle (d : Dev) (h : Half) (e c : Nat) (dir : Bool) (rev8 : Nat) : Nat :=
  let b := d.beamOf h e c
  let t := d.g (cxL h e c) ROW_BIND.TAP
  match (d.xl h).reverse.find? (fun x => x.kind == .crossing && x.beam == b && x.tap == t && x.dir == dir && x.rev % 256 == rev8 % 256) with
  | some x => x.angle
  | none => d.tapAngle h b t

/-- A forward trigger of row `n` at a crossing with revolution byte `rev8` (R77, R82, R151). -/
def Dev.trigger (d : Dev) (r : Referee) (h : Half) (e c n rev8 : Nat) : List MemOp × Dev :=
  let lc := cxL h e c
  let angle := d.crossAngle h e c false rev8
  let d1 := (d.p lc ROW_ROWNUM.N n).modCx h e c (fun x => { x with ka := n % 2 ^ 32, pa := rev8 % 256 * 2 ^ 32 + angle })
  if d.parked h e c then ([], d1.ctxFault h e c 2)
  else if d.dueOf h e c ≠ [] then ([], d1.ctxFault h e c 1)
  else
    let b := d1.newBatch h e
    let x := b.2.forwardDue h e c ((n + d.leadOf h e c) % 2 ^ 32) rev8 b.1
    d.travelLog (((x.2.pageAhead h e c n rev8 angle).addDue h e c x.1).loupeAbandon h e) r h e c (n % 2 ^ 32)

/-! ### Fills (R134, R137, R139): their entries are made at their reference point and added once the cancellation is complete -/

/-- A cancellation is ordered, behind which the context's renders wait. -/
def Dev.cancelFirst (d : Dev) (h : Half) (e c : Nat) (dir : Bool) : Dev :=
  (d.modCx h e c (fun x => { x with waiting := true })).requestScan h ⟨32 * e + c, some dir, true⟩
/-- The reverse re-renders of rows n − 1 to n − L (R134 step 5). -/
def Dev.fillBack (d : Dev) (h : Half) (e c n : Nat) : Dev :=
  let b := d.newBatch h e
  (List.range (d.leadOf h e c)).foldl (fun x i =>
    x.addDue h e c (x.capture h e c { ctx := c, row := (n + 2 ^ 32 - 1 - i) % 2 ^ 32, kind := .reverse, batch := b.1, bind := d.rd (cxL h e c) ROW_BIND.BEAM.off,
                                      tb := d.tb h, rev := (d.cx h e c).pa / 2 ^ 32 })) b.2
/-- The forward renders of `count` rows from `lo` (R137 step 5, R139 step 3). -/
def Dev.fillAhead (d : Dev) (h : Half) (e c lo count : Nat) : Dev :=
  let b := d.newBatch h e
  (List.range count).foldl (fun x i =>
    let y := x.forwardDue h e c ((lo + i) % 2 ^ 32) ((d.cx h e c).pa / 2 ^ 32) b.1
    y.2.addDue h e c y.1) b.2

/-- RESUME on a context that a reversal limit holds (R139): at the trigger of row `k`. -/
def Dev.resumeLimit (d : Dev) (h : Half) (e c k rev8 : Nat) : Dev :=
  let l := rowL h e
  let lc := cxL h e c
  let angle := d.crossAngle h e c false rev8
  ((((((d.p lc ROW_ROWNUM.N k).p l (ROW_REVST.REVHELD.ix c) 0).p l (ROW_REVST.PHASE.ix c) 2).modCx h e c
    (fun x => { x with ka := k % 2 ^ 32, pa := rev8 % 256 * 2 ^ 32 + angle })).pageAhead h e c k rev8 angle).cancelFirst h e c true).fillAhead h e c k
    (d.leadOf h e c + 1)

/-- Does a pending row-boundary command act at the boundary of row `n`? -/
def Ctx.actsAt (x : Ctx) (n : Nat) : Option RowCmd :=
  match x.cmd with
  | some (k, false, _) => some k
  | some (k, true, row) => if row = n then some k else none
  | none => none

/-- ROW_TRIGGER (R36): a forward crossing of the context's tap. -/
def Dev.forward (d : Dev) (r : Referee) (h : Half) (e c rev8 : Nat) : List MemOp × Dev :=
  let lc := cxL h e c
  let sync : Bool := bit (d.eng h e).syncs (d.beamOf h e c)
  let ahead : Bool := !bit (d.eng h e).backs (d.beamOf h e c)
  let done (x : Dev) : Dev := x.modCx h e c (fun y => { y with cmd := none })
  match d.cst h e c with
  | .armed =>
    if sync then (d.setCst h e c .running).trigger r h e c (((d.cx h e c).start + 2 ^ 32 - d.leadOf h e c) % 2 ^ 32) rev8 else ([], d)
  | .running =>
    let n := (d.rownum h e c + 1) % 2 ^ 32
    (match (d.cx h e c).actsAt n with
     | some .hold => ([], (done d).enterHold h e c false)
     | some .stop => ([], ((done d).dropDue h e c).setCst h e c .draining)
     | some .resume => ((done d).cmdRej h e c).trigger r h e c n rev8
     | none => d.trigger r h e c n rev8)
  | .hold =>
    if sync && ahead then
      let n := (d.g lc ROW_HELDN.N + 1) % 2 ^ 32
      let d1 := d.p lc ROW_HELDN.N n
      let held (x : Dev) : Dev := x.sat lc ROW_CCNT_XING.HELD
      let k := (d.rownum h e c + 1) % 2 ^ 32
      (match (d.cx h e c).actsAt n with
       | some .resume =>
         let d2 := (done d1).setCst h e c .running
         if d.on (rowL h e) (ROW_REVST.REVHELD.ix c) then d.travelLog ((d2.resumeLimit h e c k rev8).loupeAbandon h e) r h e c k
         else d2.trigger r h e c k rev8
       | some .stop => ([], ((held (done d1)).dropDue h e c).setCst h e c .draining)
       | some .hold => ([], (held (done d1)).cmdRej h e c)
       | none => ([], held d1))
    else ([], d.sat lc ROW_CCNT_XING.HELD)
  | _ => ([], d)

def execRowTrigger (h : Half) (e : Fin 8) (c : Fin 32) (rev8 : BitVec 8) : State → Answer :=
  onBlockMem h (rowL h e) (fun s => s.dev.forward s.ref h e c rev8.toNat)

/-- REVERSE_TRIGGER (R135): a reverse crossing that ends the span of row k. -/
def Dev.backward (d : Dev) (h : Half) (e c rev8 : Nat) : Dev :=
  let lc := cxL h e c
  match d.cst h e c with
  | .reversing =>
    let k := d.rownum h e c
    let angle := d.crossAngle h e c true rev8
    let d1 := (d.p lc ROW_ROWNUM.N (k + 2 ^ 32 - 1)).modCx h e c (fun x => { x with ka := k, pa := rev8 % 256 * 2 ^ 32 + angle })
    if d.parked h e c then d1.ctxFault h e c 2
    else if d.dueOf h e c ≠ [] then d1.ctxFault h e c 1
    else
      let b := d1.newBatch h e
      let row := (k + 2 ^ 33 - 1 - d.leadOf h e c) % 2 ^ 32
      let x : Due := { ctx := c, row := row, kind := .reverse, batch := b.1, bind := d.rd lc ROW_BIND.BEAM.off, tb := d.tb h, rev := rev8 }
      (b.2.addDue h e c (b.2.capture h e c x)).loupeAbandon h e
  | .hold => d.sat lc ROW_CCNT_XING.HELD
  | _ => d
def execReverseTrigger (h : Half) (e : Fin 8) (c : Fin 32) (rev8 : BitVec 8) : State → Answer :=
  onBlock h (rowL h e) (fun s => s.dev.backward h e c rev8.toNat)

/-! ### Markers (R79, R80, R134, R137, R140) -/

/-- Change every context of an engine that is bound to beam `b`. -/
def Dev.onBound (d : Dev) (h : Half) (e b : Nat) (f : Dev → Nat → Dev) : Dev :=
  (List.range 32).foldl (fun x c => if x.beamOf h e c = b then f x c else x) d

/-- BEAM_STATE_MARKER (R79, R80): state code of Table 02.1, with the record's DIR. -/
def Dev.stateMarker (d : Dev) (h : Half) (e b code : Nat) (dir : Bool) : Dev :=
  let put (v : Nat) (on : Bool) : Nat := if on then v ||| 2 ^ b else v &&& (15 - 2 ^ b)
  let d1 := d.modEng h e (fun x => { x with syncs := put x.syncs (decide (code = 2)), backs := put x.backs dir })
  if code = 2 then d1
  else
    let d2 := if code = 0 then d1.modHarn h (fun x => { x with offs := x.offs ||| 2 ^ b }) else d1
    d2.onBound h e b (fun x c => match x.cst h e c with
      | .running => x.enterHold h e c false
      | .reversing => x.enterHold h e c false
      | _ => x)
def execBeamStateMarker (h : Half) (e : Fin 8) (b : Fin 4) (code : Fin 4) (dir : Bool) : State → Answer :=
  onBlock h (rowL h e) (fun s => s.dev.stateMarker h e b code dir)

/-- A context at the reverse marker (R134, R140). -/
def Dev.reverseCtx (d : Dev) (h : Half) (e c : Nat) : Dev :=
  let l := rowL h e
  if d.cst h e c = .running then
    if d.on (cxL h e c) ROW_BIND.REVERSIBLE then
      let d1 := ((d.setCst h e c .reversing).p l (ROW_REVST.PHASE.ix c) 1).raiseCtx l c 16
      let d2 := (d1.sat l (ROW_RERR.DUEDROP.ix c) (d.dueCount h e c)).dropDue h e c
      (d2.cancelFirst h e c false).fillBack h e c (d.rownum h e c)
    else d.enterHold h e c false
  else d
/-- REVERSE_DIRECTION_MARKER (R134). -/
def Dev.reverseMarker (d : Dev) (h : Half) (e b : Nat) : Dev :=
  (d.modEng h e (fun x => { x with backs := x.backs ||| 2 ^ b })).onBound h e b (fun x c => x.reverseCtx h e c)
def execReverseDirectionMarker (h : Half) (e : Fin 8) (b : Fin 4) : State → Answer :=
  onBlock h (rowL h e) (fun s => s.dev.reverseMarker h e b)

/-- A context at the forward marker (R137). -/
def Dev.forwardCtx (d : Dev) (h : Half) (e c : Nat) : Dev :=
  let l := rowL h e
  if d.cst h e c = .reversing then
    let m := d.rownum h e c
    let d1 := ((d.setCst h e c .running).p l (ROW_REVST.PHASE.ix c) 2).raiseCtx l c 17
    let d2 := (d1.sat l (ROW_RERR.DUEDROP.ix c) (d.dueCount h e c)).dropDue h e c
    (d2.cancelFirst h e c true).fillAhead h e c (m + 1) (d.leadOf h e c)
  else d
/-- FORWARD_DIRECTION_MARKER (R137). -/
def Dev.forwardMarker (d : Dev) (h : Half) (e b : Nat) : Dev :=
  (d.modEng h e (fun x => { x with backs := x.backs &&& (15 - 2 ^ b) })).onBound h e b (fun x c => x.forwardCtx h e c)
def execForwardDirectionMarker (h : Half) (e : Fin 8) (b : Fin 4) : State → Answer :=
  onBlock h (rowL h e) (fun s => s.dev.forwardMarker h e b)

/-! ### Cancellation scans (R158) -/

/-- CANCEL_SCAN_COMPLETE (R158): the oldest scan of a context ends, and the renders that wait behind it are added. A scan is ordered only once the
renders of the context that have started are complete (R134 step 3, R137 step 3), and after ABORT once the abandoned gather has stopped
(R78); before that there is none to end. -/
def Dev.scanDone (d : Dev) (h : Half) (ctx : Nat) : Dev :=
  let e := ctx / 32
  let c := ctx % 32
  match (d.scans h).find? (fun s => s.ctx = ctx) with
  | none => d
  | some s =>
    let g := d.eng h e
    if (if s.fills then g.started c else g.laneOff && g.lane.any (fun x => x.ctx = c)) then d
    else
      let d1 := (d.setScans h ((d.scans h).erase s)).cancelCtx h ctx s.dir
      let cx := d.cx h e c
      if s.fills && cx.waiting then
        cx.held.foldl (fun x y => x.addDue h e c y) (d1.modCx h e c (fun x => { x with waiting := false, held := [] }))
      else d1
def execCancelScanComplete (h : Half) (ctx : BitVec 8) : State → Answer :=
  onBlock h (hLoc h .aeq) (fun s => s.dev.scanDone h ctx.toNat)

end Sys2Proof.Machine
end

