-- ==== Sys2Proof/Machine/Render.lean ====
section
/-!
DEFINITION. Renders (R74, R82–R92, R95, R102–R115, R129–R132, R138): the caches, cells of planes and motifs, composition,
starting and ending a render, line fills, parking, and the row-state record.
-/
namespace Sys2Proof.Machine

open Sys2Proof

/-! ### Caches (R91, R113) -/

/-- A lookup of a line that is cached: the cache with that line most recently used. -/
def cacheHit (c : List (Nat × Nat)) (line : Nat) : Option (List (Nat × Nat)) :=
  (c.find? (fun x => x.1 = line)).map (fun x => x :: c.filter (fun y => y.1 ≠ line))
/-- A line enters an 8-way cache with `sets` sets, where a full set loses its least recently used line. -/
def cacheFill (sets : Nat) (c : List (Nat × Nat)) (line v : Nat) : List (Nat × Nat) :=
  let c1 := c.filter (fun y => y.1 ≠ line)
  let same := c1.filter (fun y => y.1 % sets = line % sets)
  match if 8 ≤ same.length then same.getLast? else none with
  | some old => (line, v) :: c1.filter (fun y => y.1 ≠ old.1)
  | none => (line, v) :: c1
/-- A byte of DRAM as an engine fetches it: an address outside populated DRAM reads as 0 (R25, R88). -/
def dramByte (d : Dev) (m : Mem) (a : Nat) : Byte := if a < 2 ^ 36 then fetch d m a else 0
/-- A byte of a cached line; an uncached line reads from memory. -/
def cacheByte (d : Dev) (m : Mem) (h : Half) (c : List (Nat × Nat)) (a : Nat) : Nat :=
  let w := a % 2 ^ 40
  match c.find? (fun x => x.1 = w / 64) with
  | some x => x.2 / 2 ^ (8 * (w % 64)) % 256
  | none => (dramByte d m (halfAddr h w)).toNat
/-- A little-endian word through a cache. -/
def cacheWord (d : Dev) (m : Mem) (h : Half) (c : List (Nat × Nat)) (a : Nat) : Nat :=
  (List.range 4).foldr (fun i v => v * 256 + cacheByte d m h c (a + i)) 0
/-- The 64 bytes a fill of a line reads. -/
def lineData (d : Dev) (m : Mem) (h : Half) (line : Nat) : Nat :=
  (List.range 64).foldr (fun i v => v * 256 + (dramByte d m (halfAddr h (line * 64 + i))).toNat) 0

/-! ### Plane cells (R85–R89) -/

/-- Where plane `p` of an image looks for column `x` (R88): none outside its window; else the address of its map entry and
the cell's place in the tile before flips. -/
def planeAt (img : List Word) (ys : List Nat) (p x : Nat) : Option (Nat × Nat × Nat) :=
  let s := imgS img p
  let wc := imgWt img p * s
  let hc := imgHt img p * s
  if x < imgP img p 9 ROW_PWIN.X0 ∨ imgP img p 9 ROW_PWIN.X1 < x then none
  else
    let px := (x + imgP img p 7 ROW_PHSC.HSCROLL) % wc
    let py := (ys.getD p 0 + imgP img p 8 ROW_PVSC.VSCROLL) % hc
    let base := imgP img p 1 ROW_PMAP_LO.BASE * 64 + imgP img p 2 ROW_PMAP_HI.BASE * 2 ^ 32
    some (base + 4 * (py / s * imgWt img p + px / s), px % s, py % s)
/-- The bit address of a cell in the tile data, for a map entry (R85, R88); none for a tile index beyond the count. -/
def tileBit (img : List Word) (p ent cx cy : Nat) : Option (Nat × Nat) :=
  let s := imgS img p
  let dd := imgD img p
  let x := if bit ent 24 then s - 1 - cx else cx
  let y := if bit ent 25 then s - 1 - cy else cy
  if imgP img p 6 ROW_PTCNT.COUNT ≤ ent % 2 ^ 20 then none
  else
    let b := (y * s + x) * dd
    let base := imgP img p 4 ROW_PTILE_LO.BASE * 64 + imgP img p 5 ROW_PTILE_HI.BASE * 2 ^ 32
    some (base + ent % 2 ^ 20 * (s * s * dd / 8) + b / 8, b % 8)

/-- Plane `p` at column `x` (R88, R89), read through the tile cache. -/
def planeCell (d : Dev) (m : Mem) (h : Half) (tc : List (Nat × Nat)) (img : List Word) (ys : List Nat) (p x : Nat) : Option Cell :=
  match planeAt img ys p x with
  | none => none
  | some (ea, cx, cy) =>
    let ent := cacheWord d m h tc ea
    match tileBit img p ent cx cy with
    | none => none
    | some (a, sh) =>
      let v := cacheByte d m h tc a / 2 ^ sh % 2 ^ imgD img p
      if imgP img p 0 ROW_PCFG.TRANSP = 1 ∧ v = 0 then none
      else some ⟨v, if imgP img p 0 ROW_PCFG.YSEL_OVR = 1 then imgP img p 0 ROW_PCFG.YSEL else ent / 2 ^ 20 % 16, ent / 2 ^ 26 % 4⟩

/-! ### Motifs (R105–R111) -/

/-- Word `k` of a motif entry. -/
def motW (x k : Nat) : Nat := x / 2 ^ (32 * k) % 2 ^ 32
def motHm (x : Nat) : Nat := motW x 3 / 2 ^ 16 % 1024 + 1
def motWm (x : Nat) : Nat := motW x 3 % 1024 + 1
def motPri (x : Nat) : Nat := motW x 2 / 2 ^ 20 % 4
def motDepth (x : Nat) : Nat := motW x 2 / 2 ^ 22 % 4
def motEn (x : Nat) : Bool := bit (motW x 2) 31
def motFid (x : Nat) : Bool := bit (motW x 3) 31
/-- A malformed entry (R106). -/
def motBad (x : Nat) : Bool := motEn x && (motDepth x == 3 || (motW x 1 ≠ 0 && decide (motW x 1 < motHm x)))
/-- The motif row that covers row `rr` (R107). -/
def motRow (x rr : Nat) : Option Nat :=
  let per := motW x 1
  let diff := rowDiff rr (motW x 0)
  if per = 0 then
    let k := (rr + 2 ^ 32 - motW x 0) % 2 ^ 32
    if k < motHm x then some k else none
  else if diff < 0 then none
  else if diff.toNat % per < motHm x then some (diff.toNat % per) else none
/-- The clipped span of a motif in a row of width `w` (R108): first and last column. -/
def motSpan (img : List Word) (x w : Nat) : Option (Nat × Nat) :=
  let x0 := sgn 17 (motW x 2) + sgn 17 (fget ROW_MXOFF.MXOFF (imgAt img 3))
  let lo := max x0 0
  let hi := min (x0 + motWm x - 1) (w - 1)
  if lo ≤ hi then some (lo.toNat, hi.toNat) else none
/-- The motif table of an image: (index, entry), and nothing when motifs are off (R114). -/
def Dev.motTable (d : Dev) (h : Half) (e : Nat) (img : List Word) : List (Nat × Nat) :=
  if fget ROW_MCFG.MEN (imgAt img 2) = 0 then []
  else (List.range (fget ROW_MTAB.COUNT (imgAt img 1))).map (fun i => (i, d.motif h e ((fget ROW_MTAB.BASE (imgAt img 1) + i) % 4096)))
/-- Does a motif intersect a row (R108)? -/
def motMeets (img : List Word) (rr w : Nat) (x : Nat) : Bool :=
  motEn x && !motBad x && (motRow x rr).isSome && (motSpan img x w).isSome
/-- The first K motifs by level, highest first, then index (R111). -/
def motKeep (img : List Word) (ms : List (Nat × Nat)) : List (Nat × Nat) :=
  ([3, 2, 1, 0].flatMap (fun v => ms.filter (fun x => motPri x.2 = v))).take (fget ROW_MCFG.LIMIT_M1 (imgAt img 2) + 1)
/-- The bit address of a motif's cell at column `x` in row `rr` (R109). -/
def motBit (img : List Word) (y rr x : Nat) : Nat × Nat :=
  let dd := 2 ^ motDepth y
  let k := (motRow y rr).getD 0
  let my := if bit (motW y 2) 29 then motHm y - 1 - k else k
  let x0 := sgn 17 (motW y 2) + sgn 17 (fget ROW_MXOFF.MXOFF (imgAt img 3))
  let j := ((x : Int) - x0).toNat
  let mx := if bit (motW y 2) 28 then motWm y - 1 - j else j
  let p := (motWm y * dd + 511) / 512 * 64
  (motW y 4 / 64 * 64 + motW y 5 % 256 * 2 ^ 32 + my * p + mx * dd / 8, mx * dd % 8)
/-- A motif's cell at column `x`, through the motif cache; none outside its span or transparent. -/
def motCell (d : Dev) (m : Mem) (h : Half) (mc : List (Nat × Nat)) (img : List Word) (y rr w x : Nat) : Option Cell :=
  match motSpan img y w with
  | none => none
  | some (lo, hi) =>
    if x < lo ∨ hi < x then none
    else
      let ab := motBit img y rr x
      let v := cacheByte d m h mc ab.1 / 2 ^ ab.2 % 2 ^ (2 ^ motDepth y)
      if bit (motW y 2) 30 && v == 0 then none else some ⟨v, motW y 2 / 2 ^ 24 % 16, motPri y⟩

/-! ### Composition (R89, R90, R110) -/

/-- The winner of a column among the planes (R90): its plane number and cell. -/
def planeWinner (d : Dev) (m : Mem) (h : Half) (tc : List (Nat × Nat)) (img : List Word) (ys : List Nat) (x : Nat) : Option (Nat × Cell) :=
  let cells := [7, 6, 5, 4, 3, 2, 1, 0].filterMap (fun p => if imgEn img p then (planeCell d m h tc img ys p x).map (fun c => (p, c)) else none)
  [3, 2, 1, 0].foldl (fun b v => match b with | some z => some z | none => cells.find? (fun y => y.2.pri = v)) none
/-- The winner of a column (R90, R110): its source, a plane number or 8 + motif index, and its cell. `mcells` are the opaque cells of each motif. -/
def winner (cells : List (Option (Nat × Cell))) (mcells : List (Nat × List (Nat × Cell))) (x : Nat) : Option (Nat × Cell) :=
  let mots := mcells.filterMap (fun k => (k.2.find? (fun y => y.1 = x)).map (fun y => (k.1, y.2)))
  let best := mots.foldl (fun (b : Option (Nat × Cell)) y => match b with
    | none => some y
    | some z => if z.2.pri < y.2.pri || (z.2.pri == y.2.pri && decide (y.1 < z.1)) then some y else b) none
  match best, cells.getD x none with
  | some z, some p => if p.2.pri ≤ z.2.pri then some (8 + z.1, z.2) else some p
  | some z, none => some (8 + z.1, z.2)
  | none, p => p
/-- A cell through yarn table `t` of an image (R89). -/
def yarn (img : List Word) (t v : Nat) : Nat :=
  ((imgAt img (20 + 2 * t)).toNat + (imgAt img (21 + 2 * t)).toNat * 2 ^ 32) / 2 ^ (4 * v) % 16
/-- The cell code of a column. -/
def cellCode (img : List Word) (o : Option (Nat × Cell)) : Nat :=
  match o with
  | none => fget ROW_CPLEN.BG (imgAt img 0)
  | some (_, c) => yarn img c.yt c.v

/-- The fiducial list of a row (R115, Table 04.3). -/
def fidList (kept : List (Nat × Nat)) (win : List (Option (Nat × Cell))) (mcells : List (Nat × List (Nat × Cell))) (img : List Word) (rr w : Nat) : List Nat :=
  let ordered := (List.range 1024).filterMap (fun i => kept.find? (fun k => k.1 = i && motFid k.2))
  (ordered.take 8).map (fun k =>
    let sp := (motSpan img k.2 w).getD (0, 0)
    let occ := ((mcells.filter (fun y => y.1 = k.1)).flatMap (fun y => y.2)).any (fun y =>
      match win.getD y.1 none with | some z => z.1 ≠ 8 + k.1 | none => false)
    sp.1 + sp.2 * 2 ^ 16 + motW k.2 5 / 2 ^ 8 % 256 * 2 ^ 32 + (motRow k.2 rr).getD 0 * 2 ^ 40 + b2n occ * 2 ^ 50
      + b2n (bit (motW k.2 2) 28) * 2 ^ 51 + b2n (bit (motW k.2 2) 29) * 2 ^ 52)

/-! ### The render pipe (R91, R113, R328) -/

/-- Lookups so far: the cache, hits, misses, and the lines that miss. A line whose fill is outstanding is in no cache. -/
structure Look where
  cache : List (Nat × Nat)
  hits : Nat := 0
  misses : Nat := 0
  miss : List Nat := []
deriving DecidableEq, Repr
/-- Look up a list of lines. -/
def Look.lines (k : Look) (ls : List Nat) : Look :=
  ls.foldl (fun k line => match cacheHit k.cache line with
    | some c => { k with cache := c, hits := k.hits + 1 }
    | none => { k with misses := k.misses + 1, miss := addNew k.miss line }) k

/-- The columns of a 64-column group in a row of width `w`. -/
def groupCols (w g : Nat) : List Nat := (List.range 64).filterMap (fun i => if 64 * g + i < w then some (64 * g + i) else none)
/-- The map entries a group of a plane reads, with the places of its cells. -/
def groupEntries (img : List Word) (ys : List Nat) (p w g : Nat) : List (Nat × Nat × Nat) :=
  (groupCols w g).filterMap (fun x => planeAt img ys p x)
/-- The enabled planes of an image. -/
def planesOf (img : List Word) : List Nat := (List.range 8).filter (fun p => imgEn img p)
/-- The distinct map lines of a group of a plane, and its distinct tile lines once the map lines are there. -/
def mapLines (img : List Word) (ys : List Nat) (w g p : Nat) : List Nat :=
  (groupEntries img ys p w g).foldl (fun l x => addNew l (x.1 % 2 ^ 40 / 64)) []
def tileLines (d : Dev) (m : Mem) (h : Half) (tc : List (Nat × Nat)) (img : List Word) (ys : List Nat) (w g p : Nat) : List Nat :=
  (groupEntries img ys p w g).foldl (fun l x => match tileBit img p (cacheWord d m h tc x.1) x.2.1 x.2.2 with
    | some ab => addNew l (ab.1 % 2 ^ 40 / 64)
    | none => l) []
/-- The distinct data lines of a kept motif's clipped span. -/
def motifLines (img : List Word) (y rr w : Nat) : List Nat :=
  match motSpan img y w with
  | none => []
  | some (lo, hi) => (List.range (hi + 1 - lo)).foldl (fun l i => addNew l ((motBit img y rr (lo + i)).1 % 2 ^ 40 / 64)) []
/-- The opaque cells of a motif in a row. -/
def motifCells (d : Dev) (m : Mem) (h : Half) (mc : List (Nat × Nat)) (img : List Word) (y rr w : Nat) : List (Nat × Cell) :=
  match motSpan img y w with
  | none => []
  | some (lo, hi) => (List.range (hi + 1 - lo)).filterMap (fun i => (motCell d m h mc img y rr w (lo + i)).map (fun c => (lo + i, c)))
/-- Entry fetches of a group with reserved bits set, and with a tile index beyond the count (R86). -/
def entryFaults (d : Dev) (m : Mem) (h : Half) (tc : List (Nat × Nat)) (img : List Word) (ys : List Nat) (w g : Nat) : Nat × Nat :=
  (planesOf img).foldl (fun n p => ((groupEntries img ys p w g).foldl (fun l y => addNew l y.1) []).foldl (fun n a =>
    let ent := cacheWord d m h tc a
    (n.1 + b2n (decide (ent / 2 ^ 28 ≠ 0)), n.2 + b2n (decide (imgP img p 6 ROW_PTCNT.COUNT ≤ ent % 2 ^ 20)))) n) (0, 0)

/-- The render pipe at work: the engine, and what the work so far counts: lookups of both caches, and the map faults of R86. -/
structure Pass where
  eng : Engine
  hits : Nat := 0
  misses : Nat := 0
  mhits : Nat := 0
  mmisses : Nat := 0
  rsv : Nat := 0
  range : Nat := 0
deriving DecidableEq, Repr
/-- The row width of a due entry. -/
def Due.width (x : Due) : Nat := fget ROW_BIND.W_M1 x.bind + 1
/-- The steps of a render: for each group its map lines, its tile lines, its cells; for each kept motif its lines, its cells. -/
def renderSteps (x : Due) (kept : List (Nat × Nat)) : Nat := 3 * ((x.width + 63) / 64) + 2 * kept.length
/-- Claim a block of the pool (R328): a free one, else the blocks of the row first written among those that are gathered; with none, the pipe waits. -/
def Engine.claim (g : Engine) : Engine :=
  let free (q : List RRow) : Option Nat := (List.range 64).find? (fun b => !(g.blocks.contains b || q.any (fun y => y.blocks.contains b)))
  match free g.rrc with
  | some b => { g with blocks := g.blocks ++ [b], blocked := false }
  | none => match g.rrc.find? (fun y => y.gathered) with
    | none => { g with blocked := true }
    | some old => match free (g.rrc.erase old) with
      | some b => { g with rrc := g.rrc.erase old, blocks := g.blocks ++ [b], blocked := false }
      | none => { g with rrc := g.rrc.erase old }
/-- One step of a render. `pool` for a row that goes into the rendered-row cache: it claims a block at the first cell of each 8,192. -/
def Pass.step (d : Dev) (m : Mem) (h : Half) (pool : Bool) (x : Due) (p : Pass) : Pass :=
  let g := p.eng
  let w := x.width
  let s := g.step
  let k := s / 3
  let planes := planesOf x.image
  if s < 3 * ((w + 63) / 64) then
    if s % 3 = 0 then
      if pool && k % 128 == 0 && g.blocks.length == k / 128 then { p with eng := g.claim }
      else
        let t := planes.foldl (fun t q => t.lines (mapLines x.image x.ys w k q)) ({ cache := g.tc } : Look)
        { p with eng := { g with step := s + 1, tc := t.cache, want := t.miss }, hits := p.hits + t.hits, misses := p.misses + t.misses }
    else if s % 3 = 1 then
      let f := entryFaults d m h g.tc x.image x.ys w k
      let t := planes.foldl (fun t q => t.lines (tileLines d m h g.tc x.image x.ys w k q)) ({ cache := g.tc } : Look)
      { p with eng := { g with step := s + 1, tc := t.cache, want := t.miss }, hits := p.hits + t.hits, misses := p.misses + t.misses,
               rsv := p.rsv + f.1, range := p.range + f.2 }
    else { p with eng := { g with step := s + 1, cells := g.cells ++ (groupCols w k).map (planeWinner d m h g.tc x.image x.ys) } }
  else
    let i := s - 3 * ((w + 63) / 64)
    match g.kept[i / 2]? with
    | none => p
    | some y =>
      if i % 2 = 0 then
        let t := ({ cache := g.mc } : Look).lines (motifLines x.image y.2 x.row w)
        { p with eng := { g with step := s + 1, mc := t.cache, wantM := t.miss }, mhits := p.mhits + t.hits, mmisses := p.mmisses + t.misses }
      else { p with eng := { g with step := s + 1, mcells := g.mcells ++ [(y.1, motifCells d m h g.mc x.image y.2 x.row w)] } }
/-- Does the pipe wait for lines or a block? -/
def Engine.stalled (g : Engine) : Bool := !g.want.isEmpty || !g.wantM.isEmpty || g.blocked
/-- Is every step of a render done? -/
def Engine.drawn (g : Engine) (x : Due) : Bool := !g.stalled && g.step == renderSteps x g.kept
/-- Steps of a render until it waits or is done. -/
def Pass.run (d : Dev) (m : Mem) (h : Half) (pool : Bool) (x : Due) : Nat → Pass → Pass
  | 0, p => p
  | n + 1, p => if p.eng.stalled || p.eng.step == renderSteps x p.eng.kept then p else Pass.run d m h pool x n (p.step d m h pool x)
/-- Enough steps for any render from where the pipe stands: each block claimed may first free the blocks of rows. -/
def Engine.fuel (g : Engine) (x : Due) : Nat := renderSteps x g.kept + 80
/-- The counters of R86 and R91 take what a pass counted. -/
def Dev.countPass (d : Dev) (h : Half) (e c : Nat) (p : Pass) : Dev :=
  let l := rowL h e
  let lc := cxL h e c
  let put (x : Dev) (l : Loc) (f : Fld) (n : Nat) : Dev := if n = 0 then x else x.sat l f n
  put (put (put (put (put (put d l ROW_TC_HIT.COUNT p.hits) l ROW_TC_MISS.COUNT p.misses) l ROW_MC_HIT.COUNT p.mhits) l ROW_MC_MISS.COUNT p.mmisses) lc
    ROW_CCNT_ERR.MAP_RSV p.rsv) lc ROW_CCNT_ERR.TILE_RANGE p.range
/-- The pipe goes on with the render in progress. A Loupe render counts nothing (R255) and claims no block: its row goes to its pipe
(notes/assumptions/107.md). -/
def Dev.pipeOn (d : Dev) (m : Mem) (h : Half) (e : Nat) : Dev :=
  let g := d.eng h e
  match g.cur, g.lcur with
  | some x, _ =>
    let p := Pass.run d m h true x (g.fuel x) { eng := g }
    (d.modEng h e (fun _ => p.eng)).countPass h e x.ctx p
  | none, some x => d.modEng h e (fun _ => (Pass.run d m h false x (g.fuel x) { eng := g }).eng)
  | none, none => d
/-- A render that waits for a pool block tries again (R328). -/
def Dev.unblock (d : Dev) (m : Mem) (h : Half) (e : Nat) : Dev :=
  if (d.eng h e).blocked then (d.modEng h e (fun g => { g with blocked := false })).pipeOn m h e else d
/-- The codes and the fiducial list of a row that is drawn. -/
def Engine.row (g : Engine) (x : Due) : List Nat × List Nat :=
  let win := (List.range x.width).map (fun i => winner g.cells g.mcells i)
  (win.map (cellCode x.image), fidList g.kept win g.mcells x.image x.row x.width)

/-! ### Records (R128–R132, Table 05.2) -/

/-- Where the record of row `r` lies. -/
def Dev.recAddr (d : Dev) (h : Half) (e c r : Nat) : Nat := halfAddr h (d.ringBase h e c + r % max 1 (d.ringD h e c) * 1024)
/-- The bytes of the record of a row, its CHECK included. -/
def Dev.recBytes (d : Dev) (h : Half) (e : Nat) (x : Due) (fids : List Nat) (mdrop : Nat) : List Byte :=
  let body := toBytes (1 + x.ctx * 2 ^ 16 + e * 2 ^ 21 + h.n * 2 ^ 24) 4 ++ toBytes x.row 4 ++ toBytes x.tb 8
    ++ toBytes (x.bind.toNat % 4096 + x.rev % 256 * 2 ^ 12 + fids.length * 2 ^ 20 + min mdrop 255 * 2 ^ 24) 4
    ++ toBytes (fget ROW_BIND.W_M1 x.bind + b2n x.late * 2 ^ 16 + b2n x.refused * 2 ^ 17 + x.yloaded * 2 ^ 24) 4
    ++ toBytes (d.cx h e x.ctx).armgen 4 ++ toBytes 0 4
    ++ (List.range 8).flatMap (fun p => toBytes (x.ys.getD p 0) 4)
    ++ (List.range 8).flatMap (fun i => toBytes (fids.getD i 0) 8)
    ++ x.image.flatMap (fun w => toBytes w.toNat 4)
  let full := body ++ List.replicate (0x3FC - body.length) 0
  full ++ toBytes (crc32 full) 4
/-- The check of a record before a render from it (R132). -/
def Dev.recOk (d : Dev) (m : Mem) (h : Half) (e c r : Nat) : Bool :=
  let a := d.recAddr h e c r
  let w (o : Nat) : Nat := fetchN d m (a + o) 4
  w 0 == 1 + c * 2 ^ 16 + e * 2 ^ 21 + h.n * 2 ^ 24 && w 4 == r && w 0x18 == (d.cx h e c).armgen
    && w 0x3FC == crc32 (fetchBytes d m a 0x3FC) && !((List.range 16).any (fun i => d.lineUe (a / 64 + i)))
    && !(d.caBad.any (fun k => a / 8 ≤ k && k < a / 8 + 128))
/-- The engine reads the record of a row: what its code does counts (R331, R336). -/
def Dev.readRec (d : Dev) (h : Half) (e c r : Nat) : Dev := d.readEcc h (d.recAddr h e c r) 1024
/-- A due entry completed from the row's record (R131). -/
def Dev.fromRecord (d : Dev) (m : Mem) (h : Half) (e : Nat) (x : Due) : Due :=
  let a := d.recAddr h e x.ctx x.row
  { x with image := (List.range 140).map (fun i => BitVec.ofNat 32 (fetchN d m (a + 0x80 + 4 * i) 4)),
           ys := (List.range 8).map (fun p => fetchN d m (a + 0x20 + 4 * p) 4 % 2 ^ 23),
           bind := fput ROW_BIND.W_M1 (fetchN d m (a + 0x14) 2) x.bind }
/-- Is row `r` valid in the ring (R130)? -/
def Dev.rowValid (d : Dev) (h : Half) (e c r : Nat) : Bool :=
  let back := rowDiff (d.g (rowL h e) (ROW_HWM.H.ix c)) r
  decide (0 ≤ back) && decide (back < d.g (rowL h e) (ROW_REVST.RECS.ix c)) && decide (0 ≤ rowDiff r (d.cx h e c).start)

/-! ### Starting a render (R82, R138) -/

/-- The reversal limit (R138), by an invalid row or a failed record. -/
def Dev.limit (d : Dev) (h : Half) (e : Nat) (x : Due) (badRec : Bool) : Dev :=
  let l := rowL h e
  let c := x.ctx
  let d1 := (d.modEng h e (fun g => { g with due := g.due.filter (fun y => !(decide (y.ctx = c) && decide (y.batch = x.batch))) })).enterHold h e c true
  let d2 := d1.sat l (ROW_RERR.LIMIT.ix c)
  if badRec then (d2.sat l (ROW_RERR.RECBAD.ix c)).raiseCtx l c 19 else d2.raiseCtx l c 18

/-- The motif scan of a render (R106, R111): entries kept, how many the limit drops, how many are malformed, and whether a dropped one
is a fiducial. -/
def Dev.scanMotifs (d : Dev) (h : Half) (e : Nat) (x : Due) : List (Nat × Nat) × Nat × Nat × Bool :=
  let w := fget ROW_BIND.W_M1 x.bind + 1
  let table := d.motTable h e x.image
  let meets := table.filter (fun k => motMeets x.image x.row w k.2)
  let kept := motKeep x.image meets
  (kept, meets.length - kept.length, (table.filter (fun k => motBad k.2)).length, meets.any (fun k => motFid k.2 && !kept.contains k))
/-- A new row's motif counts (R106, R111, R112, R115), taken once, when its render completes (notes/assumptions/58.md). -/
def Dev.countMotifs (d : Dev) (h : Half) (e c : Nat) (g : Engine) : Dev :=
  let l := rowL h e
  let lost := (g.kept.filter (fun k => motFid k.2)).length - 8
  let d1 := if g.mbad = 0 then d else (d.sat l (ROW_MERR.BAD.ix c) g.mbad).raiseCtx l c 9
  let d2 := if g.mdrop = 0 then d1 else ((d1.sat l (ROW_MOVF.DROPS.ix c) g.mdrop).sat l (ROW_MOVF.ROWS.ix c)).raiseCtx l c 8
  let d3 := if g.mfid then d2.raiseCtx l c 11 else d2
  let d4 := d3.maxF l (ROW_MPEAK.PEAK.ix c) (g.kept.length + g.mdrop)
  if lost = 0 then d4 else (d4.sat l (ROW_MPEAK.FIDLOST.ix c) lost).raiseCtx l c 12

/-- Does the scan read an attribute entry with an uncorrectable error (R113)? -/
def Dev.motUe (d : Dev) (h : Half) (e : Nat) (img : List Word) : Bool :=
  fget ROW_MCFG.MEN (imgAt img 2) = 1 && (List.range (fget ROW_MTAB.COUNT (imgAt img 1))).any (fun i =>
    d.ueWords.contains (pageOf h.n .row e, 4, (fget ROW_MTAB.BASE (imgAt img 1) + i) % 4096))

/-- The scan of a render that meets an uncorrectable attribute entry (R113): counted, and its context faults, where it is in a state that can. -/
def Dev.motFault (d : Dev) (h : Half) (e : Nat) (x : Due) : Dev :=
  let d1 := d.eccUe h (pageOf h.n .row e) 4 (4 * fget ROW_MTAB.BASE (imgAt x.image 1)) true (32 * e + x.ctx)
  if d.cst h e x.ctx = .idle ∨ d.cst h e x.ctx = .fault then d1 else d1.ctxFault h e x.ctx 4
/-- The engine with the pipe at the start of a render: its motif scan is done. -/
def Engine.begin (g : Engine) (k : List (Nat × Nat) × Nat × Nat × Bool) : Engine :=
  { g.clearPipe with kept := k.1, mdrop := k.2.1, mbad := k.2.2.1, mfid := k.2.2.2 }
/-- A render with its set and positions known: the motif scan, and the pipe starts. -/
def Dev.startWith (d : Dev) (m : Mem) (h : Half) (e : Nat) (x : Due) : Dev :=
  let l := rowL h e
  if d.motUe h e x.image then d.motFault h e x
  else
    let k := d.scanMotifs h e x
    (((d.modEng h e (fun g => { g.begin k with cur := some x })).p l ROW_STAT.BUSY 1).p l ROW_STAT.CUR x.ctx).pipeOn m h e

/-- RENDER_START (R82): the head of the due list, when no render is in progress and no invalidation waits (R93). A render from a record whose own
write is still to come waits for it (R129). -/
def Dev.renderStart (d : Dev) (m : Mem) (h : Half) (e : Nat) : Dev :=
  let g := d.eng h e
  match g.cur, g.lcur, g.due with
  | none, none, x :: rest =>
    if g.tinv.isSome || g.minv.isSome then d
    else
      let d1 := d.modEng h e (fun g => { g with due := rest })
      match x.again, x.kind with
      | true, _ => d1.startWith m h e x
      | _, .new => d1.startWith m h e x
      | _, .reissue => (d1.readRec h e x.ctx x.row).startWith m h e (d1.fromRecord m h e x)
      | _, _ =>
        if (g.newRows x.ctx).contains x.row then d
        else if d1.rowValid h e x.ctx x.row then
          (let d2 := d1.readRec h e x.ctx x.row
           if d1.recOk m h e x.ctx x.row then d2.startWith m h e (d1.fromRecord m h e x) else d2.limit h e x true)
        else d1.limit h e x false
  | _, _, _ => d

/-! ### Line fills (R91, R93) -/

/-- The present production render ends without a row. Lines that have not come are in no cache. -/
def Dev.dropRender (d : Dev) (h : Half) (e : Nat) : Dev :=
  (d.modEng h e (fun g => { g.clearPipe with cur := none })).p (rowL h e) ROW_STAT.BUSY 0
/-- The present Loupe render ends without a row. -/
def Dev.dropLoupe (d : Dev) (h : Half) (e : Nat) : Dev :=
  (d.modEng h e (fun g => { g.clearPipe with lcur := none })).p (rowL h e) ROW_STAT.BUSY 0
/-- Park the present render for a line (R91). A Loupe render counts nothing: its request waits for the page (notes/assumptions/107.md). -/
def Dev.park (d : Dev) (h : Half) (e line : Nat) : Dev :=
  let g := d.eng h e
  match g.cur, g.loupe with
  | some x, _ =>
    let lc := cxL h e x.ctx
    (((d.dropRender h e).modEng h e (fun g => { g with parked := g.parked ++ [(x, line)] })).p lc ROW_CSTAT.PARKED 1 |>.sat lc ROW_CCNT_LATE.PARKS).raiseCtx
      (rowL h e) x.ctx 5
  | none, some q => ((d.dropLoupe h e).modEng h e (fun g => { g with loupe := none, lparked := g.lparked ++ [(q, line)] })).p (rowL h e) ROW_STAT.LOUPE 0
  | none, none => d
/-- A line of the present render is uncorrectable (R93, R113): its context faults with UE_DATA, where it is in a state that can; a Loupe request
is answered as absent (notes/assumptions/107.md). -/
def Dev.lineLost (d : Dev) (h : Half) (e : Nat) : Dev :=
  let g := d.eng h e
  let fault (y : Dev) (c : Nat) : Dev := if y.cst h e c = .idle ∨ y.cst h e c = .fault then y else y.ctxFault h e c 3
  match g.cur, g.lcur with
  | some x, _ => (d.dropRender h e).ctxFault h e x.ctx 3
  | none, some x => fault (d.dropLoupe h e) x.ctx
  | none, none => d
/-- What a fill of a line finds (R91, R93, R351). -/
def Dev.fillMark (d : Dev) (m : Mem) (h : Half) (line : Nat) (ue : Bool) : FillResult :=
  let a := halfAddr h (line * 64)
  match pageMark d m a with
  | .absent => .absent
  | .uncorrectable => .uncorrectable
  | .data => if ue || d.lineUe (a / 64) || d.caBad.any (fun w => w / 8 = a / 64) then .uncorrectable else .data
/-- What the access of a fill does besides (R25, R331, R336): nothing where the page is absent; outside populated DRAM a decode error; else the code's
corrections and errors count. An error found now stands from now on in the line's first word (notes/assumptions/29.md). -/
def Dev.fillAccess (d : Dev) (m : Mem) (h : Half) (line : Nat) (ue : Bool) : Dev :=
  let a := halfAddr h (line * 64)
  match pageMark d m a with
  | .data =>
    if 2 ^ 36 ≤ a ∨ d.reserved a then d.decodeErr none a (h.n + 1)
    else
      let d1 := if ue && !d.lineUe (a / 64) then { d with ueLines := d.ueLines ++ [a / 8] } else d
      d1.readEcc h a 64
  | _ => d
/-- LINE_FILL_RETURN (R91): a fill of the tile or motif cache returns; `ue` when its data is uncorrectable. With the last line that it waits for,
the pipe goes on. -/
def Dev.lineFill (d : Dev) (m : Mem) (h : Half) (e : Nat) (mot : Bool) (line : Nat) (ue : Bool) : Dev :=
  let g := d.eng h e
  let v := lineData d m h line
  let put (g : Engine) : Engine := if mot then { g with mc := cacheFill 512 g.mc line v } else { g with tc := cacheFill 1024 g.tc line v }
  if (if mot then g.wantM else g.want).contains line then
    let d1 := d.fillAccess m h line ue
    match d.fillMark m h line ue with
    | .data =>
      (let d2 := d1.modEng h e (fun g => put (if mot then { g with wantM := g.wantM.erase line } else { g with want := g.want.erase line }))
       if (d2.eng h e).stalled then d2 else d2.pipeOn m h e)
    | .absent => d1.park h e line
    | .uncorrectable => d1.lineLost h e
  else if g.pf.contains (2 * line + b2n mot) then
    let d1 := (d.fillAccess m h line ue).modEng h e (fun g => { g with pf := g.pf.erase (2 * line + b2n mot) })
    if d.fillMark m h line ue = .data then d1.modEng h e put else d1
  else d

/-- PARK_RESUME (R91): renders parked on a page of the half return to the head of their due lists, Loupe requests to the head of theirs. -/
def Dev.unpark (d : Dev) (h : Half) (page : Nat) : Dev :=
  (List.range 8).foldl (fun x e =>
    let here (line : Nat) : Bool := line * 64 % 2 ^ 35 / 65536 == page
    let back := (x.eng h e).parked.filter (fun y => here y.2)
    let x1 := x.modEng h e (fun g => { g with
      parked := g.parked.filter (fun y => !here y.2), due := back.map (fun y => y.1) ++ g.due
      lparked := g.lparked.filter (fun y => !here y.2), loupeQ := (g.lparked.filter (fun y => here y.2)).map (fun y => y.1) ++ g.loupeQ })
    let x2 := back.foldl (fun z y => z.p (cxL h e y.1.ctx) ROW_CSTAT.PARKED 0) x1
    if back = [] then x2 else x2.loupeAbandon h e) d

/-! ### Ending a render (R74, R92, R95, R114, R115, R153) -/

/-- The render time of Table 03.6 and R114 without stalls. -/
def renderCycles (x : Due) (kept : List (Nat × Nat)) : Nat :=
  let w := fget ROW_BIND.W_M1 x.bind + 1
  let n := if fget ROW_MCFG.MEN (imgAt x.image 2) = 1 then fget ROW_MTAB.COUNT (imgAt x.image 1) else 0
  8 + max ((w + 63) / 64) ((n + 15) / 16) + kept.foldl (fun t k => match motSpan x.image k.2 w with
    | some (lo, hi) => t + 1 + (hi / 64 + 1 - lo / 64)
    | none => t) 0

/-- The lines a prefetch asks for (R92, R113): those the next row would need from the active set and Y + 1 and that are in no cache. -/
def Dev.prefetch (d : Dev) (m : Mem) (h : Half) (e : Nat) (x : Due) : Dev :=
  if d.on (rowL h e) ROW_CFG.PREFETCH && (x.kind == .new || x.kind == .replay) then
    let g := d.eng h e
    let img := d.image h e x.ctx
    let ys := x.ys.map (· + 1)
    let w := d.g (cxL h e x.ctx) ROW_BIND.W_M1 + 1
    let kept := motKeep img ((d.motTable h e img).filter (fun k => motMeets img (x.row + 1) w k.2))
    let tiles := (List.range ((w + 63) / 64)).flatMap (fun k => (planesOf img).flatMap (fun p => mapLines img ys w k p ++ tileLines d m h g.tc img ys w k p))
    let mots := kept.flatMap (fun y => motifLines img y.2 (x.row + 1) w)
    let missing (c : List (Nat × Nat)) (ls : List Nat) : List Nat := (ls.foldl addNew []).filter (fun i => !c.any (fun y => y.1 = i))
    d.modEng h e (fun g => { g with pf := (missing g.tc tiles).map (fun i => 2 * i) ++ (missing g.mc mots).map (fun i => 2 * i + 1) })
  else d

/-- The words of pool blocks that a row's cells, 16 to a word (R328), were written to: they are correct again (R331). -/
def Dev.poolWritten (d : Dev) (h : Half) (e w : Nat) (blocks : List Nat) : Dev :=
  if d.ueLines = [] then d
  else
    let base := (0x1100200000 + 0x1000000 * h.n + 0x40000 * e) / 8
    { d with ueLines := d.ueLines.filter (fun u => !(List.range blocks.length).any (fun j =>
        let at_ := base + 512 * blocks.getD j 0
        decide (at_ ≤ u) && decide (u < at_ + 512) && decide (8192 * j + 16 * (u - at_) < w))) }
/-- RENDER_COMPLETE (R153): the row is drawn; it waits for its lane. `stall` is how long the fills and the pool held the pipe (R91, R328). A row that
was rendered once more for its lost pool words (Table 13.4) takes its old place before the lane, counts only that delay. -/
def Dev.renderDone (d0 : Dev) (m : Mem) (h : Half) (e stall : Nat) : Dev :=
  let d := d0.unblock m h e
  let g := d.eng h e
  let l := rowL h e
  match g.cur with
  | some x =>
    if !g.drawn x then d
    else
      let row := g.row x
      let r : RRow := ⟨{ x with again := false }, row.1, row.2, g.mdrop, false, g.blocks⟩
      let d1 := ((d.poolWritten h e x.width g.blocks).modEng h e (fun g => { g.clearPipe with
        cur := none, ready := if x.again then r :: g.ready else g.ready ++ [r], rrc := g.rrc ++ [r] })).p l ROW_STAT.BUSY 0
      let cyc := renderCycles x g.kept + stall
      if x.again then d1.sat l ROW_STALL.CYCLES cyc
      else
        let d2 := (d1.sat l ROW_STALL.CYCLES stall).maxF l ROW_MAXREND.CYCLES cyc
        let d3 := match x.kind with
          | .new => d2.countMotifs h e x.ctx g
          | .replay => d2.sat l (ROW_RCNT.REPLAYS.ix x.ctx)
          | .reverse => d2.sat l (ROW_RCNT.REVROWS.ix x.ctx)
          | _ => d2
        d3.prefetch m h e x
  | none => d

/-! ### A render from a record at once (R206, R207) -/

/-- The pipe with its fills served as they are asked for; none where a line is absent or uncorrectable (notes/assumptions/108.md). -/
def Pass.through (d : Dev) (m : Mem) (h : Half) (x : Due) : Nat → Pass → Option Pass
  | 0, p => some p
  | n + 1, p =>
    let p1 := Pass.run d m h false x (p.eng.fuel x) p
    let g := p1.eng
    let ls := g.want ++ g.wantM
    if ls = [] then some p1
    else if ls.any (fun i => d.fillMark m h i false ≠ .data) then none
    else Pass.through d m h x n { p1 with eng := { g with
      want := [], wantM := []
      tc := g.want.foldl (fun c i => cacheFill 1024 c i (lineData d m h i)) g.tc
      mc := g.wantM.foldl (fun c i => cacheFill 512 c i (lineData d m h i)) g.mc } }
/-- The codes of a row rendered from its record, and the engine's caches and counters after it. -/
def Dev.drawNow (d : Dev) (m : Mem) (h : Half) (e : Nat) (x : Due) : Option (List Nat) × Dev :=
  let g := d.eng h e
  let k := d.scanMotifs h e x
  if d.motUe h e x.image then (none, d.motFault h e x)
  else match Pass.through d m h x (renderSteps x k.1 + 1) { eng := g.begin k } with
    | none => (none, d)
    | some p => (some (p.eng.row x).1, (d.modEng h e (fun y => { y with tc := p.eng.tc, mc := p.eng.mc })).countPass h e x.ctx p)

end Sys2Proof.Machine
end

