-- ==== Sys2Proof/Machine/Gather.lean ====
section
/-!
DEFINITION. The harness unit's gather (R146–R155), stamps (R151), segment seals and their comparison (R203–R207), the
row-state record (R129).
-/
namespace Sys2Proof.Machine

open Sys2Proof

/-! ### One channel -/

/-- The code transform of Table 06.2. -/
def xform (k code : Nat) : Nat :=
  match k with
  | 1 => 15 - code % 16
  | 2 => 0
  | 3 => 1
  | _ => code
/-- The stamp position of R151, 40 bits, with all sums modulo 2^40. -/
def stampAt (pa ka m : Nat) (rev : Bool) (off goff rshift : Nat) : Nat :=
  let base : Int := pa + rowDiff m ka * 2 ^ 32
  let back : Int := if rev then 2 ^ 32 + sgn 16 rshift * 2 ^ 16 else 0
  ((base + back + (sgn 16 off + sgn 16 goff) * 2 ^ 16) % 2 ^ 40).toNat
/-- What the gather of one channel gives: an entry with an uncorrectable error, no event, a masked group, an event that the
beam rule withholds, or an event. -/
inductive GRes where
  | ue | none | masked | mis
  | ev (e : Nat)
deriving DecidableEq, Repr

/-- What the gather of a row reads besides the harness unit: due entry, cell codes, anchor, reference states, channels whose
entry has an uncorrectable error. -/
structure GSrc where
  due : Due
  codes : List Nat
  ka : Nat
  pa : Nat
  refs : Nat → Nat
  bad : List Nat

/-- Does the gather of a row take channel `ch`: does its entry name the context and not say OFF? -/
def takesPart (x : Due) (e ch : Nat) : Bool := enXform (entryOf x.bank ch) ≠ 15 && enCtx (entryOf x.bank ch) == 32 * e + x.ctx
/-- One channel of a gather (R146, R150–R153). -/
def gatherCh (d : Dev) (h : Half) (e : Nat) (g : GSrc) (ch : Nat) : GRes :=
  let x := g.due
  let en := entryOf x.bank ch
  let w := fget ROW_BIND.W_M1 x.bind + 1
  let code := xform (enXform en) (if enCol en < w then g.codes.getD (enCol en) 0 else 0)
  let act := imgAt x.image (4 + code)
  let ns := fget ROW_ACT.ACTION act + 16 * fget ROW_ACT.PROFILE act
  let rev : Bool := x.kind == .reverse
  let pos := stampAt g.pa g.ka x.row rev (fget ROW_ACT.OFFSET act) (x.goff.getD (enGrp en) 0) (d.g (rowL h e) (ROW_XCFG.RSHIFT.ix x.ctx))
  if g.bad.contains ch then .ue
  else if bit x.gmask (enGrp en) then .masked
  else if (if fget ROW_ACT.MODE act = 1 then ns = g.refs ch else fget ROW_ACT.ACTION act = 0) then .none
  else if d.rbeam h (ch / 1024) ≠ fget ROW_BIND.BEAM x.bind then .mis
  else .ev (ch % 1024 + ns % 16 * 2 ^ 10 + ns / 16 * 2 ^ 14 + pos * 2 ^ 18 + b2n rev * 2 ^ 58)

/-- The channels of a segment that a gather takes, with their results, in ascending order. -/
def gatherSeg (d : Dev) (h : Half) (e : Nat) (g : GSrc) (seg : Nat) : List (Nat × GRes) :=
  (List.range 1024).filterMap (fun i => if takesPart g.due e (1024 * seg + i) then some (1024 * seg + i, gatherCh d h e g (1024 * seg + i)) else none)
/-- The events among the results. -/
def gEvents (rs : List (Nat × GRes)) : List Nat := rs.filterMap (fun r => match r.2 with | .ev e => some e | _ => none)

/-! ### Seals (R203) -/

def RKind.code : RKind → Nat
  | .new => 0 | .replay => 1 | .reverse => 2 | .reissue => 3
/-- Bits [79:0] of the seal record of a segment of an instance (Table 08.1). -/
def sealKey (d : Dev) (h : Half) (e : Nat) (x : Due) (kind : RKind) (rev : Bool) (seg : Nat) : Nat :=
  (32 * e + x.ctx) + seg * 2 ^ 8 + b2n rev * 2 ^ 14 + kind.code * 2 ^ 16 + x.row % 2 ^ 32 * 2 ^ 32 + (d.cx h e x.ctx).armgen % 65536 * 2 ^ 64
/-- The seal of a segment: CRC-32 over bytes 0–11 of the record and the events. -/
def sealCrc (key : Nat) (events : List Nat) : Nat :=
  crc32 (toBytes (key + events.length * 2 ^ 80) 12 ++ events.flatMap (fun e => toBytes e 8))

/-! ### The gather of a row (R153, R154) -/

/-- The effect of one channel's result: counters, or the enqueued event. -/
def Dev.gatherPut (d : Dev) (h : Half) (phys ctx key : Nat) (clear : Bool) (r : Nat × GRes) : Dev :=
  let l := hLoc h .hrn
  match r.2 with
  | .ue => ((d.sat l HRN_UE.COUNT).raise l 3).eccUe h (pageOf h.n .hrn 0) 0 (phys * 32768 + r.1 / 2) true r.1
  | .none => d
  | .masked => d.sat l HRN_GMASKED.COUNT
  | .mis => (d.sat l HRN_CERR.BEAMMIS).raise l 1
  | .ev e => d.enqueue h r.1 { ev := e, ctx := ctx, inst := key, clear := clear }

/-- One segment of a row whose segment 0 has the key `key0`: its events reach the queues, and in paired operation it waits for its seal. -/
def Dev.gatherPutSeg (d : Dev) (r : Referee) (h : Half) (e : Nat) (g : GSrc) (key0 seg : Nat) : Dev :=
  let x := g.due
  let rs := gatherSeg d h e g seg
  let key := key0 + seg * 2 ^ 8
  let refs := rs.filterMap (fun y => if g.refs y.1 = 0 then none else some (y.1, g.refs y.1))
  let d1 := rs.foldl (fun y c => y.gatherPut h x.phys (32 * e + x.ctx) key (!r.gated h) c) d
  if r.split then d1
  else d1.modSeal h (fun u => { u with jobs := u.jobs ++ [⟨key, x.kind, gEvents rs, g.ka, g.pa, refs⟩] })

/-- The segments a 64-bit map names, ascending. -/
def segsOf (v : Nat) : List Nat := (List.range 64).filter (fun s => bit v s)

/-- The channels whose entries a gather finds uncorrectable (R155): a word of the bank holds two entries, and it is lost where it was lost before
(R331) or a channel of `bad` names it. -/
def Dev.badEntries (d : Dev) (h : Half) (phys : Nat) (bad : List Nat) : List Nat :=
  let words := bad.map (fun ch => ch / 2) ++ (d.ueWords.filter (fun u => u.1 = pageOf h.n .hrn 0 && u.2.1 == phys)).map (fun u => u.2.2 / 2)
  (words.foldl addNew []).flatMap (fun w => [2 * w, 2 * w + 1])
/-- Does a row of the engine wait to be rendered once more (Table 13.4)? Its lane waits for it. -/
def Engine.renewing (g : Engine) : Bool := g.due.any (fun x => x.again) || g.cur.any (fun x => x.again)
/-- The lane of an engine reads the segments `segs` of its row, in order. -/
def Dev.gatherSegs (d : Dev) (r : Referee) (h : Half) (e : Nat) (x : Due) (g : Gath) (segs : List Nat) : Dev :=
  segs.foldl (fun y s => y.gatherPutSeg r h e ⟨x, g.codes, g.ka, g.pa, fun ch => (y.chan h ch).ref, g.bad⟩ g.key s) d
/-- Does an entry of the segments `segs` of a row name a column beyond its W (R153)? -/
def Due.rangeErr (x : Due) (e : Nat) (bad segs : List Nat) : Bool :=
  segs.any (fun s => (List.range 1024).any (fun i => takesPart x e (1024 * s + i) && !bad.contains (1024 * s + i) &&
    decide (fget ROW_BIND.W_M1 x.bind + 1 ≤ enCol (entryOf x.bank (1024 * s + i)))))
/-- GATHER_START (R153, R154): the free lane of an engine takes the next rendered row and gathers its first segment. The entries of `bad` channels
are found uncorrectable now. -/
def Dev.gatherStart (d : Dev) (r : Referee) (h : Half) (e : Nat) (bad : List Nat) : Dev :=
  let g := d.eng h e
  let l := hLoc h .hrn
  match g.renewing, g.lane, g.ready with
  | false, none, row :: rest =>
    let x := row.due
    let cx := d.cx h e x.ctx
    let segs := segsOf x.segs
    let d0 := { d with ueWords := (bad.flatMap (fun ch => [2 * (ch / 2), 2 * (ch / 2) + 1])).foldl (fun l ch =>
      if l.contains (pageOf h.n .hrn 0, x.phys, ch) then l else l ++ [(pageOf h.n .hrn 0, x.phys, ch)]) d.ueWords }
    let gt : Gath := ⟨row.codes, cx.ka, cx.pa, sealKey d h e x x.kind (x.kind == .reverse) 0, d.badEntries h x.phys bad, segs.drop 1⟩
    let d1 := d0.modEng h e (fun g => { g with
      lane := some x, laneOff := false, gath := gt, ready := rest, recs := if x.kind = .new then g.recs ++ [⟨x, row.fids, row.mdrop⟩] else g.recs })
    let d2 := d1.gatherSegs r h e x gt (segs.take 1)
    d2.p l HRN_STAT.LANES (d2.g l HRN_STAT.LANES ||| 2 ^ e)
  | _, _, _ => d
def execGatherStart (h : Half) (e : Fin 8) (bad : List (BitVec 16)) : State → Answer :=
  onBlock h (hLoc h .hrn) (fun s => s.dev.gatherStart s.ref h e (bad.map (·.toNat)))

/-- GATHER_COMPLETE (R154): the lane has read the other segments of its row; the row's cache entry may be replaced. Of an abandoned row the lane has
read a free number of them before it stopped (R81), and the row's entry goes. A render that waits for a block of the pool goes on (R328). -/
def Dev.gatherDone (d : Dev) (r : Referee) (m : Mem) (h : Half) (e : Nat) : Dev :=
  let l := hLoc h .hrn
  let g := d.eng h e
  match g.lane with
  | none => d
  | some x =>
    let (w, da) := if g.laneOff then d.free else (0, d)
    let now := if g.laneOff then g.gath.segs.take (w.toNat % (g.gath.segs.length + 1)) else g.gath.segs
    let all := (segsOf x.segs).take 1 ++ now
    let d1 := da.gatherSegs r h e x g.gath now
    let d2 := if x.rangeErr e g.gath.bad all then (d1.sat l HRN_CERR.COLRANGE).raise l 0 else d1
    let kept (g : Engine) : List RRow := if g.laneOff then g.rrc.filter (fun y => y.gathered || y.due ≠ x)
      else g.rrc.map (fun y => if y.due = x then { y with gathered := true } else y)
    let d3 := (d2.maxF l HRN_MAXGATH.CYCLES (24 * all.length + 40)).modEng h e (fun g => { g with lane := none, laneOff := false, gath := {}, rrc := kept g })
    (d3.p l HRN_STAT.LANES (d3.g l HRN_STAT.LANES &&& (255 - 2 ^ e))).unblock m h e
def execGatherComplete (h : Half) (e : Fin 8) : State → Answer :=
  onBlock h (hLoc h .hrn) (fun s => s.dev.gatherDone s.ref s.mem h e)

/-! ### Comparing seals (R204, R205) -/

/-- Does a half compare seals, or serve a comparison, in its state: STANDBY, CHARGE, or the OBSERVE phase of REJOINING (R205, R221)? -/
def Referee.exchanges (r : Referee) (h : Half) : Bool :=
  r.hs h == .standby || r.hs h == .charge || (r.hs h == .rejoining && r.rjPhase == 3)
/-- Are seals compared? -/
def Referee.sealing (r : Referee) : Bool := !r.split && r.exchanges .A && r.exchanges .B
/-- Does a half send its records: its peer is in STANDBY, CHARGE or REJOINING (R204), and a half that rejoins is in OBSERVE itself (R221)? -/
def Referee.sends (r : Referee) (h : Half) : Bool :=
  !r.split && r.exchanges h && (r.hs h.peer == .standby || r.hs h.peer == .charge || r.hs h.peer == .rejoining)
/-- Is the peer of a half in OBSERVE (R221)? -/
def Referee.observes (r : Referee) (h : Half) : Bool := r.hs h.peer == .rejoining && r.rjPhase == 3

/-- What a comparison tells the referee during OBSERVE (R221). -/
inductive Obs where
  | nothing | fail
  | equal (key : Nat)
deriving DecidableEq, Repr

/-- SEAL_STAT (Table 08.12): the tables and the half states as they stand. -/
def Dev.sealStat (d : Dev) (r : Referee) (h : Half) : Nat :=
  let u := d.sealU h
  u.own.length + u.peer.length * 2 ^ 16 + b2n (r.sends h) * 2 ^ 28 + b2n (r.gated h) * 2 ^ 29 + b2n (r.observes h) * 2 ^ 30 + b2n (decide (u.held ≠ [])) * 2 ^ 31
/-- A seal fault is reported: DETAIL is SEAL_LOG0 (Table 08.16). -/
def Dev.sealReport (d : Dev) (h : Half) (code key : Nat) (miss : Bool := false) : Dev :=
  d.report h code key (d.g (hLoc h .seal) (SEAL_LOG.REC.ix 0)) miss
/-- Hold an instance: its record is kept for the referee's decision (R205). -/
def Dev.hold (d : Dev) (h : Half) (x : SealRec) : Dev :=
  d.modSeal h (fun u => { u with held := if u.held.any (fun y => y.key = x.key) then u.held.map (fun y => if y.key = x.key then { x with held := y.held } else y) else u.held ++ [x] })
/-- The events of an instance meet condition 1 of R160. -/
def Dev.clearInst (d : Dev) (h : Half) (key : Nat) : Dev :=
  d.mapChans h (fun _ x => { x with q := x.q.map (fun e => if e.inst = key then { e with clear := true } else e) })
/-- Bits [31:0] of a record. -/
def recWord (x : SealRec) (k : Nat) : Nat := (x.key + x.nev * 2 ^ 80 + x.crc * 2 ^ 96) / 2 ^ (32 * k) % 2 ^ 32

/-- An own and a peer record with the same bits [79:0] meet. -/
def Dev.pair (d : Dev) (r : Referee) (h : Half) (own peer : SealRec) : Obs × Dev :=
  let l := hLoc h .seal
  if own.nev = peer.nev ∧ own.crc = peer.crc then (.equal own.key, (d.sat l SEAL_CMP.COUNT).clearInst h own.key)
  else if r.observes h then (.fail, (d.sat l SEAL_OBSM.COUNT).raise l 3)
  else
    let d1 := ((List.range 4).foldl (fun y k => y.p l (SEAL_LOG.REC.ix k) (recWord own k)) (d.sat l SEAL_MISM.COUNT)).p l SEAL_LOGP.SEAL peer.crc
    let d2 := (d1.modSeal h (fun u => { u with own := u.own ++ [{ own with held := true }], peer := u.peer ++ [{ peer with held := true }] })).hold h own
    (.nothing, (d2.raise l 0).sealReport h 0x01 own.key)

/-- The own record of a segment is computed (R205): sent to the peer, and paired, stored or dropped. -/
def Dev.ownRecord (d : Dev) (r : Referee) (h : Half) (x : SealRec) : Obs × Dev :=
  let l := hLoc h .seal
  let u := d.sealU h
  if !r.sends h then (.nothing, d)
  else
    let d1 := d.modSeal h (fun u => { u with out := u.out ++ [x] })
    if !r.sealing || r.hs h == .rejoining then (.nothing, d1)
    else if u.held.any (fun y => y.key = x.key) then
      (.nothing, (d1.modSeal h (fun u => { u with peer := u.peer.filter (fun y => y.key ≠ x.key) })).hold h x)
    else match u.peer.find? (fun y => y.key = x.key) with
      | some p => (d1.modSeal h (fun u => { u with peer := u.peer.filter (fun y => y.key ≠ x.key) })).pair r h x p
      | none =>
        if u.own.length < 1024 then (.nothing, d1.modSeal h (fun u => { u with own := u.own ++ [x] }))
        else (.nothing, ((d1.hold h x).raise l 2).sealReport h 0x03 x.key)

/-- The oldest record on the channel from the peer arrives (R205). -/
def Dev.peerRecord (d : Dev) (r : Referee) (h : Half) : Obs × Dev :=
  let l := hLoc h .seal
  match (d.sealU h.peer).out with
  | [] => (.nothing, d)
  | x :: rest =>
    let d0 := d.modSeal h.peer (fun u => { u with out := rest })
    let u := d0.sealU h
    if !r.sealing || r.hs h == .rejoining then (.nothing, d0)
    else if u.held.any (fun y => y.key = x.key) then (.nothing, d0.modSeal h (fun u => { u with own := u.own.filter (fun y => y.key ≠ x.key || y.held) }))
    else match u.own.find? (fun y => y.key = x.key) with
      | some o => (d0.modSeal h (fun u => { u with own := u.own.filter (fun y => y.key ≠ x.key) })).pair r h o x
      | none =>
        if u.peer.length < 1024 then (.nothing, d0.modSeal h (fun u => { u with peer := u.peer ++ [x] }))
        else (.nothing, ((d0.hold h x).raise l 2).sealReport h 0x03 x.key)

/-- A record has waited TMO microseconds without its pair (R205): the oldest of the own (`mine`) or the peer's records. -/
def Dev.sealTmo (d : Dev) (r : Referee) (h : Half) (mine : Bool) : Obs × Dev :=
  let l := hLoc h .seal
  let u := d.sealU h
  match (if mine then u.own else u.peer).find? (fun y => !y.held) with
  | none => (.nothing, d)
  | some x =>
    let d1 := (d.sat l SEAL_TMOC.COUNT).raise l 1
    if r.observes h then
      (.fail, d1.modSeal h (fun u => { u with own := u.own.filter (fun y => y ≠ x), peer := u.peer.filter (fun y => y ≠ x) }))
    else
      let mark (t : List SealRec) : List SealRec := t.map (fun y => if y = x then { y with held := true } else y)
      let d2 := d1.modSeal h (fun u => if mine then { u with own := mark u.own } else { u with peer := mark u.peer })
      (.nothing, (d2.hold h x).sealReport h 0x02 x.key (!mine))

/-- SEAL_COMPUTE (R203): the seal of the next gathered segment. -/
def Dev.sealCompute (d : Dev) (r : Referee) (h : Half) : Obs × Dev :=
  match (d.sealU h).jobs with
  | [] => (.nothing, d)
  | j :: rest =>
    let x : SealRec := { key := j.key, nev := j.events.length, crc := sealCrc j.key j.events, ka := j.ka, pa := j.pa, refs := j.refs, mine := true }
    (d.modSeal h (fun u => { u with jobs := rest })).ownRecord r h x

/-! ### Gathering a held instance again (R206, R207) -/

/-- The row of a held instance, from the rendered-row cache or by rendering its record; none when neither serves (R206 step 1). -/
def Dev.instRow (d : Dev) (m : Mem) (h : Half) (key : Nat) : Option (Due × List Nat) × Dev :=
  let ctx := key % 256
  let e := ctx / 32
  let c := ctx % 32
  let row := key / 2 ^ 32 % 2 ^ 32
  let rev : Bool := bit key 14
  match (d.eng h e).rrc.find? (fun y => decide (y.due.ctx = c) && decide (y.due.row = row) && ((y.due.kind == .reverse) == rev)) with
  | some y => (some (y.due, y.codes), d)
  | none =>
    if d.ringD h e c = 0 then (none, d)
    else
      let d1 := d.readRec h e c row
      if d.recOk m h e c row then
        (let x := d.fromRecord m h e (d.capture h e c { ctx := c, row := row, kind := if rev then .reverse else .replay, bind := d.rd (cxL h e c) ROW_BIND.BEAM.off })
         let r := d1.drawNow m h e x
         (r.1.map (fun codes => (x, codes)), r.2))
      else (none, d1)
/-- The results of gathering a held instance's segment again, with its stored anchor and reference states. An instance that is held on the peer's
record alone has none; the context's present ones serve (DESIGN CHOICE, notes/assumptions/108.md). -/
def Dev.regather (d : Dev) (m : Mem) (h : Half) (x : SealRec) : Option (List (Nat × GRes)) × Dev :=
  let y := d.instRow m h x.key
  let e := x.key % 256 / 32
  let cx := d.cx h e (x.key % 32)
  (y.1.map (fun z =>
    let lost := d.badEntries h z.1.phys []
    gatherSeg d h e (if x.mine then ⟨z.1, z.2, x.ka, x.pa, fun ch => SMap.get (fun _ => 0) x.refs ch, lost⟩
      else ⟨z.1, z.2, cx.ka, cx.pa, fun ch => (d.chan h ch).ref, lost⟩) (x.key / 2 ^ 8 % 64)), y.2)

/-- One held instance on REISSUE (R206). -/
def Dev.reissue1 (d : Dev) (m : Mem) (h : Half) (x : SealRec) : Dev :=
  let l := hLoc h .seal
  let y := d.regather m h x
  match y.1 with
  | none => ((y.2.clearInst h x.key).sat l SEAL_NOREC.COUNT).raise l 6
  | some rs =>
    let d1 := y.2.cancelAll h (fun e => decide (e.inst = x.key))
    let key := x.key - x.key / 2 ^ 16 % 4 * 2 ^ 16 + 3 * 2 ^ 16
    ((rs.foldl (fun y r => match r.2 with
      | .ev e => y.enqueue h r.1 { ev := e, ctx := x.key % 256, inst := key, clear := true }
      | _ => y) d1).sat l SEAL_REISS.COUNT).raise l 4
/-- Every held instance, oldest first; the tables' entries of held instances go. -/
def Dev.reissue (d : Dev) (m : Mem) (h : Half) : Dev :=
  ((d.sealU h).held.foldl (fun y x => y.reissue1 m h x) d).modSeal h (fun u =>
    { u with held := [], own := u.own.filter (fun y => !y.held), peer := u.peer.filter (fun y => !y.held) })

/-- The self-check word of a half (R207, Table 08.3): up to 16 held instances are gathered again, and a seal is compared with the half's own
first seal where it has one. -/
def Dev.selfCheck (d : Dev) (m : Mem) (h : Half) : Nat × Dev :=
  let u := d.sealU h
  let now := d.tb h
  let again := (u.held.take 16).foldl (fun (y : List (SealRec × Option (List (Nat × GRes))) × Dev) x =>
    let r := y.2.regather m h x
    (y.1 ++ [(x, r.1)], r.2)) ([], d)
  (b2n u.ue + b2n u.wdog * 2 + b2n (u.bucketAt ≠ 0 && decide (now < u.bucketAt + 100000000)) * 4
    + b2n (bit (d.g (sLoc .pwr) PWR_STAT.WARN) h.n) * 8
    + b2n (again.1.any (fun y => match y.2 with | some rs => y.1.mine && decide (sealCrc y.1.key (gEvents rs) ≠ y.1.crc) | none => false)) * 16
    + b2n (again.1.any (fun y => y.2.isNone)) * 32 + b2n u.pll * 64
    + min 65535 (u.ceAt.filter (fun t => decide (now < t + 100000))).length * 2 ^ 16, again.2)

/-! ### The row-state record (R129) -/

/-- Does a segment of an instance still wait for its lane, or for its seal? -/
def Dev.unsealed (d : Dev) (h : Half) (e : Nat) (x : Due) : Bool :=
  ((d.eng h e).lane == some x && !(d.eng h e).gath.segs.isEmpty) || (d.sealU h).jobs.any (fun j => (segsOf x.segs).any (fun s => j.key = sealKey d h e x x.kind (x.kind == .reverse) s))

/-- ROW_RECORD_WRITE (R129): the record of the oldest new row of the context whose segments are all sealed; H and RECS advance. -/
def Dev.recordWrite (d : Dev) (r : Referee) (h : Half) (e c : Nat) : Option (List MemOp × Dev) :=
  let l := rowL h e
  match (d.eng h e).recs.find? (fun y => y.due.ctx = c) with
  | none => none
  | some y =>
    if d.unsealed h e y.due then none
    else
      let dd := d.ringD h e c
      let d1 := ((d.modEng h e (fun g => { g with recs := g.recs.erase y })).p l (ROW_HWM.H.ix c) y.due.row).wrap (cxL h e c) ROW_CCNT_REND.ROWS
      if dd = 0 then some ([], d1)
      else some (storeMem r (d1.p l (ROW_REVST.RECS.ix c) (min dd (d1.g l (ROW_REVST.RECS.ix c) + 1))) h (h.n + 1)
        (d.recAddr h e c y.due.row) (d.recBytes h e y.due y.fids y.mdrop))

end Sys2Proof.Machine
end

