-- ==== Sys2Proof/Machine/Loupe.lean ====
section
/-!
DEFINITION. Loupe fabric inspection (chapter 09): camera ports, line stamps, flat field, the Lens map and its tracking, row
correlation, expected rows, comparison, defect records and stop rules.
-/
namespace Sys2Proof.Machine

open Sys2Proof

def lpeL (h : Half) (k : Nat) : Loc := hLoc h .lpe k
def cxpL (h : Half) (k : Nat) : Loc := hLoc h .cxp k
def Dev.pipe (d : Dev) (h : Half) (k : Nat) : Pipe := SMap.get (fun _ => {}) d.pipes (h.n * 2 + k)
def Dev.modPipe (d : Dev) (h : Half) (k : Nat) (f : Pipe → Pipe) : Dev := { d with pipes := SMap.modify (fun _ => {}) d.pipes (h.n * 2 + k) f }
def Dev.cxp (d : Dev) (h : Half) (k : Nat) : Cxp := SMap.get (fun _ => {}) d.cxps (h.n * 2 + k)
def Dev.modCxp (d : Dev) (h : Half) (k : Nat) (f : Cxp → Cxp) : Dev := { d with cxps := SMap.modify (fun _ => {}) d.cxps (h.n * 2 + k) f }

/-! ### Camera ports (R241–R245) -/

/-- The broadcast of a beam at a time base value within the history (R245). -/
def Dev.histAt (d : Dev) (h : Half) (b t : Nat) : Option BHist := (SMap.get (fun _ => []) d.bhist (h.n * 4 + b)).find? (fun x => x.tb ≤ t)
/-- The travel beam of a camera port's pipe. -/
def Dev.travelBeam (d : Dev) (h : Half) (k : Nat) : Nat := d.g (lpeL h k) LPE_BIND.TBEAM
/-- A signed difference of 64-bit positions. -/
def posDiff (a b : Nat) : Int := sgn 64 (a + 2 ^ 64 - b % 2 ^ 64)

/-- A trigger is recorded and its packet sent (R245): a full queue drops its oldest entry. -/
def Dev.camTrig (d : Dev) (h : Half) (k : Nat) : Dev :=
  let l := cxpL h k
  let t := d.tb h
  let pos := match d.histAt h (d.travelBeam h k) t with | some x => x.pos | none => 0
  let full : Bool := decide (16 ≤ (d.cxp h k).trigs.length)
  let d1 := d.modCxp h k (fun x => { x with trigs := (if full then x.trigs.drop 1 else x.trigs) ++ [(t, pos)], lastTrig := some pos })
  if full then (d1.sat l CXP_CTRIG.MISS).raise l 4 else d1
/-- TRAVEL_TRIGGER (Table 09.2): the position has passed the last trigger's by the pitch, forward and SYNCED. -/
def Dev.travelTrigger (d : Dev) (h : Half) (k : Nat) : Dev :=
  let l := cxpL h k
  match d.histAt h (d.travelBeam h k) (d.tb h) with
  | none => d
  | some x =>
    if d.g l CXP_CFG.TRIG = 1 ∧ x.sync = true ∧ x.back = false ∧
       (match (d.cxp h k).lastTrig with | none => true | some p => decide ((d.g l CXP_TPITCH.PITCH : Int) ≤ posDiff x.pos p)) = true then d.camTrig h k
    else d
def execTravelTrigger (h : Half) (k : Fin 2) : State → Answer := onBlock h (cxpL h k) (fun s => s.dev.travelTrigger h k)
/-- The timer event of TRIG = 2 reaches the half's camera ports. -/
def Dev.timerTrigger (d : Dev) (h : Half) (timer : Nat) : Dev :=
  (List.range 2).foldl (fun y k =>
    if y.clocked (cxpL h k) && y.g (cxpL h k) CXP_CFG.TRIG == 2 && y.g (cxpL h k) CXP_CFG.TIMER == timer then y.camTrig h k else y) d

/-- CXP_CONTROL_RX (R242): a reply, event or heartbeat packet, its CRC right (`ok`) or not. -/
def Dev.controlRx (d : Dev) (h : Half) (k kind : Nat) (ok : Bool) (payload : List Nat) : Dev :=
  let l := cxpL h k
  if ok ∧ (d.cxp h k).rx.length + 1 + payload.length ≤ 64 then
    let rx := (d.cxp h k).rx ++ [payload.length % 256 + kind * 2 ^ 8] ++ payload
    (((d.modCxp h k (fun x => { x with rx := rx })).p l CXP_CTLLV.RXCOUNT rx.length).p l CXP_CTLRX.WORD (rx.headD 0)).raise l 2
  else (d.sat l CXP_CERR.CRC).raise l 3
def execCxpControlRx (h : Half) (k : Fin 2) (kind : Fin 3) (ok : Bool) (payload : List Word) : State → Answer :=
  onBlock h (cxpL h k) (fun s => s.dev.controlRx h k kind ok (payload.map (·.toNat)))
/-- CXP_CTLTX_WRITE (R242): the packet leaves with its last payload word. -/
def Dev.ctlTx (d : Dev) (h : Half) (k : Nat) (v : Word) : Dev :=
  let l := cxpL h k
  let tx := (d.cxp h k).tx
  if 64 ≤ tx.length then d
  else
    let all := tx ++ [v.toNat]
    if all.length = all.headD 0 % 256 + 1 then (d.modCxp h k (fun x => { x with tx := [], sent := all })).p l CXP_CTLLV.TXFREE 64
    else (d.modCxp h k (fun x => { x with tx := all })).p l CXP_CTLLV.TXFREE (64 - all.length)
def execCxpCtltxWrite (h : Half) (k : Fin 2) (v : Word) : State → Answer := forwarded h (fun h => onWrite h (cxpL h k) (fun _ d => d.ctlTx h k v))
/-- CXP_CTLRX_READ (R242): pops a word; an empty FIFO reads 0. -/
def Dev.ctlRx (d : Dev) (h : Half) (k : Nat) : Dev :=
  let l := cxpL h k
  match (d.cxp h k).rx with
  | [] => { d with readData := 0 }
  | w :: rest => { ((d.modCxp h k (fun x => { x with rx := rest })).p l CXP_CTLLV.RXCOUNT rest.length).p l CXP_CTLRX.WORD (rest.headD 0) with
      readData := BitVec.ofNat 32 w }
def execCxpCtlrxRead (h : Half) (k : Fin 2) : State → Answer := onHalf h (fun s => s.dev.ctlRx h k)

/-- CXP_LINK_UP (R243). -/
def Dev.cxpUp (d : Dev) (h : Half) (k : Nat) : Dev :=
  let l := cxpL h k
  ((d.p l CXP_STAT.LINK 2).p l CXP_STAT.RATE (d.g l CXP_CFG.RATE)).raise l 0
def execCxpLinkUp (h : Half) (k : Fin 2) : State → Answer := onBlock h (cxpL h k) (fun s => s.dev.cxpUp h k)
/-- CXP_LINK_DOWN (R243); `line` says that a line was in progress. -/
def Dev.cxpDown (d : Dev) (h : Half) (k : Nat) (line : Bool) : Dev :=
  let l := cxpL h k
  if d.g l CXP_STAT.LINK = 2 then
    let d1 := ((d.p l CXP_STAT.LINK 0).p l CXP_STAT.STREAMING 0).raise l 1
    if line then d1.sat l CXP_CERR.LOST else d1
  else d
def execCxpLinkDown (h : Half) (k : Fin 2) (line : Bool) : State → Answer := onBlock h (cxpL h k) (fun s => s.dev.cxpDown h k line)

/-- The raw value of a pixel (R244). -/
def rawOf (fmt w : Nat) : Nat :=
  match fmt with
  | 0 => w % 256 * 16
  | 1 => w % 1024 * 4
  | 2 => w % 4096
  | _ => (77 * (w % 256) + 150 * (w / 2 ^ 8 % 256) + 29 * (w / 2 ^ 16 % 256)) / 256 * 16

/-- A line's stamp (R245): TB, position, and whether the travel beam was SYNCED then. -/
structure Stamp where
  tb : Nat
  pos : Nat
  sync : Bool

/-- The stamp of a line at TB `t`, with the position of the trigger that it matches (R245): free run takes the broadcast position. -/
def Dev.stampOf (d : Dev) (h : Half) (k : Nat) (x : Nat × Option Nat) : Stamp :=
  match d.histAt h (d.travelBeam h k) x.1 with
  | some y => ⟨x.1, x.2.getD y.pos, y.sync⟩
  | none => ⟨x.1, x.2.getD 0, false⟩

/-- A line marker at the port (R241, R245): TB of the line and the position of its trigger, or none where the line is discarded. `fmt` 4 is a
format outside the subset; `fresh` says that an image header came before the line; `n` pixels follow. -/
def Dev.portLine (d : Dev) (h : Half) (k stream fmt : Nat) (fresh : Bool) (n : Nat) : Option (Nat × Option Nat) × Dev :=
  let l := cxpL h k
  let now := d.tb h
  if d.g l CXP_STAT.LINK ≠ 2 ∨ stream ≠ d.g l CXP_CFG.STREAM then (none, d)
  else
    let bad : Bool := if fresh then fmt ≠ d.g l CXP_CFG.FMT else (d.cxp h k).badImage
    let d0 := (d.p l CXP_STAT.STREAMING 1).modCxp h k (fun x => { x with badImage := bad })
    if bad then (none, if fresh then d0.sat l CXP_CLINE.FMT else d0)
    else
      let d1 := if 16384 < n then d0.sat l CXP_CLINE.TRUNC else d0
      let lat := d.g l CXP_LAT.LAT
      if d.g l CXP_CFG.TRIG = 0 then
        (some (now - lat, none), d1)
      else
        let ok (e : Nat × Nat) : Bool := decide (((now : Int) - e.1 - lat).natAbs ≤ d.g l CXP_LAT.TOL)
        match (d.cxp h k).trigs.findIdx? ok with
        | none => (none, d1.sat l CXP_CTRIG.ORPHAN)
        | some i =>
          let e := (d.cxp h k).trigs.getD i (0, 0)
          let d2 := d1.modCxp h k (fun x => { x with trigs := x.trigs.drop (i + 1) })
          (some (e.1, some e.2), if i = 0 then d2 else (d2.sat l CXP_CTRIG.MISS i).raise l 4)

/-! ### Flat field and Lens map (R247–R251) -/

def Pipe.ff (x : Pipe) : List (Nat × Nat) := if x.active1 then x.ff1 else x.ff0
def Pipe.kn (x : Pipe) : List (Nat × Nat) := if x.active1 then x.kn1 else x.kn0
def Pipe.knS (x : Pipe) : List (Nat × Nat) := if x.active1 then x.kn0 else x.kn1
def bankAt (b : List (Nat × Nat)) (i : Nat) : Nat := SMap.get (fun _ => 0) b i
/-- The intensity of a raw value under a table entry (R247). -/
def flatField (en raw : Nat) : Nat := (max 0 (min 255 ((((raw : Int) - sgn 16 (en / 65536)) * (en % 65536 : Nat)) / 65536))).toNat
/-- u of a pixel, 16.16 (R248). -/
def lensU (kn : List (Nat × Nat)) (x : Nat) : Int :=
  if kn = [] then (x * 65536 : Nat)
  else
    let a : Int := bankAt kn (x / 256)
    let b : Int := bankAt kn (x / 256 + 1)
    a + (b - a) * (x % 256 : Nat) / 256
/-- v of a pixel, 18.14. -/
def lensV (off gain u : Int) : Int := off + u * gain / 2 ^ 30

/-- OFF_t and GAIN_t of a pipe. -/
def Dev.offT (d : Dev) (h : Half) (k : Nat) : Int := sgn 32 (d.g (lpeL h k) LPE_ROFF.OFF_T)
def Dev.gainT (d : Dev) (h : Half) (k : Nat) : Int := sgn 32 (d.g (lpeL h k) LPE_RGAIN.GAIN_T)
/-- The engine and context a pipe inspects, and the width of its rows. -/
def Dev.lpeE (d : Dev) (h : Half) (k : Nat) : Nat := d.g (lpeL h k) LPE_BIND.ENGINE
def Dev.lpeC (d : Dev) (h : Half) (k : Nat) : Nat := d.g (lpeL h k) LPE_BIND.CTX
def Dev.lpeW (d : Dev) (h : Half) (k : Nat) : Nat := d.g (cxL h (d.lpeE h k) (d.lpeC h k)) ROW_BIND.W_M1 + 1

/-- The first pixel of a window at which the intensity crosses THR from the background to the fabric side (R250), as u. -/
def selvedge (kn : List (Nat × Nat)) (line : List Nat) (bright : Bool) (thr x0 x1 : Nat) (up : Bool) : Option Int :=
  let bg (i : Nat) : Bool := let v := line.getD i 0; if bright then decide (thr < v) else decide (v < thr)
  let xs := (List.range (x1 - x0)).map (fun i => if up then (x0 + i, x0 + i + 1) else (x1 - i, x1 - i - 1))
  if x1 < x0 then none
  else (xs.find? (fun p => decide (p.1 < line.length) && decide (p.2 < line.length) && bg p.1 && !bg p.2)).map (fun p =>
    let ia : Int := line.getD p.1 0
    let ib : Int := line.getD p.2 0
    lensU kn p.1 + (lensU kn p.2 - lensU kn p.1) * ((thr : Int) - ia) / (ib - ia))
/-- Is a code compared, and is it a fiducial mark (Table 09.4)? -/
def Dev.appMode (d : Dev) (h : Half) (k e : Nat) : Nat := d.g (lpeL h k) (LPE_APP.MODE.ix e)
/-- The feature of a fiducial list entry (R250): u_m and v_e. -/
def Dev.fiducial (d : Dev) (h : Half) (k : Nat) (line : List Nat) (codes : List Nat) (f : Nat) : Option (Int × Int) :=
  let l := lpeL h k
  let kn := (d.pipe h k).kn
  let first : Nat := f % 65536
  let last : Nat := f / 2 ^ 16 % 65536
  let srch : Nat := d.g l LPE_FID.SRCH
  let lo : Int := ((first : Int) - srch) * 2 ^ 14
  let hi : Int := ((last : Int) + 1 + srch) * 2 ^ 14
  let mark (i : Nat) : Bool := (List.range 16).any (fun a => decide (2 ≤ d.appMode h k a) && decide (d.g l (LPE_APP.LO.ix a) ≤ i) && decide (i ≤ d.g l (LPE_APP.HI.ix a)))
  let us := (List.range line.length).filterMap (fun x =>
    let u := lensU kn x
    let v := lensV (d.offT h k) (d.gainT h k) u
    if lo ≤ v ∧ v ≤ hi ∧ mark (line.getD x 0) then some u else none)
  let cols := (List.range (last + 1 - first)).filterMap (fun i => if 2 ≤ d.appMode h k (codes.getD (first + i) 0) then some (((first + i : Nat) : Int) * 2 ^ 14 + 2 ^ 13) else none)
  if us.length < 4 ∨ cols = [] then none
  else some (us.foldl (· + ·) 0 / us.length, cols.foldl (· + ·) 0 / cols.length)
/-- The update of the map by an accepted line (R250, R251). Answers whether it updated. -/
def Dev.track (d : Dev) (h : Half) (k : Nat) (line : List Nat) (row : Option Nat) : Bool × Dev :=
  let l := lpeL h k
  let kn := (d.pipe h k).kn
  let gain := d.gainT h k
  let off := d.offT h k
  let w : Int := (d.lpeW h k : Nat) * 2 ^ 14
  let thr := d.g l LPE_LENS.THR
  let br := d.on l LPE_LENS.BGBRIGHT
  let edge (i : Nat) : Option Int := selvedge kn line br thr (d.g l (LPE_SELV.X0.ix i)) (d.g l (LPE_SELV.X1.ix i)) (i = 0)
  let selv := if d.on l LPE_LENS.SELV_EN then
    ((edge 0).map (fun u => (u, if 0 < gain then (0 : Int) else w))).toList ++ ((edge 1).map (fun u => (u, if 0 < gain then w else (0 : Int)))).toList else []
  let fids := match row with
    | none => []
    | some q => (match (d.pipe h k).exp.find? (fun x => x.row = q) with
      | some y => if d.on l LPE_LENS.FID_EN then (y.fids.filter (fun f => !bit f 50)).filterMap (fun f => d.fiducial h k line y.codes f) else []
      | none => [])
  let rej : Int := d.g l LPE_FID.REJ
  let far (f : Int × Int) : Bool := rej ≠ 0 && decide (rej * 2 ^ 44 < (off * 2 ^ 30 + f.1 * gain - f.2 * 2 ^ 30).natAbs)
  let all := selv ++ fids
  let fs := all.filter (fun f => !far f)
  let d1 := d.sat l LPE_CFEAT.REJ (all.length - fs.length)
  match fs with
  | [] =>
    let q := (d.pipe h k).quiet + 1
    let d2 := (d1.sat l LPE_CREG.HOLD).modPipe h k (fun x => { x with quiet := q })
    if d.g l LPE_LENS.REGTMO ≠ 0 ∧ d.g l LPE_LENS.REGTMO ≤ q ∧ d.on l LPE_STAT.REGOK = true then (false, (d2.p l LPE_STAT.REGOK 0).raise l 2) else (false, d2)
  | f :: rest =>
    let a := rest.foldl (fun m x => if x.1 < m.1 then x else m) f
    let b := rest.foldl (fun m x => if m.1 < x.1 then x else m) f
    let trk := 2 ^ d.g l LPE_LENS.TRK
    let two : Bool := rest ≠ [] && decide (256 * 65536 ≤ b.1 - a.1)
    let gain1 := if two then gain + ((b.2 - a.2) * 2 ^ 30 / (b.1 - a.1) - gain) / trk else gain
    let om := if two then ((a.2 + b.2) * 2 ^ 30 - (a.1 + b.1) * gain1) / 2 ^ 31 else (a.2 * 2 ^ 30 - a.1 * gain1) / 2 ^ 30
    let off1 := off + (om - off) / trk
    (true, (((d1.p l LPE_ROFF.OFF_T (usgn 32 off1)).p l LPE_RGAIN.GAIN_T (usgn 32 gain1)).p l LPE_STAT.REGOK 1).modPipe h k (fun x => { x with quiet := 0 }))

/-! ### Row correlation (R252, R253) -/

/-- A travel-log entry: ROW, ARMGEN, POS. -/
def Dev.logAt (d : Dev) (m : Mem) (h : Half) (k q : Nat) : Nat × Nat × Nat :=
  let l := lpeL h k
  let a := halfAddr h (d.g l LPE_TLOG_LO.BASE * 2 ^ 12 + d.g l LPE_TLOG_HI.BASE * 2 ^ 32) + q % 2 ^ d.g l LPE_TLOG_LO.DLOG2 * 16
  (fetchN d m a 4, fetchN d m (a + 4) 4, fetchN d m (a + 8) 8)
/-- Is the entry of row `q` valid? -/
def Dev.logOk (d : Dev) (m : Mem) (h : Half) (k q : Nat) : Bool :=
  match (d.pipe h k).newest with
  | none => false
  | some n => (d.logAt m h k q).1 == q && (d.logAt m h k q).2.1 == n.2
def Dev.logPos (d : Dev) (m : Mem) (h : Half) (k q : Nat) : Int := sgn 64 (d.logAt m h k q).2.2
/-- Binary search of the valid entries: the last row of `lo` to `lo + n` whose position is at most `tt`, in at most 17 probes. -/
def Dev.logSearch (d : Dev) (m : Mem) (h : Half) (k : Nat) (tt : Int) : Nat → Nat → Nat → Nat
  | 0, lo, _ => lo
  | fuel + 1, lo, n =>
    if n = 0 then lo
    else
      let half := (n + 1) / 2
      let q := (lo + half) % 2 ^ 32
      if d.logOk m h k q && decide (tt < d.logPos m h k q) then Dev.logSearch d m h k tt fuel lo (half - 1)
      else Dev.logSearch d m h k tt fuel q (n - half)
/-- The first loop of R253, with the steps taken. -/
def Dev.logUp (d : Dev) (m : Mem) (h : Half) (k : Nat) (tt : Int) : Nat → Nat → Nat × Nat
  | 0, q => (q, 0)
  | fuel + 1, q =>
    let n := (q + 1) % 2 ^ 32
    if d.logOk m h k n && decide (d.logPos m h k n ≤ tt) then Dev.logUp d m h k tt fuel n else (q, fuel + 1)
/-- The second loop of R253, with the steps left. -/
def Dev.logDown (d : Dev) (m : Mem) (h : Half) (k : Nat) (tt : Int) : Nat → Nat → Nat × Nat
  | 0, q => (q, 0)
  | fuel + 1, q =>
    if d.logOk m h k q && decide (tt < d.logPos m h k q) then Dev.logDown d m h k tt fuel ((q + 2 ^ 32 - 1) % 2 ^ 32) else (q, fuel + 1)

/-- What the correlation of a line gives (R253): the cursor is lost; the row is not complete in the log; a row and a phase. -/
inductive Corr where
  | miss
  | ahead (q : Nat)
  | row (q phase : Nat)
def Dev.correlate (d : Dev) (m : Mem) (h : Half) (k pos : Nat) : Corr :=
  let l := lpeL h k
  let tt : Int := sgn 64 (pos + 2 ^ 64 - (d.g l LPE_TOFF_LO.FRAC + d.g l LPE_TOFF_HI.UNITS * 2 ^ 32))
  let size := 2 ^ d.g l LPE_TLOG_LO.DLOG2
  match (d.pipe h k).newest with
  | none => .miss
  | some n =>
    let q0 := match (d.pipe h k).cursor with
      | some q => q
      | none => d.logSearch m h k tt 17 ((n.1 + 2 ^ 32 - (size - 1)) % 2 ^ 32) (size - 1)
    let u := d.logUp m h k tt 64 q0
    let w := d.logDown m h k tt u.2 u.1
    let q := w.1
    let nx := (q + 1) % 2 ^ 32
    if !d.logOk m h k q || decide (tt < d.logPos m h k q) || w.2 == 0 then .miss
    else if !d.logOk m h k nx then .ahead q
    else .row q (((tt - d.logPos m h k q) * 65536 / (d.logPos m h k nx - d.logPos m h k q)).toNat % 65536)

/-! ### Expected rows (R255, R83) -/

/-- Request the rows after `q` that the buffer does not hold and that are not on their way already (notes/assumptions/110.md). -/
def Dev.askRows (d : Dev) (h : Half) (k q : Nat) : Dev :=
  let e := d.lpeE h k
  (List.range (d.g (lpeL h k) LPE_BIND.AHEAD)).foldl (fun y i =>
    let r := (q + 1 + i) % 2 ^ 32
    if (y.pipe h k).exp.any (fun x => x.row = r) || (y.pipe h k).asked.contains r then y
    else (y.modPipe h k (fun x => { x with asked := x.asked ++ [r] })).modEng h e (fun g => { g with loupeQ := g.loupeQ ++ [⟨k, r⟩] })) d
/-- A Loupe request is served: its row is rendered from its record; a row that is not valid or whose record fails is absent (R255). -/
def Dev.loupeStart (d : Dev) (m : Mem) (h : Half) (e : Nat) (q : LReq) : Dev :=
  let l := rowL h e
  let c := d.lpeC h q.pipe
  let x0 : Due := { ctx := c, row := q.row, kind := .replay, bind := d.rd (cxL h e c) ROW_BIND.BEAM.off }
  if d.ringD h e c = 0 ∨ !d.rowValid h e c q.row then d
  else
    let d1 := d.readRec h e c q.row
    if !d.recOk m h e c q.row then d1
    else
      let x := d.fromRecord m h e x0
      if d1.motUe h e x.image then d1.motFault h e x
      else
        let k := d1.scanMotifs h e x
        (((d1.modEng h e (fun g => { g.begin k with lcur := some x })).p l ROW_STAT.BUSY 1).p l ROW_STAT.CUR c).pipeOn m h e
/-- LOUPE_RENDER_REQUEST (R83): an engine without production work takes the next Loupe request. -/
def Dev.loupeTake (d : Dev) (m : Mem) (h : Half) (e : Nat) : Dev :=
  let g := d.eng h e
  match g.loupe, g.loupeQ, g.cur, g.due with
  | none, q :: rest, none, [] =>
    if g.tinv.isSome || g.minv.isSome then d
    else ((d.modEng h e (fun g => { g with loupe := some q, loupeQ := rest })).p (rowL h e) ROW_STAT.LOUPE 1).loupeStart m h e q
  | _, _, _, _ => d
def execLoupeRenderRequest (h : Half) (e : Fin 8) : State → Answer := onBlock h (rowL h e) (fun s => s.dev.loupeTake s.mem h e)
/-- A row enters a pipe's buffer of 4: it replaces the lowest-numbered row behind the open row. -/
def Pipe.takeRow (x : Pipe) (r : ExpRow) : Pipe :=
  let behind := x.exp.filter (fun y => match x.row with | some o => decide (rowDiff y.row o.row < 0) | none => false)
  let from_ := if behind = [] then x.exp else behind
  let lowest (l : List ExpRow) : Option ExpRow := l.foldl (fun b y => match b with | none => some y | some z => if rowDiff y.row z.row < 0 then some y else b) none
  let kept := if x.exp.length < 4 then x.exp else match lowest from_ with | some z => x.exp.erase z | none => x.exp
  { x with asked := x.asked.erase r.row, exp := kept ++ [r], gone := x.gone.erase r.row }
/-- The render port returns a row absent (R255, R256). -/
def Pipe.loseRow (x : Pipe) (row : Nat) : Pipe := { x with asked := x.asked.erase row, gone := addNew x.gone row }
/-- The Loupe request that an engine serves is over. -/
def Dev.loupeEnd (d : Dev) (h : Half) (e : Nat) : Dev :=
  (if (d.eng h e).lcur.isSome then d.dropLoupe h e else d).modEng h e (fun g => { g with loupe := none }) |>.p (rowL h e) ROW_STAT.LOUPE 0
/-- EXPECTED_ROW_ARRIVE (R255): the engine's Loupe render ends and the pipe takes the row; a request that is not rendered returns it absent. -/
def Dev.loupeDone (d : Dev) (h : Half) (e : Nat) : Dev :=
  let g := d.eng h e
  match g.loupe, g.lcur with
  | none, _ => d
  | some q, none => (d.loupeEnd h e).modPipe h q.pipe (fun x => x.loseRow q.row)
  | some q, some y => if g.drawn y then (d.loupeEnd h e).modPipe h q.pipe (fun x => x.takeRow ⟨q.row, (g.row y).1, (g.row y).2⟩) else d
def execExpectedRowArrive (h : Half) (e : Fin 8) : State → Answer := onBlock h (rowL h e) (fun s => s.dev.loupeDone h e)
/-- The requests of pipe `k` at an engine are dropped (R265). -/
def Dev.loupeForget (d : Dev) (h : Half) (k e : Nat) : Dev :=
  (if (d.eng h e).loupe.any (fun q => q.pipe = k) then d.loupeEnd h e else d).modEng h e (fun g => { g with
    loupeQ := g.loupeQ.filter (fun q => q.pipe ≠ k), lparked := g.lparked.filter (fun q => q.1.pipe ≠ k) })

/-! ### Closing a row (R256–R263) -/

/-- A run of defective cells (R259). -/
structure Run where
  cls : Nat
  bright : Bool
  lo : Nat
  hi : Nat
  score : Nat
deriving DecidableEq, Repr

/-- Join the defective cells (column, class, bright, deviation), in ascending order, into runs; newest first. -/
def joinRuns (gap : Nat) (cells : List (Nat × Nat × Bool × Nat)) : List Run :=
  (cells.foldl (fun rs c => match rs with
    | r :: rest => if r.cls = c.2.1 ∧ r.bright = c.2.2.1 ∧ c.1 - r.hi - 1 ≤ gap then { r with hi := c.1, score := r.score + c.2.2.2 } :: rest
      else ⟨c.2.1, c.2.2.1, c.1, c.1, c.2.2.2⟩ :: rs
    | [] => [⟨c.2.1, c.2.2.1, c.1, c.1, c.2.2.2⟩]) []).reverse
/-- The defective cells of a row (R258). -/
def Dev.defects (d : Dev) (h : Half) (k : Nat) (o : OpenRow) (codes : List Nat) : List (Nat × Nat × Bool × Nat) :=
  let l := lpeL h k
  o.sums.filterMap (fun s =>
    let e := codes.getD s.1 0
    let mode := d.appMode h k e
    let lo := d.g l (LPE_APP.LO.ix e)
    let hi := d.g l (LPE_APP.HI.ix e)
    let cls := d.g l (LPE_APP.CLASS.ix e)
    if mode % 2 = 0 ∨ s.2.2 < d.g l LPE_AGG.MINSAMP then none
    else
      let mean := s.2.1 / s.2.2
      if mean < lo then some (s.1, cls, false, lo - mean) else if hi < mean then some (s.1, cls, true, mean - hi) else none)
/-- The runs that become records: at most RECMAX, then the overflow record (R260). -/
def limitRuns (recmax : Nat) (rs : List Run) : List Run :=
  if rs.length ≤ recmax then rs
  else
    let more := rs.drop recmax
    rs.take recmax ++ [⟨15, false, (more.headD ⟨0, false, 0, 0, 0⟩).lo, (more.getLastD ⟨0, false, 0, 0, 0⟩).hi, more.foldl (fun n r => n + r.score) 0⟩]
/-- A record (Table 09.5). -/
def recordOf (row camera tb : Nat) (regheld edge streak : Bool) (r : Run) : Nat :=
  row + r.lo % 65536 * 2 ^ 32 + r.hi % 65536 * 2 ^ 48 + r.cls * 2 ^ 64 + b2n r.bright * 2 ^ 68 + camera * 2 ^ 69 + b2n regheld * 2 ^ 72
    + b2n edge * 2 ^ 73 + b2n streak * 2 ^ 74 + min 4095 r.score * 2 ^ 76 + tb % 2 ^ 40 * 2 ^ 88
/-- A record of a COUNT class meets the streaks (R262): it extends an entry of the last close, or takes an entry. Answers
whether it extends one, its length, and the entries. -/
def streakMeet (ss : List Streak) (r : Run) : Bool × Nat × List Streak :=
  match ss.find? (fun s => !s.fresh && s.cls == r.cls && decide (s.lo ≤ r.hi) && decide (r.lo ≤ s.hi)) with
  | some s => (true, s.len + 1, ss.map (fun y => if y = s then ⟨r.lo, r.hi, r.cls, s.len + 1, true⟩ else y))
  | none =>
    let new : Streak := ⟨r.lo, r.hi, r.cls, 1, true⟩
    if ss.length < 16 then (false, 1, ss ++ [new])
    else
      let least := ss.foldl (fun b y => match b with | none => some y | some z => if y.len < z.len then some y else b) (none : Option Streak)
      (false, 1, match least with | some s => ss.erase s ++ [new] | none => [new])

/-- A stop request of a pipe (R264): the rules start afresh, the request stands until STOP_CLEAR, the pipe's page and the
referee's raise STOP. -/
def Dev.stopReq (d : Dev) (h : Half) (k : Nat) : Dev :=
  let d1 := ((d.modPipe h k (fun x => { x with window := [], streaks := [] })).p (lpeL h k) LPE_STAT.STOPREQ 1).raise (lpeL h k) 3
  ({ d1 with stopReqs := if d1.stopReqs.contains h then d1.stopReqs else d1.stopReqs ++ [h] }).raise (rLoc 3 .ref) 7
/-- A record joins those to be written, or is lost to a full ring (R261). -/
def Dev.ringPut (d : Dev) (h : Half) (k rec : Nat) : Dev :=
  let l := lpeL h k
  let used := (d.g l LPE_RING_WR.IDX + (d.pipe h k).recs.length + 2 ^ 21 - d.g l LPE_RING_RD.IDX) % 2 ^ 21
  let d1 := d.wrap l LPE_CREC.RECS
  if 2 ^ d.g l LPE_RING_CFG.LOG2 ≤ used then (d1.sat l LPE_CLOST.LOST).raise l 1 else d1.modPipe h k (fun x => { x with recs := x.recs ++ [rec] })

/-- The window rule after a close (R262). -/
def Dev.windowRule (d : Dev) (h : Half) (k : Nat) (counting : Bool) : Dev :=
  let l := lpeL h k
  let w := (counting :: (d.pipe h k).window).take (d.g l LPE_STOPWIN.WIN_M1 + 1)
  let n := d.g l LPE_STOPWIN.N
  let d1 := d.modPipe h k (fun x => { x with window := w })
  if n ≠ 0 ∧ n ≤ (w.filter (fun b => b)).length then d1.stopReq h k else d1

/-- The close of the open row (R254, R256, R258–R263); `compare` is false where the rule closes it without comparison. Whatever closes it, a row
without its expected row and a row that closes while REGOK is 0 are counted. -/
def Dev.closeRow (d : Dev) (h : Half) (k : Nat) (compare : Bool) : Dev :=
  let l := lpeL h k
  let x := d.pipe h k
  match x.row with
  | none => d
  | some o =>
    let d0 := (d.modPipe h k (fun y => { y with
      row := none, closed := some (o.row, (y.newest.map (·.2)).getD 0), gone := y.gone.filter (fun r => decide (0 < rowDiff r o.row)) })).p l LPE_STAT.ROWOPEN 0
    let got := x.exp.find? (fun y => y.row = o.row)
    let runs := match compare && d.on l LPE_STAT.REGOK, got with
      | true, some y => joinRuns (d.g l LPE_AGG.GAP) (d.defects h k o y.codes)
      | _, _ => []
    let dr := if d.on l LPE_STAT.REGOK then d0 else d0.sat l LPE_CREG.UNCMP
    let d1 := match got, x.gone.contains o.row with
      | some _, _ => dr
      | none, true => dr.sat l LPE_CEXP.NOREC
      | none, false => (dr.sat l LPE_CEXP.NOEXP).raise l 4
    let recmax := d.g l LPE_AGG.RECMAX
    let rs := limitRuns recmax runs
    let d2 := if recmax < runs.length then (d1.sat l LPE_CLOST.OVF).raise l 6 else d1
    let now := rs.any (fun r => bit (d.g l LPE_STOPCLS.NOW) r.cls)
    let d3 := if now then d2.stopReq h k else d2
    let counts (r : Run) : Bool := bit (d.g l LPE_STOPCLS.COUNT) r.cls
    let win := d3.windowRule h k (rs.any counts)
    let n := d.g l LPE_STOPWIN.STREAKN
    let start := (win.pipe h k).streaks.map (fun s => { s with fresh := false })
    let met := rs.foldl (fun (t : List Streak × List Bool × Bool) r =>
      if counts r then
        let m := streakMeet t.1 r
        (m.2.2, t.2.1 ++ [m.1], t.2.2 || (n ≠ 0 && decide (n ≤ m.2.1)))
      else (t.1, t.2.1 ++ [false], t.2.2)) (start, [], false)
    let d4 := win.modPipe h k (fun y => { y with streaks := met.1.filter (fun s => s.fresh) })
    let d5 := if met.2.2 then d4.stopReq h k else d4
    let base := o.base.getD 0
    let edge (r : Run) : Bool := (decide (r.lo ≤ base) && decide (base ≤ r.hi)) || (decide (r.lo ≤ base + 16383) && decide (base + 16383 ≤ r.hi))
    let recs := (rs.zip met.2.1).map (fun p => recordOf o.row (2 * h.n + k) (d.tb h) (!o.updated) (edge p.1) p.2 p.1)
    recs.foldl (fun y r => y.ringPut h k r) d5

/-- DEFECT_RECORD_WRITTEN (R261): the write response of the oldest record arrives. -/
def Dev.ringWritten (d : Dev) (r0 : Referee) (h : Half) (k : Nat) : List MemOp × Dev :=
  let l := lpeL h k
  match (d.pipe h k).recs with
  | [] => ([], d)
  | r :: rest =>
    let i := d.g l LPE_RING_WR.IDX
    let a := halfAddr h (d.g l LPE_RING_LO.BASE * 2 ^ 12 + d.g l LPE_RING_HI.BASE * 2 ^ 32) + i % 2 ^ d.g l LPE_RING_CFG.LOG2 * 16
    let thr := d.g l LPE_RING_CFG.THR
    let d1 := (d.modPipe h k (fun x => { x with recs := rest })).wrap l LPE_RING_WR.IDX
    let new := (i + 1) % 2 ^ 21
    let d2 := if thr ≠ 0 ∧ thr ≤ (new + 2 ^ 21 - (d.pipe h k).ringAt) % 2 ^ 21 then (d1.modPipe h k (fun x => { x with ringAt := new })).raise l 0 else d1
    storeMem r0 d2 h (h.n + 1) a (toBytes r 16)
/-- A record formed before the pipe was disabled is still written (R263): the clock stops only at an idle point (R481). -/
def execDefectRecordWritten (h : Half) (k : Fin 2) : State → Answer :=
  onMem (fun s => if s.ref.live h then s.dev.ringWritten s.ref h k else ([], s.dev))

/-! ### A line (R246–R254) -/

/-- Open a row (R254). -/
def Dev.openRow (d : Dev) (h : Half) (k q : Nat) : Dev :=
  let l := lpeL h k
  ((((d.modPipe h k (fun x => { x with row := some { row := q } })).p l LPE_STAT.ROWOPEN 1).p l LPE_CURROW.ROW q)).askRows h k q
/-- The cells of a line's pixels that lie in the row and in the phase window: column and intensity. -/
def Dev.samples (d : Dev) (h : Half) (k : Nat) (line : List Nat) : List (Nat × Nat) :=
  let l := lpeL h k
  let kn := (d.pipe h k).kn
  (List.range line.length).filterMap (fun x =>
    let v := lensV (d.offT h k) (d.gainT h k) (lensU kn x)
    let phi := (v % 2 ^ 14).toNat * 4
    if 0 ≤ v ∧ v / 2 ^ 14 < (d.lpeW h k : Nat) ∧ d.g l LPE_XPH.LO ≤ phi ∧ phi ≤ d.g l LPE_XPH.HI then some ((v / 2 ^ 14).toNat, line.getD x 0) else none)
/-- The lowest column to which a line maps a pixel. -/
def Dev.lowCol (d : Dev) (h : Half) (k : Nat) (line : List Nat) : Option Nat :=
  let kn := (d.pipe h k).kn
  (List.range line.length).foldl (fun b x =>
    let v := lensV (d.offT h k) (d.gainT h k) (lensU kn x)
    if 0 ≤ v ∧ v / 2 ^ 14 < (d.lpeW h k : Nat) then
      (match b with | none => some (v / 2 ^ 14).toNat | some c => some (min c (v / 2 ^ 14).toNat)) else b) none
/-- Sum a line's samples into the open row (R249, R257). -/
def Dev.addLine (d : Dev) (h : Half) (k : Nat) (line : List Nat) : Dev :=
  match (d.pipe h k).row with
  | none => d
  | some o =>
    let base := match o.base with | some b => some b | none => d.lowCol h k line
    let b := base.getD 0
    let s := d.samples h k line
    let inA (c : Nat) : Bool := decide (b ≤ c) && decide (c < b + 16384)
    let sums := (s.filter (fun p => inA p.1)).foldl (fun t p => SMap.modify (fun _ => (0, 0)) t p.1 (fun y => (y.1 + p.2, y.2 + 1))) o.sums
    let d1 := d.modPipe h k (fun x => { x with row := some { o with base := base, sums := sums } })
    if s.any (fun p => !inA p.1) then d1.sat (lpeL h k) LPE_CFEAT.WIDE else d1
/-- Is a line accepted (R246)? -/
def Dev.accepts (d : Dev) (h : Half) (k : Nat) (st : Stamp) : Bool :=
  st.sync && (match (d.pipe h k).pmax with
    | none => true
    | some p => decide ((max 1 (d.g (lpeL h k) LPE_MINSTEP.STEP) : Nat) ≤ posDiff st.pos p))
/-- An accepted line of the pipe, from its correlation on. -/
def Dev.takeLine (d : Dev) (m : Mem) (h : Half) (k : Nat) (st : Stamp) (line : List Nat) : Dev :=
  let l := lpeL h k
  let d1 := (d.wrap l LPE_CLINE.LINES).modPipe h k (fun x => { x with pmax := some st.pos })
  let mark (y : Dev) (u : Bool) : Dev := if u then y.modPipe h k (fun x => { x with row := x.row.map (fun o => { o with updated := true }) }) else y
  let cursorTo (y : Dev) (q : Nat) : Dev :=
    let z := (y.modPipe h k (fun x => { x with cursor := some q })).p l LPE_STAT.CURSOR 1
    if (y.pipe h k).cursor.isNone then z.askRows h k q else z
  match d.correlate m h k st.pos with
  | .miss =>
    (((((d1.modPipe h k (fun x => { x with cursor := none })).p l LPE_STAT.CURSOR 0).sat l LPE_CCOR.MISS).raise l 5).track h k line none).2
  | .ahead q => (((cursorTo d1 q).sat l LPE_CCOR.AHEAD).track h k line none).2
  | .row q phase =>
    let d2 := cursorTo d1 q
    let p := d2.pipe h k
    let lo := d.g l LPE_VPH.LO
    let hi := d.g l LPE_VPH.HI
    let behind : Bool := match p.closed with | some (r, g) => decide (rowDiff q r ≤ 0) && p.newest.map (·.2) == some g | none => false
    let beyond : Bool := match p.row with | some o => decide (0 < rowDiff q o.row) || (q == o.row && decide (hi < phase)) | none => false
    let inside : Bool := decide (lo ≤ phase) && decide (phase ≤ hi) && !behind
    let other : Bool := match p.row with | some o => o.row ≠ q | none => false
    let c := if beyond || (inside && other) then d2.closeRow h k true else d2
    if inside then
      let d3 := if (c.pipe h k).row.isSome then c else c.openRow h k q
      let d4 := d3.addLine h k line
      let t := d4.track h k line (some q)
      mark t.2 t.1
    else
      ((c.sat l LPE_CSKIP.PHASE).track h k line (some q)).2
/-- A line of the pipe (R246, R247): the intensities of its first 16,384 pixels, then acceptance. -/
def Dev.pipeLine (d : Dev) (m : Mem) (h : Half) (k : Nat) (st : Stamp) (raws : List Nat) : Dev :=
  let ff := (d.pipe h k).ff
  let n := min raws.length 16384
  let line := (List.range n).map (fun x => flatField (bankAt ff x) (raws.getD x 0))
  let d1 := d.modPipe h k (fun x => { x with line := line, fresh := true })
  if d.accepts h k st then d1.takeLine m h k st line else d1.sat (lpeL h k) LPE_CSKIP.STILL

/-! ### Register writes (R247, R252, R261) -/

/-- LPE_TABLE_WRITE (R247): the flat-field or knot window of the shadow bank. -/
def Dev.lpeTable (d : Dev) (h : Half) (k : Nat) (knot : Bool) (v : Word) : Dev :=
  let l := lpeL h k
  let i := if knot then d.g l LPE_KNW_IDX.IDX else d.g l LPE_FFW_IDX.IDX
  if d.on l PG_COMMIT.PENDING || (d.pipe h k).copying || (knot && decide (64 < i)) then d.raise l 7
  else
    let set (b : List (Nat × Nat)) : List (Nat × Nat) := SMap.set (fun _ => 0) b i v.toNat
    let d1 := d.modPipe h k (fun x => match knot, x.active1 with
      | false, true => { x with ff0 := set x.ff0 }
      | false, false => { x with ff1 := set x.ff1 }
      | true, true => { x with kn0 := set x.kn0 }
      | true, false => { x with kn1 := set x.kn1 })
    if knot then (if d.on l LPE_KNW_IDX.AUTOINC then d1.p l LPE_KNW_IDX.IDX (i + 1) else d1)
    else if d.on l LPE_FFW_IDX.AUTOINC then d1.p l LPE_FFW_IDX.IDX (i + 1) else d1
def execLpeTableWrite (h : Half) (k : Fin 2) (knot : Bool) (v : Word) : State → Answer := forwarded h (fun h => onWrite h (lpeL h k) (fun _ d => d.lpeTable h k knot v))
/-- LPE_BANK_COPY_DONE (R247): the shadow banks are copies of the active ones. -/
def Dev.lpeCopied (d : Dev) (h : Half) (k : Nat) : Dev :=
  d.modPipe h k (fun x =>
    if x.copying then (if x.active1 then { x with ff0 := x.ff1, kn0 := x.kn1, copying := false } else { x with ff1 := x.ff0, kn1 := x.kn0, copying := false }) else x)
def execLpeBankCopyDone (h : Half) (k : Fin 2) : State → Answer := onBlock h (lpeL h k) (fun s => s.dev.lpeCopied h k)
/-- LPE_RING_RD_WRITE (R261). -/
def Dev.ringRd (d : Dev) (h : Half) (k : Nat) (v : Word) : Dev :=
  let l := lpeL h k
  let rd := fget LPE_RING_RD.IDX v
  if 2 ^ d.g l LPE_RING_CFG.LOG2 < (d.g l LPE_RING_WR.IDX + 2 ^ 21 - rd) % 2 ^ 21 then d.raise l 7 else d.p l LPE_RING_RD.IDX rd
def execLpeRingRdWrite (h : Half) (k : Fin 2) (v : Word) : State → Answer := forwarded h (fun h => onWrite h (lpeL h k) (fun _ d => d.ringRd h k v))
/-- LPE_TLOG_WRITE (R252): only while PG_CTL.ENABLE is 0. -/
def Dev.tlogWrite (d : Dev) (h : Half) (k : Nat) (hi : Bool) (v : Word) : Dev :=
  let l := lpeL h k
  if d.clocked l then d.raise l 7
  else if hi then d.wr l LPE_TLOG_HI.BASE.off (v &&& 0xFF) else d.wr l LPE_TLOG_LO.BASE.off (v &&& 0xFFFFF01F)
def execLpeTlogWrite (h : Half) (k : Fin 2) (hi : Bool) (v : Word) : State → Answer := forwarded h (fun h => onWrite h (lpeL h k) (fun _ d => d.tlogWrite h k hi v))

/-! ### Running, commits (R239, R251, R252, R265) -/

/-- A pipe starts when it is enabled with a legal log, in a half that runs it (R239, R252). -/
def Dev.pipeStart (d : Dev) (h : Half) (k : Nat) : Dev :=
  let l := lpeL h k
  let n := d.g l LPE_TLOG_LO.DLOG2
  if d.clocked l && !d.on l LPE_STAT.RUN && decide (8 ≤ n) && decide (n ≤ 16) then
    ((d.p l LPE_STAT.RUN 1).p l LPE_STAT.CURSOR 0).modPipe h k (fun x => { x with cursor := none, row := none, pmax := none })
  else d
/-- Both pipes of a half that enters CHARGE, STANDBY or SPLIT. -/
def Dev.pipesStart (d : Dev) (h : Half) : Dev := (d.pipeStart h 0).pipeStart h 1

/-- The LPE refusal codes (Table 09.14), the boundary code apart. -/
def Dev.lpeCodes (d : Dev) (h : Half) (k : Nat) : List Nat :=
  let l := lpeL h k
  let apps := List.range 16
  let kn := (d.pipe h k).knS
  (if d.gS l LPE_BIND.AHEAD = 0 then [0x90] else [])
  ++ (if d.gS l LPE_VPH.HI < d.gS l LPE_VPH.LO ∨ d.gS l LPE_XPH.HI < d.gS l LPE_XPH.LO then [0x91] else [])
  ++ (if d.gS l LPE_LINE.LINEPER < 15625 then [0x92] else [])
  ++ (if 8 < d.gS l LPE_LENS.TRK then [0x93] else [])
  ++ (if d.gS l LPE_LGAIN.GAIN = 0 then [0x94] else [])
  ++ (if d.gS l LPE_AGG.RECMAX = 0 ∨ d.gS l LPE_AGG.MINSAMP = 0 then [0x95] else [])
  ++ (if d.gS l LPE_STOPWIN.WIN_M1 + 1 < d.gS l LPE_STOPWIN.N then [0x96] else [])
  ++ (if d.gS l LPE_RING_CFG.LOG2 < 6 ∨ 20 < d.gS l LPE_RING_CFG.LOG2 then [0x97] else [])
  ++ (if apps.any (fun a => d.gS l (LPE_APP.CLASS.ix a) == 15 || (d.gS l (LPE_APP.MODE.ix a) % 2 == 1 && decide (d.gS l (LPE_APP.HI.ix a) < d.gS l (LPE_APP.LO.ix a)))) then [0x98] else [])
  ++ (if kn ≠ [] ∧ (List.range 64).any (fun j => decide (bankAt kn (j + 1) ≤ bankAt kn j)) then [0x99] else [])
  ++ (if d.g (hLoc h .beam) (BEAM_CFG.MODE.ix (d.gS l LPE_BIND.TBEAM)) = 0 then [0x9B] else [])
/-- The CXP refusal codes (Table 09.14). -/
def Dev.cxpCodes (d : Dev) (h : Half) (k : Nat) : List Nat :=
  let l := cxpL h k
  let t := d.gS l CXP_CFG.TRIG
  (if 6 < d.gS l CXP_CFG.RATE then [0x9C] else [])
  ++ (if t = 3 ∨ (t = 1 ∧ d.gS l CXP_TPITCH.PITCH = 0) then [0x9D] else [])
  ++ (if d.gS l CXP_LAT.TOL = 0 then [0x9E] else [])

/-- What follows the swap of an LPE page whose active LPE_BIND was `was` (R247, R251, R265). LOAD also restarts the count of lines without an update
(notes/assumptions/109.md). -/
def Dev.lpeSwapped (d : Dev) (h : Half) (k : Nat) (was : Word) : Dev :=
  let l := lpeL h k
  let now := d.rd l LPE_BIND.ENGINE.off
  let d1 := d.modPipe h k (fun x => { x with active1 := !x.active1, copying := true })
  let d2 := if d.on l LPE_LENS.LOAD then
    ((((d1.p l LPE_ROFF.OFF_T (d.g l LPE_LOFF.OFF)).p l LPE_RGAIN.GAIN_T (d.g l LPE_LGAIN.GAIN)).p l LPE_STAT.REGOK 1).pB l LPE_LENS.LOAD 0).modPipe h k
      (fun x => { x with quiet := 0 }) else d1
  if was &&& 0x3FF = now &&& 0x3FF then d2
  else
    let d3 := d2.closeRow h k false
    let drop (y : Dev) : Dev := (List.range 8).foldl (fun z e => z.loupeForget h k e) y
    let pos := (d.histAt h (fget LPE_BIND.TBEAM now) (d.tb h)).map (·.pos)
    (((drop d3).modPipe h k (fun x => { x with exp := [], asked := [], gone := [], cursor := none, pmax := pos })).p l LPE_STAT.CURSOR 0)
/-- What follows the swap of a CXP page whose active CXP_CFG was `was` (R243): a new rate relocks the receiver. -/
def Dev.cxpSwapped (d : Dev) (h : Half) (k : Nat) (was : Word) : Dev :=
  let l := cxpL h k
  if fget CXP_CFG.RATE was = d.g l CXP_CFG.RATE then d
  else ((d.p l CXP_STAT.LINK 0).p l CXP_STAT.STREAMING 0).p l CXP_STAT.RATE (d.g l CXP_CFG.RATE)

/-- An uncorrectable error of a pipe's memory or microcode (R315, Table 13.4): the open row closes without comparison and is counted in NOEXP, once. -/
def Dev.loupeUe (d : Dev) (h : Half) (k : Nat) : Dev :=
  let x := d.pipe h k
  match x.row with
  | none => d
  | some o =>
    let held : Bool := x.exp.any (fun y => y.row = o.row) || x.gone.contains o.row
    if held then (d.closeRow h k false).sat (lpeL h k) LPE_CEXP.NOEXP else d.closeRow h k false

end Sys2Proof.Machine
end

