-- ==== Sys2Proof/Machine/Prism.lean ====
section
/-!
DEFINITION. The Prism compositor (chapter 16): layers and their sources, colour, keying, the Lens scalers, the Condenser, the
protected layer, the checks of its commits, and the commands that refresh, flatten, take camera lines and write back.
-/
namespace Sys2Proof.Machine

open Sys2Proof

/-- The composition page of a composition, and the D4 page. -/
def przL (c : Nat) : Loc := sLoc .prz c
def przD4 : Loc := sLoc .prz 2
/-- Where the registers of layer `n` of composition `c` stand (R382): page and index. -/
def layerAt (c n : Nat) : Loc × Nat := if n < 7 then (przL c, n) else (przD4, c)
/-- A field of a layer, of the active and of the shadow set. -/
def Dev.lg (d : Dev) (c n : Nat) (f : Fld) : Nat := d.g (layerAt c n).1 (f.ix (layerAt c n).2)
def Dev.lgS (d : Dev) (c n : Nat) (f : Fld) : Nat := d.gS (layerAt c n).1 (f.ix (layerAt c n).2)
/-- A composition. -/
def Dev.prism (d : Dev) (c : Nat) : Prism := SMap.get (fun _ => {}) d.prisms c
def Dev.modPrism (d : Dev) (c : Nat) (f : Prism → Prism) : Dev := { d with prisms := SMap.modify (fun _ => ({} : Prism)) d.prisms c f }

/-- Where the surface of compatibility scan-out lies (R390). -/
def compatBase (d : Dev) (c : Nat) : Nat := d.g (dhdL c) DHD_COMPAT_LO.BASE * 16 + d.g (dhdL c) DHD_COMPAT_HI.BASE * 2 ^ 32
/-- A byte of a surface as a frame shows it. What an uncorrectable word of DRAM shows is not stated (notes/assumptions/122.md). -/
def pixelByte (r : Referee) (d : Dev) (m : Mem) (a : Nat) : Byte :=
  if r.served a < 2 ^ 36 && d.ueLines.contains (r.served a / 8) then Config.ueByte a d.freeCount else readByte r d m a

/-! ### Surfaces (R371, R399) -/

/-- Bits per pixel of a format (Table 18.1). -/
def fmtBits (f : Nat) : Nat :=
  match f with
  | 0 => 1
  | 1 => 2
  | 2 => 4
  | 3 => 8
  | 4 => 16
  | 5 => 32
  | 6 => 8
  | _ => 0
/-- The value of a pixel of a surface, read by `rd`. -/
def pixelAt (rd : Nat → Byte) (base pitch fmt x y : Nat) : Nat :=
  let bpp := fmtBits fmt
  let a := base + y * pitch + x * bpp / 8
  if bpp < 8 then (rd a).toNat / 2 ^ (x * bpp % 8) % 2 ^ bpp
  else if bpp = 8 then (rd a).toNat
  else if bpp = 16 then (rd a).toNat + 256 * (rd (a + 1)).toNat
  else (rd a).toNat + 256 * (rd (a + 1)).toNat + 65536 * (rd (a + 2)).toNat + 16777216 * (rd (a + 3)).toNat
/-- A colour of 10 bits per channel. -/
def rgb10 (r g b : Nat) : Nat := r * 2 ^ 20 + g * 2 ^ 10 + b
/-- Each channel widened to 10 bits by repeating its top bits (Table 16.1). -/
def widen10 (fmt v : Nat) : Nat :=
  if fmt = 4 then
    let r := v / 2 ^ 11 % 32
    let g := v / 2 ^ 5 % 64
    let b := v % 32
    rgb10 (r * 32 + r) (g * 16 + g / 4) (b * 32 + b)
  else
    let e (x : Nat) : Nat := x * 4 + x / 64
    rgb10 (e (v / 2 ^ 16 % 256)) (e (v / 2 ^ 8 % 256)) (e (v % 256))

/-- The bytes a surface of a layer covers. -/
def surfaceBytes (pitch fmt w h : Nat) : Nat := pitch * (h - 1) + (w * fmtBits fmt + 7) / 8

/-! ### Composition (R370–R376) -/

/-- What a composition reads from: the referee, the devices, memory, and the registers of the frame in `fd`. -/
structure Scene where
  r : Referee
  d : Dev
  m : Mem
  fd : Dev
  c : Nat
  fr : DFrame

/-- A frame's scene. -/
def sceneOf (s : State) (c : Nat) : Scene :=
  let fr := (s.dev.prism c).frame
  ⟨s.ref, s.dev, s.mem, { s.dev with regs := fr.regs }, c, fr⟩
/-- The row of the rendered-row cache that a live-row layer shows on source line `y` (R372). -/
def Scene.row (x : Scene) (n y : Nat) : Option RRow :=
  match x.fr.rows.getD n none with
  | none => none
  | some top =>
    let h := x.r.server
    let ctx := x.fd.lg x.c n PRZ_LLIVE.CTX
    (x.d.eng h (x.fd.lg x.c n PRZ_LLIVE.ENGINE)).rrc.find? (fun e => e.gathered && e.due.ctx = ctx && e.due.row = (top + 2 ^ 32 - y) % 2 ^ 32)
/-- The buffer of a layer: BASE, or where the layer is not ready the one it showed when it last was (R380). -/
def Scene.base (x : Scene) (n : Nat) : Nat :=
  match x.fr.bases.find? (fun e => e.1 = n) with
  | some e => e.2
  | none => x.fd.lg x.c n PRZ_LBASE_LO.BASE * 16 + x.fd.lg x.c n PRZ_LBASE_HI.BASE * 2 ^ 32
/-- The bilinear blend of four 30-bit colours (R375): each channel weighted by the parts `fx` of `dw` and `fy` of `dh` that the position lies beyond
the first pixel on each axis. How a value between two is rounded is not stated (notes/assumptions/1.md). -/
def bilinear (p00 p01 p10 p11 fx dw fy dh : Nat) : Nat :=
  let ch (i : Nat) : Nat :=
    let c (p : Nat) : Nat := p / 2 ^ i % 1024
    let num := c p00 * ((dw - fx) * (dh - fy)) + c p01 * (fx * (dh - fy)) + c p10 * ((dw - fx) * fy) + c p11 * (fx * fy)
    let den := dw * dh
    num / den + (if num % den = 0 then 0 else Config.lensRound num den % 2)
  rgb10 (ch 20) (ch 10) (ch 0)
/-- The value of a source pixel of a layer, none where it is transparent. -/
def Scene.source (x : Scene) (n sx sy : Nat) : Option Nat :=
  let g := x.fd.lg x.c n
  let base := x.base n
  let rd (a : Nat) : Byte := pixelByte x.r x.d x.m a
  match g PRZ_LCFG.SRC with
  | 0 => some (pixelAt rd base (g PRZ_LPITCH.PITCH) (g PRZ_LCFG.FMT) sx sy)
  | 1 =>
    let k := g PRZ_LLIVE.FIRST + sx * 2 ^ g PRZ_LLIVE.SKIP
    (match x.row n sy with
     | none => none
     | some e => e.codes[k]?)
  | _ =>
    let sh := g PRZ_LSIZE.SH_M1 + 1
    let count := SMap.get (fun _ => 0) (x.d.prism x.c).cams n
    some (pixelAt rd base (g PRZ_LPITCH.PITCH) 3 sx ((count + sh * sy - 1 - sy) % sh))
/-- The colour of a layer at a pixel of the active area (R374), none where the layer does not show. -/
def Scene.layer (x : Scene) (n px py : Nat) : Option Nat :=
  let g := x.fd.lg x.c n
  let sw := g PRZ_LSIZE.SW_M1 + 1
  let sh := g PRZ_LSIZE.SH_M1 + 1
  let lens := g PRZ_LCFG.LENS ≠ 0
  let dw := if lens then g PRZ_LDST.DW_M1 + 1 else sw
  let dh := if lens then g PRZ_LDST.DH_M1 + 1 else sh
  let ox := g PRZ_LPOS.X
  let oy := g PRZ_LPOS.Y
  if g PRZ_LCFG.EN = 0 ∨ px < ox ∨ ox + dw ≤ px ∨ py < oy ∨ oy + dh ≤ py then none
  else
    let dx := px - ox
    let dy := py - oy
    let sx := dx * sw / dw
    let sy := dy * sh / dh
    let direct := g PRZ_LCFG.SRC = 0 ∧ 4 ≤ g PRZ_LCFG.FMT
    let col : Option Nat :=
      if direct then
        let at_ (a b : Nat) : Nat := widen10 (g PRZ_LCFG.FMT) ((x.source n (min a (sw - 1)) (min b (sh - 1))).getD 0)
        if lens ∧ g PRZ_LCFG.FILT = 1 then
          some (bilinear (at_ sx sy) (at_ (sx + 1) sy) (at_ sx (sy + 1)) (at_ (sx + 1) (sy + 1)) (dx * sw % dw) dw (dy * sh % dh) dh)
        else some (at_ sx sy)
      else
        match x.source n sx sy with
        | none => none
        | some v =>
          let e := SMap.get (fun _ => 0) x.d.preLut ((x.c * 8 + n) * 1024 + (v + g PRZ_LLUTOFF.LUTOFF) % 1024)
          if bit e 31 then none else some (e % 2 ^ 30)
    match col with
    | none => none
    | some v =>
      let lo := g PRZ_LKEYLO.KEY
      let hi := g PRZ_LKEYHI.KEY
      let inside (i : Nat) : Bool := lo / 2 ^ i % 1024 ≤ v / 2 ^ i % 1024 && v / 2 ^ i % 1024 ≤ hi / 2 ^ i % 1024
      if g PRZ_LCFG.KEYEN = 1 ∧ inside 20 ∧ inside 10 ∧ inside 0 then none else some v
/-- The static prefix (R376): how many layers from L0 are static or disabled. -/
def prefixLen (fd : Dev) (c : Nat) : Nat :=
  ((List.range 7).takeWhile (fun n => fd.lg c n PRZ_LCFG.STATIC = 1 || fd.lg c n PRZ_LCFG.EN = 0)).length
/-- The colour of the layers from `lo` to `hi` − 1 over what lies below. -/
def Scene.stack (x : Scene) (lo hi px py : Nat) (below : Option Nat) : Option Nat :=
  (List.range (hi - lo)).foldl (fun o i => (x.layer (lo + i) px py).orElse (fun _ => o)) below
/-- Where a pixel of the flattened prefix lies in Condenser SRAM. -/
def condAddr (fd : Dev) (c width px py : Nat) : Nat := 0x1103000000 + fd.g (przL c) PRZ_COND.BASE * 65536 + 4 * (py * width + px)
/-- Is layer L7 at a pixel (its destination rectangle)? -/
def Scene.inL7Rect (x : Scene) (px py : Nat) : Bool :=
  let g := x.fd.lg x.c 7
  let lens := g PRZ_LCFG.LENS ≠ 0
  let dw := if lens then g PRZ_LDST.DW_M1 + 1 else g PRZ_LSIZE.SW_M1 + 1
  let dh := if lens then g PRZ_LDST.DH_M1 + 1 else g PRZ_LSIZE.SH_M1 + 1
  let ox := g PRZ_LPOS.X
  let oy := g PRZ_LPOS.Y
  g PRZ_LCFG.EN = 1 && ox ≤ px && px < ox + dw && oy ≤ py && py < oy + dh
/-- The result of a pixel (R374): 8 bits per channel, R in [23:16]. In compatibility scan-out the surface at DHD_COMPAT stands
for layers L0–L6 (R390). -/
def Scene.pixel (x : Scene) (px py : Nat) : Nat :=
  let fd := x.fd
  let l := przL x.c
  let dl := dhdL x.c
  let width := (modeSize (fd.g dl DHD_CFG.MODE)).1
  let bg := fd.g l PRZ_BG.BG
  let rd (a : Nat) : Byte := readByte x.r x.d x.m a
  let low : Option Nat :=
    if fd.on dl DHD_CFG.SCAN then
      let f := 4 + fd.g dl DHD_CPITCH.CFMT
      some (widen10 f (match (x.d.head x.c).lines[py]? with
        | some line => pixelAt (fun a => (line.drop a).headD 0) 0 0 f px 0
        | none => pixelAt (pixelByte x.r x.d x.m) (compatBase fd x.c) (fd.g dl DHD_CPITCH.PITCH) f px py))
    else if x.fr.cond then
      let a := condAddr fd x.c width px py
      let w := pixelAt rd a 0 5 0 0
      x.stack (prefixLen fd x.c) 7 px py (if bit w 31 then none else some (w % 2 ^ 30))
    else x.stack 0 7 px py none
  let top : Option Nat :=
    if x.fr.stale ∧ x.inL7Rect px py then
      some (if (px + py) / 8 % 2 = 0 then fd.g przD4 (PRZ_STALECOL.COL.ix x.c) else 0)
    else (x.layer 7 px py).orElse (fun _ => low)
  let out := top.getD bg
  let ch (i : Nat) : Nat :=
    let v := out / 2 ^ (20 - 10 * i) % 1024
    if fd.on l PRZ_CFG.PLUTEN then SMap.get (fun _ => 0) x.d.postLut (x.c * 4096 + i * 1024 + v) else v / 4
  ch 0 * 65536 + ch 1 * 256 + ch 2

/-! ### Latch points (R376, R378, R380) -/

/-- The registers a frame keeps: those of the composition page, the D4 page and the head's page. -/
def Dev.frameRegs (d : Dev) (c : Nat) : SMap Word :=
  d.regs.filter (fun e => e.1 / 0x100000 = przL c / 0x100000 || e.1 / 0x100000 = przD4 / 0x100000 || e.1 / 0x100000 = dhdL c / 0x100000)
/-- The newest gathered row of a context in an engine's rendered-row cache (R372), the latest entry. -/
def newestRow (g : Engine) (ctx : Nat) : Option Nat :=
  (g.rrc.filter (fun e => e.gathered && e.due.ctx = ctx)).getLast?.map (fun e => e.due.row)
/-- The layers of a latch point (R380): for each the GEN it has, for how many latch points that GEN has stood, and whether it is not ready. -/
def Dev.layerAges (d : Dev) (c : Nat) : List (Nat × Nat × Bool) :=
  (List.range 7).map (fun n =>
    let e := d.lg c n PRZ_LCFG.EXPECT
    let gen := d.lg c n PRZ_LGEN.GEN
    let was := SMap.get (fun _ => (0, 0)) (d.prism c).gens n
    let stood := if gen = was.1 then was.2 + 1 else 0
    (gen, min stood 255, decide (e ≠ 0) && decide (e ≤ stood)))
/-- BASE of a layer. -/
def Dev.layerBase (d : Dev) (c n : Nat) : Nat := d.lg c n PRZ_LBASE_LO.BASE * 16 + d.lg c n PRZ_LBASE_HI.BASE * 2 ^ 32
/-- The first reserved address that the surface of a layer reaches in a frame (R25), for what the active area shows of it. Every range of the map
begins and ends at a multiple of 64 KiB. -/
def Dev.surfaceHole (d : Dev) (base pitch fmt w h : Nat) : Option Nat :=
  let size := surfaceBytes pitch fmt w h
  if w = 0 ∨ h = 0 then none
  else ((base :: (List.range (size / 65536 + 2)).map (fun i => (base / 65536 + 1 + i) * 65536)).filter (fun a => a < base + size)).find? d.reserved
/-- The surfaces that a frame fetches from memory: base, pitch, format, width and height, the parts beyond the active area apart. The layers under
`from_` come from the Condenser; L7 and the surface of compatibility scan-out, whose lines the head fetches itself (R390), are apart. -/
def Scene.surfaces (x : Scene) (from_ : Nat) : List (Nat × Nat × Nat × Nat × Nat) :=
  let size := modeSize (x.fd.g (dhdL x.c) DHD_CFG.MODE)
  let dl := dhdL x.c
  let compat := x.fd.on dl DHD_CFG.SCAN
  ((List.range 7).filter (fun n => decide (from_ ≤ n) && !compat)).filterMap (fun n =>
    let g := x.fd.lg x.c n
    let sw := g PRZ_LSIZE.SW_M1 + 1
    let sh := g PRZ_LSIZE.SH_M1 + 1
    let ox := g PRZ_LPOS.X
    let oy := g PRZ_LPOS.Y
    if g PRZ_LCFG.EN = 0 ∨ g PRZ_LCFG.SRC ≠ 0 ∨ size.1 ≤ ox ∨ size.2 ≤ oy then none
    else if g PRZ_LCFG.LENS ≠ 0 then some (x.base n, g PRZ_LPITCH.PITCH, g PRZ_LCFG.FMT, sw, sh)
    else some (x.base n, g PRZ_LPITCH.PITCH, g PRZ_LCFG.FMT, min sw (size.1 - ox), min sh (size.2 - oy)))
/-- Did a swap since the last frame change a register of a prefix layer, what R393 calls the mode, or the Condenser region (R376;
notes/assumptions/112.md)? -/
def Dev.prefixMoved (d : Dev) (c : Nat) : Bool :=
  let old := { d with regs := (d.prism c).frame.regs }
  let k := max (prefixLen d c) (prefixLen old c)
  (List.range k).any (fun n => (List.range 12).any (fun j => d.rd (przL c) (0x100 + 0x40 * n + 4 * j) ≠ old.rd (przL c) (0x100 + 0x40 * n + 4 * j)))
    || [DHD_CFG.MODE, DHD_CFG.LINK, DHD_CFG.LANES_M1, DHD_CFG.CMDMODE, DHD_CFG.BURST, DHD_CFG.SCAN].any (fun f => d.g (dhdL c) f ≠ old.g (dhdL c) f)
    || d.rd (przL c) PRZ_COND.BASE.off ≠ old.rd (przL c) PRZ_COND.BASE.off
/-- The prefix of the frame that ends is stored in the Condenser, one word per pixel (R376). -/
def condStores (s : State) (c : Nat) : List MemOp :=
  let x := sceneOf s c
  let size := modeSize (x.fd.g (dhdL c) DHD_CFG.MODE)
  let k := prefixLen x.fd c
  (List.range size.2).flatMap (fun py => (List.range size.1).flatMap (fun px =>
    storeN (condAddr x.fd c size.1 px py) ((x.stack 0 k px py none).getD (2 ^ 31)) 4))
/-- What the code does at the reads of the frame that begins at a latch point (R331, R336, Table 13.4): the surfaces `fs` of its layers, the L7 surface
where it is enabled, the Condenser where the frame shows the flattened prefix; once a frame for each word. -/
def Dev.frameEcc (d : Dev) (r : Referee) (c : Nat) (fs : List (Nat × Nat × Nat × Nat × Nat)) (l7 cond : Bool) : Dev :=
  let g := d.lg c 7
  let size := modeSize (d.g (dhdL c) DHD_CFG.MODE)
  let areas := fs.map (fun f => (f.1, surfaceBytes f.2.1 f.2.2.1 f.2.2.2.1 f.2.2.2.2)) ++
    (if l7 then [(d.layerBase c 7, surfaceBytes (g PRZ_LPITCH.PITCH) (g PRZ_LCFG.FMT) (g PRZ_LSIZE.SW_M1 + 1) (g PRZ_LSIZE.SH_M1 + 1))] else []) ++
    (if cond then [(condAddr d c 0 0 0, 4 * size.1 * size.2)] else [])
  areas.foldl (fun y a => y.readEcc r.walker (r.served a.1) a.2) d
/-- The Prism's part of a latch point of head `c`, after its swaps: staleness, readiness, the Condenser, the new frame. -/
def przLatch (s : State) (c : Nat) : List MemOp × Dev :=
  let d := s.dev
  let l := przL c
  let x := d.prism c
  let now := d.tbS
  let l7 := d.lg c 7 PRZ_LCFG.EN = 1
  let stale := l7 && (x.ueL7 || decide (x.refresh + d.g przD4 (PRZ_MAXAGE.MAXAGE.ix c) * 100000 < now))
  let entry := stale && !d.on l PRZ_STAT.L7STALE
  let d1 := d.p l PRZ_STAT.L7STALE (b2n stale)
  let d2 := if entry then (d1.raise l 1).raise przD4 1 else d1
  let ages := d2.layerAges c
  let waits (n : Nat) : Bool := (ages.getD n (0, 0, false)).2.2
  let d3 := d2.p l PRZ_STAT.LSTALE ((List.range 7).foldl (fun t n =>
    if waits n || (bit (d.g l PRZ_STAT.LSTALE) n && (ages.getD n (0, 0, false)).2.1 ≠ 0) then t + 2 ^ n else t) 0)
  let d4 := if (List.range 7).any waits then (d3.sat l PRZ_CNT2.STALE).raise l 0 else d3
  let size := modeSize (d.g (dhdL c) DHD_CFG.MODE)
  let fits := 4 * size.1 * size.2 ≤ d.g l PRZ_COND.SIZE * 65536 ∧ 0 < prefixLen d c ∧ d.g (dhdL c) DHD_CFG.SCAN = 0
  let invalid := x.invalid || d.prefixMoved c
  let done := d.on l PRZ_STAT.FLATTENING && !invalid && decide fits
  let cond := decide fits && !invalid && (d.on l PRZ_STAT.CONDENSED || done)
  let d5 := (d4.p l PRZ_STAT.CONDENSED (b2n cond)).p l PRZ_STAT.FLATTENING (b2n (decide fits && invalid))
  let d6 := if done then d5.raise l 6 else d5
  let rows := (List.range 7).map (fun n =>
    if d.lg c n PRZ_LCFG.EN = 1 ∧ d.lg c n PRZ_LCFG.SRC = 1 then
      newestRow (d.eng s.ref.server (d.lg c n PRZ_LLIVE.ENGINE)) (d.lg c n PRZ_LLIVE.CTX) else none)
  let bases := (List.range 7).filterMap (fun n =>
    let b := SMap.get (fun _ => 0) x.bufs n
    if waits n && b ≠ 0 then some (n, b - 1) else none)
  let bufs := (List.range 7).foldl (fun m n => if waits n then m else SMap.set (fun _ => 0) m n (d.layerBase c n + 1)) x.bufs
  let fr : DFrame := { tb := now, regs := d.frameRegs c, rows := rows, stale := stale, cond := cond, wb := d.on l PRZ_WBCFG.WBEN, bases := bases }
  let d7 := d6.modPrism c (fun y => { y with
    frame := fr, invalid := !decide fits, bufs := bufs
    gens := (List.range 7).foldl (fun m n => let a := ages.getD n (0, 0, false); SMap.set (fun _ => (0, 0)) m n (a.1, a.2.1)) y.gens })
  let sc : Scene := ⟨s.ref, d7, s.mem, { d7 with regs := fr.regs }, c, fr⟩
  let misses := (List.range 7).foldl (fun t n =>
    if (rows.getD n none).isSome then t + ((List.range (d.lg c n PRZ_LSIZE.SH_M1 + 1)).filter (fun y => (sc.row n y).isNone)).length else t) 0
  let dm := if misses = 0 then d7 else (d7.sat l PRZ_CNT.ROWMISS misses).raise l 2
  let fs := sc.surfaces (if cond then prefixLen d c else 0)
  let d8 := fs.foldl (fun y f => match y.surfaceHole f.1 f.2.1 f.2.2.1 f.2.2.2.1 f.2.2.2.2 with
    | some a => y.decodeErr (some .prism) a 3
    | none => y) dm
  let d9 := if done then { d8 with ueLines := d8.ueLines.filter (fun w => !(decide (condAddr d c 0 0 0 ≤ 8 * w) && decide (8 * w < condAddr d c 0 0 0 + 4 * size.1 * size.2))) }
    else d8
  (if done then condStores s c else [],
   d9.frameEcc s.ref c fs l7 cond)

/-! ### Writeback (R381) -/

/-- A result pixel as the writeback surface holds it. -/
def wbPixel (fmt v : Nat) : List Byte :=
  if fmt = 1 then toBytes (v + 0xFF000000) 4
  else toBytes (v / 2 ^ 19 % 32 * 2 ^ 11 + v / 2 ^ 10 % 64 * 2 ^ 5 + v / 8 % 32) 2
/-- The first `lines` lines of the frame's writeback. -/
def wbStores (s : State) (c lines : Nat) : List MemOp × Dev :=
  let x := sceneOf s c
  let l := przL c
  let size := modeSize (x.fd.g (dhdL c) DHD_CFG.MODE)
  let base := x.fd.g l PRZ_WB_LO.BASE * 16 + x.fd.g l PRZ_WB_HI.BASE * 2 ^ 32
  (List.range (min lines size.2)).foldl (fun y py =>
    let z := storeMem s.ref y.2 s.ref.walker 3 (base + py * x.fd.g l PRZ_WBCFG.PITCH)
      ((List.range size.1).flatMap (fun px => wbPixel (x.fd.g l PRZ_WBCFG.WBFMT) (x.pixel px py)))
    (y.1 ++ z.1, z.2)) ([], s.dev)
/-- Has the Prism stopped for a composition: service dim (R481), from the latch point at which its head stopped? -/
def Dev.przStopped (d : Dev) (c : Nat) : Bool := d.on (sLoc .pwr) PWR_STAT.DIM && !d.on (dhdL c) DHD_STAT.RUN
/-- A command of the Prism: its page's clock runs. -/
def onPrism (c : Nat) (f : State → List MemOp × Dev) : State → Answer :=
  onMem (fun s => if s.dev.svcUp && s.dev.clocked (przL c) && !s.dev.przStopped c then f s else ([], s.dev))
/-- WB_DONE: every line of the frame is written. -/
def execWbDone (c : Fin 2) : State → Answer :=
  onPrism c (fun s =>
    if !(s.dev.prism c).frame.wb then ([], s.dev)
    else
      let x := wbStores s c 2048
      (x.1, (((x.2.p64 (przL c) PRZ_WBTB_LO.TB PRZ_WBTB_HI.TB (s.dev.prism c).frame.tb).modPrism c
        (fun y => { y with frame := { y.frame with wb := false } })).raise (przL c) 4)))
/-- The rest of the frame's writeback is abandoned after `lines` lines. -/
def wbAbandon (s : State) (c lines : Nat) : List MemOp × Dev :=
  if !(s.dev.prism c).frame.wb then ([], s.dev)
  else
    let x := wbStores s c lines
    (x.1, ((x.2.modPrism c (fun y => { y with frame := { y.frame with wb := false } })).sat (przL c) PRZ_CNT2.WBDROP).raise (przL c) 5)
/-- WB_DROP: a line's writes were not all accepted when the next line began. -/
def execWbDrop (c : Fin 2) (lines : BitVec 11) : State → Answer := onPrism c (fun s => wbAbandon s c lines.toNat)

/-! ### Refresh, flattening, camera lines -/

/-- A refresh of L7 of composition `c` (R378). -/
def Dev.l7Refresh (d : Dev) (c : Nat) : Dev := d.modPrism c (fun x => { x with refresh := d.tbS, ueL7 := false })
/-- A write of PRZ_L7REFRESH. -/
def Dev.l7Write (d : Dev) (mask : Nat) : Dev := [0, 1].foldl (fun y c => if bit mask c then y.l7Refresh c else y) d
def execL7Refresh (mask : BitVec 2) : State → Answer := onSvcReg (fun s => (s.dev.seq przD4).l7Write mask.toNat)
/-- A write of PRZ_REFLAT (R376). -/
def Dev.reflat (d : Dev) (c : Nat) : Dev := d.modPrism c (fun x => { x with invalid := true })
def execReflat (c : Fin 2) : State → Answer := onSvcReg (fun s => (s.dev.seq (przL c)).reflat c)
/-- A camera line reaches the camera view (R373): each layer that shows the camera takes it. While `busy` the line before it is not all written: that
one is dropped, and its place in the ring goes to this one. -/
def cameraLine (s : State) (h : Half) (k : Nat) (busy : Bool) : List MemOp × Dev :=
  let line := (s.dev.pipe h k).line
  [0, 1].foldl (fun x c =>
    if !x.2.clocked (przL c) || x.2.przStopped c then x
    else (List.range 7).foldl (fun x n =>
      let g := x.2.lg c n
      if g PRZ_LCFG.EN = 0 ∨ g PRZ_LCFG.SRC ≠ 2 ∨ g PRZ_LLIVE.ENGINE ≠ 2 * h.n + k then x
      else
        let was := SMap.get (fun _ => 0) (x.2.prism c).cams n
        let drop : Bool := busy && decide (0 < was)
        let count := if drop then was - 1 else was
        let d0 := if drop then (x.2.sat (przL c) PRZ_CNT.CAMDROP).raise (przL c) 3 else x.2
        let base := g PRZ_LBASE_LO.BASE * 16 + g PRZ_LBASE_HI.BASE * 2 ^ 32 + count % (g PRZ_LSIZE.SH_M1 + 1) * g PRZ_LPITCH.PITCH
        let bytes := ((List.range (g PRZ_LSIZE.SW_M1 + 1)).filterMap (fun i => (line.drop (g PRZ_LLIVE.FIRST + i * 2 ^ (g PRZ_LLIVE.SKIP))).head?)).map
          (fun v => BitVec.ofNat 8 v)
        let y := storeMem s.ref d0 s.ref.walker 3 base bytes
        (x.1 ++ y.1, y.2.modPrism c (fun p => { p with cams := SMap.set (fun _ => 0) p.cams n (count + 1) }))) x) ([], s.dev.modPipe h k (fun x => { x with fresh := false }))
/-- CAMERA_VIEW_LINE (R373): a line that the pipe has passed on and the Prism has not taken; none comes of a frozen half, of a pipe that does not
run (R239) or of a port that is down. -/
def execCameraViewLine (h : Half) (k : Fin 2) (busy : Bool) : State → Answer :=
  onMem (fun s =>
    let d := s.dev
    if d.svcUp && s.ref.live h && d.on (lpeL h k) LPE_STAT.RUN && decide (d.g (cxpL h k) CXP_STAT.LINK = 2) && (d.pipe h k).fresh then cameraLine s h k busy else ([], d))

/-! ### The checks of a commit (Table 16.3) -/

/-- The lowest code of a list of conditions (R490). -/
def firstCode (xs : List (Bool × Nat)) : Option Nat := ((xs.filter (fun x => x.1)).map (fun x => x.2)).min?
/-- The checks every layer has, on the shadow set. -/
def Dev.layerCodes (d : Dev) (c n : Nat) : List (Bool × Nat) :=
  let g := d.lgS c n
  let sw := g PRZ_LSIZE.SW_M1 + 1
  let sh := g PRZ_LSIZE.SH_M1 + 1
  let dw := g PRZ_LDST.DW_M1 + 1
  let dh := g PRZ_LDST.DH_M1 + 1
  let lens := g PRZ_LCFG.LENS ≠ 0
  let src := g PRZ_LCFG.SRC
  let base := g PRZ_LBASE_LO.BASE * 16 + g PRZ_LBASE_HI.BASE * 2 ^ 32
  let ring := sh * g PRZ_LPITCH.PITCH
  [ (lens && (4096 < sw || 4096 < dw), 0xE0),
    (lens && (8 * dw < sw || 8 * sw < dw || 8 * dh < sh || 8 * sh < dh), 0xE1),
    (4 < g PRZ_LCFG.LENS, 0xE2),
    ((src = 0 && 5 < g PRZ_LCFG.FMT) || g PRZ_LPITCH.PITCH % 16 ≠ 0, 0xE3),
    (src = 3 || 4 < g PRZ_LLIVE.SKIP || (src = 1 && 64 < sh)
      || (src = 2 && (base < 0x1102000000 || 0x1103000000 < base + ring)), 0xE4),
    (n ≠ 7 && g PRZ_LCFG.STATIC = 1 && (src = 1 || src = 2), 0xE5) ]
/-- Does a Lens have two users among the layers (`g` gives each layer's LENS)? -/
def lensTwice (g : Nat → Nat) : Bool :=
  (List.range 8).any (fun n => (List.range 8).any (fun k => n < k && g n ≠ 0 && g n = g k))
/-- The checks of composition page `c`; `both` when the D4 page swaps with it, so that the two shadow sets meet. -/
def Dev.przCode (d : Dev) (c : Nat) (both : Bool) : Option Nat :=
  let l := przL c
  let q := przL (1 - c)
  let lo := d.gS l PRZ_COND.BASE
  let hi := lo + d.gS l PRZ_COND.SIZE
  let qlo := d.g q PRZ_COND.BASE
  let qhi := qlo + d.g q PRZ_COND.SIZE
  firstCode ((List.range 7).flatMap (fun n => d.layerCodes c n) ++
    [ (lensTwice (fun n => if n < 7 ∨ both then d.lgS c n PRZ_LCFG.LENS else d.lg c n PRZ_LCFG.LENS), 0xE2),
      (d.gS l PRZ_WBCFG.PITCH % 16 ≠ 0, 0xE3),
      (lo < hi && qlo < qhi && lo < qhi && qlo < hi, 0xEA) ])
/-- The checks of the D4 page for composition `c`; `both` when the composition page swaps with it. -/
def Dev.przD4Code (d : Dev) (c : Nat) (both : Bool) : Option Nat :=
  let g := d.lgS c 7
  let base := g PRZ_LBASE_LO.BASE * 16 + g PRZ_LBASE_HI.BASE * 2 ^ 32
  let lo := 0x1102000000 + d.gS przD4 PRZ_L7RANGE.BASE * 65536
  let hi := lo + d.gS przD4 PRZ_L7RANGE.SIZE * 65536
  let size := surfaceBytes (g PRZ_LPITCH.PITCH) (g PRZ_LCFG.FMT) (g PRZ_LSIZE.SW_M1 + 1) (g PRZ_LSIZE.SH_M1 + 1)
  firstCode ((g PRZ_LCFG.SRC ≠ 0 || base < lo || hi < base + size, 0xE8) :: d.layerCodes c 7 ++
    [ (lensTwice (fun n => if n < 7 ∧ !both then d.lg c n PRZ_LCFG.LENS else d.lgS c n PRZ_LCFG.LENS), 0xE2),
      (d.gS przD4 (PRZ_MAXAGE.MAXAGE.ix c) = 0, 0xE9) ])

end Sys2Proof.Machine
end

