-- ==== Sys2Proof/Machine/Aud.lean ====
section
/-!
DEFINITION. The acoustic unit (chapter 19): ports and frames, voices, gains and ramps, the mixer's period, stethoscope, meters, the
checks of a commit. The sample period itself, which may swap the page, is in Machine/Edges.lean.
-/
namespace Sys2Proof.Machine

open Sys2Proof

/-- The AUD page. -/
def audL : Loc := sLoc .aud
def Dev.modAud (d : Dev) (f : Audio → Audio) : Dev := { d with aud := f d.aud }
def Audio.port (a : Audio) (p : Nat) : APort := SMap.get (fun _ => {}) a.ports p
def Audio.setPort (a : Audio) (p : Nat) (x : APort) : Audio := { a with ports := SMap.set (fun _ => {}) a.ports p x }
def Audio.voice (a : Audio) (v : Nat) : Voice := SMap.get (fun _ => {}) a.voices v
def Audio.setVoice (a : Audio) (v : Nat) (x : Voice) : Audio := { a with voices := SMap.set (fun _ => {}) a.voices v x }
/-- A gain of a bank. -/
def gainOf (m : SMap Gain) (k : Nat) : Gain := SMap.get (fun _ => {}) m k
def setGain (m : SMap Gain) (k : Nat) (g : Gain) : SMap Gain := SMap.set (fun _ => {}) m k g
/-- Slots of a format (Table 19.1). -/
def fmtSlots (fmt : Nat) : Nat := if fmt = 0 then 2 else if fmt = 1 then 4 else 8
/-- Saturate to a signed 24-bit sample. -/
def sat24 (v : Int) : Int := if v < -8388608 then -8388608 else if 8388607 < v then 8388607 else v
/-- Divide and round to nearest. -/
def roundDiv (v : Int) (n : Nat) : Int := (2 * v + n) / (2 * n)
/-- Divide where the manual states no rounding: exact where the result is a whole number, else one of the two next to it. -/
def openDiv (v : Int) (n : Nat) : Int := v / n + (if v % n = 0 then 0 else (Config.audioRound v n % 2 : Nat))

/-! ### Frames (R412, R421) -/

/-- FILL follows a port's FIFO. -/
def Dev.audFill (d : Dev) (p : Nat) : Dev := d.p audL (AUD_PSTAT.FILL.ix p) (d.aud.port p).fifo.length
/-- Count into DROP or INSERT and raise its event. -/
def Dev.audSlip (d : Dev) (p n : Nat) (drop : Bool) : Dev :=
  if n = 0 then d
  else (d.modAud (fun a => a.setPort p (let x := a.port p
    if drop then { x with drops := (x.drops + n) % 2 ^ 32 } else { x with inserts := (x.inserts + n) % 2 ^ 32 }))).raise audL (if drop then 0 else 1)
/-- AUDIO_FRAME_RECEIVE: an enabled input port puts a frame of its format into its FIFO. -/
def execAudioFrameReceive (p : Fin 2) (slots : List (BitVec 24)) : State → Answer :=
  onSvc audL (fun s =>
    let d := s.dev
    if !d.on audL (AUD_PCFG.EN.ix p.val) then d
    else
      let x := d.aud.port p
      let f := (slots.take (fmtSlots (d.g audL (AUD_PCFG.FMT.ix p.val)))).map (fun v => v.toInt)
      if x.fifo.length < 64 then (d.modAud (fun a => a.setPort p { x with fifo := x.fifo ++ [f], rx := (x.rx + 1) % 2 ^ 32 })).audFill p
      else (d.modAud (fun a => a.setPort p { x with rx := (x.rx + 1) % 2 ^ 32 })).audSlip p 1 true)
/-- AUDIO_FRAME_SYNC: an output port sends its oldest frame, or its previous one again. -/
def execAudioFrameSync (p : Fin 2) : State → Answer :=
  onSvc audL (fun s =>
    let d := s.dev
    let q := 2 + p.val
    let x := d.aud.port q
    if !d.on audL (AUD_PCFG.EN.ix q) then d
    else match x.fifo with
      | f :: fs => (d.modAud (fun a => a.setPort q { x with fifo := fs, last := f, taken := (x.taken + 1) % 2 ^ 32 })).audFill q
      | [] => d.audSlip q 1 false)
/-- The mixer takes a frame of an input port. -/
def Dev.audTake (d : Dev) (p : Nat) : Dev :=
  if !d.on audL (AUD_PCFG.EN.ix p) then d
  else
    let x := d.aud.port p
    match x.fifo with
    | [] => d.audSlip p 1 false
    | f :: fs =>
      let cut := decide (48 ≤ fs.length)
      ((d.modAud (fun a => a.setPort p { x with fifo := if cut then fs.drop 1 else fs, last := f, taken := (x.taken + 1) % 2 ^ 32 })).audFill p).audSlip
        p (b2n cut) true
/-- The mixer pushes a frame to an output port. -/
def Dev.audPush (d : Dev) (p : Nat) (f : List Int) : Dev :=
  if !d.on audL (AUD_PCFG.EN.ix p) then d
  else
    let x := d.aud.port p
    let d1 := d.modAud (fun a => a.setPort p { x with fifo := if x.fifo.length < 48 then x.fifo ++ [f] else x.fifo, rx := (x.rx + 1) % 2 ^ 32 })
    (d1.audFill p).audSlip p (b2n (decide (48 ≤ x.fifo.length))) true
/-- Latch the counters of a port (R421). -/
def Dev.audPlatch (d : Dev) (p : Nat) : Dev :=
  let x := d.aud.port p
  (((d.p audL AUD_PRX.COUNT x.rx).p audL AUD_PTAKEN.COUNT x.taken).p audL AUD_PDROP.COUNT x.drops).p audL AUD_PINSERT.COUNT x.inserts
def execAudPlatch (p : Fin 4) : State → Answer := onSvcReg (fun s => (s.dev.seq audL).audPlatch p)

/-- The bits of a frame on the wire, from the bit clock after its frame-sync edge on (R411): each slot has 32 bits, its sample first, from the most
significant bit; what the 8 bits after a sample carry is not stated. The bit clock is FS times the number of these bits. -/
def frameBits (slots : List Int) : List (Option Bool) :=
  slots.flatMap (fun v => (List.range 32).map (fun i => if i < 24 then some (bit (usgn 24 v) (23 - i)) else none))

/-! ### Gains (R418) -/

/-- A gain takes a new target: by a ramp, or at a zero crossing. -/
def Gain.aim (g : Gain) (zero : Bool) (ramp target : Nat) : Gain :=
  if target = g.target then g
  else if zero then { g with target := target, len := 0, zc := some target }
  else { cur := g.cur, start := g.cur, target := target, done := 0, len := ramp, zc := none }
/-- One sample of a ramp. -/
def Gain.ramp (g : Gain) : Gain :=
  if g.len = 0 then g
  else if g.len ≤ g.done + 1 then { g with cur := g.target, done := 0, len := 0 }
  else { g with cur := (openDiv (g.start * g.len + ((g.target : Int) - g.start) * (g.done + 1 : Nat)) g.len).toNat, done := g.done + 1 }
/-- A pending change takes effect. -/
def Gain.take (g : Gain) : Gain := match g.zc with | some t => { g with cur := t, len := 0, zc := none } | none => g
/-- At a zero crossing between two samples of the signal. -/
def Gain.cross (g : Gain) (was now : Int) : Gain := if now = 0 ∨ (was < 0) ≠ (now < 0) then g.take else g

/-- ZC_TMO: ten milliseconds after the first pending change, the gain takes effect (0 a source gain on a bus, 1 a bus gain, 2 the
stethoscope's). -/
def execZcTmo (which : Fin 3) (src : Fin 52) (b : Fin 16) : State → Answer :=
  onSvc audL (fun s =>
    let a := s.dev.aud
    let g := match which with | 0 => gainOf a.sgain (src * 16 + b) | 1 => gainOf a.bgain b | 2 => a.steth
    if g.zc = none then s.dev
    else (s.dev.modAud (fun a => match which with
      | 0 => { a with sgain := setGain a.sgain (src * 16 + b) g.take }
      | 1 => { a with bgain := setGain a.bgain b g.take }
      | 2 => { a with steth := g.take })).raise audL 5)

/-! ### Voices (R415) -/

/-- KEYON and KEYOFF wait for the next block boundary. -/
def Dev.keyOn (d : Dev) (v : Nat) : Dev := d.modAud (fun a => { a with keyOn := a.keyOn ||| v })
def Dev.keyOff (d : Dev) (v : Nat) : Dev := d.modAud (fun a => { a with keyOff := a.keyOff ||| v })
def execKeyon (v : Word) : State → Answer := onSvcReg (fun s => (s.dev.seq audL).keyOn v.toNat)
def execKeyoff (v : Word) : State → Answer := onSvcReg (fun s => (s.dev.seq audL).keyOff v.toNat)
/-- Is a voice active? -/
def Dev.voiceOn (d : Dev) (v : Nat) : Bool := bit (d.g audL AUD_VACT.ACTIVE) v
/-- A voice becomes inactive and raises VOICE_END. -/
def Dev.voiceEnd (d : Dev) (v : Nat) : Dev :=
  ((d.p audL AUD_VACT.ACTIVE (d.g audL AUD_VACT.ACTIVE &&& (0xFFFFFFFF - 2 ^ v))).p audL AUD_VEND.ENDED
    (d.g audL AUD_VEND.ENDED ||| 2 ^ v)).raise audL 4
/-- The key commands of a block boundary. -/
def Dev.audKeys (d : Dev) : Dev :=
  let a := d.aud
  let d1 := (List.range 32).foldl (fun y v =>
    if bit a.keyOn v then
      (y.modAud (fun z => z.setVoice v { pos := d.g audL (AUD_VSTART.INDEX.ix v) * 65536 })).p audL AUD_VACT.ACTIVE (y.g audL AUD_VACT.ACTIVE ||| 2 ^ v)
    else if bit a.keyOff v ∧ y.voiceOn v then
      y.modAud (fun z => z.setVoice v (let x := z.voice v; { x with off := x.off.aim false (d.g audL AUD_CFG.RAMP) 0 }))
    else y) d
  d1.modAud (fun z => { z with keyOn := 0, keyOff := 0 })
/-- Step 3 of R417: voices started at this period stand at VSTART; the others advance. -/
def Dev.audAdvance (d : Dev) (fresh : Nat) : Dev :=
  (List.range 32).foldl (fun y v =>
    if !y.voiceOn v ∨ bit fresh v then y
    else
      let x := y.aud.voice v
      let pos := x.pos + y.g audL (AUD_VPITCH.INC.ix v)
      let stop := y.g audL (AUD_VENDX.INDEX.ix v)
      let loop := y.on audL (AUD_VMODE.LOOP.ix v)
      let back := if loop ∧ stop * 65536 ≤ pos then pos - (stop - y.g audL (AUD_VLOOP.INDEX.ix v)) * 65536 else pos
      let y1 := y.modAud (fun z => z.setVoice v { x with pos := back % 2 ^ 33 })
      if !loop ∧ stop * 65536 ≤ pos then y1.voiceEnd v else y1) d
/-- A sample of the wavetable; an uncorrectable word reads as 0 (Table 13.4). -/
def Dev.waveSample (d : Dev) (i : Nat) : Int :=
  let j := i % 131072
  if d.ueWords.contains (pageOf 2 .aud 0, 0, j / 4) then 0
  else sgn 16 (SMap.get (fun _ => 0) d.aud.wave (j / 2) / 2 ^ (16 * (j % 2)))
/-- What a voice plays now: between two samples as far as its phase goes, under its key-off ramp. -/
def Dev.voiceSample (d : Dev) (v : Nat) : Int :=
  let x := d.aud.voice v
  let i := x.pos / 65536
  let s0 := d.waveSample i * 256
  openDiv (openDiv (s0 * 65536 + (d.waveSample (i + 1) * 256 - s0) * (x.pos % 65536 : Nat)) 65536 * x.off.cur) 16384
/-- The wavetable words the active voices read that are uncorrectable. -/
def Dev.waveUe (d : Dev) : List Nat :=
  ((List.range 32).filter (fun v => d.voiceOn v)).flatMap (fun v =>
    let i := (d.aud.voice v).pos / 65536
    [i % 131072 / 4, (i + 1) % 131072 / 4].filter (fun w => d.ueWords.contains (pageOf 2 .aud 0, 0, w)))

/-! ### The mixer (R414, R416, R417) -/

/-- Is a source active? -/
def Dev.srcOn (d : Dev) (s : Nat) : Bool :=
  if s < 16 then d.on audL (AUD_PCFG.EN.ix (s / 8)) && decide (s % 8 < fmtSlots (d.g audL (AUD_PCFG.FMT.ix (s / 8))))
  else if s < 20 then bit (d.g audL AUD_PDM.EN) (s - 16)
  else d.voiceOn (s - 20)
/-- The sample of a source in this period; an inactive source carries nothing. -/
def Dev.srcSample (d : Dev) (mics : List Int) (s : Nat) : Int :=
  if !d.srcOn s then 0
  else if s < 16 then ((d.aud.port (s / 8)).last[s % 8]?).getD 0
  else if s < 20 then (mics[s - 16]?).getD 0
  else d.voiceSample (s - 20)
/-- The mask of a bus. -/
def Dev.busMask (d : Dev) (b : Nat) : Nat := d.g audL (AUD_BUS_LO.MASK.ix b) + d.g audL (AUD_BUS_HI.MASK.ix b) * 2 ^ 32
/-- The active sources of a bus. -/
def Dev.busSources (d : Dev) (b : Nat) : List Nat := (List.range 52).filter (fun s => bit (d.busMask b) s && d.srcOn s)
/-- The ramps that a block's changes start (step 1): every gain aims at its register. -/
def Dev.audAim (d : Dev) : Dev :=
  let ramp := d.g audL AUD_CFG.RAMP
  d.modAud (fun a => { a with
    sgain := (List.range 832).foldl (fun m k =>
      setGain m k ((gainOf m k).aim (d.on audL (AUD_BUS_CTL.GMODE.ix (k % 16))) ramp (d.g audL (AUD_SGAIN.GAIN.ix (k / 16))))) a.sgain
    bgain := (List.range 16).foldl (fun m b =>
      setGain m b ((gainOf m b).aim (d.on audL (AUD_BUS_CTL.GMODE.ix b)) ramp (d.g audL (AUD_BUS_CTL.BGAIN.ix b)))) a.bgain
    steth := a.steth.aim true ramp (d.g audL AUD_STETH.STGAIN) })
/-- Step 4: every scale aims at what the count of its bus asks. -/
def Dev.audScales (d : Dev) : Dev :=
  d.modAud (fun a => { a with scale := (List.range 16).foldl (fun m b =>
    let n := (d.busSources b).length
    let t := if d.on audL (AUD_BUS_CTL.AUTOSCALE.ix b) ∧ 0 < n then (32768 + n) / (2 * n) else 0x4000
    setGain m b ((gainOf m b).aim false (d.g audL AUD_CFG.RAMP) t)) a.scale })
/-- Does the stethoscope add to a bus (R419)? -/
def Dev.stethOn (d : Dev) (b : Nat) : Bool :=
  let slot := 8 * d.g audL AUD_STETH.PORT + d.g audL AUD_STETH.SLOT
  d.on audL AUD_STETH.EN && (b = slot || b = slot + 1)
/-- The sum of a bus, in a 40-bit accumulator. -/
def Dev.busAcc (d : Dev) (xs : List Int) (b : Nat) : Int :=
  let v := (d.busSources b).foldl (fun (t : Int) s => t + (xs[s]?).getD 0 * ((gainOf d.aud.sgain (s * 16 + b)).cur : Int)) 0
  if -(2 ^ 39) ≤ v ∧ v < 2 ^ 39 then v else Config.accOverflow v
/-- Zero crossings of this period (R418). -/
def Dev.audCross (d : Dev) (xs : List Int) : Dev :=
  let d1 := d.modAud (fun a => { a with
    sgain := a.sgain.foldl (fun m e => if e.2.zc = none then m
      else setGain m e.1 (e.2.cross (SMap.get (fun _ => 0) a.xs (e.1 / 16)) ((xs[e.1 / 16]?).getD 0))) a.sgain
    steth := a.steth.cross (SMap.get (fun _ => 0) a.xs (d.g audL AUD_STETH.SRC)) ((xs[d.g audL AUD_STETH.SRC]?).getD 0) })
  d1.modAud (fun a => { a with
    bgain := (List.range 16).foldl (fun m b => setGain m b ((gainOf m b).cross (SMap.get (fun _ => 0) a.bs b) (d1.busAcc xs b))) a.bgain
    bs := (List.range 16).foldl (fun m b => SMap.set (fun _ => 0) m b (d1.busAcc xs b)) a.bs
    xs := (List.range 52).foldl (fun m i => SMap.set (fun _ => 0) m i ((xs[i]?).getD 0)) a.xs })
/-- A bus at this period (R416), with whether it saturated. -/
def Dev.busOut (d : Dev) (xs : List Int) (b : Nat) : Int × Bool :=
  let raw := roundDiv (d.busAcc xs b * ((gainOf d.aud.scale b).cur : Int) * ((gainOf d.aud.bgain b).cur : Int)) (2 ^ 42)
  let y := sat24 raw
  if d.stethOn b then
    (let z := y + openDiv ((xs[d.g audL AUD_STETH.SRC]?).getD 0 * d.aud.steth.cur) 16384
     (sat24 z, decide (y ≠ raw) || decide (sat24 z ≠ z)))
  else (y, decide (y ≠ raw))
/-- Every ramp moves by one sample; a voice whose key-off ramp is over ends. -/
def Dev.audRamps (d : Dev) : Dev :=
  let step (m : SMap Gain) : SMap Gain := m.foldl (fun t e => setGain t e.1 e.2.ramp) m
  let d1 := d.modAud (fun a => { a with sgain := step a.sgain, bgain := step a.bgain, scale := step a.scale })
  (List.range 32).foldl (fun y v =>
    let x := y.aud.voice v
    if !y.voiceOn v ∨ x.off.len = 0 then y
    else
      let g := x.off.ramp
      let y1 := y.modAud (fun z => z.setVoice v { x with off := g })
      if g.len = 0 then y1.voiceEnd v else y1) d1

/-! ### Meters (R422) -/

/-- The words of a band as they act. -/
def Audio.word (a : Audio) (k w : Nat) : Nat := SMap.get (fun _ => 0) a.acts (k * 8 + w)
/-- Does the mixer refuse a meter input? -/
def selBad (v : Nat) : Bool := (52 ≤ v % 128 && v % 128 < 64) || 80 ≤ v % 128
/-- Meter words written since the last block act; a change clears the band's filter. -/
def Dev.audMeterWords (d : Dev) : Dev :=
  d.modAud (fun a =>
    (List.range 256).foldl (fun z i =>
      let v := SMap.get (fun _ => 0) z.words i
      if v = SMap.get (fun _ => 0) z.acts i ∨ (i % 8 = 0 ∧ selBad v) then z
      else { z with
        acts := SMap.set (fun _ => 0) z.acts i v
        bands := SMap.modify (fun _ => ({} : Band)) z.bands (i / 8) (fun b => { b with x1 := 0, x2 := 0, y1 := 0, y2 := 0 }) }) a)
/-- One sample of a band. -/
def Audio.meter (a : Audio) (xs ys : List Int) (k : Nat) : Audio :=
  let c (w : Nat) : Int := sgn 24 (a.word k w)
  let sel := a.word k 0 % 128
  let x := if sel < 52 then (xs[sel]?).getD 0 else (ys[sel - 64]?).getD 0
  { a with bands := SMap.modify (fun _ => ({} : Band)) a.bands k (fun b =>
      let y := Config.meterKeep ((c 1 * x + c 2 * b.x1 + c 3 * b.x2) * (2 ^ 22) - c 4 * b.y1 - c 5 * b.y2)
      { x1 := x, x2 := b.x1, y1 := y, y2 := b.y1, sum := b.sum + y.natAbs * y.natAbs, peak := max b.peak y.natAbs }) }
/-- A meter's result of 24 bits. -/
def meterField (v : Nat) : Nat := if v < 2 ^ 24 then v else Config.meterOver v
/-- RMS of a band: the square root of the mean of the squares of `n` results, which are kept in 2^-22 of a unit. -/
def meterRms (sum n : Nat) : Nat :=
  let m := sum / (n * 2 ^ 44)
  let v := isqrt m 24 0
  if 2 ^ 48 ≤ m then Config.meterOver m else meterField (v + (if v * v * n * 2 ^ 44 = sum then 0 else Config.audioRound sum (n * 2 ^ 44) % 2))
/-- The end of a meter period: every band publishes. -/
def Dev.audPublish (d : Dev) : Dev :=
  let n := d.aud.periods
  let d1 := (List.range 32).foldl (fun y k =>
    let b : Band := SMap.get (fun _ => {}) y.aud.bands k
    ((y.p audL (AUD_MRMS.VALUE.ix k) (meterRms b.sum n)).p audL (AUD_MPEAK.VALUE.ix k) (meterField (openDiv b.peak (2 ^ 22)).toNat)).modAud (fun z =>
      { z with bands := SMap.set (fun _ => ({} : Band)) z.bands k { b with sum := 0, peak := 0 } })) d
  ((d1.modAud (fun z => { z with blocks := 0, periods := 0 })).wrap audL AUD_MSEQ.PERIODS).raise audL 3
/-- Step 7 of R417. -/
def Dev.audMeters (d : Dev) (xs ys : List Int) : Dev :=
  let d1 := d.modAud (fun a => { (List.range 32).foldl (fun z k => z.meter xs ys k) a with periods := a.periods + 1 })
  if d1.aud.left ≠ 0 then d1
  else
    let d2 := d1.modAud (fun z => { z with blocks := z.blocks + 1 })
    if d2.g audL AUD_MCFG.PERIOD_M1 < d2.aud.blocks then d2.audPublish else d2

/-! ### The sample period (R417) -/

/-- Does this period begin a block? -/
def Dev.audBegins (d : Dev) : Bool := d.aud.left = 0
/-- A sample period after a commit has been applied. `mics` are the microphone samples of the decimation filters (R413). -/
def audPeriod (r : Referee) (d : Dev) (mics : List Int) : Dev :=
  let begins := d.audBegins
  let fresh := if begins then d.aud.keyOn else 0
  let d1 := if begins then (d.audMeterWords.audKeys.audAim).modAud (fun a => { a with left := 2 ^ d.g audL AUD_CFG.BLK }) else d
  let d2 := (((d1.modAud (fun a => { a with left := a.left - 1 })).audTake 0).audTake 1).audAdvance fresh
  let d3 := d2.waveUe.foldl (fun y w => y.eccUe r.walker (pageOf 2 .aud 0) 0 w false) d2
  let d4 := d3.audScales
  let xs := (List.range 52).map (d4.srcSample mics)
  let d5 := d4.audCross xs
  let outs := (List.range 16).map (d5.busOut xs)
  let ys := outs.map (fun o => o.1)
  let clip := (List.range 16).foldl (fun t b => if ((outs[b]?).map (fun o => o.2)).getD false then t ||| 2 ^ b else t) 0
  let d6 := if clip = 0 then d5.audRamps else ((d5.p audL AUD_CLIP.BUSES (d5.g audL AUD_CLIP.BUSES ||| clip)).raise audL 2).audRamps
  let d7 := (d6.audPush 2 (ys.take (fmtSlots (d6.g audL (AUD_PCFG.FMT.ix 2))))).audPush 3 ((ys.drop 8).take (fmtSlots (d6.g audL (AUD_PCFG.FMT.ix 3))))
  d7.audMeters xs ys

/-! ### Windows (Table 19.3) -/

/-- A write of AUD_WTW_DATA: the wavetable word changes at once; an uncorrectable word takes no part of it (R331). -/
def Dev.wtwWrite (d : Dev) (r : Referee) (v : Nat) : Dev :=
  let i := d.g audL AUD_WTW_IDX.IDX
  let d1 := if d.ueWords.contains (pageOf 2 .aud 0, 0, i / 2) then d.eccUe r.walker (pageOf 2 .aud 0) 0 (i / 2) false
    else d.modAud (fun a => { a with wave := SMap.set (fun _ => 0) a.wave i v })
  if d1.on audL AUD_WTW_IDX.AUTOINC then d1.wrap audL AUD_WTW_IDX.IDX else d1
/-- A read of AUD_WTW_DATA. -/
def Dev.wtwRead (d : Dev) : Nat × Dev :=
  let i := d.g audL AUD_WTW_IDX.IDX
  (if d.ueWords.contains (pageOf 2 .aud 0, 0, i / 2) then 0 else SMap.get (fun _ => 0) d.aud.wave i,
    if d.on audL AUD_WTW_IDX.AUTOINC then d.wrap audL AUD_WTW_IDX.IDX else d)
/-- A write of AUD_MBW_DATA: the word acts from the next block boundary. -/
def Dev.mbwWrite (d : Dev) (v : Nat) : Dev :=
  let w := d.g audL AUD_MBW_IDX.WORD
  if 6 ≤ w then d
  else d.modAud (fun a => { a with words := SMap.set (fun _ => 0) a.words (d.g audL AUD_MBW_IDX.BAND * 8 + w) (if w = 0 then v % 2 ^ 7 else v % 2 ^ 24) })
/-- A read of AUD_MBW_DATA. -/
def Dev.mbwRead (d : Dev) : Nat :=
  if 6 ≤ d.g audL AUD_MBW_IDX.WORD then 0 else SMap.get (fun _ => 0) d.aud.words (d.g audL AUD_MBW_IDX.BAND * 8 + d.g audL AUD_MBW_IDX.WORD)

/-! ### The checks of a commit (Table 19.4) -/

/-- The checks of the AUD page, on the shadow set. -/
def Dev.audCode (d : Dev) : Option Nat :=
  let g := d.gS audL
  let fields (v : Nat) : List Fld := [AUD_VSTART.INDEX.ix v, AUD_VLOOP.INDEX.ix v, AUD_VENDX.INDEX.ix v, AUD_VMODE.LOOP.ix v]
  let voiceBad (v : Nat) : Bool :=
    let a := g (AUD_VSTART.INDEX.ix v)
    let z := g (AUD_VENDX.INDEX.ix v)
    let m := g (AUD_VLOOP.INDEX.ix v)
    (fields v).any (fun f => g f ≠ d.g audL f) && (z ≤ a || (g (AUD_VMODE.LOOP.ix v) = 1 && (m < a || z ≤ m)))
  let running := (List.range 4).any (fun p => d.on audL (AUD_PCFG.EN.ix p)) || d.g audL AUD_PDM.EN ≠ 0 || d.g audL AUD_VACT.ACTIVE ≠ 0
  let src := g AUD_STETH.SRC
  let port := 2 + g AUD_STETH.PORT
  let slot := g AUD_STETH.SLOT
  firstCode [
    (g AUD_CFG.FS ≠ d.g audL AUD_CFG.FS && running, 0xFB),
    ((List.range 32).any voiceBad, 0xFC),
    (g AUD_STETH.EN = 1 && (20 ≤ src || slot % 2 = 1 || fmtSlots (g (AUD_PCFG.FMT.ix port)) < slot + 2 || g (AUD_PCFG.SLAVE.ix port) = 1
      || (src < 16 && g (AUD_PCFG.SLAVE.ix (src / 8)) = 1)), 0xFD),
    ((List.range 4).any (fun p => g (AUD_PCFG.FMT.ix p) = 3) || 6 ≤ g AUD_CFG.BLK || g AUD_CFG.RAMP = 0
      || (List.range 32).any (fun k => selBad (SMap.get (fun _ => 0) d.aud.words (k * 8))), 0xFE)]

end Sys2Proof.Machine
end

