-- ==== Sys2Proof/Machine/Cfg.lean ====
section
/-!
DEFINITION. The CFG and SEC pages (chapter 23): the flash controller (R468), OTP keys (R470), attestation (R471).
-/
namespace Sys2Proof.Machine

open Sys2Proof

/-- The CFG, SEC and PWR pages. -/
def cfgL : Loc := sLoc .cfg
def secL : Loc := sLoc .sec
def pwrL : Loc := sLoc .pwr
/-- What a flash byte that nothing has programmed reads as: erased. -/
def flashFill (_ : Nat) : Byte := 0xFF
/-- A byte of a flash device. -/
def Dev.flashByte (d : Dev) (dev off : Nat) : Byte := SMap.get flashFill d.flash (dev * 2 ^ 28 + off)
/-- Bytes of the device that the board has at an xSPI port: 0 where none answers. The board is outside the part; one that State does not list
holds 32 MiB, the least of R459 (notes/assumptions/92.md). -/
def Dev.flashSize (d : Dev) (dev : Nat) : Nat := SMap.get (fun _ => 2 ^ 25) d.flashLen dev
/-- `n` bytes of a flash device, least significant first, as a number. -/
def Dev.flashN (d : Dev) (dev off : Nat) : Nat → Nat
  | 0 => 0
  | n + 1 => (d.flashByte dev off).toNat + 256 * d.flashN dev (off + 1) n
/-- `n` bytes of a flash device. -/
def Dev.flashBytes (d : Dev) (dev off n : Nat) : List Byte := (List.range n).map (fun i => d.flashByte dev (off + i))

/-! ### The flash controller (R468) -/

/-- CFG_FLBUF as bytes. -/
def Dev.flBuf (d : Dev) : List Byte :=
  (List.range 256).map (fun i => BitVec.ofNat 8 (d.g cfgL (CFG_FLBUF.DATA.ix (i / 4)) / 2 ^ (8 * (i % 4))))
/-- Bytes that a command addresses. -/
def flSize (op : Nat) : Nat := if op = 3 then 65536 else 256
/-- Why a flash command is refused (Table 23.8), from the lowest code. `d5` says that the request carries D5. -/
def Dev.flRefusal (d : Dev) (op : Nat) (d5 : Bool) : Option Nat :=
  let dev := d.g cfgL CFG_FLADDR.DEV
  let a := d.g cfgL CFG_FLADDR.ADDR
  let writes := op = 2 || op = 3
  let used := [CFG_USE.SVC, CFG_USE.HA, CFG_USE.HB].any (fun f => d.g cfgL f = dev)
  firstCode [
    (writes && used && 0x1000 < a + flSize op, 1),
    (writes && !d5 && a < 0x1000, 2),
    (writes && d.g pwrL PWR_STAT.WARN ≠ 0, 3),
    (a % flSize op ≠ 0, 4),
    (d.flashSize dev < a + flSize op, 5)]
/-- A write of CFG_FLCMD: the command begins, or is refused. -/
def Dev.flCmd (d : Dev) (op : Nat) (d5 : Bool) : Dev :=
  if op = 0 ∨ d.flOp ≠ none then d
  else match d.flRefusal op d5 with
    | some code => (d.p cfgL CFG_FLSTAT.RESULT code).raise cfgL 1
    | none => { d.p cfgL CFG_FLSTAT.BUSY 1 with
        flOp := some ⟨op, d.g cfgL CFG_FLADDR.DEV, d.g cfgL CFG_FLADDR.ADDR, if op = 2 then d.flBuf else []⟩ }
/-- The flash after a PROGRAM of one byte. -/
def programByte (m : SMap Byte) (k : Nat) (b : Byte) : SMap Byte :=
  let old := SMap.get flashFill m k
  SMap.set flashFill m k (if old = 0xFF then b else Config.flashOver old b)
/-- FLDONE: the command in progress completes; a suspended erase or program does not. -/
def Dev.flDone (d : Dev) : Dev :=
  match d.flOp with
  | none => d
  | some x =>
    if x.op ≠ 1 ∧ d.g pwrL PWR_STAT.WARN ≠ 0 then d
    else
      let base := x.dev * 2 ^ 28 + x.addr
      let d1 : Dev :=
        if x.op = 1 then
          (List.range 64).foldl (fun (y : Dev) i => y.wr cfgL (CFG_FLBUF.DATA.ix i).off (BitVec.ofNat 32 (y.flashN x.dev (x.addr + 4 * i) 4))) d
        else if x.op = 2 then { d with flash := x.data.zipIdx.foldl (fun m e => programByte m (base + e.2) e.1) d.flash }
        else { d with flash := SMap.erase (fun k => base ≤ k && k < base + 65536) d.flash }
      ((({ d1 with flOp := none }).p cfgL CFG_FLSTAT.BUSY 0).p cfgL CFG_FLSTAT.RESULT 0).raise cfgL 0
/-- The flash when a reset cuts the command in progress short: what a PROGRAM or an ERASE of its range has come to is not stated. -/
def Dev.flashCut (d : Dev) : SMap Byte :=
  match d.flOp with
  | none => d.flash
  | some x =>
    if x.op = 1 then d.flash
    else (List.range (flSize x.op)).foldl (fun m i =>
      let k := x.dev * 2 ^ 28 + x.addr + i
      SMap.set flashFill m k (Config.flashOver (SMap.get flashFill m k) (x.data.getD i 0xFF))) d.flash
/-- Does a master's write carry D5? -/
def State.hasD5 (s : State) (m : Master) : Bool := s.dev.domainOf s.ref m = 5
def execFlashRead (m : Master) : State → Answer := onSvcReg (fun s => (s.dev.seq cfgL).flCmd 1 (s.hasD5 m))
def execFlashProgram (m : Master) : State → Answer := onSvcReg (fun s => (s.dev.seq cfgL).flCmd 2 (s.hasD5 m))
def execFlashErase (m : Master) : State → Answer := onSvcReg (fun s => (s.dev.seq cfgL).flCmd 3 (s.hasD5 m))
def execFldone : State → Answer := onSvcReg (fun s => s.dev.flDone)

/-! ### OTP (R470) -/

/-- The hash of a key of KEYIDX 0–2, where it is programmed. -/
def Dev.keyHash (d : Dev) (idx : Nat) : Option Nat :=
  match idx with
  | 0 => some Config.rootHash
  | 1 => SMap.get (fun _ => none) d.otp 1
  | 2 => SMap.get (fun _ => none) d.otp 2
  | _ => none
/-- A number held in consecutive registers, its first byte most significant. -/
def Dev.regBig (d : Dev) (l : Loc) (off n : Nat) : Nat :=
  (List.range n).foldl (fun t i => t * 256 + (d.rd l (off + i / 4 * 4)).toNat / 2 ^ (8 * (i % 4)) % 256) 0
/-- The `n` bytes of a number, most significant first. -/
def bigBytes (v n : Nat) : List Byte := (toBytes v n).reverse
/-- Bytes packed little-endian into the register of index `i`. -/
def packWord (bs : List Byte) (i : Nat) : Word :=
  BitVec.ofNat 32 ((List.range 4).foldl (fun t k => t + ((bs[4 * i + k]?).getD 0).toNat * 2 ^ (8 * k)) 0)
/-- A write of SEC_OTPCMD. -/
def Dev.otpCmd (d : Dev) (op slot : Nat) (d5 : Bool) : Dev :=
  let slotOk := slot = 1 || slot = 2
  let refuse (code : Option Nat) : Dev := (match code with | some c => d.p secL SEC_STAT.RESULT c | none => d).raise secL 2
  if op = 0 ∨ op = 3 ∨ d.otpOp ≠ none then d
  else if op = 1 ∧ d.g pwrL PWR_STAT.WARN ≠ 0 then refuse (some 3)
  else if !d5 then refuse (some 6)
  else if !slotOk then refuse none
  else if op = 1 ∧ (d.keyHash slot).isSome then refuse (some 7)
  else { d.p secL SEC_STAT.OTPBUSY 1 with otpOp := some ⟨op, slot, d.regBig secL SEC_OTPBUF.DATA.off 48⟩ }
def execOtpProgram (m : Master) (slot : BitVec 2) : State → Answer := onSvcReg (fun s => (s.dev.seq secL).otpCmd 1 slot.toNat (s.hasD5 m))
def execOtpRevoke (m : Master) (slot : BitVec 2) : State → Answer := onSvcReg (fun s => (s.dev.seq secL).otpCmd 2 slot.toNat (s.hasD5 m))
/-- OTPDONE: the operation completes. -/
def Dev.otpDone (d : Dev) : Dev :=
  match d.otpOp with
  | none => d
  | some x =>
    let d1 := if x.op = 1 then { d with otp := SMap.set (fun _ => none) d.otp x.slot (some x.hash) } else { d with otpRev := d.otpRev ||| 2 ^ x.slot }
    ((({ d1 with otpOp := none }).p secL SEC_STAT.OTPBUSY 0).p secL SEC_STAT.RESULT 0).raise secL 1
def execOtpdone : State → Answer := onSvcReg (fun s => s.dev.otpDone)
/-- The word SEC_OTPST shows. -/
def Dev.otpSt (d : Dev) : Nat :=
  1 + b2n (d.keyHash 1).isSome * 2 + b2n (d.keyHash 2).isSome * 4 + (d.otpRev / 2 % 4) * 8 + b2n Config.fusedNA * 2 ^ 8 + b2n Config.fusedInd * 2 ^ 9
/-- The word at an offset of SEC_KHASH. -/
def Dev.khash (d : Dev) (i : Nat) : Word := packWord (bigBytes ((d.keyHash (i / 12)).getD 0) 48) (i % 12)

/-! ### Attestation (R471) -/

/-- A write of SEC_ATCMD.GO. -/
def Dev.attestGo (d : Dev) : Dev :=
  if d.on secL SEC_STAT.ATBUSY then d
  else { d.p secL SEC_STAT.ATBUSY 1 with atNonce := d.regBig secL SEC_NONCE.DATA.off 48 }
def execAttestGo : State → Answer := onSvcReg (fun s => (s.dev.seq secL).attestGo)
/-- A measurement. -/
def Dev.measOf (d : Dev) (i : Nat) : Nat := SMap.get (fun _ => 0) d.meas i
/-- The SEQ of the slot a region runs from. -/
def Dev.useSeq (d : Dev) (f : Fld) : Nat :=
  match d.g cfgL f with
  | 0 => d.g cfgL CFG_SEQ0.SEQ
  | 1 => d.g cfgL CFG_SEQ1.SEQ
  | _ => 0
/-- The signed part of the report (Table 23.9). -/
def Dev.attestBody (d : Dev) : List Byte :=
  toBytes (1 + 0xB0 * 2 ^ 16) 4 ++ toBytes d.otpSt 4 ++ toBytes Config.serial.toNat 8 ++ toBytes d.tbS 8
    ++ toBytes ((d.rd cfgL CFG_USE.SVC.off).toNat % 64 + d.g cfgL CFG_DEFAULTED.SET * 2 ^ 8) 4
    ++ toBytes (d.useSeq CFG_USE.SVC) 4 ++ toBytes (d.useSeq CFG_USE.HA) 4 ++ toBytes (d.useSeq CFG_USE.HB) 4 ++ toBytes 0 8
    ++ bigBytes d.atNonce 48 ++ bigBytes (d.measOf 0) 48 ++ bigBytes (d.measOf 1) 48 ++ bigBytes (d.measOf 2) 48 ++ bigBytes (d.measOf 3) 48
/-- ATDONE: the signed report stands in SEC_REPORT. -/
def Dev.attestDone (d : Dev) : Dev :=
  if !d.on secL SEC_STAT.ATBUSY then d
  else
    let body := d.attestBody
    let bs := body ++ bigBytes (Config.sign body) 96
    (((List.range 96).foldl (fun y i => y.wr secL (SEC_REPORT.REPORT.ix i).off (packWord bs i)) d).p secL SEC_STAT.ATBUSY 0).raise secL 0
def execAtdone : State → Answer := onSvcReg (fun s => s.dev.attestDone)

end Sys2Proof.Machine
end

