-- ==== Sys2Proof/Machine/Flags.lean ====
section
/-!
DEFINITION. The error-correcting code of R330; what the Kuxon arithmetic computes: results and flags of Tables 11.5 to 11.8, the divisions of R298 and the CRC
step of R302, over 16-bit values held as numbers.
-/
namespace Sys2Proof.Machine

/-! ### The code of every memory (R330) -/

/-- Is the number of ones of an 8-bit value odd? -/
def oddOnes (x : Nat) : Bool := ((List.range 8).filter (bit x)).length % 2 = 1
/-- The address fold F(a) for `r` check bits: bit i of F' is the XOR of the bits a[j] with j mod (r − 1) = i, and bit r − 1 makes its weight even. -/
def foldF (r a : Nat) : Nat :=
  let f := (List.range 64).foldl (fun t j => if bit a j then t ^^^ 2 ^ (j % (r - 1)) else t) 0
  f + b2n (oddOnes f) * 2 ^ (r - 1)
/-- H(data): the XOR of the columns of the set bits. The manual states of the columns that each has odd weight, and not which they are. -/
def eccH (cols : List Nat) (data : Nat) : Nat := (List.range cols.length).foldl (fun t j => if bit data j then t ^^^ cols.getD j 0 else t) 0
/-- The check bits a write at word `a` stores, and the syndrome of a read at word `a`. -/
def eccCheck (cols : List Nat) (r a data : Nat) : Nat := eccH cols data ^^^ foldF r a
def eccSyndrome (cols : List Nat) (r a data check : Nat) : Nat := eccH cols data ^^^ check ^^^ foldF r a
/-- The class of a syndrome among the columns of data and check bits, as the scrub commands name it: 0 correct, 1 a single error, 2 uncorrectable. -/
def eccClass (cols : List Nat) (r syn : Nat) : Nat :=
  if syn = 0 then 0 else if cols.contains syn || (List.range r).any (fun i => syn = 2 ^ i) then 1 else 2

/-! ### Kuxon arithmetic -/

/-- What an instruction gives: a result for its destination and the flags it writes; none leaves the old value. -/
structure Alu where
  res : Option Nat := none
  z : Option Bool := none
  n : Option Bool := none
  c : Option Bool := none
  v : Option Bool := none
deriving DecidableEq, Repr

/-- A 16-bit word as a signed number. -/
def s16 (x : Nat) : Int := sgn 16 x
/-- A result with Z and N set from it (R297). -/
def Alu.logic (r : Nat) : Alu := { res := some (r % 65536), z := some (r % 65536 == 0), n := some (bit r 15) }
/-- Addition with a carry in (R297). -/
def Alu.add (x y cin : Nat) : Alu :=
  let s := x + y + cin
  { Alu.logic s with c := some (decide (65536 ≤ s)), v := some (decide (s16 x + s16 y + (cin : Int) ≠ s16 (s % 65536))) }
/-- Subtraction with a borrow in (R297). -/
def Alu.sub (x y bin : Nat) : Alu :=
  let r := (x + 131072 - y - bin) % 65536
  { Alu.logic r with c := some (decide (x < y + bin)), v := some (decide (s16 x - s16 y - (bin : Int) ≠ s16 r)) }
/-- The flags alone. -/
def Alu.test (a : Alu) : Alu := { a with res := none }
/-- The product of R298: the low half, or the high half. -/
def Alu.mul (hi : Bool) (x y : Nat) : Alu :=
  let p := x * y
  if hi then { Alu.logic (p / 65536) with c := some false, v := some false }
  else { Alu.logic p with c := some (p / 65536 ≠ 0), v := some (p / 65536 ≠ 0) }

/-- The divisions of R298 with what a division by zero decides; the flag says whether DZ is set. -/
def Alu.div (signed rem : Bool) (x y : Nat) : Alu × Bool :=
  let a := s16 x
  let b := s16 y
  let q := if y = 0 then (if !signed then 0xFFFF else if 0 ≤ a then 0x7FFF else 0x8000)
    else if !signed then x / y
    else usgn 16 (a.tdiv b)
  let r := if y = 0 then x else if !signed then x % y else usgn 16 (a.tmod b)
  let v := signed && y ≠ 0 && x = 0x8000 && y = 0xFFFF
  ({ Alu.logic (if rem then r else q) with c := some false, v := some v }, decide (y = 0))

/-- The four shifts. -/
inductive Shift where
  | shl | shr | sar | ror
deriving DecidableEq, Repr

/-- Table 11.7: the result and C of a shift of `x` by `n` of 0 to 31. -/
def Shift.run (k : Shift) (x n : Nat) : Nat × Option Bool :=
  let fill := if bit x 15 then 0xFFFF else 0
  let rot := (x / 2 ^ (n % 16) + x * 2 ^ (16 - n % 16)) % 65536
  if n = 0 then (x, none)
  else match k with
  | .shl => if n < 16 then (x * 2 ^ n % 65536, some (bit x (16 - n))) else if n = 16 then (0, some (bit x 0)) else (0, some false)
  | .shr => if n < 16 then (x / 2 ^ n, some (bit x (n - 1))) else if n = 16 then (0, some (bit x 15)) else (0, some false)
  | .sar => if n < 16 then ((x / 2 ^ n + fill * 2 ^ (16 - n)) % 65536, some (bit x (n - 1))) else (fill, some (bit x 15))
  | .ror => (rot, some (bit rot 15))
/-- A shift as an instruction (R300): Z and N from the result, V unchanged. -/
def Alu.shift (k : Shift) (x n : Nat) : Alu :=
  let r := k.run x n
  { Alu.logic r.1 with c := r.2 }

/-- The low `n` bits of a number in reverse order. -/
def bitRev (n x : Nat) : Nat := (List.range n).foldl (fun a i => a + (if bit x i then 2 ^ (n - 1 - i) else 0)) 0
/-- Parity of a 16-bit word. -/
def parity (x : Nat) : Bool := (List.range 16).foldl (fun a i => a != bit x i) false

/-- The CRC step of R302 over one word: width, reflection, accumulator, polynomial, word. -/
def crcStep (w32 refl : Bool) (kcrc kcrcp w : Nat) : Nat :=
  let width := if w32 then 32 else 16
  let acc := kcrc % 2 ^ width
  let poly := kcrcp % 2 ^ width
  if !refl then (List.range 16).foldl (fun a i =>
    let fb := bit a (width - 1) != bit w (15 - i)
    let a2 := a * 2 % 2 ^ width
    if fb then a2 ^^^ poly else a2) acc
  else
    let rp := bitRev width poly
    (List.range 16).foldl (fun a i =>
      let fb := bit a 0 != bit w i
      if fb then (a / 2) ^^^ rp else a / 2) acc

/-- Table 11.10: is a condition met under Z, N, C, V? -/
def condMet (cond : Nat) (z n c v : Bool) : Bool :=
  match cond with
  | 0 => z
  | 1 => !z
  | 2 => c
  | 3 => !c
  | 4 => n
  | 5 => !n
  | 6 => v
  | 7 => !v
  | 8 => !c && !z
  | 9 => c || z
  | 10 => n == v
  | 11 => n != v
  | 12 => !z && n == v
  | 13 => z || n != v
  | _ => true

end Sys2Proof.Machine
end

