-- ==== Sys2Proof/Machine/Operands.lean ====
section
/-!
DEFINITION. The instruction words of the Kuxon cores (Tables 11.1 to 11.3), units with a LIMM prefix (R292), what the
immediate forms mean, and which units are illegal (R293).
-/
namespace Sys2Proof.Machine

/-- A word of form R (Table 11.1). -/
def encR (major rd rs fn : Nat) : Nat := major * 0x400 + rd * 0x40 + rs * 4 + fn
/-- A word of form I or S (Table 11.1). -/
def encI (major rd field : Nat) : Nat := major * 0x400 + rd * 0x40 + field

/-- The words of a unit: the instruction word, behind LIMM and its literal where a prefix is given (R292). -/
def unitOf (lim : Option (BitVec 14)) (w : Nat) : List Nat :=
  match lim with
  | none => [w]
  | some l => [0x3800, l.toNat, w]
/-- X of R292. -/
def limX (l : BitVec 14) (imm : BitVec 6) : Nat := l.toNat * 64 + imm.toNat
/-- The 16-bit operand of ADDI, MOVI and CMPI (R297). -/
def immVal (lim : Option (BitVec 14)) (imm : BitVec 6) : Nat :=
  match lim with
  | none => usgn 16 (sgn 6 imm.toNat)
  | some l => limX l imm % 65536
/-- The offset of Bcc (R304). -/
def brOffset (lim : Option (BitVec 14)) (imm : BitVec 6) : Int :=
  match lim with
  | none => sgn 6 imm.toNat
  | some l => sgn 20 (limX l imm)
/-- The length of LOOP (R306). -/
def loopLen (lim : Option (BitVec 14)) (imm : BitVec 6) : Nat :=
  match lim with
  | none => imm.toNat
  | some l => limX l imm
/-- The displacement of a load or store (R292). -/
def dispOf (lim : Option (BitVec 14)) : Nat :=
  match lim with
  | none => 0
  | some l => usgn 16 (sgn 14 l.toNat)

/-- The roles of Table 10.1. -/
inductive Role where
  | beam | link | service
deriving DecidableEq, Repr
/-- The role of a core. -/
def roleOf (region core : Nat) : Role := if region = 2 then .service else if core < 16 then .beam else .link
/-- Is there such a core (Table 10.1)? -/
def coreExists (region core : Nat) : Bool := if region = 2 then core < 8 else region < 2 && core < 20

/-- May a string instruction word stand behind REP (R309)? -/
def repWord (w : Nat) : Bool :=
  let rd := w / 64 % 16
  w / 0x400 = 0 && (match w % 64 with
    | 0x14 => rd = 0
    | 0x16 => rd = 0
    | 0x18 => rd = 0
    | 0x15 => rd < 12 || rd = 15
    | 0x17 => rd < 12 || rd = 15
    | _ => false)

/-- Is a one-word unit legal (R293, Tables 11.2, 11.3)? `next` is the word behind it, `dec` the decode entries, `inh` and `la`
the KSTAT bits. -/
def wordLegal (w next : Nat) (role : Role) (dec : Nat → Nat) (inh la : Bool) : Bool :=
  let rd := w / 64 % 16
  let fn := w % 4
  match w / 0x400 with
  | 0x0 => (match w % 64 with
    | 0x01 => rd = 0
    | 0x10 => rd = 0 && repWord next
    | 0x11 => rd = 0 && inh
    | 0x12 => role = .beam
    | 0x13 => role ≠ .service
    | 0x14 => rd = 0
    | 0x16 => rd = 0
    | 0x18 => rd = 0
    | 0x15 => true
    | 0x17 => true
    | s => (2 ≤ s && s ≤ 8) || 0x30 ≤ s)
  | 0xB => !la
  | 0xC => fn = 1 || fn = 2 || (fn = 0 && rd = 0)
  | 0xE => false
  | 0xF => bit (dec rd) 15 && dec rd / 2 ^ 12 % 4 < 3
  | _ => true

/-- Is the unit at `pc` legal? `pm` reads program memory. A LIMM unit needs an instruction that accepts LIMM (R292). -/
def unitLegal (pm : Nat → Nat) (pc : Nat) (role : Role) (dec : Nat → Nat) (inh la : Bool) : Bool :=
  let at_ (i : Nat) := pm ((pc + i) % 2 ^ 14)
  if at_ 0 / 0x400 = 0xE then
    let i := at_ 2
    at_ 0 = 0x3800 && (match i / 0x400 with
      | 0x7 => true
      | 0x8 => true
      | 0x9 => true
      | 0xA => true
      | 0xB => !la
      | 0xD => true
      | 0xF => bit (dec (i / 64 % 16)) 15 && dec (i / 64 % 16) / 2 ^ 12 % 4 = 2
      | _ => false)
  else wordLegal (at_ 0) (at_ 1) role dec inh la

end Sys2Proof.Machine
end

