-- ==== Sys2Proof/Machine/Kuxon.lean ====
section
/-!
DEFINITION. The Kuxon cores (chapter 10): registers and flags, fetching the unit at the PC, how a unit ends, exceptions and
interrupt entry, halting, the control space of Table 10.4 with its mailboxes and direct pin bits, and where a data address
leads (Tables 10.2 and 10.3). A core is named by its region (0 Half A, 1 Half B, 2 service) and KID.CORE.
-/
namespace Sys2Proof.Machine

open Sys2Proof

/-! ### One core -/

/-- A general register. -/
def Kux.reg (k : Kux) (i : Nat) : Nat := SMap.get (fun _ => 0) k.k i % 65536
/-- Write a general register. -/
def Kux.setReg (k : Kux) (i v : Nat) : Kux := { k with k := SMap.set (fun _ => 0) k.k i (v % 65536) }
/-- A stored word of the control space. -/
def Kux.cw (k : Kux) (w : Nat) : Nat := SMap.get (fun _ => 0) k.ctl w % 65536
/-- Store a word of the control space. -/
def Kux.setCw (k : Kux) (w v : Nat) : Kux := { k with ctl := SMap.set (fun _ => 0) k.ctl w (v % 65536) }
/-- Bit `i` of KSTAT: Z 0, N 1, C 2, V 3, DZ 4, IE 8, LA 9, DZTRAP 10, INH 11. -/
def Kux.st (k : Kux) (i : Nat) : Bool := bit (k.cw 0x01) i
/-- Write one bit of KSTAT. -/
def Kux.setSt (k : Kux) (i : Nat) (v : Bool) : Kux :=
  k.setCw 0x01 (k.cw 0x01 - b2n (k.st i) * 2 ^ i + b2n v * 2 ^ i)
/-- Write one bit of KSTAT where a value is given. -/
def Kux.setOpt (k : Kux) (i : Nat) : Option Bool → Kux
  | none => k
  | some v => k.setSt i v
/-- Flags, and the result into register `rd`. -/
def Kux.put (k : Kux) (rd : Nat) (a : Alu) : Kux :=
  let k1 := (((k.setOpt 0 a.z).setOpt 1 a.n).setOpt 2 a.c).setOpt 3 a.v
  match a.res with
  | none => k1
  | some r => k1.setReg rd r

/-- The PC moves past a unit of `len` words: at KLE with LA = 1 the hardware loop counts and goes back (R285). -/
def Kux.next (k : Kux) (len : Nat) : Kux :=
  let past := (k.pc + len) % 2 ^ 14
  if k.st 9 ∧ (k.pc + len - 1) % 2 ^ 14 = k.cw 0x11 then
    let n := (k.cw 0x12 + 65535) % 65536
    if n ≠ 0 then { k.setCw 0x12 n with pc := k.cw 0x10 % 2 ^ 14 } else { (k.setCw 0x12 0).setSt 9 false with pc := past }
  else { k with pc := past }

/-- Entry to a handler at offset `ix` from the vector base (R283), and what it saves. -/
def Kux.enter (k : Kux) (ix : Nat) : Kux :=
  let k1 := ((((k.setCw 0x05 k.pc).setCw 0x06 (k.cw 0x01)).setSt 8 false).setSt 9 false).setSt 11 true
  { k1 with saved := k.pair, pair := { k.pair with replay := .empty, first := none }, wait := .none, pc := (k.cw 0x04 + ix) % 2 ^ 14 }
/-- The return of RETI (R283, R307). -/
def Kux.leave (k : Kux) : Kux :=
  { k.setCw 0x01 (k.cw 0x06 % 0x1000 &&& 0xF1F) with pc := k.cw 0x05 % 2 ^ 14, pair := k.saved }
/-- A waiting instruction is given up and will execute again (R284, R296): a load keeps its bus read in the replay register. -/
def Kux.abandon (k : Kux) : Kux :=
  match k.wait with
  | .load _ a _ _ t => { k with wait := .none, pair := { k.pair with replay := .awaited a t } }
  | .str _ _ a t => { k with wait := .none, pair := { k.pair with replay := .awaited a t } }
  | _ => { k with wait := .none }

/-! ### Cores in the devices -/

/-- A core. -/
def Dev.kx (d : Dev) (r c : Nat) : Kux := SMap.get (fun _ => {}) d.kux (r * 32 + c)
/-- Put a core back. -/
def Dev.setKx (d : Dev) (r c : Nat) (k : Kux) : Dev := { d with kux := SMap.set (fun _ => {}) d.kux (r * 32 + c) k }
/-- The KXC page of a core. -/
def kxcL (r c : Nat) : Loc := rLoc r .kxc c
/-- The UCS page of a region. -/
def ucsL (r : Nat) : Loc := rLoc r .ucs
/-- KXC_STAT.STATE codes (Table 10.6). -/
def ksReset : Nat := 0
def ksRun : Nat := 1
def ksWait : Nat := 2
def ksHalted : Nat := 3
def ksDouble : Nat := 4
def ksWdog : Nat := 5
/-- KXC_STAT.STATE of a core. -/
def Dev.kstate (d : Dev) (r c : Nat) : Nat := d.g (kxcL r c) KXC_STAT.STATE
/-- Is a core in RUN or WAIT? -/
def Dev.krunning (d : Dev) (r c : Nat) : Bool := d.kstate r c = ksRun || d.kstate r c = ksWait
/-- A word of program memory; an unwritten one holds 0 (R281). -/
def Dev.pm (d : Dev) (r c a : Nat) : Nat := SMap.get (fun _ => 0) d.pmem ((r * 32 + c) * 16384 + a % 16384)
/-- Entry `i` of a region's decode table (R321), as its register. -/
def Dev.decEntry (d : Dev) (r i : Nat) : Nat := (d.rd (ucsL r) (UCS_DEC.ENTRY.ix i).off).toNat
/-- Is program word `i` from the PC uncorrectable (R281)? -/
def Dev.pmUe (d : Dev) (r c i : Nat) : Bool := d.ueWords.contains (pageOf r .kxc c, 1, ((d.kx r c).pc + i) % 2 ^ 14)

/-- A core stops in a state of Table 10.6 (HALTED, DOUBLE, WDOG); KXC_PC takes the PC (notes/assumptions/47.md). The watchdog
goes on in DOUBLE only (R283, R289). -/
def Dev.kstop (d : Dev) (r c st : Nat) : Dev :=
  let k := d.kx r c
  let k1 := { k.abandon with stepping := false }
  let k2 := if st = ksDouble then k1 else { k1 with wdogRan := k.wdogRan + (d.tbR r - k.wdogFrom), wdogFrom := d.tbR r }
  ((d.setKx r c k2).p (kxcL r c) KXC_STAT.STATE st).p (kxcL r c) KXC_PC.PC k.pc
/-- A core halts and its page says so. -/
def Dev.khalt (d : Dev) (r c : Nat) : Dev := (d.kstop r c ksHalted).raise (kxcL r c) 0
/-- A unit or an entry is over: the core is in RUN, or halts where a STEP was in progress (R281). -/
def Dev.kdone (d : Dev) (r c : Nat) (k : Kux) : Dev :=
  let d1 := (d.setKx r c k).p (kxcL r c) KXC_STAT.STATE ksRun
  if k.stepping then d1.khalt r c else d1
/-- An exception (R283): entry at KVEC + 16 + CAUSE, or a double fault where INH = 1. The core's PC is that of the unit. -/
def Dev.kexc (d : Dev) (r c : Nat) (k : Kux) (cause : Nat) : Dev :=
  if k.st 11 then (d.setKx r c { k with wait := .none }).kstop r c ksDouble
  else (d.kdone r c ((k.setCw 0x07 cause).enter (16 + cause))).p (kxcL r c) KXC_STAT.CAUSE cause

/-- Does a core's page take an access: the core exists and its half is not frozen or off? -/
def State.kxcOn (s : State) (r c : Nat) : Bool := coreExists r c && s.regionOn r
/-- Does the core exist, in a half that is not frozen or off or in the released service region, with its clock on? -/
def State.coreOn (s : State) (r c : Nat) : Bool :=
  s.kxcOn r c && s.dev.clocked (kxcL r c)
/-- Can the core issue a unit now? -/
def State.kready (s : State) (r c : Nat) : Bool := s.coreOn r c && s.dev.kstate r c = ksRun && (s.dev.kx r c).wait = .none
/-- The scrubber whose FIFO takes a region's entries (R338). -/
def State.scrubOf (s : State) (r : Nat) : Half := if r = 2 then s.ref.walker else Half.ofRegion r
/-- PMEM_UE (R281): the fetch of program word `i` from the PC finds it uncorrectable (R336). -/
def State.pmemUe (s : State) (r c i : Nat) : Dev :=
  (s.dev.eccUe (s.scrubOf r) (pageOf r .kxc c) 1 (((s.dev.kx r c).pc + i) % 2 ^ 14) false).kexc r c (s.dev.kx r c) 5
/-- What the words at the PC are, read in order: the words asked for; uncorrectable at word `i`, those before it being as asked; other ones. -/
inductive Fetched where
  | here
  | ue (i : Nat)
  | other
deriving DecidableEq, Repr
/-- Fetch from word `i` of the unit at the PC on. -/
def Dev.fetchUnit (d : Dev) (r c i : Nat) : List Nat → Fetched
  | [] => .here
  | w :: ws => if d.pmUe r c i then .ue i else if d.pm r c ((d.kx r c).pc + i) = w then d.fetchUnit r c (i + 1) ws else .other

/-- A unit issues: where the core can issue and program memory at the PC holds these words, `f` gives the stores and devices after it;
where a word of it is uncorrectable the core takes PMEM_UE (R281); else nothing happens (notes/assumptions/48.md). -/
def issueMem (r c : Nat) (ws : List Nat) (f : State → List MemOp × Dev) (s : State) : List MemOp × Dev :=
  if !s.kready r c then ([], s.dev)
  else match s.dev.fetchUnit r c 0 ws with
    | .here => f s
    | .ue i => ([], s.pmemUe r c i)
    | .other => ([], s.dev)
/-- A unit that stores nothing. -/
def issue (r c : Nat) (ws : List Nat) (f : State → Dev) (s : State) : Dev := (issueMem r c ws (fun s => ([], f s)) s).2
/-- A unit that changes only its core and goes on to the next. -/
def onUnit (r : Fin 3) (c : Fin 20) (ws : List Nat) (f : Kux → Kux) : State → Answer :=
  onDev (issue r.val c.val ws (fun s => s.dev.kdone r.val c.val ((f (s.dev.kx r.val c.val)).next ws.length)))
/-- A unit that changes devices by a function of its own. -/
def onUnitDev (r : Fin 3) (c : Fin 20) (ws : List Nat) (f : State → Dev) : State → Answer := onDev (issue r.val c.val ws f)

/-! ### Event lines (R282) -/

/-- A core clears pending lines (R430): a line whose source is still asserted is set again. -/
def Dev.kipAck (d : Dev) (r c mask : Nat) : Dev :=
  (List.range 14).foldl (fun x i => if bit mask i && x.coreLineHigh r c i then x.orKip r c (2 ^ i) else x) (d.clearKip r c mask)
/-- KIP as the core sees it: lines 14 and 15 follow the mailboxes. -/
def Dev.kipNow (d : Dev) (r c : Nat) : Nat :=
  let k := d.kx r c
  d.kipOf r c % 2 ^ 14 + b2n (k.mbin ≠ []) * 2 ^ 14 + b2n (k.hostIn ≠ []) * 2 ^ 15
/-- The lowest set bit of a 16-bit word. -/
def lowestBit (v : Nat) : Option Nat := (List.range 16).find? (fun i => bit v i)
/-- The line that is due as an interrupt (R282). -/
def Dev.kdue (d : Dev) (r c : Nat) : Option Nat :=
  let k := d.kx r c
  if k.st 8 && !k.st 11 then lowestBit (d.kipNow r c &&& k.cw 0x02) else none
/-- The line that completes a WAITEVT with this mask (R286). -/
def Dev.evtLine (d : Dev) (r c mask : Nat) : Option Nat :=
  let k := d.kx r c
  lowestBit (d.kipNow r c &&& mask &&& (0xFFFF - (if k.st 8 then k.cw 0x02 else 0)))

/-! ### Mailboxes (R287, R288) -/

/-- A write of KMBOUT: the word leaves for the destination in KMBDST. -/
def Dev.mboxSend (d : Dev) (r c word : Nat) : Dev :=
  let dst := (d.kx r c).cw 0x40
  let dest := match dst / 32 % 4 with | 0 => r | 1 => 0 | 2 => 1 | _ => 2
  { d with mboxes := d.mboxes ++ [⟨r, c, dest, dst % 32, word⟩] }
/-- A read of KMBIN: the oldest word, or 0. -/
def Dev.mboxPop (d : Dev) (r c : Nat) : Nat × Dev :=
  let k := d.kx r c
  (k.mbin.headD 0, d.setKx r c { k with mbin := k.mbin.drop 1 })
/-- A write of KHMBOUT. -/
def Dev.hostPush (d : Dev) (r c word : Nat) : Dev :=
  let k := d.kx r c
  if k.hostOut.length < 8 then (d.setKx r c { k with hostOut := k.hostOut ++ [word] }).raise (kxcL r c) 3
  else d.setKx r c { k with drop := true }
/-- A read of KHMBIN. -/
def Dev.hostPop (d : Dev) (r c : Nat) : Nat × Dev :=
  let k := d.kx r c
  (k.hostIn.headD 0, d.setKx r c { k with hostIn := k.hostIn.drop 1 })
/-- A write of KXC_HMBIN. -/
def Dev.hmbIn (d : Dev) (r c word : Nat) : Dev :=
  let k := d.kx r c
  if k.hostIn.length < 8 then d.setKx r c { k with hostIn := k.hostIn ++ [word] } else d.raise (kxcL r c) 4
/-- A read of KXC_HMBOUT. -/
def Dev.hmbOut (d : Dev) (r c : Nat) : Nat × Dev :=
  let k := d.kx r c
  (k.hostOut.headD 0, d.setKx r c { k with hostOut := k.hostOut.drop 1 })

/-! ### Control space (Table 10.4) -/

/-- The pin a function selects, where it is enabled (Table 22.3). -/
def Dev.fsel (d : Dev) (f : Nat) : Option Nat :=
  let l := sLoc .gpx (5 + f / 128)
  if d.on l (GPX_FSEL.EN.ix (f % 128)) then some (d.g l (GPX_FSEL.PIN.ix (f % 128))) else none
/-- Does the function invert its data (R453)? -/
def Dev.finv (d : Dev) (f : Nat) : Bool := d.on (sLoc .gpx (5 + f / 128)) (GPX_FSEL.INV.ix (f % 128))
/-- Is the pad of a pin analogue (R450)? Not while its bank's pads stand in their reset state (R449). -/
def Dev.padAna (d : Dev) (n : Nat) : Bool := !bit d.bankOff (n / 32) && d.on (sLoc .gpx (1 + n / 64)) (GPX_PAD.ANA.ix (n % 64))
/-- The synchronised level of a pad. -/
def Dev.padIn (d : Dev) (n : Nat) : Bool := SMap.get (fun _ => false) d.pads n
/-- What an input function reads (R450, R453, R455). -/
def Dev.funcIn (d : Dev) (f : Nat) : Bool :=
  match d.fsel f with
  | some n => if d.padAna n then false else d.padIn n != d.finv f
  | none => false
/-- KPIN_IN of a service core (R455). -/
def Dev.kpinIn (d : Dev) (c : Nat) : Nat := (List.range 16).foldl (fun a b => a + b2n (d.funcIn (16 * c + b)) * 2 ^ b) 0

/-- The bits of a control-space word that a store writes. -/
def ctlMask (role : Role) (w : Nat) : Nat :=
  match w with
  | 0x01 => 0x071F
  | 0x04 => 0x3FE0
  | 0x05 => 0x3FFF
  | 0x10 => 0x3FFF
  | 0x11 => 0x3FFF
  | 0x1A => 0x3
  | 0x26 => (match role with | .beam => 0x1F | .link => 0x3F | .service => 0)
  | 0x2A => 0x7FF
  | 0x31 => 0x7FF
  | 0x33 => 0x7FF
  | 0x35 => 0x7FF
  | 0x40 => 0x7F
  | _ =>
    if w = 0x02 ∨ w = 0x06 ∨ w = 0x12 ∨ w = 0x18 ∨ w = 0x19 ∨ w = 0x1C ∨ w = 0x1D ∨ w = 0x28 ∨ w = 0x29 ∨ w = 0x2C ∨ w = 0x2D
      ∨ w = 0x30 ∨ w = 0x32 ∨ w = 0x34 then 0xFFFF
    else if role = .service ∧ (w = 0x50 ∨ w = 0x51) then 0xFFFF
    else if role = .service ∧ 0x58 ≤ w ∧ w < 0x60 then 0xFFF
    else 0
/-- A load of KTB0 (R280): the whole TB is copied to KTB0–KTB3. -/
def Dev.ktbLoad (d : Dev) (r c : Nat) : Dev :=
  let t := d.tbR r
  d.setKx r c ((((d.kx r c).setCw 0x20 (t % 2 ^ 16)).setCw 0x21 (t / 2 ^ 16)).setCw 0x22 (t / 2 ^ 32) |>.setCw 0x23 (t / 2 ^ 48))
/-- A load of a control-space word other than KFSYNC. -/
def Dev.ctlRead (d : Dev) (r c w : Nat) : Nat × Dev :=
  let k := d.kx r c
  match w with
  | 0x00 => (c + (match roleOf r c with | .beam => 0 | .link => 1 | .service => 2) * 2 ^ 5 + r * 2 ^ 7, d)
  | 0x03 => (d.kipNow r c, d)
  | 0x20 => let d1 := d.ktbLoad r c; ((d1.kx r c).cw 0x20, d1)
  | 0x42 => d.mboxPop r c
  | 0x43 => (k.mbin.length + b2n k.drop * 2 ^ 8, d)
  | 0x44 => d.hostPop r c
  | 0x46 => (k.hostIn.length + (8 - k.hostOut.length) * 2 ^ 4, d)
  | 0x52 => (if r = 2 then d.kpinIn c else 0, d)
  | _ => (k.cw w, d)
/-- A store to a control-space word. The effect of KPIN_XOR is on KPIN_OUT (Table 22.2); the key in KWDOG restarts
the watchdog period (R289). -/
def Dev.ctlWrite (d : Dev) (r c w v : Nat) : Dev :=
  let k := d.kx r c
  match w with
  | 0x03 => d.kipAck r c v
  | 0x41 => d.mboxSend r c v
  | 0x43 => if bit v 8 then d.setKx r c { k with drop := false } else d
  | 0x45 => d.hostPush r c v
  | 0x48 => if v = 0x5A3C then d.setKx r c { k with wdogRan := 0, wdogFrom := d.tbR r } else d
  | 0x53 => if r = 2 then d.setKx r c (k.setCw 0x50 (k.cw 0x50 ^^^ v)) else d
  | _ =>
    let m := ctlMask (roleOf r c) w
    if m = 0 then d else d.setKx r c (k.setCw w ((k.cw w &&& (0xFFFF - m)) + (v &&& m)))

/-! ### Where a data address leads (Tables 10.2, 10.3) -/

/-- The system address of a core's local RAM (Table 13.3). -/
def kramBase (r c : Nat) : Nat := if r = 2 then 0x1103800000 + 0x10000 * c else 0x1100000000 + 0x1000000 * r + 0x10000 * c
/-- A register window slot (Table 10.3): the page, and the context for ROW pages. -/
def Dev.kwindow (d : Dev) (r c slot : Nat) : Option (Nat × Option Nat) :=
  let k := d.kx r c
  match roleOf r c, slot with
  | .beam, 0 => some (pageOf r .row (c / 2), some ((d.openR (Half.ofRegion r) c).elim (k.cw 0x26 % 32) (fun x => x.ctx)))
  | .beam, 1 => some (pageOf r .row (c / 2), some (k.cw 0x26 % 32))
  | .beam, 2 => some (pageOf r .hrn 0, none)
  | .beam, 3 => some (pageOf r .beam 0, none)
  | .beam, 4 => some (pageOf r .aeq 0, none)
  | .link, 0 => some (pageOf r .cxp 0, none)
  | .link, 1 => some (pageOf r .cxp 1, none)
  | .link, 2 => some (pageOf r .lpe 0, none)
  | .link, 3 => some (pageOf r .lpe 1, none)
  | .link, 4 => some (pageOf r .rlk (k.cw 0x26 % 64), none)
  | .link, 5 => some (pageOf r .aeq 0, none)
  | .link, 6 => some (pageOf r .seal 0, none)
  | .service, n =>
    let p := 2 * 4096 + k.cw (0x58 + n)
    if (pageRowOf p).isSome then some (p, none) else none
  | _, _ => none
/-- The page of a system address in the register ranges of Table 01.7. -/
def pageOfAddr (a : Nat) : Option Nat :=
  if 0x1000000000 ≤ a ∧ a < 0x1003010000 then some ((a - 0x1000000000) / 4096) else none
/-- The target of a word address. -/
def Dev.ktarget (d : Dev) (r c a : Nat) : KTarget :=
  if a < 0x8000 then .ram (kramBase r c + 2 * a)
  else if a < 0xC000 then
    (match d.kwindow r c (a / 0x800 % 8) with
     | some (p, ctx) => .reg p (a % 0x800 / 2 * 4) (a % 2 = 1) ctx
     | none => .none)
  else if a < 0xF000 then
    let b := a / 0x1000 - 0xC
    let k := d.kx r c
    let sys := ((k.cw (0x30 + 2 * b) + k.cw (0x31 + 2 * b) * 2 ^ 16) * 8192 + 2 * (a % 0x1000)) % 2 ^ 40
    (match pageOfAddr sys with
     | some p => .far p (sys % 4096 / 4 * 4) (sys / 2 % 2 = 1)
     | none => .mem sys)
  else if a < 0xF100 then .ctl (a % 0x100) else .none

end Sys2Proof.Machine
end

