-- ==== Sys2Proof/Machine/Tmr.lean ====
section
/-!
DEFINITION. The timers (chapter 21): prescaler, counting, compare, capture, and the checks of a commit.
-/
namespace Sys2Proof.Machine

open Sys2Proof

/-- The page of a timer. -/
def tmrL (r t : Nat) : Loc := rLoc r .tmr t
def Dev.timer (d : Dev) (r t : Nat) : Timer := SMap.get (fun _ => {}) d.timers (r * 16 + t)
def Dev.setTimer (d : Dev) (r t : Nat) (x : Timer) : Dev := { d with timers := SMap.set (fun _ => {}) d.timers (r * 16 + t) x }
/-- A command of a timer: its region runs and its page's clock runs. -/
def onTmr (r : Fin 3) (t : Fin 16) (f : Dev → Dev) : State → Answer :=
  onDev (fun s => if s.regionOn r && s.dev.clocked (tmrL r t) then f s.dev else s.dev)

/-- A register access of a timer: its region runs; the registers answer also while the clock is gated (R481). -/
def onTmrReg (r : Fin 3) (f : Dev → Dev) : State → Answer := onDev (fun s => if s.regionOn r then f s.dev else s.dev)

/-! ### Sources (R440, R445): what happens in the part is on its way to a timer until its source event or capture edge arrives -/

/-- Source events and capture edges set out to a timer. One that does not run takes no source event. -/
def Dev.tmrSend (d : Dev) (r t evs edges : Nat) : Dev :=
  let l := tmrL r t
  let evs := if d.on l TMR_CTL.RUN then evs else 0
  if !d.clocked l ∨ evs + edges = 0 then d
  else d.setTimer r t { d.timer r t with evs := (d.timer r t).evs + evs, edges := (d.timer r t).edges + edges }
/-- A wrap of timer `t` goes to the timers of its region that count it (SRC 5). -/
def Dev.tmrWrapped (d : Dev) (r t : Nat) : Dev :=
  (List.range 16).foldl (fun y k =>
    if y.g (tmrL r k) TMR_CFG.SRC = 5 ∧ y.g (tmrL r k) TMR_CFG.SEL % 16 = t then y.tmrSend r k 1 0 else y) d
/-- How many of the crossing records of the last handshake a timer selects by SEL and DIRM. -/
def Dev.tmrCrossings (d : Dev) (h : Half) (t : Nat) : Nat :=
  let l := tmrL h.n t
  ((d.xl h).filter (fun x => x.kind == .crossing && decide (x.beam + 4 * x.tap = d.g l TMR_CFG.SEL) && bit (d.g l TMR_CFG.DIRM) (b2n x.dir))).length
/-- What a tick of the time base of a half sends to its timers: crossings where the tick delivers records, and the 1 MHz tick; to the service timers the
1 MHz tick of their copy (R31). -/
def Dev.tmrTicks (d : Dev) (h : Half) (copied : Bool) : Dev :=
  let mhz (t : Nat) : Nat := b2n (decide (t % 100 = 0))
  let d1 := (List.range 16).foldl (fun y t =>
    let l := tmrL h.n t
    let x := if y.tb h % 2 = 0 then y.tmrCrossings h t else 0
    y.tmrSend h.n t (if y.g l TMR_CFG.SRC = 1 then mhz (y.tb h) else if y.g l TMR_CFG.SRC = 3 then x else 0) (if y.g l TMR_CFG.CAPSRC = 2 then x else 0)) d
  if !copied then d1
  else (List.range 16).foldl (fun y t => y.tmrSend 2 t (if y.g (tmrL 2 t) TMR_CFG.SRC = 1 then mhz y.tbS else 0) 0) d1
/-- What a change of the pins or of the crossbar since `d0` sends to the timers: the selected edges at their inputs (function 144 + 16 × region + timer). -/
def Dev.pinEdges (d0 d : Dev) : Dev :=
  (List.range 48).foldl (fun y k =>
    let l := tmrL (k / 16) (k % 16)
    let was := d0.funcIn (144 + k)
    let now := y.funcIn (144 + k)
    if was = now ∨ !bit (y.g l TMR_CFG.EDGE) (b2n was) then y
    else y.tmrSend (k / 16) (k % 16) (b2n (decide (y.g l TMR_CFG.SRC = 4))) (b2n (decide (y.g l TMR_CFG.CAPSRC = 1)))) d
/-- TB_TICK (R29, R63, R31). -/
def execTbTick (h : Half) : State → Answer :=
  onDev (fun s => if s.ref.hs h = .off ∨ s.ref.sby h then s.dev else
    let d := s.dev.tick h (s.ref.tbSource h)
    d.tmrTicks h (decide (d.tbS ≠ s.dev.tbS)))

/-! ### Counting, compare, capture (R441–R446) -/

/-- A match (R443): MATCH is raised, and the pulse reaches the camera triggers of the half. -/
def Dev.tmrMatch (d : Dev) (r t : Nat) : Dev :=
  let d1 := d.raise (tmrL r t) 1
  if r < 2 then d1.timerTrigger (Half.ofRegion r) t else d1
/-- One tick (R442, R443). -/
def Dev.tmrTick (d : Dev) (r t : Nat) : Dev :=
  let l := tmrL r t
  let count := d.g l TMR_COUNT.COUNT
  let period := d.g l TMR_PERIOD.PERIOD
  let d1 := if period < count then (d.p l TMR_FLAGS.PERIOD_LATE 1).raise l 5 else d
  let d2 := if period ≤ count then ((d1.p l TMR_COUNT.COUNT 0).raise l 0).tmrWrapped r t else d1.p l TMR_COUNT.COUNT (count + 1)
  let d3 := d2.wrap l TMR_TICKS.TICKS
  if !d3.on l TMR_CFG.CMPEN then d3
  else if !d3.on l TMR_CFG.MODE then (if d3.g l TMR_COUNT.COUNT = d3.g l TMR_CMP.CMP then d3.tmrMatch r t else d3)
  else if d3.g l TMR_TICKS.TICKS = d3.g l TMR_NEXT.NC then (d3.wrap l TMR_NEXT.NC (d3.g l TMR_INTERVAL.INTERVAL)).tmrMatch r t
  else d3
/-- A delivered event (R441): the prescaler advances and the timer may tick. -/
def Dev.tmrEvent (d : Dev) (r t : Nat) : Dev :=
  let l := tmrL r t
  let div := d.g l TMR_DIV.DIV
  let x := d.timer r t
  if !d.on l TMR_CTL.RUN then d
  else if x.acc + 0x10000 < div then d.setTimer r t { x with acc := x.acc + 0x10000 }
  else (d.setTimer r t { x with acc := x.acc + 0x10000 - div }).tmrTick r t
/-- TIMER_SOURCE_EVENT (R440): an event of the selected source arrives. The region clock (0) and the audio master (2) deliver theirs at any time; of the other
sources one must be on its way. -/
def execTimerSourceEvent (r : Fin 3) (t : Fin 16) : State → Answer :=
  onTmr r t (fun d =>
    let src := d.g (tmrL r t) TMR_CFG.SRC
    let x := d.timer r t
    if src = 0 ∨ src = 2 then d.tmrEvent r t
    else if x.evs = 0 then d
    else (d.setTimer r t { x with evs := x.evs - 1 }).tmrEvent r t)

/-- The check of R444: a compare that has passed moves on by whole intervals. With INTERVAL = 0, which only CMPEN = 0 allows, their
number is a free value. -/
def Dev.tmrPassed (d : Dev) (r t : Nat) : Dev :=
  let l := tmrL r t
  let diff := sgn 32 (d.g l TMR_NEXT.NC + 2 ^ 32 - d.g l TMR_TICKS.TICKS)
  let every := d.g l TMR_INTERVAL.INTERVAL
  if 0 < diff then d
  else if every = 0 then
    let x := d.free
    (x.2.sat l TMR_CNT.MISSED x.1.toNat).raise l 2
  else
    let k := diff.natAbs / every + 1
    ((d.wrap l TMR_NEXT.NC (k * every)).sat l TMR_CNT.MISSED k).raise l 2
/-- CLR (R442, R444). -/
def Dev.tmrClr (d : Dev) (r t : Nat) : Dev :=
  let l := tmrL r t
  let d1 := (((d.p l TMR_COUNT.COUNT 0).p l TMR_TICKS.TICKS 0).setTimer r t { d.timer r t with acc := 0 })
  if d1.on l TMR_CFG.MODE then d1.tmrPassed r t else d1
/-- A capture (R445). -/
def Dev.tmrCapture (d : Dev) (r t : Nat) : Dev :=
  let l := tmrL r t
  let x := d.timer r t
  if x.caps.length < 4 then
    ((d.setTimer r t { x with caps := x.caps ++ [d.g l TMR_COUNT.COUNT] }).p l TMR_CAPST.LEVEL (x.caps.length + 1)).raise l 3
  else (d.sat l TMR_CNT.CAPLOST).raise l 4
/-- TIMER_CAPTURE_EDGE (R445): a capture trigger that CAPSRC selects, and that is on its way, arrives. -/
def execTimerCaptureEdge (r : Fin 3) (t : Fin 16) : State → Answer :=
  onTmr r t (fun d =>
    let x := d.timer r t
    if x.edges = 0 then d else (d.setTimer r t { x with edges := x.edges - 1 }).tmrCapture r t)
/-- A write of TMR_CTL, in the order of R446. -/
def Dev.tmrCtl (d : Dev) (r t v : Nat) : Dev :=
  let d1 := d.p (tmrL r t) TMR_CTL.RUN v
  let d2 := if bit v 1 then d1.tmrClr r t else d1
  if bit v 2 then d2.tmrCapture r t else d2
/-- TIMER_RUN: a write of RUN alone. TIMER_CLR and CAPNOW write their bit, with RUN at the value the write gives it. -/
def execTimerRun (r : Fin 3) (t : Fin 16) (run : Bool) : State → Answer := forwardedR r (fun r => onTmrReg r (fun d => (d.seq (tmrL r t)).tmrCtl r t (b2n run)))
def execTimerClr (r : Fin 3) (t : Fin 16) (run : Bool) : State → Answer := forwardedR r (fun r => onTmrReg r (fun d => (d.seq (tmrL r t)).tmrCtl r t (b2n run + 2)))
def execCapnow (r : Fin 3) (t : Fin 16) (run : Bool) : State → Answer := forwardedR r (fun r => onTmrReg r (fun d => (d.seq (tmrL r t)).tmrCtl r t (b2n run + 4)))
/-- A read of TMR_CAP: the oldest capture, or 0. -/
def Dev.tmrPop (d : Dev) (r t : Nat) : Nat × Dev :=
  let x := d.timer r t
  (x.caps.headD 0, (d.setTimer r t { x with caps := x.caps.drop 1 }).p (tmrL r t) TMR_CAPST.LEVEL (x.caps.length - 1))
def execTimerCapPop (r : Fin 3) (t : Fin 16) : State → Answer :=
  onTmrReg r (fun d => let x := d.tmrPop r t; { x.2 with readData := BitVec.ofNat 32 x.1 })

/-- After a swap of a timer's page (R444): in add-interval mode a new compare, or the change into the mode, loads NC. What was on its way from a source that
is no longer selected does not arrive (Table 21.2; notes/assumptions/124.md). -/
def Dev.tmrSwapped (d0 : Dev) (r t : Nat) (cfg cmp : Word) : Dev :=
  let l := tmrL r t
  let moved (f : Fld) : Bool := fget f cfg ≠ d0.g l f
  let x := d0.timer r t
  let drop := moved TMR_CFG.SEL || moved TMR_CFG.DIRM || moved TMR_CFG.EDGE
  let d := if x.evs + x.edges = 0 then d0 else d0.setTimer r t { x with
    evs := if drop || moved TMR_CFG.SRC then 0 else x.evs
    edges := if drop || moved TMR_CFG.CAPSRC then 0 else x.edges }
  if d.on l TMR_CFG.MODE ∧ (d.rd l TMR_CMP.CMP.off ≠ cmp ∨ fget TMR_CFG.MODE cfg = 0) then
    (d.p l TMR_NEXT.NC (d.g l TMR_CMP.CMP)).tmrPassed r t
  else d
/-- The checks of a timer's page (Table 21.4), on the shadow set. -/
def Dev.tmrCode (d : Dev) (r t : Nat) : Option Nat :=
  let g := d.gS (tmrL r t)
  let src := g TMR_CFG.SRC
  let cap := g TMR_CFG.CAPSRC
  firstCode [
    (6 ≤ src || cap = 3 || (r = 2 && (src = 3 || cap = 2)), 0x30),
    (g TMR_DIV.DIV < 0x10000, 0x31),
    (g TMR_INTERVAL.INTERVAL = 0 && g TMR_CFG.MODE = 1 && g TMR_CFG.CMPEN = 1, 0x32),
    (g TMR_CFG.EDGE = 0 && (src = 4 || cap = 1), 0x33)]

end Sys2Proof.Machine
end

