-- ==== Sys2Proof/Machine/Gpx.lean ====
section
/-!
DEFINITION. General pins (chapter 22): function signals and the pin each drives, banks, pattern matchers, what a swap of the GPX
pages does, and the checks of a commit.
-/
namespace Sys2Proof.Machine

open Sys2Proof

/-- The GPX page of an instance. -/
def gpxL (i : Nat) : Loc := sLoc .gpx i
/-- Can a function drive a pin (Table 22.1)? -/
def canDrive (f : Nat) : Bool := f < 141 || (192 ≤ f && f < 240) || (248 ≤ f && f < 519)
/-- May a function both drive and read (direction B)? -/
def isBoth (f : Nat) : Bool := f < 140
/-- The output-capable functions that select a pin, lowest first (R452). -/
def Dev.drivers (d : Dev) (n : Nat) : List Nat := (List.range 519).filter (fun f => canDrive f && d.fsel f = some n)
/-- The losers among the output-capable functions (R452): enabled, and a lower-numbered one selects the same pin. -/
def Dev.losers (d : Dev) : List (Nat × Nat) :=
  let all := (List.range 519).filterMap (fun f => if canDrive f then (d.fsel f).map (fun n => (f, n)) else none)
  all.filter (fun e => all.any (fun x => x.2 = e.2 && x.1 < e.1))
/-- Output enable and data of a function (Table 22.1). The wires of the acoustic unit and the match pulses of timers, which change within a step, show
a free level (notes/assumptions/64.md); a port's clocks are outputs on master ports, its data on output ports. -/
def funcOut (s : State) (f : Nat) : Option (Bool × Bool) :=
  let d := s.dev
  let v : Option (Bool × Bool) :=
    if f < 128 then
      (let k := d.kx 2 (f / 16)
       some (bit (k.cw 0x51) (f % 16), bit (k.cw 0x50) (f % 16)))
    else if 248 ≤ f ∧ f < 256 then some (true, bit (d.g (gpxL 0) GPX_PMST.MATCH) (f - 248))
    else if 256 ≤ f ∧ f < 512 then some (true, !d.padAna (f - 256) && d.padIn (f - 256))
    else if f < 141 then
      (let lv := Config.funcLevel f d.freeCount
       if f = 140 then some (true, lv)
       else
         let p := (f - 128) / 3
         let en := d.on (sLoc .aud) (AUD_PCFG.EN.ix p)
         some (en && (if (f - 128) % 3 = 2 then decide (2 ≤ p) else !d.on (sLoc .aud) (AUD_PCFG.SLAVE.ix p)), lv))
    else if 192 ≤ f ∧ f < 240 then some (true, Config.funcLevel f d.freeCount)
    else if f = 512 then some (true, s.ref.hsA = .charge)
    else if f = 513 then some (true, s.ref.hsB = .charge)
    else if f = 514 then some (true, s.ref.stopLine d .A || s.ref.stopLine d .B)
    else if f = 515 then some (true, s.ref.defaults)
    else if 516 ≤ f ∧ f < 519 then some (true, bit (d.g (sLoc .pwr) PWR_STAT.WARN) (f - 516))
    else none
  v.map (fun x => (x.1, x.2 != d.finv f))
/-- What the crossbar drives onto a pin (R450, R452): none where its driver is off. -/
def pinDrive (s : State) (n : Nat) : Option Bool :=
  let d := s.dev
  if bit d.bankOff (n / 32) ∨ d.padAna n then none
  else match d.drivers n with
    | [] => none
    | f :: _ => match funcOut s f with
      | some (true, v) => if v && d.on (gpxL (1 + n / 64)) (GPX_PAD.OD.ix (n % 64)) then none else some v
      | _ => none

/-- PIN_EDGE (R453): the synchronised level of a pad; the timers whose inputs select it see the edge. -/
def execPinEdge (n : BitVec 8) (level : Bool) : State → Answer :=
  onSvc (gpxL 0) (fun s => s.dev.pinEdges { s.dev with pads := SMap.set (fun _ => false) s.dev.pads n.toNat level })
/-- The word GPX_INi shows. -/
def Dev.gpxIn (d : Dev) (i : Nat) : Nat :=
  (List.range 32).foldl (fun t b => t + b2n (!d.padAna (32 * i + b) && d.padIn (32 * i + b)) * 2 ^ b) 0
/-- What matcher `m` compares to be a match now (R456). -/
def Dev.pmResult (d : Dev) (m : Nat) : Bool :=
  let l := gpxL 0
  let pin (i : Nat) : Nat := (if i < 4 then d.g l (GPX_PM_SEL0.PINS.ix m) else d.g l (GPX_PM_SEL1.PINS.ix m)) / 2 ^ (8 * (i % 4)) % 256
  let pins := (List.range 8).foldl (fun t i =>
    t + b2n (decide (i ≤ d.g l (GPX_PM_CFG.COUNT_M1.ix m)) && !d.padAna (pin i) && d.padIn (pin i)) * 2 ^ i) 0
  pins &&& d.g l (GPX_PM_CFG.MASK.ix m) = d.g l (GPX_PM_CFG.VALUE.ix m)
/-- PM_MATCH (R456): the result has held for FILT_M1 + 1 samples. -/
def Dev.pmMatch (d : Dev) (m : Nat) : Dev :=
  let l := gpxL 0
  let was := bit (d.g l GPX_PMST.MATCH) m
  let now := d.pmResult m
  let mode := d.g l (GPX_PM_CFG.MODE.ix m)
  if now = was then d
  else
    let d1 := d.p l GPX_PMST.MATCH (d.g l GPX_PMST.MATCH ^^^ 2 ^ m)
    if (now && (mode = 0 || mode = 2)) || (!now && (mode = 1 || mode = 2)) then (d1.sat l (GPX_PMCNT.COUNT.ix m)).raise l (8 + m) else d1
def execPmMatch (m : Fin 8) : State → Answer := onSvc (gpxL 0) (fun s => s.dev.pmMatch m)
/-- BANK_V (R449): the detector of a bank reads a level; where it changed, the bank's pads return to their reset state. -/
def execBankV (k : Fin 8) (v18 : Bool) : State → Answer :=
  onSvc (gpxL 0) (fun s =>
    let d := s.dev
    let l := gpxL 0
    let was := bit (d.g l GPX_BSTAT.DET18) k
    if was = v18 then d
    else d.pinEdges (({ d.p l GPX_BSTAT.DET18 (d.g l GPX_BSTAT.DET18 ^^^ 2 ^ k.val) with bankOff := d.bankOff ||| 2 ^ k.val }).raise l 1))

/-- After a swap of GPX pages: banks whose commit declares the detected level get their pads back (R449), and losers are counted and
recorded (R452). -/
def Dev.gpxSwapped (d : Dev) (pages : List Nat) : Dev :=
  let l := gpxL 0
  let d1 := if pages.contains (pageOf 2 .gpx 0) then
      { d with bankOff := (List.range 8).foldl (fun t k =>
          if bit t k && (d.on l (GPX_BANK.V18.ix k) == bit (d.g l GPX_BSTAT.DET18) k) then t - 2 ^ k else t) d.bankOff }
    else d
  match d1.losers with
  | [] => d1
  | (f, n) :: rest =>
    let d2 := if d1.on l GPX_CONFLICT.VALID then d1
      else ((d1.p l GPX_CONFLICT.LOSER f).p l GPX_CONFLICT.PIN n).p l GPX_CONFLICT.VALID 1
    (d2.sat l GPX_CONFCNT.COUNT (1 + rest.length)).raise l 0
/-- The checks of a GPX page (Table 22.4); `pages` are the pages that swap together. -/
def Dev.gpxCode (d : Dev) (pages : List Nat) (i : Nat) : Option Nat :=
  let rdOf (j : Nat) (f : Fld) : Nat := if pages.contains (pageOf 2 .gpx j) then d.gS (gpxL j) f else d.g (gpxL j) f
  let anaBad (f : Nat) : Bool :=
    let j := 5 + f / 128
    let n := rdOf j (GPX_FSEL.PIN.ix (f % 128))
    rdOf j (GPX_FSEL.EN.ix (f % 128)) = 1 && rdOf (1 + n / 64) (GPX_PAD.ANA.ix (n % 64)) = 1
  firstCode [
    (i = 0 && (List.range 8).any (fun k => d.gS (gpxL 0) (GPX_BANK.V18.ix k) ≠ b2n (bit (d.g (gpxL 0) GPX_BSTAT.DET18) k)), 0x38),
    (1 ≤ i && (List.range 519).any (fun f => canDrive f && anaBad f), 0x39),
    (i = 0 && (List.range 8).any (fun m => d.gS (gpxL 0) (GPX_PM_CFG.MODE.ix m) = 3), 0x3B)]

end Sys2Proof.Machine
end

