-- ==== Sys2Proof/Machine/Heads.lean ====
section
/-!
DEFINITION. The display heads (chapter 17): modes, the head's part of a latch point, compatibility scan-out, DSI commands,
tearing effect, and the checks of a commit. The latch points themselves, which swap pages, are in Machine/Edges.lean.
-/
namespace Sys2Proof.Machine

open Sys2Proof

/-- Bytes of a line in compatibility scan-out (R390). -/
def compatLine (d : Dev) (c : Nat) : Nat := (modeSize (d.g (dhdL c) DHD_CFG.MODE)).1 * (2 + 2 * d.g (dhdL c) DHD_CPITCH.CFMT)
/-- TOL of R391 in nanoseconds, to the nearest; 0 in native scan-out. -/
def tolerance (d : Dev) (c : Nat) : Nat :=
  let t := timing (d.g (dhdL c) DHD_CFG.MODE)
  if d.g (dhdL c) DHD_CFG.SCAN = 0 then 0
  else (2 * (65536 / compatLine d c - 1) * t.htotal * 1000000 + t.khz) / (2 * t.khz) - 2000

/-- After a swap of a head's page (R393): the raster stops where EN is off, or for the new clock where the mode, link, lanes or
scan-out changed. `was` is the active configuration before. -/
def Dev.headSwapped (d : Dev) (c : Nat) (was : Word) : Dev :=
  let l := dhdL c
  let now := d.rd l DHD_CFG.EN.off
  let moved := [DHD_CFG.MODE, DHD_CFG.LINK, DHD_CFG.LANES_M1, DHD_CFG.CMDMODE, DHD_CFG.BURST, DHD_CFG.SCAN].any (fun f => fget f now ≠ fget f was)
  let d1 := d.p l DHD_LAT.TOL (tolerance d c)
  if !d.on l DHD_CFG.EN ∨ moved then (d1.p l DHD_STAT.RUN 0).p l DHD_STAT.LOCKED 0 else d1
/-- The head's part of a latch point at raster line `line` (R392–R395): `flip` when a page of the head swapped. -/
def Dev.headLatch (d : Dev) (c line : Nat) (flip : Bool) : Dev :=
  let l := dhdL c
  let d1 := (d.p l DHD_STAT.LINE line).modHead c (fun x => { x with placed := d.tbS, transfer := false, lines := [], buffered := 0 })
  let d2 := if c ≠ 0 then d1 else
    let y := d1.wrap l DHD_FCNT.FRAMES
    if flip then y.p64 l DHD_FLIPTB_LO.TB DHD_FLIPTB_HI.TB d.tbS else y
  d2.raise l 0

/-- A command of a head: its page's clock runs. -/
def onHead (c : Nat) (f : Dev → Dev) : State → Answer := onSvc (dhdL c) (fun s => f s.dev)
/-- COMPAT_LINE_FETCH (R390): the head fetches the next line of its surface, from the half that serves the service window (R34, R219), where its buffer
has room; `shown` lines have left the buffer. -/
def execCompatLineFetch (c : Fin 2) (shown : BitVec 11) : State → Answer :=
  onSvc (dhdL c) (fun s =>
    let d := s.dev
    let l := dhdL c
    let x := d.head c
    let n := x.lines.length
    let left := x.buffered - shown.toNat
    let a := compatBase d c + n * d.g l DHD_CPITCH.PITCH
    if !d.on l DHD_STAT.RUN ∨ !d.on l DHD_CFG.SCAN ∨ 65536 < (left + 1) * compatLine d c ∨ (modeSize (d.g l DHD_CFG.MODE)).2 ≤ n then d
    else (d.readEcc s.ref.walker (s.ref.served a) (compatLine d c)).modHead c (fun y =>
      { y with lines := y.lines ++ [(List.range (compatLine d c)).map (fun i => pixelByte s.ref d s.mem (a + i))], buffered := left + 1 }))

/-! ### DSI commands (R388) -/

/-- A write of DHD_DCMD. -/
def Dev.dcmdWrite (d : Dev) (v : Nat) : Dev :=
  let l := dhdL 1
  let q := (d.head 1).fifo
  if q.length < 64 then (d.modHead 1 (fun x => { x with fifo := q ++ [v] })).p l DHD_DCLV.FREE (63 - q.length)
  else d.p l DHD_DCLV.DROP 1
def execDsiCommandWrite (v : Word) : State → Answer := onSvcReg (fun s => (s.dev.seq (dhdL 1)).dcmdWrite v.toNat)
/-- DSI_COMMAND_SEND: a packet that is whole in the FIFO goes out, in video mode in the vertical blanking of a running raster, in command mode between
transfers; with BTA its response is awaited. -/
def execDsiCommandSend : State → Answer :=
  onHead 1 (fun d =>
    let l := dhdL 1
    let x := d.head 1
    match x.fifo with
    | [] => d
    | hdr :: _ =>
      let n := 1 + (hdr / 2 ^ 8 % 65536 + 3) / 4
      if x.fifo.length < n ∨ x.bta ∨ (if d.on l DHD_CFG.CMDMODE then x.transfer else !d.on l DHD_STAT.RUN) then d
      else (d.modHead 1 (fun y => { y with fifo := y.fifo.drop n, sent := y.fifo.take n, bta := bit hdr 25 })).p l DHD_DCLV.FREE (64 - (x.fifo.length - n)))
/-- CMD_DONE: the panel's response, at most 16 bytes. -/
def execCmdDone (data : List Byte) : State → Answer :=
  onHead 1 (fun d =>
    let l := dhdL 1
    if !(d.head 1).bta then d
    else
      let d1 := (data.take 16).zipIdx.foldl (fun y e =>
        y.p l ⟨0x848 + e.2 / 4 * 4, 4, 8 * (e.2 % 4), 8⟩ e.1.toNat) (d.modHead 1 (fun x => { x with bta := false }))
      d1.raise l 4)
/-- DSI_RESPONSE_TIMEOUT: no response within 1 ms. -/
def execDsiResponseTimeout : State → Answer :=
  onHead 1 (fun d => if !(d.head 1).bta then d else ((d.modHead 1 (fun x => { x with bta := false })).p (dhdL 1) DHD_DCLV.TMO 1).raise (dhdL 1) 4)

/-! ### Tearing effect (R395), loss of lock -/

/-- TE_EDGE: an accepted edge starts a frame transfer, or is early. -/
def execTeEdge : State → Answer :=
  onHead 1 (fun d =>
    if !d.cmdMode then d
    else if (d.head 1).transfer then d.sat (dhdL 1) DHD_TECNT.EARLY
    else (d.modHead 1 (fun x => { x with transfer := true })).raise (dhdL 1) 2)
/-- TE_MISS: two frame periods without an edge. -/
def execTeMiss : State → Answer :=
  onHead 1 (fun d =>
    if !d.cmdMode ∨ (d.head 1).transfer then d
    else ((d.modHead 1 (fun x => { x with transfer := true })).sat (dhdL 1) DHD_TECNT.MISS).raise (dhdL 1) 3)
/-- LOCK_LOST (R398). -/
def execLockLost (c : Fin 2) : State → Answer := onHead c (fun d => (d.p (dhdL c) DHD_STAT.LOCKED 0).raise (dhdL c) 5)

/-! ### What the heads send (R384–R387) -/

/-- The level of the two syncs at position `pos` of raster line `line`, counted from the first active pixel and line (R384). -/
def Dev.hsync (d : Dev) (c pos : Nat) : Bool :=
  let t := timing (d.g (dhdL c) DHD_CFG.MODE)
  (decide (t.w + t.hfp ≤ pos ∧ pos < t.w + t.hfp + t.hsync) == t.hpos) != d.on (dhdL c) DHD_CFG.HINV
def Dev.vsync (d : Dev) (c line : Nat) : Bool :=
  let t := timing (d.g (dhdL c) DHD_CFG.MODE)
  (decide (t.h + t.vfp ≤ line ∧ line < t.h + t.vfp + t.vsync) == t.vpos) != d.on (dhdL c) DHD_CFG.VINV
/-- Is a position of the raster an active pixel (DE)? -/
def Dev.active (d : Dev) (c line pos : Nat) : Bool := decide (line < (modeSize (d.g (dhdL c) DHD_CFG.MODE)).2) && decide (pos < (modeSize (d.g (dhdL c) DHD_CFG.MODE)).1)
/-- The pattern of the clock pair, slot 0 first (R385). -/
def lvdsClock : List Bool := [true, true, false, false, false, true, true]
/-- What a slot of a data pair carries (Table 17.2). -/
inductive Slot where
  | r (i : Nat)
  | g (i : Nat)
  | b (i : Nat)
  | hs
  | vs
  | de
  | zero
deriving DecidableEq, Repr
/-- The slots of a data pair under DHD_CFG.MAP, slot 0 first; none where the mapping does not use the pair (R386). -/
def lvdsMap (map : Nat) (pair : Fin 4) : Option (List Slot) :=
  match map, pair with
  | 0, 0 => some [.r 0, .r 1, .r 2, .r 3, .r 4, .r 5, .g 0]
  | 0, 1 => some [.g 1, .g 2, .g 3, .g 4, .g 5, .b 0, .b 1]
  | 0, 2 => some [.b 2, .b 3, .b 4, .b 5, .hs, .vs, .de]
  | 0, 3 => some [.r 6, .r 7, .g 6, .g 7, .b 6, .b 7, .zero]
  | _, 0 => some [.r 2, .r 3, .r 4, .r 5, .r 6, .r 7, .g 2]
  | _, 1 => some [.g 3, .g 4, .g 5, .g 6, .g 7, .b 2, .b 3]
  | _, 2 => some [.b 4, .b 5, .b 6, .b 7, .hs, .vs, .de]
  | map, 3 => if map = 1 then some [.r 0, .r 1, .g 0, .g 1, .b 0, .b 1, .zero] else none
/-- Which position of a line a link sends in its `clk`-th clock, none on an unused link (R385): in dual link link A (0) the even positions, link B the
odd ones. -/
def Dev.lvdsPos (d : Dev) (link : Fin 2) (clk : Nat) : Option Nat :=
  if d.on (dhdL 0) DHD_CFG.LINK then some (2 * clk + link) else if link = 0 then some clk else none
/-- The seven bits that a data pair of head 0 sends in the `clk`-th clock of its link in raster line `line`, while the raster runs; none while the pair is
held at common mode. What the colour slots carry outside the active pixels is not stated (notes/assumptions/122.md). -/
def Scene.lvds (x : Scene) (link : Fin 2) (pair : Fin 4) (line clk : Nat) : Option (List Bool) :=
  match x.fd.lvdsPos link clk, lvdsMap (x.fd.g (dhdL 0) DHD_CFG.MAP) pair with
  | some pos, some slots =>
    let on := x.fd.active 0 line pos
    let rgb := if on then x.pixel pos line else Config.blankPixel line pos
    some (slots.map (fun
      | .r i => bit rgb (16 + i)
      | .g i => bit rgb (8 + i)
      | .b i => bit rgb i
      | .hs => x.fd.hsync 0 pos
      | .vs => x.fd.vsync 0 line
      | .de => on
      | .zero => false))
  | _, _ => none
/-- The payload of a run of pixels on DSI (R387): RGB888 takes R, G, B in bytes; RGB666 packed takes the top six bits of each channel, 18 bits a pixel from
the least significant bit of the payload on (the order of MIPI DSI, notes/assumptions/122.md). -/
def dsiBytes (packed : Bool) (pixels : List Nat) : List Byte :=
  let r (v : Nat) : Nat := v / 2 ^ 16 % 256
  let g (v : Nat) : Nat := v / 2 ^ 8 % 256
  if packed then
    toBytes ((pixels.zipIdx).foldl (fun t e => t + (r e.1 / 4 + g e.1 / 4 * 2 ^ 6 + e.1 % 256 / 4 * 2 ^ 12) * 2 ^ (18 * e.2)) 0) ((18 * pixels.length + 7) / 8)
  else pixels.flatMap (fun v => [BitVec.ofNat 8 (r v), BitVec.ofNat 8 (g v), BitVec.ofNat 8 v])
/-- The packet of an active line on DSI (R387): its data type and payload. In video mode a pixel stream; in command mode a DCS long write that starts the
frame's memory write on line 0 and continues it on the others. -/
def Scene.dsiLine (x : Scene) (line : Nat) : Nat × List Byte :=
  let l := dhdL 1
  let packed := x.fd.on l DHD_CFG.PF666
  let body := dsiBytes packed ((List.range (modeSize (x.fd.g l DHD_CFG.MODE)).1).map (fun px => x.pixel px line))
  if x.fd.on l DHD_CFG.CMDMODE then (0x39, (if line = 0 then 0x2C else 0x3C) :: body) else (if packed then 0x1E else 0x3E, body)

/-! ### The checks of a commit (Table 17.4) -/

/-- The checks of a head's page, on the shadow set. -/
def Dev.dhdCode (d : Dev) (c : Nat) : Option Nat :=
  let l := dhdL c
  let g := d.gS l
  let mode := g DHD_CFG.MODE
  let size := modeSize mode
  let bpp := if g DHD_CFG.PF666 = 1 then 18 else 24
  let rate := (g DHD_CFG.LANES_M1 + 1) * g DHD_DSIRATE.RATE * 10000
  let base := g DHD_COMPAT_LO.BASE * 16 + g DHD_COMPAT_HI.BASE * 2 ^ 32
  let line := size.1 * (2 + 2 * g DHD_CPITCH.CFMT)
  let pitch := g DHD_CPITCH.PITCH
  firstCode [
    ((c = 0 && g DHD_CFG.LINK = 0 && (mode = 4 || mode = 5)) || (c = 1 && g DHD_CFG.CMDMODE = 1 && 6 ≤ mode), 0xF0),
    (c = 0 && g DHD_CFG.MAP = 3, 0xF1),
    (c = 1 && (g DHD_DSIRATE.RATE < 8 || 150 < g DHD_DSIRATE.RATE), 0xF3),
    (c = 1 && (if g DHD_CFG.CMDMODE = 1 then rate * 1000 * 100 < 120 * size.1 * size.2 * bpp * 60
               else rate * 100 < 110 * (timing mode).khz * bpp), 0xF2),
    (g DHD_CFG.SCAN = 1 && (base < 0x1200000000 || 0x1300000000 < base + pitch * (size.2 - 1) + line || pitch % 16 ≠ 0 || pitch < line), 0xF4)]

end Sys2Proof.Machine
end

