-- ==== Sys2Proof/Machine/HostIf.lean ====
section
/-!
DEFINITION. Event delivery and the host endpoints (chapter 20): EVC tables, moderation, masks and end of interrupt (R429–R431),
link up and down, inbound read timeouts (R432–R435). The mailboxes are in Machine/Referee.lean.
-/
namespace Sys2Proof.Machine

open Sys2Proof

/-- EVC_TABLE_WRITE (R429): the entry takes effect at once; a wrong core or line stores CEN = 0 and raises CFG_ERR. -/
def Dev.evcWrite (d : Dev) (r : Nat) (v : Nat) : Dev :=
  let l := rLoc r .evc
  let src := d.g l EVC_TW_IDX.SRC
  let core := v / 2 ^ 8 % 32
  let line := v / 2 ^ 13 % 16
  let cores := if r = 2 then 8 else 20
  let bad := cores ≤ core ∨ 14 ≤ line
  let e := v % 2 ^ 19 - (if bad ∧ bit v 7 then 2 ^ 7 else 0)
  let high := d.coreLineHigh r core line
  let d1 := { d with evcTab := SMap.set (fun _ => 0) d.evcTab (r * 512 + src) e }
  let d2 := if bad then d1.raise l 2 else d1
  let d3 := if d2.asserted src then
      (let y := if bit e 7 && !high then d2.orKip r core (2 ^ line) else d2
       if bit e 0 ∧ r < 2 then y.deliver (Half.ofRegion r) (e / 2 % 64) else y)
    else d2
  if d3.on l EVC_TW_IDX.AUTOINC then d3.wrap l EVC_TW_IDX.SRC else d3
/-- A command to an EVC page: its half is there. -/
def onEvc (r : Fin 3) (f : Dev → Dev) : State → Answer :=
  onDev (fun s => if (if r.val = 2 then !s.dev.svcUp else s.ref.hs (Half.ofRegion r) = .off) then s.dev else f (s.dev.seq (rLoc r .evc)))
def execEvcTableWrite (r : Fin 3) (v : Word) : State → Answer := forwardedR r (fun r => onEvc r (fun d => d.evcWrite r v.toNat))

/-- An endpoint's command or event: its half has supply. -/
def onEndpoint (h : Half) (f : State → Dev) : State → Answer := onDev (fun s => if s.ref.hs h = .off then s.dev else f s)
/-- MSIX_MODERATION_EXPIRE (R431): the interval of a vector is over. -/
def execMsixModerationExpire (h : Half) (v : Fin 64) : State → Answer := onEndpoint h (fun s => s.dev.deliver h v)
/-- A vector is unmasked: its pending message is sent if it is still asserted. -/
def Dev.unmask (d : Dev) (h : Half) (v : Nat) : Dev :=
  let l := hLoc h .hif
  let off := 0xBF0 + 4 * (v / 32)
  let d1 := d.p l (MSIX_CTRL.MASK.ix v) 0
  if bit (d1.rd l off).toNat (v % 32) then (d1.wr l off (BitVec.ofNat 32 ((d1.rd l off).toNat - 2 ^ (v % 32)))).deliver h v else d1
/-- MSIX_UNMASK (R431). -/
def execMsixUnmask (h : Half) (v : Fin 64) : State → Answer := onEndpoint h (fun s => (s.dev.seq (hLoc h .hif)).unmask h v)
/-- A write of EVC_EOI: in-service clears and step 1 of R431 applies again. -/
def Dev.eoi (d : Dev) (h : Half) (v : Nat) : Dev :=
  ({ d with inService := SMap.set (fun _ => false) d.inService (h.n * 64 + v) false }).deliver h v
def execEoi (h : Half) (v : Fin 64) : State → Answer := forwarded h (fun h => onEndpoint h (fun s => (s.dev.seq (hLoc h .evc)).eoi h v))

/-- An event of an endpoint's page: the events of a frozen half stay as they were (R438). -/
def Dev.hifRaise (d : Dev) (r : Referee) (h : Half) (n : Nat) : Dev := if r.live h then d.raise (hLoc h .hif) n else d
/-- A Completer Abort completion is counted (R435). -/
def Dev.completerAbort (d : Dev) (r : Referee) (h : Half) : Dev := (d.sat (hLoc h .hif) HIF_ERR.CA).hifRaise r h 2
/-- HOST_READ_TIMEOUT (R435). -/
def execHostReadTimeout (h : Half) : State → Answer := onEndpoint h (fun s => s.dev.completerAbort s.ref h)
/-- HOST_LINK_UP (R432): the link trains to a speed and width. -/
def execHostLinkUp (h : Half) (speed : Fin 5) (width : Fin 5) : State → Answer :=
  onEndpoint h (fun s =>
    let l := hLoc h .hif
    if s.ref.sby h then s.dev else
    (((s.dev.p l HIF_STAT.LINKUP 1).p l HIF_STAT.SPEED speed.val).p l HIF_STAT.WIDTH width.val).hifRaise s.ref h 0)
/-- Every register of a page at its reset value, its header apart, and the same with the header. -/
def Dev.pageReset (d : Dev) (p : Nat) (header : Bool) : Dev :=
  let hit (k : Nat) : Bool := k / 0x100000 = p && (header || 0x40 ≤ k % 0x1000 || 0x1000 ≤ k % 0x100000)
  { d with regs := SMap.erase hit d.regs, shadow := SMap.erase hit d.shadow }
/-- HOST_LINK_DOWN (R435): the HIF page and the MSI-X table take their reset values, and the endpoint's mailbox session ends. -/
def execHostLinkDown (h : Half) : State → Answer :=
  onRef (fun s =>
    let l := hLoc h .hif
    if s.ref.hs h = .off then (s.ref, [], s.dev)
    else (if s.ref.session = some h then { s.ref with session := none } else s.ref, [],
      (s.dev.withLines (l / 0x100000) (fun d => d.pageReset (l / 0x100000) true)).hifRaise s.ref h 1))

end Sys2Proof.Machine
end

