-- ==== Sys2Proof/Machine/KSys.lean ====
section
/-!
DEFINITION. Kuxon branches and loops (R304–R306), system instructions and waits (R286, R307), ILLEGAL and interrupt entry,
mailboxes, watchdog and core control (R281, R287–R290).
-/
namespace Sys2Proof.Machine

open Sys2Proof

/-! ### Branches, calls and loops -/

/-- Is the condition of a Bcc met now? -/
def Kux.cond (k : Kux) (cc : Nat) : Bool := condMet cc (k.st 0) (k.st 1) (k.st 2) (k.st 3)
/-- A Bcc of `len` words (R304). -/
def Kux.branch (k : Kux) (cc len : Nat) (off : Int) : Kux :=
  let past := (k.pc + len) % 2 ^ 14
  if k.cond cc then
    { (if cc = 15 then k.setReg 15 past else k) with pc := usgn 14 ((k.pc : Int) + (len : Int) + off) }
  else k.next len
def execBcc (r : Fin 3) (c : Fin 20) (cond : Fin 16) (lim : Option (BitVec 14)) (imm : BitVec 6) : State → Answer :=
  let ws := unitOf lim (encI 0xD cond imm.toNat)
  onUnitDev r c ws (fun s => s.dev.kdone r c ((s.dev.kx r c).branch cond ws.length (brOffset lim imm)))
def execJr (r : Fin 3) (c : Fin 20) (rs : Fin 16) : State → Answer :=
  onUnitDev r c [encR 0xC 0 rs 0] (fun s =>
    let k := s.dev.kx r c
    s.dev.kdone r c { k with pc := k.reg rs % 2 ^ 14 })
def execCallr (r : Fin 3) (c : Fin 20) (rd rs : Fin 16) : State → Answer :=
  onUnitDev r c [encR 0xC rd rs 1] (fun s =>
    let k := s.dev.kx r c
    s.dev.kdone r c { k.setReg rd ((k.pc + 1) % 2 ^ 14) with pc := k.reg rs % 2 ^ 14 })
/-- LOOP of `len` words over a body of `body` + 1 words (R306). -/
def Kux.loopStart (k : Kux) (rd len body : Nat) : Kux :=
  let ls := (k.pc + len) % 2 ^ 14
  let le := (ls + body) % 2 ^ 14
  let k1 := (k.setCw 0x10 ls).setCw 0x11 le
  if k.reg rd = 0 then { k1 with pc := (le + 1) % 2 ^ 14 }
  else { (k1.setCw 0x12 (k.reg rd)).setSt 9 true with pc := ls }
def execLoop (r : Fin 3) (c : Fin 20) (rd : Fin 16) (lim : Option (BitVec 14)) (imm : BitVec 6) : State → Answer :=
  let ws := unitOf lim (encI 0xB rd imm.toNat)
  onUnitDev r c ws (fun s =>
    let k := s.dev.kx r c
    if k.st 9 then s.dev.kexc r c k 1 else s.dev.kdone r c (k.loopStart rd ws.length (loopLen lim imm)))

/-! ### System instructions -/

def execNop (r : Fin 3) (c : Fin 20) : State → Answer := onUnit r c [encI 0x0 0 0x01] id
def execReti (r : Fin 3) (c : Fin 20) : State → Answer :=
  onUnitDev r c [encI 0x0 0 0x11] (fun s =>
    let k := s.dev.kx r c
    if k.st 11 then s.dev.kdone r c k.leave else s.dev.kexc r c k 1)

/-- A wait instruction is complete: `rd` takes its result and the core goes on. -/
def Dev.kwake (d : Dev) (r c rd v : Nat) : Dev :=
  d.kdone r c (({ d.kx r c with wait := .none }.setReg rd v).next 1)
/-- A wait instruction waits: the core is in WAIT. -/
def Dev.ksleep (d : Dev) (r c : Nat) (w : KWait) : Dev :=
  (d.setKx r c { d.kx r c with wait := w, waitFrom := d.tbR r }).p (kxcL r c) KXC_STAT.STATE ksWait
/-- Take the release of the lowest occupied slot (R122), if there is one: it is open, KRROW takes its row. -/
def Dev.takeRelease (d : Dev) (r c rd : Nat) : Option Dev :=
  let h := Half.ofRegion r
  match (List.range 32).findSome? (fun x => d.slot h c x) with
  | none => none
  | some x =>
    let d1 := (d.setSlot h c x.ctx none).setOpen h c (some x)
    let d2 := d1.setKx r c (((d1.kx r c).setCw 0x24 (x.row % 2 ^ 16)).setCw 0x25 (x.row / 2 ^ 16))
    some (d2.kwake r c rd (x.ctx % 32 + b2n x.skipped * 2 ^ 5 + b2n x.first * 2 ^ 6))
/-- WAITROW (R122, R123): the open release closes; the next is taken, or the core waits. -/
def execWaitrow (r : Fin 3) (c : Fin 20) (rd : Fin 16) : State → Answer :=
  onUnitDev r c [encI 0x0 rd 0x12] (fun s =>
    if roleOf r c ≠ .beam then s.dev.kexc r c (s.dev.kx r c) 1
    else
      let d := s.dev.setOpen (Half.ofRegion r) c none
      (d.takeRelease r c rd).getD (d.ksleep r c (.row rd)))
def execWaitrowComplete (r : Fin 3) (c : Fin 20) : State → Answer :=
  onDev (fun s => if !s.coreOn r c then s.dev else
    match (s.dev.kx r c).wait with
    | .row rd => (s.dev.takeRelease r c rd).getD s.dev
    | _ => s.dev)

def execWaitangle (r : Fin 3) (c : Fin 20) (rd : Fin 16) : State → Answer :=
  onUnitDev r c [encI 0x0 rd 0x13] (fun s =>
    if roleOf r c = .service then s.dev.kexc r c (s.dev.kx r c) 1 else s.dev.ksleep r c (.angle rd))
/-- What the present broadcast gives a WAITANGLE (R286): 0 at the target, 1 for a beam in OFF or FAULT, none to wait on. -/
def Dev.angleMet (d : Dev) (r c : Nat) : Option Nat :=
  let k := d.kx r c
  let h := Half.ofRegion r
  let l := hLoc h .beam
  let b := k.cw 0x2A / 2 ^ 8 % 4
  let back := bit (k.cw 0x2A) 10
  let x := d.beam h b
  let t : Nat := k.cw 0x2A % 2 ^ 8 * 2 ^ 32 + k.cw 0x28 + k.cw 0x29 * 2 ^ 16
  let p : Nat := d.g l (BEAM_REV.REV.ix b) % 2 ^ 8 * 2 ^ 32 + d.g l (BEAM_ANGLE.ANGLE.ix b)
  let diff := if back then (t : Int) - (p : Int) else (p : Int) - (t : Int)
  if x.bState = .off ∨ x.bState = .fault then some 1
  else if x.bState = .synced ∧ !x.bInHyst ∧ x.bDir = back ∧ 0 ≤ sgn 40 (usgn 40 diff) then some 0 else none
def execWaitangleComplete (r : Fin 3) (c : Fin 20) : State → Answer :=
  onDev (fun s => if !s.coreOn r c then s.dev else
    match (s.dev.kx r c).wait, s.dev.angleMet r c with
    | .angle rd, some v => s.dev.kwake r c rd v
    | _, _ => s.dev)

/-- A line of the mask is pending (R286): its number goes to `rd`; its KIP bit clears. -/
def Dev.takeEvt (d : Dev) (r c rd mask : Nat) : Option Dev :=
  match d.evtLine r c mask with
  | none => none
  | some i => some ((if i < 14 then d.kipAck r c (2 ^ i) else d).kwake r c rd i)
def execWaitevt (r : Fin 3) (c : Fin 20) (rd rs : Fin 16) : State → Answer :=
  onUnitDev r c [encR 0xC rd rs 2] (fun s =>
    let mask := (s.dev.kx r c).reg rs
    (s.dev.takeEvt r c rd mask).getD (s.dev.ksleep r c (.evt rd mask)))
def execWaitevtComplete (r : Fin 3) (c : Fin 20) : State → Answer :=
  onDev (fun s => if !s.coreOn r c then s.dev else
    match (s.dev.kx r c).wait with
    | .evt rd mask => (s.dev.takeEvt r c rd mask).getD s.dev
    | _ => s.dev)
/-- WAIT_TIMEOUT (R286): KWTMO ticks, not 0, have passed since the wait began. -/
def execWaitTimeout (r : Fin 3) (c : Fin 20) : State → Answer :=
  onDev (fun s => if !s.coreOn r c then s.dev else
    let k := s.dev.kx r c
    let tmo := k.cw 0x2C + k.cw 0x2D * 2 ^ 16
    if tmo = 0 ∨ s.dev.tbR r < k.waitFrom + tmo then s.dev
    else match k.wait with
    | .row rd => s.dev.kwake r c rd 0x8000
    | .angle rd => s.dev.kwake r c rd 0x8000
    | .evt rd _ => s.dev.kwake r c rd 0x8000
    | _ => s.dev)

/-! ### ILLEGAL and interrupts -/

/-- The words of the unit at the PC (R292, R309): a LIMM prefix makes three, REP two. -/
def Dev.unitLen (d : Dev) (r c : Nat) : Nat :=
  let w := d.pm r c (d.kx r c).pc
  if w = 0x3800 then 3 else if w = encI 0x0 0 0x10 then 2 else 1
/-- The first word of the unit at the PC that is uncorrectable; after an uncorrectable first word nothing says how long the unit is. -/
def Dev.unitUe (d : Dev) (r c : Nat) : Option Nat := if d.pmUe r c 0 then some 0 else (List.range (d.unitLen r c)).find? (fun i => d.pmUe r c i)
/-- ILLEGAL (R293): the unit at the PC is one of the listed cases. -/
def execIllegal (r : Fin 3) (c : Fin 20) : State → Answer :=
  onDev (fun s =>
    let d := s.dev
    let k := d.kx r c
    if !s.kready r c then d
    else match d.unitUe r c with
      | some i => s.pmemUe r c i
      | none => if unitLegal (d.pm r c) k.pc (roleOf r c) (d.decEntry r) (k.st 11) (k.st 9) then d else d.kexc r c k 1)
/-- A core takes line `i` as an interrupt (R283). -/
def Dev.ktake (d : Dev) (r c i : Nat) : Dev := (d.setKx r c ((d.kx r c).abandon.enter i)).p (kxcL r c) KXC_STAT.STATE ksRun
/-- INTERRUPT_ENTRY (R282–R284): the lowest enabled pending line is taken; an instruction that waits is given up and KEPC
addresses it. -/
def execInterruptEntry (r : Fin 3) (c : Fin 20) : State → Answer :=
  onDev (fun s =>
    let d := s.dev
    if !(s.coreOn r c && d.krunning r c) then d
    else match d.kdue r c with
    | none => d
    | some i => d.ktake r c i)

/-! ### Accesses to the control space that the table names -/

/-- The control-space accesses of a core that runs, taken alone. -/
def onCtl (r : Fin 3) (c : Fin 20) (f : Dev → Dev) : State → Answer :=
  onDev (fun s => if s.coreOn r c then f s.dev else s.dev)
def execKtbLoad (r : Fin 3) (c : Fin 20) : State → Answer :=
  onCtl r c (fun d => let x := d.ctlRead r c 0x20; { x.2 with readData := BitVec.ofNat 32 x.1 })
def execMailboxSend (r : Fin 3) (c : Fin 20) (v : BitVec 16) : State → Answer := onCtl r c (fun d => d.ctlWrite r c 0x41 v.toNat)
def execMailboxPop (r : Fin 3) (c : Fin 20) : State → Answer :=
  onCtl r c (fun d => let x := d.ctlRead r c 0x42; { x.2 with readData := BitVec.ofNat 32 x.1 })
def execHostMailboxPush (r : Fin 3) (c : Fin 20) (v : BitVec 16) : State → Answer := onCtl r c (fun d => d.ctlWrite r c 0x45 v.toNat)
def execHostMailboxPop (r : Fin 3) (c : Fin 20) : State → Answer :=
  onCtl r c (fun d => let x := d.ctlRead r c 0x44; { x.2 with readData := BitVec.ofNat 32 x.1 })
def execKwdogReload (r : Fin 3) (c : Fin 20) (v : BitVec 16) : State → Answer := onCtl r c (fun d => d.ctlWrite r c 0x48 v.toNat)
/-- KPIN_XOR (R455): the store of a service core. -/
def execKpinXor (c : Fin 8) (v : BitVec 16) : State → Answer :=
  onCtl 2 ⟨c.val, by omega⟩ (fun d => d.ctlWrite 2 c.val 0x53 v.toNat)

/-- MAILBOX_DELIVER (R287): the oldest word on its way from one core to another reaches the mailbox or is dropped. -/
def execMailboxDeliver (r : Fin 3) (c : Fin 20) (tr : Fin 3) (tc : Fin 32) : State → Answer :=
  onDev (fun s =>
    let d := s.dev
    match d.mboxes.find? (fun w => w.region = r.val && w.core = c.val && w.toRegion = tr.val && w.toCore = tc.val) with
    | none => d
    | some w =>
      let d1 := { d with mboxes := d.mboxes.erase w }
      let k := d1.kx tr tc
      if s.kxcOn tr tc ∧ k.mbin.length < 8 then
        d1.setKx tr tc { k with mbin := k.mbin ++ [w.word] }
      else d1.setKx r c { d1.kx r c with drop := true })

/-! ### Core control (R281, R288–R290) -/

/-- A write to a KXC page. -/
def onKxc (r : Fin 3) (c : Fin 20) (f : Dev → Dev) : State → Answer :=
  onDev (fun s => if s.kxcOn r c then f (s.dev.seq (kxcL r c)) else s.dev)

/-- A stopped core starts at KXC_PC (R281). -/
def Dev.kstart (d : Dev) (r c : Nat) (step : Bool) : Dev :=
  let st := d.kstate r c
  let k := { d.kx r c with pc := d.g (kxcL r c) KXC_PC.PC, stepping := step, wdogFrom := d.tbR r }
  let k1 := if st = ksDouble ∨ st = ksWdog then { (k.setSt 11 false).setSt 8 false with wdogRan := 0 } else k
  (d.setKx r c k1).p (kxcL r c) KXC_STAT.STATE ksRun
/-- KXC_CTL.RUN. -/
def Dev.kxcRun (d : Dev) (r c : Nat) : Dev := if d.krunning r c then d else d.kstart r c false
/-- KXC_CTL.HALT. -/
def Dev.kxcHalt (d : Dev) (r c : Nat) : Dev := if d.krunning r c then d.khalt r c else d
/-- KXC_CTL.STEP: one instruction, then halt. -/
def Dev.kxcStep (d : Dev) (r c : Nat) : Dev :=
  if d.krunning r c then d.setKx r c { d.kx r c with stepping := true } else d.kstart r c true
/-- KXC_CTL.CRESET: registers and control space at their reset values; the core is in RESET. -/
def Dev.kxcReset (d : Dev) (r c : Nat) : Dev :=
  ({ d.setKx r c {} with kip := SMap.set (fun _ => 0) d.kip (r * 32 + c) 0 }).p (kxcL r c) KXC_STAT.STATE ksReset
/-- A write of KXC_CTL: its commands act in the order CRESET, HALT, RUN, STEP. -/
def Dev.kxcCtl (d : Dev) (r c v : Nat) : Dev :=
  let d1 := if bit v 3 then d.kxcReset r c else d
  let d2 := if bit v 1 then d1.kxcHalt r c else d1
  let d3 := if bit v 0 then d2.kxcRun r c else d2
  if bit v 2 then d3.kxcStep r c else d3
def execKxcRun (r : Fin 3) (c : Fin 20) : State → Answer := forwardedR r (fun r => onKxc r c (fun d => d.kxcCtl r c 1))
def execKxcHalt (r : Fin 3) (c : Fin 20) : State → Answer := forwardedR r (fun r => onKxc r c (fun d => d.kxcCtl r c 2))
def execKxcStep (r : Fin 3) (c : Fin 20) : State → Answer := forwardedR r (fun r => onKxc r c (fun d => d.kxcCtl r c 4))
def execCreset (r : Fin 3) (c : Fin 20) : State → Answer := forwardedR r (fun r => onKxc r c (fun d => d.kxcCtl r c 8))

def execKxcHmbinWrite (r : Fin 3) (c : Fin 20) (v : Word) : State → Answer := forwardedR r (fun r => onKxc r c (fun d => d.hmbIn r c (v.toNat % 65536)))
def execKxcHmboutRead (r : Fin 3) (c : Fin 20) : State → Answer :=
  onDev (fun s => if s.kxcOn r c then let x := s.dev.hmbOut r c; { x.2 with readData := BitVec.ofNat 32 x.1 } else s.dev)

/-- WATCHDOG_EXPIRE (R289): PERIOD microseconds have passed without a valid KWDOG write; a beam or link core reports WDOG. -/
def execWatchdogExpire (r : Fin 3) (c : Fin 20) : State → Answer :=
  onDev (fun s =>
    let d := s.dev
    let k := d.kx r c
    let period := d.g (kxcL r c) KXC_WDOG.PERIOD
    if !s.coreOn r c ∨ period = 0 ∨ !(d.krunning r c || d.kstate r c = ksDouble) ∨ k.wdogRan + (d.tbR r - k.wdogFrom) < 100 * period then d
    else
      let d1 := (d.kstop r c ksWdog).raise (kxcL r c) 1
      if r.val = 2 then d1
      else
        let h := Half.ofRegion r
        let d2 := d1.reportP h 0x05 c (kxcL r c)
        { d2 with seals := SMap.modify (fun _ => ({} : SealUnit)) d2.seals h.n (fun u => { u with wdog := true }) })

/-- A write of KXC_PMW_DATA (R281). -/
def Dev.pmWrite (d : Dev) (r c v : Nat) : Dev :=
  let l := kxcL r c
  if d.krunning r c then d.raise l 2
  else
    let i := d.g l KXC_PMW_IDX.IDX
    let d1 := { d with
      pmem := SMap.set (fun _ => 0) d.pmem ((r * 32 + c) * 16384 + i) (v % 2 ^ 14)
      ueWords := d.ueWords.filter (fun u => u ≠ (pageOf r .kxc c, 1, i)) }
    if d1.on l KXC_PMW_IDX.AUTOINC then d1.wrap l KXC_PMW_IDX.IDX else d1
def execPmwWrite (r : Fin 3) (c : Fin 20) (v : Word) : State → Answer := forwardedR r (fun r => onKxc r c (fun d => d.pmWrite r c v.toNat))

end Sys2Proof.Machine
end

