-- ==== Sys2Proof/Machine/KUcs.lean ====
section
/-!
DEFINITION. The control store (chapter 12): microwords (Tables 12.2–12.4), the custom sequencer behind CUST (R317–R319), the
loader's writes (R314), its checks (Table 12.5), and a fetch with an uncorrectable error (R315).
-/
namespace Sys2Proof.Machine

open Sys2Proof

/-- The word a sequencer fetches: one of its own partition, first word `lo` and size `n`, which an address counts modulo its size (R312, Table 12.1;
notes/assumptions/111.md). -/
def inPart (lo n w : Nat) : Nat := lo + w % n
/-- The custom partition of a region. -/
def customWord (r w : Nat) : Nat := if r = 2 then inPart 0 0x800 w else inPart 0xC00 0x400 w

/-- Bits `hi` to `lo` of a microword. -/
def mfield (w hi lo : Nat) : Nat := w / 2 ^ lo % 2 ^ (hi + 1 - lo)

/-- What a routine works on: private registers, MDR, the flags of the previous word's result, micro-stack, next word, the
core, memory as it stands, the stores made (newest first), accesses refused (R318), system addresses of stores that an uncorrectable word did
not take (R331), words issued. -/
structure Micro where
  u : SMap Nat := []
  mdr : Nat := 0
  z : Bool := false
  n : Bool := false
  c : Bool := false
  v : Bool := false
  stack : List Nat := []
  pc : Nat
  k : Kux
  m : Mem
  ops : List MemOp := []
  maddr : Nat := 0
  lost : List Nat := []
  count : Nat := 0
deriving DecidableEq, Repr

/-- How the operand bits of the CUST unit read (Table 11.14): form, registers, modifier, X. -/
structure CustOps where
  ra : Nat
  rb : Nat
  mod : Nat
  xv : Nat
deriving DecidableEq, Repr
/-- Table 11.14. -/
def custOps (form : Nat) (lim : Option (BitVec 14)) (f : BitVec 6) : CustOps :=
  match form with
  | 0 => ⟨f.toNat / 8, f.toNat % 8, 0, 0⟩
  | 1 => ⟨f.toNat / 4, 0, f.toNat % 4, 0⟩
  | _ => ⟨0, 0, 0, match lim with | none => f.toNat | some l => limX l f % 65536⟩

/-- A register code as a source (Table 12.4). -/
def Micro.src (x : Micro) (o : CustOps) (imm code : Nat) : Nat :=
  match code with
  | 0x10 => x.k.reg o.ra
  | 0x11 => x.k.reg o.rb
  | 0x12 => imm
  | 0x13 => o.xv
  | 0x14 => o.mod
  | 0x15 => x.mdr
  | 0x16 => x.k.reg 12
  | 0x17 => x.k.reg 13
  | 0x18 => x.k.reg 14
  | _ => if code < 16 then SMap.get (fun _ => 0) x.u code else 0
/-- A register code as a destination (Table 12.4). -/
def Micro.dst (x : Micro) (o : CustOps) (code v : Nat) : Micro :=
  match code with
  | 0x10 => { x with k := x.k.setReg o.ra v }
  | 0x11 => { x with k := x.k.setReg o.rb v }
  | 0x16 => { x with k := x.k.setReg 12 v }
  | 0x17 => { x with k := x.k.setReg 13 v }
  | 0x18 => { x with k := x.k.setReg 14 v }
  | _ => if code < 16 then { x with u := SMap.set (fun _ => 0) x.u code (v % 65536) } else x
/-- The ALU operations of Table 12.3: result and flags; C and V are 0 but for ADD and SUB. -/
def microAlu (op a b imm : Nat) : Alu :=
  let plain (r : Nat) : Alu := { Alu.logic r with c := some false, v := some false }
  match op with
  | 1 => Alu.add a b 0
  | 2 => Alu.sub a b 0
  | 3 => plain (a &&& b)
  | 4 => plain (a ||| b)
  | 5 => plain (a ^^^ b)
  | 6 => plain (Shift.run .shl a (b % 32)).1
  | 7 => plain (Shift.run .shr a (b % 32)).1
  | 8 => plain (Shift.run .sar a (b % 32)).1
  | 9 => plain (Shift.run .ror a (b % 32)).1
  | 10 => plain (a ||| b * 2 ^ (imm % 16) % 65536)
  | _ => plain a
/-- The conditions of Table 12.3. -/
def Micro.cond (x : Micro) (code : Nat) : Bool :=
  match code with
  | 1 => x.z
  | 2 => x.n
  | 3 => x.c
  | 4 => x.v
  | 5 => x.k.reg 14 = 0
  | 6 => x.mdr = 0
  | _ => true

/-- How a routine ends: its END word, a safe point with something due, an uncorrectable data word at an address, an
uncorrectable microword. -/
inductive MEnd where
  | done | safe
  | dmem (a : Nat)
  | fetch (w : Nat)
deriving DecidableEq, Repr

/-- One microword (R317): sources, ALU, memory, destination and flags, MINC, next address. `ram` is the base of local RAM,
`bad` says which bytes are uncorrectable. -/
def Micro.word (x : Micro) (o : CustOps) (ram : Nat) (bad : Nat → Bool) (w : Nat) : Micro × Option MEnd :=
  let imm := mfield w 71 56
  let alu := microAlu (mfield w 27 24) (x.src o imm (mfield w 32 28)) (x.src o imm (mfield w 37 33)) imm
  let r := alu.res.getD 0
  let met := x.cond (mfield w 20 16) != bit w 21
  let madr := mfield w 53 49
  let at_ := x.src o imm madr
  let mem := mfield w 48 47
  let sys := ram + 2 * at_
  if mem = 1 ∧ at_ < 0x8000 ∧ bad sys then (x, some (.dmem sys))
  else
    let y := if mem = 0 then x
      else if 0x8000 ≤ at_ then { x with maddr := x.maddr + 1, mdr := if mem = 1 then 0 else x.mdr }
      else if mem = 1 then { x with mdr := x.m.read sys 2 }
      else if bad sys then { x with lost := x.lost ++ [sys] }
      else { x with m := x.m.applyAll (storeN sys r 2), ops := (storeN sys r 2).reverse ++ x.ops }
    let y1 := y.dst o (mfield w 42 38) r
    let fl (i : Nat) (v : Option Bool) : Option Bool := if bit w (43 + i) then v else none
    let y2 := { y1 with
      k := (((y1.k.setOpt 0 (fl 0 alu.z)).setOpt 1 (fl 1 alu.n)).setOpt 2 (fl 2 alu.c)).setOpt 3 (fl 3 alu.v)
      z := alu.z.getD false, n := alu.n.getD false, c := alu.c.getD false, v := alu.v.getD false, count := x.count + 1 }
    let y3 := if bit w 54 then y2.dst o madr (y2.src o imm madr + 1) else y2
    let tgt := mfield w 15 4
    match mfield w 3 0 with
    | 1 => ({ y3 with pc := tgt }, none)
    | 2 => ({ y3 with pc := if met then tgt else x.pc + 1 }, none)
    | 3 => ({ y3 with pc := tgt, stack := (x.pc + 1) :: x.stack }, none)
    | 4 => ({ y3 with pc := x.stack.headD 0, stack := x.stack.drop 1 }, none)
    | 5 => (y3, some .done)
    | _ => ({ y3 with pc := x.pc + 1 }, none)

/-- A routine until it ends, or reaches a safe point when at least `due` words have issued (R319). -/
def Micro.run (ucs : Nat → Nat) (badWord : Nat → Bool) (o : CustOps) (ram : Nat) (bad : Nat → Bool) (due : Nat) : Nat → Micro → Micro × MEnd
  | 0, x => (x, .safe)
  | fuel + 1, x =>
    if badWord x.pc then (x, .fetch x.pc)
    else
      match x.word o ram bad (ucs x.pc) with
      | (y, some e) => (y, e)
      | (y, none) => if bit (ucs x.pc) 22 ∧ due ≤ y.count then (y, .safe) else Micro.run ucs badWord o ram bad due fuel y

/-- Is a word of a region's control store uncorrectable (two ECC words to a microword)? -/
def Dev.ucsUe (d : Dev) (r w : Nat) : Bool :=
  d.ueWords.contains (pageOf r .ucs 0, 0, 2 * w) || d.ueWords.contains (pageOf r .ucs 0, 0, 2 * w + 1)
/-- A fetch with an uncorrectable error (R315): counted, UE_FETCH raised, UE_PRIV reported by a half. -/
def Dev.ueFetch (d : Dev) (by_ : Half) (r w : Nat) : Dev :=
  (d.eccUe by_ (pageOf r .ucs 0) 0 (2 * w) true).raise (ucsL r) 4

/-- CUST (R311, R316–R319): the routine of the decode entry runs; `due` is after how many microwords an interrupt or a halt
becomes due, 0 where one is due already or a STEP is in progress. -/
def cust (r c sel : Nat) (lim : Option (BitVec 14)) (f : BitVec 6) (due : Nat) (s : State) : List MemOp × Dev :=
  let d := s.dev
  let k := d.kx r c
  let e := d.decEntry r sel
  let form := e / 2 ^ 12 % 4
  if !bit e 15 ∨ form = 3 ∨ (lim.isSome ∧ form ≠ 2) then ([], d.kexc r c k 1)
  else
    let due1 := if k.stepping ∨ (d.kdue r c).isSome then 0 else due
    let x := Micro.run (fun w => d.ucsWord r (customWord r w)) (fun w => d.ucsUe r (customWord r w)) (custOps form lim f) (kramBase r c) d.byteUe due1 (due1 + 64)
      { pc := e % 4096, k := k, m := s.mem }
    let word (a : Nat) : Nat := (a - kramBase r c) / 8
    let d0 := x.1.lost.foldl (fun y a => y.eccUe (s.scrubOf r) (pageOf r .kxc c) 0 (word a) false) d
    let d1 := if x.1.maddr = 0 then d0 else (d0.sat (ucsL r) UCS_ERR.MADDR x.1.maddr).raise (ucsL r) 3
    (x.1.ops.reverse, match x.2 with
      | .done => d1.kdone r c (x.1.k.next (if lim.isSome then 3 else 1))
      | .safe => (d1.sat (ucsL r) UCS_ERR.ABANDON).kdone r c x.1.k
      | .dmem a => (d1.eccUe (s.scrubOf r) (pageOf r .kxc c) 0 (word a) false).kexc r c x.1.k 4
      | .fetch w => (d1.ueFetch (s.scrubOf r) r (customWord r w)).kexc r c x.1.k 5)
def execCust (r : Fin 3) (c : Fin 20) (sel : Fin 16) (lim : Option (BitVec 14)) (f : BitVec 6) (due : Nat) : State → Answer :=
  onMem (issueMem r c (unitOf lim (encI 0xF sel f.toNat)) (cust r c sel lim f due))

/-- UE_FETCH (R315): a sequencer fetches an uncorrectable word: a render sequencer (0–7), a Loupe sequencer (8, 9), or the
custom sequencer of a core (10 + core), whose core stands at a CUST unit. The word is one of the sequencer's partition. -/
def execUeFetch (r : Fin 3) (who : Fin 30) (w : BitVec 12) : State → Answer :=
  onDev (fun s =>
    let h := Half.ofRegion r
    if (r.val < 2 ∧ !s.ref.live h) ∨ (r.val = 2 ∧ who.val < 10) then s.dev
    else if who.val < 8 then
      (let d := s.dev.ueFetch h r (inPart 0 0x800 w.toNat)
       if (s.dev.eng h who).cur.isSome then d.dropRender h who
       else if (s.dev.eng h who).lcur.isSome then d.loupeAbandon h who else s.dev)
    else if who.val < 10 then
      (s.dev.ueFetch h r (inPart 0x800 0x400 w.toNat)).loupeUe h (who.val - 8)
    else
      let c := who.val - 10
      let k := s.dev.kx r c
      let i := if s.dev.pm r c k.pc = 0x3800 then s.dev.pm r c (k.pc + 2) else s.dev.pm r c k.pc
      if s.kready r c ∧ i / 0x400 = 0xF then (s.dev.ueFetch (s.scrubOf r) r (customWord r w.toNat)).kexc r c k 5 else s.dev)

/-! ### The loader (R314, R320) -/

/-- May this master write the region's store now (R314)? -/
def State.loading (s : State) (m : Master) (r : Nat) : Bool :=
  m = .core 2 0 && (if r = 2 then s.dev.svcLoading else s.ref.hs (Half.ofRegion r) = .init)
/-- A write to UCS_WIN_Dk or UCS_DECk. -/
def ucsWrite (s : State) (m : Master) (r : Nat) (dec : Bool) (i : Nat) (v : Word) : Dev :=
  let d := s.dev
  let l := ucsL r
  if !s.loading m r then d.raise l 2
  else if dec then d.wr l (UCS_DEC.ENTRY.ix i).off (maskPut 0xFFFF v 0)
  else
    let d1 := d.wr l (UCS_WIN_D.DATA.ix (i % 4)).off v
    if i % 4 ≠ 3 then d1
    else
      let w := d1.g l UCS_WIN_IDX.IDX
      let d2 := if ucsSize r ≤ w then d1 else { d1 with
        ucs := SMap.set (fun _ => 0) d1.ucs (r * 4096 + w)
          ((List.range 4).foldl (fun a j => a + (d1.rd l (UCS_WIN_D.DATA.ix j).off).toNat * 2 ^ (32 * j)) 0)
        ueWords := d1.ueWords.filter (fun u => u ≠ (pageOf r .ucs 0, 0, 2 * w) ∧ u ≠ (pageOf r .ucs 0, 0, 2 * w + 1)) }
      if d2.on l UCS_WIN_IDX.AUTOINC then d2.wrap l UCS_WIN_IDX.IDX else d2
def execUcsWindowWrite (m : Master) (r : Fin 3) (dec : Bool) (i : Fin 16) (v : Word) : State → Answer :=
  onDev (fun s => ucsWrite { s with dev := s.dev.seq (ucsL r) } m r dec i v)

end Sys2Proof.Machine
end

