-- ==== Sys2Proof/Machine/Nvh.lean ====
section
/-!
DEFINITION. The NVMe host block of a half (chapter 14): mounting, the map operations, paging ahead, page arrivals, timeouts
and controller resets, the defect log and the firmware queues. What the drive answers is an operand of the command it answers.
-/
namespace Sys2Proof.Machine

open Sys2Proof

/-- The NVH of a half. -/
def Dev.nvh (d : Dev) (h : Half) : Nvh := SMap.get (fun _ => {}) d.nvhs h.n
def Dev.modNvh (d : Dev) (h : Half) (f : Nvh → Nvh) : Dev := { d with nvhs := SMap.modify (fun _ => ({} : Nvh)) d.nvhs h.n f }
/-- The NVH page of a half. -/
def nvhL (h : Half) : Loc := hLoc h .nvh
/-- Is the supply of a half below its warning level (R474)? -/
def Dev.warned (d : Dev) (h : Half) : Bool := bit (d.g (sLoc .pwr) PWR_STAT.WARN) h.n

/-- The bytes of a list as a little-endian number. -/
def ofBytes : List Byte → Nat
  | [] => 0
  | b :: bs => b.toNat + 256 * ofBytes bs
/-- `n` bytes of a block from offset `o`, as a number. -/
def blockAt (b : List Byte) (o n : Nat) : Nat := ofBytes ((b.drop o).take n)

/-! ### Page table entries (Table 14.5) -/

def pteMapped (e : Nat) : Bool := bit e 64
def pteState (e : Nat) : Nat := e / 2 ^ 65 % 4
def pteWith (e st : Nat) : Nat := e - pteState e * 2 ^ 65 + st * 2 ^ 65
/-- The NVH of a half writes DRAM, forwarded to a half that rejoins (R221). -/
def Dev.nvhStore (x : List MemOp × Dev) (r : Referee) (h : Half) (a : Nat) (bs : List Byte) : List MemOp × Dev :=
  let y := storeMem r x.2 h (h.n + 1) a bs
  (x.1 ++ y.1, y.2)
/-- Write an entry: the NVH's own copy and the table in DRAM. -/
def Dev.setPte (x : List MemOp × Dev) (r : Referee) (h : Half) (g e : Nat) : List MemOp × Dev :=
  if x.2.pages h ≤ g then x
  else
    let y := Dev.nvhStore x r h (x.2.pteAddr h g) (toBytes e 16)
    (y.1, { y.2 with ptab := SMap.set (fun _ => 0) y.2.ptab (h.n * 2 ^ 20 + g) e })

/-! ### Mounting (R344, R352) -/

/-- Is a header copy valid? -/
def hdrValid (capacity : Nat) (b : List Byte) : Bool :=
  b.length = 4096 && blockAt b 0 4 = 0x50564C54 && blockAt b 4 4 = 1 && blockAt b 0xFFC 4 = crc32 (b.take 0xFFC)
    && blockAt b 0x18 4 ≤ min capacity (2 ^ 31)
/-- The copy a mount takes: the valid one with the higher SEQ, LBA 0 when both are equal. -/
def hdrPick (capacity : Nat) (b0 b1 : List Byte) : Option (Nat × List Byte) :=
  let v0 := hdrValid capacity b0
  let v1 := hdrValid capacity b1
  if v0 && (!v1 || blockAt b1 0x10 8 ≤ blockAt b0 0x10 8) then some (0, b0) else if v1 then some (1, b1) else none
/-- The volume is mounted from the copies read at LBA 0 and LBA 1, or the mount fails. Answers whether it mounted. -/
def Dev.mount (d : Dev) (h : Half) (capacity : Nat) (b0 b1 : List Byte) : Bool × Dev :=
  let l := nvhL h
  match hdrPick capacity b0 b1 with
  | none => (false, (d.p l NVH_STAT.MOUNTED 0).raise l 1)
  | some (slot, b) =>
    let d1 := ((((d.p l NVH_STAT.MOUNTED 1).p l NVH_STAT.SLOT slot).p64 l NVH_VOLID_LO.VOLID NVH_VOLID_HI.VOLID (blockAt b 8 8)).p l
      NVH_VOLSEQ.SEQ (blockAt b 0x10 4)).modNvh h (fun x => { x with
        cap := blockAt b 0x18 4, volSeq := blockAt b 0x10 8, logLba := blockAt b 0x24 4, logBlocks := blockAt b 0x28 4 })
    (true, d1.raise l 0)
/-- At a mount in paired operation the halves exchange VOLID and SEQ (R352). -/
def Dev.volDiff (d : Dev) (r : Referee) (h : Half) : Dev :=
  let l := nvhL h
  let q := nvhL h.peer
  if r.split ∨ !d.on q NVH_STAT.MOUNTED then d
  else
    let differ := d.g64 l NVH_VOLID_LO.VOLID NVH_VOLID_HI.VOLID ≠ d.g64 q NVH_VOLID_LO.VOLID NVH_VOLID_HI.VOLID
      ∨ (d.nvh h).volSeq ≠ (d.nvh h.peer).volSeq
    let put (x : Dev) (y : Loc) : Dev := let z := x.p y NVH_STAT.PEERDIFF (b2n differ); if differ then z.raise y 2 else z
    put (put d l) q
/-- DRIVE_MOUNT: the drive is initialised (`ok` when it is a controller with blocks of 4 KiB) and the volume mounted. -/
def execDriveMount (h : Half) (ok : Bool) (capacity : BitVec 32) (b0 b1 : List Byte) : State → Answer :=
  onBlock h (nvhL h) (fun s =>
    let l := nvhL h
    let d := s.dev
    if !d.on l NVH_CFG.EN then d
    else if !ok then ((d.p l NVH_STAT.DRIVE 3).p l NVH_STAT.MOUNTED 0).raise l 1
    else
      let x := (d.p l NVH_STAT.DRIVE 2).mount h capacity.toNat b0 b1
      if x.1 then x.2.volDiff s.ref h else x.2)

/-! ### Map operations (R348) -/

/-- An operation completes with a result. -/
def Dev.mapDone (x : List MemOp × Dev) (h : Half) (result : Nat) : List MemOp × Dev :=
  (x.1, (((x.2.p (nvhL h) NVH_STAT.MAPRESULT result).p (nvhL h) NVH_STAT.MAPBUSY 0).modNvh h (fun y => { y with mapOp := 0 })).raise (nvhL h) 3)
/-- A write of NVH_MAPCMD: taken, or dropped with MAP_REJ while an operation runs. -/
def Dev.mapWrite (d : Dev) (h : Half) (op : Nat) : Dev :=
  let l := nvhL h
  if d.on l NVH_STAT.MAPBUSY then d.raise l 4 else (d.p l NVH_STAT.MAPBUSY 1).modNvh h (fun y => { y with mapOp := op })
/-- A map operation executes: the one written before, or one whose write arrives now. While the block's clock is gated its register
takes the write and nothing executes (R481). -/
def onMap (h : Half) (op : Nat → Bool) (n : Nat) (f : State → Dev → List MemOp × Dev) : State → Answer :=
  onMem (fun s =>
    let d := s.dev
    if !s.ref.live h then ([], d)
    else if !d.clocked (nvhL h) then ([], if d.on (nvhL h) NVH_STAT.MAPBUSY then d else (d.seq (nvhL h)).mapWrite h n)
    else if d.on (nvhL h) NVH_STAT.MAPBUSY then (if op (d.nvh h).mapOp then f s d else ([], (d.seq (nvhL h)).mapWrite h n))
    else f s ((d.seq (nvhL h)).mapWrite h n))

/-- Queue a load (R350): an earlier deadline wins where the page is queued already; a full queue counts DROP. -/
def Dev.queueLoad (d : Dev) (h : Half) (g t : Nat) : Dev :=
  let x := d.nvh h
  if x.loads.any (fun e => e.1 = g) then d.modNvh h (fun y => { y with loads := y.loads.map (fun e => if e.1 = g then (g, min e.2 t) else e) })
  else if x.loads.length < 4096 then d.modNvh h (fun y => { y with loads := y.loads ++ [(g, t)] })
  else d.sat (nvhL h) NVH_CPA.DROP

/-- One extent (R345): first block, blocks, first block in the object. -/
structure Extent where
  lba : Nat
  blocks : Nat
  obj : Nat
deriving DecidableEq, Repr
/-- The extents of a list read from the drive. -/
def extentsOf (b : List Byte) (n : Nat) : List Extent :=
  (List.range n).map (fun i => ⟨blockAt b (16 * i) 4, blockAt b (16 * i + 4) 4, blockAt b (16 * i + 8) 4⟩)
/-- Do `n` bytes from a block on lie in the blocks that may be used (R342)? -/
def Dev.inCap (d : Dev) (h : Half) (lba n : Nat) : Bool := lba + (n + 4095) / 4096 ≤ (d.nvh h).cap
/-- The result of a MAP (Table 14.8) and, for 0, the pages' entries. `ent` is the directory entry found for OBJID, `ext` the
extent list, `chk` the check array, none where its read failed; blocks beyond the capacity cannot be read (R342). -/
def mapCheck (d : Dev) (m : Mem) (h : Half) (ent ext : List Byte) (chk : Option (List Word)) : Nat × List Nat :=
  let l := nvhL h
  let obj := d.g l NVH_MAPOBJ.OBJID
  let dst := d.g l NVH_MAPDST.PAGE
  let type := blockAt ent 4 1
  let n := (blockAt ent 8 8 + 65535) / 65536
  let xs := extentsOf ext (blockAt ent 0x14 4)
  let inside (p : Nat) : List Extent := xs.filter (fun x => x.obj ≤ 16 * p && 16 * p < x.obj + x.blocks)
  if !d.on l NVH_STAT.MOUNTED then (1, [])
  else if ent.length ≠ 64 ∨ obj = 0 ∨ blockAt ent 0 4 ≠ obj ∨ blockAt ent 0x3C 4 ≠ crc32 (ent.take 0x3C) ∨ type = 0 ∨ (9 ≤ type ∧ type < 0x80) then (2, [])
  else if !d.inCap h (blockAt ent 0x10 4) (16 * blockAt ent 0x14 4) ∨ !d.inCap h (blockAt ent 0x18 4) (4 * n) then (6, [])
  else if ext.length ≠ 16 * blockAt ent 0x14 4 ∨ blockAt ent 0x1C 4 ≠ crc32 ext ∨ chk.all (fun c => c.length < n) then (6, [])
  else if xs.any (fun x => x.lba % 16 ≠ 0 || x.blocks % 16 ≠ 0 || x.obj % 16 ≠ 0) ∨ (List.range n).any (fun p => (inside p).length ≠ 1) then (5, [])
  else if d.pages h < dst + n then (4, [])
  else if (List.range n).any (fun p => pteMapped (d.pte m h (dst + p))) then (3, [])
  else (0, (List.range n).map (fun p =>
    let x := (inside p).headD ⟨0, 0, 0⟩
    (x.lba + (16 * p - x.obj)) % 2 ^ 32 + ((chk.getD []).getD p 0).toNat * 2 ^ 32 + 2 ^ 64 + obj * 2 ^ 96))
/-- MAP (Table 14.6). -/
def execMap (h : Half) (ent ext : List Byte) (chk : Option (List Word)) : State → Answer :=
  onMap h (fun o => o = 1) 1 (fun s d =>
    let x := mapCheck d s.mem h ent ext chk
    let dst := d.g (nvhL h) NVH_MAPDST.PAGE
    Dev.mapDone (x.2.zipIdx.foldl (fun y e => Dev.setPte y s.ref h (dst + e.2) e.1) ([], d)) h x.1)

/-- A map operation over the pages MAPDST to MAPDST + MAPCNT − 1, refused with RANGE beyond populated DRAM. -/
def Dev.mapRange (d : Dev) (h : Half) (f : List MemOp × Dev → Nat → List MemOp × Dev) : List MemOp × Dev :=
  let dst := d.g (nvhL h) NVH_MAPDST.PAGE
  let n := d.g (nvhL h) NVH_MAPCNT.COUNT
  if d.pages h < dst + n then Dev.mapDone ([], d) h 4
  else Dev.mapDone ((List.range n).foldl (fun x i => f x (dst + i)) ([], d)) h 0
/-- Discard the loads of a page, queued and in progress. -/
def Dev.discard (d : Dev) (h : Half) (g : Nat) : Dev :=
  d.modNvh h (fun x => { x with loads := x.loads.filter (fun e => e.1 ≠ g), out := x.out.map (fun r => if r.page = g then { r with drop := true } else r) })
/-- UNMAP. -/
def execUnmap (h : Half) : State → Answer :=
  onMap h (fun o => o = 2) 2 (fun s d => d.mapRange h (fun x g =>
    let e := x.2.pte s.mem h g
    if pteMapped e then Dev.setPte (x.1, x.2.discard h g) s.ref h g (e - 2 ^ 64) else x))
/-- LOAD: the earliest deadline; the row indexes in the range are served again (R350). -/
def execLoad (h : Half) : State → Answer :=
  onMap h (fun o => o = 3) 3 (fun s d =>
    if !d.on (nvhL h) NVH_STAT.MOUNTED then Dev.mapDone ([], d) h 1
    else d.mapRange h (fun x g =>
      let e := x.2.pte s.mem h g
      let d1 := x.2.modNvh h (fun y => { y with badIdx := y.badIdx.filter (fun a => a % 2 ^ 35 / 65536 ≠ g) })
      if pteMapped e ∧ pteState e = 0 then (x.1, d1.queueLoad h g 0) else (x.1, d1)))
/-- DROP. -/
def execDrop (h : Half) : State → Answer :=
  onMap h (fun o => o = 4) 4 (fun s d => d.mapRange h (fun x g =>
    let e := x.2.pte s.mem h g
    if pteMapped e then Dev.setPte (x.1, x.2.discard h g) s.ref h g (pteWith e 0) else x))
/-- REMOUNT (R344). -/
def execRemount (h : Half) (capacity : BitVec 32) (b0 b1 : List Byte) : State → Answer :=
  onMap h (fun o => o = 5) 5 (fun s d =>
    let x := d.mount h capacity.toNat b0 b1
    if x.1 then Dev.mapDone ([], x.2.volDiff s.ref h) h 0 else Dev.mapDone ([], x.2) h 1)
/-- MAP_RESERVED_OP: OP 0, 6 or 7 is refused with OP. -/
def execMapReservedOp (h : Half) : State → Answer :=
  onMap h (fun o => o = 0 || o = 6 || o = 7) 0 (fun _ d => Dev.mapDone ([], d) h 7)
/-- MAP_REJ: a write of NVH_MAPCMD while MAPBUSY is 1. -/
def execMapRej (h : Half) (op : Fin 8) : State → Answer :=
  forwarded h (fun h => onHalf h (fun s => if s.dev.on (nvhL h) NVH_STAT.MAPBUSY then (s.dev.seq (nvhL h)).mapWrite h op else s.dev))

/-! ### Paging ahead (R349, R350) -/

/-- The pages a row needs by an index at `base` (R349): the entries of its key, at most 16 of them. -/
def indexPages (d : Dev) (m : Mem) (base row : Nat) : List Nat :=
  let w (o : Nat) : Nat := fetchN d m (base + o) 4
  let diff : Int := (row : Int) - (w 0 : Int)
  let key : Int := if w 4 = 0 then diff else diff % (w 4 : Int)
  let hits := (List.range (w 8)).filter (fun i =>
    decide ((w (16 + 16 * i) : Int) ≤ key) && decide (key ≤ (w (20 + 16 * i) : Int)))
  (hits.take 16).flatMap (fun i => (List.range (w (28 + 16 * i))).map (fun p => w (24 + 16 * i) + p))
/-- Serve one request. -/
def Dev.pageAheadServe (d : Dev) (m : Mem) (h : Half) (q : PageReq) : Dev :=
  let rl := rowL h q.engine
  let base := halfAddr h (d.g rl (ROW_RIDX.BASE.ix q.ctx) * 4096)
  if !d.on rl (ROW_RIDX.EN.ix q.ctx) ∨ (d.nvh h).badIdx.contains base then d
  else if fetchN d m (base + 12) 4 ≠ crc32 (fetchBytes d m (base + 16) (16 * fetchN d m (base + 8) 4)) then
    (d.sat (nvhL h) NVH_CERR.CHECKFAIL).modNvh h (fun x => { x with badIdx := x.badIdx ++ [base] })
  else (indexPages d m base q.row).foldl (fun y g =>
    let e := y.pte m h g
    if !pteMapped e then y
    else if pteState e = 0 then y.queueLoad h g q.time
    else if pteState e = 1 then y.modNvh h (fun x => { x with out := x.out.map (fun r => if r.page = g then { r with time := min r.time q.time } else r) })
    else y) d
/-- PAGE_AHEAD_REQUEST: the oldest request of the half's engines. -/
def execPageAheadRequest (h : Half) : State → Answer :=
  onBlock h (nvhL h) (fun s =>
    let d := s.dev
    match h with
    | .A => (match d.pagesA with | [] => d | q :: rest => ({ d with pagesA := rest }).pageAheadServe s.mem h q)
    | .B => (match d.pagesB with | [] => d | q :: rest => ({ d with pagesB := rest }).pageAheadServe s.mem h q))

/-- The load with the earliest deadline, the first of equals. -/
def earliest : List (Nat × Nat) → Option (Nat × Nat)
  | [] => none
  | x :: xs => match earliest xs with
    | none => some x
    | some y => if x.2 ≤ y.2 then some x else some y
/-- NVME_READ_ISSUE (R350): up to 64 Reads are outstanding. A page whose blocks lie beyond the capacity is never read (R342) and stays ABSENT
(notes/assumptions/119.md). -/
def execNvmeReadIssue (h : Half) : State → Answer :=
  onBlockMem h (nvhL h) (fun s =>
    let d := s.dev
    let x := d.nvh h
    match earliest x.loads with
    | none => ([], d)
    | some g =>
      if 64 ≤ x.out.length ∨ x.resetting ∨ !d.on (nvhL h) NVH_STAT.MOUNTED then ([], d)
      else
        let d1 := d.modNvh h (fun y => { y with loads := y.loads.erase g })
        let e := d.pte s.mem h g.1
        if !d.inCap h (e % 2 ^ 32) 65536 then ([], d1)
        else Dev.setPte ([], d1.modNvh h (fun y => { y with out := y.out ++ [{ page := g.1, time := g.2 }] })) s.ref h g.1 (pteWith e 1))
/-- PAGE_ARRIVE (R351): the outstanding Read of a page completes with 64 KiB of data. A page on which a write landed meanwhile holds free values. -/
def pageArrive (s : State) (h : Half) (g : Nat) (data : List Byte) : List MemOp × Dev :=
  let d := s.dev
  let l := nvhL h
  match (d.nvh h).out.find? (fun r => r.page = g) with
  | none => ([], d)
  | some r =>
    let d1 := d.modNvh h (fun y => { y with out := y.out.erase r, tmos := 0 })
    if r.drop then ([], d1)
    else
      let e := d.pte s.mem h g
      let n := d1.freeCount
      let a := h.n * 2 ^ 35 + 65536 * g
      let put := if r.dirty then Dev.nvhStore ([], { d1 with freeCount := n + 1 }) s.ref h a ((List.range 65536).map (fun i => Config.loadedByte (a + i) n))
        else Dev.nvhStore ([], d1) s.ref h a (data.take 65536)
      if crc32 (data.take 65536) = e / 2 ^ 32 % 2 ^ 32 then
        Dev.setPte (put.1, (put.2.wrap l NVH_CLOAD.PAGES).unpark h g) s.ref h g (pteWith e 2)
      else if !r.again then (put.1, put.2.modNvh h (fun y => { y with out := y.out ++ [{ r with again := true, dirty := false }] }))
      else Dev.setPte (put.1, (put.2.sat l NVH_CERR.CHECKFAIL).raise l 5) s.ref h g (pteWith e 3)
def execPageArrive (h : Half) (g : BitVec 20) (data : List Byte) : State → Answer :=
  onBlockMem h (nvhL h) (fun s => pageArrive s h g.toNat data)

/-! ### Timeouts and resets (R343) -/

/-- CMD_TMO: a command times out, a paging Read of page `g` among them; after RSTN in a row the controller is reset. -/
def execCmdTmo (h : Half) (g : Option (BitVec 20)) : State → Answer :=
  onBlockMem h (nvhL h) (fun s =>
    let l := nvhL h
    let d0 := (s.dev.sat l NVH_CERR.TMO).raise l 6
    let n := (d0.nvh h).tmos + 1
    let d1 := d0.modNvh h (fun y => { y with tmos := n })
    let d2 := if d1.g l NVH_CFG.RSTN ≤ n then (d1.modNvh h (fun y => { y with resetting := true })).p l NVH_STAT.DRIVE 1 else d1
    match g with
    | none => ([], d2)
    | some p =>
      match (d2.nvh h).out.find? (fun r => r.page = p.toNat) with
      | none => ([], d2)
      | some r =>
        let d3 := d2.modNvh h (fun y => { y with out := y.out.erase r })
        if r.drop then ([], d3) else Dev.setPte ([], d3) s.ref h p.toNat (pteWith (d2.pte s.mem h p.toNat) 0))
/-- CTRL_RESET: the queues are re-created; the Reads the reset took are loaded again. -/
def execCtrlReset (h : Half) : State → Answer :=
  onBlockMem h (nvhL h) (fun s =>
    let l := nvhL h
    let d := s.dev
    if !(d.nvh h).resetting then ([], d)
    else
      let out := (d.nvh h).out
      let d1 := ((d.p l NVH_STAT.DRIVE 2).modNvh h (fun y => { y with out := [], resetting := false, tmos := 0 })).raise l 7
      out.foldl (fun x r => if r.drop then x else Dev.setPte (x.1, x.2.queueLoad h r.page r.time) s.ref h r.page (pteWith (x.2.pte s.mem h r.page) 0)) ([], d1))

/-! ### Defect log and firmware queues (R343, R353, R354) -/

/-- LOG_BLOCK_SUBMIT (R353): the next staged block is completed and goes to LOG_LBA + (SEQ mod LOG_BLOCKS), where that lies in the capacity (R342);
a COUNT above 254 becomes 254. -/
def logSubmit (s : State) (h : Half) : List MemOp × Dev :=
  let d := s.dev
  let l := nvhL h
  let x := d.nvh h
  let next := (d.g l NVH_LOGRD.IDX + x.logOut) % 2 ^ 21
  let seq := d.g64 l NVH_LOGSEQ_LO.SEQ NVH_LOGSEQ_HI.SEQ
  let lba := x.logLba + seq % x.logBlocks
  if !d.on l NVH_CFG.LOGEN ∨ next = d.g l NVH_LOGWR.IDX ∨ d.warned h ∨ x.resetting ∨ !d.on l NVH_STAT.MOUNTED ∨ x.logBlocks = 0 ∨ !d.inCap h lba 4096 then ([], d)
  else
    let a := halfAddr h (d.g l NVH_LOGSTG.BASE * 4096) + next % 2 ^ d.g l NVH_LOGCFG.LOG2 * 4096
    let body := toBytes seq 8 ++ toBytes (min 254 (fetchN d s.mem (a + 8) 2) + h.n * 2 ^ 16) 8 ++ fetchBytes d s.mem (a + 16) 4076
    let n := d.g l NVH_LOGCFG.FLUSHN
    let since := x.logSince + 1
    let flush := n ≠ 0 ∧ n ≤ since
    let z := Dev.nvhStore ([], d) s.ref h a (body ++ toBytes (crc32 body) 4)
    (z.1, (z.2.p64 l NVH_LOGSEQ_LO.SEQ NVH_LOGSEQ_HI.SEQ (seq + 1)).modNvh h (fun y =>
        { y with logOut := y.logOut + 1, logTo := y.logTo ++ [lba], logSince := if flush then 0 else since, flushes := y.flushes + b2n flush }))
def execLogBlockSubmit (h : Half) : State → Answer := onBlockMem h (nvhL h) (fun s => logSubmit s h)
/-- NVME_COMPLETION: the oldest log write completes and NVH_LOGRD advances, or a firmware command does and CQ is raised. -/
def execNvmeCompletion (h : Half) (fw : Bool) : State → Answer :=
  onBlock h (nvhL h) (fun s =>
    let l := nvhL h
    let d := s.dev.modNvh h (fun y => { y with tmos := 0 })
    if fw then d.raise l 8
    else if (d.nvh h).logOut = 0 then d
    else (d.wrap l NVH_LOGRD.IDX).modNvh h (fun y => { y with logOut := y.logOut - 1, logTo := y.logTo.drop 1 }))
/-- A write of NVH_DBq (R343, R354): forwarded; in a brown-out warning only up to the first entry that must wait. The last `held` of the new entries
begin with such an entry; behind an entry that waits already every new one waits. -/
def Dev.fwDoorbell (d : Dev) (h : Half) (q tail held : Nat) : Dev :=
  let l := nvhL h
  let x := d.nvh h
  let was := SMap.get (fun _ => 0) x.held q
  let new := (tail + 512 - SMap.get (fun _ => 0) x.tails q - was) % 256
  let wait := if was = 0 then min held new else new
  if d.g l NVH_CFG.FWQ ≤ q then d
  else if d.warned h ∧ 0 < was + wait then
    ((d.sat l NVH_CPA.HELD wait).p l NVH_STAT.BROWNHOLD 1).modNvh h (fun y =>
      { y with tails := SMap.set (fun _ => 0) y.tails q ((tail + 256 - (was + wait) % 256) % 256), held := SMap.set (fun _ => 0) y.held q (was + wait) })
  else d.modNvh h (fun y => { y with tails := SMap.set (fun _ => 0) y.tails q tail })
/-- The same where no operand says how many of the new entries wait: a free value (notes/assumptions/120.md). -/
def Dev.fwDoorbellFree (d : Dev) (h : Half) (q tail : Nat) : Dev :=
  if d.warned h then (d.free.2).fwDoorbell h q tail (d.free.1.toNat % 256) else d.fwDoorbell h q tail 0
/-- The warning is over (R354): the held commands go out. -/
def Dev.fwRelease (d : Dev) (h : Half) : Dev :=
  (d.modNvh h (fun y => { y with
    tails := (List.range 6).foldl (fun t q => SMap.set (fun _ => 0) t q ((SMap.get (fun _ => 0) t q + SMap.get (fun _ => 0) y.held q) % 256)) y.tails
    held := [] })).p (nvhL h) NVH_STAT.BROWNHOLD 0
def execFwDoorbell (h : Half) (q : Fin 6) (tail : BitVec 8) (held : BitVec 8) : State → Answer :=
  forwarded h (fun h => onHalf h (fun s => (s.dev.seq (nvhL h)).fwDoorbell h q tail.toNat held.toNat))

end Sys2Proof.Machine
end

