-- ==== Sys2Proof/Machine/Port.lean ====
section
/-!
DEFINITION. The Rerok Link ports (chapter 07): frames, training, sessions, sequence numbers, credits, mirror records.
-/
namespace Sys2Proof.Machine

open Sys2Proof

def rlkL (h : Half) (p : Nat) : Loc := hLoc h .rlk p
def Dev.port (d : Dev) (h : Half) (p : Nat) : Port := SMap.get (fun _ => {}) d.ports (h.n * 64 + p)
def Dev.modPort (d : Dev) (h : Half) (p : Nat) (f : Port → Port) : Dev :=
  { d with ports := SMap.modify (fun _ => {}) d.ports (h.n * 64 + p) f }
/-- State codes of Table 07.10. -/
def psDown : Nat := 0
def psTraining : Nat := 1
def psUp : Nat := 2
def psFenced : Nat := 3
def psQuarantine : Nat := 4
def Dev.pst (d : Dev) (h : Half) (p : Nat) : Nat := d.g (rlkL h p) RLK_STAT.STATE

/-- The referee's fence line of a half (R213). -/
def Referee.fence (r : Referee) (h : Half) : Bool :=
  !(r.hs h == .charge || r.hs h == .split) || (match h with | .A => r.fenceA | .B => r.fenceB)
/-- A half that has authority to send: CHARGE or SPLIT. -/
def Referee.leads (r : Referee) (h : Half) : Bool := r.hs h == .charge || r.hs h == .split

/-! ### Frames (R168–R175) -/

/-- The symbols of a frame after K28.5. -/
def frameSyms (ty seq : Nat) (words : List Nat) : List Nat :=
  let body := toBytes (ty + seq * 2 ^ 8 + words.length * 2 ^ 24) 4 ++ words.flatMap (fun w => toBytes w 4)
  (body ++ toBytes (crc32 body) 4).map (·.toNat)
/-! The 8b/10b code (R167), by the tables of IEEE 802.3 Clause 36 (notes/assumptions/115.md). A code group is its bits a b c d e i f g h j as a
number, bit a the least significant. -/

/-- Bits written in the order of their names, the first the least significant. -/
def groupBits (bs : List Nat) : Nat := bs.foldr (fun b t => b + 2 * t) 0
/-- The 6-bit half of D.x at negative running disparity, written abcdei. -/
def code6 (x : Nat) : Nat :=
  ([0b100111, 0b011101, 0b101101, 0b110001, 0b110101, 0b101001, 0b011001, 0b111000, 0b111001, 0b100101, 0b010101, 0b110100, 0b001101, 0b101100,
    0b011100, 0b010111, 0b011011, 0b100011, 0b010011, 0b110010, 0b001011, 0b101010, 0b011010, 0b111010, 0b110011, 0b100110, 0b010110, 0b110110,
    0b001110, 0b101110, 0b011110, 0b101011] : List Nat).getD x 0
/-- The 4-bit half of D.x.y at negative running disparity, written fghj; `alt` is the alternate form of D.x.7. -/
def code4 (y : Nat) (alt : Bool) : Nat :=
  if y = 7 ∧ alt = true then 0b0111 else ([0b1011, 0b1001, 0b0101, 0b1100, 0b1101, 0b1010, 0b0110, 0b1110] : List Nat).getD y 0
/-- Ones among the low `n` bits of a number. -/
def ones (n v : Nat) : Nat := (List.range n).foldl (fun t i => t + v / 2 ^ i % 2) 0
/-- A half of a code group and the disparity after it: its table form at negative disparity; at positive disparity a form that is not balanced, or
is one of the two balanced forms that alternate, is complemented. -/
def codeHalf (n form : Nat) (alternates disp : Bool) : Nat × Bool :=
  let even : Bool := 2 * ones n form = n
  (if disp && (!even || alternates) then 2 ^ n - 1 - form else form, if even then disp else !disp)
/-- The order in which bits are written reversed into the order of a code group. -/
def flipBits (n v : Nat) : Nat := (List.range n).foldl (fun t i => t + v / 2 ^ i % 2 * 2 ^ (n - 1 - i)) 0
/-- The code group of a data byte and the running disparity after it. -/
def codeData (disp : Bool) (b : Nat) : Nat × Bool :=
  let x := b % 32
  let y := b / 32
  let six := codeHalf 6 (code6 x) (x = 7) disp
  let alt : Bool := if six.2 then x = 11 || x = 13 || x = 14 else x = 17 || x = 18 || x = 20
  let four := codeHalf 4 (code4 y alt) (y = 3) six.2
  (flipBits 6 six.1 + flipBits 4 four.1 * 2 ^ 6, four.2)
/-- The code group of K28.5 and the running disparity after it. -/
def codeComma (disp : Bool) : Nat × Bool :=
  ((if disp then flipBits 6 0b110000 + flipBits 4 0b0101 * 2 ^ 6 else flipBits 6 0b001111 + flipBits 4 0b1010 * 2 ^ 6), !disp)
/-- K28.5 and data bytes, as code groups. -/
def codeSet (disp : Bool) (bytes : List Nat) : List Nat × Bool :=
  bytes.foldl (fun y b => let c := codeData y.2 b; (y.1 ++ [c.1], c.2)) ([(codeComma disp).1], (codeComma disp).2)
/-- An idle ordered set (R167): D5.6 when the disparity before it is positive, else D16.2. -/
def idleSet (disp : Bool) : List Nat × Bool := codeSet disp [if disp then 0xC5 else 0x50]

/-- A frame leaves the transmitter, its epoch in word 0 (R168); a disabled driver lets nothing out (R213). -/
def Dev.sendFrame (d : Dev) (h : Half) (p ty seq : Nat) (words : List Nat) : Dev :=
  d.modPort h p (fun x => if x.drvOff then x else
    let syms := frameSyms ty seq (d.g (rlkL h p) RLK_EPOCH.EPOCH :: words)
    let c := codeSet x.disp syms
    { x with sent := syms, wire := c.1, disp := c.2 })
/-- With no frame to send the transmitter sends an idle set (R167). -/
def Port.idle (x : Port) : Port := if x.drvOff then x else { x with wire := (idleSet x.disp).1, disp := (idleSet x.disp).2 }
/-- Credits held (R184): the port keeps 32 bits, RLK_CREDIT shows 16. -/
def Dev.setCredits (d : Dev) (h : Half) (p n : Nat) : Dev :=
  (d.p (rlkL h p) RLK_CREDIT.C (n % 2 ^ 32)).modPort h p (fun x => { x with credits := n % 2 ^ 32 })
/-- Credits that a frame may use: a follower that has missed a CRD holds fewer than none (notes/assumptions/116.md). -/
def Port.spendable (x : Port) : Nat := (sgn 32 x.credits).toNat

/-! ### Sessions and states (R177–R180) -/

/-- A session opens on a port (R179): sequence numbers and credits restart, sent events not yet reported are lost. -/
def Dev.openSession (d : Dev) (h : Half) (p : Nat) : Dev :=
  let l := rlkL h p
  let mine (k : Nat) : Bool := k / 1024 == h.n * 64 + p
  let lost := (d.chans.filter (fun e => mine e.1)).foldl (fun n e => n + e.2.unrep) 0
  let d1 := (d.chans.map (fun e => e.1)).foldl (fun y k => if mine k then y.modChan h (k % 65536) (fun x =>
    { x with q := x.q.filter (fun e => !e.sent), unf := (x.unf + x.unrep) % 2 ^ 32, unrep := 0 }) else y) d
  let d2 := d1.modPort h p (fun x => { x with rxNext := 0, unack := [], rtx := [], dead := [], sts := [], closed := none, confirmed := false, mirrors := [], confirms := 0, retryFor := none })
  let d3 := ((((((d2.p l RLK_SEQ.TXNEXT 0).p l RLK_SEQ.OLDEST 0).setCredits h p 0).p l RLK_ES.COUNT 0).p l RLK_CR.COUNT 0).sat l RLK_AUDF.LOST lost).raise l 4
  if lost = 0 then d3 else d3.raise l 5

/-- The wait for a board's reply is over: BEAM frames resume at the next snapshot (R197). -/
def Dev.endWait (d : Dev) (h : Half) (p : Nat) : Dev := d.modPort h p (fun x => { x with await := .none, snap := (d.snap h (d.rbeam h p)).tb })
/-- The supervision of the link starts afresh (R180). -/
def Dev.freshLink (d : Dev) (h : Half) (p : Nat) : Dev := d.modPort h p (fun x => { x with errAt := [], codeAt := [], validAt := d.tb h })
/-- A port enters UP or FENCED (event LINK_UP). -/
def Dev.enterUp (d : Dev) (h : Half) (p : Nat) : Dev :=
  (((d.p (rlkL h p) RLK_STAT.STATE psUp).endWait h p).freshLink h p).raise (rlkL h p) 0
/-- The frame that waits at the transmitter counts as sent: its first transmission, or its mirror record, has taken its SEQ (R181, R196). -/
def Dev.closedSent (d : Dev) (h : Half) (p : Nat) : Dev :=
  match (d.port h p).closed with
  | none => d
  | some f => (d.p (rlkL h p) RLK_SEQ.TXNEXT (f.seq + 1)).modPort h p (fun x => { x with closed := none, confirmed := false, unack := x.unack ++ [f] })
/-- A port enters FENCED. A frame that a calendar closed and the fence held back reaches the board from the new half (R197). -/
def Dev.enterFenced (d : Dev) (h : Half) (p : Nat) : Dev :=
  (((((d.closedSent h p).p (rlkL h p) RLK_STAT.STATE psFenced).modPort h p (fun x => { x with await := .none })).freshLink h p)).raise (rlkL h p) 0
/-- A port enters TRAINING (R178). -/
def Dev.enterTraining (d : Dev) (h : Half) (p : Nat) : Dev :=
  ((d.p (rlkL h p) RLK_STAT.STATE psTraining).p (rlkL h p) RLK_STAT.LOCKED 0).modPort h p
    (fun x => { x with goodHb := 0, rtts := [], await := .none, chg := none, ack := false, aud := false, hb := false })
/-- A port enters DOWN. -/
def Dev.enterDown (d : Dev) (h : Half) (p : Nat) : Dev :=
  ((d.p (rlkL h p) RLK_STAT.STATE psDown).p (rlkL h p) RLK_STAT.LOCKED 0).modPort h p
    (fun x => { x with goodHb := 0, await := .none, chg := none, ack := false, aud := false, hb := false })

/-- Resend every unacknowledged frame, from the oldest, but an MGT request that has timed out (R183). -/
def Dev.resendAll (d : Dev) (h : Half) (p : Nat) : Dev :=
  d.modPort h p (fun x => { x with rtx := (x.unack.map (·.seq)).filter (fun s => !x.dead.contains s) })

/-- Step 6 of R178: FENCED in a half without authority, else the CHG of R179. -/
def Dev.step6 (d : Dev) (r : Referee) (h : Half) (p : Nat) : Dev :=
  if r.leads h then
    d.modPort h p (fun x => if d.on (rlkL h p) RLK_STAT.SESS then { x with chg := some false, await := .both false false } else { x with chg := some true, await := .crd })
  else d.enterFenced h p

/-- An epoch is issued to a port of a half (R212); the state of a port in QUARANTINE is frozen (R177). -/
def Dev.issueEpoch (d : Dev) (epoch : Nat) (h : Half) (p : Nat) : Dev :=
  if d.pst h p = psQuarantine then d else d.p (rlkL h p) RLK_EPOCH.EPOCH epoch
/-- The CHARGE command of the referee on one port (R197), or its repetition (R214): the new epoch, and CHG next. -/
def Dev.chargePort (d : Dev) (epoch : Nat) (charge : Bool) (h : Half) (p : Nat) : Dev :=
  let d1 := (d.p (rlkL h p) RLK_EPOCH.EPOCH epoch).modPort h p (fun x => { x with fenced := false, drvOff := false, lead := charge })
  if d.pst h p = psFenced then (d1.enterUp h p).modPort h p (fun x => { x with chg := some false, await := .ack })
  else if d.pst h p = psUp then d1.modPort h p (fun x => { x with chg := some false, await := .ack })
  else d1

/-- A port of a half in CHARGE that leaves UP reports a fault where CRIT is set (R180); the referee's own fence is no such loss
(notes/assumptions/117.md). -/
def Dev.leavesUp (d : Dev) (h : Half) (p : Nat) : Dev :=
  if d.on (rlkL h p) RLK_CFG.CRIT && d.pst h p == psUp && (d.port h p).lead then d.report h 0x09 p p else d
/-- A swap of RLK_CFG at a frame boundary (R177, R200): EN starts or stops the port. -/
def Dev.rlkSwapped (d : Dev) (h : Half) (p : Nat) : Dev :=
  if d.on (rlkL h p) RLK_CFG.EN then (if d.pst h p = psDown then d.enterTraining h p else d) else (d.leavesUp h p).enterDown h p

/-- RLK result codes (Table 07.17). -/
def Dev.rlkCodes (d : Dev) (h : Half) (p : Nat) : List Nat :=
  let l := rlkL h p
  let b := d.gS l RLK_CFG.RBEAM
  (if d.g (hLoc h .beam) (BEAM_CFG.MODE.ix b) = 1 then [0x70] else [])
  ++ (if d.gS l RLK_CFG.ERRLIM = 0 then [0x71] else [])
  ++ (if d.gS l RLK_CFG.RTO < 2 ∨ 1000 < d.gS l RLK_CFG.RTO then [0x72] else [])
  ++ (if d.pst h p ≠ psDown ∧ b ≠ d.g l RLK_CFG.RBEAM then [0x73] else [])

/-! ### Sending (R160, R161, R176, R183, R196) -/

/-- The eligible head with the smallest distance, ties by channel (R161). -/
def Dev.pick (d : Dev) (r : Referee) (h : Half) (p : Nat) : Option (Nat × QEv) :=
  ((d.chans.filter (fun e => e.1 / 1024 = h.n * 64 + p)).filterMap (fun e => match e.2.head with
    | some q => if d.eligible r h p q then some (e.1 % 65536, q) else none
    | none => none)).foldl (fun b y => match b with
      | none => some y
      | some z => if d.dist h (d.rbeam h p) y.2.ev < d.dist h (d.rbeam h p) z.2.ev then some y else some z) none
/-- Commit the head event of a channel as sent under a SEQ (R158). -/
def Chan.send (seq : Nat) (x : Chan) : Chan :=
  match x.head with
  | none => x
  | some e =>
    { x with q := x.q.filter (fun y => y.sent) ++ [{ e with sent := true, seq := seq }] ++ (x.q.filter (fun y => !y.sent)).drop 1,
             lastSent := evState e.ev, unrep := x.unrep + 1 }
/-- Take up to `n` events into a frame: the channels and events, in order of selection. -/
def Dev.takeEvents (d : Dev) (r : Referee) (h : Half) (p seq : Nat) : Nat → List (Nat × Nat) × Dev
  | 0 => ([], d)
  | n + 1 => match d.pick r h p with
    | none => ([], d)
    | some (ch, e) =>
      let t := Dev.takeEvents ((d.modChan h ch (Chan.send seq)).candidate h ch) r h p seq n
      ((ch, e.ev) :: t.1, t.2)
/-- Does the half in charge mirror its frames to a peer that follows it (R196, R221)? -/
def Referee.mirrors (r : Referee) (h : Half) : Bool :=
  !r.split && (r.hs h.peer == .standby || (r.hs h.peer == .rejoining && decide (2 ≤ r.rjPhase)))
/-- A new frame is closed under the next SEQ (R181). In paired operation its mirror record goes to the peer, and the frame waits for the
confirmation (R196). -/
def Dev.closeFrame (d : Dev) (r : Referee) (h : Half) (p : Nat) (f : Frame) : Dev :=
  d.modPort h p (fun x => { x with closed := some f, confirmed := !r.mirrors h, mirrors := if r.mirrors h then x.mirrors ++ [f] else x.mirrors })
/-- The calendar closes a new EVT frame (R161): one credit an event. -/
def Dev.closeEvt (d : Dev) (r : Referee) (h : Half) (p : Nat) : Dev :=
  let l := rlkL h p
  let seq := d.g l RLK_SEQ.TXNEXT
  let x := d.port h p
  let t := d.takeEvents r h p seq (min 16 x.spendable)
  match t.1 with
  | [] => d
  | evs =>
    ((t.2.setCredits h p (x.credits + 2 ^ 32 - evs.length)).wrap l RLK_ES.COUNT evs.length).closeFrame r h p
      ⟨seq, 0x02, evs.flatMap (fun e => [e.2 % 2 ^ 32, e.2 / 2 ^ 32]), evs.map (·.1)⟩
/-- The waiting MGT request becomes a frame (R175); the standby knows every sequenced frame (R196). -/
def Dev.closeMgt (d : Dev) (r : Referee) (h : Half) (p : Nat) : Dev :=
  match (d.port h p).mgt with
  | none => d
  | some ws => (d.closeFrame r h p ⟨d.g (rlkL h p) RLK_SEQ.TXNEXT, 0x09, ws, []⟩).modPort h p (fun x => { x with mgt := none })
/-- The first transmission of a closed frame. -/
def Dev.sendClosed (d : Dev) (h : Half) (p : Nat) : Dev :=
  match (d.port h p).closed, (d.port h p).confirmed with
  | some f, true => (d.sendFrame h p f.type f.seq f.words).closedSent h p
  | _, _ => d

/-- The payload of a BEAM frame (Table 07.4). `elapsed` counts the word clocks from the snapshot to the departure. -/
def Dev.beamWords (d : Dev) (h : Half) (p elapsed : Nat) : List Nat :=
  let b := d.rbeam h p
  let s := d.snap h b
  [s.angle, s.rev, s.vel, s.acc, (elapsed + d.g (rlkL h p) RLK_PDLY.PDLY) % 65536 + b2n s.valid * 2 ^ 16 + b2n s.dir * 2 ^ 17
    + d.g (hLoc h .beam) (BEAM_STATE.STOPPED.ix b) * 2 ^ 18 + s.tb / 400 % 256 * 2 ^ 24, s.tb % 2 ^ 32]
/-- The part's HB frame (Table 07.8); `clk` is the word-clock count at its first symbol. -/
def Dev.sendHb (d : Dev) (r : Referee) (h : Half) (p clk : Nat) : Dev :=
  let l := rlkL h p
  (d.sendFrame h p 0x06 0 [clk % 65536 + d.g l RLK_STAT.LOCKED * 2 ^ 16 + b2n (d.pst h p == psFenced) * 2 ^ 17 + b2n (r.leads h) * 2 ^ 18,
    d.g l RLK_PDLY.PDLY]).modPort h p (fun x => { x with hb := false })
/-- The CHG frame; with OPEN = 1 the session opens here and, in paired operation, at the peer (R179). -/
def Dev.sendChg (d : Dev) (r : Referee) (h : Half) (p : Nat) (opens : Bool) : Dev :=
  let d1 := (d.modPort h p (fun x => { x with chg := none }))
  let d2 := if opens then (let y := d1.openSession h p; if r.mirrors h then y.openSession h.peer p else y) else d1
  d2.sendFrame h p 0x07 0 [b2n opens + h.n * 2 ^ 8, (d2.port h p).rxNext]

/-- The next frame of a port in UP, in the order of R176. -/
def Dev.upFrame (d : Dev) (r : Referee) (h : Half) (p elapsed clk : Nat) : Dev :=
  let l := rlkL h p
  let x := d.port h p
  match x.chg with
  | some o => d.sendChg r h p o
  | none =>
    if x.await ≠ .ack ∧ x.snap ≠ (d.snap h (d.rbeam h p)).tb then
      (d.sendFrame h p 0x01 0 (d.beamWords h p elapsed)).modPort h p (fun x => { x with snap := (d.snap h (d.rbeam h p)).tb })
    else if x.ack then
      let d1 := (d.sendFrame h p 0x03 0 [x.rxNext + b2n x.retry * 2 ^ 16]).modPort h p (fun x => { x with ack := false, retry := false })
      if x.retry then d1.sat l RLK_RETX.RETRY else d1
    else if x.aud then
      (d.sendFrame h p 0x08 0 [x.credits, d.g l RLK_ES.COUNT, d.g l RLK_CR.COUNT]).modPort h p (fun x => { x with aud := false })
    else if x.hb then d.sendHb r h p clk
    else if x.await ≠ .none then d
    else match x.rtx with
    | s :: rest =>
      (match x.unack.find? (fun f => f.seq = s) with
       | some f => (((d.sendFrame h p f.type f.seq f.words).sat l RLK_RETX.RESENT).modPort h p (fun x => { x with rtx := rest }))
       | none => d.modPort h p (fun x => { x with rtx := rest }))
    | [] =>
      let d1 := if x.closed = none ∧ x.unack.length < 128 then d.closeEvt r h p else d
      let d2 := if (d1.port h p).closed = none ∧ x.unack.length < 128 then d1.closeMgt r h p else d1
      d2.sendClosed h p

/-- What the transmitter sends at a frame boundary (R176, R177, R213). -/
def Dev.nextFrame (d : Dev) (r : Referee) (h : Half) (p elapsed clk : Nat) : Dev :=
  let x := d.port h p
  let st := d.pst h p
  let hbOnly (y : Dev) : Dev := if x.hb then y.sendHb r h p clk else y
  if r.fence h then hbOnly d
  else if st = psTraining then (match x.chg with | some o => d.sendChg r h p o | none => hbOnly d)
  else if st = psUp then d.upFrame r h p elapsed clk
  else hbOnly d
/-- A frame boundary of a port's transmitter, its RLK swap apart: under the referee's fence a port in UP enters FENCED and confirms (R177, R213);
then the next frame leaves, or an idle set where none does (R167). -/
def Dev.frameBoundary (d : Dev) (r : Referee) (h : Half) (p elapsed clk : Nat) : Dev :=
  let st := d.pst h p
  let d0 := if r.fence h then (if st = psUp then d.enterFenced h p else d).modPort h p (fun x => { x with fenced := true }) else d
  if st = psDown then d0
  else if st = psQuarantine then d0.modPort h p Port.idle
  else
    let d1 := (d0.modPort h p (fun x => { x with wire := [] })).nextFrame r h p elapsed clk
    if (d1.port h p).wire = [] then d1.modPort h p Port.idle else d1

/-! ### Timers -/

/-- AUD_TIMER (R185): every 1 ms in UP. -/
def execAudTimer (h : Half) (p : Fin 64) : State → Answer :=
  onBlock h (rlkL h p) (fun s => if s.dev.pst h p = psUp then s.dev.modPort h p (fun x => { x with aud := true }) else s.dev)
/-- HB_TIMER (R178): an HB is due in TRAINING, UP and FENCED. -/
def execHbTimer (h : Half) (p : Fin 64) : State → Answer :=
  onBlock h (rlkL h p) (fun s => if s.dev.pst h p = psDown then s.dev else s.dev.modPort h p (fun x => { x with hb := true }))
/-- RECEIVER_LOCK (R178). -/
def execReceiverLock (h : Half) (p : Fin 64) : State → Answer :=
  onBlock h (rlkL h p) (fun s => if s.dev.pst h p = psDown then s.dev else s.dev.p (rlkL h p) RLK_STAT.LOCKED 1)
/-- TRAINING_TIMEOUT (R178). -/
def execTrainingTimeout (h : Half) (p : Fin 64) : State → Answer :=
  onBlock h (rlkL h p) (fun s => if s.dev.pst h p = psTraining then ((s.dev.sat (rlkL h p) RLK_LINK.TOUT).raise (rlkL h p) 2).enterDown h p else s.dev)
/-- TRAINING_RETRY (R178). -/
def execTrainingRetry (h : Half) (p : Fin 64) : State → Answer :=
  onBlock h (rlkL h p) (fun s => if s.dev.pst h p = psDown ∧ s.dev.on (rlkL h p) RLK_CFG.EN ∧ s.ref.hs h ≠ .init then s.dev.enterTraining h p else s.dev)
/-- Loss of link in UP or FENCED (R180): the port trains again; more than 8 retrainings in 1 s flap. -/
def Dev.linkDown (d : Dev) (h : Half) (p : Nat) : Dev :=
  let l := rlkL h p
  let st := d.pst h p
  if st = psUp ∨ st = psFenced then
    let now := d.tb h
    let times := now :: (d.port h p).retrains.filter (fun t => decide (now < t + 100000000))
    let d1 := (((d.sat l RLK_LINK.RETRAIN).raise l 1).modPort h p (fun x => { x with retrains := times })).leavesUp h p
    if 8 < times.length then ((d1.enterDown h p).p l RLK_CFG.EN 0).raise l 3 else d1.enterTraining h p
  else d
/-- Is the link of a port lost (R180): 8 code errors within 64 symbols, more than ERRLIM errors within 1 ms, or no valid frame for 500 µs? -/
def Dev.linkLost (d : Dev) (h : Half) (p : Nat) : Bool :=
  let x := d.port h p
  let now := d.tb h
  decide (8 ≤ (x.codeAt.filter (fun t => decide (10 * now ≤ 10 * t + 512))).length)
    || decide (d.g (rlkL h p) RLK_CFG.ERRLIM < (x.errAt.filter (fun t => decide (now ≤ t + 100000))).length) || decide (x.validAt + 50000 ≤ now)
/-- LINK_DOWN (R180). The errors act as they are received, so that what this command finds is a silent link. -/
def execLinkDown (h : Half) (p : Fin 64) : State → Answer :=
  onBlock h (rlkL h p) (fun s => if s.dev.linkLost h p then s.dev.linkDown h p else s.dev)
/-- A CRC or code error at a receiver (R169, R180): counted, and in UP or FENCED one too many loses the link. -/
def Dev.rxError (d : Dev) (h : Half) (p : Nat) (code : Bool) : Dev :=
  let l := rlkL h p
  let now := d.tb h
  let d1 := (if code then d.sat l RLK_ERR.CODE else d.sat l RLK_ERR.CRC).modPort h p (fun x => { x with
    errAt := now :: x.errAt.filter (fun t => decide (now ≤ t + 100000))
    codeAt := if code then now :: x.codeAt.filter (fun t => decide (10 * now ≤ 10 * t + 512)) else x.codeAt })
  if d1.linkLost h p then d1.linkDown h p else d1

/-! ### Receiving (R169, R182, R184, R186, R191, R194, R195) -/

/-- A frame that reaches a receiver: discarded with its count, discarded for a higher epoch, or taken (R169, R194). The port
hears board frames in UP and FENCED and, once the link is established, in TRAINING. -/
def Dev.receive (d : Dev) (h : Half) (p : Nat) (rx : Rx) (epoch : Nat) (f : Dev → Dev) : Dev :=
  let l := rlkL h p
  let st := d.pst h p
  if st = psDown ∨ st = psQuarantine then d
  else match rx with
  | .codeError => d.rxError h p true
  | .bad => d.rxError h p false
  | .ok =>
    let d1 := d.modPort h p (fun x => { x with validAt := d.tb h })
    if d.g l RLK_EPOCH.EPOCH < epoch then (d1.sat l RLK_RPT.AHEAD).raise l 8 else f d1
/-- Is the link of a port established, so that it takes more than HB frames? -/
def Dev.established (d : Dev) (h : Half) (p : Nat) : Bool := d.pst h p ≠ psTraining || decide (2 ≤ (d.port h p).goodHb)

/-- The mean of the last 8 values of RTT / 2, rounded up (R186). -/
def pdlyOf (rtts : List Nat) : Nat :=
  let n := rtts.length
  if n = 0 then 0 else (rtts.foldl (· + ·) 0 + 2 * n - 1) / (2 * n)
/-- A board HB (R174, R178, R186) whose RTT is `rtt` word clocks. -/
def Dev.hbReceive (d : Dev) (r : Referee) (h : Half) (p rtt : Nat) (locked sess active fenced : Bool) (ver pool id : Nat) : Dev :=
  let l := rlkL h p
  let good : Bool := locked && ver == 0x10 && decide (2048 ≤ pool)
  let x := d.port h p
  let n := if !good then 0 else if d.on l RLK_STAT.LOCKED then x.goodHb + 1 else 0
  let rtts := if d.established h p then (rtt :: x.rtts).take 8 else x.rtts
  let d1 := (((((d.p l RLK_STAT.SESS (b2n sess)).p l RLK_STAT.BACTIVE (b2n active)).p l RLK_STAT.BFENCED (b2n fenced)).p l RLK_STAT.POOL pool).p l
    RLK_BOARD_ID.ID id).p l RLK_PDLY.PDLY (pdlyOf rtts)
  let d2 := d1.modPort h p (fun x => { x with goodHb := if d.pst h p = psTraining ∧ x.await = .none then n else x.goodHb, rtts := rtts })
  if d.pst h p = psTraining ∧ x.await = .none ∧ 10 ≤ n then d2.step6 r h p else d2
/-- HB_RECEIVE (R174, R178, R186). -/
def execHbReceive (h : Half) (p : Fin 64) (rx : Rx) (epoch : Word) (times : HbTimes) (locked sess active fenced : Bool) (ver : BitVec 8) (pool : BitVec 16)
    (id : Word) : State → Answer :=
  onBlock h (rlkL h p) (fun s =>
    let d := s.dev.receive h p rx epoch.toNat (fun d => d.hbReceive s.ref h p times.rtt.toNat locked sess active fenced ver.toNat pool.toNat id.toNat)
    if rx = .ok ∧ s.dev.g (rlkL h p) RLK_EPOCH.EPOCH < epoch.toNat ∧ s.ref.leads h = true ∧ s.dev.pst h p ≠ psDown then d.report h 0x0F epoch.toNat p else d)

/-- The distance of a sequence number from `base`, modulo 2^16. -/
def seqDiff (a base : Nat) : Nat := (a + 65536 - base % 65536) % 65536
/-- Free the events of a frame that an ACK covers (R156). -/
def Dev.freeFrame (d : Dev) (h : Half) (f : Frame) : Dev :=
  f.chans.foldl (fun y ch => y.modChan h ch (fun x => { x with q := x.q.filter (fun e => !(e.sent && e.seq == f.seq)) })) d
/-- A reply of the board that the port awaits has come (R179, R197); `now` says that it carries the port's own epoch, as the reply to the CHG of
a new epoch does. -/
def Dev.reply (d : Dev) (h : Half) (p : Nat) (isAck now : Bool) : Dev :=
  let x := d.port h p
  if x.chg.isSome then d
  else match x.await with
  | .none => d
  | .crd => if isAck then d else if d.pst h p = psTraining then d.enterUp h p else d.endWait h p
  | .both a c =>
    if (a || isAck) && (c || !isAck) then (d.enterUp h p).resendAll h p
    else d.modPort h p (fun x => { x with await := .both (a || isAck) (c || !isAck) })
  | .ack => if isAck && now then (d.endWait h p).resendAll h p else d
/-- ACK_RECEIVE (R182, R183). -/
def Dev.ackReceive (d : Dev) (h : Half) (p epoch next : Nat) (retry : Bool) : Dev :=
  let l := rlkL h p
  if !d.established h p then d
  else
    let oldest := d.g l RLK_SEQ.OLDEST
    if seqDiff (d.g l RLK_SEQ.TXNEXT) oldest < seqDiff next oldest then d
    else
      let covered (s : Nat) : Bool := decide (seqDiff s oldest < seqDiff next oldest)
      let y := (((d.port h p).unack.filter (fun f => covered f.seq)).foldl (fun y f => y.freeFrame h f) d).modPort h p (fun x => { x with
        unack := x.unack.filter (fun f => !covered f.seq), dead := x.dead.filter (fun s => !covered s), rtx := x.rtx.filter (fun s => !covered s) })
      let z := y.p l RLK_SEQ.OLDEST next
      (if retry ∧ z.pst h p = psUp ∧ (z.port h p).await = .none then z.resendAll h p else z).reply h p true (epoch = d.g l RLK_EPOCH.EPOCH)
def execAckReceive (h : Half) (p : Fin 64) (rx : Rx) (epoch : Word) (next : BitVec 16) (retry : Bool) : State → Answer :=
  onBlock h (rlkL h p) (fun s => s.dev.receive h p rx epoch.toNat (fun d => d.ackReceive h p epoch.toNat next.toNat retry))
/-- CRD_RECEIVE (R184). -/
def Dev.crdReceive (d : Dev) (h : Half) (p ct : Nat) : Dev :=
  let l := rlkL h p
  if !d.established h p then d
  else
    let add := sgn 32 (ct + 2 ^ 32 - d.g l RLK_CR.COUNT)
    (if 0 < add then (d.setCredits h p ((d.port h p).credits + add.toNat)).p l RLK_CR.COUNT ct else d).reply h p false true
def execCrdReceive (h : Half) (p : Fin 64) (rx : Rx) (epoch : Word) (ct : Word) : State → Answer :=
  onBlock h (rlkL h p) (fun s => s.dev.receive h p rx epoch.toNat (fun d => d.crdReceive h p ct.toNat))

/-- One report word (R191, Table 07.7). -/
def Dev.fireReport (d : Dev) (h : Half) (p w : Nat) : Dev :=
  let l := rlkL h p
  let ch := 1024 * p + w % 1024
  let res := w / 2 ^ 10 % 8
  let bad (y : Dev) : Dev := (y.sat l RLK_RPT.RPTBAD).raise l 7
  if (d.chan h ch).unrep = 0 then bad d
  else
    let d1 := d.modChan h ch (fun x => if res = 0 then { x with fired := (x.fired + 1) % 2 ^ 32, unrep := x.unrep - 1 }
      else { x with unf := (x.unf + 1) % 2 ^ 32, unrep := x.unrep - 1 })
    if 6 ≤ res then bad d1 else d1
/-- An STS in sequence: status, audit result, reports (R185, R191). -/
def Dev.applySts (d : Dev) (h : Half) (p : Nat) (x : StsRec) : Dev :=
  let l := rlkL h p
  let d1 := ((d.p l RLK_STAT.RSTALE (b2n (bit x.status 1))).p l RLK_STAT.BFAULT (x.status / 2 ^ 8)).p l RLK_AUDD.D x.audd
  let d2 := if bit x.status 3 ∧ d.pst h p = psUp then
      (let y := (d1.sat l RLK_AUDF.AUDIT).raise l 6; if d.on l RLK_CFG.AUDIT_CRIT then y.report h 0x0A p p else y)
    else d1
  (x.reports.foldl (fun y w => y.fireReport h p w) d2).modPort h p (fun y => { y with
    rxNext := (y.rxNext + 1) % 65536, sts := (y.sts ++ [x]).drop (y.sts.length + 1 - 64) })
/-- The frames a follower missed, from the peer's last 64 (R195). -/
def Dev.fillSts (d : Dev) (h : Half) (p seq : Nat) : Nat → Dev
  | 0 => d
  | n + 1 =>
    let next := (d.port h p).rxNext
    if next = seq then d
    else match (d.port h.peer p).sts.find? (fun y => y.seq = next) with
      | some y => Dev.fillSts ((d.sat (rlkL h p) RLK_MIRR.MGAP).applySts h p y) h p seq n
      | none => d
/-- A sequenced board frame with SEQ: the ACK or RETRY it calls for, and whether it is next (R182). A half without authority sends no ACK, and takes
the STS frames that a gap shows it has missed from its peer (R195). -/
def Dev.inSeq (d : Dev) (r : Referee) (h : Half) (p seq : Nat) (f : Dev → Dev) : Dev :=
  let gap := seqDiff seq (d.port h p).rxNext
  let d0 := if (r.hs h = .standby ∨ r.hs h = .rejoining) ∧ gap < 32768 then d.fillSts h p seq (min 64 gap) else d
  let x := d0.port h p
  let k := seqDiff seq x.rxNext
  let say (y : Dev) (again : Bool) : Dev := if r.leads h then y.modPort h p (fun z => { z with ack := true, retry := z.retry || again }) else y
  if k = 0 then say (f d0) false
  else if 32768 ≤ k ∨ x.retryFor = some x.rxNext then say d0 false
  else (say d0 true).modPort h p (fun z => { z with retryFor := some x.rxNext })
/-- STS_RECEIVE (R191, R195). -/
def Dev.stsReceive (d : Dev) (r : Referee) (h : Half) (p : Nat) (x : StsRec) : Dev :=
  if !d.established h p then d else d.inSeq r h p x.seq (fun y => y.applySts h p x)
def execStsReceive (h : Half) (p : Fin 64) (rx : Rx) (epoch : Word) (seq : BitVec 16) (status audd : Word) (reports : List Word) : State → Answer :=
  onBlock h (rlkL h p) (fun s =>
    let rx1 := if rx = .ok ∧ reports.length ≠ status.toNat / 2 ^ 16 % 64 ∨ 32 < reports.length then .bad else rx
    s.dev.receive h p rx1 epoch.toNat (fun d => d.stsReceive s.ref h p ⟨seq.toNat, status.toNat, audd.toNat, reports.map (·.toNat)⟩))

/-! ### Board register access (R175, R183, R201) -/

/-- MGT_GO (R201): a write of RLK_MGT_CTL; GO sends a request. -/
def Dev.mgtGo (d : Dev) (h : Half) (p : Nat) (v : Word) : Dev :=
  let l := rlkL h p
  let d1 := (d.p l RLK_MGT_CTL.OP (fget RLK_MGT_CTL.OP v)).p l RLK_MGT_CTL.COUNT_M1 (fget RLK_MGT_CTL.COUNT_M1 v)
  if fget RLK_MGT_CTL.GO v = 0 then d1
  else if d.on l RLK_MGT_CTL.BUSY then d1
  else if d.pst h p ≠ psUp then d1.p l RLK_MGT_CTL.STATUS 0xFE
  else
    let tag := ((d.port h p).tag + 1) % 256
    let n := fget RLK_MGT_CTL.COUNT_M1 v
    let data := if fget RLK_MGT_CTL.OP v = 1 then (List.range (n + 1)).map (fun k => d.g l (RLK_MGT_D.DATA.ix k)) else []
    (d1.p l RLK_MGT_CTL.BUSY 1).modPort h p (fun x => { x with
      tag := tag, mgt := some ([tag + fget RLK_MGT_CTL.OP v * 2 ^ 8 + n * 2 ^ 12, d.g l RLK_MGT_ADDR.ADDR] ++ data) })
def execMgtGo (h : Half) (p : Fin 64) (v : Word) : State → Answer := forwarded h (fun h => onWrite h (rlkL h p) (fun _ d => d.mgtGo h p v))
/-- An MGT request ends with a status (R175, R183). -/
def Dev.mgtEnd (d : Dev) (h : Half) (p status : Nat) : Dev :=
  let l := rlkL h p
  (((d.p l RLK_MGT_CTL.BUSY 0).p l RLK_MGT_CTL.STATUS status).modPort h p (fun x => { x with mgt := none })).raise l 10
/-- MGT_RESPONSE_RECEIVE (R175). -/
def Dev.mgtReceive (d : Dev) (r : Referee) (h : Half) (p seq tag op status : Nat) (data : List Word) : Dev :=
  let l := rlkL h p
  if !d.established h p then d
  else d.inSeq r h p seq (fun y =>
    let z := y.modPort h p (fun x => { x with rxNext := (x.rxNext + 1) % 65536 })
    if z.on l RLK_MGT_CTL.BUSY && (z.port h p).tag == tag && (z.port h p).mgt.isNone then
      ((List.range (if op = 0 ∧ status = 0 then data.length else 0)).foldl (fun u k => u.wr l (0x940 + 4 * (k % 16)) (data.getD k 0)) z).mgtEnd h p status
    else z)
def execMgtResponseReceive (h : Half) (p : Fin 64) (rx : Rx) (epoch : Word) (seq : BitVec 16) (tag : BitVec 8) (op : Fin 4) (count : Fin 16)
    (status : BitVec 8) (data : List Word) : State → Answer :=
  onBlock h (rlkL h p) (fun s =>
    let fits : Bool := if op = 0 ∧ status = 0 then data.length = count.val + 1 else if op = 1 ∨ status ≠ 0 then data = [] else data.length ≤ 16
    let rx1 := if rx = .ok ∧ fits = false then .bad else rx
    s.dev.receive h p rx1 epoch.toNat (fun d => d.mgtReceive s.ref h p seq.toNat tag.toNat op status.toNat data))
/-- An MGT request whose time is up is no longer resent (R183). -/
def Port.mgtDead (x : Port) : Port :=
  let late := (x.unack.filter (fun f => f.type = 0x09 && f.words.headD 0 % 256 = x.tag)).map (·.seq)
  { x with dead := x.dead ++ late, rtx := x.rtx.filter (fun s => !late.contains s) }
/-- MGT_TIMEOUT (R183): 1 ms without a response. -/
def execMgtTimeout (h : Half) (p : Fin 64) : State → Answer :=
  onBlock h (rlkL h p) (fun s => if s.dev.on (rlkL h p) RLK_MGT_CTL.BUSY then (s.dev.mgtEnd h p 0xFF).modPort h p Port.mgtDead else s.dev)
/-- RETRANSMIT_TIMEOUT (R183, R197): the oldest unacknowledged frame is older than RTO, or RTO has passed since a new epoch's CHG. -/
def Dev.rto (d : Dev) (h : Half) (p : Nat) : Dev :=
  if d.pst h p ≠ psUp then d
  else match (d.port h p).await with
    | .none => d.resendAll h p
    | .ack => (d.endWait h p).resendAll h p
    | _ => d
def execRetransmitTimeout (h : Half) (p : Fin 64) : State → Answer := onBlock h (rlkL h p) (fun s => s.dev.rto h p)

/-! ### Mirror records (R196) -/

/-- The follower marks a mirrored event as sent; an event that has expired there meanwhile is not found (R196). -/
def Chan.mirrored (seq ev : Nat) (x : Chan) : Chan :=
  match x.q.find? (fun y => !y.sent && y.ev == ev) with
  | none => x
  | some e =>
    { x with q := x.q.filter (fun y => y.sent) ++ [{ e with sent := true, seq := seq }] ++ (x.q.filter (fun y => !y.sent)).erase e,
             lastSent := evState ev, unrep := x.unrep + 1 }
/-- The event of a mirror record counts as sent in its channel; another event may become the head (R160). -/
def Dev.mirrorEvent (d : Dev) (h : Half) (seq ch ev : Nat) : Dev :=
  let d1 := d.modChan h ch (Chan.mirrored seq ev)
  if (d1.chan h ch).head = (d.chan h ch).head then d1 else d1.candidate h ch
/-- MIRROR_RECORD_RECEIVE (R196): half `h` takes the oldest mirror record of its peer's port: the same events count as sent. -/
def Dev.mirrorTake (d : Dev) (h : Half) (p : Nat) : Dev :=
  match (d.port h.peer p).mirrors with
  | [] => d
  | f :: rest =>
    let l := rlkL h p
    let d1 := d.modPort h.peer p (fun x => { x with mirrors := rest, confirms := x.confirms + 1 })
    let n := f.chans.length
    let d2 := (List.range n).foldl (fun y i => y.mirrorEvent h f.seq (f.chans.getD i 0) (f.words.getD (2 * i) 0 + f.words.getD (2 * i + 1) 0 * 2 ^ 32)) d1
    (((d2.p l RLK_SEQ.TXNEXT (f.seq + 1)).setCredits h p ((d.port h p).credits + 2 ^ 32 - n)).wrap l RLK_ES.COUNT n).modPort h p
      (fun x => { x with unack := x.unack ++ [f] })
def execMirrorRecordReceive (h : Half) (p : Fin 64) : State → Answer :=
  onBlock h (rlkL h p) (fun s => s.dev.mirrorTake h p)
/-- MIRROR_CONFIRM (R196). -/
def Dev.mirrorConfirm (d : Dev) (h : Half) (p : Nat) : Dev :=
  if 0 < (d.port h p).confirms then d.modPort h p (fun x => { x with confirms := x.confirms - 1, confirmed := x.confirmed || x.closed.isSome }) else d
def execMirrorConfirm (h : Half) (p : Fin 64) : State → Answer := onBlock h (rlkL h p) (fun s => s.dev.mirrorConfirm h p)
/-- MIRROR_LATE (R196): 1 µs without the confirmation. -/
def Dev.mirrorLate (d : Dev) (h : Half) (p : Nat) : Dev :=
  let l := rlkL h p
  let x := d.port h p
  if x.closed.isSome && !x.confirmed then ((d.sat l RLK_MIRR.LATE).raise l 9).reportP h 0x0B p l else d
def execMirrorLate (h : Half) (p : Fin 64) : State → Answer := onBlock h (rlkL h p) (fun s => s.dev.mirrorLate h p)

/-! ### A disabled beam (R80) -/

/-- Do any due entries or renders of contexts bound to beam `b` still run? -/
def Dev.rendersOf (d : Dev) (h : Half) (b : Nat) : Bool :=
  (List.range 8).any (fun e =>
    let g := d.eng h e
    let mine (x : Due) : Bool := d.beamOf h e x.ctx == b
    g.due.any mine || g.cur.any mine || g.parked.any (fun x => mine x.1) || g.ready.any (fun x => mine x.due))
/-- BEAM_DISABLED_CANCEL (R80): once those renders are queued, the unsent events of every non-IDLE context bound to the beam are
cancelled, and UP ports that replicate the beam open a new session. -/
def Dev.beamDisabled (d : Dev) (r : Referee) (h : Half) (b : Nat) : Dev :=
  if bit (d.harn h).offs b ∧ d.rendersOf h b = false then
    let d1 := d.modHarn h (fun x => { x with offs := x.offs &&& (15 - 2 ^ b) })
    let d2 := (List.range 256).foldl (fun y k =>
      if y.cst h (k / 32) (k % 32) ≠ .idle ∧ y.beamOf h (k / 32) (k % 32) = b then y.cancelCtx h k none else y) d1
    (List.range 64).foldl (fun y p => if y.rbeam h p = b ∧ y.pst h p = psUp ∧ r.leads h = true then y.modPort h p (fun x => { x with chg := some true, await := .crd }) else y) d2
  else d
def execBeamDisabledCancel (h : Half) (b : Fin 4) : State → Answer :=
  onBlock h (hLoc h .aeq) (fun s => s.dev.beamDisabled s.ref h b)

end Sys2Proof.Machine
end

