-- ==== Sys2Proof/Machine/Commit.lean ====
section
/-!
DEFINITION. The commit machinery of chapter 25 (R487–R492): groups, the checks of a request and of a boundary, refusals and swaps,
what each block adds to its swap; and the reset of a block (R478).
-/
namespace Sys2Proof.Machine

open Sys2Proof

/-- Is the region of a page there: a half with supply, the service region released, the referee always? -/
def upAt (r : Referee) (d : Dev) (reg : Nat) : Bool :=
  if reg = 0 then r.hsA ≠ .off else if reg = 1 then r.hsB ≠ .off else if reg = 2 then d.svcUp else true
/-- Is a region a half in QUARANTINE? -/
def frozenAt (r : Referee) (reg : Nat) : Bool := (reg = 0 && r.hsA = .quarantine) || (reg = 1 && r.hsB = .quarantine)

/-- The CFG_ERR bit of a block's page (chapter tables); SEC and CFG pages have none. -/
def cfgErrBit : Block → Option Nat
  | .beam => some 26
  | .row => some 7
  | .hrn => some 4
  | .aeq => some 4
  | .rlk => some 11
  | .seal => some 5
  | .lpe => some 8
  | .cxp => some 6
  | .kxc => some 5
  | .ucs => some 5
  | .dma => some 31
  | .mec => some 1
  | .scb => some 6
  | .nvh => some 9
  | .hif => some 3
  | .evc => some 2
  | .tmr => some 6
  | .prz => some 7
  | .dhd => some 6
  | .blt => some 3
  | .aud => some 6
  | .gpx => some 2
  | .pwr => some 6
  | .sec => none
  | .cfg => none
  | .ref => none
/-- The code of a boundary select that a block's page does not accept (R489, R492). -/
def boundCode : Block → Nat
  | .hrn => 0x61
  | .lpe => 0x9A
  | .prz => 0xE6
  | .dhd => 0xF5
  | .aud => 0xFA
  | .gpx => 0x3A
  | _ => 0x03
/-- A page raises CFG_ERR. -/
def Dev.cfgErr (d : Dev) (p : Nat) : Dev :=
  match pageRowOf p with
  | some (row, _) => (match cfgErrBit row.block with
    | some b => d.raise (locOf p) b
    | none => d)
  | none => d
/-- A page is refused with a code and raises CFG_ERR (R490). -/
def Dev.refuse (d : Dev) (p code : Nat) : Dev := (d.p (locOf p) PG_COMMIT.RESULT code).cfgErr p

/-! ### Groups (R488) -/

/-- The pages of a region (Table 25.4). -/
def pagesOf (reg : Nat) : List Nat :=
  (if reg < 2 then pageRowsHalf else pageRowsOther.filter (fun r => r.region = reg)).flatMap
    (fun r => (List.range r.count).map (fun i => reg * 4096 + r.base + i))
/-- The commit group and the boundary select of a page. -/
def Dev.grp (d : Dev) (p : Nat) : Nat := d.g (locOf p) PG_COMMIT.GROUP
def Dev.bound (d : Dev) (p : Nat) : Nat := d.g (locOf p) PG_COMMIT.BOUND
/-- Is a request of a page armed? -/
def Dev.armed (d : Dev) (p : Nat) : Bool := d.on (locOf p) PG_COMMIT.PENDING
/-- The pages a request on a page arms: itself, or the pages of its region that name its group. -/
def Dev.members (d : Dev) (p : Nat) : List Nat :=
  if d.grp p = 0 then [p] else (pagesOf (p / 4096)).filter (fun q => d.grp q = d.grp p)
/-- Those of them whose request is armed. -/
def Dev.armedWith (d : Dev) (p : Nat) : List Nat := (d.members p).filter d.armed

/-! ### Validation (R490) -/

/-- Is a beam whose MODE a commit changes in use (R60)? -/
def Dev.beamUsed (d : Dev) (h : Half) : Bool :=
  let l := hLoc h .beam
  (List.range 4).any (fun b => d.gS l (BEAM_CFG.MODE.ix b) ≠ d.g l (BEAM_CFG.MODE.ix b) &&
    ((List.range 64).any (fun p => d.on (rlkL h p) RLK_CFG.EN && d.g (rlkL h p) RLK_CFG.RBEAM = b)
      || (List.range 2).any (fun k => d.clocked (lpeL h k) && d.g (lpeL h k) LPE_BIND.TBEAM = b)
      || (List.range 8).any (fun e => (List.range 32).any (fun c => d.cst h e c ≠ .idle && d.g (cxL h e c) ROW_BIND.BEAM = b))))
/-- The result codes of an NVH page (Table 14.7, R355). -/
def Dev.nvhCodes (d : Dev) (h : Half) : List Nat :=
  let l := hLoc h .nvh
  let mapped := d.ptab.any (fun e => e.1 / 2 ^ 20 = h.n && bit e.2 64)
  let base := d.gS l NVH_PTBASE.BASE * 2 ^ 23
  (if d.gS l NVH_CFG.TMO = 0 ∨ d.gS l NVH_CFG.RSTN = 0 then [0xC8] else [])
  ++ (if 6 < d.gS l NVH_CFG.FWQ then [0xC9] else [])
  ++ (if (d.gS l NVH_PTBASE.BASE ≠ d.g l NVH_PTBASE.BASE ∧ mapped) ∨ (d.gS l NVH_QBASE.BASE ≠ d.g l NVH_QBASE.BASE ∧ d.on l NVH_CFG.EN) then [0xCA] else [])
  ++ (if (d.gS l NVH_PTBASE.BASE ≠ d.g l NVH_PTBASE.BASE ∧ (2 ^ 36 ≤ base ∨ d.dramSize h < base % 2 ^ 35 + d.dramSize h / 4096)) ∨ 12 < d.gS l NVH_LOGCFG.LOG2 then [0xCB] else [])
/-- What the checks of a page find in its shadow set when the pages `ps` swap together. -/
def Dev.pageCodes (d : Dev) (ps : List Nat) (p : Nat) : List Nat :=
  match pageRowOf p with
  | none => []
  | some (row, i) =>
    let reg := p / 4096
    let h := Half.ofRegion reg
    let l := locOf p
    match row.block with
    | .beam => (List.range 4).flatMap (d.beamCodes h) ++ (if d.beamUsed h then [0x47] else [])
    | .aeq => (if d.gS l AEQ_LEADT.TICKS = 0 then [0x68] else []) ++ (if d.gS l AEQ_MAXSPAN.SPAN < d.gS l AEQ_MINSPAN.SPAN then [0x69] else [])
    | .seal => if d.gS l SEAL_CFG.TMO < 2 ∨ 16 < d.gS l SEAL_CFG.TMO then [0x78] else []
    | .rlk => d.rlkCodes h i
    | .lpe => d.lpeCodes h i
    | .cxp => d.cxpCodes h i
    | .dma => if (List.range (if reg = 2 then 8 else 16)).any (fun c => d.gS l (DMA_CFG.RATE.ix c) = 0 || 256 < d.gS l (DMA_CFG.RATE.ix c)) then [0xD0] else []
    | .scb => if d.gS l SCB_SSPACE.SPACE = 0 ∨ d.gS l SCB_DSPACE.SPACE = 0 then [0xC0] else []
    | .nvh => d.nvhCodes h
    | .tmr => (d.tmrCode reg i).toList
    | .prz => if i = 2 then (d.przD4Code (d.bound p - 2) (ps.contains (pageOf 2 .prz (d.bound p - 2)))).toList else (d.przCode i (ps.contains (pageOf 2 .prz 2))).toList
    | .dhd => (d.dhdCode i).toList
    | .aud => d.audCode.toList
    | .gpx => (d.gpxCode ((ps.filter (fun q => (pageOf 2 .gpx 0 ≤ q ∧ q ≤ pageOf 2 .gpx 9)))) i).toList
    | .pwr => if 8 < d.gS l PWR_WARN.WA ∨ 8 < d.gS l PWR_WARN.WB ∨ 8 < d.gS l PWR_WARN.WS ∨ 105 < d.gS l PWR_THROT.ON ∨ d.gS l PWR_THROT.HYST = 0 then [0x48] else []
    | _ => []
/-- Is a region below its warning level (R127, R474)? -/
def Dev.warnAt (d : Dev) (reg : Nat) : Bool := reg < 3 && bit (d.g (sLoc .pwr) PWR_STAT.WARN) reg
/-- What a page refuses when a request for the pages `ps` is written (R490): codes of Table 25.3 and the blocks' own. -/
def Dev.requestCodes (r : Referee) (d : Dev) (ps : List Nat) (p : Nat) : List Nat :=
  match pageRowOf p with
  | none => []
  | some (row, _) =>
    let reg := p / 4096
    let b := d.bound p
    let heads := ps.any (fun q => d.bound q = 2) && ps.any (fun q => d.bound q = 3)
    match row.noShadow with
    | some code => [code]
    | none =>
      (if d.grp p ≠ 0 ∧ (List.range 3).any (fun o => o ≠ reg && (pagesOf o).any (fun q => d.grp q = d.grp p)) then [0x01] else [])
      ++ (if d.warnAt reg then [0x02] else [])
      ++ (if row.bounds.contains b then [] else [boundCode row.block])
      ++ (if ps.any (fun q => d.bound q ≠ b) then
            (if heads ∧ row.block = .prz then [0xE7] else if heads ∧ row.block = .dhd then [0xF6] else [0x04]) else [])
      ++ (if frozenAt r reg then [0x06] else [])
      ++ (if b = 1 ∧ row.bounds.contains 1 ∧ (d.grp p = 0 ∨
            !((List.range 8).any (fun e => (List.range 32).any (fun c => d.g (rowL (Half.ofRegion reg) e) (ROW_XCFG.GRP.ix c) = d.grp p)))) then [0x07] else [])
      ++ (if row.block = .hrn ∧ d.on (locOf p) HRN_STAT.COPY then [0x62] else [])
/-- A context with GLINK = 1 whose row-boundary group is refused reports GROUP_FAIL; its set stays pending for the next step 1
(R126, R125; notes/assumptions/59.md). -/
def Dev.tellContexts (d : Dev) (ps : List Nat) : Dev :=
  match ps.find? (fun p => p / 4096 < 2 && d.bound p = 1 && d.grp p ≠ 0) with
  | none => d
  | some p =>
    let h := Half.ofRegion (p / 4096)
    (List.range 256).foldl (fun x k =>
      let l := rowL h (k / 32)
      if d.g l (ROW_XCFG.GRP.ix (k % 32)) = d.grp p ∧ d.on l (ROW_XCFG.GLINK.ix (k % 32)) then x.p (cxL h (k / 32) (k % 32)) ROW_CSTAT.REFUSE 0x05 else x) d
/-- Refuse the pages `ps`: each shows its own lowest code, or GROUP_FAIL (R490). -/
def Dev.refuseAll (d : Dev) (ps : List Nat) (codes : Nat → List Nat) : Dev :=
  (ps.foldl (fun x p => x.refuse p ((codes p).min?.getD 0x05)) d).tellContexts ps

/-! ### Swaps (R487) -/

/-- The D4 page swaps the registers of composition `c` and those both share (R379). -/
def Dev.swapL7 (d : Dev) (c : Nat) : Dev :=
  let offs := [PRZ_L7RANGE.BASE.off, PRZ_L7CTL.PLUTLOCK.off, (PRZ_MAXAGE.MAXAGE.ix c).off, (PRZ_STALECOL.COL.ix c).off]
    ++ (List.range 16).map (fun j => 0x100 + 0x40 * c + 4 * j)
  let d1 := offs.foldl (fun x o => x.wr przD4 o (d.rdS przD4 o)) d
  (d1.p przD4 PG_COMMIT.PENDING 0).p przD4 PG_COMMIT.RESULT 0
/-- One page swaps. -/
def Dev.swapOne (d : Dev) (p : Nat) : Dev :=
  match pageRowOf p with
  | some (row, i) =>
    if row.block = .hrn then d.swapHrn (Half.ofRegion (p / 4096))
    else if row.block = .prz ∧ i = 2 then d.swapL7 (d.bound p - 2)
    else d.swapPage (locOf p)
  | none => d
/-- What a block does at its swap; `d0` is the part before the swap. -/
def Dev.hook (d0 d : Dev) (p : Nat) : Dev :=
  match pageRowOf p with
  | none => d
  | some (row, i) =>
    let reg := p / 4096
    let h := Half.ofRegion reg
    let l := locOf p
    match row.block with
    | .beam => d.afterBeamSwap h (d0.beamsOn h)
    | .rlk => d.rlkSwapped h i
    | .lpe => d.lpeSwapped h i (d0.rd l LPE_BIND.ENGINE.off)
    | .cxp => d.cxpSwapped h i (d0.rd l CXP_CFG.RATE.off)
    | .tmr => d.tmrSwapped reg i (d0.rd l TMR_CFG.MODE.off) (d0.rd l TMR_CMP.CMP.off)
    | .dhd => d.headSwapped i (d0.rd l DHD_CFG.EN.off)
    | .nvh =>
      let d1 := if d0.on l NVH_CFG.EN ∧ !d.on l NVH_CFG.EN then (d.p l NVH_STAT.DRIVE 0).p l NVH_STAT.MOUNTED 0 else d
      if d0.g l NVH_PTBASE.BASE = d.g l NVH_PTBASE.BASE then d1 else { d1 with ptab := SMap.erase (fun k => k / 2 ^ 20 = h.n) d1.ptab }
    | .prz => if i = 2 then d.l7Refresh (d0.bound p - 2) else d
    | .mec => d.refreshRate l
    | _ => d
/-- The pages `ps` swap in one cycle, and each block does what its swap adds. -/
def Dev.swapAll (d : Dev) (ps : List Nat) : Dev :=
  let d1 := ps.foldl Dev.swapOne d
  let d2 := ps.foldl (fun x p => d.hook x p) d1
  let gp := ps.filter (fun q => (pageOf 2 .gpx 0 ≤ q ∧ q ≤ pageOf 2 .gpx 9))
  if gp = [] then d2 else d.pinEdges (d2.gpxSwapped gp)
/-- The boundary of the pages `ps`: validated as the shadow sets stand, they swap, or are refused and stay armed (R490, R491). -/
def Dev.attempt (d : Dev) (ps : List Nat) : Dev :=
  if ps = [] then d
  else if ps.any (fun p => d.pageCodes ps p ≠ []) then d.refuseAll ps (d.pageCodes ps)
  else d.swapAll ps

/-- Does a page wait for an edge of its own: a sampling edge (R60), a line marker (R265), a frame boundary (R200), the end of its
validation (R147), the end of a render (R97)? -/
def Dev.waits (d : Dev) (p : Nat) : Bool :=
  match pageRowOf p with
  | none => false
  | some (row, i) =>
    let h := Half.ofRegion (p / 4096)
    let l := locOf p
    match row.block with
    | .beam => d.clocked l
    | .lpe => d.clocked l
    | .rlk => d.clocked l && d.pst h i ≠ psDown
    | .hrn => d.on l HRN_STAT.VALIDATING
    | .row => d.clocked l && ((d.eng h i).cur.isSome || (d.eng h i).lcur.isSome)
    | _ => false
/-- Does a page hold back the edge of another of its group: a validation (R147) or a render (R97) runs? -/
def Dev.holdsBack (d : Dev) (p : Nat) : Bool :=
  match pageRowOf p with
  | some (row, _) => (row.block = .hrn || row.block = .row) && d.waits p
  | none => false
/-- Is the head of a DHD page stopped, so that a commit on its page swaps immediately (R393)? -/
def Dev.headIdle (d : Dev) (p : Nat) : Bool :=
  (p = pageOf 2 .dhd 0 && !d.on (dhdL 0) DHD_STAT.RUN) || (p = pageOf 2 .dhd 1 && !d.on (dhdL 1) DHD_STAT.RUN)
/-- An armed request meets an immediate boundary that no page of its group holds back. -/
def Dev.settle (d : Dev) (p : Nat) : Dev :=
  let ps := d.armedWith p
  if d.armed p ∧ ((ps.all (fun q => d.bound q = 0) ∧ !ps.any d.waits) ∨ ps.any d.headIdle) then d.attempt ps else d
/-- The edge that a page with an immediate boundary waits for has come. -/
def Dev.ownEdge (d : Dev) (p : Nat) : Dev :=
  let ps := d.armedWith p
  if d.armed p ∧ ps.all (fun q => d.bound q = 0) ∧ !ps.any d.holdsBack then d.attempt ps
  else d
/-- A boundary of select `b` of the pages `ps` (latch points, audio block): each armed group among them meets it once. -/
def Dev.boundary (d : Dev) (b : Nat) (ps : List Nat) : Dev :=
  (ps.foldl (fun (x : List Nat × Dev) p =>
    if x.1.contains p ∨ !x.2.armed p ∨ x.2.bound p ≠ b then x
    else let gs := x.2.armedWith p; (x.1 ++ gs, x.2.attempt gs)) ([], d)).2

/-! ### PG_COMMIT (R488, R490) -/

/-- CANCEL withdraws the armed request of a page and of its group. -/
def Dev.cancel (d : Dev) (p : Nat) : Dev :=
  (d.armedWith p).foldl (fun x q =>
    let y := x.p (locOf q) PG_COMMIT.PENDING 0
    if q % 4096 = 0x009 ∧ q / 4096 < 2 then y.p (locOf q) HRN_STAT.VALIDATING 0 else y) d
/-- Arm a page; the harness unit starts to validate (R147). -/
def Dev.arm1 (d : Dev) (p : Nat) : Dev :=
  let y := d.p (locOf p) PG_COMMIT.PENDING 1
  if p % 4096 = 0x009 ∧ p / 4096 < 2 then y.p (locOf p) HRN_STAT.VALIDATING 1 else y
/-- REQ on a page: the group is armed after the checks of a request, or refused whole. -/
def Dev.request (d : Dev) (r : Referee) (p : Nat) : Dev :=
  let ps := d.members p
  if d.armed p then d
  else if ps.any (fun q => Dev.requestCodes r d ps q ≠ []) then
    (ps.foldl (fun x q => x.p (locOf q) PG_COMMIT.PENDING 0) d).refuseAll ps (Dev.requestCodes r d ps)
  else ((ps.filter (fun q => !d.armed q)).foldl Dev.arm1 d).settle p
/-- A write of PG_COMMIT: GROUP and BOUND, then CANCEL, then REQ. A page without shadowed registers has only REQ. -/
def Dev.commitWrite (d : Dev) (r : Referee) (p : Nat) (v : Nat) : Dev :=
  match pageRowOf p with
  | none => d
  | some (row, _) =>
    let l := locOf p
    let d1 := if row.noShadow.isSome then d else (d.p l PG_COMMIT.GROUP (v / 2 ^ 4 % 16)).p l PG_COMMIT.BOUND (v / 2 ^ 8 % 16)
    let d2 := if bit v 2 then d1.cancel p else d1
    if bit v 0 then d2.request r p else d2

/-! ### The reset of a block (R478) and of a region -/

/-- The registers of a page that a block reset leaves: lock, bucket, and what stands for the world outside the block (levels, links,
geometry, training), and for the decode table. -/
def keptAtReset (b : Block) (off : Nat) : Bool :=
  off = 0x034 || off = 0x038 ||
  (match b with
   | .mec => off = MEC_GEOM.DENSITY.off || off = MEC_STAT.TRAINED.off || off = MEC_TEMP.TEMP.off
   | .hif => off = HIF_STAT.LINKUP.off
   | .gpx => off = GPX_BSTAT.DET18.off
   | .ucs => (UCS_DEC.ENTRY.ix 0).off ≤ off && off ≤ (UCS_DEC.ENTRY.ix 15).off
   | _ => false)
/-- The registers of a page at their reset values but for those kept, with BROWNOUT_SEEN (Table 24.3). -/
def Dev.regsReset (d : Dev) (b : Block) (p : Nat) : Dev :=
  let seen := d.g (locOf p) PG_STAT.BROWNOUT_SEEN
  let hit (k : Nat) : Bool := k / 0x100000 = p && !(k % 0x100000 < 0x1000 && keptAtReset b (k % 0x1000))
  let own (k : Nat) : Bool := k / 256 = p
  ({ d with regs := SMap.erase hit d.regs, shadow := SMap.erase hit d.shadow, views := SMap.erase own d.views, csels := SMap.erase own d.csels,
            mawIdx := SMap.erase own d.mawIdx, staging := SMap.erase (fun k => k / 2048 = p) d.staging,
            eccLog := SMap.erase (fun k => k / 8 = p) d.eccLog }).p (locOf p) PG_STAT.BROWNOUT_SEEN seen
/-- What a block holds behind its registers, at reset; its memories keep their contents. -/
def Dev.unitReset (d : Dev) (b : Block) (reg i : Nat) : Dev :=
  let h := Half.ofRegion reg
  let n := h.n
  match b with
  | .beam =>
    let hit (k : Nat) : Bool := k / 4 = n
    let d1 := { d with beams := SMap.erase hit d.beams, snaps := SMap.erase hit d.snaps, preds := SMap.set (fun _ => {}) d.preds n {}, bhist := SMap.erase hit d.bhist }
    (match h with
     | .A => { d1 with xqA := [], xlA := [] }
     | .B => { d1 with xqB := [], xlB := [] })
  | .row =>
    let k := n * 8 + i
    let cores (x : Nat) : Bool := x = n * 16 + 2 * i || x = n * 16 + 2 * i + 1
    let d1 := { d with
      engines := SMap.modify (fun _ => {}) d.engines k (fun e => { tc := e.tc, mc := e.mc, rrc := e.rrc.filter (fun y => y.gathered) }),
      ctxs := SMap.erase (fun x => x / 32 = k) d.ctxs,
      slots := SMap.erase (fun x => cores (x / 32)) d.slots,
      openRel := SMap.erase cores d.openRel }
    (match h with
     | .A => { d1 with pagesA := d1.pagesA.filter (fun q => q.engine ≠ i) }
     | .B => { d1 with pagesB := d1.pagesB.filter (fun q => q.engine ≠ i) })
  | .hrn => d.modHarn h (fun x => { x with offs := 0 })
  | .seal => { d with seals := SMap.set (fun _ => ({} : SealUnit)) d.seals n {} }
  | .rlk => { d with ports := SMap.set (fun _ => ({} : Port)) d.ports (n * 64 + i) {} }
  | .lpe => d.modPipe h i (fun x => { ff0 := x.ff0, ff1 := x.ff1, kn0 := x.kn0, kn1 := x.kn1, active1 := x.active1 })
  | .cxp => { d with cxps := SMap.set (fun _ => ({} : Cxp)) d.cxps (n * 2 + i) {} }
  | .kxc => d.kxcReset reg i
  | .dma => { d with dmas := SMap.erase (fun k => k / 16 = reg) d.dmas }
  | .scb => (match h with
    | .A => { d with esrcA := [] }
    | .B => { d with esrcB := [] })
  | .nvh => { d with nvhs := SMap.set (fun _ => ({} : Nvh)) d.nvhs n {} }
  | .evc =>
    { d with evcTab := SMap.erase (fun k => k / 512 = reg) d.evcTab,
             inService := SMap.erase (fun k => k / 64 = reg) d.inService,
             lastMsg := SMap.erase (fun k => k / 64 = reg) d.lastMsg }
  | .tmr => { d with timers := SMap.set (fun _ => ({} : Timer)) d.timers (reg * 16 + i) {} }
  | .prz => if i < 2 then { d with prisms := SMap.set (fun _ => ({} : Prism)) d.prisms i {} } else d
  | .dhd => { d with heads := SMap.set (fun _ => ({} : Head)) d.heads i {} }
  | .blt => { d with blt := none }
  | .aud => { d with aud := { wave := d.aud.wave } }
  | _ => d
/-- Is a block reset refused (R478)? -/
def Dev.resetRefused (d : Dev) (r : Referee) (b : Block) (reg i : Nat) : Bool :=
  let h := Half.ofRegion reg
  let busy : Bool := r.hs h = .charge || r.hs h = .standby || r.hs h = .split
  match b with
  | .row => (List.range 32).any (fun c => d.cst h i c ≠ .idle)
  | .beam => busy
  | .hrn => busy
  | .aeq => busy
  | .seal => busy
  | .rlk => d.pst h i ≠ psDown
  | .dhd => d.on (dhdL i) DHD_STAT.RUN
  | .ref => true
  | .cfg => true
  | .sec => true
  | .pwr => true
  | _ => false
/-- A write of PG_CTL.RESET; an armed request of the page, with its group, is cancelled (R491). -/
def Dev.blockReset (d : Dev) (r : Referee) (p : Nat) : Dev :=
  match pageRowOf p with
  | none => d
  | some (row, i) =>
    if d.resetRefused r row.block (p / 4096) i then d.cfgErr p
    else (if d.armed p then d.cancel p else d).withLines p (fun x => (x.regsReset row.block p).unitReset row.block (p / 4096) i)

/-- A write of PG_CTL.ENABLE (R481): the clock of every page but REF, CFG, SEC, PWR and EVC; not of the Loupe on an NA part (R2). -/
def Dev.clockGate (d : Dev) (r : Referee) (p : Nat) (on : Bool) : Dev :=
  match pageRowOf p with
  | none => d
  | some (row, i) =>
    let h := Half.ofRegion (p / 4096)
    let l := locOf p
    let fixed : Bool := match row.block with
      | .ref => true
      | .cfg => true
      | .sec => true
      | .pwr => true
      | .evc => true
      | .lpe => Config.fusedNA
      | .cxp => Config.fusedNA
      | _ => false
    if fixed then d
    else
      let was := d.clocked l
      let d0 := if row.block = .lpe ∧ was ∧ !on then d.closeRow h i true else d
      let d1 := d0.p l PG_CTL.ENABLE (b2n on)
      let d2 := if !on then d1.settle p else d1
      match row.block with
      | .lpe =>
        if on ∧ !was then
          -- an enable with no legal travel log is rejected (R252)
          (let d3 := if d.g l LPE_TLOG_LO.DLOG2 < 8 ∨ 16 < d.g l LPE_TLOG_LO.DLOG2 then d2.raise l 7 else d2
           if r.hs h = .charge ∨ r.hs h = .standby ∨ r.hs h = .split then d3.pipeStart h i else d3)
        else if !on ∧ was then d2.p l LPE_STAT.RUN 0
        else d2
      | .cxp => if on ∧ !was then d2.modCxp h i (fun x => { x with lastTrig := none }) else d2
      | _ => d2

end Sys2Proof.Machine
end

