-- ==== Sys2Proof/Machine/Engines.lean ====
section
/-!
DEFINITION. The commands a DMA channel and the blitter take (R361, R362, R364, R368, R405, R406). What their accesses do is in
Machine/Dma.lean and Machine/Blt.lean.
-/
namespace Sys2Proof.Machine

open Sys2Proof

/-! ### DMA (chapter 15) -/

/-- The DMA page of a region and one of its channels. -/
def dmaL (r : Nat) : Loc := rLoc r .dma
def Dev.dma (d : Dev) (r c : Nat) : DmaCh := SMap.get (fun _ => {}) d.dmas (r * 16 + c)
def Dev.modDma (d : Dev) (r c : Nat) (f : DmaCh → DmaCh) : Dev := { d with dmas := SMap.modify (fun _ => {}) d.dmas (r * 16 + c) f }
/-- The channel states (Table 15.2). -/
def dmaIdle : Nat := 0
def dmaRun : Nat := 1
def dmaEnd : Nat := 2
def dmaStopped : Nat := 3
def Dev.dmaState (d : Dev) (r c : Nat) : Nat := d.g (dmaL r) (DMA_CTL.STATE.ix c)
def Dev.dmaSet (d : Dev) (r c st : Nat) (ph : DmaPhase) : Dev :=
  (d.p (dmaL r) (DMA_CTL.STATE.ix c) st).modDma r c (fun x => { x with phase := ph, stopping := false })
/-- How many channels a region has. -/
def dmaCount (r : Nat) : Nat := if r = 2 then 8 else 16

/-- START (R361): a fetch begins; ignored in RUN. -/
def Dev.dmaStart (d : Dev) (r c : Nat) : Dev := if d.dmaState r c = dmaRun then d else d.dmaSet r c dmaRun .fetch
/-- DOORBELL (R362): sets RING in RUN; in END words 6 and 7 are read again. -/
def Dev.dmaBell (d : Dev) (r c : Nat) : Dev :=
  if d.dmaState r c = dmaRun then d.p (dmaL r) (DMA_CTL.RING.ix c) 1
  else if d.dmaState r c = dmaEnd then d.dmaSet r c dmaRun .reread
  else d
/-- STOP (R364): in RUN it acts at the next access boundary, in END at once. -/
def Dev.dmaStop (d : Dev) (r c : Nat) : Dev :=
  if d.dmaState r c = dmaRun then d.modDma r c (fun x => { x with stopping := true })
  else if d.dmaState r c = dmaEnd then (d.dmaSet r c dmaStopped .none).p (dmaL r) (DMA_STAT.STATUS.ix c) 5
  else d
/-- A write of DMA_CTLc: STOP, START, DOORBELL in that order (R368). -/
def Dev.dmaCtl (d : Dev) (r c v : Nat) : Dev :=
  let d1 := if bit v 2 then d.dmaStop r c else d
  let d2 := if bit v 0 then d1.dmaStart r c else d1
  if bit v 1 then d2.dmaBell r c else d2
/-- A write of DMA_LATCH: the three counters of a channel show (R365). -/
def Dev.dmaLatch (d : Dev) (r c : Nat) : Dev :=
  if dmaCount r ≤ c then d
  else
    let x := d.dma r c
    ((d.p (dmaL r) (DMA_TAKEN.COUNT.ix c) x.taken).p (dmaL r) (DMA_DONE.COUNT.ix c) x.done).p (dmaL r) (DMA_FAIL.COUNT.ix c) x.fail

/-- A write to a DMA page: the channel exists, its region is there and not frozen. -/
def onDma (r : Fin 3) (c : Fin 16) (f : Dev → Dev) : State → Answer :=
  onDev (fun s => if dmaCount r ≤ c.val ∨ !s.regionOn r then s.dev else f (s.dev.seq (dmaL r)))
def execDmaStart (r : Fin 3) (c : Fin 16) : State → Answer := forwardedR r (fun r => onDma r c (fun d => d.dmaCtl r c 1))
def execDmaDoorbell (r : Fin 3) (c : Fin 16) : State → Answer := forwardedR r (fun r => onDma r c (fun d => d.dmaCtl r c 2))
def execDmaStop (r : Fin 3) (c : Fin 16) : State → Answer := forwardedR r (fun r => onDma r c (fun d => d.dmaCtl r c 4))
def execDmaLatch (r : Fin 3) (c : Fin 16) : State → Answer := forwardedR r (fun r => onDma r c (fun d => d.dmaLatch r c))

/-! ### Blitter (chapter 18) -/

def bltL : Loc := sLoc .blt
/-- GO (R405): the operation's registers are captured, or the command is dropped while BUSY. -/
def Dev.bltGo (d : Dev) : Dev :=
  if d.on bltL BLT_STAT.BUSY then (d.sat bltL BLT_CNT.REJ).raise bltL 2
  else { d.p bltL BLT_STAT.BUSY 1 with blt := some { regs := d.regs.filter (fun e => bltL + 0x800 ≤ e.1 && e.1 < bltL + 0x844), held := d.on (sLoc .pwr) PWR_STAT.DIM } }
/-- ABORT (R406): ignored while BUSY = 0. -/
def Dev.bltAbort (d : Dev) : Dev := if d.on bltL BLT_STAT.BUSY then { d with blt := d.blt.map (fun b => { b with abort := true }) } else d
/-- A write of BLT_CMD: OP, BLEND and TRANSP, then ABORT and GO. -/
def Dev.bltCmd (d : Dev) (v : Nat) : Dev :=
  let d1 := d.wr bltL BLT_CMD.OP.off (maskPut 0x770 (BitVec.ofNat 32 v) 0)
  let d2 := if bit v 1 then d1.bltAbort else d1
  if bit v 0 then d2.bltGo else d2
/-- A write to the BLT page. -/
def onBlt (f : Dev → Dev) : State → Answer := onSvcReg (fun s => f (s.dev.seq bltL))
/-- BLT_GO: a write of GO with the operation, blend and transparency it names. -/
def execBltGo (op : Fin 8) (blend : Fin 4) (transp : Bool) : State → Answer :=
  onBlt (fun d => d.bltCmd (1 + op.val * 2 ^ 4 + blend.val * 2 ^ 8 + b2n transp * 2 ^ 10))
/-- BLT_ABORT: a write of ABORT that keeps the other fields of BLT_CMD. -/
def execBltAbort : State → Answer := onBlt (fun d => d.bltAbort)

end Sys2Proof.Machine
end

