-- ==== Sys2Proof/Machine/Transfer.lean ====
section
/-!
DEFINITION. What a half in charge hands to the half that rejoins (R221 steps 3 and 4, R352): the half's registers, harness, motifs, ports
and beams, and each context with its channels.
-/
namespace Sys2Proof.Machine

open Sys2Proof

/-- The entries of unit `p` that `sel` names, over those of unit `x`; a unit has `size` keys. -/
def mirrorKeys {α : Type} [DecidableEq α] (dflt : Nat → α) (m : SMap α) (size p x : Nat) (sel : Nat → Bool) : SMap α :=
  (m.filter (fun e => e.1 / size = p && sel (e.1 % size))).foldr (fun e y => SMap.set dflt y (x * size + e.1 % size) e.2)
    (SMap.erase (fun k => k / size = x && sel (k % size)) m)
/-- Registers of a region that `sel` names by location in the region. -/
def Dev.copyRegs (d : Dev) (x : Half) (sel : Nat → Bool) : Dev :=
  { d with regs := mirrorKeys regReset d.regs (2 ^ 32) x.peer.n x.n sel }
def Dev.copySets (d : Dev) (x : Half) (sel : Nat → Bool) : Dev :=
  { d.copyRegs x sel with shadow := mirrorKeys regReset d.shadow (2 ^ 32) x.peer.n x.n sel }

/-- What `x` takes of its peer's port (R221 step 3): SEQ values, credits, ES, CR, unacknowledged frames, and the epoch that R195 needs. -/
def Dev.copyPort (d : Dev) (x : Half) (p : Nat) : Dev :=
  let o := d.port x.peer p
  let d1 := d.modPort x p (fun y => { y with rxNext := o.rxNext, unack := o.unack, rtx := o.rtx, dead := o.dead, sts := o.sts, credits := o.credits })
  [RLK_EPOCH.EPOCH.off, RLK_SEQ.TXNEXT.off, RLK_CREDIT.C.off, RLK_ES.COUNT.off, RLK_CR.COUNT.off].foldl (fun y off => y.wr (rlkL x p) off (y.rd (rlkL x.peer p) off)) d1
/-- What `x` takes of its peer's enabled beam: count and revolution, and the state they stand in. -/
def Dev.copyBeam (d : Dev) (x : Half) (b : Nat) : Dev :=
  if !d.beamsOn x.peer b then d
  else
    let o := d.beam x.peer b
    d.setBeam x b { d.beam x b with u := o.u, ext := o.ext, uIdx := o.uIdx, pos := o.pos, aLast := o.aLast, state := o.state, dir := o.dir, inHyst := o.inHyst }
/-- STATE, half (R221 step 3). -/
def Dev.copyHalf (d : Dev) (x : Half) : Dev :=
  let p := x.peer
  let d1 := d.copySets x (fun k => k % 0x100000 < 0x1000 && 0x040 ≤ k % 0x1000 && k % 0x1000 < 0x800)
  let d2 : Dev := { d1 with
    harness := SMap.set (fun _ => {}) d1.harness x.n (d1.harn p)
    motifs := mirrorKeys (fun _ => 0) d1.motifs 32768 p.n x.n (fun _ => true)
    ptab := mirrorKeys (fun _ => 0) d1.ptab (2 ^ 20) p.n x.n (fun _ => true) }
  (List.range 4).foldl (fun y b => y.copyBeam x b) ((List.range 64).foldl (fun y q => y.copyPort x q) d2)
/-- The rejoining half takes each LOADING entry as ABSENT, in its own table and in DRAM, and loads the page from its own drive (R352), by the deadline
that its peer's Read has. -/
def Dev.dropLoading (d : Dev) (r : Referee) (x : Half) : List MemOp × Dev :=
  (d.ptab.filter (fun e => e.1 / 2 ^ 20 = x.n && pteMapped e.2 && pteState e.2 = 1)).foldl
    (fun y e =>
      let g := e.1 % 2 ^ 20
      let t := ((d.nvh x.peer).out.find? (fun o => o.page = g)).elim 0 (fun o => o.time)
      Dev.setPte (y.1, y.2.queueLoad x g t) r x g (pteWith e.2 0)) ([], d)

/-- The words of a ROW page that belong to context `c`. -/
def ctxWords (c : Nat) : List Nat :=
  [(ROW_XCFG.LPEN.ix c).off, (ROW_HR_LO.DLOG2.ix c).off, (ROW_HR_HI.BASE_HI.ix c).off, (ROW_HWM.H.ix c).off, (ROW_REVST.RECS.ix c).off,
   (ROW_RCNT.REVROWS.ix c).off, (ROW_RERR.SKIPS.ix c).off, (ROW_MOVF.DROPS.ix c).off, (ROW_MERR.BAD.ix c).off, (ROW_MPEAK.PEAK.ix c).off,
   (ROW_RIDX.BASE.ix c).off]
/-- Does a channel name a context in the active harness bank of a half (R221 step 4)? -/
def Dev.names (d : Dev) (h : Half) (k ch : Nat) : Bool := enXform (entryOf (d.harn h).active ch) ≠ 15 && enCtx (entryOf (d.harn h).active ch) = k
/-- STATE of one context (R221 step 4): its registers, its record, H, RECS and ARMGEN, and the channels that name it; its first release
in `x` carries FIRST = 1 (R222). -/
def Dev.copyCtx (d : Dev) (x : Half) (k : Nat) : Dev :=
  let e := k / 32
  let c := k % 32
  let page := pageOf 0 .row e
  let d1 := d.copySets x (fun q => q / 0x100000 = page && q % 0x100000 / 0x1000 = c + 1)
  let d2 := (ctxWords c).foldl (fun y off => y.wr (rowL x e) off (y.rd (rowL x.peer e) off)) d1
  let d3 := d2.modCx x e c (fun _ => { d2.cx x.peer e c with first := true })
  { d3 with chans := mirrorKeys (fun _ => {}) d3.chans 65536 x.peer.n x.n (d3.names x.peer k) }

end Sys2Proof.Machine
end

