-- ==== Sys2Proof/Machine/Referee.lean ====
section
/-!
DEFINITION. The referee's decisions (R208–R219), fences and epochs (R212–R214), self-checks (R207), the comparison of the
time bases (R29, R30), the observation of a rejoin (R221), and its mailboxes (R231, R437).
-/
namespace Sys2Proof.Machine

open Sys2Proof

/-- The referee island and the devices, which its commands change together. -/
abbrev RD := Referee × Dev

def Referee.setHs (r : Referee) (h : Half) (s : HalfState) : Referee :=
  match h with | .A => { r with hsA := s } | .B => { r with hsB := s }
def Referee.setFence (r : Referee) (h : Half) (b : Bool) : Referee :=
  match h with | .A => { r with fenceA := b } | .B => { r with fenceB := b }
def Referee.setReissue (r : Referee) (h : Half) (b : Bool) : Referee :=
  match h with | .A => { r with reissueA := b } | .B => { r with reissueB := b }
def Referee.reissue (r : Referee) : Half → Bool
  | .A => r.reissueA
  | .B => r.reissueB
/-- Is a decision, takeover or rejoin in progress (R215)? -/
def Referee.busy (r : Referee) : Bool := r.act ≠ .idle || r.rjHalf.isSome
/-- Codes of Table 08.5. -/
def HalfState.code : HalfState → Nat
  | .off => 0 | .init => 1 | .standby => 2 | .charge => 3 | .quarantine => 4 | .rejoining => 5 | .split => 6
/-- The state of a code of Table 08.5; code 7 is never shown. -/
def HalfState.ofCode : Nat → HalfState
  | 1 => .init | 2 => .standby | 3 => .charge | 4 => .quarantine | 5 => .rejoining | 6 => .split | _ => .off
/-- The trust rank of R215 step 5, 0 the most trusted. -/
def HalfState.rank : HalfState → Nat
  | .charge => 0 | .standby => 1 | .rejoining => 2 | _ => 3
/-- The location of the REF page. -/
def refL : Loc := rLoc 3 .ref
/-- Raise event `n` of the REF page (R237). -/
def RD.ev (x : RD) (n : Nat) : RD := (x.1, x.2.raise refL n)
/-- No epoch is left to issue (R212). -/
def Referee.noEpoch (r : Referee) : Bool := decide (0xFFFFFFFF ≤ r.epoch)

/-! ### The fault log (R236) -/

/-- A log entry (Table 08.16). -/
def logEntry (v : Vote) (acc : Option Half) (rule outcome epoch : Nat) : Nat :=
  v.tb % 2 ^ 64 + (v.rep.code + v.rep.half.n * 2 ^ 8 + (match acc with | some h => h.n * 2 ^ 9 | none => 2 ^ 10) + rule * 2 ^ 11 + outcome * 2 ^ 14
    + epoch % 2 ^ 15 * 2 ^ 17) * 2 ^ 64 + v.rep.det % 2 ^ 32 * 2 ^ 96
/-- Write a vote's entry, while it still stands in the log. -/
def Referee.logPut (r : Referee) (v : Vote) (e : Nat) : Referee :=
  match v.entry with
  | none => r
  | some n => { r with flog := SMap.set (fun _ => 0) r.flog (n % 64) e }
/-- The referee votes on a report and logs it (R215 step 1). -/
def RD.vote (x : RD) (rep : Report) : Vote × RD :=
  let v : Vote := ⟨rep, some x.1.flogTotal, x.2.tb x.1.inCharge⟩
  let r := { x.1 with flogTotal := (x.1.flogTotal + 1) % 2 ^ 32 }
  (v, RD.ev (r.logPut v (logEntry v none 0 0 r.epoch), x.2) 9)
/-- Microseconds from a vote until now, saturating. -/
def RD.since (x : RD) (v : Vote) : Nat := min 65535 ((x.2.tb x.1.inCharge - v.tb) / 100)
/-- A report is decided: REF_LASTDEC is written and its log entry completed (R215 step 6). -/
def RD.finish (x : RD) (v : Vote) (acc : Option Half) (rule outcome elapsed : Nat) : RD :=
  ({ x.1.logPut v (logEntry v acc rule outcome x.1.epoch) with
      lastdec := v.rep.code + (match acc with | some h => h.n * 2 ^ 8 | none => 2 ^ 9) + rule * 2 ^ 10 + outcome * 2 ^ 13 + elapsed * 2 ^ 16 }, x.2)

/-! ### Half states (R210, R220) -/

/-- The peer of half `h` no longer compares (R205): entries and records not held go, and every instance not held is clear. -/
def Dev.peerLost (d : Dev) (h : Half) : Dev :=
  let d1 := d.modSeal h (fun u => { u with own := u.own.filter (fun y => y.held), peer := u.peer.filter (fun y => y.held), out := [] })
  d1.mapChans h (fun _ c => { c with q := c.q.map (fun e => { e with clear := e.clear || !d.isHeld h e.inst }) })
/-- Every port of a half takes a state. -/
def Dev.allPorts (d : Dev) (_ : Half) (f : Dev → Nat → Dev) : Dev := (List.range 64).foldl f d
/-- A half freezes (R220): its cores halt, its ports enter QUARANTINE, its peer stops comparing. -/
def Dev.freeze (d : Dev) (h : Half) : Dev :=
  let d1 := (List.range 20).foldl (fun y c =>
    if y.krunning h.n c then y.kstop h.n c ksHalted else y) d
  (d1.allPorts h (fun y p => (y.p (rlkL h p) RLK_STAT.STATE psQuarantine).modPort h p (fun z => { z with lead := false }))).peerLost h.peer
/-- A half enters QUARANTINE; a half without supply stays OFF (R475). -/
def RD.quarantine (x : RD) (h : Half) : RD :=
  if x.1.hs h = .off then x else RD.ev (x.1.setHs h .quarantine, x.2.freeze h) 1
/-- A half enters STANDBY: its ports in UP are FENCED. -/
def RD.standby (x : RD) (h : Half) : RD :=
  (x.1.setHs h .standby, (x.2.allPorts h (fun y p => (if y.pst h p = psUp then y.enterFenced h p else y).modPort h p (fun z => { z with lead := false }))).pipesStart h)
/-- The CHARGE command (R212, R217 step 3): the epoch advances and is issued to both halves; the ports of the half in charge take it (R197). -/
def RD.charge (x : RD) (h : Half) : RD :=
  let r := { (x.1.setHs h .charge).setFence h false with epoch := x.1.epoch + 1, inCharge := h }
  (r, ((x.2.allPorts h.peer (fun y p => y.issueEpoch r.epoch h.peer p)).allPorts h (fun y p => y.chargePort r.epoch true h p)).pipesStart h)
/-- Entry into SPLIT (R212), and R214 on a half that is there. -/
def RD.splitEnter (x : RD) (h : Half) : RD :=
  let r := { (x.1.setHs h .split).setFence h false with epoch := x.1.epoch + 1 }
  (r, (x.2.allPorts h (fun y p => y.chargePort r.epoch false h p)).pipesStart h)
/-- Assert STOP_REQ lines. -/
def RD.stop (x : RD) (a b : Bool) : RD := RD.ev ({ x.1 with stopA := x.1.stopA || a, stopB := x.1.stopB || b }, x.2) 7
/-- Assert a half's fence and wait for its ports (R213 steps 1 and 2). -/
def RD.fenceHalf (x : RD) (h : Half) : RD :=
  (x.1.setFence h true, x.2.allPorts h (fun y p => y.modPort h p (fun z => { z with fenced := false })))
/-- Has a port confirmed the fence (R213)? A port that is off sends nothing. -/
def Dev.confirmed (d : Dev) (h : Half) (p : Nat) : Bool :=
  (d.port h p).fenced || (d.port h p).drvOff || d.pst h p == psDown || d.pst h p == psQuarantine

/-- A rejoin fails (R221): the half returns to QUARANTINE. -/
def RD.rejoinEnd (x : RD) (h : Half) : RD :=
  RD.ev (RD.quarantine ({ x.1 with rjPhase := 0, rjHalf := none, rjCtxs := [], rjEqual := [] }, x.2) h) 3
/-- A rejoin fails without a fault report: logged with its phase (notes/assumptions/37.md). -/
def RD.rejoinFail (x : RD) (h : Half) : RD :=
  let v := x.vote ⟨h, 0, 0, x.1.rjPhase, false, false⟩
  (v.2.rejoinEnd h).finish v.1 (some h) 0 4 0

/-! ### Decisions (R209, R215, R216) -/

/-- The state that Table 08.6 uses for the accused half: for BROWNOUT_RESET the one it had before its supply fell (R475). -/
def Referee.accusedState (r : Referee) (v : Vote) (h : Half) : HalfState :=
  if v.rep.code = 0x0C ∧ v.rep.half = h then HalfState.ofCode v.rep.obj else r.hs h
/-- Step 6: Table 08.6. -/
def RD.outcome (x : RD) (v : Vote) (acc : Option Half) (rule : Nat) : RD :=
  let x0 : RD := ({ x.1 with act := .idle }, x.2)
  let el := x.since v
  match acc with
  | none => x0.finish v none rule 0 el
  | some h =>
    match x.1.accusedState v h with
    | .standby => ((RD.quarantine x0 h).1.setReissue h.peer true, (RD.quarantine x0 h).2) |> fun y => RD.finish y v acc rule 1 el
    | .charge =>
      if x.1.hs h.peer = .standby ∧ x.1.noEpoch = false then
        RD.fenceHalf ({ x0.1 with act := .takeover v h rule el }, x0.2) h
      else ((x0.quarantine h).stop true true).finish v acc (if x.1.hs h.peer = .standby then 5 else rule) 3 el
    | .rejoining => (x0.rejoinEnd h).finish v acc rule 4 el
    | .split => ((x0.quarantine h).stop (h == .A) (h == .B)).finish v acc rule 5 el
    | _ => x0.finish v acc rule 0 el

/-- Step 5 where the self-check decides: the accused half and the rule. -/
def Referee.selfCheckAccuses (r : Referee) (a b : SelfCheck) : Half × Nat :=
  let bad (w : SelfCheck) : Bool := match w with | .word v => v % 128 ≠ 0 | _ => true
  let less : Half := if (r.hs .A).rank < (r.hs .B).rank then .B else if (r.hs .B).rank < (r.hs .A).rank then .A else r.prefer.peer
  match bad a, bad b with
  | true, false => (.A, 2)
  | false, true => (.B, 2)
  | false, false => (less, 3)
  | true, true => (less, 4)
/-- The half that Table 08.4 accuses for a code that the self-check does not decide. -/
def RD.tableAccuses (x : RD) (rep : Report) : Option Half :=
  let portAccuses : Option Half :=
    if x.2.pst rep.half.peer rep.det = psFenced ∧ x.2.on (rlkL rep.half.peer rep.det) RLK_STAT.LOCKED then some rep.half else none
  if rep.svc then none else match rep.code with
  | 0x02 => some (if rep.miss then rep.half else rep.half.peer)
  | 0x04 | 0x05 | 0x06 | 0x07 | 0x08 | 0x0C | 0x0D => some rep.half
  | 0x09 | 0x0A => portAccuses
  | 0x0B => some rep.half.peer
  | _ => none

/-- EPOCH_AHEAD (R214). -/
def RD.epochAhead (x : RD) (v : Vote) : RD :=
  let h := v.rep.half
  let r := { x.1 with epoch := max x.1.epoch v.rep.obj }
  if x.1.leads h = false then x.finish v none 0 0 (x.since v)
  else if r.noEpoch then (RD.ev (RD.stop (r, x.2) true true) 6).finish v none 5 3 (x.since v)
  else
    let y : RD := if r.hs h = .split then RD.splitEnter (r, x.2) h else RD.charge (r, x.2) h
    (y.ev 6).finish v none 0 0 (x.since v)

/-- Does a report of the other half match: the same code for the same context, beam, channel or instance? -/
def Report.matches (a b : Report) : Bool := a.code = b.code && a.obj = b.obj && a.half ≠ b.half
/-- Two reports of one common-mode fault: no half is accused (R209). -/
def RD.commonEnd (x : RD) (u v : Vote) : RD :=
  RD.ev (RD.finish (RD.finish ({ x.1 with act := .idle }, x.2) v none 1 0 (x.since v)) u none 1 0 (x.since u)) 4
/-- The window of a common-mode report opens (R209); a report that already waits and was voted on within 20 µs of it matches at once. -/
def RD.openCommon (x : RD) (v : Vote) : RD :=
  match x.1.waiting.find? (fun u => v.rep.matches u.rep && decide (u.tb ≤ v.tb + 2000)) with
  | some u => RD.commonEnd ({ x.1 with waiting := x.1.waiting.erase u }, x.2) v u
  | none => ({ x.1 with act := .common v }, x.2)
/-- CHECK is issued on a seal report (R215 step 4); a SEAL_TMO of the other half on the same instance that already waits is decided with it. -/
def RD.openCheck (x : RD) (v : Vote) : RD :=
  match x.1.waiting.find? (fun u => v.rep.code = 2 && v.rep.matches u.rep) with
  | some u => ({ x.1 with waiting := x.1.waiting.erase u, act := .check v .awaited .awaited (some u) }, x.2)
  | none => ({ x.1 with act := .check v .awaited .awaited none }, x.2)
/-- Steps 3 to 5: the treatment of a voted report starts. -/
def RD.treat (x : RD) (v : Vote) : RD :=
  match v.rep.code with
  | 0x0F => x.epochAhead v
  | 0x06 | 0x07 | 0x08 => x.openCommon v
  | 0x01 | 0x02 | 0x03 => x.openCheck v
  | _ => x.outcome v (x.tableAccuses v.rep) 0

/-- Does a report by Table 08.4 alone accuse the half that rejoins (R221)? It is treated while the rejoin runs. -/
def RD.endsRejoin (x : RD) (rep : Report) : Bool :=
  match x.1.rjHalf with
  | none => false
  | some h => x.1.hs h == .rejoining && rep.code ≠ 0x01 && rep.code ≠ 0x02 && rep.code ≠ 0x03 && x.tableAccuses rep == some h

/-- FAULT_REPORT (R215): the oldest report on its way is voted on, logged, and treated or queued; one that matches the report
of an open window ends it (R209), and a second 0x02 of the instance under check joins it. -/
def RD.faultReport (x : RD) : RD :=
  match x.2.reports with
  | [] => x
  | rep :: rest =>
    let w := RD.vote (x.1, { x.2 with reports := rest }) rep
    let v := w.1
    let y := w.2
    match y.1.act with
    | .common u =>
      if u.rep.matches rep then y.commonEnd u v
      else ({ y.1 with waiting := y.1.waiting ++ [v] }, y.2)
    | .check u a b none =>
      if u.rep.code = 2 ∧ u.rep.matches rep = true then ({ y.1 with act := .check u a b (some v) }, y.2)
      else ({ y.1 with waiting := y.1.waiting ++ [v] }, y.2)
    | .idle =>
      if (if y.1.rjHalf.isSome then y.endsRejoin rep else y.1.waiting.isEmpty) then y.treat v
      else ({ y.1 with waiting := y.1.waiting ++ [v] }, y.2)
    | _ => ({ y.1 with waiting := y.1.waiting ++ [v] }, y.2)
def execFaultReport : State → Answer := onRef (fun s => let x := RD.faultReport (s.ref, s.dev); (x.1, [], x.2))

/-- FAULT_REPORT_DEQUEUE (R215 step 2). -/
def RD.dequeue (x : RD) : RD :=
  match x.1.busy, x.1.waiting with
  | false, v :: rest => RD.treat ({ x.1 with waiting := rest }, x.2) v
  | _, _ => x
def execFaultReportDequeue : State → Answer := onRef (fun s => let x := RD.dequeue (s.ref, s.dev); (x.1, [], x.2))

/-- COMMON_MODE_TIMEOUT (R209): no match within 20 µs. -/
def RD.commonTimeout (x : RD) : RD :=
  match x.1.act with
  | .common v => x.outcome v (some v.rep.half) 0
  | _ => x
def execCommonModeTimeout : State → Answer := onRef (fun s => let x := RD.commonTimeout (s.ref, s.dev); (x.1, [], x.2))

/-- Both halves have answered a CHECK, or the 20 µs have ended: the decision (R215 step 5). -/
def RD.checked (x : RD) : RD :=
  match x.1.act with
  | .check v a b second =>
    if a = .awaited ∨ b = .awaited then x
    else
      let c := x.1.selfCheckAccuses a b
      let table := v.rep.code = 2 ∧ second = none
      let acc := if table then x.tableAccuses v.rep else some c.1
      let rule := if table then 0 else c.2
      (match second with
       | none => x.outcome v acc rule
       | some u => (x.finish u acc rule 0 (x.since u)).outcome v acc rule)
  | _ => x
/-- A half's answer to the CHECK in progress. -/
def RD.answer (x : RD) (h : Half) (w : SelfCheck) : RD :=
  match x.1.act with
  | .check v a b second =>
    RD.checked ({ x.1 with act := (match h with | .A => .check v (if a = .awaited then w else a) b second | .B => .check v a (if b = .awaited then w else b) second) }, x.2)
  | _ => x
/-- SELF_CHECK_WORD (R207): a half's word arrives; SEAL_SCW and REF_SCW keep it, and the sticky bits start afresh. -/
def RD.selfCheckWord (x : RD) (m : Mem) (h : Half) : RD :=
  let asked : Bool := match x.1.act with | .check _ a b _ => (match h with | .A => a == .awaited | .B => b == .awaited) | _ => false
  if asked && x.1.live h then
    let g := x.2.selfCheck m h
    let w := g.1 % 2 ^ 32
    let r := match h with | .A => { x.1 with scwA := w } | .B => { x.1 with scwB := w }
    RD.answer (r, (g.2.p (hLoc h .seal) SEAL_SCW.SCW w).modSeal h (fun u => { u with ue := false, wdog := false, pll := false })) h (.word w)
  else x
def execSelfCheckWord (h : Half) : State → Answer := onRef (fun s => let x := RD.selfCheckWord (s.ref, s.dev) s.mem h; (x.1, [], x.2))
/-- SELF_CHECK_TIMEOUT (R207): no word within 20 µs. -/
def execSelfCheckTimeout (h : Half) : State → Answer := onRef (fun s => let x := RD.answer (s.ref, s.dev) h .silent; (x.1, [], x.2))

/-- FENCE_TIMEOUT (R213): after 5 µs the referee disables the driver of a port that has not confirmed. -/
def RD.fenceTimeout (x : RD) (h : Half) (p : Nat) : RD :=
  let waits : Bool := match x.1.act with
    | .takeover _ old _ _ => old == h
    | .handover old => old == h
    | .warm => true
    | _ => false
  if waits && !x.2.confirmed h p then (x.1, x.2.modPort h p (fun y => { y with drvOff := true })) else x
def execFenceTimeout (h : Half) (p : Fin 64) : State → Answer := onRef (fun s => let x := RD.fenceTimeout (s.ref, s.dev) h p; (x.1, [], x.2))

/-- Have all ports of a half confirmed its fence? -/
def Dev.allConfirmed (d : Dev) (h : Half) : Bool := (List.range 64).all (fun p => d.confirmed h p)
/-- Steps 3 and 4 of R213 in a takeover (R217) or handover (R225). -/
def RD.changeCharge (x : RD) : RD :=
  match x.1.act with
  | .takeover v old rule el =>
    if x.2.allConfirmed old then
      let y := RD.charge (RD.quarantine ({ x.1.setFence old false with act := .idle, takeovers := (x.1.takeovers + 1) % 65536 }, x.2) old) old.peer
      (RD.ev (y.1.setReissue old.peer true, y.2) 0).finish v (some old) rule 2 el
    else x
  | .handover old =>
    if x.2.allConfirmed old then
      (RD.charge (RD.standby ({ x.1.setFence old false with act := .idle, handovers := (x.1.handovers + 1) % 65536 }, x.2) old) old.peer).ev 8
    else x
  | _ => x

/-- REISSUE (R206): the command to a half for its held instances. -/
def RD.reissueCmd (x : RD) (m : Mem) (h : Half) : RD :=
  if x.1.reissue h && x.1.live h then (x.1.setReissue h false, x.2.reissue m h) else x
def execReissue (h : Half) : State → Answer := onRef (fun s => let x := RD.reissueCmd (s.ref, s.dev) s.mem h; (x.1, [], x.2))

/-! ### Observing a rejoin (R221 step 5) -/

/-- Bits of a seal record without its segment: the instance. -/
def instOf (key : Nat) : Nat := key - key / 2 ^ 8 % 64 * 2 ^ 8
/-- Do segments of the instance still wait for their seals or their pairs at the comparing half? -/
def Dev.instOpen (d : Dev) (h : Half) (key : Nat) : Bool :=
  (d.sealU h).jobs.any (fun j => instOf j.key = instOf key) || (d.sealU h).own.any (fun x => instOf x.key = instOf key)
    || (d.sealU h).peer.any (fun x => instOf x.key = instOf key)
/-- Has every context of half `p` that is not IDLE and drives segments had RJ_ROWS instances compared equal? -/
def RD.observed (x : RD) (p : Half) : Bool :=
  (List.range 256).all (fun k => x.2.cst p (k / 32) (k % 32) == .idle || !(x.2.harn p).maps.any (fun e => e.1 = k && e.2 ≠ 0)
    || decide (x.1.rjRows ≤ SMap.get (fun _ => 0) x.1.rjEqual k))
/-- Contexts of the list that wait for their transfer go over (R221 step 4); when none is left RJPHASE becomes 3. -/
def RD.transfer (x : RD) (ks : List Nat) : RD :=
  match x.1.rjHalf with
  | none => x
  | some h =>
    if x.1.hs h ≠ .rejoining ∨ x.1.rjPhase ≠ 2 then x
    else
      let left := x.1.rjCtxs.filter (fun k => !ks.contains k)
      ({ x.1 with rjCtxs := left, rjPhase := if left = [] then 3 else 2 },
        (x.1.rjCtxs.filter (fun k => ks.contains k)).foldl (fun y k => y.copyCtx h k) x.2)
/-- The waiting contexts that are IDLE in the peer. -/
def RD.idleWaiting (x : RD) : List Nat :=
  match x.1.rjHalf with
  | none => []
  | some h => x.1.rjCtxs.filter (fun k => x.2.cst h.peer (k / 32) (k % 32) == .idle)
/-- X enters STANDBY when its peer has observed enough (R221); gating begins with the next instance. -/
def RD.rejoinProgress (x : RD) : RD :=
  match x.1.rjHalf with
  | none => x
  | some h =>
    if x.1.hs h = .rejoining ∧ x.1.rjPhase = 3 ∧ x.observed h.peer = true then
      let y := RD.standby ({ x.1 with rjPhase := 0, rjHalf := none, rjEqual := [], rjCtxs := [] }, x.2) h
      RD.ev (y.1, y.2.mapChans h.peer (fun _ c => { c with q := c.q.map (fun e => { e with clear := e.clear || !y.2.isHeld h.peer e.inst }) })) 2
    else x
/-- A comparison's news for the referee: only OBSERVE acts on it. -/
def RD.observe (x : RD) (h : Half) (o : Obs) : RD :=
  match o, x.1.rjHalf with
  | .fail, some y => x.rejoinFail y
  | .equal key, some _ =>
    if x.1.observes h ∧ key / 2 ^ 16 % 4 = 0 ∧ x.2.instOpen h key = false then
      RD.rejoinProgress ({ x.1 with rjEqual := SMap.modify (fun _ => 0) x.1.rjEqual (key % 256) (· + 1) }, x.2)
    else x
  | _, _ => x
/-- A seal unit's act with its news. -/
def onSeal (h : Half) (f : State → Obs × Dev) : State → Answer := onRef (fun s =>
  if s.ref.live h && s.dev.clocked (hLoc h .seal) then
    let o := f s
    let x := RD.observe (s.ref, o.2) h o.1
    (x.1, [], x.2)
  else (s.ref, [], s.dev))
def execSealCompute (h : Half) : State → Answer := onSeal h (fun s => s.dev.sealCompute s.ref h)
def execSealRecordReceive (h : Half) : State → Answer := onSeal h (fun s => s.dev.peerRecord s.ref h)
/-- SEAL_TMO (R205): `mine` says whose record has waited. -/
def execSealTmo (h : Half) (mine : Bool) : State → Answer :=
  onSeal h (fun s => if s.ref.sealing then s.dev.sealTmo s.ref h mine else (.nothing, s.dev))

/-! ### The time bases (R29, R30) -/

/-- TB_COMPARE: `phase` nanoseconds of a tick by which Half A further leads; `shorten` says which of the two adjustments R29
allows the referee makes. It records both time bases (R480). -/
def RD.tbCompare (x : RD) (phase : Nat) (shorten : Bool) : RD :=
  let d := x.2
  let diff : Int := ((d.tbA : Int) - d.tbB) * 10 + phase
  let both : Bool := x.1.hsA ≠ .off && x.1.hsB ≠ .off
  let lead : Half := if 0 < diff then .A else .B
  let slow (h : Half) (y : Dev) : Dev := match h with | .A => { y with tickA := 9 } | .B => { y with tickB := 9 }
  let fast (h : Half) (y : Dev) : Dev := match h with | .A => { y with tickA := 7 } | .B => { y with tickB := 7 }
  let d1 := if both && decide (5 ≤ diff.natAbs) then (if shorten then fast lead.peer d else slow lead d) else d
  let d2 := if both && decide (20 < diff.natAbs) then
    (d1.raise refL 5).report lead 0x0E 0 (0x01 * 2 ^ 16 + min 65535 diff.natAbs) else d1
  let y : RD := ({ x.1 with recA := d.tbA, recB := d.tbB }, d2)
  RD.rejoinProgress (y.transfer y.idleWaiting)
def execTbCompare (phase : Fin 10) (shorten : Bool) : State → Answer :=
  onRef (fun s => let x := RD.tbCompare (s.ref, s.dev) phase shorten; (x.1, [], x.2))

/-! ### Mailboxes (R231, R436, R437) -/

def Referee.setRsp (r : Referee) (ep : Half) (v : Nat) : Referee :=
  match ep with | .A => { r with rspA := v } | .B => { r with rspB := v }
def Referee.setSessRes (r : Referee) (ep : Half) (v : Nat) : Referee :=
  match ep with | .A => { r with sessResA := v } | .B => { r with sessResB := v }
/-- A mailbox request (R437): dropped and counted while the endpoint's previous one is `open`, refused without D5, else done
with the answer's code. -/
def RD.request (x : RD) (ep : Half) (still : Bool) (tag : Nat) (f : RD → Nat × RD) : RD :=
  if still then ((match ep with | .A => { x.1 with dropA := (x.1.dropA + 1) % 65536 } | .B => { x.1 with dropB := (x.1.dropB + 1) % 65536 }), x.2)
  else
    let y := if x.1.session = some ep then f x else (0x83, x)
    (y.2.1.setRsp ep (y.1 + tag * 2 ^ 16 + 2 ^ 31), y.2.2)
/-- A request as a command. -/
def onRequest (ep : Half) (still : Bool) (tag : BitVec 8) (f : RD → Nat × RD) : State → Answer :=
  onRef (fun s => let x := RD.request (s.ref, s.dev) ep still tag.toNat f; (x.1, [], x.2))

/-- RELEASE (Table 08.9). -/
def RD.release (h : Half) (x : RD) : Nat × RD :=
  if x.1.split || x.1.hs h ≠ .standby then (0x80, x) else if x.1.busy then (0x81, x) else (0, x.quarantine h)
def execRelease (ep : Half) (still : Bool) (tag : BitVec 8) (h : Half) : State → Answer := onRequest ep still tag (RD.release h)
/-- HANDOVER (R225). -/
def RD.handover (x : RD) : Nat × RD :=
  let h := x.1.inCharge
  if x.1.hs h ≠ .charge || x.1.hs h.peer ≠ .standby || x.1.noEpoch || (x.2.sealU .A).held ≠ [] || (x.2.sealU .B).held ≠ [] then (0x80, x)
  else if x.1.busy then (0x81, x)
  else (0, RD.fenceHalf ({ x.1 with act := .handover h }, x.2) h)
def execHandover (ep : Half) (still : Bool) (tag : BitVec 8) : State → Answer := onRequest ep still tag RD.handover
/-- STOP_CLEAR (Table 08.9): the lines, and STOPREQ of the pipes. -/
def execStopClear (ep : Half) (still : Bool) (tag : BitVec 8) : State → Answer :=
  onRequest ep still tag (fun x =>
    let d := [Half.A, Half.B].foldl (fun y h => (y.p (lpeL h 0) LPE_STAT.STOPREQ 0).p (lpeL h 1) LPE_STAT.STOPREQ 0) x.2
    (0, ({ x.1 with stopA := false, stopB := false }, { d with stopReqs := [] })))
/-- A vote whose log entry is gone. -/
def Vote.unlogged (v : Vote) : Vote := { v with entry := none }
/-- The action in progress after the log was cleared. -/
def Act.unlogged : Act → Act
  | .common v => .common v.unlogged
  | .check v a b s => .check v.unlogged a b (s.map Vote.unlogged)
  | .takeover v o r e => .takeover v.unlogged o r e
  | a => a
/-- FLOG_CLEAR (Table 08.9). -/
def execFlogClear (ep : Half) (still : Bool) (tag : BitVec 8) : State → Answer :=
  onRequest ep still tag (fun x => (0, ({ x.1 with flogTotal := 0, flog := [], act := x.1.act.unlogged, waiting := x.1.waiting.map Vote.unlogged }, x.2)))
/-- A reserved request code: refused with REF_STATE. -/
def execMbxReservedRequest (ep : Half) (still : Bool) (tag : BitVec 8) : State → Answer := onRequest ep still tag (fun x => (0x80, x))

/-- MBX_OPEN (R437). -/
def Referee.openSess (r : Referee) (ep : Half) : Referee :=
  if bit r.d5mask ep.n = false then r.setSessRes ep 0x83
  else if r.session.isSome then r.setSessRes ep 0x84
  else { r.setSessRes ep 0 with session := some ep }
def execMbxOpen (ep : Half) : State → Answer := onRef (fun s => (s.ref.openSess ep, [], s.dev))
/-- The end of an endpoint's session. -/
def Referee.closeSess (r : Referee) (ep : Half) : Referee := if r.session = some ep then { r with session := none } else r
def execMbxClose (ep : Half) : State → Answer := onRef (fun s => ((s.ref.closeSess ep).setSessRes ep 0, [], s.dev))
/-- MBX_KEEP (R437): the timeout starts again; the model holds no time of it (notes/assumptions/40.md). -/
def execMbxKeep (_ep : Half) : State → Answer := onRef (fun s => (s.ref, [], s.dev))
def execMbxSessionTimeout : State → Answer := onRef (fun s => ({ s.ref with session := none }, [], s.dev))

/-! ### What the REF page shows (Table 08.14) -/

/-- The word at an offset of the REF page from 0x804 on. -/
def Referee.word (r : Referee) (d : Dev) (off : Nat) : Nat :=
  if off = 0x804 then r.hsA.code + r.hsB.code * 2 ^ 4 + r.inCharge.n * 2 ^ 8 + b2n r.split * 2 ^ 9 + r.rjPhase * 2 ^ 12 + b2n (r.stopLine d .A || r.stopLine d .B) * 2 ^ 16
    + b2n r.busy * 2 ^ 17
  else if off = 0x808 then r.epoch
  else if off = 0x80C then r.prefer.n + b2n r.autorejoin * 2 + r.rjRows * 2 ^ 8
  else if off = 0x810 then r.takeovers + r.handovers * 2 ^ 16
  else if off = 0x814 then r.lastdec
  else if off = 0x818 then r.scwA
  else if off = 0x81C then r.scwB
  else if off = 0x820 then r.flogTotal
  else if off = 0x824 then r.epfloor
  else if off = 0x828 then r.dropA + r.dropB * 2 ^ 16
  else if 0x840 ≤ off ∧ off < 0x880 then r.rjlist.getD ((off - 0x840) / 4) 0
  else if 0xC00 ≤ off ∧ off < 0x1000 then SMap.get (fun _ => 0) r.flog ((off - 0xC00) / 16) / 2 ^ (32 * ((off - 0xC00) / 4 % 4)) % 2 ^ 32
  else 0

end Sys2Proof.Machine
end

