-- ==== Sys2Proof/Machine/Regs.lean ====
section
/-!
DEFINITION. Every access to a register page: what a read shows and does (R11, R32, R487), who may write (R24, R493), the header
(Table 25.1), shadowed and plain registers (R486), and the registers whose writes act.
-/
namespace Sys2Proof.Machine

open Sys2Proof

/-- An access: the master, the domain it carries, and for a beam core's window the context it addresses (R278). -/
structure Acc where
  m : Master
  dom : Nat
  ctx : Option Nat := none
deriving DecidableEq, Repr

/-! ### Reads -/

/-- The copy of a register that an access addresses: a context's on a ROW page (R96, R278). -/
def Dev.locFor (d : Dev) (x : Acc) (row : PageRow) (p off : Nat) : Loc :=
  if row.block = .row ∧ isCtxOff off then ctxLocOf p (x.ctx.getD (SMap.get (fun _ => 0) d.csels (perMaster p x.m))) else locOf p
/-- A master's VIEW of a page (R487). -/
def Dev.viewOf (d : Dev) (p : Nat) (m : Master) : Bool := SMap.get (fun _ => false) d.views (perMaster p m)
/-- The register row of an offset: header, context or page registers. -/
def PageRow.rowFor (row : PageRow) (off : Nat) : Option RegRow :=
  if off < 0x40 then rowAt regsHdr off
  else if row.block = .dma ∧ !row.half ∧ ((0x060 ≤ off ∧ off < 0x080) ∨ (0xA00 ≤ off ∧ off < 0xC00)) then none
  else if row.block = .row ∧ isCtxOff off then rowAt regsRowc off else rowAt row.regs off
/-- The header words that are not stored as they read. -/
def headerWord (r : Referee) (d : Dev) (m : Master) (row : PageRow) (p off : Nat) : Word :=
  let l := locOf p
  let reg := p / 4096
  let loupe : Bool := row.block = .lpe || row.block = .cxp
  match off with
  | 0x004 => if loupe && Config.fusedNA then 0 else d.rd l off
  | 0x008 =>
    let h := Half.ofRegion reg
    let ready := if reg < 2 then r.hs h ≠ .off && r.hs h ≠ .init else if reg = 2 then d.svcUp && !d.svcLoading else true
    BitVec.ofNat 32 (b2n ready + b2n r.defaults * 2 ^ 3 + b2n (frozenAt r reg) * 2 ^ 4 + d.g l PG_STAT.BROWNOUT_SEEN * 2 ^ 5)
  | 0x00C => BitVec.ofNat 32 (d.g l PG_CTL.ENABLE + b2n (d.viewOf p m) * 2 ^ 2)
  | 0x030 => BitVec.ofNat 32 (SMap.get (fun _ => 0) d.eccLog (p * 8 + d.g l PG_ECC_LOG_IDX.SEL))
  | _ => d.rd l off
/-- Which instance of an indexed register an offset names. -/
def ixAt (f : Fld) (n off : Nat) : Option Nat :=
  if f.off ≤ off ∧ (off - f.off) % f.stride = 0 ∧ (off - f.off) / f.stride < n then some ((off - f.off) / f.stride) else none
/-- May the controllers of a half put its DRAM into self-refresh between bursts (R391)? A head in compatibility scan-out has declared its tolerance to the
half that serves it, and none declared is below 10 microseconds. -/
def Dev.mayRefresh (d : Dev) (r : Referee) (h : Half) : Bool :=
  let lats := ([0, 1].filter (fun c => d.on (dhdL c) DHD_CFG.SCAN && d.on (dhdL c) DHD_STAT.RUN)).map (fun c => d.g (dhdL c) DHD_LAT.TOL)
  h == r.server && !lats.isEmpty && lats.all (fun t => decide (10000 ≤ t))
/-- The words of a block that are not stored as they read. `none` leaves the register row to say. -/
def blockWord (s : State) (x : Acc) (row : PageRow) (p i off : Nat) : Option Nat :=
  let d := s.dev
  let l := locOf p
  let reg := p / 4096
  let h := Half.ofRegion reg
  let view := d.viewOf p x.m
  match row.block with
  | .ref => if off < 0x804 then none else some (s.ref.word d off)
  | .beam => if off = 0x920 then some (d.tb h % 2 ^ 32) else if off = 0x924 then some (d.tb h / 2 ^ 32) else none
  | .row =>
    let c := x.ctx.getD (SMap.get (fun _ => 0) d.csels (perMaster p x.m))
    if off = 0x800 then some (SMap.get (fun _ => 0) d.csels (perMaster p x.m))
    else if off = 0x814 then
      some ((d.rd (cxL h i c) off).toNat % 2 ^ 16 + b2n (decide (0 < d.dueCount h i c)) * 2 ^ 16 + b2n (d.parked h i c) * 2 ^ 17 + b2n (d.cx h i c).cmd.isSome * 2 ^ 18)
    else if off = 0x900 then some ((d.rd l off).toNat % 2 ^ 6 + min 32 (d.eng h i).due.length * 2 ^ 8 + b2n (d.eng h i).loupe.isSome * 2 ^ 16)
    else if off = 0x928 then some (d.maw p x.m).toNat
    else (ixAt ROW_MAW_D.W 8 off).map (fun k => (d.stage p x.m k).toNat)
  | .hrn =>
    let hr := d.harn h
    let map := SMap.get (fun _ => 0) hr.maps (d.g l HRN_SEGMAP_IDX.CTX)
    if off = 0x804 then some (entryOf (if view then hr.shadow else hr.active) (d.g l HRN_TW_IDX.IDX))
    else if off = 0x810 then some (map % 2 ^ 32)
    else if off = 0x814 then some (map / 2 ^ 32)
    else none
  | .seal => if off = 0x800 then some (d.sealStat s.ref h) else none
  | .aeq =>
    (ixAt AEQ_POCC.QUEUED 64 off).map (fun q =>
      let cs := d.chans.filter (fun e => e.1 / 1024 = h.n * 64 + q)
      cs.foldl (fun t e => t + e.2.occ) 0 % 2 ^ 16 + cs.foldl (fun t e => t + e.2.sentHeld) 0 % 2 ^ 16 * 2 ^ 16)
  | .lpe =>
    let y := d.pipe h i
    if off = 0x81C then some (bankAt (if view != y.active1 then y.ff1 else y.ff0) (d.g l LPE_FFW_IDX.IDX))
    else if off = 0x824 then some (if 64 < d.g l LPE_KNW_IDX.IDX then 0 else bankAt (if view != y.active1 then y.kn1 else y.kn0) (d.g l LPE_KNW_IDX.IDX))
    else none
  | .cxp => if off = 0x808 then some ((d.cxp h i).rx.headD 0) else none
  | .kxc =>
    let k := d.kx reg i
    if off = 0x808 ∧ d.krunning reg i then some k.pc
    else if off = 0x810 then some (d.pm reg i (d.g l KXC_PMW_IDX.IDX))
    else if off = 0x81C then some (d.hmbOut reg i).1
    else if off = 0x820 then some (k.hostOut.length + (8 - k.hostIn.length) * 2 ^ 4)
    else none
  | .ucs => (ixAt UCS_WIN_D.DATA 4 off).map (fun k => d.ucsWord reg (d.g l UCS_WIN_IDX.IDX) / 2 ^ (32 * k) % 2 ^ 32)
  | .scb => if off = 0x80C then some (d.esrcPop h).1 else none
  | .tmr => if off = 0x810 then some (d.tmrPop reg i).1 else none
  | .evc =>
    if off = 0x804 then some (d.evcEntry reg (d.g l EVC_TW_IDX.SRC))
    else if off = 0x980 ∨ off = 0x984 then
      (if reg = 2 then some 0
       else some ((List.range 32).foldl (fun t v => t + b2n (SMap.get (fun _ => false) d.inService (reg * 64 + (off - 0x980) * 8 + v)) * 2 ^ v) 0))
    else (ixAt EVC_ASSERT.LINES 16 off).map (fun w => (List.range 32).foldl (fun t v => t + b2n (d.asserted (32 * w + v)) * 2 ^ v) 0)
  | .prz =>
    let idx := d.g l PRZ_PLW_IDX.IDX
    let q := d.g l PRZ_QLW_IDX.IDX
    if off = 0x80C then
      (if i < 2 ∧ idx / 1024 = 7 then some 0
       else some (SMap.get (fun _ => 0) d.preLut (if i < 2 then i * 8192 + idx else idx / 1024 % 2 * 8192 + 7168 + idx % 1024)))
    else if off = 0x814 ∧ i < 2 then (if q / 1024 = 3 then some 0 else some (SMap.get (fun _ => 0) d.postLut (i * 4096 + q)))
    else if i = 2 then (ixAt PRZ_L7AGE.AGE 2 off).map (fun c => min 0xFFFF ((d.tbS - (d.prism c).refresh) / 100000))
    else none
  | .dhd => if off = 0x800 then some (d.headStat i) else none
  | .mec => if off = 0x804 ∧ d.g l MEC_STAT.SELFREF = 0 ∧ d.mayRefresh s.ref h then some ((d.rd l off).toNat + 4 * (Config.selfRefresh d.tbS i % 2)) else none
  | .aud => if off = 0x814 then some d.wtwRead.1 else if off = 0x81C then some d.mbwRead else none
  | .gpx => if i = 0 then (ixAt GPX_IN.LEVEL 8 off).map d.gpxIn else none
  | .sec =>
    if off = 0x800 then some d.otpSt
    else if off = 0x804 then some (Config.serial.toNat % 2 ^ 32)
    else if off = 0x808 then some (Config.serial.toNat / 2 ^ 32)
    else match ixAt SEC_KHASH.HASH 36 off with
      | some k => some (if x.m = .core 2 0 then (d.khash k).toNat else 0)
      | none => (ixAt SEC_CERT.CERT 256 off).map (fun k => (Config.cert k).toNat)
  | _ => none
/-- The word a register shows to an access. -/
def wordOf (s : State) (x : Acc) (row : PageRow) (p i off : Nat) : Word :=
  match row.rowFor off with
  | none => 0
  | some rr =>
    let l := s.dev.locFor x row p off
    if off < 0x40 then headerWord s.ref s.dev x.m row p off &&& BitVec.ofNat 32 rr.rd
    else match blockWord s x row p i off with
      | some v => BitVec.ofNat 32 v
      | none => (if rr.rws ≠ 0 ∧ s.dev.viewOf p x.m then s.dev.rdS l off else s.dev.rd l off) &&& BitVec.ofNat 32 rr.rd
/-- The register that holds the high word of a 64-bit value whose low word stands at an offset (R32, R63, R381, R394). -/
def highOf (row : PageRow) (i off : Nat) : Option Nat :=
  match row.block with
  | .beam => if off = 0x920 then some 0x924 else if off = 0x90C then some 0x910 else (ixAt BEAM_ANGLE.ANGLE 4 off).map (fun b => (BEAM_REV.REV.ix b).off)
  | .prz => if i < 2 ∧ off = 0x818 then some 0x81C else none
  | .dhd => if i = 0 ∧ off = 0x808 then some 0x80C else none
  | _ => none
/-- RC bits of a register clear. -/
def Dev.rcClear (d : Dev) (x : Acc) (row : PageRow) (p off : Nat) : Dev :=
  match row.rowFor off with
  | none => d
  | some rr =>
    let l := d.locFor x row p off
    if rr.rc = 0 then d else d.wr l off (d.rd l off &&& ~~~(BitVec.ofNat 32 rr.rc))
/-- What a read does beside showing a word: RC bits clear, FIFOs pop, windows advance (R11). -/
def readEffect (s : State) (x : Acc) (row : PageRow) (p i off : Nat) : Dev :=
  let d := s.dev
  let l := locOf p
  let reg := p / 4096
  let h := Half.ofRegion reg
  let adv (a f : Fld) : Dev := if d.on l a then d.wrap l f else d
  match row.block with
  | .hrn => if off = 0x804 then adv HRN_TW_IDX.AUTOINC HRN_TW_IDX.IDX else d.rcClear x row p off
  | .lpe => if off = 0x81C then adv LPE_FFW_IDX.AUTOINC LPE_FFW_IDX.IDX else if off = 0x824 then
      (if 64 < d.g l LPE_KNW_IDX.IDX then d.raise l 7 else adv LPE_KNW_IDX.AUTOINC LPE_KNW_IDX.IDX) else d.rcClear x row p off
  | .cxp => if off = 0x808 then { d.ctlRx h i with readData := d.readData } else d.rcClear x row p off
  | .kxc => if off = 0x810 then adv KXC_PMW_IDX.AUTOINC KXC_PMW_IDX.IDX else if off = 0x81C then (d.hmbOut reg i).2 else d
  | .ucs => if off = (UCS_WIN_D.DATA.ix 3).off then adv UCS_WIN_IDX.AUTOINC UCS_WIN_IDX.IDX else d.rcClear x row p off
  | .scb => if off = 0x80C then (d.esrcPop h).2 else d.rcClear x row p off
  | .tmr => if off = 0x810 then (d.tmrPop reg i).2 else d.rcClear x row p off
  | .evc => if off = 0x804 then adv EVC_TW_IDX.AUTOINC EVC_TW_IDX.SRC else d.rcClear x row p off
  | .prz => if off = 0x80C then (if i < 2 ∧ d.g l PRZ_PLW_IDX.IDX / 1024 = 7 then d else adv PRZ_PLW_IDX.AUTOINC PRZ_PLW_IDX.IDX)
    else if off = 0x814 ∧ i < 2 then (if d.g l PRZ_QLW_IDX.IDX / 1024 = 3 then d else adv PRZ_QLW_IDX.AUTOINC PRZ_QLW_IDX.IDX)
    else d.rcClear x row p off
  | .aud => if off = 0x814 then d.wtwRead.2 else d.rcClear x row p off
  | _ => d.rcClear x row p off
/-- The latch of a master for a high word. -/
def latchKey (p off : Nat) (m : Master) : Nat := (locOf p + off) * 256 + m.id
/-- A read of a register (R11, R24, R25, R32): its word, and the part after the read. Key pages read 0 to all but sc0. -/
def regRead (s : State) (x : Acc) (p off0 : Nat) : Word × Dev :=
  let off := off0 / 4 * 4
  match pageRowOf p with
  | none => (0, if upAt s.ref s.dev (p / 4096) || p / 4096 = 3 then s.dev.decodeErr (some x.m) (0x1000000000 + p * 4096 + off) x.dom else s.dev)
  | some (row, i) =>
    if !upAt s.ref s.dev (p / 4096) then (0, s.dev)
    else
      let held := SMap.get (fun _ => none) s.dev.latched (latchKey p off x.m)
      match held with
      | some w => (w, { s.dev with latched := SMap.set (fun _ => none) s.dev.latched (latchKey p off x.m) none })
      | none =>
        let w := wordOf s x row p i off
        let d := if off < 0x40 then s.dev.rcClear x row p off else readEffect s x row p i off
        (w, match highOf row i off with
          | none => d
          | some o => { d with latched := SMap.set (fun _ => none) d.latched (latchKey p o x.m) (some (wordOf s x row p i o)) })

/-! ### Writes -/

/-- A write of PG_LOCK by the owner (R493). -/
def Dev.lockWrite (d : Dev) (row : PageRow) (p v : Nat) : Dev :=
  let l := locOf p
  if d.on l PG_LOCK.FREEZE then d
  else
    let o := row.ownerIn (p / 4096)
    let w := v / 2 ^ 8 % 64
    (d.p l PG_LOCK.WRITERS (if bit w o then w else w + 2 ^ o)).p l PG_LOCK.FREEZE (v / 2 ^ 31 % 2)
/-- A write of PG_BUCKET (Table 13.5): an illegal LEAKP or THR counts as its reset value, 20 or 64, and the page raises CFG_ERR (R12). -/
def Dev.bucketWrite (d : Dev) (p : Nat) (v : Word) : Dev :=
  let l := locOf p
  let bad1 : Bool := decide (24 < fget PG_BUCKET.LEAKP v)
  let bad2 : Bool := decide (fget PG_BUCKET.THR v = 0)
  let d1 := d.wr l 0x034 (v &&& 0xFFFF1FFF)
  let d2 := if bad1 then d1.p l PG_BUCKET.LEAKP 20 else d1
  let d3 := if bad2 then d2.p l PG_BUCKET.THR 64 else d2
  if bad1 || bad2 then d3.cfgErr p else d3
/-- A write of a header register (Table 25.1). -/
def headerWrite (s : State) (x : Acc) (row : PageRow) (p off : Nat) (v : Word) : Dev :=
  let d := s.dev
  let l := locOf p
  match off with
  | 0x00C =>
    if bit v.toNat 1 then d.blockReset s.ref p
    else
      let d1 := if row.noShadow.isSome then d else { d with views := SMap.set (fun _ => false) d.views (perMaster p x.m) (bit v.toNat 2) }
      if fget PG_CTL.ENABLE v = d1.g l PG_CTL.ENABLE then d1 else d1.clockGate s.ref p (bit v.toNat 0)
  | 0x010 => d.commitWrite s.ref p v.toNat
  | 0x018 => d.withLines p (fun y => y.wr l 0x018 (v &&& BitVec.ofNat 32 row.events))
  | 0x01C => d.clearPend l v
  | 0x020 => d.withLines p (fun y => y.wr l 0x020 (v &&& BitVec.ofNat 32 row.events))
  | 0x02C =>
    let d1 := d.p l PG_ECC_LOG_IDX.SEL (fget PG_ECC_LOG_IDX.SEL v)
    if bit v.toNat 16 then d1.eccClear p else d1
  | 0x034 => d.bucketWrite p v
  | 0x038 => d.lockWrite row p v.toNat
  | _ => d
/-- A LUT entry is written: its word is correct again (R331). Each entry is a word (notes/assumptions/89.md). -/
def Dev.lutWritten (d : Dev) (w : Nat) : Dev :=
  if d.ueWords = [] then d else { d with ueWords := d.ueWords.filter (fun u => u ≠ (pageOf 2 .prz 0, 2, w)) }
/-- A write of a pre-blend or post-blend LUT entry (R374, Table 16.2). -/
def Dev.plwWrite (d : Dev) (i : Nat) (v : Word) : Dev :=
  let l := przL i
  let idx := d.g l PRZ_PLW_IDX.IDX
  if i < 2 ∧ idx / 1024 = 7 then d
  else
    let key := if i < 2 then i * 8192 + idx else idx / 1024 % 2 * 8192 + 7168 + idx % 1024
    let d1 := { d.lutWritten key with preLut := SMap.set (fun _ => 0) d.preLut key (v &&& 0xBFFFFFFF).toNat }
    if d1.on l PRZ_PLW_IDX.AUTOINC then d1.wrap l PRZ_PLW_IDX.IDX else d1
def Dev.qlwWrite (d : Dev) (i : Nat) (v : Word) : Dev :=
  let l := przL i
  let idx := d.g l PRZ_QLW_IDX.IDX
  if idx / 1024 = 3 then d
  else
    let d1 := { d.lutWritten (16384 + i * 4096 + idx) with postLut := SMap.set (fun _ => 0) d.postLut (i * 4096 + idx) (v.toNat % 256) }
    if d1.on l PRZ_QLW_IDX.AUTOINC then d1.wrap l PRZ_QLW_IDX.IDX else d1
/-- PWR_CLR (Table 24.5): BROWNOUT_SEEN clears in every page of the regions named. -/
def Dev.boClear (d : Dev) (mask : Nat) : Dev :=
  [0, 1, 2].foldl (fun y rg => if bit mask rg then (pagesOf rg).foldl (fun z p => z.p (locOf p) PG_STAT.BROWNOUT_SEEN 0) y else y) d
/-- Does Table 24.5 accept bit `i` of PWR_REQ from a domain? -/
def pwrAllowed (defaults : Bool) (dom i : Nat) : Bool :=
  if i = 0 then dom = 5 || (defaults && 1 ≤ dom && dom ≤ 3) else if i < 6 then dom = 5 else dom = 3 || dom = 5
/-- A request of PWR_REQ is dropped and counted (R485). -/
def Dev.pwrReject (d : Dev) : Dev := (d.sat pwrL PWR_CNT.REJ).raise pwrL 5
/-- A write of PWR_REQ: its requests wait to be taken up, but for those with a wrong KEY or of another domain. -/
def Dev.pwrAsk (d : Dev) (defaults : Bool) (dom n : Nat) : Dev :=
  (List.range 8).foldl (fun y i =>
    if !bit n i then y else if n / 2 ^ 16 = 0xA55A ∧ pwrAllowed defaults dom i then { y with asks := y.asks ++ [i] } else y.pwrReject) d
/-- The registers whose writes act. `none` leaves a register to its access codes. -/
def actingWrite (s : State) (x : Acc) (row : PageRow) (p i off : Nat) (v : Word) : Option Dev :=
  let d := s.dev
  let n := v.toNat
  let reg := p / 4096
  let h := Half.ofRegion reg
  let l := locOf p
  match row.block with
  | .beam =>
    if off = 0x900 then some (let d1 := d.p l BEAM_PRED_CTL.BEAM (n % 4); if bit n 4 then d1.predReq h else d1)
    else (ixAt BEAM_RESYNC.GO 4 off).map (fun b => if bit n 0 then d.resync h b else d)
  | .row =>
    let c := x.ctx.getD (SMap.get (fun _ => 0) d.csels (perMaster p x.m))
    if off = 0x800 then some { d with csels := SMap.set (fun _ => 0) d.csels (perMaster p x.m) (n % 32) }
    else if off = 0x804 then some (d.bindWrite h i c v)
    else if off = 0x80C then some (d.rowCmd h i c n)
    else if off = 0x904 then some (if bit n 0 then d.tcInv h i true else if bit n 1 then d.tcInv h i false else d)
    else if off = 0x968 then some (if bit n 0 then d.mcInv h i true else if bit n 1 then d.mcInv h i false else d)
    else if off = 0x928 then some (d.mawIdxWrite x.m h i v)
    else match ixAt ROW_MAW_D.W 8 off with
      | some k => some (if k = 7 then d.mawEntryWrite x.m h i v else d.setStage p x.m k v)
      | none => match ixAt ROW_XCFG.LPEN 32 off with
        | some k => some (d.histWrite h i k 2 v)
        | none => match ixAt ROW_HR_LO.DLOG2 32 off with
          | some k => some (d.histWrite h i k 0 v)
          | none => match ixAt ROW_HR_HI.BASE_HI 32 off with
            | some k => some (d.histWrite h i k 1 v)
            | none => (ixAt ROW_RIDX.BASE 32 off).map (fun k => d.ridxWrite h i k v)
  | .hrn => if off = 0x804 then some (d.twWrite h v) else none
  | .aeq => if off = 0x800 then some (d.cntLatch h (n % 65536)) else none
  | .rlk => if off = 0x900 then some (d.mgtGo h i v) else none
  | .lpe =>
    if off = 0x814 then some (d.ringRd h i v)
    else if off = 0x81C then some (d.lpeTable h i false v)
    else if off = 0x824 then some (d.lpeTable h i true v)
    else if off = 0x828 then some (d.tlogWrite h i false v)
    else if off = 0x82C then some (d.tlogWrite h i true v)
    else none
  | .cxp => if off = 0x804 then some (d.ctlTx h i v) else none
  | .kxc =>
    if off = 0x800 then some (d.kxcCtl reg i n)
    else if off = 0x810 then some (d.pmWrite reg i n)
    else if off = 0x818 then some (d.hmbIn reg i (n % 65536))
    else none
  | .ucs => match ixAt UCS_WIN_D.DATA 4 off with
    | some k => some (ucsWrite s x.m reg false k v)
    | none => (ixAt UCS_DEC.ENTRY 16 off).map (fun k => ucsWrite s x.m reg true k v)
  | .dma =>
    if off = 0xC00 then some (d.dmaLatch reg (n % 16))
    else match ixAt DMA_CTL.START 16 off with
      | some c => some (if dmaCount reg ≤ c then d else d.dmaCtl reg c n)
      | none => match (ixAt DMA_DESC_LO.ADDR 16 off).orElse (fun _ => ixAt DMA_DESC_HI.ADDR 16 off) with
        | some c => if dmaCount reg ≤ c ∨ d.dmaState reg c = dmaRun then some d else none
        | none => none
  | .nvh =>
    if off = 0x81C then some (d.mapWrite h (n % 8))
    else if off = 0x828 ∨ off = 0x82C then (if d.on l NVH_CFG.LOGEN then some d else none)
    else (ixAt NVH_DB.TAIL 6 off).map (fun q => d.fwDoorbellFree h q (n % 256))
  | .hif => match ixAt MSIX_CTRL.MASK 64 off with
    | some k => some (if !bit n 0 ∧ d.on l (MSIX_CTRL.MASK.ix k) then d.unmask h k else d.p l (MSIX_CTRL.MASK.ix k) (n % 2))
    | none => none
  | .evc =>
    if off = 0x804 then some (d.evcWrite reg n)
    else if off = 0x808 then some (if reg < 2 then d.eoi h (n % 64) else d)
    else none
  | .tmr => if off = 0x800 then some (d.tmrCtl reg i n) else none
  | .prz =>
    if off = 0x804 ∧ i < 2 then some (if bit n 0 then d.reflat i else d)
    else if off = 0x80C then some (d.plwWrite i v)
    else if off = 0x814 ∧ i < 2 then some (d.qlwWrite i v)
    else if off = 0x840 ∧ i = 2 then some (d.l7Write (n % 4))
    else none
  | .dhd => if off = 0x840 ∧ i = 1 then some (d.dcmdWrite n) else none
  | .blt => if off = 0x800 then some (d.bltCmd n) else none
  | .aud =>
    if off = 0x800 then some (d.keyOn n)
    else if off = 0x804 then some (d.keyOff n)
    else if off = 0x814 then some (d.wtwWrite s.ref n)
    else if off = 0x81C then some (d.mbwWrite n)
    else if off = 0x840 then some (d.audPlatch (n % 4))
    else none
  | .cfg => if off = 0x818 then some (d.flCmd (n % 4) (x.dom = 5)) else none
  | .sec =>
    if off = 0x80C then some (d.otpCmd (n % 4) (n / 2 ^ 4 % 4) (x.dom = 5))
    else if off = 0x810 then some (if bit n 0 then d.attestGo else d)
    else none
  | .pwr =>
    if off = 0x840 then some (d.pwrAsk s.ref.defaults x.dom n)
    else if off = 0x844 then some (if x.dom = 3 ∨ x.dom = 5 then d.boClear (n % 8) else d)
    else none
  | _ => none
/-- A write of a block's register: it acts, or goes to the shadow set (R487), or takes effect by its access codes (R11). -/
def blockWrite (s : State) (x : Acc) (row : PageRow) (p i off : Nat) (v : Word) : Dev :=
  let d := s.dev
  match actingWrite s x row p i off v with
  | some y => y
  | none =>
    match row.rowFor off with
    | none => d
    | some rr =>
      let l := d.locFor x row p off
      if rr.rws ≠ 0 then (d.wrS l off (maskPut rr.rws v (d.rdS l off))).settle p
      else if rr.rw = 0 ∧ rr.w1c = 0 then d
      else
        let old := maskPut rr.rw v (d.rd l off)
        d.wr l off (old &&& ~~~(v &&& BitVec.ofNat 32 rr.w1c))
/-- Does PLUTLOCK shut a register to a domain (R377)? -/
def Dev.plutShut (d : Dev) (dom : Nat) (row : PageRow) (i off : Nat) : Bool :=
  row.block = .prz && i < 2 && dom ≠ 4 && d.on przD4 PRZ_L7CTL.PLUTLOCK && (off = 0x040 || off = 0x814)
/-- May a domain write a page (R24, R220, R493)? PG_LOCK itself takes writes of its owner alone, and a half in QUARANTINE writes of D5
alone (notes/assumptions/91.md). -/
def mayWrite (s : State) (dom : Nat) (row : PageRow) (p i off : Nat) : Bool :=
  let reg := p / 4096
  if frozenAt s.ref reg then dom = 5 && off ≠ 0x038
  else if off = 0x038 then dom = row.ownerIn reg
  else bit (s.dev.g (locOf p) PG_LOCK.WRITERS) dom && !s.dev.plutShut dom row i off
/-- A write of one register: dropped where the region is not there or the domain may not write it, else counted and carried out. -/
def regWriteOne (s : State) (x : Acc) (p off0 : Nat) (v : Word) : Dev :=
  let off := off0 / 4 * 4
  match pageRowOf p with
  | none => if upAt s.ref s.dev (p / 4096) || p / 4096 = 3 then s.dev.decodeErr (some x.m) (0x1000000000 + p * 4096 + off) x.dom else s.dev
  | some (row, i) =>
    if !upAt s.ref s.dev (p / 4096) then s.dev
    else if !mayWrite s x.dom row p i off then s.dev.dropped p off x.dom
    else
      let s1 := { s with dev := s.dev.seq (locOf p) }
      if off < 0x40 then headerWrite s1 x row p off v else blockWrite s1 x row p i off v
/-- From the start of STATE, the half whose pages a host endpoint or a service core writes forwards the write to the half that rejoins
(R221): the rejoining half. -/
def Referee.forwards (r : Referee) (m : Master) (p : Nat) : Option Half :=
  if m.outside ∧ p / 4096 < 2 then r.rejoinerOf (Half.ofRegion (p / 4096)) else none
/-- A write of a register by a master, with its copy in a half that rejoins, under that half's production domain where it
carried the peer's. -/
def regWrite (s : State) (x : Acc) (p off0 : Nat) (v : Word) : Dev :=
  let d := regWriteOne s x p off0 v
  match s.ref.forwards x.m p, pageRowOf p with
  | some h, some (row, i) =>
    if mayWrite s x.dom row p i (off0 / 4 * 4) then
      regWriteOne { s with dev := d } { x with dom := if x.dom = h.peer.n + 1 then h.n + 1 else x.dom } (h.n * 4096 + p % 4096) off0 v
    else d
  | _, _ => d

end Sys2Proof.Machine
end

