-- ==== Sys2Proof/Machine/Bus.lean ====
section
/-!
DEFINITION. A bus access to any address of the system map (R24, R25, R33–R35, R433–R435): registers word by word, memory, the
windows that leave the part; and the commands that are such accesses.
-/
namespace Sys2Proof.Machine

open Sys2Proof

/-- The words of an access that it covers whole, with their addresses. -/
def wordsOf (a : Nat) (bs : List Byte) : List (Nat × Word) :=
  (List.range (bs.length / 4 + 1)).filterMap (fun i =>
    let w := ((a + 3) / 4 + i) * 4
    if w + 4 ≤ a + bs.length then some (w, packWord (bs.drop (w - a)) 0) else none)
/-- Does a window of a host endpoint reach an address (R35, R433, R434)? Every other master sees the whole map, a service master the halves' DRAM
too (R33 against R17: DESIGN CHOICE, notes/assumptions/104.md). -/
def Dev.reaches (d : Dev) (m : Master) (a : Nat) : Bool :=
  match m with
  | .host h false => (pagesLo + h.n * 0x1000000 ≤ a && a < pagesLo + (h.n + 1) * 0x1000000) || (pagesLo + 0x2000000 ≤ a && a < pagesLo + 0x3000000)
  | .host h true => a / 2 ^ 26 = d.g (hLoc h .hif) HIF_WIN.BASE
  | .mailbox _ => false
  | _ => true
/-- Can a master send an access: its region has supply and is not frozen, but for a frozen half's endpoint (R220)? -/
def State.sends (s : State) : Master → Bool
  | .referee => true
  | .core rg c => if rg.val < 2 then s.ref.live (Half.ofRegion rg) else s.dev.svcUp && c.val < 8
  | .dma rg => if rg.val < 2 then s.ref.live (Half.ofRegion rg) else s.dev.svcUp
  | .loupe h _ => s.ref.live h
  | .host h _ => s.ref.hs h ≠ .off && !s.ref.sby h
  | .mailbox h => s.ref.hs h ≠ .off && !s.ref.sby h
  | .blitter => s.dev.svcUp
  | .prism => s.dev.svcUp
/-- An endpoint whose window names a domain it does not hold counts the access (R434). -/
def domCount (s : State) (m : Master) : Dev :=
  match m with
  | .host h true =>
    let want := s.dev.g (hLoc h .hif) HIF_WIN.DOM
    if (want = 2 ∧ s.ref.d4 ≠ some h) ∨ (want = 3 ∧ s.ref.session ≠ some h) then s.dev.sat (hLoc h .hif) HIF_ERR.DOM else s.dev
  | _ => s.dev
/-- Is a register access of a host not a whole number of aligned words (R433)? -/
def hostBad (m : Master) (a n : Nat) : Option Half :=
  match m with
  | .host h _ => if a % 4 ≠ 0 ∨ n % 4 ≠ 0 then some h else none
  | _ => none
/-- An access to a host endpoint's outbound range while its link is down (R435). -/
def Dev.outDown (d : Dev) (a : Nat) : Option Half :=
  if 0x3000000000 ≤ a ∧ a < 0x5000000000 then
    let h := Half.ofRegion ((a - 0x3000000000) / 2 ^ 36)
    if d.on (hLoc h .hif) HIF_STAT.LINKUP then none else some h
  else none
/-- The half at whose drive's doorbell registers an address lies (R343): the drive's registers begin the outbound range of its root port, as
NVMe lays them out (notes/assumptions/90.md). -/
def doorbellAt (a : Nat) : Option Half :=
  if 0x2000000000 ≤ a ∧ a < 0x3000000000 ∧ 0x1000 ≤ a % 2 ^ 35 ∧ a % 2 ^ 35 < 0x2000 then some (Half.ofRegion (a / 2 ^ 35 % 2)) else none
/-- The region whose memory an address reaches; the service window and what lies outside the part count as the service region. -/
def memRegion (a : Nat) : Nat := if a < 2 ^ 36 then a / 2 ^ 35 else if 0x1100000000 ≤ a ∧ a < 0x1102000000 then a / 0x1000000 % 2 else 2
/-- Does a write reach memory of a frozen half without D5 (R220), or memory of a region in reset? -/
def shutMem (r : Referee) (d : Dev) (dom a : Nat) : Bool :=
  (dom ≠ 5 && frozenAt r (memRegion a)) || (a < 0x1104000000 && !upAt r d (memRegion a))
/-- An access to DRAM that is being filled (R332): the scrubber page raises FILL_ACC. -/
def Dev.fillAcc (d : Dev) (r : Referee) (a : Nat) : Dev :=
  let b := if inSw a then r.swBase r.server + (a - 0x1200000000) else a
  let h := Half.ofRegion (b / 2 ^ 35)
  if b < 2 ^ 36 ∧ d.on (hLoc h .mec) MEC_STAT.FILLING then d.raise (hLoc h .scb) 5 else d
/-- A write to the part by a master in a domain. -/
def busWrite (s : State) (x : Acc) (a : Nat) (bs : List Byte) : List MemOp × Dev :=
  let d := s.dev
  if isPage a then
    match hostBad x.m a bs.length with
    | some h => ([], d.sat (hLoc h .hif) HIF_ERR.SIZE)
    | none => ([], (wordsOf a bs).foldl (fun y w => regWrite { s with dev := y } x ((w.1 - pagesLo) / 4096) (w.1 % 4096) w.2) d)
  else
    match (List.range bs.length).find? (fun i => d.reserved (a + i) || readOnly (a + i)) with
    | some i => (storeMem s.ref (d.decodeErr (some x.m) (a + i) x.dom) s.ref.walker x.dom a bs)
    | none =>
      match d.outDown a with
      | some h => ([], d.sat (hLoc h .hif) HIF_ERR.OUTDOWN)
      | none =>
        match doorbellAt a with
        | some h => ([], d.sat (hLoc h .nvh) NVH_CDB.DBDROP)
        | none => if shutMem s.ref d x.dom a then ([], d) else storeMem s.ref (d.fillAcc s.ref a) s.ref.walker x.dom a bs
/-- What a read brings back: its bytes, whether a word of it is uncorrectable (Table 13.4), the part after it. -/
structure Got where
  bytes : List Byte
  ue : Bool
  dev : Dev
/-- A read of `n` bytes by a master in a domain. -/
def busRead (s : State) (x : Acc) (a n : Nat) : Got :=
  let d := s.dev
  if isPage a then
    match hostBad x.m a n with
    | some h => ⟨List.replicate n 0, false, d.sat (hLoc h .hif) HIF_ERR.SIZE⟩
    | none =>
      let r := (wordsOf a (List.replicate n (0 : Byte))).foldl (fun (y : List (Nat × Word) × Dev) w =>
        let g := regRead { s with dev := y.2 } x ((w.1 - pagesLo) / 4096) (w.1 % 4096)
        (y.1 ++ [(w.1, g.1)], g.2)) ([], d)
      ⟨(List.range n).map (fun i => match r.1.find? (fun e => e.1 ≤ a + i && a + i < e.1 + 4) with
        | some e => BitVec.ofNat 8 (e.2.toNat / 2 ^ (8 * (a + i - e.1)))
        | none => 0), false, r.2⟩
  else
    let out : Bool := 0x2000000000 ≤ a && a < 0x5000000000
    let pool : Bool := 0x1100000000 ≤ a && a < 0x1102000000 && 0x200000 ≤ a % 0x1000000 && a % 0x1000000 < 0x400000
    let bs := readBytes s.ref d s.mem a n
    let d1 := (if out || pool then { d with freeCount := d.freeCount + 1 } else d).fillAcc s.ref a
    let d2 := match (List.range n).find? (fun i => d.reserved (a + i)) with
      | some i => d1.decodeErr (some x.m) (a + i) x.dom
      | none => d1
    let d3 := match d2.outDown a with
      | some h => d2.sat (hLoc h .hif) HIF_ERR.OUTDOWN
      | none => d2
    ⟨bs, readUe s.ref d a n, d3.readEcc s.ref.walker (s.ref.served a) n⟩
/-- A little-endian number of bytes. -/
def leNat (bs : List Byte) : Nat := bs.foldr (fun b t => b.toNat + 256 * t) 0

/-! ### Several accesses in one step -/

/-- A run of accesses: the stores so far, memory after them, and the devices. -/
structure Burst where
  ops : List MemOp
  mem : Mem
  dev : Dev
/-- A run begins. -/
def State.run (s : State) : Burst := ⟨[], s.mem, s.dev⟩
/-- The state an access of a run sees. -/
def Burst.state (y : Burst) (s : State) : State := { s with mem := y.mem, dev := y.dev }
/-- A write of a run. -/
def Burst.write (y : Burst) (s : State) (x : Acc) (a : Nat) (bs : List Byte) : Burst :=
  let w := busWrite (y.state s) x a bs
  ⟨y.ops ++ w.1, y.mem.applyAll w.1, w.2⟩
/-- A read of a run. -/
def Burst.read (y : Burst) (s : State) (x : Acc) (a n : Nat) : Got := busRead (y.state s) x a n
/-- The stores and devices a run answers with. -/
def Burst.out (y : Burst) : List MemOp × Dev := (y.ops, y.dev)

/-! ### Header writes -/

/-- A page by region and page index. -/
def pageAt (rg : Fin 4) (pg : BitVec 12) : Nat := rg.val * 4096 + pg.toNat
/-- PG_LOCK_WRITE (R493): by any master; only the owner's takes effect. -/
def execPgLockWrite (m : Master) (rg : Fin 4) (pg : BitVec 12) (v : Word) : State → Answer :=
  onDev (fun s => if s.sends m then regWrite s { m := m, dom := s.dev.domainOf s.ref m } (pageAt rg pg) 0x038 v else s.dev)
/-- A header write that passed the domain check, to page `p`: it exists, in a region that is there. -/
def onHeaderOf (f : Nat → State → Dev → Dev) (p : Nat) : State → Answer :=
  onDev (fun s => if (pageRowOf p).isNone || !upAt s.ref s.dev (p / 4096) then s.dev else f p s (s.dev.seq (locOf p)))
/-- The same as a command: a write to a half's page goes over to the half that rejoins (R221 step 3). -/
def onHeader (rg : Fin 4) (pg : BitVec 12) (f : Nat → State → Dev → Dev) : State → Answer :=
  if rg.val < 2 then forwarded (Half.ofRegion rg.val) (fun h => onHeaderOf f (h.n * 4096 + pg.toNat)) else onHeaderOf f (pageAt rg pg)
/-- COMMIT_REQ (R488): REQ, with GROUP and BOUND at the values the write gives them. -/
def execCommitReq (rg : Fin 4) (pg : BitVec 12) (group bound : Fin 16) : State → Answer :=
  onHeader rg pg (fun p s d => d.commitWrite s.ref p (1 + group.val * 2 ^ 4 + bound.val * 2 ^ 8))
/-- COMMIT_CANCEL (R490). -/
def execCommitCancel (rg : Fin 4) (pg : BitVec 12) (group bound : Fin 16) : State → Answer :=
  onHeader rg pg (fun p s d => d.commitWrite s.ref p (4 + group.val * 2 ^ 4 + bound.val * 2 ^ 8))
/-- BLOCK_RESET (R478). -/
def execBlockReset (rg : Fin 4) (pg : BitVec 12) : State → Answer := onHeader rg pg (fun p s d => d.blockReset s.ref p)
/-- CLOCK_GATE (R481). -/
def execClockGate (rg : Fin 4) (pg : BitVec 12) (enable : Bool) : State → Answer :=
  onHeader rg pg (fun p s d => if fget PG_CTL.ENABLE (d.rd (locOf p) 0x00C) = b2n enable then d else d.clockGate s.ref p enable)

end Sys2Proof.Machine
end

