-- ==== Sys2Proof/Machine/Blt.lean ====
section
/-!
DEFINITION. The blitter's operations (R399–R408): validation, the pixels of each operation, conversion and blending, and completion.
Every access goes through the bus under D3.
-/
namespace Sys2Proof.Machine

open Sys2Proof

/-- The access of the blitter. -/
def bltAcc : Acc := { m := .blitter, dom := 3 }
/-- A field as the operation captured it (R405). -/
def BltOp.f (b : BltOp) (x : Fld) : Nat := fget x (SMap.get regReset b.regs (bltL + x.off))
/-- Bits per pixel of a format (Table 18.1). -/
def bltBits (fmt : Nat) : Nat :=
  match fmt with
  | 0 => 1
  | 1 => 2
  | 2 => 4
  | 4 => 16
  | 5 => 32
  | _ => 8
/-- A surface: base, format, pitch. -/
structure Surf where
  base : Nat
  fmt : Nat
  pitch : Nat
def BltOp.dst (b : BltOp) : Surf := ⟨b.f BLT_DST_LO.BASE + b.f BLT_DST_HI.BASE * 2 ^ 32, b.f BLT_DFMT.FMT, b.f BLT_DFMT.PITCH⟩
def BltOp.src (b : BltOp) : Surf := ⟨b.f BLT_SRC_LO.BASE + b.f BLT_SRC_HI.BASE * 2 ^ 32, b.f BLT_SFMT.FMT, b.f BLT_SFMT.PITCH⟩
/-- Does an operation read a source? -/
def BltOp.reads (b : BltOp) : Bool := b.f BLT_CMD.OP = 0 || b.f BLT_CMD.OP = 4

/-! ### Validation (Table 18.4) -/

/-- Does a base or pitch break Table 18.1? -/
def Surf.bad (x : Surf) : Bool := (x.fmt = 4 && x.base % 2 ≠ 0) || (x.fmt = 5 && x.base % 4 ≠ 0) || x.pitch % 4 ≠ 0
/-- Is a COPY pair in Table 18.3? -/
def pairOk (sf df blend : Nat) : Bool :=
  (sf = df && sf ≤ 5) || (sf = 4 && df = 5) || (sf = 5 && df = 4) || (sf = 6 && (df = 4 || df = 5) && blend = 2)
/-- The error of a captured operation, 0 when it is allowed; the lowest where it has several. -/
def BltOp.error (b : BltOp) : Nat :=
  let op := b.f BLT_CMD.OP
  let blend := b.f BLT_CMD.BLEND
  let df := b.dst.fmt
  let sf := b.src.fmt
  if 5 ≤ op then 1
  else if 6 ≤ df || (op = 0 && !pairOk sf df blend) || (op = 4 && sf ≠ 0) then 2
  else if b.dst.bad || (b.reads && b.src.bad) then 3
  else if blend = 3 || (blend ≠ 0 && df < 4) || (blend = 2 && !(op = 0 && (sf = 5 || sf = 6))) then 4
  else 0

/-! ### Pixels -/

/-- Address of the first byte of a pixel, and its bit in that byte (R399). -/
def Surf.addr (x : Surf) (px py : Nat) : Nat := x.base + py * x.pitch + px * bltBits x.fmt / 8
def Surf.bit (x : Surf) (px : Nat) : Nat := px * bltBits x.fmt % 8
/-- Read a pixel: its value, whether it was uncorrectable, the run. -/
def Surf.get (x : Surf) (s : State) (y : Burst) (px py : Nat) : Nat × Bool × Burst :=
  let g := y.read s bltAcc (x.addr px py) ((bltBits x.fmt + 7) / 8)
  (leNat g.bytes / 2 ^ x.bit px % 2 ^ bltBits x.fmt, g.ue, { y with dev := g.dev })
/-- Write a pixel; a byte of several pixels is read, changed and written. -/
def Surf.put (x : Surf) (s : State) (y : Burst) (px py v : Nat) : Burst :=
  let n := bltBits x.fmt
  if n < 8 then
    let g := y.read s bltAcc (x.addr px py) 1
    let old := leNat g.bytes
    let was := old / 2 ^ x.bit px % 2 ^ n
    Burst.write { y with dev := g.dev } s bltAcc (x.addr px py) (toBytes (old - was * 2 ^ x.bit px + v % 2 ^ n * 2 ^ x.bit px) 1)
  else y.write s bltAcc (x.addr px py) (toBytes v (n / 8))
/-- Widen the channels of a colour pixel to 8 bits (R402): R, G, B. -/
def rgbOf (fmt v : Nat) : Nat × Nat × Nat :=
  if fmt = 4 then
    (let r := v / 2 ^ 11 % 32
     let g := v / 2 ^ 5 % 64
     let c := v % 32
     (r * 8 + r / 4, g * 4 + g / 16, c * 8 + c / 4))
  else (v / 2 ^ 16 % 256, v / 2 ^ 8 % 256, v % 256)
/-- A colour pixel of 8-bit channels and an alpha in a format: narrowing drops the low bits. -/
def pixelOf (fmt a : Nat) (c : Nat × Nat × Nat) : Nat :=
  if fmt = 4 then c.1 / 8 * 2 ^ 11 + c.2.1 / 4 * 2 ^ 5 + c.2.2 / 8 else a * 2 ^ 24 + c.1 * 2 ^ 16 + c.2.1 * 2 ^ 8 + c.2.2
/-- One channel blended (R404). -/
def mix (s d a : Nat) : Nat := (s * a + d * (255 - a) + 127) / 255
/-- A blended destination pixel: an ARGB8888 destination keeps its own A. -/
def blendPixel (fmt a old : Nat) (s : Nat × Nat × Nat) : Nat :=
  let d := rgbOf fmt old
  pixelOf fmt (old / 2 ^ 24 % 256) (mix s.1 d.1 a, mix s.2.1 d.2.1 a, mix s.2.2 d.2.2 a)

/-- What a destination pixel takes, before blending: a value in destination format (FG, BG), or a source pixel. -/
inductive Ink where
  | colour (v : Nat)
  | source (px py : Nat)
  | expand (px py : Nat)
deriving DecidableEq, Repr

/-- The pixels of a line (R403): from the end with the smaller major coordinate; a tie of the minor one goes to the smaller. -/
def linePixels (x0 y0 x1 y1 : Nat) : List (Nat × Nat) :=
  let dx := max x0 x1 - min x0 x1
  let dy := max y0 y1 - min y0 y1
  let byX : Bool := dy ≤ dx
  let go (m0 n0 m1 n1 : Nat) : List (Nat × Nat) :=
    (List.range (m1 - m0 + 1)).map (fun (i : Nat) =>
      let num : Int := 2 * ((n1 : Int) - n0) * i - ((m1 : Int) - m0)
      let den : Int := 2 * ((m1 : Int) - m0)
      let n : Nat := if m1 = m0 then n0 else ((n0 : Int) - (-num) / den).toNat
      (m0 + i, n))
  if byX then (if x0 ≤ x1 then go x0 y0 x1 y1 else go x1 y1 x0 y0)
  else ((if y0 ≤ y1 then go y0 x0 y1 x1 else go y1 x1 y0 x0).map (fun e => (e.2, e.1)))
/-- The pixels an operation goes over, in order, inside the clip rectangle (R401). -/
def BltOp.pixels (b : BltOp) : List (Nat × Nat × Ink) :=
  let op := b.f BLT_CMD.OP
  let dx := b.f BLT_DXY.X
  let dy := b.f BLT_DXY.Y
  let w := b.f BLT_SIZE.W_M1 + 1
  let h := b.f BLT_SIZE.H_M1 + 1
  let fg : Ink := .colour (b.f BLT_FG.COL % 2 ^ bltBits b.dst.fmt)
  let t := max 1 (b.f BLT_ALPHA.THICK)
  let all : List (Nat × Nat × Ink) :=
    if op = 3 then (linePixels dx dy (b.f BLT_LEND.X) (b.f BLT_LEND.Y)).map (fun e => (e.1, e.2, fg))
    else (List.range h).flatMap (fun j => (List.range w).filterMap (fun i =>
      if op = 2 ∧ !(i < t ∨ w ≤ i + t ∨ j < t ∨ h ≤ j + t) then none
      else some (dx + i, dy + j,
        if op = 0 then .source (b.f BLT_SXY.X + i) (b.f BLT_SXY.Y + j)
        else if op = 4 then .expand (b.f BLT_SXY.X + i) (b.f BLT_SXY.Y + j) else fg)))
  all.filter (fun e => b.f BLT_CLIP0.X ≤ e.1 && e.1 ≤ b.f BLT_CLIP1.X && b.f BLT_CLIP0.Y ≤ e.2.1 && e.2.1 ≤ b.f BLT_CLIP1.Y)
/-- The byte ranges of the rows of a rectangle of a surface. -/
def Surf.rows (x : Surf) (px py w h : Nat) : List (Nat × Nat) :=
  (List.range h).map (fun j => (x.addr px (py + j), x.base + (py + j) * x.pitch + ((px + w) * bltBits x.fmt + 7) / 8))
/-- Do the source and destination areas of a COPY or EXPAND overlap in memory (R407)? -/
def BltOp.overlap (b : BltOp) : Bool :=
  let w := b.f BLT_SIZE.W_M1 + 1
  let h := b.f BLT_SIZE.H_M1 + 1
  b.reads && (b.src.rows (b.f BLT_SXY.X) (b.f BLT_SXY.Y) w h).any (fun p =>
    (b.dst.rows (b.f BLT_DXY.X) (b.f BLT_DXY.Y) w h).any (fun q => p.1 < q.2 && q.1 < p.2))

/-! ### Running -/

/-- An operation so far: its accesses, pixels written, whether a source read was uncorrectable. -/
structure Draw where
  run : Burst
  n : Nat := 0
  ue : Bool := false
/-- Write one value, blended as the operation says: `a` is the alpha of the pixel. -/
def drawPut (s : State) (b : BltOp) (y : Draw) (px py : Nat) (a : Nat) (c : Nat × Nat × Nat) (plain : Nat) : Draw :=
  if b.f BLT_CMD.BLEND = 0 then { y with run := b.dst.put s y.run px py plain, n := y.n + 1 }
  else
    let g := b.dst.get s y.run px py
    { y with run := b.dst.put s g.2.2 px py (blendPixel b.dst.fmt a g.1 c), n := y.n + 1 }
/-- One pixel of an operation; none after an uncorrectable read. An overlapping COPY or EXPAND writes free values (R407). -/
def drawPixel (s : State) (b : BltOp) (y : Draw) (e : Nat × Nat × Ink) : Draw :=
  let px := e.1
  let py := e.2.1
  let df := b.dst.fmt
  let const := b.f BLT_ALPHA.A
  if y.ue then y
  else match e.2.2 with
    | .colour v => drawPut s b y px py const (rgbOf df v) v
    | .expand sx sy =>
      let g := b.src.get s y.run sx sy
      let y1 : Draw := { y with run := g.2.2 }
      let v := (if g.1 = 1 then b.f BLT_FG.COL else b.f BLT_BG.COL) % 2 ^ bltBits df
      if g.2.1 then { y1 with ue := true }
      else if g.1 = 0 ∧ b.f BLT_CMD.TRANSP = 1 then y1
      else if b.overlap then
        (let f := y1.run.dev.free
         { y1 with run := b.dst.put s { y1.run with dev := f.2 } px py f.1.toNat, n := y1.n + 1 })
      else drawPut s b y1 px py const (rgbOf df v) v
    | .source sx sy =>
      let g := b.src.get s y.run sx sy
      let y1 : Draw := { y with run := g.2.2 }
      let sf := b.src.fmt
      if g.2.1 then { y1 with ue := true }
      else if b.overlap then
        (let f := y1.run.dev.free
         { y1 with run := b.dst.put s { y1.run with dev := f.2 } px py f.1.toNat, n := y1.n + 1 })
      else if sf = 6 then drawPut s b y1 px py g.1 (rgbOf df (b.f BLT_FG.COL)) 0
      else
        let a := if b.f BLT_CMD.BLEND = 1 then const else g.1 / 2 ^ 24 % 256
        drawPut s b y1 px py a (rgbOf sf g.1) (if sf = df then g.1 else pixelOf df 255 (rgbOf sf g.1))
/-- The operation ends with an error code and a count of pixels (R406). -/
def Dev.bltEnd (d : Dev) (err n : Nat) : Dev :=
  (((({ d with blt := none }.p bltL BLT_STAT.BUSY 0).p bltL BLT_STAT.ERR err).p bltL BLT_PIX.PIXELS n).sat bltL BLT_CNT.OPS).raise bltL (if err = 0 then 0 else 1)
/-- The pixels that an operation goes over which ABORT finds after its first `k`: it goes on to the next 16-byte boundary of the destination (R406). -/
def BltOp.untilEdge (b : BltOp) (k : Nat) : List (Nat × Nat × Ink) :=
  let unit (e : Nat × Nat × Ink) : Nat := b.dst.addr e.1 e.2.1 / 16
  let ps := b.pixels
  match (ps.take k).getLast? with
  | none => []
  | some last => ps.take k ++ (ps.drop k).takeWhile (fun e => unit e = unit last)
/-- An operation goes over the pixels `ps` of its own and ends; `err` is what stopped it there. -/
def bltRun (s : State) (b : BltOp) (ps : List (Nat × Nat × Ink)) (err : Nat) : List MemOp × Dev :=
  if b.error ≠ 0 then ([], s.dev.bltEnd b.error 0)
  else
    let y := ps.foldl (drawPixel s b) { run := s.run }
    (y.run.ops, y.run.dev.bltEnd (if y.ue then 6 else err) y.n)
/-- An act of the blitter on the operation in progress. -/
def onBlit (f : State → BltOp → List MemOp × Dev) : State → Answer :=
  onMem (fun s => match s.dev.blt with
    | some b => if s.dev.svcUp && s.dev.clocked bltL && !b.held then f s b else ([], s.dev)
    | none => ([], s.dev))
/-- BLT_COMPLETE (R406): every write has its response; where ABORT waits, it found the operation after `pixels` pixels. -/
def execBltComplete (pixels : BitVec 27) : State → Answer :=
  onBlit (fun s b => if b.abort then bltRun s b (b.untilEdge pixels.toNat) 7 else bltRun s b b.pixels 0)
/-- BLT_TIMEOUT (R406): an access had no response in 64 microseconds, after `pixels` pixels. -/
def execBltTimeout (pixels : BitVec 27) : State → Answer := onBlit (fun s b => bltRun s b (b.pixels.take pixels.toNat) 5)

end Sys2Proof.Machine
end

