-- ==== Sys2Proof/Machine/Dma.lean ====
section
/-!
DEFINITION. What the accesses of a DMA channel do (R357–R365): the fetch of a descriptor, the transfer with its completion, the
re-read of the chain words, and a timeout. Every byte moves through the bus under the channel's domain.
-/
namespace Sys2Proof.Machine

open Sys2Proof

/-- The access of a channel. -/
def dmaAcc (r : Fin 3) : Acc := { m := .dma r, dom := r.val + 1 }
/-- DMA_DESCc as an address, and set to one. -/
def Dev.dmaDesc (d : Dev) (r c : Nat) : Nat := d.g (dmaL r) (DMA_DESC_LO.ADDR.ix c) * 32 + d.g (dmaL r) (DMA_DESC_HI.ADDR.ix c) * 2 ^ 32
def Dev.setDesc (d : Dev) (r c a : Nat) : Dev :=
  (d.p (dmaL r) (DMA_DESC_LO.ADDR.ix c) (a / 32)).p (dmaL r) (DMA_DESC_HI.ADDR.ix c) (a / 2 ^ 32)
/-- Fields of a descriptor (Table 15.1). -/
def dscAt (w : List Nat) (i : Nat) : Nat := w.getD i 0
def dscSw (w : List Nat) : Nat := 2 ^ (dscAt w 0 / 2 ^ 4 % 8)
def dscDw (w : List Nat) : Nat := 2 ^ (dscAt w 0 / 2 ^ 8 % 8)
def dscLen (w : List Nat) : Nat := dscAt w 1 % 2 ^ 24
def dscSrc (w : List Nat) : Nat := dscAt w 2 + dscAt w 3 % 256 * 2 ^ 32
def dscDst (w : List Nat) : Nat := dscAt w 4 + dscAt w 5 % 256 * 2 ^ 32
/-- Is a descriptor malformed (R358)? -/
def dscBad (w : List Nat) : Bool :=
  let sw := dscSw w
  let dw := dscDw w
  16 < sw || 16 < dw || dscSrc w % sw ≠ 0 || dscDst w % dw ≠ 0 || dscLen w = 0 || dscLen w % max sw dw ≠ 0

/-! ### Transfer (R359) -/

/-- A transfer so far: its accesses, bytes read and written, whether a read was uncorrectable, whether it has stopped. -/
structure Move where
  run : Burst
  rd : Nat := 0
  wr : Nat := 0
  ue : Bool := false
  halt : Bool := false
/-- One source read of a unit, where it is within the limit of bytes read. -/
def moveRead (s : State) (x : Acc) (w : List Nat) (rdMax : Nat) (y : Move × List Byte) : Move × List Byte :=
  let sw := dscSw w
  if y.1.halt ∨ rdMax < y.1.rd + sw then ({ y.1 with halt := true }, y.2)
  else
    let g := y.1.run.read s x (if bit (dscAt w 0) 2 then dscSrc w + y.1.rd else dscSrc w) sw
    let run : Burst := { y.1.run with dev := g.dev }
    if g.ue then ({ y.1 with run := run, ue := true, halt := true }, y.2) else ({ y.1 with run := run, rd := y.1.rd + sw }, y.2 ++ g.bytes)
/-- One destination write of a unit, where the holding register has its bytes and it is within the limit of bytes written. -/
def moveWrite (s : State) (x : Acc) (w : List Nat) (wrMax : Nat) (y : Move × List Byte) : Move × List Byte :=
  let dw := dscDw w
  if y.2.length < dw ∨ wrMax < y.1.wr + dw then y
  else
    let a := if bit (dscAt w 0) 3 then dscDst w + y.1.wr else dscDst w
    ({ y.1 with run := y.1.run.write s x a (y.2.take dw), wr := y.1.wr + dw }, y.2.drop dw)
/-- One unit, as long as the wider access: its reads, then its writes. -/
def moveUnit (s : State) (x : Acc) (w : List Nat) (rdMax wrMax : Nat) (y : Move) : Move :=
  if y.halt then y
  else
    let m := max (dscSw w) (dscDw w)
    let z := (List.range (m / dscSw w)).foldl (fun z _ => moveRead s x w rdMax z) (y, [])
    ((List.range (m / dscDw w)).foldl (fun z _ => moveWrite s x w wrMax z) z).1
/-- A transfer, within limits of bytes read and written. -/
def dmaMove (s : State) (x : Acc) (w : List Nat) (rdMax wrMax : Nat) : Move :=
  (List.range (dscLen w / max (dscSw w) (dscDw w))).foldl (fun y _ => moveUnit s x w rdMax wrMax y) { run := s.run }

/-! ### Completion (R360, R363) -/

/-- A channel stops with a status, no descriptor counted. -/
def Dev.dmaHalt (d : Dev) (r c stat : Nat) : Dev := (d.dmaSet r c dmaStopped .none).p (dmaL r) (DMA_STAT.STATUS.ix c) stat
/-- A descriptor is counted with its status, and its event raised (R360 step 3, R363); words 6 and 7 are read again (step 4). -/
def Dev.dmaCount1 (d : Dev) (r c stat : Nat) (irq : Bool) : Dev :=
  let l := dmaL r
  let d1 := d.p l (DMA_STAT.STATUS.ix c) stat
  if stat = 0 then
    (let d2 := (d1.dmaSet r c dmaRun .reread).modDma r c (fun x => { x with done := (x.done + 1) % 2 ^ 32 })
     if irq then d2.raise l c else d2)
  else ((d1.dmaSet r c dmaRun .last).modDma r c (fun x => { x with fail := (x.fail + 1) % 2 ^ 32 })).raise l (16 + c)
/-- Word 5 is written back with DONE (R360 step 1). -/
def dmaDone (s : State) (r : Fin 3) (c : Nat) (w : List Nat) (wrote : Nat) (run : Burst) : Burst :=
  run.write s (dmaAcc r) (run.dev.dmaDesc r c + 20) (toBytes (dscAt w 5 % 256 + wrote * 2 ^ 8) 4)
/-- A descriptor completes: DONE, then OWN = 0 with STAT, are written back; it is counted. -/
def dmaFinish (s : State) (r : Fin 3) (c : Nat) (w : List Nat) (stat wrote : Nat) (run : Burst) : List MemOp × Dev :=
  let x := dmaAcc r
  let a := run.dev.dmaDesc r c
  let y1 := dmaDone s r c w wrote run
  let y2 := y1.write s x a (toBytes (dscAt w 0 % 2 ^ 28 / 2 * 2 + stat * 2 ^ 28) 4)
  (y2.ops, y2.dev.dmaCount1 r c stat (bit (dscAt w 0) 1))
/-- The partial counts of a transfer. -/
def Move.counts (y : Move) (r c : Nat) : Burst :=
  { y.run with dev := (y.run.dev.p (dmaL r) (DMA_RDONE.BYTES.ix c) y.rd).p (dmaL r) (DMA_WDONE.BYTES.ix c) y.wr }

/-- An act of a channel: it exists, its region runs and the page's clock with it. -/
def onChannel (r : Fin 3) (c : Fin 16) (f : State → List MemOp × Dev) : State → Answer :=
  onMem (fun s =>
    if dmaCount r ≤ c.val ∨ !s.regionOn r ∨ !s.dev.clocked (dmaL r) then ([], s.dev) else f s)
/-- DESCRIPTOR_FETCH (R361): the descriptor at DMA_DESCc arrives. One that is uncorrectable is not taken: the channel stops with UE
(notes/assumptions/73.md). -/
def execDescriptorFetch (r : Fin 3) (c : Fin 16) : State → Answer :=
  onChannel r c (fun s =>
    let d := s.dev
    if (d.dma r c).phase ≠ .fetch then ([], d)
    else if (d.dma r c).stopping then ([], d.dmaHalt r c 5)
    else
      let g := s.run.read s (dmaAcc r) (d.dmaDesc r c) 32
      let w := (List.range 8).map (fun i => leNat ((g.bytes.drop (4 * i)).take 4))
      if g.ue then ([], g.dev.dmaHalt r c 3)
      else if !bit (dscAt w 0) 0 then ([], g.dev.dmaHalt r c 1)
      else
        let d1 := (((g.dev.modDma r c (fun x => { x with taken := (x.taken + 1) % 2 ^ 32, phase := .move w })).p (dmaL r) (DMA_STAT.STATUS.ix c) 0).p
          (dmaL r) (DMA_RDONE.BYTES.ix c) 0).p (dmaL r) (DMA_WDONE.BYTES.ix c) 0
        ([], d1))
/-- What a taken descriptor moves, within limits of bytes read and written: nothing where it is malformed (R358). -/
def dmaMoved (s : State) (r : Fin 3) (w : List Nat) (rd wr : Nat) : Move := if dscBad w then { run := s.run } else dmaMove s (dmaAcc r) w rd wr
/-- DESCRIPTOR_COMPLETE (R360): the data is moved and the descriptor completes; where STOP waits, after the bytes read and written
before its access boundary. -/
def execDescriptorComplete (r : Fin 3) (c : Fin 16) (rd wr : BitVec 24) : State → Answer :=
  onChannel r c (fun s =>
    match (s.dev.dma r c).phase with
    | .move w =>
      let stop := (s.dev.dma r c).stopping
      let y := if stop then dmaMoved s r w rd.toNat wr.toNat else dmaMoved s r w (dscLen w) (dscLen w)
      dmaFinish s r c w (if dscBad w then 4 else if y.ue then 3 else if stop then 5 else 0) y.wr (y.counts r c)
    | _ => ([], s.dev))
/-- DESCRIPTOR_REREAD (R360 step 4, R362): words 6 and 7 arrive; RING is sampled and cleared. After a descriptor that failed the channel then
stops (R363). -/
def execDescriptorReread (r : Fin 3) (c : Fin 16) : State → Answer :=
  onChannel r c (fun s =>
    let d := s.dev
    if (d.dma r c).phase = .reread ∨ (d.dma r c).phase = .last then
      (let g := s.run.read s (dmaAcc r) (d.dmaDesc r c + 24) 8
       let v := leNat g.bytes
       let ring := d.on (dmaL r) (DMA_CTL.RING.ix c)
       let d1 := g.dev.p (dmaL r) (DMA_CTL.RING.ix c) 0
       if (d.dma r c).phase = .last then ([], d1.dmaSet r c dmaStopped .none)
       else if (d.dma r c).stopping then ([], d1.dmaHalt r c 5)
       else if g.ue then ([], d1.dmaHalt r c 3)
       else if v % 2 = 0 then ([], (d1.setDesc r c (v / 32 % 2 ^ 35 * 32)).dmaSet r c dmaRun .fetch)
       else if ring then ([], d1)
       else ([], d1.dmaSet r c dmaEnd .none))
    else ([], d))
/-- DMA_TIMEOUT (R363): an access had no response in 64 microseconds. Of a transfer `rd` and `wr` bytes were read and written before it; `wb` says
whose access it was: 0 the transfer's, 1 the write-back of word 5, 2 that of word 0. A write-back that is lost is abandoned. -/
def execDmaTimeout (r : Fin 3) (c : Fin 16) (rd wr : BitVec 24) (wb : Fin 3) : State → Answer :=
  onChannel r c (fun s =>
    match (s.dev.dma r c).phase with
    | .none => ([], s.dev)
    | .fetch => ([], s.dev.dmaHalt r c 2)
    | .reread => ([], s.dev.dmaHalt r c 2)
    | .last => ([], (s.dev.p (dmaL r) (DMA_CTL.RING.ix c) 0).dmaHalt r c 2)
    | .move w =>
      let y := dmaMoved s r w rd.toNat wr.toNat
      let z := y.counts r c
      if wb.val = 0 then dmaFinish s r c w 2 y.wr z
      else
        let q := if wb.val = 2 then dmaDone s r c w y.wr z else z
        (q.ops, q.dev.dmaCount1 r c 2 false))

end Sys2Proof.Machine
end

