-- ==== Sys2Proof/Machine/Edges.lean ====
section
/-!
DEFINITION. The edges at which commits swap (R489) and what else happens there: a beam's sampling edge, the end of a harness
validation, the ends of renders, frame boundaries, line markers, latch points, sample periods.
-/
namespace Sys2Proof.Machine

open Sys2Proof

/-- BEAM_COMMIT_SWAP (R60): the third sampling edge after the request reached the page. -/
def execBeamCommitSwap (h : Half) : State → Answer := onBlock h (hLoc h .beam) (fun s => s.dev.ownEdge (pageOf h.n .beam 0))

/-- HRN_VALIDATION_DONE (R147): the request reaches the page with the segment maps of the shadow bank, or is dropped with its
group where the bank holds XFORM 4–14. -/
def Dev.hrnValidated (d : Dev) (h : Half) : Dev :=
  let l := hLoc h .hrn
  let p := pageOf h.n .hrn 0
  if !d.on l HRN_STAT.VALIDATING then d
  else
    let d1 := d.p l HRN_STAT.VALIDATING 0
    let bank := (d.harn h).shadow
    if bank.any (fun e => 4 ≤ enXform e.2 && enXform e.2 < 15) then
      (let ps := d1.armedWith p
       (ps.foldl (fun x q => x.p (locOf q) PG_COMMIT.PENDING 0) d1).refuseAll ps (fun q => if q = p then [0x60] else []))
    else ((d1.p l PG_COMMIT.RESULT 0).modHarn h (fun x => { x with newMaps := segMaps bank })).settle p
def execHrnValidationDone (h : Half) : State → Answer := onHalf h (fun s => s.dev.hrnValidated h)

/-! ### Renders (R82, R97, R153) -/

/-- Between renders, an engine applies a commit of its page (R97). -/
def Dev.rowEdge (d : Dev) (h : Half) (e : Nat) : Dev :=
  if (d.eng h e).cur.isSome || (d.eng h e).lcur.isSome then d else d.ownEdge (pageOf h.n .row e)
/-- RENDER_START (R82). -/
def execRenderStart (h : Half) (e : Fin 8) : State → Answer :=
  onBlock h (rowL h e) (fun s => ((s.dev.rowEdge h e).renderStart s.mem h e).rowEdge h e)
/-- LINE_FILL_RETURN (R90–R94): the render may be parked or dropped. -/
def execLineFillReturn (h : Half) (e : Fin 8) (mot : Bool) (line : BitVec 34) (ue : Bool) : State → Answer :=
  onBlock h (rowL h e) (fun s => (s.dev.lineFill s.mem h e mot line.toNat ue).rowEdge h e)
/-- RENDER_COMPLETE (R153). -/
def execRenderComplete (h : Half) (e : Fin 8) (stall : Nat) : State → Answer :=
  onBlock h (rowL h e) (fun s => (s.dev.renderDone s.mem h e stall).rowEdge h e)

/-! ### Ports and cameras -/

/-- FRAME_BOUNDARY (R176, R200): a commit of the port's page swaps, and the transmitter picks its next frame. `elapsed` is the time
since the frame before, `clk` what a heartbeat carries. -/
def execFrameBoundary (h : Half) (p : Fin 64) (elapsed : Nat) (clk : BitVec 16) : State → Answer :=
  onBlock h (rlkL h p) (fun s =>
    let d := s.dev.ownEdge (pageOf h.n .rlk p)
    (if s.ref.hs h = .init then d.enterDown h p else d).frameBoundary s.ref h p elapsed clk.toNat)

/-- Does a commit of an LPE page swap at this marker (R265)? With ATEN = 1 it waits for an accepted line of a row from ATROW on. -/
def Dev.lpeEdgeAt (d : Dev) (m : Mem) (h : Half) (k : Nat) (st : Option Stamp) : Bool :=
  let l := lpeL h k
  if d.gS l LPE_BIND.ATEN = 0 then true
  else match st with
    | none => false
    | some t => d.on l LPE_STAT.RUN && d.accepts h k t && (match d.correlate m h k t.pos with
      | .row q _ => decide (0 ≤ rowDiff q (d.gS l LPE_ATROW.ROW))
      | _ => false)
/-- A line marker: the port keeps or discards the line, and a commit of the pipe's page swaps (R265). A line that is kept has a stamp, which takes
the travel beam after that swap. -/
def Dev.markerAt (d : Dev) (m : Mem) (h : Half) (k stream fmt : Nat) (fresh : Bool) (n : Nat) : Option Stamp × Dev :=
  let got : Bool := d.g (cxpL h k) CXP_STAT.LINK = 2 && stream = d.g (cxpL h k) CXP_CFG.STREAM
  let x := d.portLine h k stream fmt fresh n
  let d1 := if got && x.2.clocked (lpeL h k) && x.2.lpeEdgeAt m h k (x.1.map (fun t => x.2.stampOf h k t)) then x.2.ownEdge (pageOf h.n .lpe k) else x.2
  (x.1.map (fun t => d1.stampOf h k t), d1)
/-- CXP_LINE_MARKER (R241–R257): the pipe takes a line that the port keeps. -/
def Dev.lineMarker (d : Dev) (m : Mem) (h : Half) (k stream fmt : Nat) (fresh : Bool) (pix : List (BitVec 24)) : Dev :=
  let x := d.markerAt m h k stream fmt fresh pix.length
  match x.1 with
  | none => x.2
  | some st =>
    if x.2.clocked (lpeL h k) && x.2.on (lpeL h k) LPE_STAT.RUN then x.2.pipeLine m h k st (pix.map (fun w => rawOf fmt w.toNat)) else x.2
def execCxpLineMarker (h : Half) (k : Fin 2) (stream : BitVec 8) (fmt : Fin 5) (fresh : Bool) (pix : List (BitVec 24)) : State → Answer :=
  onBlock h (cxpL h k) (fun s => s.dev.lineMarker s.mem h k stream.toNat fmt fresh pix)
/-- CXP_FIFO_OVERFLOW (R243): a line of the port's stream comes, whose marker takes its trigger as any other's does (R245), and is lost. -/
def Dev.lineLoss (d : Dev) (m : Mem) (h : Half) (k : Nat) : Dev :=
  let l := cxpL h k
  ((d.markerAt m h k (d.g l CXP_CFG.STREAM) (d.g l CXP_CFG.FMT) false 0).2.sat l CXP_CERR.LOST).raise l 5
def execCxpFifoOverflow (h : Half) (k : Fin 2) : State → Answer := onBlock h (cxpL h k) (fun s => s.dev.lineLoss s.mem h k)
/-- LOUPE_ROW_TIMEOUT (R254). -/
def execLoupeRowTimeout (h : Half) (k : Fin 2) : State → Answer :=
  onBlock h (lpeL h k) (fun s => if s.dev.on (lpeL h k) LPE_STAT.RUN then s.dev.closeRow h k true else s.dev)

/-! ### Heads (R392–R396) -/

/-- A latch point of head `c` at a raster line: the pages of the head swap, the composition judges staleness and takes its frame,
and the head counts. -/
def headBoundary (s : State) (c line : Nat) : List MemOp × Dev :=
  let d := s.dev
  let ps := [pageOf 2 .prz c, pageOf 2 .prz 2, pageOf 2 .dhd c]
  let d1 := d.boundary (2 + c) ps
  let flip := ps.any (fun p => d.armed p && d.bound p = 2 + c && !d1.armed p)
  let x := if d1.clocked (przL c) then przLatch { s with dev := d1 } c else ([], d1)
  (x.1, x.2.headLatch c line flip)
/-- An act of a head that also stores to memory. -/
def onHeadMem (c : Nat) (f : State → List MemOp × Dev) : State → Answer :=
  onMem (fun s => if s.dev.svcUp && s.dev.clocked (dhdL c) then f s else ([], s.dev))
/-- The first line of the vertical front porch of a head's mode, and its first sync line. -/
def Dev.porchLine (d : Dev) (c : Nat) : Nat := (modeSize (d.g (dhdL c) DHD_CFG.MODE)).2
def Dev.syncLine (d : Dev) (c : Nat) : Nat := d.porchLine c + (timing (d.g (dhdL c) DHD_CFG.MODE)).vfp
/-- Is the service region dimmed (R481)? -/
def Dev.dimmed (d : Dev) : Bool := d.on pwrL PWR_STAT.DIM
/-- LATCH_POINT (R392) of a head whose raster runs, in command mode after the last line of a transfer (R395); in service dim the head stops there (R481). -/
def execLatchPoint (c : Fin 2) : State → Answer :=
  onHeadMem c (fun s =>
    if !s.dev.on (dhdL c) DHD_STAT.RUN || (decide (c = 1) && s.dev.cmdMode && !(s.dev.head 1).transfer) then ([], s.dev)
    else
      let x := headBoundary s c (s.dev.porchLine c)
      if s.dev.dimmed then (x.1, (x.2.p (dhdL c) DHD_STAT.RUN 0).p (dhdL c) DHD_STAT.LOCKED 0) else x)
/-- RASTER_START (R393): the pixel clock has locked. -/
def execRasterStart (c : Fin 2) : State → Answer :=
  onHeadMem c (fun s =>
    let l := dhdL c
    if s.dev.on l DHD_CFG.EN && !s.dev.on l DHD_STAT.RUN && !s.dev.dimmed then
      headBoundary { s with dev := (s.dev.p l DHD_STAT.RUN 1).p l DHD_STAT.LOCKED 1 } c (s.dev.syncLine c)
    else ([], s.dev))
/-- UNDERRUN (R396), which command mode has none of (R395): the frame is aborted with `lines` lines of its writeback written; the raster restarts at its first sync line. -/
def execUnderrun (c : Fin 2) (lines : BitVec 11) : State → Answer :=
  onHeadMem c (fun s =>
    if !s.dev.on (dhdL c) DHD_STAT.RUN || (decide (c = 1) && s.dev.cmdMode) then ([], s.dev)
    else
      let d1 := (s.dev.sat (dhdL c) DHD_UNDER.COUNT).raise (dhdL c) 1
      let w := wbAbandon { s with dev := d1 } c lines.toNat
      let x := headBoundary { s with dev := w.2, mem := s.mem.applyAll w.1 } c (w.2.syncLine c)
      (w.1 ++ x.1, x.2))

/-! ### The mixer (R417) -/

/-- AUDIO_SAMPLE_PERIOD: where the period begins a block, a commit of the page is applied first. `mics` are the samples of the
microphones' decimation filters. -/
def execAudioSamplePeriod (mics : List (BitVec 24)) : State → Answer :=
  onSvc audL (fun s =>
    let d := if s.dev.audBegins then s.dev.boundary 4 [pageOf 2 .aud 0] else s.dev
    audPeriod s.ref d (mics.map (fun v => v.toInt)))

end Sys2Proof.Machine
end

