-- ==== Sys2Proof/Machine/Image.lean ====
section
/-!
DEFINITION. What the boot ROM reads from flash (chapter 23) and checks before it uses it: strap block (R460), slot header (R461),
Obhoec images (R465), the configuration (R464), the verdict on a slot (R462, Table 23.7), and the load checks of a
control-store image (R320).
-/
namespace Sys2Proof.Machine

open Sys2Proof

/-! ### Strap block (R460) -/

/-- Are MAGIC and CHECK of a device's strap block correct? -/
def Dev.strapOk (d : Dev) (dev : Nat) : Bool :=
  d.flashN dev 0 4 = 0x50525453 && d.flashN dev 0xFFC 4 = crc32 (d.flashBytes dev 0 0xFFC)
/-- The copy the boot ROM uses: device 0's, else device 1's. -/
def Dev.strapDev (d : Dev) : Option Nat := if d.strapOk 0 then some 0 else if d.strapOk 1 then some 1 else none
/-- How the boot ROM reads the devices after the strap block (Table 23.2): the xSPI clock in MHz, read dummy cycles, octal DTR. -/
def Dev.strapXspi (d : Dev) : Option (Nat × Nat × Bool) :=
  d.strapDev.map (fun dev =>
    let w := d.flashN dev 8 3
    (if 25 ≤ w % 256 ∧ w % 256 ≤ 200 then w % 256 else 25, w / 2 ^ 8 % 32, bit w 16))
/-- DENS and RANKS2 of a half by the strap block; none where no copy is valid. -/
def Dev.strapGeom (d : Dev) (h : Half) : Option (Nat × Nat) :=
  d.strapDev.map (fun dev => let w := d.flashN dev (4 + h.n) 1; (w % 4, w / 4 % 2))
/-- Is a geometry in Table 13.1: a density, and not 16 Gbit in two ranks? -/
def geomOk (g : Nat × Nat) : Bool := g.1 ≠ 0 && !(g.1 = 3 && g.2 = 1)
/-- The populated bytes of a half by the strap block. -/
def Dev.strapSize (d : Dev) (h : Half) : Nat :=
  match d.strapGeom h with
  | some g => if geomOk g then 2 ^ (32 + g.1) * (1 + g.2) else 0
  | none => 0

/-! ### Slot header (R461) -/

/-- An entry of a slot header (Table 23.3): offset and length of an image, its kind. -/
structure Entry where
  off : Nat
  len : Nat
  kind : Nat
deriving DecidableEq, Repr
/-- Entry `i` of the slot in device `dev`. -/
def Dev.entry (d : Dev) (dev i : Nat) : Entry :=
  let a := 0x1010 + 16 * i
  ⟨d.flashN dev a 4, d.flashN dev (a + 4) 4, d.flashN dev (a + 8) 1⟩
/-- Are MAGIC, FORMAT, COUNT and CHECK of a slot header correct? -/
def Dev.headerOk (d : Dev) (dev : Nat) : Bool :=
  let n := d.flashN dev 0x100C 4
  d.flashN dev 0x1000 4 = 0x544F4C53 && d.flashN dev 0x1004 4 = 1 && 1 ≤ n && n ≤ 64
    && d.flashN dev 0x1FFC 4 = crc32 (d.flashBytes dev 0x1000 0xFFC)
/-- SEQ of a slot. -/
def Dev.slotSeq (d : Dev) (dev : Nat) : Nat := d.flashN dev 0x1008 4

/-! ### Obhoec images (R465, Table 23.5) -/

/-- An image: its KIND, TARGET and LENGTH, device and the offset of its header. -/
structure Img where
  kind : Nat
  target : Nat
  len : Nat
  dev : Nat
  off : Nat
deriving DecidableEq, Repr
/-- The image of a slot entry. -/
def Dev.img (d : Dev) (dev : Nat) (e : Entry) : Img :=
  ⟨d.flashN dev (e.off + 6) 1, d.flashN dev (e.off + 8) 4, d.flashN dev (e.off + 12) 4, dev, e.off⟩
/-- REGION, partition and core mask of TARGET. -/
def Img.region (x : Img) : Nat := x.target % 4
def Img.part (x : Img) : Nat := x.target / 2 ^ 4 % 4
def Img.mask (x : Img) : Nat := x.target / 2 ^ 8 % 2 ^ 20
/-- Does an image target a region (0 Half A, 1 Half B, 2 service)? -/
def Img.hits (x : Img) (rg : Nat) : Bool := if rg = 2 then x.region = 3 else x.region = rg || x.region = 2
/-- Header and payload. -/
def Dev.imgBytes (d : Dev) (x : Img) : List Byte := d.flashBytes x.dev x.off (256 + x.len)
/-- `n` bytes of a payload. -/
def Dev.payload (d : Dev) (x : Img) (at_ n : Nat) : Nat := d.flashN x.dev (x.off + 256 + at_) n
/-- A number whose bytes stand in flash most significant first. -/
def Dev.flashBig (d : Dev) (dev off n : Nat) : Nat := (d.flashBytes dev off n).foldl (fun t b => t * 256 + b.toNat) 0
/-- Are KIND, TARGET and the shape of the payload ones of Table 23.5? A configuration has no target. -/
def Dev.imgShape (d : Dev) (x : Img) : Bool :=
  match x.kind with
  | 1 => x.len % 2 = 0 && x.len ≤ 32768 && (x.region ≠ 3 || x.mask < 256)
    && (List.range (x.len / 2)).all (fun i => d.payload x (2 * i) 2 < 2 ^ 14)
  | 2 => x.part ≠ 3 && (x.region ≠ 3 || x.part = 2) && x.len % 16 = 0 && (x.part ≠ 2 || 64 ≤ x.len)
  | 3 => true
  | _ => false
/-- The verdict of R465 on an image in the order of Table 23.7: 0 it verifies, 5 SIG, 6 KEY, 7 LOADCHK. A partition but the custom
one takes the vendor root alone (Table 12.1). -/
def Dev.imgVerdict (d : Dev) (e : Entry) (x : Img) : Nat :=
  let idx := d.flashN x.dev (x.off + 7) 1
  let key := d.keyHash idx
  let whole : Bool := d.flashN x.dev x.off 4 = 0x4345424F && d.flashN x.dev (x.off + 4) 2 = 1 && e.len = 256 + x.len + 96
    && e.off % 4096 = 0 && e.off + e.len ≤ d.flashSize x.dev
  let revoked : Bool := bit d.otpRev idx
  let allowed : Bool := x.kind ≠ 2 || x.part = 2 || idx = 0
  let named : Bool := match key with
    | some k => Config.sha384 (d.flashBytes x.dev (x.off + 0x40) 97) = k
    | none => false
  if !whole then 5
  else if key.isNone || revoked || !allowed then 6
  else if !named || !Config.verifies (key.getD 0) (d.flashBig x.dev (x.off + 256 + x.len) 96) (d.imgBytes x) then 5
  else if x.kind ≠ e.kind || !d.imgShape x then 7
  else 0

/-! ### The configuration (R464, Table 23.4) -/

/-- The configuration image of a slot. -/
def Dev.cfgImg (d : Dev) (dev : Nat) : Img := d.img dev (d.entry dev 0)
/-- `n` bytes of a slot's configuration payload. -/
def Dev.cfgN (d : Dev) (dev off n : Nat) : Nat := d.payload (d.cfgImg dev) off n
/-- NWRITE. -/
def Dev.cfgWrites (d : Dev) (dev : Nat) : Nat := d.cfgN dev 0x00C 4 % 2 ^ 13
/-- A register write of the configuration: address and value. -/
def Dev.cfgWrite (d : Dev) (dev j : Nat) : Nat × Nat := (d.cfgN dev (0x50 + 16 * j) 5, d.cfgN dev (0x50 + 16 * j + 8) 4)
/-- The region a write of the configuration goes to, where Table 23.4 allows its address. -/
def writeRegion (a : Nat) : Option Nat :=
  if 0x1000000000 ≤ a ∧ a < 0x1003000000 then some ((a - 0x1000000000) / 0x1000000)
  else if 0x1100000000 ≤ a ∧ a < 0x1102000000 then some ((a - 0x1100000000) / 0x1000000)
  else if 0x1102000000 ≤ a ∧ a < 0x1104000000 then some 2
  else none
/-- Is the payload's own check word correct? -/
def Dev.cfgChecked (d : Dev) (dev : Nat) : Bool :=
  let x := d.cfgImg dev
  let n := 0x50 + 16 * d.cfgWrites dev
  x.len = n + 4 && d.cfgN dev n 4 = crc32 (d.flashBytes dev (x.off + 256) n)
/-- Does the configuration pass R464? -/
def Dev.cfgValid (d : Dev) (dev : Nat) : Bool :=
  let w := d.cfgN dev 0 4
  let sw := d.cfgN dev 8 4
  w % 4 ≤ 1 && w / 2 ^ 8 % 256 ≠ 0 && !(bit w 16 && bit w 17)
    && (sw % 16 + 1) * 2 ^ 32 ≤ d.strapSize .A && (sw / 2 ^ 8 % 16 + 1) * 2 ^ 32 ≤ d.strapSize .B
    && d.cfgWrites dev ≤ 4096
    && (List.range (d.cfgWrites dev)).all (fun j => (writeRegion (d.cfgWrite dev j).1).isSome)

/-! ### Selection (R462) -/

/-- The verdict on a slot before a load: 0 eligible, else a code of Table 23.7. -/
def Dev.slotVerdict (d : Dev) (dev : Nat) : Nat :=
  let v := d.imgVerdict (d.entry dev 0) (d.cfgImg dev)
  if d.flashSize dev = 0 then 8
  else if !d.headerOk dev then 2
  else if (d.entry dev 0).kind ≠ 3 then 7
  else if v ≠ 0 then v
  else if !d.cfgChecked dev then 3
  else if !d.cfgValid dev then 4
  else 0
/-- The eligible slots in the order they are tried. -/
def Dev.slots2 (d : Dev) : List Nat :=
  (if d.slotSeq 0 < d.slotSeq 1 then [1, 0] else [0, 1]).filter (fun s => d.slotVerdict s = 0)
/-- The images of a slot that a load of a region verifies: those that target it, and those of no known kind. -/
def Dev.slotImgs (d : Dev) (dev rg : Nat) : List (Entry × Img) :=
  ((List.range (d.flashN dev 0x100C 4)).map (fun i => (d.entry dev i, d.img dev (d.entry dev i)))).filter
    (fun e => if e.1.kind = 1 ∨ e.1.kind = 2 then e.2.hits rg else e.1.kind ≠ 3)

/-! ### Load checks (R316, R320, Table 12.5) -/

/-- Where a control-flow path stands: word, micro-stack, whether something visible has changed. -/
structure MNode where
  pc : Nat
  stk : List Nat
  dirty : Bool
deriving DecidableEq, Repr
/-- A partition as it would be loaded: first word, size, limit of Table 12.1, custom or not, its words. -/
structure Part where
  lo : Nat
  size : Nat
  limit : Nat
  custom : Bool
  words : List Nat
deriving DecidableEq, Repr
def Part.word (p : Part) (a : Nat) : Nat := p.words.getD (a - p.lo) 0
def Part.has (p : Part) (a : Nat) : Bool := p.lo ≤ a && a < p.lo + p.size
/-- Is SAFE set in a microword, and does it end its routine? -/
def safeWord (w : Nat) : Bool := bit w 22
def endWord (w : Nat) : Bool := mfield w 3 0 = 5
/-- The next addresses of a word with their stacks (R317): every BR goes either way; a RET on an empty stack and a fifth CALL lead
nowhere. -/
def Part.next (p : Part) (x : MNode) : List (Nat × List Nat) :=
  let w := p.word x.pc
  let tgt := mfield w 15 4
  match mfield w 3 0 with
  | 0 => [(x.pc + 1, x.stk)]
  | 1 => [(tgt, x.stk)]
  | 2 => [(x.pc + 1, x.stk), (tgt, x.stk)]
  | 3 => if x.stk.length < 4 then [(tgt, (x.pc + 1) :: x.stk)] else []
  | 4 => (match x.stk with
    | a :: s => [(a, s)]
    | [] => [])
  | _ => []
/-- Is a register code visible (Table 12.4)? -/
def visible (c : Nat) : Bool := c = 0x10 || c = 0x11 || (0x16 ≤ c && c ≤ 0x18)
/-- Does a word change something visible (UCS_RESTART)? -/
def changes (w : Nat) : Bool :=
  visible (mfield w 42 38) || mfield w 46 43 ≠ 0 || mfield w 48 47 = 2 || (bit w 54 && visible (mfield w 53 49))
/-- The nodes after one. -/
def Part.after (p : Part) (x : MNode) : List MNode :=
  (p.next x).map (fun n => ⟨n.1, n.2, x.dirty || changes (p.word x.pc)⟩)
/-- Every node that a worklist reaches inside the partition. -/
def Part.reach (p : Part) : Nat → List MNode → List MNode → List MNode
  | 0, seen, _ => seen
  | _ + 1, seen, [] => seen
  | f + 1, seen, x :: work =>
    if seen.contains x || !p.has x.pc then p.reach f seen work else p.reach f (x :: seen) (p.after x ++ work)
/-- Every node a routine reaches from an entry. -/
def Part.nodes (p : Part) (entry : Nat) : List MNode := p.reach (2 ^ 64) [] [⟨entry, [], false⟩]
/-- Does some path from these nodes hold more than `n` words before a safe point or END, both counted? -/
def Part.long (p : Part) : Nat → List MNode → Bool
  | 0, xs => xs ≠ []
  | n + 1, xs =>
    let go := xs.filter (fun x => p.has x.pc && !safeWord (p.word x.pc) && !endWord (p.word x.pc))
    p.long n ((go.flatMap p.after).map (fun x => { x with dirty := false })).eraseDups

/-- Is a reserved field or code in a word (R316)? Sorzamet's partitions use PORT and conditions 16–31. -/
def rsvWord (custom : Bool) (w : Nat) : Bool :=
  let sq := mfield w 3 0
  let res (c : Nat) : Bool := 0x1A ≤ c && c ≤ 0x1E
  6 ≤ sq || ((sq = 0 || sq = 4 || sq = 5) && mfield w 15 4 ≠ 0) || (7 ≤ mfield w 20 16 && mfield w 20 16 < 16) || (custom && 16 ≤ mfield w 20 16)
    || bit w 23 || 11 ≤ mfield w 27 24 || res (mfield w 32 28) || res (mfield w 37 33) || res (mfield w 42 38) || res (mfield w 53 49)
    || mfield w 48 47 = 3 || bit w 55 || mfield w 80 72 ≠ 0 || (custom && mfield w 111 81 ≠ 0) || mfield w 127 112 ≠ 0
/-- Does a word name its MINC target as DST (R317)? -/
def conflictWord (w : Nat) : Bool := bit w 54 && mfield w 42 38 = mfield w 53 49
/-- The register codes a word reads: both sources and MADR, whatever it does with them (R317 step 1). -/
def readsOf (w : Nat) : List Nat := [mfield w 32 28, mfield w 37 33, mfield w 53 49]
/-- Does a word read what its form does not give (UCS_FORM)? -/
def formWord (form w : Nat) : Bool :=
  (readsOf w).any (fun c => match form with
    | 0 => c = 0x14 || c = 0x13
    | 1 => c = 0x11 || c = 0x13
    | _ => c = 0x10 || c = 0x11)
/-- The failures of one routine from an entry, as code and word. `dec` is its decode entry, none in Sorzamet's partitions. -/
def Part.routine (p : Part) (entry : Nat) (dec : Option Nat) : List (Nat × Nat) :=
  if !p.has entry then [(0xB1, entry)]
  else
    let ns := p.nodes entry
    let fails (code : Nat) (f : MNode → Bool) : List (Nat × Nat) := (ns.filter f).map (fun x => (code, x.pc))
    fails 0xB1 (fun x => (p.next x).any (fun n => !p.has n.1))
      ++ fails 0xB3 (fun x => (x.pc = entry && x.stk = [] && p.long p.limit [x])
          || (safeWord (p.word x.pc) && !endWord (p.word x.pc) && p.long p.limit (p.after x)))
      ++ fails 0xB7 (fun x => (mfield (p.word x.pc) 3 0 = 3 && x.stk.length = 4) || (mfield (p.word x.pc) 3 0 = 4 && x.stk = []))
      ++ (match dec with
        | none => []
        | some e =>
          (if bit e 14 then [] else fails 0xB4 (fun x => safeWord (p.word x.pc) && (x.dirty || changes (p.word x.pc))))
            ++ fails 0xB5 (fun x => formWord (e / 2 ^ 12 % 4) (p.word x.pc)))
/-- The failures of a partition with its decode entries (`entries` stands for them in Sorzamet's partitions). -/
def Part.failures (p : Part) (decs : List Nat) (entries : List Nat) : List (Nat × Nat) :=
  let each (code : Nat) (f : Nat → Bool) : List (Nat × Nat) :=
    (List.range p.words.length).filterMap (fun i => if f (p.words.getD i 0) then some (code, p.lo + i) else none)
  (if p.size < p.words.length then [(0xB1, p.lo + p.size)] else [])
    ++ each 0xB1 (fun w => 1 ≤ mfield w 3 0 && mfield w 3 0 ≤ 3 && !p.has (mfield w 15 4))
    ++ each 0xB2 (rsvWord p.custom) ++ each 0xB8 conflictWord
    ++ (decs.filter (fun e => bit e 15 && e / 2 ^ 12 % 4 = 3)).map (fun e => (0xB6, e % 4096))
    ++ (decs.filter (fun e => bit e 15)).flatMap (fun e => p.routine (e % 4096) (some e))
    ++ entries.flatMap (fun a => p.routine a none)
/-- The result of the load checks: the lowest code, and the first word that fails it. -/
def loadResult (fs : List (Nat × Nat)) : Option (Nat × Nat) :=
  fs.foldl (fun b x => match b with
    | none => some x
    | some y => if x.1 < y.1 ∨ (x.1 = y.1 ∧ x.2 < y.2) then some x else some y) none

/-- The partition that an image loads in a region (Table 12.1). -/
def Dev.partOf (d : Dev) (x : Img) (rg : Nat) : Part :=
  let n := if x.part = 2 then (x.len - 64) / 16 else x.len / 16
  let ws := (List.range n).map (fun i => d.payload x (16 * i) 16)
  if rg = 2 then ⟨0, 0x800, 64, true, ws⟩
  else match x.part with
    | 0 => ⟨0, 0x800, 8, false, ws⟩
    | 1 => ⟨0x800, 0x400, 64, false, ws⟩
    | _ => ⟨0xC00, 0x400, 64, true, ws⟩
/-- The decode entries of an image, in UCS_DECk format. -/
def Dev.decsOf (d : Dev) (x : Img) : List Nat :=
  if x.part = 2 then (List.range 16).map (fun k => d.payload x (x.len - 64 + 4 * k) 4 % 65536) else []

end Sys2Proof.Machine
end

