-- ==== Sys2Proof/Machine/KAlu.lean ====
section
/-!
DEFINITION. The Kuxon instructions that compute on registers: arithmetic, logic and compare (R297), multiply and divide
(R298), shifts (R300), bit, byte and CRC steps (R301, R302). Each command is the issue of that unit by a core at its PC.
-/
namespace Sys2Proof.Machine

open Sys2Proof

/-! ### Arithmetic, logic and compare (R297) -/

def execAdd (r : Fin 3) (c : Fin 20) (rd rs : Fin 16) : State → Answer :=
  onUnit r c [encR 0x1 rd rs 0] (fun k => k.put rd (Alu.add (k.reg rd) (k.reg rs) 0))
def execAdc (r : Fin 3) (c : Fin 20) (rd rs : Fin 16) : State → Answer :=
  onUnit r c [encR 0x1 rd rs 1] (fun k => k.put rd (Alu.add (k.reg rd) (k.reg rs) (b2n (k.st 2))))
def execSub (r : Fin 3) (c : Fin 20) (rd rs : Fin 16) : State → Answer :=
  onUnit r c [encR 0x1 rd rs 2] (fun k => k.put rd (Alu.sub (k.reg rd) (k.reg rs) 0))
def execSbc (r : Fin 3) (c : Fin 20) (rd rs : Fin 16) : State → Answer :=
  onUnit r c [encR 0x1 rd rs 3] (fun k => k.put rd (Alu.sub (k.reg rd) (k.reg rs) (b2n (k.st 2))))
def execAnd (r : Fin 3) (c : Fin 20) (rd rs : Fin 16) : State → Answer :=
  onUnit r c [encR 0x2 rd rs 0] (fun k => k.put rd (Alu.logic (k.reg rd &&& k.reg rs)))
def execOr (r : Fin 3) (c : Fin 20) (rd rs : Fin 16) : State → Answer :=
  onUnit r c [encR 0x2 rd rs 1] (fun k => k.put rd (Alu.logic (k.reg rd ||| k.reg rs)))
def execXor (r : Fin 3) (c : Fin 20) (rd rs : Fin 16) : State → Answer :=
  onUnit r c [encR 0x2 rd rs 2] (fun k => k.put rd (Alu.logic (k.reg rd ^^^ k.reg rs)))
def execMov (r : Fin 3) (c : Fin 20) (rd rs : Fin 16) : State → Answer :=
  onUnit r c [encR 0x2 rd rs 3] (fun k => k.put rd { res := some (k.reg rs) })
def execCmp (r : Fin 3) (c : Fin 20) (rd rs : Fin 16) : State → Answer :=
  onUnit r c [encR 0x3 rd rs 0] (fun k => k.put rd (Alu.sub (k.reg rd) (k.reg rs) 0).test)
def execTst (r : Fin 3) (c : Fin 20) (rd rs : Fin 16) : State → Answer :=
  onUnit r c [encR 0x3 rd rs 1] (fun k => k.put rd (Alu.logic (k.reg rd &&& k.reg rs)).test)
def execAddi (r : Fin 3) (c : Fin 20) (rd : Fin 16) (lim : Option (BitVec 14)) (imm : BitVec 6) : State → Answer :=
  onUnit r c (unitOf lim (encI 0x7 rd imm.toNat)) (fun k => k.put rd (Alu.add (k.reg rd) (immVal lim imm) 0))
def execMovi (r : Fin 3) (c : Fin 20) (rd : Fin 16) (lim : Option (BitVec 14)) (imm : BitVec 6) : State → Answer :=
  onUnit r c (unitOf lim (encI 0x8 rd imm.toNat)) (fun k => k.put rd { res := some (immVal lim imm) })
def execCmpi (r : Fin 3) (c : Fin 20) (rd : Fin 16) (lim : Option (BitVec 14)) (imm : BitVec 6) : State → Answer :=
  onUnit r c (unitOf lim (encI 0x9 rd imm.toNat)) (fun k => k.put rd (Alu.sub (k.reg rd) (immVal lim imm) 0).test)
def execNeg (r : Fin 3) (c : Fin 20) (rd : Fin 16) : State → Answer :=
  onUnit r c [encI 0x0 rd 0x02] (fun k => k.put rd (Alu.sub 0 (k.reg rd) 0))
def execNot (r : Fin 3) (c : Fin 20) (rd : Fin 16) : State → Answer :=
  onUnit r c [encI 0x0 rd 0x03] (fun k => k.put rd (Alu.logic (k.reg rd ^^^ 0xFFFF)))

/-! ### Multiply and divide (R298) -/

def execMul (r : Fin 3) (c : Fin 20) (rd rs : Fin 16) : State → Answer :=
  onUnit r c [encR 0x3 rd rs 2] (fun k => k.put rd (Alu.mul false (k.reg rd) (k.reg rs)))
def execMulhu (r : Fin 3) (c : Fin 20) (rd rs : Fin 16) : State → Answer :=
  onUnit r c [encR 0x3 rd rs 3] (fun k => k.put rd (Alu.mul true (k.reg rd) (k.reg rs)))
/-- A division: with DZTRAP = 1 a division by zero sets DZ and takes the DZ exception with nothing else changed. -/
def divUnit (signed rem : Bool) (r c rd rs : Nat) (s : State) : Dev :=
  let k := s.dev.kx r c
  let q := Alu.div signed rem (k.reg rd) (k.reg rs)
  let k1 := if q.2 then k.setSt 4 true else k
  if q.2 && k.st 10 then s.dev.kexc r c k1 2 else s.dev.kdone r c ((k1.put rd q.1).next 1)
def execDivu (r : Fin 3) (c : Fin 20) (rd rs : Fin 16) : State → Answer :=
  onUnitDev r c [encR 0x4 rd rs 0] (divUnit false false r c rd rs)
def execDivs (r : Fin 3) (c : Fin 20) (rd rs : Fin 16) : State → Answer :=
  onUnitDev r c [encR 0x4 rd rs 1] (divUnit true false r c rd rs)
def execRemu (r : Fin 3) (c : Fin 20) (rd rs : Fin 16) : State → Answer :=
  onUnitDev r c [encR 0x4 rd rs 2] (divUnit false true r c rd rs)
def execRems (r : Fin 3) (c : Fin 20) (rd rs : Fin 16) : State → Answer :=
  onUnitDev r c [encR 0x4 rd rs 3] (divUnit true true r c rd rs)

/-! ### Shifts and rotates (R300) -/

def execShl (r : Fin 3) (c : Fin 20) (rd rs : Fin 16) : State → Answer :=
  onUnit r c [encR 0x5 rd rs 0] (fun k => k.put rd (Alu.shift .shl (k.reg rd) (k.reg rs % 32)))
def execShr (r : Fin 3) (c : Fin 20) (rd rs : Fin 16) : State → Answer :=
  onUnit r c [encR 0x5 rd rs 1] (fun k => k.put rd (Alu.shift .shr (k.reg rd) (k.reg rs % 32)))
def execSar (r : Fin 3) (c : Fin 20) (rd rs : Fin 16) : State → Answer :=
  onUnit r c [encR 0x5 rd rs 2] (fun k => k.put rd (Alu.shift .sar (k.reg rd) (k.reg rs % 32)))
def execRor (r : Fin 3) (c : Fin 20) (rd rs : Fin 16) : State → Answer :=
  onUnit r c [encR 0x5 rd rs 3] (fun k => k.put rd (Alu.shift .ror (k.reg rd) (k.reg rs % 32)))
def execShli (r : Fin 3) (c : Fin 20) (rd n : Fin 16) : State → Answer :=
  onUnit r c [encI 0x6 rd n] (fun k => k.put rd (Alu.shift .shl (k.reg rd) n))
def execShri (r : Fin 3) (c : Fin 20) (rd n : Fin 16) : State → Answer :=
  onUnit r c [encI 0x6 rd (0x10 + n.val)] (fun k => k.put rd (Alu.shift .shr (k.reg rd) n))
def execSari (r : Fin 3) (c : Fin 20) (rd n : Fin 16) : State → Answer :=
  onUnit r c [encI 0x6 rd (0x20 + n.val)] (fun k => k.put rd (Alu.shift .sar (k.reg rd) n))
def execRori (r : Fin 3) (c : Fin 20) (rd n : Fin 16) : State → Answer :=
  onUnit r c [encI 0x6 rd (0x30 + n.val)] (fun k => k.put rd (Alu.shift .ror (k.reg rd) n))

/-! ### Bit, byte and CRC steps (R301, R302) -/

def execPar (r : Fin 3) (c : Fin 20) (rd : Fin 16) : State → Answer :=
  onUnit r c [encI 0x0 rd 0x04] (fun k => k.put rd { c := some (parity (k.reg rd)) })
def execBrev (r : Fin 3) (c : Fin 20) (rd : Fin 16) : State → Answer :=
  onUnit r c [encI 0x0 rd 0x05] (fun k => k.put rd (Alu.logic (bitRev 16 (k.reg rd))))
/-- BREVN: `n` is the sub-op field, one less than the number of bits reversed. -/
def execBrevn (r : Fin 3) (c : Fin 20) (rd n : Fin 16) : State → Answer :=
  onUnit r c [encI 0x0 rd (0x30 + n.val)] (fun k => k.put rd (Alu.logic (bitRev (n.val + 1) (k.reg rd))))
def execSwpb (r : Fin 3) (c : Fin 20) (rd : Fin 16) : State → Answer :=
  onUnit r c [encI 0x0 rd 0x06] (fun k => k.put rd (Alu.logic (k.reg rd % 256 * 256 + k.reg rd / 256)))
def execSxb (r : Fin 3) (c : Fin 20) (rd : Fin 16) : State → Answer :=
  onUnit r c [encI 0x0 rd 0x07] (fun k => k.put rd (Alu.logic (usgn 16 (sgn 8 (k.reg rd)))))
/-- The CRC step of R302 over a word: KCRC and Z. -/
def Kux.crc (k : Kux) (w : Nat) : Kux :=
  let w32 := bit (k.cw 0x1A) 0
  let a := crcStep w32 (bit (k.cw 0x1A) 1) (k.cw 0x1C + k.cw 0x1D * 2 ^ 16) (k.cw 0x18 + k.cw 0x19 * 2 ^ 16) w
  let k1 := k.setCw 0x1C (a % 2 ^ 16)
  (if w32 then k1.setCw 0x1D (a / 2 ^ 16) else k1).setSt 0 (a = 0)
def execCrc (r : Fin 3) (c : Fin 20) (rd : Fin 16) : State → Answer :=
  onUnit r c [encI 0x0 rd 0x08] (fun k => k.crc (k.reg rd))

end Sys2Proof.Machine
end

