-- ==== Sys2Proof/Machine/KMem.lean ====
section
/-!
DEFINITION. The Kuxon instructions that reach data memory: loads and stores (R303) over the data map (R276–R279) with the
holding word, the latch and the replay register (R277, R296), strings and REP (R308, R309), and the responses of far banks.
-/
namespace Sys2Proof.Machine

open Sys2Proof

/-! ### One access -/

/-- The access of a core (R276). -/
def State.kacc (s : State) (r : Fin 3) (c : Fin 20) : Acc := { m := .core r c, dom := s.dev.domainOf s.ref (.core r c) }
/-- The name of a register for the latch: its page and offset, and the context of a context view. -/
def pairKey (page off : Nat) (ctx : Option Nat) : Nat := ctx.elim 0 (fun c => c + 1) * 2 ^ 32 + page * 4096 + off
/-- What a read brings back: its word, or none where memory is uncorrectable; the latch and the devices after it. -/
structure KRead where
  word : Option Nat
  latch : Option (Nat × Nat)
  dev : Dev
deriving DecidableEq, Repr

/-- A load of half a register under a latch (R277): the low word latches the high word; a high word takes what its low word latched, else
the register's present bits. -/
def kpair (s : State) (r : Fin 3) (c : Fin 20) (latch : Option (Nat × Nat)) (page off : Nat) (hi : Bool) (ctx : Option Nat) : KRead :=
  let key := pairKey page off ctx
  let g := regRead s { s.kacc r c with ctx := ctx } page off
  if hi then
    (match latch with
     | some (key1, v) => if key1 = key then ⟨some v, none, s.dev⟩ else ⟨some (g.1.toNat / 2 ^ 16), latch, g.2⟩
     | none => ⟨some (g.1.toNat / 2 ^ 16), none, g.2⟩)
  else ⟨some (g.1.toNat % 2 ^ 16), some (key, g.1.toNat / 2 ^ 16), g.2⟩
/-- The bus read of a load that leads to `t`, under a latch. -/
def kbusRead (s : State) (r : Fin 3) (c : Fin 20) (latch : Option (Nat × Nat)) (t : KTarget) : KRead :=
  let word (sys : Nat) : KRead :=
    let g := busRead s (s.kacc r c) sys 2
    ⟨if g.ue then none else some (leNat g.bytes), latch, g.dev⟩
  match t with
  | .ram sys => word sys
  | .mem sys => word sys
  | .reg page off hi ctx => kpair s r c latch page off hi ctx
  | .far page off hi => kpair s r c latch page off hi none
  | .ctl w => let g := s.dev.ctlRead r c w; ⟨some g.1, latch, g.2⟩
  | .none => ⟨some 0, latch, s.dev⟩
/-- A core's latch is set. -/
def Dev.setLatch (d : Dev) (r c : Nat) (l : Option (Nat × Nat)) : Dev :=
  let k := d.kx r c
  if k.pair.latch = l then d else d.setKx r c { k with pair := { k.pair with latch := l } }
/-- Does an address lead through a far bank? -/
def KTarget.isFar : KTarget → Bool
  | .far _ _ _ => true
  | .mem _ => true
  | _ => false

/-- What a load finds: a word, a response to wait for, posted writes to wait for (KFSYNC), an exception. -/
inductive KGot where
  | value (v : Nat) (d : Dev)
  | wait (t : KTarget) (d : Dev)
  | sync (d : Dev)
  | exc (cause : Nat) (d : Dev)
/-- The read of a load that waits for no response. -/
def KRead.got (g : KRead) (r c : Nat) : KGot :=
  match g.word with
  | some v => .value v (g.dev.setLatch r c g.latch)
  | none => .exc 4 g.dev
/-- A load from a word address (R276–R279). An abandoned read of the same address is not made again (R296). `slow`: the
register window has not answered in this step; `str`: a string access, which reads 0 from the control space (R308). -/
def kload (s : State) (r : Fin 3) (c : Fin 20) (a : Nat) (slow str : Bool) : KGot :=
  let d := s.dev
  let k := d.kx r c
  let d0 := d.setKx r c { k with pair := { k.pair with replay := .empty } }
  let t := d.ktarget r c a
  let now : KGot := (kbusRead s r c k.pair.latch t).got r c
  let fresh : KGot :=
    match t with
    | .far _ _ _ => .wait t d
    | .mem _ => .wait t d
    | .ctl w => if str then .value 0 d else if w = 0x36 then .sync d else now
    | .reg _ _ _ _ => if slow then .wait t d else now
    | _ => now
  match k.pair.replay with
  | .ready b v l => if b = a then .value v (d0.setLatch r c l) else fresh
  | .failed b => if b = a then .exc 3 d0 else fresh
  | .awaited b t => if b = a then .wait t d0 else fresh
  | .empty => fresh

/-- A store of the low or the high half of a register (R277): the holding word, or the 32-bit write. -/
def kpairStore (s : State) (r : Fin 3) (c : Fin 20) (page off : Nat) (hi : Bool) (ctx : Option Nat) (v : Nat) : Dev :=
  let k := s.dev.kx r c
  if hi then regWrite s { s.kacc r c with ctx := ctx } page off (BitVec.ofNat 32 (k.pair.hold + v * 2 ^ 16))
  else s.dev.setKx r c { k with pair := { k.pair with hold := v } }
/-- A far write leaves the core: one more posted write (R279). -/
def Dev.kposted (d : Dev) (r c : Nat) : Dev := d.setKx r c { d.kx r c with posted := (d.kx r c).posted + 1 }
/-- A store to a word address. -/
def kstore (s : State) (r : Fin 3) (c : Fin 20) (a v : Nat) (str : Bool) : List MemOp × Dev :=
  match s.dev.ktarget r c a with
  | .ram sys => busWrite s (s.kacc r c) sys (toBytes v 2)
  | .mem sys => let w := busWrite s (s.kacc r c) sys (toBytes v 2); (w.1, w.2.kposted r c)
  | .reg page off hi ctx => ([], kpairStore s r c page off hi ctx v)
  | .far page off hi => let d := kpairStore s r c page off hi none v; ([], if hi then d.kposted r c else d)
  | .ctl w => ([], if str then s.dev else s.dev.ctlWrite r c w v)
  | .none => ([], s.dev)

/-! ### Loads and stores (R303) -/

/-- A load is complete: the word is in `rd`; LDP counts its pointer up, unless it is `rd` itself. -/
def Kux.loaded (k : Kux) (rd v len : Nat) (inc : Option Nat) : Kux :=
  let k1 := { k with wait := .none }.setReg rd v
  (match inc with
   | some i => k1.setReg i (k1.reg i + 1)
   | none => k1).next len
/-- A KFSYNC load is complete (R279): the timed-out writes are returned, and raise FARERR at the next instruction. -/
def Dev.ksynced (d : Dev) (r c rd len : Nat) (inc : Option Nat) : Dev :=
  let k := d.kx r c
  let k1 := { k with posted := 0, touts := 0 }.loaded rd k.touts len inc
  if k.touts = 0 then d.kdone r c k1 else d.kexc r c k1 3
/-- LD and LDP of `len` words. -/
def ldUnit (r : Fin 3) (c : Fin 20) (rd a len : Nat) (inc : Option Nat) (slow : Bool) (s : State) : Dev :=
  match kload s r c a slow false with
  | .value v d => d.kdone r c ((d.kx r c).loaded rd v len inc)
  | .wait t d => d.ksleep r c (.load rd a len inc t)
  | .sync d => if (d.kx r c).posted = 0 then d.ksynced r c rd len inc else d.ksleep r c (.sync rd len inc)
  | .exc cause d => d.kexc r c (d.kx r c) cause
/-- The address of a load or store (R303). -/
def Dev.kaddr (d : Dev) (r c rs : Nat) (lim : Option (BitVec 14)) : Nat := ((d.kx r c).reg rs + dispOf lim) % 65536
/-- LD. `slow`: the register window has not answered yet (R296). -/
def execLd (r : Fin 3) (c : Fin 20) (rd rs : Fin 16) (lim : Option (BitVec 14)) (slow : Bool) : State → Answer :=
  let ws := unitOf lim (encR 0xA rd rs 0)
  onUnitDev r c ws (fun s => ldUnit r c rd (s.dev.kaddr r c rs lim) ws.length none slow s)
/-- LDP: as LD, then the pointer counts up. -/
def execLdp (r : Fin 3) (c : Fin 20) (rd rs : Fin 16) (lim : Option (BitVec 14)) (slow : Bool) : State → Answer :=
  let ws := unitOf lim (encR 0xA rd rs 2)
  onUnitDev r c ws (fun s => ldUnit r c rd (s.dev.kaddr r c rs lim) ws.length (if rd = rs then none else some rs) slow s)
/-- ST and STP of `len` words: the store, then the pointer counts up where `inc` says so. -/
def stUnit (r : Fin 3) (c : Fin 20) (rd rs len : Nat) (lim : Option (BitVec 14)) (inc : Bool) (s : State) : List MemOp × Dev :=
  let w := kstore s r c (s.dev.kaddr r c rs lim) ((s.dev.kx r c).reg rd) false
  let k := w.2.kx r c
  (w.1, w.2.kdone r c ((if inc then k.setReg rs (k.reg rs + 1) else k).next len))
def execSt (r : Fin 3) (c : Fin 20) (rd rs : Fin 16) (lim : Option (BitVec 14)) : State → Answer :=
  let ws := unitOf lim (encR 0xA rd rs 1)
  onMem (issueMem r c ws (stUnit r c rd rs ws.length lim false))
def execStp (r : Fin 3) (c : Fin 20) (rd rs : Fin 16) (lim : Option (BitVec 14)) : State → Answer :=
  let ws := unitOf lim (encR 0xA rd rs 3)
  onMem (issueMem r c ws (stUnit r c rd rs ws.length lim true))

/-! ### Strings and REP (R308, R309) -/

/-- How an iteration ends: complete, with the stop condition of Table 11.12; waiting for the response from an address; an
exception. -/
inductive StrEnd where
  | ok (stop : Bool) (ops : List MemOp) (d : Dev)
  | wait (a : Nat) (t : KTarget) (d : Dev)
  | exc (cause : Nat) (d : Dev)
/-- What is done with the word a string reads. -/
def StrEnd.ofLoad (a : Nat) (g : KGot) (f : Nat → Dev → StrEnd) : StrEnd :=
  match g with
  | .value v d => f v d
  | .wait t d => .wait a t d
  | .sync d => f 0 d
  | .exc cause d => .exc cause d
/-- The pointers of an iteration count up (R308). -/
def Kux.strNext (k : Kux) (src dst : Bool) : Kux :=
  let k1 := if src then k.setReg 12 (k.reg 12 + 1) else k
  let k2 := if dst then k1.setReg 13 (k1.reg 13 + 1) else k1
  { k2 with pair := { k2.pair with first := none } }
/-- An iteration that raises an exception starts again from its first operand. -/
def Kux.strDrop (k : Kux) : Kux := { k with wait := .none, pair := { k.pair with first := none } }
/-- One iteration of the string instruction `w` (Table 11.12). -/
def strIter (s : State) (r : Fin 3) (c : Fin 20) (w : Nat) (slow : Bool) : StrEnd :=
  let k := s.dev.kx r c
  let src := k.reg 12
  let dst := k.reg 13
  let rdv := k.reg (w / 64 % 16)
  let fin (stop : Bool) (ops : List MemOp) (d : Dev) (f : Kux → Kux) (sr ds : Bool) : StrEnd :=
    .ok stop ops (d.setKx r c ((f (d.kx r c)).strNext sr ds))
  match w % 64 with
  | 0x14 => StrEnd.ofLoad src (kload s r c src slow true) (fun v d =>
      let y := kstore { s with dev := d } r c dst v true
      fin false y.1 y.2 id true true)
  | 0x15 => let y := kstore s r c dst rdv true; fin false y.1 y.2 id false true
  | 0x16 =>
    let one : KGot := match k.pair.first with
      | some (a, v) => if a = src then .value v s.dev else kload s r c src slow true
      | none => kload s r c src slow true
    StrEnd.ofLoad src one (fun v d =>
      match kload { s with dev := d } r c dst slow true with
      | .value v2 d2 => let q := Alu.sub v v2 0; fin (q.z = some false) [] d2 (fun x => x.put 0 q.test) true true
      | .wait t d2 => .wait dst t (d2.setKx r c { d2.kx r c with pair := { (d2.kx r c).pair with first := some (src, v) } })
      | .sync d2 => fin false [] d2 id true true
      | .exc cause d2 => .exc cause d2)
  | 0x17 => StrEnd.ofLoad src (kload s r c src slow true) (fun v d =>
      let q := Alu.sub v rdv 0
      fin (q.z = some true) [] d (fun x => x.put 0 q.test) true false)
  | _ => StrEnd.ofLoad src (kload s r c src slow true) (fun v d => fin false [] d (fun x => x.crc v) true false)
/-- A string instruction without REP: one iteration. -/
def strOne (r : Fin 3) (c : Fin 20) (w : Nat) (slow : Bool) (s : State) : List MemOp × Dev :=
  match strIter s r c w slow with
  | .ok _ ops d => (ops, d.kdone r c ((d.kx r c).next 1))
  | .wait a t d => ([], d.ksleep r c (.str w false a t))
  | .exc cause d => ([], d.kexc r c (d.kx r c).strDrop cause)
/-- REP over the string word `w`: up to `n` iterations; an interrupt that is due is taken between iterations with the PC at the
REP, and progress stands in the registers (R309). -/
def strRep (r : Fin 3) (c : Fin 20) (w : Nat) (slow : Bool) (s : State) : Nat → List MemOp → Mem → Dev → List MemOp × Dev
  | n, ops, m, d =>
    let k := d.kx r c
    if k.reg 14 = 0 then (ops, d.kdone r c (k.next 2))
    else match n with
    | 0 => (ops, d.kdone r c k)
    | n + 1 =>
      match d.kdue r c with
      | some i => (ops, d.ktake r c i)
      | none =>
        match strIter { s with mem := m, dev := d } r c w slow with
        | .wait a t d1 => (ops, d1.ksleep r c (.str w true a t))
        | .exc cause d1 => (ops, d1.kexc r c (d1.kx r c).strDrop cause)
        | .ok stop o d1 =>
          let k1 := (d1.kx r c).setReg 14 ((d1.kx r c).reg 14 + 65535)
          if stop then (ops ++ o, d1.kdone r c (k1.next 2))
          else strRep r c w slow s n (ops ++ o) (m.applyAll o) (d1.setKx r c k1)
/-- A string command: one unit of the word `w`. -/
def onStr (r : Fin 3) (c : Fin 20) (w : Nat) (slow : Bool) : State → Answer := onMem (issueMem r c [w] (strOne r c w slow))
def execMovs (r : Fin 3) (c : Fin 20) (slow : Bool) : State → Answer := onStr r c (encI 0x0 0 0x14) slow
def execFills (r : Fin 3) (c : Fin 20) (rd : Fin 16) : State → Answer := onStr r c (encI 0x0 rd 0x15) false
def execCmps (r : Fin 3) (c : Fin 20) (slow : Bool) : State → Answer := onStr r c (encI 0x0 0 0x16) slow
def execScans (r : Fin 3) (c : Fin 20) (rd : Fin 16) (slow : Bool) : State → Answer := onStr r c (encI 0x0 rd 0x17) slow
def execCrcs (r : Fin 3) (c : Fin 20) (slow : Bool) : State → Answer := onStr r c (encI 0x0 0 0x18) slow
/-- REP: the next word is checked before any iteration (R309). `upTo` is how many iterations run in this step, one under STEP;
the command again goes on from there. -/
def execRep (r : Fin 3) (c : Fin 20) (upTo : Nat) (slow : Bool) : State → Answer :=
  onMem (issueMem r c [encI 0x0 0 0x10] (fun s =>
    let k := s.dev.kx r c
    let w := s.dev.pm r c (k.pc + 1)
    if s.dev.pmUe r c 1 then ([], s.pmemUe r c 1)
    else if !repWord w then ([], s.dev.kexc r c k 1)
    else strRep r c w slow s (if k.stepping then min upTo 1 else upTo) [] s.mem s.dev))

/-! ### Responses (R279, R296) -/

/-- A replay register takes the response of an abandoned read: its word with the latch its load leaves, or a failure. -/
def Replay.answer (v : Option Nat) (l : Option (Nat × Nat)) : Replay → Replay
  | .awaited a _ => (match v with | some x => .ready a x l | none => .failed a)
  | x => x
/-- The response of an abandoned read reaches the replay register, or the one saved at entry. The read goes where it led when its load was given
up, under the latch that stood then; its load leaves the new latch when it executes again. -/
def kreplay (s : State) (r : Fin 3) (c : Fin 20) (saved : Bool) : Dev :=
  let k := s.dev.kx r c
  let p := if saved then k.saved else k.pair
  match p.replay with
  | .awaited _ t =>
    let g := kbusRead s r c p.latch t
    let k1 := g.dev.kx r c
    g.dev.setKx r c (if saved then { k1 with saved := { k1.saved with replay := k1.saved.replay.answer g.word g.latch } }
      else { k1 with pair := { k1.pair with replay := k1.pair.replay.answer g.word g.latch } })
  | _ => s.dev
/-- FAR_READ_RESPONSE (R279): the word reaches the load that waits, the string iteration that waits, or a replay register; an
uncorrectable word of memory raises FARERR (Table 13.4). -/
def execFarReadResponse (r : Fin 3) (c : Fin 20) (saved : Bool) : State → Answer :=
  onMem (fun s =>
    if !s.coreOn r c then ([], s.dev)
    else if saved then ([], kreplay s r c true)
    else match (s.dev.kx r c).wait with
    | .load rd _ len inc t =>
      let g := kbusRead s r c (s.dev.kx r c).pair.latch t
      ([], match g.word with
        | some v => let d := g.dev.setLatch r c g.latch; d.kdone r c ((d.kx r c).loaded rd v len inc)
        | none => g.dev.kexc r c { g.dev.kx r c with wait := .none } 3)
    | .str w rep a t =>
      let g := kbusRead s r c (s.dev.kx r c).pair.latch t
      (match g.word with
        | some v =>
          let k := g.dev.kx r c
          let d1 := (g.dev.setKx r c { k with wait := .none, pair := { k.pair with replay := .ready a v g.latch } }).p (kxcL r c) KXC_STAT.STATE ksRun
          if rep then strRep r c w false s 1 [] s.mem d1 else strOne r c w false { s with dev := d1 }
        | none => ([], g.dev.kexc r c (g.dev.kx r c).strDrop 3))
    | _ => ([], kreplay s r c false))
/-- FARERR (R279): 64 µs pass without the response of a far read, whose load takes the exception, now or when it executes
again; or of a posted write, which is counted for KFSYNC. -/
def execFarerr (r : Fin 3) (c : Fin 20) (write saved : Bool) : State → Answer :=
  onDev (fun s =>
    let d := s.dev
    let k := d.kx r c
    if !s.coreOn r c then d
    else if write then (if k.posted = 0 then d else d.setKx r c { k with posted := k.posted - 1, touts := k.touts + 1 })
    else if saved then d.setKx r c { k with saved := { k.saved with replay := k.saved.replay.answer none none } }
    else match k.wait with
    | .load _ _ _ _ t => if t.isFar then d.kexc r c { k with wait := .none } 3 else d
    | .str _ _ _ t => if t.isFar then d.kexc r c k.strDrop 3 else d
    | _ => d.setKx r c { k with pair := { k.pair with replay := k.pair.replay.answer none none } })
/-- FAR_SYNC (R279): every posted write has its response, so the KFSYNC load that waits completes. -/
def execFarSync (r : Fin 3) (c : Fin 20) : State → Answer :=
  onDev (fun s => if !s.coreOn r c then s.dev else
    match (s.dev.kx r c).wait with
    | .sync rd len inc => s.dev.ksynced r c rd len inc
    | _ => s.dev)

end Sys2Proof.Machine
end

