-- ==== Sys2Proof/Machine/Load.lean ====
section
/-!
DEFINITION. Resetting, filling, releasing and loading regions (R314, R320, R324–R333, R462–R467, R476–R480): what a reset leaves of a
region, training, the load of a region from a slot, the referee's fields of the configuration, the factory defaults.
-/
namespace Sys2Proof.Machine

open Sys2Proof

/-- The referee, and the stores, memory and devices that its sequencer changes. -/
abbrev Boot := Referee × Burst
/-- Change the devices. -/
def Boot.dev (x : Boot) (f : Dev → Dev) : Boot := (x.1, { x.2 with dev := f x.2.dev })
/-- Change the referee. -/
def Boot.ref (x : Boot) (f : Referee → Referee) : Boot := (f x.1, x.2)
/-- Change both. -/
def Boot.rd (x : Boot) (f : RD → RD) : Boot := let y := f (x.1, x.2.dev); (y.1, { x.2 with dev := y.2 })
/-- Change memory. -/
def Boot.memOps (x : Boot) (ops : List MemOp) : Boot := (x.1, { x.2 with ops := x.2.ops ++ ops, mem := x.2.mem.applyAll ops })
/-- A command of the referee's sequencer that also changes memory. -/
def onBoot (f : Boot → Boot) : State → Answer := onRef (fun s => let x := f (s.ref, s.run); (x.1, x.2.ops, x.2.dev))

/-! ### What a reset leaves (R476, R479) -/

/-- The words of the service pages that a reset of the region leaves (Table 24.3): PWR_STAT, PWR_VMON, PWR_TEMP and PWR_LASTRST, CFG_USE
and CFG_DEFAULTED, the levels of the pad banks' supplies. -/
def keptWord (k : Nat) : Bool :=
  let off := k % 0x1000
  k / 0x1000 = pwrL / 0x1000 && (off = PWR_STAT.WARN.off || (0x804 ≤ off && off < 0x820) || off = PWR_LASTRST.A.off)
    || k / 0x1000 = cfgL / 0x1000 && (off = 0x800 || off = CFG_USE.SVC.off)
    || k / 0x1000 = sLoc .gpx / 0x1000 && off = GPX_BSTAT.DET18.off
/-- Is a register word of a region left by its reset? BROWNOUT_SEEN is (Table 24.3). -/
def wordStays (k : Nat) : Bool := (k % 0x1000 = 0x008 && k % 0x100000 < 0x1000) || keptWord k
/-- The events of a region's pages and what stands behind their registers, at reset; `dram` says that the DRAM is filled too. -/
def Dev.wipe (d : Dev) (rg : Nat) (dram : Bool) : Dev :=
  let hit (k : Nat) : Bool := k / 0x100000 / 4096 = rg && !wordStays k
  let page (p : Nat) : Bool := p / 4096 = rg
  let d1 : Dev := { d with
    regs := SMap.erase hit d.regs
    shadow := SMap.erase hit d.shadow
    views := SMap.erase (fun k => page (k / 256)) d.views
    csels := SMap.erase (fun k => page (k / 256)) d.csels
    mawIdx := SMap.erase (fun k => page (k / 256)) d.mawIdx
    staging := SMap.erase (fun k => page (k / 2048)) d.staging
    latched := SMap.erase (fun k => page (k / 256 / 0x100000)) d.latched
    eccLog := SMap.erase (fun k => page (k / 8)) d.eccLog
    buckets := SMap.erase page d.buckets
    leaks := SMap.erase page d.leaks
    caBad := d.caBad.filter (fun w => w / 2 ^ 32 ≠ rg)
    ceWords := d.ceWords.filter (fun w => !page w.1)
    ueWords := d.ueWords.filter (fun w => !page w.1)
    ueLines := d.ueLines.filter (fun w =>
      let a := 8 * w
      if a < 2 ^ 36 then !(dram && a / 2 ^ 35 = rg) else if a < 0x1102000000 then (a - 0x1100000000) / 0x1000000 ≠ rg else rg ≠ 2)
    evcTab := SMap.erase (fun k => k / 512 = rg) d.evcTab
    inService := SMap.erase (fun k => k / 64 = rg) d.inService
    lastMsg := SMap.erase (fun k => k / 64 = rg) d.lastMsg
    kip := SMap.erase (fun k => k / 32 = rg) d.kip
    kux := SMap.erase (fun k => k / 32 = rg) d.kux
    pmem := SMap.erase (fun k => k / 16384 / 32 = rg) d.pmem
    ucs := SMap.erase (fun k => k / 4096 = rg) d.ucs
    mboxes := d.mboxes.filter (fun w => w.region ≠ rg && w.toRegion ≠ rg)
    timers := SMap.erase (fun k => k / 16 = rg) d.timers
    dmas := SMap.erase (fun k => k / 16 = rg) d.dmas }
  let half (h : Half) : Dev :=
    let n := h.n
    let d2 : Dev := { d1 with
      beams := SMap.erase (fun k => k / 4 = n) d1.beams
      snaps := SMap.erase (fun k => k / 4 = n) d1.snaps
      bhist := SMap.erase (fun k => k / 4 = n) d1.bhist
      preds := SMap.erase (fun k => k = n) d1.preds
      engines := SMap.erase (fun k => k / 8 = n) d1.engines
      ctxs := SMap.erase (fun k => k / 256 = n) d1.ctxs
      motifs := SMap.erase (fun k => k / 32768 = n) d1.motifs
      slots := SMap.erase (fun k => k / 512 = n) d1.slots
      openRel := SMap.erase (fun k => k / 16 = n) d1.openRel
      harness := SMap.erase (fun k => k = n) d1.harness
      chans := SMap.erase (fun k => k / 65536 = n) d1.chans
      seals := SMap.erase (fun k => k = n) d1.seals
      ports := SMap.erase (fun k => k / 64 = n) d1.ports
      pipes := SMap.erase (fun k => k / 2 = n) d1.pipes
      cxps := SMap.erase (fun k => k / 2 = n) d1.cxps
      ptab := SMap.erase (fun k => k / 2 ^ 20 = n) d1.ptab
      nvhs := SMap.erase (fun k => k = n) d1.nvhs }
    (match h with
     | .A => { d2 with tickA := 8, xqA := [], xlA := [], pagesA := [], scansA := [], esrcA := [] }
     | .B => { d2 with tickB := 8, xqB := [], xlB := [], pagesB := [], scansB := [], esrcB := [] })
  let d3 : Dev :=
    if rg = 0 then half .A else if rg = 1 then half .B
    else { d1.p pwrL PWR_STAT.DIM 0 with
      prisms := [], heads := [], preLut := [], postLut := [], aud := {}, flash := d1.flashCut, flOp := none, otpOp := none, atNonce := 0, blt := none, asks := [] }
  (pagesOf rg).foldl (fun y p => y.withLines p (fun z => z)) d3
/-- The fill of a region's on-chip memories and, for a half, of its DRAM (R332). -/
def fillOps (rg : Nat) (dram : Bool) : List MemOp :=
  if rg < 2 then .fill (0x1100000000 + rg * 0x1000000) 0x1000000 :: (if dram then [.fill (rg * 2 ^ 35) (2 ^ 35)] else [])
  else [.fill 0x1102000000 0x1880000]
/-- A region is reset and its memories are filled. -/
def Boot.wipe (x : Boot) (rg : Nat) (dram : Bool) : Boot := (x.dev (fun d => d.wipe rg dram)).memOps (fillOps rg dram)

/-! ### Training and release (R324, R325, R333, R480) -/

/-- Each channel of a half takes its geometry from the strap block and is trained; a failed channel is ABSENT. `fill` begins the DRAM fill. -/
def Dev.trainHalf (d : Dev) (h : Half) (tr : Train) (fill : Bool) : Dev :=
  let g := (d.strapGeom h).getD (0, 0)
  (List.range 2).foldl (fun y k =>
    let l := hLoc h .mec k
    let ok := geomOk g && tr.of h k = 0
    ((((((y.p l MEC_GEOM.DENSITY g.1).p l MEC_GEOM.RANKS2 g.2).p l MEC_GEOM.ABSENT (b2n !ok)).p l MEC_STAT.TRAINED (b2n ok)).p l
      MEC_STAT.TFAIL (if geomOk g then tr.of h k else 0)).p l MEC_STAT.FILLING (b2n (fill && ok))).p l MEC_STAT.SELFREF 0) d
/-- Are both channels of a half present and no longer filled? -/
def Dev.dramReady (d : Dev) (h : Half) : Bool :=
  [0, 1].all (fun k => !d.on (hLoc h .mec k) MEC_GEOM.ABSENT && !d.on (hLoc h .mec k) MEC_STAT.FILLING)
/-- Set a half's INIT complete flag, supply flag, half standby. -/
def Referee.setInit (r : Referee) (h : Half) (b : Bool) : Referee :=
  match h with | .A => { r with initA := b } | .B => { r with initB := b }
def Referee.init (r : Referee) : Half → Bool
  | .A => r.initA
  | .B => r.initB
def Referee.sup (r : Referee) : Half → Bool
  | .A => r.supA
  | .B => r.supB
def Referee.setSup (r : Referee) (rg : Nat) (b : Bool) : Referee :=
  if rg = 0 then { r with supA := b } else if rg = 1 then { r with supB := b } else { r with supS := b }
def Referee.setSby (r : Referee) (h : Half) (b : Bool) : Referee :=
  match h with | .A => { r with sbyA := b } | .B => { r with sbyB := b }
/-- Does a half's time base count: the half has supply and its PLL runs? -/
def Referee.counts (r : Referee) (h : Half) : Bool := r.hs h ≠ .off && !r.sby h
/-- The time base a released half takes (R480): its peer's, or the referee's record of its own with the ticks elapsed. -/
def Boot.releaseTb (x : Boot) (h : Half) (elapsed : Nat) : Nat :=
  if x.1.counts h.peer then x.2.dev.tb h.peer else (match h with | .A => x.1.recA | .B => x.1.recB) + elapsed
/-- A half is released into INIT: time base, training, DRAM fill. -/
def Boot.releaseHalf (x : Boot) (h : Half) (tb : Nat) (tr : Train) (fill : Bool) : Boot :=
  let y := x.dev (fun d => (d.setTb h tb).trainHalf h tr fill)
  y.ref (fun r => (r.setHs h .init).setInit h false)

/-! ### Loading a region (R314, R320, R464, R465, R467) -/

/-- The CFG_USE field and the number of the measurement of a region (R471). -/
def useField (rg : Nat) : Fld := if rg = 0 then CFG_USE.HA else if rg = 1 then CFG_USE.HB else CFG_USE.SVC
def measNo (rg : Nat) : Nat := if rg = 2 then 1 else rg + 2
/-- An image joins a measurement (R471). -/
def Dev.measure (d : Dev) (i : Nat) (x : Img) : Dev :=
  { d with meas := SMap.set (fun _ => 0) d.meas i (Config.sha384 (bigBytes (d.measOf i) 48 ++ bigBytes (Config.sha384 (d.imgBytes x)) 48)) }
/-- A KIND 1 image is loaded into the cores of its mask (R465). -/
def Dev.loadProgram (d : Dev) (rg : Nat) (x : Img) : Dev :=
  { d with pmem := (List.range 20).foldl (fun m c =>
      if bit x.mask c then (List.range (x.len / 2)).foldl (fun m i => SMap.set (fun _ => 0) m ((rg * 32 + c) * 16384 + i) (d.payload x (2 * i) 2)) m else m) d.pmem }
/-- A KIND 2 image is loaded into its partition, with the decode table (R321). -/
def Dev.loadPart (d : Dev) (rg : Nat) (x : Img) : Dev :=
  let p := d.partOf x rg
  let d1 := { d with ucs := (List.range p.size).foldl (fun m i => SMap.set (fun _ => 0) m (rg * 4096 + p.lo + i) (p.words.getD i 0)) d.ucs }
  (((d.decsOf x).zipIdx.foldl (fun y e => y.wr (ucsL rg) (UCS_DEC.ENTRY.ix e.2).off (BitVec.ofNat 32 e.1)) d1).p (ucsL rg) UCS_LDSTAT.RESULT 0).p (ucsL rg) UCS_LDSTAT.ADDR 0
/-- A refused control-store image (R320). -/
def Dev.loadReject (d : Dev) (rg code addr : Nat) : Dev :=
  ((d.p (ucsL rg) UCS_LDSTAT.RESULT code).p (ucsL rg) UCS_LDSTAT.ADDR addr).raise (ucsL rg) 1
/-- One image of a load: its verdict (0 loaded), the devices. -/
def Dev.loadImg (d : Dev) (rg : Nat) (e : Entry × Img) : Nat × Dev :=
  let x := e.2
  let v := d.imgVerdict e.1 x
  if v ≠ 0 then (v, if e.1.kind = 2 ∧ (v = 5 ∨ v = 6) then d.loadReject rg 0xB0 0 else d)
  else if x.kind = 1 then (0, (d.loadProgram rg x).measure (measNo rg) x)
  else
    match loadResult ((d.partOf x rg).failures (d.decsOf x) (if x.part = 2 then [] else Config.ucsEntries x.part)) with
    | some f => (7, d.loadReject rg f.1 f.2)
    | none => (0, ((d.loadPart rg x).measure (measNo rg) x).raise (ucsL rg) 0)
/-- Every image of a slot that targets a region, in slot order, up to the first that fails. -/
def Dev.loadImgs (d : Dev) (rg : Nat) : List (Entry × Img) → Nat × Dev
  | [] => (0, d)
  | e :: es =>
    let r := d.loadImg rg e
    if r.1 ≠ 0 then r else r.2.loadImgs rg es
/-- CAUSE of a slot. -/
def causeField (slot : Nat) : Fld := if slot = 0 then CFG_BOOTST.CAUSE0 else CFG_BOOTST.CAUSE1
/-- The slots in the order they are tried: the devices after the load, and the slot that loaded whole. What a failed slot left is gone,
but for the result that its UCS page shows. -/
def Dev.tryLoad (d : Dev) (rg : Nat) : List Nat → Option Nat × Dev
  | [] => (none, d)
  | slot :: rest =>
    let base := { d with meas := SMap.set (fun _ => 0) d.meas (measNo rg) 0 }
    let r := base.loadImgs rg (base.slotImgs slot rg)
    if r.1 = 0 then (some slot, rest.foldl (fun y s => y.p cfgL (causeField s) 1) (r.2.p cfgL (causeField slot) 0))
    else
      let back := (List.range 16).foldl (fun y k => y.wr (ucsL rg) (UCS_DEC.ENTRY.ix k).off (d.rd (ucsL rg) (UCS_DEC.ENTRY.ix k).off)) r.2
      ({ back with pmem := d.pmem, ucs := d.ucs, meas := base.meas }.p cfgL (causeField slot) r.1).tryLoad rg rest
/-- Selection for one region (R462): the verdict on each slot is recorded, and the eligible ones are tried. -/
def Dev.loadRegion (d : Dev) (rg : Nat) : Option Nat × Dev :=
  let d1 := [0, 1].foldl (fun y s => y.p cfgL (causeField s) (y.slotVerdict s)) d
  let r := d1.tryLoad rg d1.slots2
  (r.1, r.2.p cfgL (useField rg) (r.1.getD 3))
/-- The domain of a configuration write: that of the page's owner, or the region's (R464). -/
def writeDom (a : Nat) : Nat :=
  if isPage a then (match pageRowOf ((a - pagesLo) / 4096) with
    | some (row, _) => row.ownerIn ((a - pagesLo) / 4096 / 4096)
    | none => 3)
  else if a < 0x1102000000 then (a - 0x1100000000) / 0x1000000 + 1 else 3
/-- The writes of a slot's configuration to one region, in order (R464). A half's ports stay DOWN in INIT. -/
def Boot.applyWrites (x : Boot) (slot rg : Nat) : Boot :=
  let s : State := { pending := [], ref := x.1, mem := x.2.mem, dev := x.2.dev }
  let ws := ((List.range (x.2.dev.cfgWrites slot)).map (fun j => x.2.dev.cfgWrite slot j)).filter (fun w => writeRegion w.1 = some rg)
  (x.1, ws.foldl (fun y w => y.write s { m := .core 2 0, dom := writeDom w.1 } w.1 (toBytes w.2 4)) x.2)
/-- A region is loaded from a slot and takes its configuration writes; answers the slot. -/
def Boot.load (x : Boot) (rg : Nat) : Option Nat × Boot :=
  if !x.2.dev.svcUp then (none, x)
  else
    let r := x.2.dev.loadRegion rg
    let y := x.dev (fun _ => r.2)
    match r.1 with
    | some slot => (some slot, y.applyWrites slot rg)
    | none => (none, y)

/-- The referee takes its fields of a slot's configuration (Table 23.4), at power-on and at a chip warm reset (R464, R212). -/
def Boot.takeConfig (x : Boot) (slot : Nat) (powerOn : Bool) : Boot :=
  let d := x.2.dev
  let w := d.cfgN slot 0 4
  let sw := d.cfgN slot 8 4
  let fl := d.cfgN slot 4 4
  let y := x.ref (fun r => { r with
    defaults := false
    split := w % 4 = 1
    prefer := if bit w 2 then .B else .A
    autorejoin := bit w 3
    svcHost := if bit w 4 then .B else .A
    rjRows := w / 2 ^ 8 % 256
    d4 := if bit w 16 then some .A else if bit w 17 then some .B else none
    d5mask := w / 2 ^ 18 % 4
    epfloor := fl
    epoch := if powerOn then fl else r.epoch
    swA := sw % 16
    swB := sw / 2 ^ 8 % 16
    rjlist := (List.range 16).map (fun i => d.cfgN slot (0x10 + 4 * i) 4) })
  (y.dev (fun d => { d.p cfgL CFG_DEFAULTED.SET 0 with meas := SMap.set (fun _ => 0) d.meas 0 0 })).dev (fun d => d.measure 0 (d.cfgImg slot))
/-- The factory defaults (R463). -/
def Boot.takeDefaults (x : Boot) : Boot :=
  (x.ref (fun r => { r with defaults := true })).dev (fun d => (d.p cfgL CFG_DEFAULTED.SET 1).raise cfgL 2)
/-- The boot ROM draws the status screen into frame SRAM. -/
def Boot.statusScreen (x : Boot) : Boot :=
  x.memOps ((Config.statusScreen (x.2.dev.rd cfgL CFG_BOOTST.STRAPDEV.off).toNat).filterMap (fun e =>
    if e.1 < 0x1000000 then some (.store (0x1102000000 + e.1) e.2) else none))

/-! ### Cores and the boot sequence (Table 23.6) -/

/-- A core that was held in RESET starts at word 0. -/
def Dev.startCore (d : Dev) (rg c : Nat) : Dev := (d.setKx rg c { wdogFrom := d.tbR rg }).p (kxcL rg c) KXC_STAT.STATE ksRun
/-- The cores of a half start, and its enabled ports begin training (Table 23.6 step 9, R178). -/
def Dev.startHalf (d : Dev) (h : Half) : Dev :=
  let d1 := (List.range 20).foldl (fun y c => y.startCore h.n c) d
  (List.range 64).foldl (fun y p => if y.pst h p = psDown ∧ y.on (rlkL h p) RLK_CFG.EN then y.enterTraining h p else y) d1
/-- Step 10: sc0 starts its own program, sc1–sc7 theirs; the service region has loaded. -/
def Dev.startSvc (d : Dev) : Dev :=
  if d.svcLoading then { (List.range 8).foldl (fun y c => y.startCore 2 c) d with svcLoading := false } else d
/-- PWR_LASTRST of a region (Table 24.5). -/
def Dev.lastRst (d : Dev) (rg v : Nat) : Dev :=
  d.p pwrL (if rg = 0 then PWR_LASTRST.A else if rg = 1 then PWR_LASTRST.B else PWR_LASTRST.S) v
/-- Steps 3 and 4 for the CFG page: the strap copy used, SEQ of each slot. -/
def Dev.readSlots (d : Dev) (strap : Bool) : Dev :=
  let d1 := if !strap then d
    else match d.strapDev with
      | some k => (d.p cfgL CFG_BOOTST.STRAPDEV k).p cfgL CFG_BOOTST.STRAPBAD 0
      | none => (d.p cfgL CFG_BOOTST.STRAPDEV 0).p cfgL CFG_BOOTST.STRAPBAD 1
  (d1.p cfgL CFG_SEQ0.SEQ (if d.headerOk 0 then d.slotSeq 0 else 0)).p cfgL CFG_SEQ1.SEQ (if d.headerOk 1 then d.slotSeq 1 else 0)
/-- Steps 3 to 7: the service region is released and filled, the halves with supply are released at `tb`, every region is loaded from a
slot, or the part takes the factory defaults. -/
def Boot.boot (x : Boot) (tb : Nat) (tr : Train) : Boot :=
  let x1 := (x.dev (fun d => { d with svcUp := true, svcLoading := true }.readSlots true)).ref (fun r => { r with powerOn := true, cold := false })
  let x2 := [Half.A, Half.B].foldl (fun y h => if y.1.sup h then y.releaseHalf h tb tr true else y) x1
  let sv := x2.load 2
  let x3 := sv.2.statusScreen
  let halves := [Half.A, Half.B].filter (fun h => x3.1.sup h)
  let ld := halves.foldl (fun (y : Bool × Boot) h => let z := y.2.load h.n; (y.1 && z.1.isSome, z.2))
    (true, match sv.1 with | some slot => x3.takeConfig slot x.1.cold | none => x3)
  if sv.1.isSome && ld.1 then ld.2 else ld.2.takeDefaults

end Sys2Proof.Machine
end

