-- ==== Sys2Proof/Machine/Power.lean ====
section
/-!
DEFINITION. Supplies, resets and low-power states (chapter 24), the way out of INIT (R211), rejoining (R220, R221, R227), the end of a
fence (R213, R477), the requests of PWR_REQ (R485), temperatures (R483) and the loss of a PLL's lock (R208).
-/
namespace Sys2Proof.Machine

open Sys2Proof

/-! ### Out of INIT (R211, R212) -/

/-- No epoch is left at the end of INIT (R212): both halves enter QUARANTINE and production stops. -/
def RD.endEpoch (x : RD) : RD :=
  let v := x.vote ⟨x.1.inCharge, 0x10, 0, 0, false, false⟩
  (((v.2.quarantine .A).quarantine .B).stop true true).finish v.1 none 5 3 0
/-- A half's cores and enabled ports start. -/
def RD.start (x : RD) (h : Half) : RD := (x.1, x.2.startHalf h)
/-- Step 10 of Table 23.6 follows the first half that leaves INIT. -/
def RD.started (x : RD) : RD := ({ x.1 with powerOn := false }, x.2.startSvc)
/-- Has a half completed INIT? -/
def Referee.ready (r : Referee) (h : Half) : Bool := r.hs h = .init && r.init h
/-- A half with INIT complete leaves it in split operation (R211, R227). -/
def RD.intoSplit (x : RD) (h : Half) : RD :=
  if !x.1.ready h then x
  else if x.1.noEpoch then (if x.1.powerOn then x.endEpoch else x.rejoinFail h)
  else
    let y := (RD.splitEnter x h).start h
    RD.started ({ y.1 with rjHalf := if y.1.rjHalf = some h then none else y.1.rjHalf }, y.2)
/-- A half with INIT complete leaves it after a half reset in paired operation: into COPY of a rejoin while its peer is in CHARGE. -/
def RD.intoRejoin (x : RD) (h : Half) : RD :=
  if !x.1.ready h then x
  else if x.1.hs h.peer ≠ .charge then (if x.1.rjHalf = some h then x.rejoinFail h else x.quarantine h)
  else if x.1.act ≠ .idle then x
  else
    let d := (List.range 64).foldl (fun y p => if y.pst h p = psDown ∧ y.on (rlkL h p) RLK_CFG.EN then y.enterTraining h p else y) x.2
    ({ x.1.setHs h .rejoining with rjHalf := some h, rjPhase := 1, rjCtxs := [], rjEqual := [] }, d)
/-- HALF_INIT_COMPLETE (R211): the referee moves the halves that have completed INIT; never in the factory defaults (R463). -/
def RD.leaveInit (x : RD) : RD :=
  if x.1.defaults then x
  else if x.1.split then (x.intoSplit .A).intoSplit .B
  else if x.1.powerOn then
    (if !(x.1.ready .A && x.1.ready .B) then x
     else if x.1.noEpoch then x.endEpoch
     else (((RD.charge x x.1.prefer).standby x.1.prefer.peer).start .A |>.start .B).started)
  else (x.intoRejoin .A).intoRejoin .B
def execHalfInitComplete : State → Answer := onRef (fun s => let x := RD.leaveInit (s.ref, s.dev); (x.1, [], x.2))

/-- INIT_TIMEOUT (R211): half `h` has not completed INIT within 5 s of its release. -/
def RD.initTimeout (x : RD) (h : Half) : RD :=
  let p := h.peer
  if x.1.defaults || x.1.ready h then x
  else if !x.1.split && x.1.powerOn then
    (if !x.1.ready p || !(x.1.hs h = .init || x.1.hs h = .off) then x
     else if x.1.noEpoch then x.endEpoch
     else (((RD.charge x p).quarantine h).start p).started)
  else if x.1.hs h ≠ .init then x
  else if x.1.rjHalf = some h then x.rejoinFail h
  else x.quarantine h
def execInitTimeout (h : Half) : State → Answer := onRef (fun s => let x := RD.initTimeout (s.ref, s.dev) h; (x.1, [], x.2))
/-- MEMORY_FILL_DONE (R332, Table 23.6 step 8): the DRAM fill of a half ends, and its INIT is complete. -/
def RD.fillDone (x : RD) (h : Half) : RD :=
  let d := [0, 1].foldl (fun y k => y.p (hLoc h .mec k) MEC_STAT.FILLING 0) x.2
  if x.1.hs h = .off then x else (if x.1.hs h = .init ∧ d.dramReady h then x.1.setInit h true else x.1, d)
def execMemoryFillDone (h : Half) : State → Answer := onRef (fun s => let x := RD.fillDone (s.ref, s.dev) h; (x.1, [], x.2))

/-! ### Rejoining (R220, R221, R224, R227, R231) -/

/-- Would the configuration that a rejoin loads change what R224 lists? -/
def RD.cfgChange (x : RD) (h : Half) : Bool :=
  let d := x.2
  let l := hLoc h .mec
  match d.slots2 with
  | [] => false
  | slot :: _ =>
    let sw := d.cfgN slot 8 4
    decide (d.cfgN slot 0 4 % 4 ≠ b2n x.1.split) || sw % 16 ≠ x.1.swA || sw / 2 ^ 8 % 16 ≠ x.1.swB
      || d.strapGeom h ≠ some (d.g l MEC_GEOM.DENSITY, d.g l MEC_GEOM.RANKS2)
/-- The refusal of a REJOIN (Table 08.10), 0 where it is accepted. -/
def RD.rejoinCode (x : RD) (h : Half) : Nat :=
  if x.1.hs h ≠ .quarantine || x.1.sby h || (!x.1.split && x.1.hs h.peer ≠ .charge) then 0x80
  else if x.1.busy then 0x81
  else if x.cfgChange h then 0x82
  else 0
/-- The endpoint of a half that is reset loses its link: its mailbox session ends (R435). -/
def Boot.dropSession (x : Boot) (h : Half) : Boot := x.ref (fun r => r.closeSess h)
/-- Load a half that was reset while the part ran: a load that fails ends in REJOIN_FAIL (R467); in the factory defaults nothing is loaded. -/
def Boot.loadHalf (x : Boot) (h : Half) : Boot :=
  if x.1.defaults then x
  else
    let r := x.load h.n
    let y := r.2.ref (fun z => z.setInit h (r.1.isSome && r.2.2.dev.dramReady h))
    if r.1.isSome then y else if x.1.powerOn then y.takeDefaults else y.rd (fun z => z.rejoinFail h)
/-- Step 1 of R221: the half is reset with its DRAM kept, released and loaded. -/
def Boot.rejoin (x : Boot) (h : Half) (elapsed : Nat) (tr : Train) : Boot :=
  let tb := x.releaseTb h elapsed
  let y := ((((x.dropSession h).wipe h.n false).dev (fun d => d.lastRst h.n 3)).ref (fun r => { r with rjHalf := some h, rjPhase := 0, rjCtxs := [], rjEqual := [] })).releaseHalf h tb tr false
  y.loadHalf h
/-- REJOIN (Table 08.9). `elapsed` and `tr` are the ticks since the referee's record and how training ends. -/
def execRejoin (ep : Half) (still : Bool) (tag : BitVec 8) (h : Half) (elapsed : Nat) (tr : Train) : State → Answer :=
  onRef (fun s =>
    let go : Bool := !still && s.ref.session = some ep && RD.rejoinCode (s.ref, s.dev) h = 0
    let x := RD.request (s.ref, s.dev) ep still tag.toNat (fun y => (y.rejoinCode h, y))
    if go then
      (let y := Boot.rejoin (x.1, { s.run with dev := x.2 }) h elapsed tr
       (y.1, y.2.ops, y.2.dev))
    else (x.1, [], x.2))
/-- AUTOREJOIN_TIMEOUT (R220). -/
def execAutorejoinTimeout (h : Half) (elapsed : Nat) (tr : Train) : State → Answer :=
  onBoot (fun x => if x.1.autorejoin && RD.rejoinCode (x.1, x.2.dev) h = 0 then x.rejoin h elapsed tr else x)

/-- The ranges that COPY copies: first address in the peer, first address in `x`, length (R221 step 2). -/
def Referee.copyRanges (r : Referee) (x : Half) : List (Nat × Nat × Nat) :=
  r.rjlist.map (fun e => (x.peer.n * 2 ^ 35 + e % 65536 * 2 ^ 20, x.n * 2 ^ 35 + e % 65536 * 2 ^ 20, e / 65536 % 65536 * 2 ^ 20))
    ++ [(r.swBase x.peer, r.swBase x, 2 ^ 32)]
/-- The stores that copy one range. -/
def copyOps (m : Mem) (e : Nat × Nat × Nat) : List MemOp :=
  .fill e.2.1 e.2.2 :: (m.filter (fun c => e.1 ≤ c.1 && c.1 < e.1 + e.2.2)).map (fun c => .store (e.2.1 + (c.1 - e.1)) c.2)
/-- The uncorrectable words of the devices after COPY: none in what it wrote. -/
def Dev.copied (d : Dev) (rs : List (Nat × Nat × Nat)) : Dev :=
  { d with ueLines := d.ueLines.filter (fun w => !rs.any (fun e => e.2.1 ≤ 8 * w && 8 * w < e.2.1 + e.2.2)) }
/-- The copy engine has copied every range: STATE begins (R221 steps 2 and 3). An uncorrectable word in a range ends the rejoin. -/
def Boot.copyDone (x : Boot) (h : Half) : Boot :=
  let rs := x.1.copyRanges h
  let d := x.2.dev
  match d.ueLines.find? (fun w => rs.any (fun e => e.1 ≤ 8 * w && 8 * w < e.1 + e.2.2)) with
  | some w => (x.dev (fun y => y.eccUe x.1.walker (eccPageOf (8 * w)).1 (eccPageOf (8 * w)).2 (eccWordOf (8 * w)) false)).rd (fun y => y.rejoinFail h)
  | none =>
    let y := (x.memOps (rs.flatMap (copyOps x.2.mem))).dev (fun z => ((z.copied rs).copyHalf h).startHalf h)
    let ld := y.2.dev.dropLoading y.1 h
    let z := (y.memOps ld.1).dev (fun _ => ld.2)
    let all := List.range 256
    let idle := all.filter (fun k => z.2.dev.cst h.peer (k / 32) (k % 32) == .idle)
    (z.ref (fun r => { r with rjPhase := 2, rjCtxs := all })).rd (fun q => q.transfer idle)
/-- REJOIN_COPY_DONE (R221). -/
def execRejoinCopyDone : State → Answer :=
  onBoot (fun x => match x.1.rjHalf with
    | some h => if x.1.hs h = .rejoining ∧ x.1.rjPhase = 1 then x.copyDone h else x
    | none => x)
/-- ROW_RECORD_WRITE (R129): the record, H and RECS; at this step 7 a context that waits for it is transferred (R221 step 4). -/
def execRowRecordWrite (h : Half) (e : Fin 8) (c : Fin 32) : State → Answer :=
  onRef (fun s =>
    if s.ref.live h && s.dev.clocked (rowL h e) then
      (match s.dev.recordWrite s.ref h e c with
       | none => (s.ref, [], s.dev)
       | some w =>
         let x : RD := (s.ref, w.2)
         let y := if s.ref.rjHalf = some h.peer then x.transfer ((32 * e.val + c.val) :: x.idleWaiting) else x
         (y.1, w.1, y.2))
    else (s.ref, [], s.dev))

/-! ### The end of a fence (R213, R477) -/

/-- Steps 3 and 4 of R477: both halves and the service region are reset, and Table 23.6 runs from step 2. -/
def Boot.warmReset (x : Boot) (elapsed : Nat) (tr : Train) : Boot :=
  let tb := max x.1.recA x.1.recB + elapsed
  let up (h : Half) (r : Referee) : Referee := if r.hs h = .off then r else r.setHs h .off
  let y := ((x.wipe 0 true).wipe 1 true).wipe 2 false
  let z := y.ref (fun r => { (up .A (up .B r)) with
    act := .idle, rjHalf := none, rjPhase := 0, rjCtxs := [], rjEqual := [], session := none, initA := false, initB := false, sbyA := false, sbyB := false,
    fenceA := false, fenceB := false, reissueA := false, reissueB := false, powerOn := true })
  let q := z.dev (fun d => [0, 1, 2].foldl (fun d rg => d.lastRst rg 2) ({ d with svcUp := false, svcLoading := false }.p pwrL PWR_STAT.HSTBY 0))
  if q.1.supS then q.boot tb tr else q
/-- FENCE_CONFIRM (R213 step 2): every port has confirmed; the change of charge or the chip warm reset goes on. -/
def execFenceConfirm (elapsed : Nat) (tr : Train) : State → Answer :=
  onBoot (fun x => match x.1.act with
    | .warm => if x.2.dev.allConfirmed .A && x.2.dev.allConfirmed .B then x.warmReset elapsed tr else x
    | _ => x.rd RD.changeCharge)

/-! ### Supplies (R473–R475, R484) -/

/-- What a power-on reset of the referee leaves: flash, OTP, the world at the pins, and the model's own fields. -/
def Dev.cold (d : Dev) : Dev :=
  { flash := d.flashCut, flashLen := d.flashLen, otp := d.otp, otpRev := d.otpRev, pads := d.pads, bankOff := d.bankOff, freeCount := d.freeCount, readData := d.readData, msix := d.msix, outs := d.outs }
/-- The whole part in power-on reset. -/
def Boot.cold (x : Boot) : Boot :=
  let y : Boot := ({}, { x.2 with dev := x.2.dev.cold })
  y.memOps (fillOps 0 true ++ fillOps 1 true ++ fillOps 2 false)
/-- REFEREE_POWER_ON (R476): the whole part is reset; with its supply up, the service region is released and the part boots. `up` says
which of the supplies of Half A, Half B and the service region meet the recovery condition. -/
def execRefereePowerOn (up : BitVec 3) (tr : Train) : State → Answer :=
  onBoot (fun x =>
    let y := x.cold.ref (fun r => { r with supA := bit up.toNat 0, supB := bit up.toNat 1, supS := bit up.toNat 2 })
    if y.1.supS then y.boot 0 tr else y)

/-- The warning level of a region's supply in millivolts (Table 24.1). -/
def Dev.warnLevel (d : Dev) (rg : Nat) : Nat :=
  740 + 5 * d.g pwrL (if rg = 0 then PWR_WARN.WA else if rg = 1 then PWR_WARN.WB else PWR_WARN.WS)
/-- A sample of a supply (PWR_VMON). -/
def Dev.sample (d : Dev) (rg mv : Nat) : Dev := d.p pwrL (PWR_VMON.MV.ix rg) mv
/-- A warning begins (R474 steps 1 and 2). -/
def Dev.warnBegins (d : Dev) (rg : Nat) : Dev :=
  let w := d.g pwrL PWR_STAT.WARN
  if bit w rg then d
  else (pagesOf rg).foldl (fun y p => y.p (locOf p) PG_STAT.BROWNOUT_SEEN 1) (((d.p pwrL PWR_STAT.WARN (w + 2 ^ rg)).sat pwrL PWR_CNT.WARNS).raise pwrL 0)
/-- A warning ends: the held firmware commands of the half go out (R354). -/
def Dev.warnEnds (d : Dev) (rg : Nat) : Dev :=
  let w := d.g pwrL PWR_STAT.WARN
  if bit w rg then
    (let y := (d.p pwrL PWR_STAT.WARN (w - 2 ^ rg)).raise pwrL 1
     if rg < 2 then y.fwRelease (Half.ofRegion rg) else y)
  else d
/-- BO_WARN (R474): a sample below the warning level. -/
def execBoWarn (rg : Fin 3) (mv : BitVec 12) : State → Answer :=
  onDev (fun s =>
    let d := s.dev.sample rg mv.toNat
    if (if rg.val = 0 then s.ref.supA else if rg.val = 1 then s.ref.supB else s.ref.supS) ∧ mv.toNat < s.dev.warnLevel rg then d.warnBegins rg else d)

/-- A half in OFF whose supply has recovered is released, filled and loaded (R475); before the part's first boot it waits. -/
def Boot.recoverHalf (x : Boot) (h : Half) (elapsed : Nat) (tr : Train) : Boot :=
  if x.1.hs h ≠ .off || !x.1.sup h || !x.2.dev.svcUp then x
  else
    let tb := x.releaseTb h elapsed
    ((x.wipe h.n true).releaseHalf h tb tr true).loadHalf h
/-- The service region recovers (R475): steps 2–4 and 6 of Table 23.6, then its cores; the part boots where it never has. -/
def Boot.recoverSvc (x : Boot) (elapsed : Nat) (tr : Train) : Boot :=
  if x.2.dev.svcUp then x
  else if x.1.powerOn && x.1.hsA = .off && x.1.hsB = .off then x.boot (if x.1.cold then 0 else max x.1.recA x.1.recB + elapsed) tr
  else
    let y := (x.wipe 2 false).dev (fun d => { d with svcUp := true, svcLoading := true }.readSlots true)
    let r := y.load 2
    let z := r.2.statusScreen
    let q := if r.1.isSome then z.dev (fun d => d.startSvc) else z
    (q.recoverHalf .A elapsed tr).recoverHalf .B elapsed tr
/-- BO_CLEAR (R473, R474): the supply has stayed above its warning level + 20 mV for 10 µs; the warning ends, and a region in reset for its
supply is released. -/
def execBoClear (rg : Fin 3) (mv : BitVec 12) (elapsed : Nat) (tr : Train) : State → Answer :=
  onBoot (fun x =>
    let ok := x.2.dev.warnLevel rg + 20 < mv.toNat
    let y := x.dev (fun d => d.sample rg mv.toNat)
    if !ok then y
    else
      let z := (y.dev (fun d => d.warnEnds rg)).ref (fun r => r.setSup rg true)
      if rg.val = 2 then z.recoverSvc elapsed tr else z.recoverHalf (Half.ofRegion rg) elapsed tr)

/-- The new half of a change of charge has lost its supply: a takeover becomes the solo outcome, a handover is given up. -/
def RD.loseNew (x : RD) (h : Half) : RD :=
  match x.1.act with
  | .takeover v old _ el =>
    if old = h.peer then ((RD.quarantine ({ x.1.setFence old false with act := .idle }, x.2) old).stop true true).finish v (some old) 5 3 el else x
  | .handover old => if old = h.peer then ({ x.1.setFence old false with act := .idle }, x.2) else x
  | _ => x
/-- A half's supply falls to its reset level (R475). -/
def Boot.loseHalf (x : Boot) (h : Half) : Boot :=
  let was := (x.1.hs h).code
  let w := x.2.dev.g pwrL PWR_STAT.HSTBY
  let y := ((x.wipe h.n true).dropSession h).ref (fun r => (((r.setHs h .off).setInit h false).setSby h false).setSup h.n false)
  let z := y.dev (fun d =>
    (((((d.p pwrL PWR_STAT.HSTBY (if bit w h.n then w - 2 ^ h.n else w)).p cfgL (useField h.n) 3).lastRst h.n 1).peerLost h.peer).reportP h 0x0C was pwrL).raise pwrL 2)
  z.rd (fun q =>
    let q1 := q.loseNew h
    match q1.1.rjHalf with
    | some k => if k = h then q1 else q1.rejoinFail k
    | none => q1)
/-- BO_RESET (R475): a sample at or below the reset level resets the region on that supply; region 3 is the referee, and resets the part. -/
def execBoReset (rg : Fin 4) (mv : BitVec 12) : State → Answer :=
  onBoot (fun x =>
    if 720 < mv.toNat then x.dev (fun d => d.sample rg mv.toNat)
    else if rg.val = 3 then x.cold
    else
      let y := x.dev (fun d => d.sample rg mv.toNat)
      if rg.val = 2 then
        (if !x.1.supS then y
         else ((((y.dev (fun d => d.warnBegins 2)).wipe 2 false).ref (fun r => r.setSup 2 false)).dev (fun d =>
           (({ d with svcUp := false, svcLoading := false }.p cfgL CFG_USE.SVC 3).lastRst 2 1).raise pwrL 2)))
      else if !x.1.sup (Half.ofRegion rg) then y
      else
        let h := Half.ofRegion rg
        let z := y.dev (fun d => d.warnBegins rg)
        if z.1.hs h = .off then (z.ref (fun r => r.setSup rg false)).dev (fun d => (d.lastRst rg 1).raise pwrL 2) else z.loseHalf h)

/-! ### The requests of PWR_REQ (R477, R481, R485) -/

/-- A request by its bit. `src` says that the command is the write of PWR_REQ by a master with that key; else the request was
written before and waits. A request that waits is taken up here. -/
def onAsk (i : Nat) (src : Option (Master × BitVec 16)) (f : Boot → Boot) : State → Answer :=
  onRef (fun s =>
    let d0 := match src with
      | none => s.dev
      | some w =>
        if s.sends w.1 then regWrite s { m := w.1, dom := s.dev.domainOf s.ref w.1 } (pageOf 2 .pwr 0) 0x840 (BitVec.ofNat 32 (2 ^ i + w.2.toNat * 2 ^ 16)) else s.dev
    if d0.asks.contains i then
      (let y := f (s.ref, { s.run with dev := { d0 with asks := d0.asks.erase i } })
       (y.1, y.2.ops, y.2.dev))
    else (s.ref, [], d0))
/-- A request in a state that does not allow it. -/
def Boot.reject (x : Boot) : Boot := x.dev (fun d => d.pwrReject)

/-- WARM (R477 step 1); while the referee acts on something else the request waits. -/
def execWarm (src : Option (Master × BitVec 16)) : State → Answer :=
  onAsk 0 src (fun x =>
    if x.1.act = .warm then x.reject
    else if x.1.act ≠ .idle then x.dev (fun d => { d with asks := d.asks ++ [0] })
    else x.rd (fun y =>
      let z := ((y.stop true true).fenceHalf .A).fenceHalf .B
      ({ z.1 with act := .warm }, z.2)))
/-- SVCRST (R467, R476): the service region is reset and loaded again; sc0 goes on where it was, sc1–sc7 start. -/
def execSvcrst (src : Option (Master × BitVec 16)) : State → Answer :=
  onAsk 1 src (fun x =>
    let k := x.2.dev.kx 2 0
    let st := x.2.dev.kstate 2 0
    let y := ((x.wipe 2 false).dev (fun d => (({ d with svcLoading := true }.readSlots false).lastRst 2 4)))
    let r := y.load 2
    if r.1.isNone then r.2
    else r.2.dev (fun d =>
      ({ (List.range 7).foldl (fun (z : Dev) c => z.startCore 2 (c + 1)) d with svcLoading := false }.setKx 2 0 k).p (kxcL 2 0) KXC_STAT.STATE st))

/-- Does R481 allow half standby: QUARANTINE, or SPLIT with every context IDLE and every port DOWN? -/
def RD.standbyOk (x : RD) (h : Half) : Bool :=
  !x.1.sby h && (x.1.hs h = .quarantine
    || (x.1.hs h = .split && (List.range 256).all (fun k => x.2.cst h (k / 32) (k % 32) == .idle) && (List.range 64).all (fun p => x.2.pst h p = psDown)))
/-- The registers of a Rerok port that half standby leaves at their reset values: state, SEQ, credits. -/
def Dev.portCold (d : Dev) (h : Half) (p : Nat) : Dev :=
  let l := rlkL h p
  [RLK_STAT.STATE.off, RLK_SEQ.TXNEXT.off, RLK_CREDIT.C.off, RLK_ES.COUNT.off, RLK_CR.COUNT.off].foldl (fun y off => y.wr l off (regReset (l + off)))
    { d with ports := SMap.set (fun _ => ({} : Port)) d.ports (h.n * 64 + p) {} }
/-- HSTBY (R481, R482): cores halt, DRAM enters self-refresh, the PLL stops; ports, link and timers take their defaults. -/
def execHstby (h : Half) (src : Option (Master × BitVec 16)) : State → Answer :=
  onAsk (2 + h.n) src (fun x =>
    if !RD.standbyOk (x.1, x.2.dev) h then x.reject
    else
      let y := (x.dropSession h).ref (fun r => r.setSby h true)
      y.dev (fun d =>
        let d1 := (List.range 20).foldl (fun z c => if z.krunning h.n c then z.kstop h.n c ksHalted else z) d
        let d2 := [0, 1].foldl (fun z k => z.p (hLoc h .mec k) MEC_STAT.SELFREF 1) d1
        let d3 := (List.range 64).foldl (fun z p => z.portCold h p) d2
        let d4 := (List.range 16).foldl (fun z i => z.p (rLoc h.n .tmr i) TMR_CTL.RUN 0) d3
        let l := hLoc h .hif
        let dc := [0, 1].foldl (fun z k => (z.p (cxpL h k) CXP_STAT.LINK 0).p (cxpL h k) CXP_STAT.STREAMING 0) d4
        let d5 := (dc.withLines (l / 0x100000) (fun z => z.pageReset (l / 0x100000) true)).raise l 1
        d5.p pwrL PWR_STAT.HSTBY (d5.g pwrL PWR_STAT.HSTBY + 2 ^ h.n)))
/-- The row engines of a half with every context IDLE (R481). -/
def Dev.ctxsIdle (d : Dev) (h : Half) : Dev :=
  (List.range 8).foldl (fun y e => (List.range 32).foldl (fun z c => z.setCst h e c .idle) (y.unitReset .row h.n e)) d
/-- WAKE (R481, R333): training again, INIT without a reset; the DRAM walk of the scrubber restarts. -/
def execWake (h : Half) (elapsed : Nat) (tr : Train) (src : Option (Master × BitVec 16)) : State → Answer :=
  onAsk (4 + h.n) src (fun x =>
    if !x.1.sby h then x.reject
    else
      let tb := x.releaseTb h elapsed
      let y := ((x.ref (fun r => r.setSby h false)).dev (fun d =>
        ((d.p pwrL PWR_STAT.HSTBY (d.g pwrL PWR_STAT.HSTBY - 2 ^ h.n)).ctxsIdle h).p (hLoc h .scb) SCB_DPOS.BURST 0)).releaseHalf h tb tr false
      y.ref (fun r => r.setInit h (y.2.dev.dramReady h)))
/-- DIM (R481): each head stops at its next latch point. -/
def execDim (src : Option (Master × BitVec 16)) : State → Answer :=
  onAsk 6 src (fun x => if x.2.dev.on pwrL PWR_STAT.DIM then x.reject else x.dev (fun d => d.p pwrL PWR_STAT.DIM 1))
/-- UNDIM (R481): the heads start as under R393, the Condenser prefixes are invalid, a held blitter operation begins. -/
def execUndim (src : Option (Master × BitVec 16)) : State → Answer :=
  onAsk 7 src (fun x =>
    if !x.2.dev.on pwrL PWR_STAT.DIM then x.reject
    else x.dev (fun d =>
      let d1 := d.p pwrL PWR_STAT.DIM 0
      { d1 with
        prisms := [0, 1].foldl (fun m c => SMap.modify (fun _ => ({} : Prism)) m c (fun y => { y with invalid := true })) d1.prisms
        blt := d1.blt.map (fun b => { b with held := false }) }))
/-- PWR_CLR (Table 24.5): a write by a master. -/
def execPwrClr (m : Master) (mask : BitVec 3) : State → Answer :=
  onSvcReg (fun s => if s.sends m then regWrite s { m := m, dom := s.dev.domainOf s.ref m } (pageOf 2 .pwr 0) 0x844 (BitVec.ofNat 32 mask.toNat) else s.dev)

/-! ### Temperatures, PLLs (R208, R483) -/

/-- A junction temperature of a region (R483): above 105 °C it raises HOT; the service region throttles from ON, until below ON − HYST. -/
def Dev.temp (d : Dev) (rg : Nat) (t : BitVec 8) : Dev :=
  let d1 := d.p pwrL (PWR_TEMP.TEMP.ix rg) t.toNat
  let d2 := if 105 < t.toInt then d1.raise pwrL 4 else d1
  let on : Int := d2.g pwrL PWR_THROT.ON
  if rg ≠ 2 then d2
  else if on ≤ t.toInt ∧ !d2.on pwrL PWR_STAT.THROT then (d2.p pwrL PWR_STAT.THROT 1).raise pwrL 3
  else if t.toInt < on - d2.g pwrL PWR_THROT.HYST then d2.p pwrL PWR_STAT.THROT 0
  else d2
/-- THROTTLE (R483): a sample of the service temperature, which reaches ON. -/
def execThrottle (t : BitVec 8) : State → Answer := onSvcReg (fun s => s.dev.temp 2 t)
/-- THROTTLE_CLEAR (R483): a sample below ON − HYST. -/
def execThrottleClear (t : BitVec 8) : State → Answer := onSvcReg (fun s => s.dev.temp 2 t)
/-- HOT (R483): a sample above 105 °C. -/
def execHot (rg : Fin 3) (t : BitVec 8) : State → Answer := onSvcReg (fun s => s.dev.temp rg t)
/-- PLL_LOSS (R208, Table 08.3): the half reports it, and its self-check word shows it. DETAIL names the PWR page (notes/assumptions/118.md). -/
def execPllLoss (h : Half) : State → Answer :=
  onDev (fun s => if s.ref.hs h = .off ∨ s.ref.sby h then s.dev else s.dev.reportP h 0x0D 0 pwrL)

end Sys2Proof.Machine
end

