-- ==== Sys2Proof/Machine/Mailbox.lean ====
section
/-!
DEFINITION. The referee mailboxes as BAR index 4 of an endpoint shows them (R35, R436, Table 20.4), and the commands that are accesses
of a master: REGISTER_WRITE, RC_READ, LOW_WORD_READ.
-/
namespace Sys2Proof.Machine

open Sys2Proof

/-- MBX_RSP of an endpoint. -/
def Referee.rsp (r : Referee) (ep : Half) : Nat := match ep with | .A => r.rspA | .B => r.rspB
/-- MBX_SESS.RESULT of an endpoint. -/
def Referee.sessRes (r : Referee) (ep : Half) : Nat := match ep with | .A => r.sessResA | .B => r.sessResB
/-- The word at an aligned offset of BAR index 4 (Table 20.4): MBX_RSP, MBX_SESS, the image of the REF page; the rest reads 0. -/
def mailboxWord (s : State) (ep : Half) (off : Nat) : Word :=
  if off = 0x004 then BitVec.ofNat 32 (s.ref.rsp ep)
  else if off = 0x008 then
    BitVec.ofNat 32 (b2n (s.ref.session = some ep) * 2 ^ 8 + b2n (s.ref.session = some ep.peer) * 2 ^ 9 + s.ref.sessRes ep * 2 ^ 16)
  else if 0x1000 ≤ off ∧ off < 0x2000 then (regRead s { m := .mailbox ep, dom := ep.n + 1 } (refL / 0x100000) (off - 0x1000)).1
  else 0
/-- How a half's DRAM training ends, as a number codes it. -/
def trainOf (n : Nat) : Train :=
  { a0 := ⟨n % 6, Nat.mod_lt _ (by decide)⟩, a1 := ⟨n / 6 % 6, Nat.mod_lt _ (by decide)⟩
    b0 := ⟨n / 36 % 6, Nat.mod_lt _ (by decide)⟩, b1 := ⟨n / 216 % 6, Nat.mod_lt _ (by decide)⟩ }
/-- A write of MBX_REQ (Table 08.9). How the bring-up of a REJOIN ends is free (notes/assumptions/113.md). -/
def mbxReq (ep : Half) (v : Nat) (s : State) : Answer :=
  let tag := BitVec.ofNat 8 (v / 2 ^ 16)
  let h : Half := if bit v 8 then .B else .A
  let s1 := { s with dev := { s.dev with freeCount := s.dev.freeCount + 1 } }
  match v % 256 with
  | 1 => execRelease ep false tag h s
  | 2 => execRejoin ep false tag h (Config.bringUp s.dev.freeCount / 1296) (trainOf (Config.bringUp s.dev.freeCount)) s1
  | 3 => execHandover ep false tag s
  | 4 => execStopClear ep false tag s
  | 5 => execFlogClear ep false tag s
  | _ => execMbxReservedRequest ep false tag s
/-- A write of a word through BAR index 4. A write that sets OPEN and CLOSE opens (notes/assumptions/113.md). -/
def mailboxWrite (ep : Half) (off v : Nat) (s : State) : Answer :=
  if off = 0x000 then mbxReq ep v s
  else if off = 0x008 ∧ bit v 0 then execMbxOpen ep s
  else if off = 0x008 ∧ bit v 1 then execMbxClose ep s
  else if off = 0x00C ∧ bit v 0 then execMbxKeep ep s
  else .next s
/-- An access through BAR index 4 that is no aligned word changes nothing but HIF_ERR.SIZE (R433). -/
def mailboxBad (ep : Half) (d : Dev) : Dev := d.sat (hLoc ep .hif) HIF_ERR.SIZE

/-- REGISTER_WRITE: a write by a master, in the domain it carries (R24), to a register or any other address of the map. -/
def execRegisterWrite (m : Master) (a : BitVec 40) (data : List Byte) : State → Answer :=
  fun s =>
    match m with
    | .mailbox ep =>
      if s.sends m = false then .next s
      else if a.toNat % 4 ≠ 0 ∨ data.length ≠ 4 then .next { s with dev := mailboxBad ep s.dev }
      else mailboxWrite ep a.toNat (leNat data) s
    | _ => onMem (fun s =>
        if !s.sends m ∨ !s.dev.reaches m a.toNat then ([], s.dev)
        else busWrite { s with dev := domCount s m } { m := m, dom := s.dev.domainOf s.ref m } a.toNat data) s
/-- A read of a 32-bit word by a master: its value is what the command returns; an uncorrectable word completes a host's read with
Completer Abort (R435). -/
def readWord (s : State) (m : Master) (a : Nat) : Dev :=
  match m with
  | .mailbox ep =>
    if s.sends m = false then { s.dev with readData := 0 }
    else if a % 4 ≠ 0 then { mailboxBad ep s.dev with readData := 0 }
    else { s.dev with readData := mailboxWord s ep a }
  | _ =>
  if !s.sends m ∨ !s.dev.reaches m a then { s.dev with readData := 0 }
  else
    let g := busRead { s with dev := domCount s m } { m := m, dom := s.dev.domainOf s.ref m } a 4
    let d := match m with
      | .host h _ => if g.ue then g.dev.completerAbort s.ref h else g.dev
      | _ => g.dev
    { d with readData := BitVec.ofNat 32 (leNat g.bytes) }
/-- RC_READ (R11): the read returns the value, and the RC bits clear. -/
def execRcRead (m : Master) (a : BitVec 40) : State → Answer := onDev (fun s => readWord s m a.toNat)
/-- LOW_WORD_READ (R32): the read latches the high word for the master. -/
def execLowWordRead (m : Master) (a : BitVec 40) : State → Answer := onDev (fun s => readWord s m a.toNat)

end Sys2Proof.Machine
end

