-- ==== Sys2Proof/Machine/Scrub.lean ====
section
/-!
DEFINITION. The SRAM walk of a scrubber (R337), and what an uncorrectable word that it finds does to the unit whose memory it is
(Table 13.4).
-/
namespace Sys2Proof.Machine

open Sys2Proof

/-- Table 13.4, for the memories whose words the model holds as what they mean: a line of a cache, a block of the pool, a context of the context
store, a channel of the queue SRAM, the open row of a Loupe pipe, an entry of the seal table, a LUT entry, which reads as 0 until it is written.
Sets and ways, blocks, contexts, channels and entries lie in order, in equal shares of their memory (notes/assumptions/89.md). -/
def Dev.scrubHit (d : Dev) (h : Half) (e : EccMem) (w : Nat) : Dev :=
  match e.block, e.mem with
  | .row, 0 => d.modEng h e.inst (fun g => g.refetch false w)
  | .row, 1 => d.modEng h e.inst (fun g => g.refetch true w)
  | .row, 2 => d.modEng h e.inst (fun g => g.renew (w / 512))
  | .prz, 2 =>
    if w < 16384 then { d with preLut := SMap.set (fun _ => 0) d.preLut w 0 }
    else if w < 24576 then { d with postLut := SMap.set (fun _ => 0) d.postLut (w - 16384) 0 } else d
  | .row, 3 =>
    let c := w / 256
    if d.cst h e.inst c = .idle ∨ d.cst h e.inst c = .fault then d else d.ctxFault h e.inst c 4
  | .aeq, 0 => d.queueLost h (w / 7)
  | .aeq, 1 => d.queueLost h (w / 3)
  | .lpe, _ => d.loupeUe h e.inst
  | .seal, _ =>
    { d with seals := SMap.modify (fun _ => ({} : SealUnit)) d.seals h.n (fun u =>
      if w < 2048 then { u with own := u.own.eraseIdx (w / 2) } else { u with peer := u.peer.eraseIdx (w / 2 - 1024) }) }
  | _, _ => d
/-- Where the walk stands: its position, or the first memory that SEN and SVC let it read (R337). -/
def State.scrubAt (s : State) (h : Half) : Nat × Nat :=
  let l := hLoc h .scb
  let first := if s.dev.on l SCB_CFG.SEN then 0 else (halfMems h.n).length
  let i := s.dev.g l SCB_SPOS.MEM
  if first ≤ i ∧ i < (s.walked h).length then (i, s.dev.g l SCB_SPOS.WORD) else (first, 0)
/-- SCRUB_SRAM_READ: the walker reads the word at its position; `found` is what the code finds there (0 correct, 1 a single
error, 2 uncorrectable, 3 two copies of the referee state failing); a word already uncorrectable stays so, but a failing copy of
the referee state is rewritten from the other two (Table 13.4). -/
def scrubSram (s : State) (h : Half) (found : Nat) : Dev :=
  let d := s.dev
  let l := hLoc h .scb
  let mems := s.walked h
  let i := (s.scrubAt h).1
  let w := (s.scrubAt h).2
  match mems[i]? with
  | none => d
  | some (e, p) =>
    let ue := 2 ≤ found ∨ d.wordUe e p w
    let d1 := if ue then ((d.markUe e p w).eccUe h p e.mem w (d.eccPriv e w)).scrubHit h e w
      else if found = 1 then d.eccCe h p e.mem w (d.eccPriv e w) else d
    if w + 1 < e.words then (d1.p l SCB_SPOS.MEM i).p l SCB_SPOS.WORD (w + 1)
    else if i + 1 < mems.length then (d1.p l SCB_SPOS.WORD 0).p l SCB_SPOS.MEM (i + 1)
    else (((d1.p l SCB_SPOS.WORD 0).p l SCB_SPOS.MEM 0).wrap l SCB_PASS.SRAM).raise l 3
/-- Two copies of the referee state fail at one address: both STOP_REQ lines are asserted, the half states stand (Table 13.4). -/
def execScrubSramRead (h : Half) (found : Fin 4) : State → Answer :=
  onRef (fun s =>
    if !(s.ref.live h && s.dev.clocked (hLoc h .scb)) then (s.ref, [], s.dev)
    else if found.val = 3 && ((s.walked h)[(s.scrubAt h).1]?).any (fun x => x.1.block = .ref) then
      ({ s.ref with stopA := true, stopB := true }, [], (scrubSram s h found).raise (rLoc 3 .ref) 7)
    else (s.ref, [], scrubSram s h found))

end Sys2Proof.Machine
end

