-- ==== Sys2Proof/Machine/Dispatch.lean ====
section
/-! DEFINITION. The dispatch: one arm per constructor of Instr, each one direct call of its meaning. -/
namespace Sys2Proof.Machine

open Sys2Proof

def exec (i : Instr) (s : State) : Host.Outcome State Fault Refusal :=
  match i with
  | .refereePowerOn up tr => Sys2Proof.Machine.execRefereePowerOn up tr s
  | .memoryFillDone h => Sys2Proof.Machine.execMemoryFillDone h s
  | .halfInitComplete => Sys2Proof.Machine.execHalfInitComplete s
  | .initTimeout h => Sys2Proof.Machine.execInitTimeout h s
  | .tbTick h => Sys2Proof.Machine.execTbTick h s
  | .tbCompare phase shorten => Sys2Proof.Machine.execTbCompare phase shorten s
  | .beamInputEdge h b a bb z samples => Sys2Proof.Machine.execBeamInputEdge h b a bb z samples s
  | .beamStallTimeout h b => Sys2Proof.Machine.execBeamStallTimeout h b s
  | .beamCommitSwap h => Sys2Proof.Machine.execBeamCommitSwap h s
  | .beamResync h b => Sys2Proof.Machine.execBeamResync h b s
  | .predReq h => Sys2Proof.Machine.execPredReq h s
  | .predDone h => Sys2Proof.Machine.execPredDone h s
  | .replicaSnapshot h => Sys2Proof.Machine.execReplicaSnapshot h s
  | .rowTrigger h e c rev8 => Sys2Proof.Machine.execRowTrigger h e c rev8 s
  | .renderStart h e => Sys2Proof.Machine.execRenderStart h e s
  | .lineFillReturn h e mot line ue => Sys2Proof.Machine.execLineFillReturn h e mot line ue s
  | .renderComplete h e stall => Sys2Proof.Machine.execRenderComplete h e stall s
  | .gatherStart h e bad => Sys2Proof.Machine.execGatherStart h e bad s
  | .gatherComplete h e => Sys2Proof.Machine.execGatherComplete h e s
  | .sealCompute h => Sys2Proof.Machine.execSealCompute h s
  | .rowRecordWrite h e c => Sys2Proof.Machine.execRowRecordWrite h e c s
  | .tcinvAll h e => Sys2Proof.Machine.execTcinvAll h e s
  | .tcinvRange h e => Sys2Proof.Machine.execTcinvRange h e s
  | .tcinvDone h e => Sys2Proof.Machine.execTcinvDone h e s
  | .mcinvAll h e => Sys2Proof.Machine.execMcinvAll h e s
  | .mcinvRange h e => Sys2Proof.Machine.execMcinvRange h e s
  | .mcinvDone h e => Sys2Proof.Machine.execMcinvDone h e s
  | .arm h e c => Sys2Proof.Machine.execArm h e c s
  | .hold h e c byRow => Sys2Proof.Machine.execHold h e c byRow s
  | .resume h e c byRow => Sys2Proof.Machine.execResume h e c byRow s
  | .stop h e c byRow => Sys2Proof.Machine.execStop h e c byRow s
  | .abort h e c => Sys2Proof.Machine.execAbort h e c s
  | .rowCmdReserved h e c => Sys2Proof.Machine.execRowCmdReserved h e c s
  | .drainingComplete h e c => Sys2Proof.Machine.execDrainingComplete h e c s
  | .rowBindWrite h e c v => Sys2Proof.Machine.execRowBindWrite h e c v s
  | .rowHistoryWrite h e c which v => Sys2Proof.Machine.execRowHistoryWrite h e c which v s
  | .rowRidxWrite h e c v => Sys2Proof.Machine.execRowRidxWrite h e c v s
  | .mawIdxWrite m h e v => Sys2Proof.Machine.execMawIdxWrite m h e v s
  | .mawEntryWrite m h e v => Sys2Proof.Machine.execMawEntryWrite m h e v s
  | .beamStateMarker h e b code dir => Sys2Proof.Machine.execBeamStateMarker h e b code dir s
  | .beamDisabledCancel h b => Sys2Proof.Machine.execBeamDisabledCancel h b s
  | .reverseDirectionMarker h e b => Sys2Proof.Machine.execReverseDirectionMarker h e b s
  | .reverseTrigger h e c rev8 => Sys2Proof.Machine.execReverseTrigger h e c rev8 s
  | .forwardDirectionMarker h e b => Sys2Proof.Machine.execForwardDirectionMarker h e b s
  | .cancelScanComplete h ctx => Sys2Proof.Machine.execCancelScanComplete h ctx s
  | .hrnTwDataWrite h v => Sys2Proof.Machine.execHrnTwDataWrite h v s
  | .hrnValidationDone h => Sys2Proof.Machine.execHrnValidationDone h s
  | .hrnCopyDone h => Sys2Proof.Machine.execHrnCopyDone h s
  | .aeqCntLatch h ch => Sys2Proof.Machine.execAeqCntLatch h ch s
  | .expired h ch => Sys2Proof.Machine.execExpired h ch s
  | .queueUe h ch => Sys2Proof.Machine.execQueueUe h ch s
  | .frameBoundary h p elapsed clk => Sys2Proof.Machine.execFrameBoundary h p elapsed clk s
  | .mirrorConfirm h p => Sys2Proof.Machine.execMirrorConfirm h p s
  | .mirrorLate h p => Sys2Proof.Machine.execMirrorLate h p s
  | .audTimer h p => Sys2Proof.Machine.execAudTimer h p s
  | .hbTimer h p => Sys2Proof.Machine.execHbTimer h p s
  | .receiverLock h p => Sys2Proof.Machine.execReceiverLock h p s
  | .hbReceive h p rx epoch times locked sess active fenced ver pool id => Sys2Proof.Machine.execHbReceive h p rx epoch times locked sess active fenced ver pool id s
  | .ackReceive h p rx epoch next retry => Sys2Proof.Machine.execAckReceive h p rx epoch next retry s
  | .crdReceive h p rx epoch ct => Sys2Proof.Machine.execCrdReceive h p rx epoch ct s
  | .stsReceive h p rx epoch seq status audd reports => Sys2Proof.Machine.execStsReceive h p rx epoch seq status audd reports s
  | .mgtResponseReceive h p rx epoch seq tag op count status data => Sys2Proof.Machine.execMgtResponseReceive h p rx epoch seq tag op count status data s
  | .mgtGo h p v => Sys2Proof.Machine.execMgtGo h p v s
  | .mgtTimeout h p => Sys2Proof.Machine.execMgtTimeout h p s
  | .retransmitTimeout h p => Sys2Proof.Machine.execRetransmitTimeout h p s
  | .trainingTimeout h p => Sys2Proof.Machine.execTrainingTimeout h p s
  | .trainingRetry h p => Sys2Proof.Machine.execTrainingRetry h p s
  | .linkDown h p => Sys2Proof.Machine.execLinkDown h p s
  | .sealRecordReceive h => Sys2Proof.Machine.execSealRecordReceive h s
  | .sealTmo h mine => Sys2Proof.Machine.execSealTmo h mine s
  | .faultReport => Sys2Proof.Machine.execFaultReport s
  | .faultReportDequeue => Sys2Proof.Machine.execFaultReportDequeue s
  | .commonModeTimeout => Sys2Proof.Machine.execCommonModeTimeout s
  | .selfCheckWord h => Sys2Proof.Machine.execSelfCheckWord h s
  | .selfCheckTimeout h => Sys2Proof.Machine.execSelfCheckTimeout h s
  | .fenceConfirm elapsed tr => Sys2Proof.Machine.execFenceConfirm elapsed tr s
  | .fenceTimeout h p => Sys2Proof.Machine.execFenceTimeout h p s
  | .reissue h => Sys2Proof.Machine.execReissue h s
  | .autorejoinTimeout h elapsed tr => Sys2Proof.Machine.execAutorejoinTimeout h elapsed tr s
  | .release ep still tag h => Sys2Proof.Machine.execRelease ep still tag h s
  | .rejoin ep still tag h elapsed tr => Sys2Proof.Machine.execRejoin ep still tag h elapsed tr s
  | .rejoinCopyDone => Sys2Proof.Machine.execRejoinCopyDone s
  | .handover ep still tag => Sys2Proof.Machine.execHandover ep still tag s
  | .stopClear ep still tag => Sys2Proof.Machine.execStopClear ep still tag s
  | .flogClear ep still tag => Sys2Proof.Machine.execFlogClear ep still tag s
  | .mbxReservedRequest ep still tag => Sys2Proof.Machine.execMbxReservedRequest ep still tag s
  | .cxpLineMarker h k stream fmt fresh pix => Sys2Proof.Machine.execCxpLineMarker h k stream fmt fresh pix s
  | .loupeRowTimeout h k => Sys2Proof.Machine.execLoupeRowTimeout h k s
  | .expectedRowArrive h e => Sys2Proof.Machine.execExpectedRowArrive h e s
  | .loupeRenderRequest h e => Sys2Proof.Machine.execLoupeRenderRequest h e s
  | .defectRecordWritten h k => Sys2Proof.Machine.execDefectRecordWritten h k s
  | .travelTrigger h k => Sys2Proof.Machine.execTravelTrigger h k s
  | .cxpControlRx h k kind ok payload => Sys2Proof.Machine.execCxpControlRx h k kind ok payload s
  | .cxpCtltxWrite h k v => Sys2Proof.Machine.execCxpCtltxWrite h k v s
  | .cxpCtlrxRead h k => Sys2Proof.Machine.execCxpCtlrxRead h k s
  | .cxpLinkUp h k => Sys2Proof.Machine.execCxpLinkUp h k s
  | .cxpLinkDown h k line => Sys2Proof.Machine.execCxpLinkDown h k line s
  | .cxpFifoOverflow h k => Sys2Proof.Machine.execCxpFifoOverflow h k s
  | .lpeTableWrite h k knot v => Sys2Proof.Machine.execLpeTableWrite h k knot v s
  | .lpeBankCopyDone h k => Sys2Proof.Machine.execLpeBankCopyDone h k s
  | .lpeRingRdWrite h k v => Sys2Proof.Machine.execLpeRingRdWrite h k v s
  | .lpeTlogWrite h k hi v => Sys2Proof.Machine.execLpeTlogWrite h k hi v s
  | .add r c rd rs => Sys2Proof.Machine.execAdd r c rd rs s
  | .adc r c rd rs => Sys2Proof.Machine.execAdc r c rd rs s
  | .sub r c rd rs => Sys2Proof.Machine.execSub r c rd rs s
  | .sbc r c rd rs => Sys2Proof.Machine.execSbc r c rd rs s
  | .and r c rd rs => Sys2Proof.Machine.execAnd r c rd rs s
  | .or r c rd rs => Sys2Proof.Machine.execOr r c rd rs s
  | .xor r c rd rs => Sys2Proof.Machine.execXor r c rd rs s
  | .mov r c rd rs => Sys2Proof.Machine.execMov r c rd rs s
  | .cmp r c rd rs => Sys2Proof.Machine.execCmp r c rd rs s
  | .tst r c rd rs => Sys2Proof.Machine.execTst r c rd rs s
  | .addi r c rd lim imm => Sys2Proof.Machine.execAddi r c rd lim imm s
  | .movi r c rd lim imm => Sys2Proof.Machine.execMovi r c rd lim imm s
  | .cmpi r c rd lim imm => Sys2Proof.Machine.execCmpi r c rd lim imm s
  | .neg r c rd => Sys2Proof.Machine.execNeg r c rd s
  | .not r c rd => Sys2Proof.Machine.execNot r c rd s
  | .mul r c rd rs => Sys2Proof.Machine.execMul r c rd rs s
  | .mulhu r c rd rs => Sys2Proof.Machine.execMulhu r c rd rs s
  | .divu r c rd rs => Sys2Proof.Machine.execDivu r c rd rs s
  | .divs r c rd rs => Sys2Proof.Machine.execDivs r c rd rs s
  | .remu r c rd rs => Sys2Proof.Machine.execRemu r c rd rs s
  | .rems r c rd rs => Sys2Proof.Machine.execRems r c rd rs s
  | .shl r c rd rs => Sys2Proof.Machine.execShl r c rd rs s
  | .shr r c rd rs => Sys2Proof.Machine.execShr r c rd rs s
  | .sar r c rd rs => Sys2Proof.Machine.execSar r c rd rs s
  | .ror r c rd rs => Sys2Proof.Machine.execRor r c rd rs s
  | .shli r c rd n => Sys2Proof.Machine.execShli r c rd n s
  | .shri r c rd n => Sys2Proof.Machine.execShri r c rd n s
  | .sari r c rd n => Sys2Proof.Machine.execSari r c rd n s
  | .rori r c rd n => Sys2Proof.Machine.execRori r c rd n s
  | .par r c rd => Sys2Proof.Machine.execPar r c rd s
  | .brev r c rd => Sys2Proof.Machine.execBrev r c rd s
  | .brevn r c rd n => Sys2Proof.Machine.execBrevn r c rd n s
  | .swpb r c rd => Sys2Proof.Machine.execSwpb r c rd s
  | .sxb r c rd => Sys2Proof.Machine.execSxb r c rd s
  | .crc r c rd => Sys2Proof.Machine.execCrc r c rd s
  | .ld r c rd rs lim slow => Sys2Proof.Machine.execLd r c rd rs lim slow s
  | .st r c rd rs lim => Sys2Proof.Machine.execSt r c rd rs lim s
  | .ldp r c rd rs lim slow => Sys2Proof.Machine.execLdp r c rd rs lim slow s
  | .stp r c rd rs lim => Sys2Proof.Machine.execStp r c rd rs lim s
  | .bcc r c cond lim imm => Sys2Proof.Machine.execBcc r c cond lim imm s
  | .jr r c rs => Sys2Proof.Machine.execJr r c rs s
  | .callr r c rd rs => Sys2Proof.Machine.execCallr r c rd rs s
  | .loop r c rd lim imm => Sys2Proof.Machine.execLoop r c rd lim imm s
  | .nop r c => Sys2Proof.Machine.execNop r c s
  | .reti r c => Sys2Proof.Machine.execReti r c s
  | .waitrow r c rd => Sys2Proof.Machine.execWaitrow r c rd s
  | .waitangle r c rd => Sys2Proof.Machine.execWaitangle r c rd s
  | .waitevt r c rd rs => Sys2Proof.Machine.execWaitevt r c rd rs s
  | .waitrowComplete r c => Sys2Proof.Machine.execWaitrowComplete r c s
  | .waitangleComplete r c => Sys2Proof.Machine.execWaitangleComplete r c s
  | .waitevtComplete r c => Sys2Proof.Machine.execWaitevtComplete r c s
  | .waitTimeout r c => Sys2Proof.Machine.execWaitTimeout r c s
  | .rep r c upTo slow => Sys2Proof.Machine.execRep r c upTo slow s
  | .movs r c slow => Sys2Proof.Machine.execMovs r c slow s
  | .fills r c rd => Sys2Proof.Machine.execFills r c rd s
  | .cmps r c slow => Sys2Proof.Machine.execCmps r c slow s
  | .scans r c rd slow => Sys2Proof.Machine.execScans r c rd slow s
  | .crcs r c slow => Sys2Proof.Machine.execCrcs r c slow s
  | .cust r c sel lim f due => Sys2Proof.Machine.execCust r c sel lim f due s
  | .illegal r c => Sys2Proof.Machine.execIllegal r c s
  | .interruptEntry r c => Sys2Proof.Machine.execInterruptEntry r c s
  | .farReadResponse r c saved => Sys2Proof.Machine.execFarReadResponse r c saved s
  | .farerr r c write saved => Sys2Proof.Machine.execFarerr r c write saved s
  | .farSync r c => Sys2Proof.Machine.execFarSync r c s
  | .ktbLoad r c => Sys2Proof.Machine.execKtbLoad r c s
  | .mailboxSend r c v => Sys2Proof.Machine.execMailboxSend r c v s
  | .mailboxDeliver r c tr tc => Sys2Proof.Machine.execMailboxDeliver r c tr tc s
  | .mailboxPop r c => Sys2Proof.Machine.execMailboxPop r c s
  | .hostMailboxPush r c v => Sys2Proof.Machine.execHostMailboxPush r c v s
  | .hostMailboxPop r c => Sys2Proof.Machine.execHostMailboxPop r c s
  | .kxcHmbinWrite r c v => Sys2Proof.Machine.execKxcHmbinWrite r c v s
  | .kxcHmboutRead r c => Sys2Proof.Machine.execKxcHmboutRead r c s
  | .kwdogReload r c v => Sys2Proof.Machine.execKwdogReload r c v s
  | .watchdogExpire r c => Sys2Proof.Machine.execWatchdogExpire r c s
  | .kxcRun r c => Sys2Proof.Machine.execKxcRun r c s
  | .kxcHalt r c => Sys2Proof.Machine.execKxcHalt r c s
  | .kxcStep r c => Sys2Proof.Machine.execKxcStep r c s
  | .creset r c => Sys2Proof.Machine.execCreset r c s
  | .pmwWrite r c v => Sys2Proof.Machine.execPmwWrite r c v s
  | .ucsWindowWrite m r dec k v => Sys2Proof.Machine.execUcsWindowWrite m r dec k v s
  | .ueFetch r who w => Sys2Proof.Machine.execUeFetch r who w s
  | .scrubSramRead h found => Sys2Proof.Machine.execScrubSramRead h found s
  | .scrubDramRead h found word => Sys2Proof.Machine.execScrubDramRead h found word s
  | .eccWriteback => Sys2Proof.Machine.execEccWriteback s
  | .bucketLeak rg pg => Sys2Proof.Machine.execBucketLeak rg pg s
  | .scbEsrcPop h => Sys2Proof.Machine.execScbEsrcPop h s
  | .eccLogClear rg pg => Sys2Proof.Machine.execEccLogClear rg pg s
  | .caParityError h ch again word => Sys2Proof.Machine.execCaParityError h ch again word s
  | .map h ent ext chk => Sys2Proof.Machine.execMap h ent ext chk s
  | .unmap h => Sys2Proof.Machine.execUnmap h s
  | .load h => Sys2Proof.Machine.execLoad h s
  | .drop h => Sys2Proof.Machine.execDrop h s
  | .remount h capacity b0 b1 => Sys2Proof.Machine.execRemount h capacity b0 b1 s
  | .mapReservedOp h => Sys2Proof.Machine.execMapReservedOp h s
  | .mapRej h op => Sys2Proof.Machine.execMapRej h op s
  | .driveMount h ok capacity b0 b1 => Sys2Proof.Machine.execDriveMount h ok capacity b0 b1 s
  | .pageAheadRequest h => Sys2Proof.Machine.execPageAheadRequest h s
  | .nvmeReadIssue h => Sys2Proof.Machine.execNvmeReadIssue h s
  | .pageArrive h g data => Sys2Proof.Machine.execPageArrive h g data s
  | .cmdTmo h g => Sys2Proof.Machine.execCmdTmo h g s
  | .nvmeCompletion h fw => Sys2Proof.Machine.execNvmeCompletion h fw s
  | .logBlockSubmit h => Sys2Proof.Machine.execLogBlockSubmit h s
  | .fwDoorbell h q tail held => Sys2Proof.Machine.execFwDoorbell h q tail held s
  | .dmaStart r c => Sys2Proof.Machine.execDmaStart r c s
  | .dmaDoorbell r c => Sys2Proof.Machine.execDmaDoorbell r c s
  | .dmaStop r c => Sys2Proof.Machine.execDmaStop r c s
  | .descriptorFetch r c => Sys2Proof.Machine.execDescriptorFetch r c s
  | .descriptorComplete r c rd wr => Sys2Proof.Machine.execDescriptorComplete r c rd wr s
  | .descriptorReread r c => Sys2Proof.Machine.execDescriptorReread r c s
  | .dmaTimeout r c rd wr wb => Sys2Proof.Machine.execDmaTimeout r c rd wr wb s
  | .dmaLatch r c => Sys2Proof.Machine.execDmaLatch r c s
  | .latchPoint c => Sys2Proof.Machine.execLatchPoint c s
  | .l7Refresh mask => Sys2Proof.Machine.execL7Refresh mask s
  | .reflat c => Sys2Proof.Machine.execReflat c s
  | .cameraViewLine h k busy => Sys2Proof.Machine.execCameraViewLine h k busy s
  | .wbDone c => Sys2Proof.Machine.execWbDone c s
  | .wbDrop c lines => Sys2Proof.Machine.execWbDrop c lines s
  | .rasterStart c => Sys2Proof.Machine.execRasterStart c s
  | .underrun c lines => Sys2Proof.Machine.execUnderrun c lines s
  | .compatLineFetch c shown => Sys2Proof.Machine.execCompatLineFetch c shown s
  | .dsiCommandWrite v => Sys2Proof.Machine.execDsiCommandWrite v s
  | .dsiCommandSend => Sys2Proof.Machine.execDsiCommandSend s
  | .cmdDone data => Sys2Proof.Machine.execCmdDone data s
  | .dsiResponseTimeout => Sys2Proof.Machine.execDsiResponseTimeout s
  | .teEdge => Sys2Proof.Machine.execTeEdge s
  | .teMiss => Sys2Proof.Machine.execTeMiss s
  | .bltGo op blend transp => Sys2Proof.Machine.execBltGo op blend transp s
  | .bltAbort => Sys2Proof.Machine.execBltAbort s
  | .bltComplete pixels => Sys2Proof.Machine.execBltComplete pixels s
  | .bltTimeout pixels => Sys2Proof.Machine.execBltTimeout pixels s
  | .audioSamplePeriod mics => Sys2Proof.Machine.execAudioSamplePeriod mics s
  | .zcTmo which src b => Sys2Proof.Machine.execZcTmo which src b s
  | .audioFrameReceive p slots => Sys2Proof.Machine.execAudioFrameReceive p slots s
  | .audioFrameSync p => Sys2Proof.Machine.execAudioFrameSync p s
  | .keyon v => Sys2Proof.Machine.execKeyon v s
  | .keyoff v => Sys2Proof.Machine.execKeyoff v s
  | .audPlatch p => Sys2Proof.Machine.execAudPlatch p s
  | .evcTableWrite r v => Sys2Proof.Machine.execEvcTableWrite r v s
  | .msixModerationExpire h v => Sys2Proof.Machine.execMsixModerationExpire h v s
  | .msixUnmask h v => Sys2Proof.Machine.execMsixUnmask h v s
  | .eoi h v => Sys2Proof.Machine.execEoi h v s
  | .hostReadTimeout h => Sys2Proof.Machine.execHostReadTimeout h s
  | .hostLinkDown h => Sys2Proof.Machine.execHostLinkDown h s
  | .mbxOpen ep => Sys2Proof.Machine.execMbxOpen ep s
  | .mbxClose ep => Sys2Proof.Machine.execMbxClose ep s
  | .mbxKeep ep => Sys2Proof.Machine.execMbxKeep ep s
  | .mbxSessionTimeout => Sys2Proof.Machine.execMbxSessionTimeout s
  | .timerSourceEvent r t => Sys2Proof.Machine.execTimerSourceEvent r t s
  | .timerCaptureEdge r t => Sys2Proof.Machine.execTimerCaptureEdge r t s
  | .timerRun r t run => Sys2Proof.Machine.execTimerRun r t run s
  | .timerClr r t run => Sys2Proof.Machine.execTimerClr r t run s
  | .capnow r t run => Sys2Proof.Machine.execCapnow r t run s
  | .timerCapPop r t => Sys2Proof.Machine.execTimerCapPop r t s
  | .pinEdge n level => Sys2Proof.Machine.execPinEdge n level s
  | .pmMatch m => Sys2Proof.Machine.execPmMatch m s
  | .bankV k v18 => Sys2Proof.Machine.execBankV k v18 s
  | .kpinXor c v => Sys2Proof.Machine.execKpinXor c v s
  | .flashRead m => Sys2Proof.Machine.execFlashRead m s
  | .flashProgram m => Sys2Proof.Machine.execFlashProgram m s
  | .flashErase m => Sys2Proof.Machine.execFlashErase m s
  | .fldone => Sys2Proof.Machine.execFldone s
  | .otpProgram m slot => Sys2Proof.Machine.execOtpProgram m slot s
  | .otpRevoke m slot => Sys2Proof.Machine.execOtpRevoke m slot s
  | .otpdone => Sys2Proof.Machine.execOtpdone s
  | .attestGo => Sys2Proof.Machine.execAttestGo s
  | .atdone => Sys2Proof.Machine.execAtdone s
  | .boWarn rg mv => Sys2Proof.Machine.execBoWarn rg mv s
  | .boClear rg mv elapsed tr => Sys2Proof.Machine.execBoClear rg mv elapsed tr s
  | .boReset rg mv => Sys2Proof.Machine.execBoReset rg mv s
  | .warm src => Sys2Proof.Machine.execWarm src s
  | .svcrst src => Sys2Proof.Machine.execSvcrst src s
  | .hstby h src => Sys2Proof.Machine.execHstby h src s
  | .wake h elapsed tr src => Sys2Proof.Machine.execWake h elapsed tr src s
  | .dim src => Sys2Proof.Machine.execDim src s
  | .undim src => Sys2Proof.Machine.execUndim src s
  | .pwrClr m mask => Sys2Proof.Machine.execPwrClr m mask s
  | .throttle t => Sys2Proof.Machine.execThrottle t s
  | .hot rg t => Sys2Proof.Machine.execHot rg t s
  | .blockReset rg pg => Sys2Proof.Machine.execBlockReset rg pg s
  | .clockGate rg pg enable => Sys2Proof.Machine.execClockGate rg pg enable s
  | .commitReq rg pg group bound => Sys2Proof.Machine.execCommitReq rg pg group bound s
  | .commitCancel rg pg group bound => Sys2Proof.Machine.execCommitCancel rg pg group bound s
  | .pgLockWrite m rg pg v => Sys2Proof.Machine.execPgLockWrite m rg pg v s
  | .registerWrite m a data => Sys2Proof.Machine.execRegisterWrite m a data s
  | .interpolatedAngleAdvance h b => Sys2Proof.Machine.execInterpolatedAngleAdvance h b s
  | .pllLoss h => Sys2Proof.Machine.execPllLoss h s
  | .lockLost c => Sys2Proof.Machine.execLockLost c s
  | .hostLinkUp h speed width => Sys2Proof.Machine.execHostLinkUp h speed width s
  | .throttleClear t => Sys2Proof.Machine.execThrottleClear t s
  | .mirrorRecordReceive h p => Sys2Proof.Machine.execMirrorRecordReceive h p s
  | .ctrlReset h => Sys2Proof.Machine.execCtrlReset h s
  | .ref2x h ch temp => Sys2Proof.Machine.execRef2x h ch temp s
  | .rcRead m a => Sys2Proof.Machine.execRcRead m a s
  | .lowWordRead m a => Sys2Proof.Machine.execLowWordRead m a s

end Sys2Proof.Machine
end

