-- ==== Sys2Proof/WellFormed.lean ====
section
/-!
DEFINITION. Which commands are well formed: they name a unit that the part has (chapters 10 and 15) and carry data of a length that
the link, the drive or the bus can deliver. Every meaning is total: it gives a next state for an ill-formed command too.
-/
namespace Sys2Proof

/-- Does the core exist: 20 in each half, 8 in the service region (R273)? -/
def coreOk (r : Fin 3) (c : Fin 20) : Bool := r.val ≠ 2 || decide (c.val < 8)
/-- Does the DMA channel exist: 16 in each half, 8 in the service region (R368)? -/
def dmaOk (r : Fin 3) (c : Fin 16) : Bool := r.val ≠ 2 || decide (c.val < 8)
/-- A block of the drive holds 4,096 bytes (R342). -/
def blockOk (b : List Byte) : Bool := decide (b.length = 4096)
/-- An access carries at least one byte, and no more than a host transaction can (R433). -/
def accessOk (data : List Byte) : Bool := decide (0 < data.length) && decide (data.length ≤ 4096)

/-- Is a command well formed? -/
def Instr.wf : Instr → Bool
  | .refereePowerOn _ _ => true
  | .memoryFillDone _ => true
  | .halfInitComplete => true
  | .initTimeout _ => true
  | .tbTick _ => true
  | .tbCompare _ _ => true
  | .beamInputEdge _ _ _ _ _ _ => true
  | .beamStallTimeout _ _ => true
  | .beamCommitSwap _ => true
  | .beamResync _ _ => true
  | .predReq _ => true
  | .predDone _ => true
  | .replicaSnapshot _ => true
  | .rowTrigger _ _ _ _ => true
  | .renderStart _ _ => true
  | .lineFillReturn _ _ _ _ _ => true
  | .renderComplete _ _ _ => true
  | .gatherStart _ _ _ => true
  | .gatherComplete _ _ => true
  | .sealCompute _ => true
  | .rowRecordWrite _ _ _ => true
  | .tcinvAll _ _ => true
  | .tcinvRange _ _ => true
  | .tcinvDone _ _ => true
  | .mcinvAll _ _ => true
  | .mcinvRange _ _ => true
  | .mcinvDone _ _ => true
  | .arm _ _ _ => true
  | .hold _ _ _ _ => true
  | .resume _ _ _ _ => true
  | .stop _ _ _ _ => true
  | .abort _ _ _ => true
  | .rowCmdReserved _ _ _ => true
  | .drainingComplete _ _ _ => true
  | .rowBindWrite _ _ _ _ => true
  | .rowHistoryWrite _ _ _ _ _ => true
  | .rowRidxWrite _ _ _ _ => true
  | .mawIdxWrite _ _ _ _ => true
  | .mawEntryWrite _ _ _ _ => true
  | .beamStateMarker _ _ _ _ _ => true
  | .beamDisabledCancel _ _ => true
  | .reverseDirectionMarker _ _ _ => true
  | .reverseTrigger _ _ _ _ => true
  | .forwardDirectionMarker _ _ _ => true
  | .cancelScanComplete _ _ => true
  | .hrnTwDataWrite _ _ => true
  | .hrnValidationDone _ => true
  | .hrnCopyDone _ => true
  | .aeqCntLatch _ _ => true
  | .expired _ _ => true
  | .queueUe _ _ => true
  | .frameBoundary _ _ _ _ => true
  | .mirrorConfirm _ _ => true
  | .mirrorLate _ _ => true
  | .audTimer _ _ => true
  | .hbTimer _ _ => true
  | .receiverLock _ _ => true
  | .hbReceive _ _ _ _ _ _ _ _ _ _ _ _ => true
  | .ackReceive _ _ _ _ _ _ => true
  | .crdReceive _ _ _ _ _ => true
  | .stsReceive _ _ _ _ _ _ _ reports => decide (reports.length ≤ 32)
  | .mgtResponseReceive _ _ _ _ _ _ _ _ _ data => decide (data.length ≤ 16)
  | .mgtGo _ _ _ => true
  | .mgtTimeout _ _ => true
  | .retransmitTimeout _ _ => true
  | .trainingTimeout _ _ => true
  | .trainingRetry _ _ => true
  | .linkDown _ _ => true
  | .sealRecordReceive _ => true
  | .sealTmo _ _ => true
  | .faultReport => true
  | .faultReportDequeue => true
  | .commonModeTimeout => true
  | .selfCheckWord _ => true
  | .selfCheckTimeout _ => true
  | .fenceConfirm _ _ => true
  | .fenceTimeout _ _ => true
  | .reissue _ => true
  | .autorejoinTimeout _ _ _ => true
  | .release _ _ _ _ => true
  | .rejoin _ _ _ _ _ _ => true
  | .rejoinCopyDone => true
  | .handover _ _ _ => true
  | .stopClear _ _ _ => true
  | .flogClear _ _ _ => true
  | .mbxReservedRequest _ _ _ => true
  | .cxpLineMarker _ _ _ _ _ _ => true
  | .loupeRowTimeout _ _ => true
  | .expectedRowArrive _ _ => true
  | .loupeRenderRequest _ _ => true
  | .defectRecordWritten _ _ => true
  | .travelTrigger _ _ => true
  | .cxpControlRx _ _ _ _ _ => true
  | .cxpCtltxWrite _ _ _ => true
  | .cxpCtlrxRead _ _ => true
  | .cxpLinkUp _ _ => true
  | .cxpLinkDown _ _ _ => true
  | .cxpFifoOverflow _ _ => true
  | .lpeTableWrite _ _ _ _ => true
  | .lpeBankCopyDone _ _ => true
  | .lpeRingRdWrite _ _ _ => true
  | .lpeTlogWrite _ _ _ _ => true
  | .add r c _ _ => coreOk r c
  | .adc r c _ _ => coreOk r c
  | .sub r c _ _ => coreOk r c
  | .sbc r c _ _ => coreOk r c
  | .and r c _ _ => coreOk r c
  | .or r c _ _ => coreOk r c
  | .xor r c _ _ => coreOk r c
  | .mov r c _ _ => coreOk r c
  | .cmp r c _ _ => coreOk r c
  | .tst r c _ _ => coreOk r c
  | .addi r c _ _ _ => coreOk r c
  | .movi r c _ _ _ => coreOk r c
  | .cmpi r c _ _ _ => coreOk r c
  | .neg r c _ => coreOk r c
  | .not r c _ => coreOk r c
  | .mul r c _ _ => coreOk r c
  | .mulhu r c _ _ => coreOk r c
  | .divu r c _ _ => coreOk r c
  | .divs r c _ _ => coreOk r c
  | .remu r c _ _ => coreOk r c
  | .rems r c _ _ => coreOk r c
  | .shl r c _ _ => coreOk r c
  | .shr r c _ _ => coreOk r c
  | .sar r c _ _ => coreOk r c
  | .ror r c _ _ => coreOk r c
  | .shli r c _ _ => coreOk r c
  | .shri r c _ _ => coreOk r c
  | .sari r c _ _ => coreOk r c
  | .rori r c _ _ => coreOk r c
  | .par r c _ => coreOk r c
  | .brev r c _ => coreOk r c
  | .brevn r c _ _ => coreOk r c
  | .swpb r c _ => coreOk r c
  | .sxb r c _ => coreOk r c
  | .crc r c _ => coreOk r c
  | .ld r c _ _ _ _ => coreOk r c
  | .st r c _ _ _ => coreOk r c
  | .ldp r c _ _ _ _ => coreOk r c
  | .stp r c _ _ _ => coreOk r c
  | .bcc r c _ _ _ => coreOk r c
  | .jr r c _ => coreOk r c
  | .callr r c _ _ => coreOk r c
  | .loop r c _ _ _ => coreOk r c
  | .nop r c => coreOk r c
  | .reti r c => coreOk r c
  | .waitrow r c _ => coreOk r c
  | .waitangle r c _ => coreOk r c
  | .waitevt r c _ _ => coreOk r c
  | .waitrowComplete r c => coreOk r c
  | .waitangleComplete r c => coreOk r c
  | .waitevtComplete r c => coreOk r c
  | .waitTimeout r c => coreOk r c
  | .rep r c _ _ => coreOk r c
  | .movs r c _ => coreOk r c
  | .fills r c _ => coreOk r c
  | .cmps r c _ => coreOk r c
  | .scans r c _ _ => coreOk r c
  | .crcs r c _ => coreOk r c
  | .cust r c _ _ _ _ => coreOk r c
  | .illegal r c => coreOk r c
  | .interruptEntry r c => coreOk r c
  | .farReadResponse r c _ => coreOk r c
  | .farerr r c _ _ => coreOk r c
  | .farSync r c => coreOk r c
  | .ktbLoad r c => coreOk r c
  | .mailboxSend r c _ => coreOk r c
  | .mailboxDeliver r c _ _ => coreOk r c
  | .mailboxPop r c => coreOk r c
  | .hostMailboxPush r c _ => coreOk r c
  | .hostMailboxPop r c => coreOk r c
  | .kxcHmbinWrite r c _ => coreOk r c
  | .kxcHmboutRead r c => coreOk r c
  | .kwdogReload r c _ => coreOk r c
  | .watchdogExpire r c => coreOk r c
  | .kxcRun r c => coreOk r c
  | .kxcHalt r c => coreOk r c
  | .kxcStep r c => coreOk r c
  | .creset r c => coreOk r c
  | .pmwWrite r c _ => coreOk r c
  | .ucsWindowWrite _ _ _ _ _ => true
  | .ueFetch _ _ _ => true
  | .scrubSramRead _ _ => true
  | .scrubDramRead _ _ _ => true
  | .eccWriteback => true
  | .bucketLeak _ _ => true
  | .scbEsrcPop _ => true
  | .eccLogClear _ _ => true
  | .caParityError _ _ _ _ => true
  | .map _ _ _ _ => true
  | .unmap _ => true
  | .load _ => true
  | .drop _ => true
  | .remount _ _ b0 b1 => blockOk b0 && blockOk b1
  | .mapReservedOp _ => true
  | .mapRej _ _ => true
  | .driveMount _ _ _ b0 b1 => blockOk b0 && blockOk b1
  | .pageAheadRequest _ => true
  | .nvmeReadIssue _ => true
  | .pageArrive _ _ data => decide (data.length = 65536)
  | .cmdTmo _ _ => true
  | .nvmeCompletion _ _ => true
  | .logBlockSubmit _ => true
  | .fwDoorbell _ _ _ _ => true
  | .dmaStart r c => dmaOk r c
  | .dmaDoorbell r c => dmaOk r c
  | .dmaStop r c => dmaOk r c
  | .descriptorFetch r c => dmaOk r c
  | .descriptorComplete r c _ _ => dmaOk r c
  | .descriptorReread r c => dmaOk r c
  | .dmaTimeout r c _ _ _ => dmaOk r c
  | .dmaLatch r c => dmaOk r c
  | .latchPoint _ => true
  | .l7Refresh _ => true
  | .reflat _ => true
  | .cameraViewLine _ _ _ => true
  | .wbDone _ => true
  | .wbDrop _ _ => true
  | .rasterStart _ => true
  | .underrun _ _ => true
  | .compatLineFetch _ _ => true
  | .dsiCommandWrite _ => true
  | .dsiCommandSend => true
  | .cmdDone data => decide (data.length ≤ 16)
  | .dsiResponseTimeout => true
  | .teEdge => true
  | .teMiss => true
  | .bltGo _ _ _ => true
  | .bltAbort => true
  | .bltComplete _ => true
  | .bltTimeout _ => true
  | .audioSamplePeriod _ => true
  | .zcTmo _ _ _ => true
  | .audioFrameReceive _ slots => decide (slots.length ≤ 16)
  | .audioFrameSync _ => true
  | .keyon _ => true
  | .keyoff _ => true
  | .audPlatch _ => true
  | .evcTableWrite _ _ => true
  | .msixModerationExpire _ _ => true
  | .msixUnmask _ _ => true
  | .eoi _ _ => true
  | .hostReadTimeout _ => true
  | .hostLinkDown _ => true
  | .mbxOpen _ => true
  | .mbxClose _ => true
  | .mbxKeep _ => true
  | .mbxSessionTimeout => true
  | .timerSourceEvent _ _ => true
  | .timerCaptureEdge _ _ => true
  | .timerRun _ _ _ => true
  | .timerClr _ _ _ => true
  | .capnow _ _ _ => true
  | .timerCapPop _ _ => true
  | .pinEdge _ _ => true
  | .pmMatch _ => true
  | .bankV _ _ => true
  | .kpinXor _ _ => true
  | .flashRead _ => true
  | .flashProgram _ => true
  | .flashErase _ => true
  | .fldone => true
  | .otpProgram _ _ => true
  | .otpRevoke _ _ => true
  | .otpdone => true
  | .attestGo => true
  | .atdone => true
  | .boWarn _ _ => true
  | .boClear _ _ _ _ => true
  | .boReset _ _ => true
  | .warm _ => true
  | .svcrst _ => true
  | .hstby _ _ => true
  | .wake _ _ _ _ => true
  | .dim _ => true
  | .undim _ => true
  | .pwrClr _ _ => true
  | .throttle _ => true
  | .hot _ _ => true
  | .blockReset _ _ => true
  | .clockGate _ _ _ => true
  | .commitReq _ _ _ _ => true
  | .commitCancel _ _ _ _ => true
  | .pgLockWrite _ _ _ _ => true
  | .registerWrite _ _ data => accessOk data
  | .interpolatedAngleAdvance _ _ => true
  | .pllLoss _ => true
  | .lockLost _ => true
  | .hostLinkUp _ _ _ => true
  | .throttleClear _ => true
  | .mirrorRecordReceive _ _ => true
  | .ctrlReset _ => true
  | .ref2x _ _ _ => true
  | .rcRead _ _ => true
  | .lowWordRead _ _ => true

end Sys2Proof
end

