-- ==== Sys2Proof/Safety.lean ====
section
/-!
DEFINITION. What counts as a sound state and a safe step, in the terms that claims use: the canonical form of memory, the commands
that are acts of the referee's sequencer (R18), and what a step leaves.
-/
namespace Sys2Proof.Machine

open Sys2Proof

/-- Memory is in its canonical form: addresses strictly rising, no listed byte equal to what an unlisted one reads as. -/
def Memory.wf (m : Mem) : Bool := SMap.wf memFill m
/-- A sound state: memory is in its canonical form. -/
def State.sound (s : State) : Bool := Memory.wf s.mem
/-- A step is safe when it answers a next state. -/
def safeStep (s : State) : Bool :=
  match step s with
  | .next _ => true
  | _ => false
/-- The state after a step; a step that stops leaves the state as it was. -/
def after (s : State) : State :=
  match step s with
  | .next t => t
  | _ => s

/-! ### Frames: what a command leaves as it was -/

/-- The devices with everything that writing registers and raising events may change blanked: two devices that agree here have
the same beams, engines, queues, ports, pipes, cores and every other unit state. -/
def Dev.quiet (d : Dev) : Dev := { d with regs := [], lines := [], kip := [], msix := [], inService := [], lastMsg := [] }
/-- A register of event delivery: PG_EVT_RAW and PG_EVT_PEND of a page (R426), and the pending words of an endpoint's vectors
(R431). -/
def evReg (k : Nat) : Bool :=
  k % 0x100000 = 0x014 || k % 0x100000 = 0x01C || ((k / 0x100000 = pageOf 0 .hif 0 || k / 0x100000 = pageOf 1 .hif 0) && (k % 0x100000 = 0xBF0 || k % 0x100000 = 0xBF4))
/-- Every active register but those at `keys` and those of event delivery reads as before. -/
def Dev.regsKept (keys : List Nat) (d d' : Dev) : Prop :=
  ∀ k, k ∉ keys → evReg k = false → SMap.get regReset d'.regs k = SMap.get regReset d.regs k
/-- Nothing of the devices but the registers at `keys` and event delivery changed. -/
def Dev.onlyRegs (keys : List Nat) (d d' : Dev) : Prop := d'.quiet = d.quiet ∧ d.regsKept keys d'
/-- Event `n` of a page stands in PG_EVT_RAW and PG_EVT_PEND (R426). -/
def Dev.raised (d : Dev) (l : Loc) (n : Nat) : Prop := bit (d.rd l 0x014).toNat n = true ∧ bit (d.rd l 0x01C).toNat n = true
/-- The block of page `l` in half `h` runs: the half is neither frozen, off nor in standby, and the block's clock is on (R220,
R481). -/
def State.awake (s : State) (h : Half) (l : Loc) : Prop := s.ref.live h = true ∧ s.dev.clocked l = true
/-- No half takes the register writes of half `h` over (R221 step 3). -/
def State.sole (s : State) (h : Half) : Prop := s.ref.rejoinerOf h = none
/-- The same for the writes to a page of region `r`: the service region's are no half's. -/
def State.soleR (s : State) (r : Nat) : Prop := r < 2 → s.sole (Half.ofRegion r)
/-- No word that `n` bytes at `a` touch is uncorrectable, waits for a write-back or lost its command (R325, R331): the code does nothing there. -/
def Dev.cleanAt (d : Dev) (a n : Nat) : Prop :=
  d.ceIn a n = [] ∧ ∀ w, a / 8 ≤ w → w ≤ (a + n - 1) / 8 → w ∉ d.ueLines ∧ w ∉ d.caBad
/-- No memory error stands or waits and no page is being loaded: an access to memory does nothing beside what it reads or writes (R325, R331,
R351). -/
def Dev.calm (d : Dev) : Prop := d.ueLines = [] ∧ d.caBad = [] ∧ d.ceWords = [] ∧ ∀ h, (d.nvh h).out = []
/-- `n` bytes from `a` lie in DRAM, or in frame SRAM outside the L7 range: a write of the Prism lands there and nowhere else (R25, R377). -/
def Dev.surfaceAt (d : Dev) (a n : Nat) : Prop := a + n ≤ 2 ^ 36 ∨ (0x1102000000 ≤ a ∧ a + n ≤ 0x1103000000 ∧ ∀ i, i < n → d.inL7 (a + i) = false)
/-- A block of the service region runs: the region is released and the block's clock is on. -/
def State.served (s : State) (l : Loc) : Prop := s.dev.svcUp = true ∧ s.dev.clocked l = true

/-! ### A Kuxon core's step -/

/-- Core `c` of region `r` can issue a unit now and program memory at its PC holds `ws`, none of it uncorrectable (R281). -/
def State.issues (s : State) (r c : Nat) (ws : List Nat) : Prop :=
  s.kready r c = true ∧ s.dev.fetchUnit r c 0 ws = .here
/-- R285: the PC moves past a unit of `len` words, but for the last word of the loop body with LA = 1, where KLC counts. Bit `i` of KSTAT
is kept for every `i` in 0 to 15 outside `flags`. -/
def Kux.went (k k' : Kux) (len : Nat) (flags : List Nat) : Prop :=
  (∀ i, i < 16 → i ≠ 9 → i ∉ flags → k'.st i = k.st i) ∧
  (if k.st 9 = true ∧ (k.pc + len - 1) % 2 ^ 14 = k.cw 0x11 then
    (k.cw 0x12 ≠ 1 → k'.pc = k.cw 0x10 % 2 ^ 14 ∧ k'.st 9 = true ∧ k'.cw 0x12 = (k.cw 0x12 + 65535) % 65536) ∧
    (k.cw 0x12 = 1 → k'.pc = (k.pc + len) % 2 ^ 14 ∧ k'.st 9 = false ∧ k'.cw 0x12 = 0)
  else k'.pc = (k.pc + len) % 2 ^ 14 ∧ k'.st 9 = k.st 9 ∧ k'.cw 0x12 = k.cw 0x12)
/-- R283: entry to the handler `ix` words from the vector base: KEPC and KESTAT save the PC and KSTAT, IE and LA are 0, INH is 1. -/
def Kux.entered (k k' : Kux) (ix : Nat) : Prop :=
  k'.pc = (k.cw 0x04 + ix) % 2 ^ 14 ∧ k'.cw 0x05 = k.pc % 65536 ∧ k'.cw 0x06 = k.cw 0x01 ∧ k'.st 8 = false ∧ k'.st 9 = false ∧
    k'.st 11 = true ∧ (∀ i, i < 8 → k'.st i = k.st i) ∧ (∀ i, i < 16 → k'.reg i = k.reg i)
/-- What a core keeps whatever it computes: everything but registers, control space, PC, a STEP in progress and the watchdog's count. -/
def Kux.rest (k : Kux) : Kux := { k with k := [], ctl := [], pc := 0, stepping := false, wdogRan := 0, wdogFrom := 0 }
/-- Nothing outside core `c` of region `r` and the registers of its page at `keys` changed. -/
def State.coreOnly (s t : State) (r c : Nat) (keys : List Nat) : Prop :=
  t.ref = s.ref ∧ t.pending = s.pending ∧ { t.dev.quiet with kux := [] } = { s.dev.quiet with kux := [] } ∧ s.dev.regsKept keys t.dev ∧
    (∀ j, j ≠ r * 32 + c → SMap.get (fun _ => ({} : Kux)) t.dev.kux j = SMap.get (fun _ => {}) s.dev.kux j)
/-- A unit of `len` words ran: the registers outside `rds`, the KSTAT bits outside `flags` and the control words but KLC and those in `cws`
are as they were, and so is everything that is not the core's; the core runs on, or has halted where a STEP was in progress (R281). -/
def State.ran (s t : State) (r c len : Nat) (rds flags : List Nat) (cws : List Nat := []) : Prop :=
  s.coreOnly t r c [kxcL r c + KXC_STAT.STATE.off, kxcL r c + KXC_PC.PC.off] ∧ (s.dev.kx r c).went (t.dev.kx r c) len flags ∧
    (∀ i, i < 16 → i ∉ rds → (t.dev.kx r c).reg i = (s.dev.kx r c).reg i) ∧
    (∀ w, w ≠ 0x01 → w ≠ 0x12 → w ∉ cws → (t.dev.kx r c).cw w = (s.dev.kx r c).cw w) ∧ (t.dev.kx r c).rest = (s.dev.kx r c).rest ∧
    t.dev.kstate r c = (if (s.dev.kx r c).stepping then ksHalted else ksRun)
/-- A result in register `rd`, with Z and N from it (R297). -/
def Kux.holds (k : Kux) (rd : Nat) (v : BitVec 16) : Prop := k.reg rd = v.toNat ∧ k.st 0 = (v == 0) ∧ k.st 1 = v.msb
/-- A core's word as bits. -/
def Kux.b16 (k : Kux) (i : Nat) : BitVec 16 := BitVec.ofNat 16 (k.reg i)

/-! ### DMA (chapter 15) -/

/-- The DMA page of region `r` acts on channel `c`: it has that channel, its region runs and so does its clock. -/
def State.channel (s : State) (r : Fin 3) (c : Fin 16) : Prop := c.val < dmaCount r ∧ s.regionOn r = true ∧ s.dev.clocked (dmaL r) = true
/-- The `n` bytes from `a` are populated DRAM that answers, and region `rg` may write them (R25, R220, R332). -/
def State.plain (s : State) (rg a n : Nat) : Prop :=
  a + n ≤ 2 ^ 36 ∧ ∀ i, i < n → s.dev.backed (a + i) = true ∧ shutMem s.ref s.dev (rg + 1) (a + i) = false
/-- Nothing but channel `c` of region `r`, the registers at `keys` and event delivery changed. -/
def State.channelOnly (s t : State) (r c : Nat) (keys : List Nat) : Prop :=
  t.ref = s.ref ∧ t.pending = s.pending ∧ { t.dev.quiet with dmas := [] } = { s.dev.quiet with dmas := [] } ∧ s.dev.regsKept keys t.dev ∧
    (∀ j, j ≠ r * 16 + c → SMap.get (fun _ => ({} : DmaCh)) t.dev.dmas j = SMap.get (fun _ => {}) s.dev.dmas j)
/-- R365: every descriptor taken is counted in DONE or FAIL, or its data is being moved; outside RUN nothing is in progress. -/
def Dev.channelSound (d : Dev) (r c : Nat) : Prop :=
  (d.dmaState r c ≠ dmaRun → (d.dma r c).phase = .none) ∧
    (d.dma r c).taken % 2 ^ 32 = ((d.dma r c).done + (d.dma r c).fail + (match (d.dma r c).phase with | .move _ => 1 | _ => 0)) % 2 ^ 32

/-! ### Audio ports (chapter 19) -/

/-- R421: every frame of port `p` is taken or sent, dropped, or in the FIFO. -/
def Audio.portSound (a : Audio) (p : Nat) : Prop :=
  (a.port p).rx % 2 ^ 32 = ((a.port p).taken + (a.port p).drops + (a.port p).fifo.length) % 2 ^ 32
/-- Nothing but the acoustic unit, the registers at `keys` and event delivery changed. -/
def State.audioOnly (s t : State) (keys : List Nat) : Prop :=
  t.ref = s.ref ∧ t.mem = s.mem ∧ t.pending = s.pending ∧ { t.dev.quiet with aud := {} } = { s.dev.quiet with aud := {} } ∧ s.dev.regsKept keys t.dev

/-! ### The referee's authority -/

/-- What the referee keeps that only its own sequencer changes (R18, R210, R212): half states, epoch, split operation. -/
def Referee.authority (r : Referee) : HalfState × HalfState × Nat × Bool := (r.hsA, r.hsB, r.epoch, r.split)
/-- Table 08.6: what a decision that accuses half `h` leaves of the referee, by the state of `h`. A takeover has begun when the fence of
`h` is asserted and the action waits for it (R213, R217). -/
def Referee.decided (r r' : Referee) (h : Half) : Prop :=
  match r.hs h with
  | .standby => r'.hs h = .quarantine ∧ r'.hs h.peer = r.hs h.peer ∧ r'.epoch = r.epoch ∧ r'.reissue h.peer = true
  | .charge =>
    if r.hs h.peer = .standby ∧ r.noEpoch = false then
      r'.authority = r.authority ∧ r'.fence h = true ∧ ∃ v rule el, r'.act = .takeover v h rule el
    else r'.hs h = .quarantine ∧ r'.hs h.peer = r.hs h.peer ∧ r'.epoch = r.epoch ∧ r'.stopA = true ∧ r'.stopB = true
  | .rejoining => r'.hs h = .quarantine ∧ r'.hs h.peer = r.hs h.peer ∧ r'.epoch = r.epoch ∧ r'.rjHalf = none
  | .split => r'.hs h = .quarantine ∧ r'.hs h.peer = r.hs h.peer ∧ r'.epoch = r.epoch ∧
      r'.stopA = (r.stopA || h == .A) ∧ r'.stopB = (r.stopB || h == .B)
  | _ => r'.authority = r.authority
/-- The commands by which the referee's sequencer may change what it keeps: power and reset, the end of INIT, votes and decisions, the
end of a fence, RELEASE and REJOIN, the steps of a rejoin, the seal comparison of an observed half, WAKE, and a register write that is a request through a mailbox. -/
def Instr.refereeActs : Instr → Bool
  | .refereePowerOn .. => true
  | .halfInitComplete => true
  | .initTimeout .. => true
  | .tbCompare .. => true
  | .faultReport => true
  | .faultReportDequeue => true
  | .commonModeTimeout => true
  | .selfCheckWord .. => true
  | .selfCheckTimeout .. => true
  | .fenceConfirm .. => true
  | .autorejoinTimeout .. => true
  | .release .. => true
  | .rejoin .. => true
  | .rejoinCopyDone => true
  | .sealCompute .. => true
  | .sealRecordReceive .. => true
  | .sealTmo .. => true
  | .boClear .. => true
  | .boReset .. => true
  | .wake .. => true
  | .registerWrite m _ _ =>
    match m with
    | .mailbox _ => true
    | _ => false
  | _ => false

end Sys2Proof.Machine
end

