-- ==== Sys2Proof/Certificates/Slice0/Obligations.lean ====
section
/-!
DEFINITION. The statements made of the model, for the provers: chapter by chapter of the manual, each over every state and operand that meets
its hypotheses.
-/

open Sys2Proof Sys2Proof.Machine

/-! ### The machine as a whole -/

/-- A step takes the command at the front of the queue and answers what its meaning answers on the state with the queue's rest; it puts nothing else
around it. With an empty queue the block idles (notes/assumptions/2.md). -/
def Obligations.StepRunsTheFrontCommand : Prop :=
  ∀ (s : State) (c : Instr) (rest : List Instr),
    step { s with pending := c :: rest } = exec c { s with pending := rest } ∧ step { s with pending := [] } = .next { s with pending := [] }

/-- Every command has an effect: from every state a step answers a next state, whose queue is the rest of the queue. No command faults, none is
refused. -/
def Obligations.EveryStepAnswersANextState : Prop :=
  ∀ s : State, ∃ t, step s = .next t ∧ t.pending = s.pending.drop 1

/-- Every step keeps memory in its canonical form: strictly rising addresses, no listed byte equal to what an unlisted address reads as. -/
def Obligations.EveryStepKeepsMemoryCanonical : Prop :=
  ∀ (s t : State), s.sound = true → step s = .next t → t.sound = true

/-- R18, R210, R212: the half states, the charge epoch and the split mode change by the referee's own sequencer alone: no register write, no core, no
DMA channel, no host access and no other block's act changes them. -/
def Obligations.OnlyTheRefereeMovesCharge : Prop :=
  ∀ (s t : State) (c : Instr), Machine.Instr.refereeActs c = false → exec c s = .next t → t.ref.authority = s.ref.authority

/-- R210, R211, R217, R225: at most one half is in CHARGE, after every step from a state where that holds. -/
def Obligations.AtMostOneHalfIsInCharge : Prop :=
  ∀ (s t : State), ¬ (s.ref.hsA = .charge ∧ s.ref.hsB = .charge) → step s = .next t → ¬ (t.ref.hsA = .charge ∧ t.ref.hsB = .charge)

/-- R211, R212, R476, Table 25.1, and the model's choices of notes/assumptions/3.md, 18.md and 93.md: after reset memory is canonical and reads 0, both halves are OFF, no command waits, every page shows
its type, its instance and the capabilities of its chapter, its clock is on, no event is raised and no request armed, and every shadow set equals
its active set. -/
def Obligations.ResetLeavesTheResetValues : Prop :=
  State.reset.sound = true ∧ State.reset.pending = [] ∧ State.reset.ref.hsA = .off ∧ State.reset.ref.hsB = .off ∧
    ¬ (State.reset.ref.hsA = .charge ∧ State.reset.ref.hsB = .charge) ∧ (∀ a, State.reset.mem.byte a = 0) ∧
    (∀ p row i, pageRowOf p = some (row, i) →
      let l := locOf p
      State.reset.dev.g l PG_ID.TYPE = row.type ∧ State.reset.dev.g l PG_ID.INSTANCE = i ∧ State.reset.dev.g l PG_ID.LAYOUT = 1 ∧
        (State.reset.dev.rd l 0x004).toNat = row.cap ∧ State.reset.dev.clocked l = true ∧ State.reset.dev.rd l 0x014 = 0 ∧ State.reset.dev.rd l 0x01C = 0 ∧
        State.reset.dev.armed p = false ∧ State.reset.dev.g l PG_SEQ.WRITES = 0) ∧
    (∀ l off, State.reset.dev.rdS l off = State.reset.dev.rd l off) ∧
    (∀ r c, State.reset.dev.kx r c = {}) ∧ (∀ h b, State.reset.dev.beam h b = {}) ∧ State.reset.dev.reports = [] ∧ State.reset.dev.svcUp = false

/-! ### Chapter 02: time base and beam unit -/

/-- R29, R61, R63: a tick advances the time base of its half by one and no other, broadcasts the four beams' positions and speeds, and
on an even tick hands over the eight oldest crossing records, while the others wait four sampling cycles more. Nothing else of the half's registers changes. -/
def Obligations.TickAdvancesTimeBaseAndBroadcastsBeams : Prop :=
  ∀ (s : State) (h : Half), s.ref.hs h ≠ .off → s.ref.sby h = false →
    ∃ t, exec (.tbTick h) s = .next t ∧ t.ref = s.ref ∧ t.mem = s.mem ∧ t.pending = s.pending ∧
      t.dev.tb h = (s.dev.tb h + 1) % 2 ^ 64 ∧ t.dev.tb h.peer = s.dev.tb h.peer ∧
      (∀ b, b < 4 →
        t.dev.g (hLoc h .beam) (BEAM_ANGLE.ANGLE.ix b) = ((s.dev.beam h b).pos % 2 ^ 32).toNat ∧
        t.dev.g (hLoc h .beam) (BEAM_REV.REV.ix b) = ((s.dev.beam h b).pos / 2 ^ 32 % 2 ^ 32).toNat ∧
        t.dev.g (hLoc h .beam) (BEAM_VEL.VEL.ix b) =
          fitS 32 (if (s.dev.beam h b).inHyst ∨ (s.dev.beam h b).state = .fault then 0 else (s.dev.beam h b).vel) ∧
        t.dev.g (hLoc h .beam) (BEAM_ACC.ACC.ix b) =
          fitS 32 (if (s.dev.beam h b).inHyst ∨ (s.dev.beam h b).state = .fault then 0 else (s.dev.beam h b).acc)) ∧
      (if (s.dev.tb h + 1) % 2 ^ 64 % 2 = 0 then t.dev.xl h = (s.dev.xq h).take 8 ∧ t.dev.xq h = ((s.dev.xq h).drop 8).map (fun x => { x with wait := x.wait + 4 })
        else t.dev.xl h = s.dev.xl h ∧ t.dev.xq h = s.dev.xq h) ∧
      s.dev.regsKept ((List.range 4).flatMap (fun b => [hLoc h .beam + 0x804 + 0x40 * b, hLoc h .beam + 0x808 + 0x40 * b,
        hLoc h .beam + 0x80C + 0x40 * b, hLoc h .beam + 0x810 + 0x40 * b])) t.dev

/-- R45: after `n` sampling cycles with levels `a`, `bb` and `z` at its lines, a line's accepted level is the sampled one exactly where it was so
before or the run of that level has come to FILT cycles. Each input edge command answers a next state and leaves memory and the referee alone.
R51: between edges, with no line change under way, the position of a beam that turns forward never moves back and never reaches the next edge;
the count stands. R55, R65: without an edge for STALL microseconds (200 sampling cycles each), and not before, a beam reports velocity 0 and
STOPPED. GO brings a beam in FAULT to SEEKING or SYNCED at the edge angle of its present count, with DIR kept and the extreme count at the
present count; GO to a beam that is not in FAULT does nothing. PG_SEQ counts the write. -/
def Obligations.BeamsFilterInterpolateAndStall : Prop :=
  (∀ (s : State) (h : Half) (b : Fin 4) (a bb z : Bool) (n : Nat), s.awake h (hLoc h .beam) →
     let took (x y : Line) (v : Bool) : Prop := y.acc = v ↔ (x.acc = v ∨ (0 < n ∧ s.dev.bg h b BEAM_CFG.FILT ≤ x.run + n))
     let x := s.dev.beam h b
     ∃ t, exec (.beamInputEdge h b a bb z n) s = .next t ∧ t.ref = s.ref ∧ t.mem = s.mem ∧ t.pending = s.pending ∧
       took x.lineA (t.dev.beam h b).lineA a ∧ took x.lineB (t.dev.beam h b).lineB bb ∧ took x.lineZ (t.dev.beam h b).lineZ z ∧
       (t.dev.beam h b).now = x.now + n) ∧
  (∀ (s : State) (h : Half) (b : Fin 4), s.awake h (hLoc h .beam) →
     (s.dev.beam h b).state ≠ .off → (s.dev.beam h b).dir = false →
     (s.dev.beam h b).lineA.raw = (s.dev.beam h b).lineA.acc → (s.dev.beam h b).lineB.raw = (s.dev.beam h b).lineB.acc →
     (s.dev.beam h b).lineZ.raw = (s.dev.beam h b).lineZ.acc →
     (s.dev.beam h b).aLast ≤ edgePos (s.dev.bg h b BEAM_CPR.CPR) ((s.dev.beam h b).u + 1) →
     (s.dev.beam h b).pos < edgePos (s.dev.bg h b BEAM_CPR.CPR) ((s.dev.beam h b).u + 1) →
     ∃ t, exec (.interpolatedAngleAdvance h b) s = .next t ∧ t.ref = s.ref ∧ t.mem = s.mem ∧
       (s.dev.beam h b).pos ≤ (t.dev.beam h b).pos ∧
       (t.dev.beam h b).pos < edgePos (s.dev.bg h b BEAM_CPR.CPR) ((s.dev.beam h b).u + 1) ∧
       (t.dev.beam h b).u = (s.dev.beam h b).u ∧ (t.dev.beam h b).dir = false) ∧
  ((∀ (s : State) (h : Half) (b : Fin 4), s.awake h (hLoc h .beam) → (s.dev.beam h b).now < (s.dev.beam h b).lastEdge + 200 * s.dev.bg h b BEAM_STALL.STALL →
     exec (.beamStallTimeout h b) s = .next s) ∧
   (∀ (s : State) (h : Half) (b : Fin 4), s.awake h (hLoc h .beam) → (s.dev.beam h b).lastEdge + 200 * s.dev.bg h b BEAM_STALL.STALL ≤ (s.dev.beam h b).now →
     ∃ t, exec (.beamStallTimeout h b) s = .next t ∧ t.ref = s.ref ∧ t.mem = s.mem ∧
       (t.dev.beam h b).vel = 0 ∧ (t.dev.beam h b).acc = 0 ∧ t.dev.on (hLoc h .beam) (BEAM_STATE.STOPPED.ix b) = true ∧
       (t.dev.beam h b).pos = (s.dev.beam h b).pos ∧ (t.dev.beam h b).state = (s.dev.beam h b).state) ∧
   (∀ (s : State) (h : Half) (b : Fin 4), s.awake h (hLoc h .beam) → s.sole h → (s.dev.beam h b).state = .fault →
     ∃ t, exec (.beamResync h b) s = .next t ∧ t.ref = s.ref ∧ t.mem = s.mem ∧
       (t.dev.beam h b).state = (if s.dev.bg h b BEAM_CFG.MODE = 0 ∧ s.dev.bg h b BEAM_CFG.IDX_EN = 1 then .seeking else .synced) ∧
       (t.dev.beam h b).pos = edgePos (s.dev.bg h b BEAM_CPR.CPR) (s.dev.beam h b).u ∧
       (t.dev.beam h b).u = (s.dev.beam h b).u ∧ (t.dev.beam h b).ext = (s.dev.beam h b).u ∧
       (t.dev.beam h b).dir = (s.dev.beam h b).dir ∧ (t.dev.beam h b).inHyst = false ∧ (t.dev.beam h b).edges = 0) ∧
   (∀ (s : State) (h : Half) (b : Fin 4), s.awake h (hLoc h .beam) → s.sole h → (s.dev.beam h b).state ≠ .fault →
     exec (.beamResync h b) s = .next { s with dev := s.dev.seq (hLoc h .beam) }))

/-- R56, R64: a request starts the prediction unit and a later one only sets OVERRUN; 40 cycles on, the result stands in its registers with
its flags and PRED_DONE is raised. A replica snapshot copies the last broadcast at a time base value that is a multiple of 400, and does nothing
at another. -/
def Obligations.PredictionsAndSnapshots : Prop :=
  (∀ (s : State) (h : Half), s.awake h (hLoc h .beam) → s.sole h → s.dev.on (hLoc h .beam) BEAM_PRED_CTL.BUSY = false →
    ∃ t, exec (.predReq h) s = .next t ∧ t.ref = s.ref ∧ t.mem = s.mem ∧
      t.dev.on (hLoc h .beam) BEAM_PRED_CTL.BUSY = true ∧ t.dev.on (hLoc h .beam) BEAM_PRED_STAT.OVERRUN = false ∧
      SMap.get (fun _ => {}) t.dev.preds h.n = s.dev.predict h (s.dev.g (hLoc h .beam) BEAM_PRED_CTL.BEAM)
        (s.dev.g (hLoc h .beam) BEAM_PRED_REV.REV) (s.dev.g (hLoc h .beam) BEAM_PRED_ANGLE.ANGLE) ∧
      s.dev.regsKept [hLoc h .beam + 0x03C, hLoc h .beam + 0x900, hLoc h .beam + 0x914] t.dev) ∧
  (∀ (s : State) (h : Half), s.awake h (hLoc h .beam) → s.sole h → s.dev.on (hLoc h .beam) BEAM_PRED_CTL.BUSY = true →
    exec (.predReq h) s = .next { s with dev := (s.dev.seq (hLoc h .beam)).p (hLoc h .beam) BEAM_PRED_STAT.OVERRUN 1 }) ∧
  (∀ (s : State) (h : Half), s.awake h (hLoc h .beam) → s.dev.on (hLoc h .beam) BEAM_PRED_CTL.BUSY = true →
    ∃ t, exec (.predDone h) s = .next t ∧ t.ref = s.ref ∧ t.mem = s.mem ∧
      t.dev.g64 (hLoc h .beam) BEAM_PRED_TLO.T BEAM_PRED_THI.T = (SMap.get (fun _ => ({} : Pred)) s.dev.preds h.n).time % 2 ^ 64 ∧
      t.dev.on (hLoc h .beam) BEAM_PRED_STAT.VALID = true ∧
      t.dev.on (hLoc h .beam) BEAM_PRED_STAT.STOPS_SHORT = (SMap.get (fun _ => ({} : Pred)) s.dev.preds h.n).short ∧
      t.dev.on (hLoc h .beam) BEAM_PRED_STAT.FAR = (SMap.get (fun _ => ({} : Pred)) s.dev.preds h.n).far ∧
      t.dev.on (hLoc h .beam) BEAM_PRED_STAT.COARSE = (SMap.get (fun _ => ({} : Pred)) s.dev.preds h.n).coarse ∧
      t.dev.on (hLoc h .beam) BEAM_PRED_STAT.NEVER = (SMap.get (fun _ => ({} : Pred)) s.dev.preds h.n).never ∧
      t.dev.on (hLoc h .beam) BEAM_PRED_CTL.BUSY = false ∧ t.dev.raised (hLoc h .beam) 25 ∧
      s.dev.regsKept [hLoc h .beam + 0x900, hLoc h .beam + 0x90C, hLoc h .beam + 0x910, hLoc h .beam + 0x914] t.dev) ∧
  (∀ (s : State) (h : Half), s.awake h (hLoc h .beam) → s.dev.tb h % 400 = 0 →
    ∃ t, exec (.replicaSnapshot h) s = .next t ∧ t.ref = s.ref ∧ t.mem = s.mem ∧ t.dev.regs = s.dev.regs ∧
      ∀ b, b < 4 → (t.dev.snap h b).tb = s.dev.tb h ∧ (t.dev.snap h b).angle = s.dev.g (hLoc h .beam) (BEAM_ANGLE.ANGLE.ix b) ∧
        (t.dev.snap h b).rev = s.dev.g (hLoc h .beam) (BEAM_REV.REV.ix b) ∧
        (t.dev.snap h b).vel = (if (s.dev.beam h b).bInHyst then 0 else s.dev.g (hLoc h .beam) (BEAM_VEL.VEL.ix b)) ∧
        (t.dev.snap h b).valid = decide ((s.dev.beam h b).bState = .synced)) ∧
  (∀ (s : State) (h : Half), s.awake h (hLoc h .beam) → s.dev.tb h % 400 ≠ 0 → exec (.replicaSnapshot h) s = .next s)

/-! ### Chapters 03 to 05: row engines, motifs, line programs and reversal -/

/-- R77, R78, R130: what the context commands do. ARM takes an IDLE context whose conditions hold to ARMED; HOLD, RESUME and STOP wait for their
boundary; ABORT takes any context but an IDLE one to IDLE and has its queued events scanned; a DRAINING context without events is IDLE; a command in a state that Table 03.2 does
not allow, and a reserved one, is rejected with CMD_REJ and changes nothing but the write count and the event. Memory and
the referee are untouched. -/
def Obligations.ContextCommandsFollowTheirStates : Prop :=
  ∀ (s : State) (h : Half) (e : Fin 8) (c : Fin 32), s.awake h (rowL h e) →
    (s.sole h → s.dev.armOk h e c = true → ∃ t, exec (.arm h e c) s = .next t ∧ t.ref = s.ref ∧ t.mem = s.mem ∧
      t.dev.cst h e c = .armed ∧ (t.dev.cx h e c).start = s.dev.g (cxL h e c) ROW_START.START ∧
      (t.dev.cx h e c).armgen = ((s.dev.cx h e c).armgen + 1) % 2 ^ 32 ∧
      t.dev.g (rowL h e) (ROW_HWM.H.ix c) = (s.dev.g (cxL h e c) ROW_START.START + 2 ^ 32 - 1) % 2 ^ 32 ∧
      (t.dev.eng h e).due = (s.dev.eng h e).due ∧ t.dev.chans = s.dev.chans) ∧
    (∀ byRow, s.sole h → s.dev.cst h e c = .running → (byRow = true → 0 < rowDiff (s.dev.g (cxL h e c) ROW_CMDROW.ROW) (s.dev.rownum h e c)) →
      (∃ t, exec (.hold h e c byRow) s = .next t ∧ t.ref = s.ref ∧ t.mem = s.mem ∧ t.dev.cst h e c = .running ∧
        (t.dev.cx h e c).cmd = some (.hold, byRow, s.dev.g (cxL h e c) ROW_CMDROW.ROW)) ∧
      (∃ t, exec (.stop h e c byRow) s = .next t ∧ t.ref = s.ref ∧ t.mem = s.mem ∧ t.dev.cst h e c = .running ∧
        (t.dev.cx h e c).cmd = some (.stop, byRow, s.dev.g (cxL h e c) ROW_CMDROW.ROW))) ∧
    (∀ byRow, s.sole h → s.dev.cst h e c = .hold → (byRow = true → 0 < rowDiff (s.dev.g (cxL h e c) ROW_CMDROW.ROW) (s.dev.g (cxL h e c) ROW_HELDN.N)) →
      (∃ t, exec (.resume h e c byRow) s = .next t ∧ t.ref = s.ref ∧ t.mem = s.mem ∧ t.dev.cst h e c = .hold ∧
        (t.dev.cx h e c).cmd = some (.resume, byRow, s.dev.g (cxL h e c) ROW_CMDROW.ROW)) ∧
      (∃ t, exec (.stop h e c byRow) s = .next t ∧ t.ref = s.ref ∧ t.mem = s.mem ∧ t.dev.cst h e c = .hold ∧
        (t.dev.cx h e c).cmd = some (.stop, byRow, s.dev.g (cxL h e c) ROW_CMDROW.ROW))) ∧
    (s.sole h → s.dev.cst h e c ≠ .idle → ∃ t, exec (.abort h e c) s = .next t ∧ t.ref = s.ref ∧ t.mem = s.mem ∧
      t.dev.cst h e c = .idle ∧ t.dev.dueOf h e c = [] ∧ (t.dev.cx h e c).cmd = none ∧
      (⟨32 * e + c, none, false⟩ : Scan) ∈ t.dev.scans h ∧ t.dev.chans = s.dev.chans) ∧
    (∀ i : Instr, s.sole h → (i = .rowCmdReserved h e c ∨ (i = .arm h e c ∧ s.dev.armOk h e c = false) ∨ (i = .abort h e c ∧ s.dev.cst h e c = .idle) ∨
        (∃ byRow, i = .hold h e c byRow ∧ s.dev.cst h e c ≠ .running) ∨ (∃ byRow, i = .resume h e c byRow ∧ s.dev.cst h e c ≠ .hold) ∨
        (∃ byRow, i = .stop h e c byRow ∧ s.dev.cst h e c ≠ .running ∧ s.dev.cst h e c ≠ .hold)) →
      ∃ t, exec i s = .next t ∧ t.ref = s.ref ∧ t.mem = s.mem ∧ t.dev.raised (rowL h e) 3 ∧
        s.dev.onlyRegs [rowL h e + 0x03C, rowL h e + 0x924] t.dev) ∧
    (s.dev.cst h e c = .draining → s.dev.ctxBusy h e c = false → ∃ t, exec (.drainingComplete h e c) s = .next t ∧ t.ref = s.ref ∧ t.mem = s.mem ∧
      t.dev.cst h e c = .idle ∧ (t.dev.cx h e c).cmd = none ∧ { t.dev.quiet with ctxs := [] } = { s.dev.quiet with ctxs := [] } ∧
      s.dev.regsKept [cxL h e c + ROW_CSTAT.STATE.off] t.dev) ∧
    ((s.dev.cst h e c ≠ .draining ∨ s.dev.ctxBusy h e c = true) → exec (.drainingComplete h e c) s = .next s)

/-- R77, R79, R82: a forward crossing of the tap numbers the context's rows. In ARMED with the beam SYNCED it is the trigger of START − L; in RUNNING
with no command due, of ROW_ROWNUM + 1; either adds one due entry at the tail, for L rows ahead. In HOLD with no command due, the beam SYNCED and
turning forward, it only steps ROW_HELDN and the HELD counter. R81, Table 03.3: a trigger that finds the context with a due entry not yet
started, or with a parked render, puts it into FAULT with its cause: its due entries are dropped, the events already queued stay. -/
def Obligations.TriggersNumberRowsOrFault : Prop :=
  (∀ (s : State) (h : Half) (e : Fin 8) (c : Fin 32) (rev8 : BitVec 8), s.awake h (rowL h e) →
     (s.dev.parked h e c = false → s.dev.dueOf h e c = [] → (s.dev.cx h e c).waiting = false →
       ∀ n, ((s.dev.cst h e c = .armed ∧ bit (s.dev.eng h e).syncs (s.dev.beamOf h e c) = true ∧
               n = ((s.dev.cx h e c).start + 2 ^ 32 - s.dev.leadOf h e c) % 2 ^ 32) ∨
             (s.dev.cst h e c = .running ∧ (s.dev.cx h e c).cmd = none ∧ n = (s.dev.rownum h e c + 1) % 2 ^ 32)) →
         ∃ t x, exec (.rowTrigger h e c rev8) s = .next t ∧ t.ref = s.ref ∧ t.dev.cst h e c = .running ∧ t.dev.rownum h e c = n ∧
           (t.dev.eng h e).due = (s.dev.eng h e).due ++ [x] ∧ x.ctx = c.val ∧ x.row = (n + s.dev.leadOf h e c) % 2 ^ 32) ∧
     (s.dev.cst h e c = .hold → (s.dev.cx h e c).cmd = none → bit (s.dev.eng h e).syncs (s.dev.beamOf h e c) = true →
       bit (s.dev.eng h e).backs (s.dev.beamOf h e c) = false →
       ∃ t, exec (.rowTrigger h e c rev8) s = .next t ∧ t.ref = s.ref ∧ t.mem = s.mem ∧ t.dev.cst h e c = .hold ∧
         t.dev.g (cxL h e c) ROW_HELDN.N = (s.dev.g (cxL h e c) ROW_HELDN.N + 1) % 2 ^ 32 ∧
         t.dev.rownum h e c = s.dev.rownum h e c ∧ t.dev.engines = s.dev.engines ∧
         s.dev.onlyRegs [cxL h e c + 0x850, cxL h e c + 0x828] t.dev)) ∧
  (∀ (s : State) (h : Half) (e : Fin 8) (c : Fin 32) (rev8 : BitVec 8), s.awake h (rowL h e) →
     s.dev.cst h e c = .running → (s.dev.cx h e c).cmd = none → (s.dev.parked h e c = true ∨ s.dev.dueOf h e c ≠ []) →
     ∃ t, exec (.rowTrigger h e c rev8) s = .next t ∧ t.ref = s.ref ∧ t.mem = s.mem ∧ t.dev.cst h e c = .fault ∧
       t.dev.g (cxL h e c) ROW_CSTAT.FAULT_CAUSE = (if s.dev.parked h e c then 2 else 1) ∧ t.dev.dueOf h e c = [] ∧
       t.dev.parked h e c = false ∧ t.dev.chans = s.dev.chans ∧ t.dev.raised (rowL h e) 0 ∧
       (s.dev.on (cxL h e c) ROW_BIND.CRITICAL = true → ∃ r ∈ t.dev.reports, r.half = h ∧ r.code = 0x06))

/-- R79, R80, R134, R137, R140: what the beam's markers do to the contexts bound to it. A state marker other than SYNCED holds the RUNNING and
REVERSING ones at ROW_HELDN = ROW_ROWNUM; a reverse marker sends RUNNING ones to REVERSING, or to HOLD where REVERSIBLE = 0; a forward marker
sends REVERSING ones back to RUNNING. Every other context keeps its state. R135: in REVERSING, a reverse crossing with ROW_ROWNUM = k steps it to
k − 1 and adds the re-render of row k − 1 − L. -/
def Obligations.MarkersMoveAndReverseContexts : Prop :=
  (∀ (s : State) (h : Half) (e : Fin 8) (b : Fin 4), s.awake h (rowL h e) →
     (∀ (code : Fin 4) (dir : Bool), code ≠ 2 → ∃ t, exec (.beamStateMarker h e b code dir) s = .next t ∧ t.ref = s.ref ∧ t.mem = s.mem ∧
       ∀ c, c < 32 → if s.dev.beamOf h e c = b ∧ (s.dev.cst h e c = .running ∨ s.dev.cst h e c = .reversing) then
         t.dev.cst h e c = .hold ∧ t.dev.g (cxL h e c) ROW_HELDN.N = s.dev.rownum h e c ∧ t.dev.g (rowL h e) (ROW_REVST.REVHELD.ix c) = 0
         else t.dev.cst h e c = s.dev.cst h e c) ∧
     (∃ t, exec (.reverseDirectionMarker h e b) s = .next t ∧ t.ref = s.ref ∧ t.mem = s.mem ∧
       ∀ c, c < 32 → t.dev.cst h e c = (if s.dev.beamOf h e c = b ∧ s.dev.cst h e c = .running then
         (if s.dev.on (cxL h e c) ROW_BIND.REVERSIBLE then .reversing else .hold) else s.dev.cst h e c)) ∧
     (∃ t, exec (.forwardDirectionMarker h e b) s = .next t ∧ t.ref = s.ref ∧ t.mem = s.mem ∧
       ∀ c, c < 32 → t.dev.cst h e c = (if s.dev.beamOf h e c = b ∧ s.dev.cst h e c = .reversing then .running else s.dev.cst h e c))) ∧
  (∀ (s : State) (h : Half) (e : Fin 8) (c : Fin 32) (rev8 : BitVec 8), s.awake h (rowL h e) →
     s.dev.cst h e c = .reversing → s.dev.parked h e c = false → s.dev.dueOf h e c = [] → (s.dev.cx h e c).waiting = false →
     ∃ t x, exec (.reverseTrigger h e c rev8) s = .next t ∧ t.ref = s.ref ∧ t.mem = s.mem ∧ t.dev.cst h e c = .reversing ∧
       t.dev.rownum h e c = (s.dev.rownum h e c + 2 ^ 32 - 1) % 2 ^ 32 ∧ (t.dev.eng h e).due = (s.dev.eng h e).due ++ [x] ∧
       x.ctx = c.val ∧ x.kind = .reverse ∧ x.row = (s.dev.rownum h e c + 2 ^ 33 - 1 - s.dev.leadOf h e c) % 2 ^ 32 ∧
       s.dev.regsKept [cxL h e c + 0x818, rowL h e + 0x900] t.dev)

/-- R75, R128, R349: a binding, history or row-index register takes a write only while its context is IDLE; else the write is dropped and BIND_REJ
raised. R93, R113: an invalidation is pending with BUSY = 1 from its write, and between renders removes exactly the lines it covers from its
cache and raises its event. -/
def Obligations.BindingsAndCachesTakeTheirWrites : Prop :=
  (∀ (s : State) (h : Half) (e : Fin 8) (c : Fin 32) (v : Word), s.awake h (rowL h e) → s.sole h →
     (s.dev.cst h e c = .idle →
       (∃ t, exec (.rowBindWrite h e c v) s = .next t ∧ t.ref = s.ref ∧ t.mem = s.mem ∧
         t.dev.rd (cxL h e c) 0x808 = s.dev.rd (cxL h e c) 0x808 ∧ t.dev.rd (cxL h e c) 0x804 = maskPut 0xFFFF3FFF v (s.dev.rd (cxL h e c) 0x804)) ∧
       (∃ t, exec (.rowHistoryWrite h e c 0 v) s = .next t ∧ t.ref = s.ref ∧ t.mem = s.mem ∧
         t.dev.rd (rowL h e) (ROW_HR_LO.DLOG2.ix c).off = maskPut 0xFFF0001F v (s.dev.rd (rowL h e) (ROW_HR_LO.DLOG2.ix c).off)) ∧
       (∃ t, exec (.rowRidxWrite h e c v) s = .next t ∧ t.ref = s.ref ∧ t.mem = s.mem ∧
         t.dev.rd (rowL h e) (ROW_RIDX.BASE.ix c).off = maskPut 0x8FFFFFFF v (s.dev.rd (rowL h e) (ROW_RIDX.BASE.ix c).off))) ∧
     (s.dev.cst h e c ≠ .idle → ∀ i : Instr,
       (i = .rowBindWrite h e c v ∨ (∃ w, i = .rowHistoryWrite h e c w v) ∨ i = .rowRidxWrite h e c v) →
       ∃ t, exec i s = .next t ∧ t.ref = s.ref ∧ t.mem = s.mem ∧ t.dev.raised (rowL h e) 4 ∧
         s.dev.onlyRegs [rowL h e + 0x03C, rowL h e + 0x924] t.dev)) ∧
  (∀ (s : State) (h : Half) (e : Fin 8), s.awake h (rowL h e) →
     (s.sole h → ∃ t, exec (.tcinvAll h e) s = .next t ∧ t.ref = s.ref ∧ t.mem = s.mem ∧ (t.dev.eng h e).tinv = some .all ∧ t.dev.on (rowL h e) ROW_TCINV.BUSY = true) ∧
     (s.sole h → ∃ t, exec (.tcinvRange h e) s = .next t ∧ t.ref = s.ref ∧ t.mem = s.mem ∧ (t.dev.eng h e).tinv = some (s.dev.invRange h e) ∧
       t.dev.on (rowL h e) ROW_TCINV.BUSY = true) ∧
     (s.sole h → ∃ t, exec (.mcinvAll h e) s = .next t ∧ t.ref = s.ref ∧ t.mem = s.mem ∧ (t.dev.eng h e).minv = some .all ∧ t.dev.on (rowL h e) ROW_MCINV.BUSY = true) ∧
     (s.sole h → ∃ t, exec (.mcinvRange h e) s = .next t ∧ t.ref = s.ref ∧ t.mem = s.mem ∧ (t.dev.eng h e).minv = some (s.dev.invRange h e) ∧
       t.dev.on (rowL h e) ROW_MCINV.BUSY = true) ∧
     (∀ i, (s.dev.eng h e).cur = none → (s.dev.eng h e).lcur = none → (s.dev.eng h e).tinv = some i → ∃ t, exec (.tcinvDone h e) s = .next t ∧ t.ref = s.ref ∧ t.mem = s.mem ∧
       (∀ y, y ∈ (t.dev.eng h e).tc ↔ y ∈ (s.dev.eng h e).tc ∧ i.covers y.1 = false) ∧ (t.dev.eng h e).mc = (s.dev.eng h e).mc ∧
       (t.dev.eng h e).tinv = none ∧ t.dev.on (rowL h e) ROW_TCINV.BUSY = false ∧ t.dev.raised (rowL h e) 6) ∧
     (∀ i, (s.dev.eng h e).cur = none → (s.dev.eng h e).lcur = none → (s.dev.eng h e).minv = some i → ∃ t, exec (.mcinvDone h e) s = .next t ∧ t.ref = s.ref ∧ t.mem = s.mem ∧
       (∀ y, y ∈ (t.dev.eng h e).mc ↔ y ∈ (s.dev.eng h e).mc ∧ i.covers y.1 = false) ∧ (t.dev.eng h e).tc = (s.dev.eng h e).tc ∧
       (t.dev.eng h e).minv = none ∧ t.dev.on (rowL h e) ROW_MCINV.BUSY = false ∧ t.dev.raised (rowL h e) 13))

/-! ### Chapters 04 to 06: motif window, renders, gathers, records, harness banks, event queues -/

/-- R82, R91, R129, R138, R153: an idle engine starts the head of its due list; a fill completes a line the render waits for, parks the render on an
absent page, or faults its context on an uncorrectable line; the render ends, once it is drawn, as a row of W codes that waits for its lane. A
replay or re-render of a row that no record holds holds the context at the reversal limit; one whose record is still to be written waits. R103,
R104: MAW_IDX loads the eight words of the entry it names into the writer's staging words; a write of MAW_D7 puts all eight into that entry as
one unit, steps the index where AUTOINC = 1, counts LIVEWR for each context that is not IDLE and has the entry in a table, and leaves every other
entry as it was. -/
def Obligations.RendersDrawRowsAndMotifs : Prop :=
  (∀ (s : State) (h : Half) (e : Fin 8), s.awake h (rowL h e) → s.dev.armed (pageOf h.n .row e) = false →
     (∀ x rest, (s.dev.eng h e).cur = none → (s.dev.eng h e).lcur = none → (s.dev.eng h e).due = x :: rest → (s.dev.eng h e).tinv = none →
       (s.dev.eng h e).minv = none →
       ((x.kind = .new ∨ x.again = true) → s.dev.motUe h e x.image = false →
         ∃ t, exec (.renderStart h e) s = .next t ∧ t.ref = s.ref ∧ t.mem = s.mem ∧ (t.dev.eng h e).cur = some x ∧ (t.dev.eng h e).due = rest ∧
           (t.dev.eng h e).kept = (s.dev.scanMotifs h e x).1 ∧ t.dev.on (rowL h e) ROW_STAT.BUSY = true ∧
           t.dev.g (rowL h e) ROW_STAT.CUR = x.ctx % 32 ∧ t.dev.chans = s.dev.chans ∧ t.dev.ctxs = s.dev.ctxs) ∧
       ((x.kind = .replay ∨ x.kind = .reverse) → x.again = false → ((s.dev.eng h e).newRows x.ctx).contains x.row = true →
         exec (.renderStart h e) s = .next s) ∧
       ((x.kind = .replay ∨ x.kind = .reverse) → x.again = false → ((s.dev.eng h e).newRows x.ctx).contains x.row = false → x.ctx < 32 →
         s.dev.rowValid h e x.ctx x.row = false →
         ∃ t, exec (.renderStart h e) s = .next t ∧ t.ref = s.ref ∧ t.mem = s.mem ∧ (t.dev.eng h e).cur = none ∧
           t.dev.cst h e x.ctx = .hold ∧ t.dev.on (rowL h e) (ROW_REVST.REVHELD.ix x.ctx) = true ∧ t.dev.raised (rowL h e) 18)) ∧
     (∀ x (mot ue : Bool) (line : BitVec 34), (s.dev.eng h e).cur = some x → x.ctx < 32 →
       line.toNat ∈ (if mot then (s.dev.eng h e).wantM else (s.dev.eng h e).want) →
       (s.dev.fillMark s.mem h line.toNat ue = .data →
         ∃ t, exec (.lineFillReturn h e mot line ue) s = .next t ∧ t.ref = s.ref ∧ t.mem = s.mem ∧
           (t.dev.eng h e).cur = some x ∧ t.dev.chans = s.dev.chans ∧ t.dev.ctxs = s.dev.ctxs ∧
           ((1 < (s.dev.eng h e).want.length + (s.dev.eng h e).wantM.length ∨ (s.dev.eng h e).blocked = true) →
             (t.dev.eng h e).want = (if mot then (s.dev.eng h e).want else (s.dev.eng h e).want.erase line.toNat) ∧
             (t.dev.eng h e).wantM = (if mot then (s.dev.eng h e).wantM.erase line.toNat else (s.dev.eng h e).wantM) ∧
             (t.dev.eng h e).cells = (s.dev.eng h e).cells ∧
             (line.toNat, lineData s.dev s.mem h line.toNat) ∈ (if mot then (t.dev.eng h e).mc else (t.dev.eng h e).tc))) ∧
       (s.dev.fillMark s.mem h line.toNat ue = .absent →
         ∃ t, exec (.lineFillReturn h e mot line ue) s = .next t ∧ t.ref = s.ref ∧ t.mem = s.mem ∧ (t.dev.eng h e).cur = none ∧
           (x, line.toNat) ∈ (t.dev.eng h e).parked ∧ t.dev.on (cxL h e x.ctx) ROW_CSTAT.PARKED = true ∧ t.dev.raised (rowL h e) 5 ∧
           t.dev.chans = s.dev.chans) ∧
       (s.dev.fillMark s.mem h line.toNat ue = .uncorrectable →
         ∃ t, exec (.lineFillReturn h e mot line ue) s = .next t ∧ t.ref = s.ref ∧ t.mem = s.mem ∧ (t.dev.eng h e).cur = none ∧
           t.dev.cst h e x.ctx = .fault ∧ t.dev.g (cxL h e x.ctx) ROW_CSTAT.FAULT_CAUSE = 3 ∧ t.dev.chans = s.dev.chans)) ∧
     (∀ x stall, (s.dev.eng h e).cur = some x → (s.dev.eng h e).drawn x = true →
       ∃ t r, exec (.renderComplete h e stall) s = .next t ∧ t.ref = s.ref ∧ t.mem = s.mem ∧ (t.dev.eng h e).cur = none ∧
         (t.dev.eng h e).ready = (if x.again then r :: (s.dev.eng h e).ready else (s.dev.eng h e).ready ++ [r]) ∧ r.due = { x with again := false } ∧
         r.codes = ((s.dev.eng h e).row x).1 ∧ r.codes.length = fget ROW_BIND.W_M1 x.bind + 1 ∧
         r ∈ (t.dev.eng h e).rrc ∧ (t.dev.eng h e).due = (s.dev.eng h e).due ∧ t.dev.on (rowL h e) ROW_STAT.BUSY = false ∧ t.dev.chans = s.dev.chans) ∧
     (∀ x stall, (s.dev.eng h e).cur = some x → (s.dev.eng h e).drawn x = false → (s.dev.eng h e).blocked = false →
       exec (.renderComplete h e stall) s = .next s)) ∧
  (∀ (s : State) (m : Master) (h : Half) (e : Fin 8) (v : Word), s.awake h (rowL h e) → s.sole h →
     (∃ t, exec (.mawIdxWrite m h e v) s = .next t ∧ t.ref = s.ref ∧ t.mem = s.mem ∧ t.dev.motifs = s.dev.motifs ∧
       t.dev.maw (pageOf h.n .row e) m = v &&& 0x00010FFF ∧
       (∀ k, k < 8 → t.dev.stage (pageOf h.n .row e) m k = BitVec.ofNat 32 (s.dev.motif h e (fget ROW_MAW_IDX.IDX v) / 2 ^ (32 * k))) ∧
       s.dev.regsKept [rowL h e + 0x03C] t.dev) ∧
     (∃ t, exec (.mawEntryWrite m h e v) s = .next t ∧ t.ref = s.ref ∧ t.mem = s.mem ∧
       (∀ i, t.dev.motif h e i = if i = fget ROW_MAW_IDX.IDX (s.dev.maw (pageOf h.n .row e) m) then
         (List.range 8).foldr (fun k acc => acc * 2 ^ 32 + (if k = 7 then v else s.dev.stage (pageOf h.n .row e) m k).toNat) 0
         else s.dev.motif h e i) ∧
       fget ROW_MAW_IDX.IDX (t.dev.maw (pageOf h.n .row e) m) =
         (fget ROW_MAW_IDX.IDX (s.dev.maw (pageOf h.n .row e) m) + fget ROW_MAW_IDX.AUTOINC (s.dev.maw (pageOf h.n .row e) m)) % 2 ^ 12 ∧
       (∀ c, c < 32 → t.dev.g (rowL h e) (ROW_MERR.LIVEWR.ix c) =
         if s.dev.cst h e c ≠ .idle ∧ (inTable (s.dev.rd (cxL h e c) 0x140) (fget ROW_MAW_IDX.IDX (s.dev.maw (pageOf h.n .row e) m)) ∨
             inTable (s.dev.rdS (cxL h e c) 0x140) (fget ROW_MAW_IDX.IDX (s.dev.maw (pageOf h.n .row e) m)))
         then min (s.dev.g (rowL h e) (ROW_MERR.LIVEWR.ix c) + 1) (2 ^ ROW_MERR.LIVEWR.w - 1) else s.dev.g (rowL h e) (ROW_MERR.LIVEWR.ix c)) ∧
       s.dev.regsKept ([rowL h e + 0x03C, rowL h e + 0x924] ++ (List.range 32).map (fun c => rowL h e + (ROW_MERR.LIVEWR.ix c).off)) t.dev))

/-- R150 to R157: gathering a rendered row puts into the queue of every channel of its segments exactly the event that the action of its cell and its
reference state call for, with its stamp, context and instance, where a slot is free; every other channel's queue keeps its contents.
GATHER_START takes the lane and gathers the first segment; GATHER_COMPLETE gathers the others and frees the lane. R81: of an abandoned row the
lane gathers some of those, a leading part of them, and no more. R129, R130: once every segment of a new row is sealed, its record is stored
whole at its place in the ring of its context, every other byte of memory stays, H takes the row, and one more record is valid, up to the ring's
depth. A context without a ring stores nothing. -/
def Obligations.GatherQueuesAndRecordsRows : Prop :=
  (∀ (s : State) (h : Half) (e : Fin 8), s.awake h (hLoc h .hrn) →
     (∀ row rest (bad : List (BitVec 16)), (s.dev.eng h e).renewing = false → (s.dev.eng h e).lane = none → (s.dev.eng h e).ready = row :: rest →
       ∃ t, exec (.gatherStart h e bad) s = .next t ∧ t.ref = s.ref ∧ t.mem = s.mem ∧ (t.dev.eng h e).lane = some row.due ∧
         (t.dev.eng h e).ready = rest ∧ bit (t.dev.g (hLoc h .hrn) HRN_STAT.LANES) e = true ∧
         ∀ ch, ch < 65536 →
           let x := row.due
           let g : GSrc := ⟨x, row.codes, (s.dev.cx h e x.ctx).ka, (s.dev.cx h e x.ctx).pa, fun c => (s.dev.chan h c).ref,
             s.dev.badEntries h x.phys (bad.map (·.toNat))⟩
           (t.dev.chan h ch).q = match (if (segsOf x.segs).head? = some (ch / 1024) ∧ takesPart x e ch = true then gatherCh s.dev h e g ch else .none) with
             | .ev v => if (s.dev.chan h ch).q.length < 8 then (s.dev.chan h ch).q ++
                 [⟨v, false, 0, 32 * e + x.ctx, sealKey s.dev h e x x.kind (x.kind == .reverse) (ch / 1024), !s.ref.gated h⟩] else (s.dev.chan h ch).q
             | _ => (s.dev.chan h ch).q) ∧
     (∀ x, (s.dev.eng h e).lane = some x → (s.dev.eng h e).gath.segs = (segsOf x.segs).drop 1 →
       ∃ t k, exec (.gatherComplete h e) s = .next t ∧ t.ref = s.ref ∧ t.mem = s.mem ∧ (t.dev.eng h e).lane = none ∧
         bit (t.dev.g (hLoc h .hrn) HRN_STAT.LANES) e = false ∧
         k ≤ (s.dev.eng h e).gath.segs.length ∧ ((s.dev.eng h e).laneOff = false → k = (s.dev.eng h e).gath.segs.length) ∧
         (∀ ch, ch < 65536 →
           let y := (s.dev.eng h e).gath
           let g : GSrc := ⟨x, y.codes, y.ka, y.pa, fun c => (s.dev.chan h c).ref, y.bad⟩
           (t.dev.chan h ch).q = match (if (y.segs.take k).contains (ch / 1024) && takesPart x e ch then gatherCh s.dev h e g ch else .none) with
             | .ev v => if (s.dev.chan h ch).q.length < 8 then (s.dev.chan h ch).q ++
                 [⟨v, false, 0, 32 * e + x.ctx, y.key + ch / 1024 * 2 ^ 8, !s.ref.gated h⟩] else (s.dev.chan h ch).q
             | _ => (s.dev.chan h ch).q) ∧
         ((s.dev.eng h e).blocked = false → (s.dev.eng h e).gath.segs = [] → x.rangeErr e (s.dev.eng h e).gath.bad (segsOf x.segs) = false →
           t.dev.chans = s.dev.chans ∧ s.dev.regsKept [hLoc h .hrn + HRN_STAT.LANES.off, hLoc h .hrn + HRN_MAXGATH.CYCLES.off] t.dev)) ∧
     ((s.dev.eng h e).lane = none → exec (.gatherComplete h e) s = .next s)) ∧
  (∀ (s : State) (h : Half) (e : Fin 8) (c : Fin 32), s.awake h (rowL h e) →
     ∀ y, (s.dev.eng h e).recs.find? (fun y => y.due.ctx = c.val) = some y → s.dev.unsealed h e y.due = false →
       let a := s.dev.recAddr h e c y.due.row
       let bytes := s.dev.recBytes h e y.due y.fids y.mdrop
       let keys := [rowL h e + (ROW_HWM.H.ix c).off, rowL h e + (ROW_REVST.RECS.ix c).off, cxL h e c + ROW_CCNT_REND.ROWS.off]
       ∃ t, exec (.rowRecordWrite h e c) s = .next t ∧
         t.dev.g (rowL h e) (ROW_HWM.H.ix c) = y.due.row % 2 ^ 32 ∧ (t.dev.eng h e).recs = (s.dev.eng h e).recs.erase y ∧
         (s.ref.rjHalf ≠ some h.peer → t.ref = s.ref) ∧
         (s.dev.ringD h e c = 0 → t.mem = s.mem ∧ t.dev.g (rowL h e) (ROW_REVST.RECS.ix c) = s.dev.g (rowL h e) (ROW_REVST.RECS.ix c) ∧
           (s.ref.rjHalf ≠ some h.peer → s.dev.regsKept keys t.dev)) ∧
         (s.dev.ringD h e c ≠ 0 →
           (s.dev.ringD h e c ≤ 65536 → t.dev.g (rowL h e) (ROW_REVST.RECS.ix c) = min (s.dev.ringD h e c) (s.dev.g (rowL h e) (ROW_REVST.RECS.ix c) + 1)) ∧
           (a < 2 ^ 36 → (∀ i, i < 1024 → s.dev.backed (a + i) = true) → s.ref.targets a = [a] → bytes.length = 1024 →
             (∀ i, i < 1024 → t.mem.byte (a + i) = bytes.getD i 0) ∧ (∀ b, (b < a ∨ a + 1024 ≤ b) → t.mem.byte b = s.mem.byte b) ∧
             (s.ref.rjHalf ≠ some h.peer → s.dev.regsKept keys t.dev))))

/-- R145, R147: a write of HRN_TW_DATA goes to the shadow bank at HRN_TW_IDX, or is dropped with WPEND while a request is pending, a validation or
the copy runs; a validated bank with an illegal transform is refused with 0x60 and its request dropped, a sound one of an immediate request
of the page alone becomes active with its segment maps; the copy makes the shadow bank the active one's copy. -/
def Obligations.HarnessBanksSwapWhole : Prop :=
  ∀ (s : State) (h : Half),
    (∀ v : Word, s.awake h (hLoc h .hrn) → s.sole h →
      (s.dev.on (hLoc h .hrn) PG_COMMIT.PENDING = false → s.dev.on (hLoc h .hrn) HRN_STAT.COPY = false → s.dev.on (hLoc h .hrn) HRN_STAT.VALIDATING = false →
        ∃ t, exec (.hrnTwDataWrite h v) s = .next t ∧ t.ref = s.ref ∧ t.mem = s.mem ∧ (t.dev.harn h).active = (s.dev.harn h).active ∧
          (∀ ch, entryOf (t.dev.harn h).shadow ch = if ch = s.dev.g (hLoc h .hrn) HRN_TW_IDX.IDX then v.toNat else entryOf (s.dev.harn h).shadow ch) ∧
          t.dev.g (hLoc h .hrn) HRN_TW_IDX.IDX = (s.dev.g (hLoc h .hrn) HRN_TW_IDX.IDX + s.dev.g (hLoc h .hrn) HRN_TW_IDX.AUTOINC) % 65536 ∧
          s.dev.regsKept [hLoc h .hrn + 0x03C, hLoc h .hrn + HRN_TW_IDX.IDX.off] t.dev) ∧
      ((s.dev.on (hLoc h .hrn) PG_COMMIT.PENDING || s.dev.on (hLoc h .hrn) HRN_STAT.COPY || s.dev.on (hLoc h .hrn) HRN_STAT.VALIDATING) = true →
        ∃ t, exec (.hrnTwDataWrite h v) s = .next t ∧ t.ref = s.ref ∧ t.mem = s.mem ∧ t.dev.raised (hLoc h .hrn) 2 ∧
          s.dev.onlyRegs [hLoc h .hrn + 0x03C] t.dev)) ∧
    (s.ref.live h = true → s.dev.on (hLoc h .hrn) HRN_STAT.VALIDATING = true → s.dev.armed (pageOf h.n .hrn 0) = true → s.dev.grp (pageOf h.n .hrn 0) = 0 →
      ((s.dev.harn h).shadow.any (fun e => decide (4 ≤ enXform e.2) && decide (enXform e.2 < 15)) = true →
        ∃ t, exec (.hrnValidationDone h) s = .next t ∧ t.ref = s.ref ∧ t.mem = s.mem ∧ t.dev.harness = s.dev.harness ∧
          t.dev.armed (pageOf h.n .hrn 0) = false ∧ t.dev.g (hLoc h .hrn) PG_COMMIT.RESULT = 0x60 ∧ t.dev.on (hLoc h .hrn) HRN_STAT.VALIDATING = false) ∧
      ((s.dev.harn h).shadow.any (fun e => decide (4 ≤ enXform e.2) && decide (enXform e.2 < 15)) = false → s.dev.bound (pageOf h.n .hrn 0) = 0 →
        ∃ t, exec (.hrnValidationDone h) s = .next t ∧ t.ref = s.ref ∧ t.mem = s.mem ∧
          (t.dev.harn h).active = (s.dev.harn h).shadow ∧ (t.dev.harn h).shadow = (s.dev.harn h).active ∧
          (t.dev.harn h).maps = segMaps (s.dev.harn h).shadow ∧ t.dev.armed (pageOf h.n .hrn 0) = false ∧
          t.dev.g (hLoc h .hrn) PG_COMMIT.RESULT = 0 ∧ t.dev.on (hLoc h .hrn) HRN_STAT.COPY = true)) ∧
    (s.awake h (hLoc h .hrn) → s.dev.on (hLoc h .hrn) HRN_STAT.COPY = true → (∀ u ∈ s.dev.ueWords, u.1 ≠ pageOf h.n .hrn 0) →
      ∃ t, exec (.hrnCopyDone h) s = .next t ∧ t.ref = s.ref ∧ t.mem = s.mem ∧ (t.dev.harn h).shadow = (s.dev.harn h).active ∧
        (t.dev.harn h).active = (s.dev.harn h).active ∧ t.dev.on (hLoc h .hrn) HRN_STAT.COPY = false)

/-- R80, R158, R205: a cancellation takes from every channel exactly the unsent events of its context (and direction), but those of held instances,
counts them in CANC and leaves sent events alone; with the beam disabled and its renders queued, the unsent events of every context bound to it
go, and the ports in UP that replicate it are to open a new session. R158 to R160: a latch copies the five counters and the status of its
channel; an event that the beam has passed is cancelled alone where EXPIRE = 1 and else stays; an uncorrectable error in a queue cancels its
unsent events and is reported to the referee as UE_PRIV. -/
def Obligations.QueuesCancelExpireAndCount : Prop :=
  ((∀ (s : State) (h : Half) (ctx : BitVec 8) (x : Scan), s.awake h (hLoc h .aeq) → (s.dev.scans h).find? (fun y => y.ctx = ctx.toNat) = some x →
     (x.fills = true → (s.dev.eng h (ctx.toNat / 32)).started (ctx.toNat % 32) = false) → (x.fills = false → (s.dev.eng h (ctx.toNat / 32)).laneOff = false) →
     ∃ t, exec (.cancelScanComplete h ctx) s = .next t ∧ t.ref = s.ref ∧ t.mem = s.mem ∧ t.dev.scans h = (s.dev.scans h).erase x ∧
       ∀ ch, ch < 65536 →
         let p : QEv → Bool := fun e => !s.dev.isHeld h e.inst && decide (e.ctx = ctx.toNat) && (match x.dir with | none => true | some v => evDir e.ev == v)
         (t.dev.chan h ch).q = (s.dev.chan h ch).q.filter (fun e => e.sent || !p e) ∧
         ((s.dev.chan h ch).canc < 2 ^ 32 →
           (t.dev.chan h ch).canc = ((s.dev.chan h ch).canc + ((s.dev.chan h ch).q.filter (fun e => !e.sent && p e)).length) % 2 ^ 32)) ∧
   (∀ (s : State) (h : Half) (b : Fin 4), s.awake h (hLoc h .aeq) →
     (bit (s.dev.harn h).offs b = true → s.dev.rendersOf h b = false →
       ∃ t, exec (.beamDisabledCancel h b) s = .next t ∧ t.ref = s.ref ∧ t.mem = s.mem ∧ bit (t.dev.harn h).offs b = false ∧
         (∀ ch, ch < 65536 → (t.dev.chan h ch).q = (s.dev.chan h ch).q.filter (fun e => e.sent || !(!s.dev.isHeld h e.inst && decide (e.ctx < 256) &&
           decide (s.dev.cst h (e.ctx / 32) (e.ctx % 32) ≠ .idle) && decide (s.dev.beamOf h (e.ctx / 32) (e.ctx % 32) = b.val)))) ∧
         (∀ p, p < 64 → (t.dev.port h p).chg = if s.dev.rbeam h p = b ∧ s.dev.pst h p = psUp ∧ s.ref.leads h = true then some true else (s.dev.port h p).chg)) ∧
     ((bit (s.dev.harn h).offs b = false ∨ s.dev.rendersOf h b = true) → exec (.beamDisabledCancel h b) s = .next s))) ∧
  (∀ (s : State) (h : Half) (ch : BitVec 16), s.awake h (hLoc h .aeq) →
     (s.sole h → ∃ t, exec (.aeqCntLatch h ch) s = .next t ∧ t.ref = s.ref ∧ t.mem = s.mem ∧ t.dev.quiet = s.dev.quiet ∧
       t.dev.g (hLoc h .aeq) AEQ_CNT_IDX.CH = ch.toNat ∧
       t.dev.g (hLoc h .aeq) AEQ_CNT_ENQ.COUNT = (s.dev.chan h ch.toNat).enq % 2 ^ 32 ∧ t.dev.g (hLoc h .aeq) AEQ_CNT_FIRED.COUNT = (s.dev.chan h ch.toNat).fired % 2 ^ 32 ∧
       t.dev.g (hLoc h .aeq) AEQ_CNT_CANC.COUNT = (s.dev.chan h ch.toNat).canc % 2 ^ 32 ∧ t.dev.g (hLoc h .aeq) AEQ_CNT_UNF.COUNT = (s.dev.chan h ch.toNat).unf % 2 ^ 32 ∧
       t.dev.g (hLoc h .aeq) AEQ_CNT_DROP.COUNT = (s.dev.chan h ch.toNat).drop % 2 ^ 32 ∧
       t.dev.g (hLoc h .aeq) AEQ_CHST.OCC = (s.dev.chan h ch.toNat).occ % 16 ∧ t.dev.g (hLoc h .aeq) AEQ_CHST.SENT = (s.dev.chan h ch.toNat).sentHeld % 16) ∧
     (∀ e, (s.dev.chan h ch.toNat).head = some e →
       s.dev.beamRuns h (s.dev.rbeam h (ch.toNat / 1024)) e.ev = true → s.dev.dist h (s.dev.rbeam h (ch.toNat / 1024)) e.ev < 0 →
       (s.dev.on (hLoc h .aeq) AEQ_CFG.EXPIRE = true → ∃ t, exec (.expired h ch) s = .next t ∧ t.ref = s.ref ∧ t.mem = s.mem ∧
         (t.dev.chan h ch.toNat).q = (s.dev.chan h ch.toNat).q.filter (fun y => y.sent) ++ ((s.dev.chan h ch.toNat).q.filter (fun y => !y.sent)).drop 1 ∧
         (t.dev.chan h ch.toNat).canc = ((s.dev.chan h ch.toNat).canc + 1) % 2 ^ 32 ∧ t.dev.raised (hLoc h .aeq) 1 ∧
         (∀ c, c < 65536 → c ≠ ch.toNat → t.dev.chan h c = s.dev.chan h c)) ∧
       (s.dev.on (hLoc h .aeq) AEQ_CFG.EXPIRE = false → exec (.expired h ch) s = .next s)) ∧
     (∃ t, exec (.queueUe h ch) s = .next t ∧ t.ref = s.ref ∧ t.mem = s.mem ∧
       (t.dev.chan h ch.toNat).q = (s.dev.chan h ch.toNat).q.filter (fun y => y.sent) ∧
       (t.dev.chan h ch.toNat).canc = ((s.dev.chan h ch.toNat).canc + (s.dev.chan h ch.toNat).occ) % 2 ^ 32 ∧
       (∃ r ∈ t.dev.reports, r.half = h ∧ r.code = 0x04) ∧ (∀ c, c < 65536 → c ≠ ch.toNat → t.dev.chan h c = s.dev.chan h c)))

/-! ### Chapter 07: the Rerok Link -/

/-- R177, R178, R180: training. LOCKED follows the receiver; the tenth good heartbeat in a row ends training in FENCED, or in a half in CHARGE or
SPLIT in the CHG of R179; a training that times out ends in DOWN, and starts again while EN = 1; a link that is lost trains again, one that is not goes on, and after more
than 8 losses in a second flaps to DOWN with EN cleared. -/
def Obligations.PortsTrainAndRetrain : Prop :=
  ∀ (s : State) (h : Half) (p : Fin 64), s.awake h (rlkL h p) →
    (s.dev.pst h p ≠ psDown → ∃ t, exec (.receiverLock h p) s = .next t ∧ t.ref = s.ref ∧ t.mem = s.mem ∧
      t.dev.on (rlkL h p) RLK_STAT.LOCKED = true ∧ s.dev.onlyRegs [rlkL h p + 0x800] t.dev) ∧
    (s.dev.pst h p ≠ psDown → ∃ t, exec (.hbTimer h p) s = .next t ∧ t.ref = s.ref ∧ t.mem = s.mem ∧ t.dev.regs = s.dev.regs ∧ (t.dev.port h p).hb = true) ∧
    (∀ (epoch : Word) (times : HbTimes) (sess active fenced : Bool) (pool : BitVec 16) (id : Word),
      s.dev.pst h p = psTraining → (s.dev.port h p).await = .none → s.dev.on (rlkL h p) RLK_STAT.LOCKED = true → 9 ≤ (s.dev.port h p).goodHb →
      epoch.toNat ≤ s.dev.g (rlkL h p) RLK_EPOCH.EPOCH → 2048 ≤ pool.toNat →
      ∃ t, exec (.hbReceive h p .ok epoch times true sess active fenced 0x10 pool id) s = .next t ∧ t.ref = s.ref ∧ t.mem = s.mem ∧
        t.dev.on (rlkL h p) RLK_STAT.SESS = sess ∧ t.dev.on (rlkL h p) RLK_STAT.BACTIVE = active ∧ t.dev.on (rlkL h p) RLK_STAT.BFENCED = fenced ∧
        t.dev.g (rlkL h p) RLK_STAT.POOL = pool.toNat ∧ t.dev.g (rlkL h p) RLK_BOARD_ID.ID = id.toNat ∧
        t.dev.g (rlkL h p) RLK_PDLY.PDLY = pdlyOf (((times.arrival - times.echo - times.turn).toNat :: (s.dev.port h p).rtts).take 8) % 65536 ∧ t.dev.chans = s.dev.chans ∧
        (if s.ref.leads h then t.dev.pst h p = psTraining ∧ (t.dev.port h p).chg = some (!sess) ∧ (t.dev.port h p).await ≠ .none
          else t.dev.pst h p = psFenced ∧ t.dev.raised (rlkL h p) 0)) ∧
    (s.dev.pst h p = psTraining → ∃ t, exec (.trainingTimeout h p) s = .next t ∧ t.ref = s.ref ∧ t.mem = s.mem ∧ t.dev.pst h p = psDown ∧
      t.dev.g (rlkL h p) RLK_LINK.TOUT = min (s.dev.g (rlkL h p) RLK_LINK.TOUT + 1) 65535 ∧ t.dev.raised (rlkL h p) 2) ∧
    (s.dev.pst h p = psDown → s.dev.on (rlkL h p) RLK_CFG.EN = true → s.ref.hs h ≠ .init →
      ∃ t, exec (.trainingRetry h p) s = .next t ∧ t.ref = s.ref ∧ t.mem = s.mem ∧ t.dev.pst h p = psTraining ∧ (t.dev.port h p).goodHb = 0) ∧
    ((s.dev.pst h p = psUp ∨ s.dev.pst h p = psFenced) → s.dev.linkLost h p = true →
      ∃ t, exec (.linkDown h p) s = .next t ∧ t.ref = s.ref ∧ t.mem = s.mem ∧ t.dev.raised (rlkL h p) 1 ∧
        t.dev.g (rlkL h p) RLK_LINK.RETRAIN = min (s.dev.g (rlkL h p) RLK_LINK.RETRAIN + 1) 65535 ∧ t.dev.chans = s.dev.chans ∧
        (if ((s.dev.port h p).retrains.filter (fun x => decide (s.dev.tb h < x + 100000000))).length < 8 then t.dev.pst h p = psTraining
          else t.dev.pst h p = psDown ∧ t.dev.on (rlkL h p) RLK_CFG.EN = false ∧ t.dev.raised (rlkL h p) 3) ∧
        (s.dev.on (rlkL h p) RLK_CFG.CRIT = true → s.dev.pst h p = psUp → (s.dev.port h p).lead = true → ∃ r ∈ t.dev.reports, r.half = h ∧ r.code = 0x09)) ∧
    (s.dev.linkLost h p = false → exec (.linkDown h p) s = .next s)

/-- R168 to R172, R176, R177, R213: at a frame boundary with no commit waiting, a port sends the first of CHG, BEAM, ACK, AUD, HB, a retransmission
that is due, with the epoch in word 0; under the fence a port in UP enters FENCED and a half sends nothing but heartbeats, a DOWN port nothing.
None of these frames changes a queue. R158, R161, R184, R196: with nothing older to send, the calendar closes a frame of the eligible heads it
picks, at most 16 and at most the credits held: each costs one credit and ES advances; in paired operation the frame is mirrored and held back
until the peer confirms, else it leaves at once, with TXNEXT past it, and waits unacknowledged. The peer that takes the mirror record counts the
same; a confirmation lets the frame go; a late one is counted, raised and reported. -/
def Obligations.PortsSendFramesInOrderAndMirror : Prop :=
  (∀ (s : State) (h : Half) (p : Fin 64) (elapsed : Nat) (clk : BitVec 16), s.awake h (rlkL h p) → s.ref.hs h ≠ .init →
     s.dev.armed (pageOf h.n .rlk p) = false → (s.dev.port h p).drvOff = false →
     let l := rlkL h p
     let x := s.dev.port h p
     let out (ty seq : Nat) (ws : List Nat) : Prop := ∃ t, exec (.frameBoundary h p elapsed clk) s = .next t ∧ t.ref = s.ref ∧ t.mem = s.mem ∧
       (t.dev.port h p).sent = frameSyms ty seq (s.dev.g l RLK_EPOCH.EPOCH :: ws) ∧ t.dev.chans = s.dev.chans
     (s.dev.pst h p = psDown → ∃ t, exec (.frameBoundary h p elapsed clk) s = .next t ∧ t.ref = s.ref ∧ t.mem = s.mem ∧
       t.dev.regs = s.dev.regs ∧ (t.dev.port h p).sent = x.sent ∧ (t.dev.port h p).wire = x.wire ∧ t.dev.chans = s.dev.chans) ∧
     (s.ref.fence h = true → s.dev.pst h p ≠ psDown → x.hb = false → ∃ t, exec (.frameBoundary h p elapsed clk) s = .next t ∧ t.ref = s.ref ∧ t.mem = s.mem ∧
       (t.dev.port h p).sent = x.sent ∧ (t.dev.port h p).wire = (idleSet x.disp).1 ∧ (t.dev.port h p).fenced = true ∧ t.dev.chans = s.dev.chans ∧
       t.dev.pst h p = (if s.dev.pst h p = psUp then psFenced else s.dev.pst h p)) ∧
     (s.ref.fence h = true → s.dev.pst h p ≠ psDown → s.dev.pst h p ≠ psQuarantine → x.hb = true →
       out 0x06 0 [clk.toNat + s.dev.g l RLK_STAT.LOCKED * 2 ^ 16 + b2n (s.dev.pst h p == psFenced || s.dev.pst h p == psUp) * 2 ^ 17 + b2n (s.ref.leads h) * 2 ^ 18,
         s.dev.g l RLK_PDLY.PDLY]) ∧
     (s.ref.fence h = false → s.dev.pst h p = psUp →
       (x.chg = some false → out 0x07 0 [h.n * 2 ^ 8, x.rxNext]) ∧
       (x.chg = none → x.await ≠ .ack → x.snap ≠ (s.dev.snap h (s.dev.rbeam h p)).tb → out 0x01 0 (s.dev.beamWords h p elapsed)) ∧
       (x.chg = none → (x.await = .ack ∨ x.snap = (s.dev.snap h (s.dev.rbeam h p)).tb) →
         (x.ack = true → out 0x03 0 [x.rxNext + b2n x.retry * 2 ^ 16]) ∧
         (x.ack = false → x.aud = true → out 0x08 0 [x.credits, s.dev.g l RLK_ES.COUNT, s.dev.g l RLK_CR.COUNT]) ∧
         (x.ack = false → x.aud = false → x.hb = true →
           out 0x06 0 [clk.toNat + s.dev.g l RLK_STAT.LOCKED * 2 ^ 16 + 0 * 2 ^ 17 + b2n (s.ref.leads h) * 2 ^ 18, s.dev.g l RLK_PDLY.PDLY]) ∧
         (x.ack = false → x.aud = false → x.hb = false → x.await = .none → ∀ n rest f, x.rtx = n :: rest → x.unack.find? (fun f => f.seq = n) = some f →
           out f.type f.seq f.words)))) ∧
  (∀ (s : State) (h : Half) (p : Fin 64), s.awake h (rlkL h p) →
     (∀ (elapsed : Nat) (clk : BitVec 16), s.ref.hs h ≠ .init → s.dev.armed (pageOf h.n .rlk p) = false → (s.dev.port h p).drvOff = false →
       s.ref.fence h = false → s.dev.pst h p = psUp → (s.dev.port h p).chg = none → (s.dev.port h p).await = .none →
       (s.dev.port h p).snap = (s.dev.snap h (s.dev.rbeam h p)).tb → (s.dev.port h p).ack = false → (s.dev.port h p).aud = false →
       (s.dev.port h p).hb = false → (s.dev.port h p).rtx = [] → (s.dev.port h p).closed = none → (s.dev.port h p).unack.length < 128 →
       0 < (s.dev.port h p).spendable → ∀ ch e, s.dev.pick s.ref h p = some (ch, e) →
       ∃ t f, exec (.frameBoundary h p elapsed clk) s = .next t ∧ t.ref = s.ref ∧ t.mem = s.mem ∧ f.seq = s.dev.g (rlkL h p) RLK_SEQ.TXNEXT ∧ f.type = 0x02 ∧
         1 ≤ f.chans.length ∧ f.chans.length ≤ min 16 (s.dev.port h p).spendable ∧ f.chans.head? = some ch ∧ f.words.length = 2 * f.chans.length ∧
         (t.dev.port h p).credits = ((s.dev.port h p).credits + 2 ^ 32 - f.chans.length) % 2 ^ 32 ∧
         t.dev.g (rlkL h p) RLK_CREDIT.C = (t.dev.port h p).credits % 65536 ∧
         t.dev.g (rlkL h p) RLK_ES.COUNT = (s.dev.g (rlkL h p) RLK_ES.COUNT + f.chans.length) % 2 ^ 32 ∧
         (if s.ref.mirrors h then (t.dev.port h p).sent = (s.dev.port h p).sent ∧ (t.dev.port h p).closed = some f ∧
             (t.dev.port h p).confirmed = false ∧ (t.dev.port h p).mirrors = (s.dev.port h p).mirrors ++ [f] ∧ (t.dev.port h p).unack = (s.dev.port h p).unack ∧
             t.dev.g (rlkL h p) RLK_SEQ.TXNEXT = f.seq
           else (t.dev.port h p).sent = frameSyms 0x02 f.seq (s.dev.g (rlkL h p) RLK_EPOCH.EPOCH :: f.words) ∧ (t.dev.port h p).closed = none ∧
             (t.dev.port h p).unack = (s.dev.port h p).unack ++ [f] ∧ t.dev.g (rlkL h p) RLK_SEQ.TXNEXT = (f.seq + 1) % 65536)) ∧
     (∀ f rest, (s.dev.port h.peer p).mirrors = f :: rest →
       ∃ t, exec (.mirrorRecordReceive h p) s = .next t ∧ t.ref = s.ref ∧ t.mem = s.mem ∧ (t.dev.port h.peer p).mirrors = rest ∧
         (t.dev.port h.peer p).confirms = (s.dev.port h.peer p).confirms + 1 ∧ (t.dev.port h p).unack = (s.dev.port h p).unack ++ [f] ∧
         t.dev.g (rlkL h p) RLK_SEQ.TXNEXT = (f.seq + 1) % 65536 ∧ (t.dev.port h p).credits = ((s.dev.port h p).credits + 2 ^ 32 - f.chans.length) % 2 ^ 32 ∧
         t.dev.g (rlkL h p) RLK_CREDIT.C = (t.dev.port h p).credits % 65536 ∧
         t.dev.g (rlkL h p) RLK_ES.COUNT = (s.dev.g (rlkL h p) RLK_ES.COUNT + f.chans.length) % 2 ^ 32) ∧
     (0 < (s.dev.port h p).confirms → ∃ t, exec (.mirrorConfirm h p) s = .next t ∧ t.ref = s.ref ∧ t.mem = s.mem ∧ t.dev.regs = s.dev.regs ∧ t.dev.chans = s.dev.chans ∧
       (t.dev.port h p).confirms = (s.dev.port h p).confirms - 1 ∧ (t.dev.port h p).closed = (s.dev.port h p).closed ∧
       ((s.dev.port h p).closed ≠ none → (t.dev.port h p).confirmed = true)) ∧
     (((s.dev.port h p).closed ≠ none → (s.dev.port h p).confirmed = false → ∃ t, exec (.mirrorLate h p) s = .next t ∧ t.ref = s.ref ∧ t.mem = s.mem ∧
         t.dev.g (rlkL h p) RLK_MIRR.LATE = min (s.dev.g (rlkL h p) RLK_MIRR.LATE + 1) 65535 ∧ t.dev.raised (rlkL h p) 9 ∧ t.dev.ports = s.dev.ports ∧
         (∃ r ∈ t.dev.reports, r.half = h ∧ r.code = 0x0B)) ∧
       ((s.dev.port h p).closed = none → exec (.mirrorLate h p) s = .next s)))

/-- R156, R169, R182 to R184, R194: an ACK whose NEXT lies in the window frees the frames below it and every event they carried; one outside the
window is ignored. A CRD adds exactly the credits by which its count is ahead. A damaged board frame is only counted, unless with it the link is
lost; one of an epoch higher than the half's own is counted with EPOCH_AHEAD. R159, R182, R191: an STS in sequence counts each of its reports
once, FIRED or UNF, for its channel, and takes one event from those sent and not reported; a report for a channel without such an event is only
counted as bad. A repeated or early STS counts nothing and is answered by an ACK, with RETRY for a gap, in a half with authority. -/
def Obligations.ReturnsAndReportsCountOnce : Prop :=
  (∀ (s : State) (h : Half) (p : Fin 64) (epoch : Word), s.awake h (rlkL h p) → s.dev.pst h p ≠ psDown → s.dev.pst h p ≠ psQuarantine →
     (epoch.toNat ≤ s.dev.g (rlkL h p) RLK_EPOCH.EPOCH → (s.dev.pst h p = psUp ∨ s.dev.pst h p = psFenced) → (s.dev.port h p).await = .none →
       let ignored (i : Instr) : Prop := ∃ t, exec i s = .next t ∧ t.ref = s.ref ∧ t.mem = s.mem ∧ t.dev.regs = s.dev.regs ∧ t.dev.chans = s.dev.chans ∧
         t.dev.port h p = { s.dev.port h p with validAt := s.dev.tb h }
       let oldest := s.dev.g (rlkL h p) RLK_SEQ.OLDEST
       (∀ (next : BitVec 16) (retry : Bool), seqDiff next.toNat oldest ≤ seqDiff (s.dev.g (rlkL h p) RLK_SEQ.TXNEXT) oldest →
         ∃ t, exec (.ackReceive h p .ok epoch next retry) s = .next t ∧ t.ref = s.ref ∧ t.mem = s.mem ∧ t.dev.g (rlkL h p) RLK_SEQ.OLDEST = next.toNat ∧
           (t.dev.port h p).unack = (s.dev.port h p).unack.filter (fun f => !decide (seqDiff f.seq oldest < seqDiff next.toNat oldest)) ∧
           (∀ ch, ch < 65536 → ∀ e ∈ (t.dev.chan h ch).q, e ∈ (s.dev.chan h ch).q ∧
             (e.sent = true → ∀ f ∈ (s.dev.port h p).unack, seqDiff f.seq oldest < seqDiff next.toNat oldest → ch ∈ f.chans → e.seq ≠ f.seq)) ∧
           (∀ ch, ch < 65536 → ∀ e ∈ (s.dev.chan h ch).q, e.sent = false → e ∈ (t.dev.chan h ch).q) ∧
           s.dev.regsKept [rlkL h p + RLK_SEQ.OLDEST.off] t.dev) ∧
       (∀ (next : BitVec 16) (retry : Bool), seqDiff (s.dev.g (rlkL h p) RLK_SEQ.TXNEXT) oldest < seqDiff next.toNat oldest →
         ignored (.ackReceive h p .ok epoch next retry)) ∧
       (∀ ct : Word, 0 < sgn 32 (ct.toNat + 2 ^ 32 - s.dev.g (rlkL h p) RLK_CR.COUNT) →
         ∃ t, exec (.crdReceive h p .ok epoch ct) s = .next t ∧ t.ref = s.ref ∧ t.mem = s.mem ∧ t.dev.g (rlkL h p) RLK_CR.COUNT = ct.toNat ∧
           (t.dev.port h p).credits = ((s.dev.port h p).credits + (ct.toNat + 2 ^ 32 - s.dev.g (rlkL h p) RLK_CR.COUNT) % 2 ^ 32) % 2 ^ 32 ∧
           t.dev.g (rlkL h p) RLK_CREDIT.C = (t.dev.port h p).credits % 65536 ∧ t.dev.chans = s.dev.chans ∧
           s.dev.regsKept [rlkL h p + RLK_CR.COUNT.off, rlkL h p + RLK_CREDIT.C.off] t.dev) ∧
       (∀ ct : Word, sgn 32 (ct.toNat + 2 ^ 32 - s.dev.g (rlkL h p) RLK_CR.COUNT) ≤ 0 → ignored (.crdReceive h p .ok epoch ct))) ∧
     (∀ (next seq pool : BitVec 16) (times : HbTimes) (retry locked sess active fenced : Bool) (ct status audd id : Word) (tag st ver : BitVec 8) (op : Fin 4)
       (count : Fin 16) (reports data : List Word) (i : Instr) (rx : Rx), rx ≠ .ok → reports.length ≤ 32 →
       (i = .ackReceive h p rx epoch next retry ∨ i = .crdReceive h p rx epoch ct ∨ i = .stsReceive h p rx epoch seq status audd reports ∨
         i = .mgtResponseReceive h p rx epoch seq tag op count st data ∨ i = .hbReceive h p rx epoch times locked sess active fenced ver pool id) →
       ∃ t, exec i s = .next t ∧ t.ref = s.ref ∧ t.mem = s.mem ∧ t.dev.chans = s.dev.chans ∧
         (t.dev.pst h p = s.dev.pst h p → s.dev.regsKept [rlkL h p + 0x828] t.dev) ∧
         (if rx = .codeError then t.dev.g (rlkL h p) RLK_ERR.CODE = min (s.dev.g (rlkL h p) RLK_ERR.CODE + 1) 65535 ∧ t.dev.g (rlkL h p) RLK_ERR.CRC = s.dev.g (rlkL h p) RLK_ERR.CRC
           else t.dev.g (rlkL h p) RLK_ERR.CRC = min (s.dev.g (rlkL h p) RLK_ERR.CRC + 1) 65535 ∧ t.dev.g (rlkL h p) RLK_ERR.CODE = s.dev.g (rlkL h p) RLK_ERR.CODE)) ∧
     (s.dev.g (rlkL h p) RLK_EPOCH.EPOCH < epoch.toNat → ∀ (next : BitVec 16) (retry : Bool) (ct : Word) (i : Instr),
       (i = .ackReceive h p .ok epoch next retry ∨ i = .crdReceive h p .ok epoch ct) →
       ∃ t, exec i s = .next t ∧ t.ref = s.ref ∧ t.mem = s.mem ∧ t.dev.raised (rlkL h p) 8 ∧ t.dev.chans = s.dev.chans ∧
         s.dev.regsKept [rlkL h p + 0x834] t.dev)) ∧
  (∀ (s : State) (h : Half) (p : Fin 64) (epoch : Word) (seq : BitVec 16) (status audd : Word), s.awake h (rlkL h p) →
     (s.dev.pst h p = psUp ∨ s.dev.pst h p = psFenced) → epoch.toNat ≤ s.dev.g (rlkL h p) RLK_EPOCH.EPOCH → s.ref.leads h = true → (s.dev.port h p).rxNext < 65536 →
     (∀ w : Word, status.toNat / 2 ^ 16 % 64 = 1 → seq.toNat = (s.dev.port h p).rxNext →
       let ch := 1024 * p.val + w.toNat % 1024
       ∃ t, exec (.stsReceive h p .ok epoch seq status audd [w]) s = .next t ∧ t.ref = s.ref ∧ t.mem = s.mem ∧
         (t.dev.port h p).rxNext = ((s.dev.port h p).rxNext + 1) % 65536 ∧ (t.dev.port h p).ack = true ∧ t.dev.g (rlkL h p) RLK_AUDD.D = audd.toNat ∧
         t.dev.g (rlkL h p) RLK_STAT.BFAULT = status.toNat / 2 ^ 8 % 256 ∧
         (0 < (s.dev.chan h ch).unrep → (t.dev.chan h ch).unrep = (s.dev.chan h ch).unrep - 1 ∧ (t.dev.chan h ch).q = (s.dev.chan h ch).q ∧
           (if w.toNat / 2 ^ 10 % 8 = 0 then (t.dev.chan h ch).fired = ((s.dev.chan h ch).fired + 1) % 2 ^ 32 ∧ (t.dev.chan h ch).unf = (s.dev.chan h ch).unf
             else (t.dev.chan h ch).unf = ((s.dev.chan h ch).unf + 1) % 2 ^ 32 ∧ (t.dev.chan h ch).fired = (s.dev.chan h ch).fired)) ∧
         ((s.dev.chan h ch).unrep = 0 → t.dev.chan h ch = s.dev.chan h ch ∧ t.dev.raised (rlkL h p) 7) ∧
         (∀ c, c < 65536 → c ≠ ch → t.dev.chan h c = s.dev.chan h c)) ∧
     (∀ reports : List Word, reports.length = status.toNat / 2 ^ 16 % 64 → reports.length ≤ 32 →
       (32768 ≤ seqDiff seq.toNat (s.dev.port h p).rxNext → ∃ t, exec (.stsReceive h p .ok epoch seq status audd reports) s = .next t ∧ t.ref = s.ref ∧ t.mem = s.mem ∧
         t.dev.regs = s.dev.regs ∧ t.dev.chans = s.dev.chans ∧ (t.dev.port h p).ack = true ∧ (t.dev.port h p).retry = (s.dev.port h p).retry ∧
         (t.dev.port h p).rxNext = (s.dev.port h p).rxNext) ∧
       (1 ≤ seqDiff seq.toNat (s.dev.port h p).rxNext → seqDiff seq.toNat (s.dev.port h p).rxNext < 32768 →
         ∃ t, exec (.stsReceive h p .ok epoch seq status audd reports) s = .next t ∧ t.ref = s.ref ∧ t.mem = s.mem ∧ t.dev.regs = s.dev.regs ∧ t.dev.chans = s.dev.chans ∧
           (t.dev.port h p).rxNext = (s.dev.port h p).rxNext ∧ (t.dev.port h p).retryFor = some (s.dev.port h p).rxNext ∧
           (t.dev.port h p).ack = true ∧ ((s.dev.port h p).retryFor ≠ some (s.dev.port h p).rxNext → (t.dev.port h p).retry = true))))

/-- R175, R183, R185, R201: a board access by GO in UP with none outstanding is sent under a fresh tag; out of UP it ends with STATUS 0xFE, with one
outstanding GO is ignored. The response of that tag ends it with its status and, for a read that went well, its words; 1 ms without one
ends it with 0xFF. The audit and retransmission timers ask for the audit and for every unacknowledged frame. -/
def Obligations.BoardAccessAndTimers : Prop :=
  ∀ (s : State) (h : Half) (p : Fin 64), s.awake h (rlkL h p) →
    (∀ v : Word, s.sole h → fget RLK_MGT_CTL.GO v = 1 →
      (s.dev.on (rlkL h p) RLK_MGT_CTL.BUSY = false → s.dev.pst h p = psUp →
        ∃ t, exec (.mgtGo h p v) s = .next t ∧ t.ref = s.ref ∧ t.mem = s.mem ∧ t.dev.on (rlkL h p) RLK_MGT_CTL.BUSY = true ∧
          (t.dev.port h p).tag = ((s.dev.port h p).tag + 1) % 256 ∧
          (∃ ws, (t.dev.port h p).mgt = some ([((s.dev.port h p).tag + 1) % 256 + fget RLK_MGT_CTL.OP v * 2 ^ 8 + fget RLK_MGT_CTL.COUNT_M1 v * 2 ^ 12,
              s.dev.g (rlkL h p) RLK_MGT_ADDR.ADDR] ++ ws) ∧ ws.length = if fget RLK_MGT_CTL.OP v = 1 then fget RLK_MGT_CTL.COUNT_M1 v + 1 else 0) ∧
          s.dev.regsKept [rlkL h p + 0x03C, rlkL h p + 0x900] t.dev) ∧
      (s.dev.on (rlkL h p) RLK_MGT_CTL.BUSY = false → s.dev.pst h p ≠ psUp →
        ∃ t, exec (.mgtGo h p v) s = .next t ∧ t.ref = s.ref ∧ t.mem = s.mem ∧ t.dev.g (rlkL h p) RLK_MGT_CTL.STATUS = 0xFE ∧
          s.dev.onlyRegs [rlkL h p + 0x03C, rlkL h p + 0x900] t.dev) ∧
      (s.dev.on (rlkL h p) RLK_MGT_CTL.BUSY = true →
        ∃ t, exec (.mgtGo h p v) s = .next t ∧ t.ref = s.ref ∧ t.mem = s.mem ∧ t.dev.on (rlkL h p) RLK_MGT_CTL.BUSY = true ∧
          t.dev.g (rlkL h p) RLK_MGT_CTL.STATUS = s.dev.g (rlkL h p) RLK_MGT_CTL.STATUS ∧ s.dev.onlyRegs [rlkL h p + 0x03C, rlkL h p + 0x900] t.dev)) ∧
    (∀ (epoch : Word) (seq : BitVec 16) (tag : BitVec 8) (op : Fin 4) (count : Fin 16) (status : BitVec 8) (data : List Word),
      (s.dev.pst h p = psUp ∨ s.dev.pst h p = psFenced) → epoch.toNat ≤ s.dev.g (rlkL h p) RLK_EPOCH.EPOCH → data.length = (if op = 0 ∧ status = 0 then count.val + 1 else 0) →
      seq.toNat = (s.dev.port h p).rxNext → s.dev.on (rlkL h p) RLK_MGT_CTL.BUSY = true → (s.dev.port h p).tag = tag.toNat → (s.dev.port h p).mgt = none →
      ∃ t, exec (.mgtResponseReceive h p .ok epoch seq tag op count status data) s = .next t ∧ t.ref = s.ref ∧ t.mem = s.mem ∧
        t.dev.on (rlkL h p) RLK_MGT_CTL.BUSY = false ∧ t.dev.g (rlkL h p) RLK_MGT_CTL.STATUS = status.toNat ∧ t.dev.raised (rlkL h p) 10 ∧
        (∀ k, k < 16 → t.dev.rd (rlkL h p) (0x940 + 4 * k) = if k < data.length then data.getD k 0 else s.dev.rd (rlkL h p) (0x940 + 4 * k)) ∧
        (t.dev.port h p).rxNext = (seq.toNat + 1) % 65536 ∧ t.dev.chans = s.dev.chans) ∧
    (s.dev.on (rlkL h p) RLK_MGT_CTL.BUSY = true → ∃ t, exec (.mgtTimeout h p) s = .next t ∧ t.ref = s.ref ∧ t.mem = s.mem ∧
      t.dev.on (rlkL h p) RLK_MGT_CTL.BUSY = false ∧ t.dev.g (rlkL h p) RLK_MGT_CTL.STATUS = 0xFF ∧ t.dev.raised (rlkL h p) 10 ∧
      s.dev.regsKept [rlkL h p + 0x900] t.dev) ∧
    (s.dev.pst h p = psUp → ∃ t, exec (.audTimer h p) s = .next t ∧ t.ref = s.ref ∧ t.mem = s.mem ∧ t.dev.regs = s.dev.regs ∧ t.dev.chans = s.dev.chans ∧ (t.dev.port h p).aud = true) ∧
    (s.dev.pst h p = psUp → (s.dev.port h p).await = .none → ∃ t, exec (.retransmitTimeout h p) s = .next t ∧ t.ref = s.ref ∧ t.mem = s.mem ∧ t.dev.regs = s.dev.regs ∧
      t.dev.chans = s.dev.chans ∧ (t.dev.port h p).rtx = ((s.dev.port h p).unack.map (·.seq)).filter (fun n => !(s.dev.port h p).dead.contains n))

/-! ### Chapter 08: seals, decisions, takeover, requests, rejoining -/

/-- R203, R205: the seal of the next gathered segment meets its peer record. Equal, its events are released and SEAL_CMP counts; unequal, the
instance is held with its events unsent and fault 0x01 is reported; without a peer record it waits in the table, or, the table full, the
instance is held and fault 0x03 reported. A record that waits too long holds its instance with fault 0x02. -/
def Obligations.SealsReleaseOrHoldInstances : Prop :=
  ∀ (s : State) (h : Half), s.awake h (hLoc h .seal) → s.ref.sealing = true → s.ref.hs h ≠ .rejoining → s.ref.rjHalf = none →
    s.ref.observes h = false →
    (∀ j rest, (s.dev.sealU h).jobs = j :: rest → (s.dev.sealU h).held.any (fun y => y.key = j.key) = false →
      let x : SealRec := ⟨j.key, j.events.length, sealCrc j.key j.events, j.ka, j.pa, j.refs, true, false⟩
      (∀ p, (s.dev.sealU h).peer.find? (fun y => y.key = j.key) = some p →
        (p.nev = x.nev → p.crc = x.crc → ∃ t, exec (.sealCompute h) s = .next t ∧ t.ref = s.ref ∧ t.mem = s.mem ∧ (t.dev.sealU h).jobs = rest ∧
          t.dev.g (hLoc h .seal) SEAL_CMP.COUNT = min (s.dev.g (hLoc h .seal) SEAL_CMP.COUNT + 1) (2 ^ 32 - 1) ∧ t.dev.reports = s.dev.reports ∧
          ∀ ch, ch < 65536 → (t.dev.chan h ch).q = (s.dev.chan h ch).q.map (fun e => if e.inst = j.key then { e with clear := true } else e)) ∧
        ((p.nev ≠ x.nev ∨ p.crc ≠ x.crc) → ∃ t, exec (.sealCompute h) s = .next t ∧ t.ref = s.ref ∧ t.mem = s.mem ∧ t.dev.chans = s.dev.chans ∧
          t.dev.isHeld h j.key = true ∧ t.dev.raised (hLoc h .seal) 0 ∧ (∃ r ∈ t.dev.reports, r.half = h ∧ r.code = 0x01 ∧ r.obj = j.key) ∧
          t.dev.g (hLoc h .seal) SEAL_MISM.COUNT = min (s.dev.g (hLoc h .seal) SEAL_MISM.COUNT + 1) (2 ^ 32 - 1))) ∧
      ((s.dev.sealU h).peer.find? (fun y => y.key = j.key) = none →
        ((s.dev.sealU h).own.length < 1024 → ∃ t, exec (.sealCompute h) s = .next t ∧ t.ref = s.ref ∧ t.mem = s.mem ∧ t.dev.chans = s.dev.chans ∧
          (t.dev.sealU h).own = (s.dev.sealU h).own ++ [x] ∧ (t.dev.sealU h).out = (s.dev.sealU h).out ++ [x] ∧ t.dev.reports = s.dev.reports) ∧
        (1024 ≤ (s.dev.sealU h).own.length → ∃ t, exec (.sealCompute h) s = .next t ∧ t.ref = s.ref ∧ t.mem = s.mem ∧ t.dev.chans = s.dev.chans ∧
          (t.dev.sealU h).own = (s.dev.sealU h).own ∧ t.dev.isHeld h j.key = true ∧ t.dev.raised (hLoc h .seal) 2 ∧
          (∃ r ∈ t.dev.reports, r.half = h ∧ r.code = 0x03)))) ∧
    (∀ x rest, (s.dev.sealU h.peer).out = x :: rest → (s.dev.sealU h).held.any (fun y => y.key = x.key) = false →
      (∀ o, (s.dev.sealU h).own.find? (fun y => y.key = x.key) = some o → o.nev = x.nev → o.crc = x.crc →
        ∃ t, exec (.sealRecordReceive h) s = .next t ∧ t.ref = s.ref ∧ t.mem = s.mem ∧ (t.dev.sealU h.peer).out = rest ∧ t.dev.reports = s.dev.reports ∧
          (t.dev.sealU h).own = (s.dev.sealU h).own.filter (fun y => y.key ≠ x.key) ∧
          ∀ ch, ch < 65536 → (t.dev.chan h ch).q = (s.dev.chan h ch).q.map (fun e => if e.inst = x.key then { e with clear := true } else e)) ∧
      ((s.dev.sealU h).own.find? (fun y => y.key = x.key) = none → (s.dev.sealU h).peer.length < 1024 →
        ∃ t, exec (.sealRecordReceive h) s = .next t ∧ t.ref = s.ref ∧ t.mem = s.mem ∧ (t.dev.sealU h.peer).out = rest ∧ t.dev.chans = s.dev.chans ∧
          (t.dev.sealU h).peer = (s.dev.sealU h).peer ++ [x])) ∧
    (∀ mine x, (if mine then (s.dev.sealU h).own else (s.dev.sealU h).peer).find? (fun y => !y.held) = some x →
      ∃ t, exec (.sealTmo h mine) s = .next t ∧ t.ref = s.ref ∧ t.mem = s.mem ∧ t.dev.chans = s.dev.chans ∧ t.dev.isHeld h x.key = true ∧
        t.dev.raised (hLoc h .seal) 1 ∧ (∃ r ∈ t.dev.reports, r.half = h ∧ r.code = 0x02 ∧ r.obj = x.key ∧ r.miss = !mine) ∧
        t.dev.g (hLoc h .seal) SEAL_TMOC.COUNT = min (s.dev.g (hLoc h .seal) SEAL_TMOC.COUNT + 1) (2 ^ 32 - 1))

/-- R209, R215, Tables 08.4 and 08.6: the oldest report is voted on and logged with FAULT_LOGGED. A common-mode code opens its window, a seal code a
CHECK, a code that accuses by itself is decided by Table 08.6 at once; while an action is in progress the report waits. A window that
closes without its match accuses the reporting half, one that is matched, by a report that comes or one that waits, accuses none; reports that wait
are treated in their order once nothing is in progress, and one that comes meanwhile waits behind them. -/
def Obligations.ReportsAreVotedAndDecided : Prop :=
  (∀ (s : State) (rep : Report) (rest : List Report), s.dev.reports = rep :: rest → s.dev.clocked refL = true →
    (∃ t, exec .faultReport s = .next t ∧ t.mem = s.mem ∧ t.ref.flogTotal = (s.ref.flogTotal + 1) % 2 ^ 32 ∧ t.dev.raised refL 9) ∧
    (s.ref.act = .idle → s.ref.rjHalf = none → s.ref.waiting = [] →
      ((rep.code = 0x06 ∨ rep.code = 0x07 ∨ rep.code = 0x08) → ∃ t v, exec .faultReport s = .next t ∧ t.ref.act = .common v ∧ v.rep = rep ∧
        t.ref.authority = s.ref.authority ∧ t.dev.reports = rest) ∧
      ((rep.code = 0x01 ∨ rep.code = 0x02 ∨ rep.code = 0x03) → ∃ t v, exec .faultReport s = .next t ∧ t.ref.act = .check v .awaited .awaited none ∧ v.rep = rep ∧
        t.ref.authority = s.ref.authority ∧ t.dev.reports = rest) ∧
      (rep.svc = false → (rep.code = 0x04 ∨ rep.code = 0x05 ∨ rep.code = 0x0D) → ∃ t, exec .faultReport s = .next t ∧ s.ref.decided t.ref rep.half) ∧
      (rep.svc = false → rep.code = 0x0B → ∃ t, exec .faultReport s = .next t ∧ s.ref.decided t.ref rep.half.peer) ∧
      ((rep.code = 0x0E ∨ 0x11 ≤ rep.code) → ∃ t, exec .faultReport s = .next t ∧ t.ref.authority = s.ref.authority ∧ t.ref.act = .idle ∧ t.dev.reports = rest)) ∧
    (s.ref.act = .idle → s.ref.rjHalf = none → s.ref.waiting ≠ [] → ∃ t w, exec .faultReport s = .next t ∧ t.ref.act = .idle ∧ t.ref.authority = s.ref.authority ∧
      t.ref.waiting = s.ref.waiting ++ [w] ∧ w.rep = rep) ∧
    (∀ v old rule el, s.ref.act = .takeover v old rule el → ∃ t w, exec .faultReport s = .next t ∧ t.ref.act = s.ref.act ∧ t.ref.authority = s.ref.authority ∧
      t.ref.waiting = s.ref.waiting ++ [w] ∧ w.rep = rep)) ∧
  (∀ (s : State) (v : Vote), s.ref.act = .common v → v.rep.code ≠ 0x0C →
    (∃ t, exec .commonModeTimeout s = .next t ∧ t.mem = s.mem ∧ s.ref.decided t.ref v.rep.half) ∧
    (∀ rep rest, s.dev.reports = rep :: rest → rep.code = v.rep.code → rep.obj = v.rep.obj → rep.half ≠ v.rep.half → s.dev.clocked refL = true →
      ∃ t, exec .faultReport s = .next t ∧ t.ref.act = .idle ∧ t.ref.authority = s.ref.authority ∧ t.dev.raised refL 4)) ∧
  (∀ (s : State) (v : Vote) (rest : List Vote), s.ref.waiting = v :: rest →
    (s.ref.busy = false → (v.rep.code = 0x06 ∨ v.rep.code = 0x07 ∨ v.rep.code = 0x08) →
      let twin := rest.find? (fun u => v.rep.matches u.rep && decide (u.tb ≤ v.tb + 2000))
      (twin = none → ∃ t, exec .faultReportDequeue s = .next t ∧ t.mem = s.mem ∧ t.dev = s.dev ∧ t.ref.waiting = rest ∧ t.ref.act = .common v ∧
        t.ref.authority = s.ref.authority) ∧
      (∀ u, twin = some u → s.dev.clocked refL = true → ∃ t, exec .faultReportDequeue s = .next t ∧ t.mem = s.mem ∧ t.ref.waiting = rest.erase u ∧
        t.ref.act = .idle ∧ t.ref.authority = s.ref.authority ∧ t.dev.raised refL 4)) ∧
    (s.ref.busy = false → v.rep.svc = false → (v.rep.code = 0x04 ∨ v.rep.code = 0x05 ∨ v.rep.code = 0x0D) →
      ∃ t, exec .faultReportDequeue s = .next t ∧ t.mem = s.mem ∧ s.ref.decided t.ref v.rep.half) ∧
    (s.ref.busy = true → exec .faultReportDequeue s = .next s))

/-- R207, R215 step 5: the second self-check word, or its time-out, decides: a single suspect half is accused under SELFCHECK; where neither or both
are suspect, the half in the less trusted state. A half that stays silent is suspect. The word stands in SEAL_SCW and REF_SCW. -/
def Obligations.SelfChecksDecideSealFaults : Prop :=
  ∀ (s : State) (v : Vote), (v.rep.code = 0x01 ∨ v.rep.code = 0x03) →
    (∀ b, s.ref.act = .check v .awaited b none → b ≠ .awaited →
      (s.ref.live .A = true → ∃ t, exec (.selfCheckWord .A) s = .next t ∧ t.mem = s.mem ∧
        s.ref.decided t.ref (s.ref.selfCheckAccuses (.word ((s.dev.selfCheck s.mem .A).1 % 2 ^ 32)) b).1 ∧ t.ref.scwA = (s.dev.selfCheck s.mem .A).1 % 2 ^ 32 ∧
        t.dev.g (hLoc .A .seal) SEAL_SCW.SCW = (s.dev.selfCheck s.mem .A).1 % 2 ^ 32) ∧
      (∃ t, exec (.selfCheckTimeout .A) s = .next t ∧ t.mem = s.mem ∧ s.ref.decided t.ref (s.ref.selfCheckAccuses .silent b).1)) ∧
    (∀ a, s.ref.act = .check v a .awaited none → a ≠ .awaited →
      (s.ref.live .B = true → ∃ t, exec (.selfCheckWord .B) s = .next t ∧ t.mem = s.mem ∧
        s.ref.decided t.ref (s.ref.selfCheckAccuses a (.word ((s.dev.selfCheck s.mem .B).1 % 2 ^ 32))).1 ∧ t.ref.scwB = (s.dev.selfCheck s.mem .B).1 % 2 ^ 32 ∧
        t.dev.g (hLoc .B .seal) SEAL_SCW.SCW = (s.dev.selfCheck s.mem .B).1 % 2 ^ 32) ∧
      (∃ t, exec (.selfCheckTimeout .B) s = .next t ∧ t.mem = s.mem ∧ s.ref.decided t.ref (s.ref.selfCheckAccuses a .silent).1)) ∧
    ((s.ref.selfCheckAccuses (.word 1) (.word 0)).1 = .A ∧ (s.ref.selfCheckAccuses (.word 0) (.word 64)).1 = .B ∧
      (s.ref.hs .A = .charge → s.ref.hs .B ≠ .charge → (s.ref.selfCheckAccuses (.word 0) (.word 128)).1 = .B ∧ (s.ref.selfCheckAccuses .silent .silent).1 = .B))

/-- R212, R213, R217, R225: with every port of the old half confirmed, the end of the fence moves charge: the epoch advances by one, the peer enters
CHARGE, its ports that were FENCED or UP carry the new epoch and send CHG next, and the old half enters QUARANTINE in a takeover, whose
new half is to reissue, or STANDBY in a handover. Before that nothing moves; a port that does not confirm has its driver disabled. A
reissue deals with every held instance once. -/
def Obligations.ChargeMovesOnlyAfterTheFence : Prop :=
  (∀ (s : State) (old : Half) (elapsed : Nat) (tr : Train),
    ((∃ v rule el, s.ref.act = .takeover v old rule el) ∨ s.ref.act = .handover old) → s.ref.hs old ≠ .off →
    (s.dev.allConfirmed old = true → ∃ t, exec (.fenceConfirm elapsed tr) s = .next t ∧ t.mem = s.mem ∧ t.ref.act = .idle ∧ t.ref.epoch = s.ref.epoch + 1 ∧
      t.ref.hs old.peer = .charge ∧ t.ref.inCharge = old.peer ∧ t.ref.split = s.ref.split ∧
      (∀ h ch, ch < 65536 → (t.dev.chan h ch).q.map (fun e => (e.ev, e.sent)) = (s.dev.chan h ch).q.map (fun e => (e.ev, e.sent))) ∧
      (∀ p, p < 64 → (s.dev.pst old.peer p = psFenced ∨ s.dev.pst old.peer p = psUp) → t.dev.pst old.peer p = psUp ∧
        t.dev.g (rlkL old.peer p) RLK_EPOCH.EPOCH = (s.ref.epoch + 1) % 2 ^ 32 ∧ (t.dev.port old.peer p).chg = some false) ∧
      (s.ref.act = .handover old → t.ref.hs old = .standby ∧ t.ref.handovers = (s.ref.handovers + 1) % 65536 ∧ t.ref.reissue old.peer = s.ref.reissue old.peer) ∧
      (s.ref.act ≠ .handover old → t.ref.hs old = .quarantine ∧ t.ref.takeovers = (s.ref.takeovers + 1) % 65536 ∧ t.ref.reissue old.peer = true ∧
        ∀ p, p < 64 → t.dev.pst old p = psQuarantine)) ∧
    (s.dev.allConfirmed old = false → exec (.fenceConfirm elapsed tr) s = .next s) ∧
    (∀ p : Fin 64, s.dev.confirmed old p = false → ∃ t, exec (.fenceTimeout old p) s = .next t ∧ t.ref = s.ref ∧ t.mem = s.mem ∧ t.dev.regs = s.dev.regs ∧
      t.dev.confirmed old p = true ∧ (t.dev.port old p).drvOff = true)) ∧
  (∀ (s : State) (h : Half), s.ref.reissue h = true → s.ref.live h = true →
    s.dev.g (hLoc h .seal) SEAL_REISS.COUNT + (s.dev.sealU h).held.length < 2 ^ 32 → s.dev.g (hLoc h .seal) SEAL_NOREC.COUNT + (s.dev.sealU h).held.length < 2 ^ 32 →
    ∃ t, exec (.reissue h) s = .next t ∧ t.mem = s.mem ∧ t.ref = s.ref.setReissue h false ∧ (t.dev.sealU h).held = [] ∧
      t.dev.g (hLoc h .seal) SEAL_REISS.COUNT + t.dev.g (hLoc h .seal) SEAL_NOREC.COUNT =
        s.dev.g (hLoc h .seal) SEAL_REISS.COUNT + s.dev.g (hLoc h .seal) SEAL_NOREC.COUNT + (s.dev.sealU h).held.length)

/-- R225, R231, R437, Tables 08.9 and 08.10: mailbox requests. One sent while the previous is unanswered is dropped and counted; one without the D5
session is refused with 0x83; else it has its effect where the half states allow it, and is refused with REF_STATE or REF_BUSY, changing
nothing, where they do not. -/
def Obligations.RequestsNeedSessionAndState : Prop :=
  ∀ (s : State) (ep : Half) (tag : BitVec 8) (h : Half) (elapsed : Nat) (tr : Train),
    let rsp (r : Referee) : Nat := match ep with | .A => r.rspA | .B => r.rspB
    let reqs (still : Bool) (i : Instr) : Prop := i = .release ep still tag h ∨ i = .rejoin ep still tag h elapsed tr ∨ i = .handover ep still tag ∨
      i = .stopClear ep still tag ∨ i = .flogClear ep still tag ∨ i = .mbxReservedRequest ep still tag
    (∀ i, reqs true i → ∃ t, exec i s = .next t ∧ t.mem = s.mem ∧ t.dev = s.dev ∧ t.ref.authority = s.ref.authority ∧ rsp t.ref = rsp s.ref ∧
      (ep = .A → t.ref.dropA = (s.ref.dropA + 1) % 65536) ∧ (ep = .B → t.ref.dropB = (s.ref.dropB + 1) % 65536)) ∧
    (s.ref.session ≠ some ep → ∀ i, reqs false i → ∃ t, exec i s = .next t ∧ t.mem = s.mem ∧ t.dev = s.dev ∧ t.ref.authority = s.ref.authority ∧
      rsp t.ref = 0x83 + tag.toNat * 2 ^ 16 + 2 ^ 31) ∧
    (s.ref.session = some ep →
      (s.ref.split = false → s.ref.hs h = .standby → s.ref.busy = false → ∃ t, exec (.release ep false tag h) s = .next t ∧ t.mem = s.mem ∧
        t.ref.hs h = .quarantine ∧ t.ref.hs h.peer = s.ref.hs h.peer ∧ t.ref.epoch = s.ref.epoch ∧ rsp t.ref = tag.toNat * 2 ^ 16 + 2 ^ 31) ∧
      ((s.ref.split = true ∨ s.ref.hs h ≠ .standby) → ∃ t, exec (.release ep false tag h) s = .next t ∧ t.mem = s.mem ∧ t.dev = s.dev ∧
        t.ref.authority = s.ref.authority ∧ rsp t.ref = 0x80 + tag.toNat * 2 ^ 16 + 2 ^ 31) ∧
      (s.ref.hs s.ref.inCharge = .charge → s.ref.hs s.ref.inCharge.peer = .standby → s.ref.noEpoch = false → (s.dev.sealU .A).held = [] → (s.dev.sealU .B).held = [] →
        (s.ref.busy = false → ∃ t, exec (.handover ep false tag) s = .next t ∧ t.mem = s.mem ∧ t.ref.authority = s.ref.authority ∧
          t.ref.act = .handover s.ref.inCharge ∧ t.ref.fence s.ref.inCharge = true ∧ rsp t.ref = tag.toNat * 2 ^ 16 + 2 ^ 31) ∧
        (s.ref.busy = true → ∃ t, exec (.handover ep false tag) s = .next t ∧ t.mem = s.mem ∧ t.dev = s.dev ∧ t.ref.authority = s.ref.authority ∧
          rsp t.ref = 0x81 + tag.toNat * 2 ^ 16 + 2 ^ 31)) ∧
      ((s.ref.noEpoch = true ∨ (s.dev.sealU .A).held ≠ []) → ∃ t, exec (.handover ep false tag) s = .next t ∧ t.mem = s.mem ∧ t.dev = s.dev ∧
        t.ref.authority = s.ref.authority ∧ rsp t.ref = 0x80 + tag.toNat * 2 ^ 16 + 2 ^ 31) ∧
      (∃ t, exec (.stopClear ep false tag) s = .next t ∧ t.mem = s.mem ∧ t.ref.authority = s.ref.authority ∧ t.ref.stopA = false ∧ t.ref.stopB = false ∧
        t.ref.stopLine t.dev .A = false ∧ t.ref.stopLine t.dev .B = false ∧ rsp t.ref = tag.toNat * 2 ^ 16 + 2 ^ 31) ∧
      (∃ t, exec (.flogClear ep false tag) s = .next t ∧ t.mem = s.mem ∧ t.dev = s.dev ∧ t.ref.authority = s.ref.authority ∧ t.ref.flogTotal = 0 ∧ t.ref.flog = []) ∧
      (∃ t, exec (.mbxReservedRequest ep false tag) s = .next t ∧ t.mem = s.mem ∧ t.dev = s.dev ∧ t.ref.authority = s.ref.authority ∧
        rsp t.ref = 0x80 + tag.toNat * 2 ^ 16 + 2 ^ 31) ∧
      (RD.rejoinCode (s.ref, s.dev) h ≠ 0 → ∃ t, exec (.rejoin ep false tag h elapsed tr) s = .next t ∧ t.mem = s.mem ∧ t.dev = s.dev ∧
        t.ref.authority = s.ref.authority ∧ rsp t.ref = RD.rejoinCode (s.ref, s.dev) h + tag.toNat * 2 ^ 16 + 2 ^ 31) ∧
      (RD.rejoinCode (s.ref, s.dev) h = 0 → ∃ t, exec (.rejoin ep false tag h elapsed tr) s = .next t ∧ t.ref.epoch = s.ref.epoch ∧ t.ref.hs h.peer = s.ref.hs h.peer ∧
        ((t.ref.hs h = .init ∧ t.ref.rjHalf = some h) ∨ (t.ref.hs h = .quarantine ∧ t.ref.rjHalf = none)) ∧
        (∀ a, a < 2 ^ 36 → t.mem.byte a = s.mem.byte a))) ∧
    (bit s.ref.d5mask ep.n = true → s.ref.session = none → ∃ t, exec (.mbxOpen ep) s = .next t ∧ t.mem = s.mem ∧ t.dev = s.dev ∧ t.ref.authority = s.ref.authority ∧
      t.ref.session = some ep) ∧
    (∃ t, exec (.mbxClose ep) s = .next t ∧ t.mem = s.mem ∧ t.dev = s.dev ∧ t.ref.authority = s.ref.authority ∧ t.ref.session ≠ some ep) ∧
    exec (.mbxKeep ep) s = .next s ∧
    (∃ t, exec .mbxSessionTimeout s = .next t ∧ t.mem = s.mem ∧ t.dev = s.dev ∧ t.ref.authority = s.ref.authority ∧ t.ref.session = none)

/-- R29, R211, R212, R220, R221, R227: how the halves leave INIT. At power-on in paired operation the preferred half takes charge with the next epoch
and its peer stands by; a half alone whose peer is late or in charge takes charge or rejoins; in split operation each half enters SPLIT
with an epoch of its own. A fill that ends completes INIT; COPY ends in STATE with the port state of the half in charge; a rejoin issued by
the referee is a rejoin; the comparison records both time bases. -/
def Obligations.HalvesLeaveInitByTheRules : Prop :=
  (∀ s : State, s.ref.defaults = false →
    (s.ref.split = false → s.ref.powerOn = true → s.ref.ready .A = true → s.ref.ready .B = true → s.ref.noEpoch = false →
      ∃ t, exec .halfInitComplete s = .next t ∧ t.mem = s.mem ∧ t.ref.hs s.ref.prefer = .charge ∧ t.ref.hs s.ref.prefer.peer = .standby ∧
        t.ref.epoch = s.ref.epoch + 1 ∧ t.ref.inCharge = s.ref.prefer ∧ t.ref.powerOn = false) ∧
    (s.ref.split = false → s.ref.powerOn = true → s.ref.ready .A = true → s.ref.ready .B = true → s.ref.noEpoch = true →
      ∃ t, exec .halfInitComplete s = .next t ∧ t.mem = s.mem ∧ t.ref.hsA = .quarantine ∧ t.ref.hsB = .quarantine ∧ t.ref.epoch = s.ref.epoch ∧
        t.ref.stopA = true ∧ t.ref.stopB = true) ∧
    (∀ h : Half, s.ref.split = false → s.ref.powerOn = false → s.ref.ready h = true → s.ref.hs h.peer = .charge → s.ref.act = .idle →
      ∃ t, exec .halfInitComplete s = .next t ∧ t.mem = s.mem ∧ t.ref.hs h = .rejoining ∧ t.ref.hs h.peer = .charge ∧ t.ref.epoch = s.ref.epoch ∧
        t.ref.rjHalf = some h ∧ t.ref.rjPhase = 1) ∧
    (s.ref.split = true → s.ref.ready .A = true → s.ref.ready .B = true → s.ref.epoch + 1 < 0xFFFFFFFF →
      ∃ t, exec .halfInitComplete s = .next t ∧ t.mem = s.mem ∧ t.ref.hsA = .split ∧ t.ref.hsB = .split ∧ t.ref.epoch = s.ref.epoch + 2) ∧
    (∀ h : Half, s.ref.split = false → s.ref.powerOn = true → s.ref.ready h = false → s.ref.hs h = .init → s.ref.ready h.peer = true → s.ref.noEpoch = false →
      ∃ t, exec (.initTimeout h) s = .next t ∧ t.mem = s.mem ∧ t.ref.hs h.peer = .charge ∧ t.ref.hs h = .quarantine ∧ t.ref.epoch = s.ref.epoch + 1) ∧
    (∀ h : Half, s.ref.powerOn = false → s.ref.ready h = false → s.ref.hs h = .init → s.ref.rjHalf ≠ some h →
      ∃ t, exec (.initTimeout h) s = .next t ∧ t.mem = s.mem ∧ t.ref.hs h = .quarantine ∧ t.ref.hs h.peer = s.ref.hs h.peer ∧ t.ref.epoch = s.ref.epoch)) ∧
  (∀ (s : State) (h : Half), s.ref.hs h = .init → s.dev.on (hLoc h .mec) MEC_GEOM.ABSENT = false → s.dev.on (hLoc h .mec 1) MEC_GEOM.ABSENT = false →
    ∃ t, exec (.memoryFillDone h) s = .next t ∧ t.mem = s.mem ∧ t.ref.authority = s.ref.authority ∧ t.ref.ready h = true ∧
      t.dev.on (hLoc h .mec) MEC_STAT.FILLING = false ∧ t.dev.on (hLoc h .mec 1) MEC_STAT.FILLING = false) ∧
  (∀ (s : State) (h : Half), s.ref.rjHalf = some h → s.ref.hs h = .rejoining → s.ref.rjPhase = 1 → s.dev.ueLines = [] →
    ∃ t, exec .rejoinCopyDone s = .next t ∧ t.ref.authority = s.ref.authority ∧ t.ref.rjHalf = some h ∧ (t.ref.rjPhase = 2 ∨ t.ref.rjPhase = 3) ∧
      t.dev.harn h = s.dev.harn h.peer ∧
      (∀ p, p < 64 → (t.dev.port h p).rxNext = (s.dev.port h.peer p).rxNext ∧ (t.dev.port h p).unack = (s.dev.port h.peer p).unack ∧
        t.dev.g (rlkL h p) RLK_CREDIT.C = s.dev.g (rlkL h.peer p) RLK_CREDIT.C ∧ t.dev.g (rlkL h p) RLK_SEQ.TXNEXT = s.dev.g (rlkL h.peer p) RLK_SEQ.TXNEXT)) ∧
  (∀ (s : State) (h : Half) (elapsed : Nat) (tr : Train),
    (s.ref.autorejoin = false → exec (.autorejoinTimeout h elapsed tr) s = .next s) ∧
    (s.ref.autorejoin = true → RD.rejoinCode (s.ref, s.dev) h = 0 → ∃ t, exec (.autorejoinTimeout h elapsed tr) s = .next t ∧ t.ref.epoch = s.ref.epoch ∧
      t.ref.hs h.peer = s.ref.hs h.peer ∧ ((t.ref.hs h = .init ∧ t.ref.rjHalf = some h) ∨ (t.ref.hs h = .quarantine ∧ t.ref.rjHalf = none)))) ∧
  (∀ (s : State) (phase : Fin 10) (shorten : Bool), s.ref.rjHalf = none →
    ∃ t, exec (.tbCompare phase shorten) s = .next t ∧ t.mem = s.mem ∧ t.ref = { s.ref with recA := s.dev.tbA, recB := s.dev.tbB } ∧
      t.dev.tbA = s.dev.tbA ∧ t.dev.tbB = s.dev.tbB)

/-- R221 step 3: from the start of STATE the half that rejoins takes over the register writes to its peer: a command that is such a write does in half
`h` what it does without a rejoin, and then the same in the half `x` that rejoins (whose writes these are: notes/assumptions/114.md). -/
def Obligations.RejoiningHalfTakesTheWrites : Prop :=
  ∀ (s : State) (h x : Half) (e : Fin 8) (c : Fin 32) (k : Fin 16) (j : Fin 20) (v : Word) (b : Fin 4) (g : Fin 64) (at_ : Bool), s.ref.rejoinerOf h = some x →
    let r (h : Half) : Fin 3 := ⟨h.n, by cases h <;> decide⟩
    ∀ f : Half → Instr, f ∈ [fun h => .beamResync h b, fun h => .arm h e c, fun h => .hold h e c at_, fun h => .resume h e c at_, fun h => .stop h e c at_, fun h => .abort h e c,
        fun h => .tcinvAll h e, fun h => .mcinvAll h e, fun h => .hrnTwDataWrite h v, fun h => .eoi h g,
        fun h => .mgtGo h g v, fun h => .evcTableWrite (r h) v, fun h => .dmaStart (r h) k, fun h => .kxcRun (r h) j, fun h => .timerRun (r h) k true] →
      ∃ t u, exec (f h) { s with ref := { s.ref with rjHalf := none } } = .next t ∧ exec (f x) { t with ref := s.ref } = .next u ∧ exec (f h) s = .next u

/-! ### Chapter 09: the Loupe -/

/-- R242 to R245, Table 09.2: a control packet that is sound and fits is queued with its header and raises CTL_RX, any other is dropped and counted;
a packet leaves with its last payload word; a read pops one word. The link's states follow its events. A travel trigger is recorded with
its time and position, and a full queue drops its oldest. -/
def Obligations.CameraPortsCarryPacketsAndTriggers : Prop :=
  ∀ (s : State) (h : Half) (k : Fin 2), s.awake h (cxpL h k) →
    (∀ (kind : Fin 3) (ok : Bool) (payload : List Word),
      (ok = true → (s.dev.cxp h k).rx.length + 1 + payload.length ≤ 64 → ∃ t, exec (.cxpControlRx h k kind ok payload) s = .next t ∧ t.ref = s.ref ∧ t.mem = s.mem ∧
        (t.dev.cxp h k).rx = (s.dev.cxp h k).rx ++ [payload.length % 256 + kind.val * 2 ^ 8] ++ payload.map (·.toNat) ∧ t.dev.raised (cxpL h k) 2) ∧
      ((ok = false ∨ 64 < (s.dev.cxp h k).rx.length + 1 + payload.length) → ∃ t, exec (.cxpControlRx h k kind ok payload) s = .next t ∧ t.ref = s.ref ∧ t.mem = s.mem ∧
        t.dev.cxps = s.dev.cxps ∧ t.dev.g (cxpL h k) CXP_CERR.CRC = min (s.dev.g (cxpL h k) CXP_CERR.CRC + 1) (2 ^ CXP_CERR.CRC.w - 1) ∧ t.dev.raised (cxpL h k) 3)) ∧
    (∀ v : Word, s.sole h →
      (64 ≤ (s.dev.cxp h k).tx.length → ∃ t, exec (.cxpCtltxWrite h k v) s = .next t ∧ t.ref = s.ref ∧ t.mem = s.mem ∧ s.dev.onlyRegs [cxpL h k + 0x03C] t.dev) ∧
      ((s.dev.cxp h k).tx.length < 64 → ((s.dev.cxp h k).tx ++ [v.toNat]).length = ((s.dev.cxp h k).tx ++ [v.toNat]).headD 0 % 256 + 1 →
        ∃ t, exec (.cxpCtltxWrite h k v) s = .next t ∧ t.ref = s.ref ∧ t.mem = s.mem ∧ (t.dev.cxp h k).tx = [] ∧ (t.dev.cxp h k).sent = (s.dev.cxp h k).tx ++ [v.toNat] ∧
          (t.dev.cxp h k).rx = (s.dev.cxp h k).rx)) ∧
    ((s.dev.cxp h k).rx = [] → ∃ t, exec (.cxpCtlrxRead h k) s = .next t ∧ t.ref = s.ref ∧ t.mem = s.mem ∧ t.dev = { s.dev with readData := 0 }) ∧
    (∀ w rest, (s.dev.cxp h k).rx = w :: rest → ∃ t, exec (.cxpCtlrxRead h k) s = .next t ∧ t.ref = s.ref ∧ t.mem = s.mem ∧ (t.dev.cxp h k).rx = rest ∧
      t.dev.readData = BitVec.ofNat 32 w ∧ t.dev.g (cxpL h k) CXP_CTLLV.RXCOUNT = rest.length % 2 ^ CXP_CTLLV.RXCOUNT.w) ∧
    (∃ t, exec (.cxpLinkUp h k) s = .next t ∧ t.ref = s.ref ∧ t.mem = s.mem ∧ t.dev.g (cxpL h k) CXP_STAT.LINK = 2 ∧ t.dev.raised (cxpL h k) 0) ∧
    (∀ line, s.dev.g (cxpL h k) CXP_STAT.LINK = 2 → ∃ t, exec (.cxpLinkDown h k line) s = .next t ∧ t.ref = s.ref ∧ t.mem = s.mem ∧ t.dev.g (cxpL h k) CXP_STAT.LINK = 0 ∧
      t.dev.on (cxpL h k) CXP_STAT.STREAMING = false ∧ t.dev.raised (cxpL h k) 1 ∧
      t.dev.g (cxpL h k) CXP_CERR.LOST = min (s.dev.g (cxpL h k) CXP_CERR.LOST + b2n line) (2 ^ CXP_CERR.LOST.w - 1)) ∧
    (s.dev.armed (pageOf h.n .lpe k) = false → ∃ t, exec (.cxpFifoOverflow h k) s = .next t ∧ t.ref = s.ref ∧ t.mem = s.mem ∧ t.dev.raised (cxpL h k) 5 ∧
      t.dev.g (cxpL h k) CXP_CERR.LOST = min (s.dev.g (cxpL h k) CXP_CERR.LOST + 1) (2 ^ CXP_CERR.LOST.w - 1)) ∧
    (∀ x, s.dev.histAt h (s.dev.travelBeam h k) (s.dev.tb h) = some x →
      (s.dev.g (cxpL h k) CXP_CFG.TRIG = 1 → x.sync = true → x.back = false →
        (∀ p, (s.dev.cxp h k).lastTrig = some p → (s.dev.g (cxpL h k) CXP_TPITCH.PITCH : Int) ≤ posDiff x.pos p) →
        ∃ t, exec (.travelTrigger h k) s = .next t ∧ t.ref = s.ref ∧ t.mem = s.mem ∧ (t.dev.cxp h k).lastTrig = some x.pos ∧
          (t.dev.cxp h k).trigs = (if 16 ≤ (s.dev.cxp h k).trigs.length then (s.dev.cxp h k).trigs.drop 1 else (s.dev.cxp h k).trigs) ++ [(s.dev.tb h, x.pos)] ∧
          ((s.dev.cxp h k).trigs.length < 16 → t.dev.regs = s.dev.regs) ∧ (16 ≤ (s.dev.cxp h k).trigs.length → t.dev.raised (cxpL h k) 4)) ∧
      ((s.dev.g (cxpL h k) CXP_CFG.TRIG ≠ 1 ∨ x.sync = false ∨ x.back = true) → exec (.travelTrigger h k) s = .next s))

/-- R241, R245, R246: a line on another stream, or while the link is not UP, does nothing. In free run a line of a sound image is stamped LAT before
its marker; a running pipe with no commit waiting takes it and counts it where its position is accepted, which then is the highest, and
counts it STILL where it is not. -/
def Obligations.LinesAreStampedAndTaken : Prop :=
  ∀ (s : State) (h : Half) (k : Fin 2) (stream : BitVec 8) (fmt : Fin 5) (fresh : Bool) (pix : List (BitVec 24)), s.awake h (cxpL h k) →
    ((s.dev.g (cxpL h k) CXP_STAT.LINK ≠ 2 ∨ stream.toNat ≠ s.dev.g (cxpL h k) CXP_CFG.STREAM) → exec (.cxpLineMarker h k stream fmt fresh pix) s = .next s) ∧
    (s.dev.g (cxpL h k) CXP_STAT.LINK = 2 → stream.toNat = s.dev.g (cxpL h k) CXP_CFG.STREAM →
      (fresh = true → fmt.val ≠ s.dev.g (cxpL h k) CXP_CFG.FMT → s.dev.armed (pageOf h.n .lpe k) = false →
        ∃ t, exec (.cxpLineMarker h k stream fmt fresh pix) s = .next t ∧ t.ref = s.ref ∧ t.mem = s.mem ∧ t.dev.pipes = s.dev.pipes ∧
          t.dev.g (cxpL h k) CXP_CLINE.FMT = min (s.dev.g (cxpL h k) CXP_CLINE.FMT + 1) (2 ^ CXP_CLINE.FMT.w - 1)) ∧
      (fresh = true → fmt.val = s.dev.g (cxpL h k) CXP_CFG.FMT → s.dev.g (cxpL h k) CXP_CFG.TRIG = 0 → s.dev.armed (pageOf h.n .lpe k) = false →
        s.dev.clocked (lpeL h k) = true → s.dev.on (lpeL h k) LPE_STAT.RUN = true →
        ∀ x, s.dev.histAt h (s.dev.travelBeam h k) (s.dev.tb h - s.dev.g (cxpL h k) CXP_LAT.LAT) = some x →
          (s.dev.accepts h k ⟨s.dev.tb h - s.dev.g (cxpL h k) CXP_LAT.LAT, x.pos, x.sync⟩ = true →
            ∃ t, exec (.cxpLineMarker h k stream fmt fresh pix) s = .next t ∧ t.ref = s.ref ∧ t.mem = s.mem ∧ (t.dev.pipe h k).pmax = some x.pos ∧
              t.dev.g (lpeL h k) LPE_CLINE.LINES = (s.dev.g (lpeL h k) LPE_CLINE.LINES + 1) % 2 ^ LPE_CLINE.LINES.w ∧ t.dev.chans = s.dev.chans) ∧
          (s.dev.accepts h k ⟨s.dev.tb h - s.dev.g (cxpL h k) CXP_LAT.LAT, x.pos, x.sync⟩ = false →
            ∃ t, exec (.cxpLineMarker h k stream fmt fresh pix) s = .next t ∧ t.ref = s.ref ∧ t.mem = s.mem ∧ (t.dev.pipe h k).pmax = (s.dev.pipe h k).pmax ∧
              (t.dev.pipe h k).row = (s.dev.pipe h k).row ∧
              t.dev.g (lpeL h k) LPE_CSKIP.STILL = min (s.dev.g (lpeL h k) LPE_CSKIP.STILL + 1) (2 ^ LPE_CSKIP.STILL.w - 1))))

/-- R83, R254 to R256, R261: a row whose time is up closes, counted as uncompared while REGOK is 0 and as without its expected row where that never
came or came absent; an engine without production work takes the oldest Loupe request and starts its render, which gives the pipe the row once
drawn, or answers it absent where the row is not valid; the write response of the oldest record stores its 16 bytes in its slot and advances WR,
and every other byte of memory stays. R247, R252, R261: a table window writes the shadow bank of its table and steps its index, or is dropped
with WREJ while a commit is pending or the copy runs; the copy makes the shadow banks the active ones' copies; RD takes only a value that leaves
at most a ring of records; the travel log's base takes a write only while the pipe is disabled. -/
def Obligations.PipesCloseRowsByTheirTables : Prop :=
  (∀ (s : State) (h : Half),
     (∀ (k : Fin 2) o, s.awake h (lpeL h k) → s.dev.on (lpeL h k) LPE_STAT.RUN = true → (s.dev.pipe h k).row = some o →
       ∃ t, exec (.loupeRowTimeout h k) s = .next t ∧ t.ref = s.ref ∧ t.mem = s.mem ∧ (t.dev.pipe h k).row = none ∧
         t.dev.on (lpeL h k) LPE_STAT.ROWOPEN = false ∧ (∃ g, (t.dev.pipe h k).closed = some (o.row, g)) ∧
         (s.dev.on (lpeL h k) LPE_STAT.REGOK = false → t.dev.g (lpeL h k) LPE_CREG.UNCMP = min (s.dev.g (lpeL h k) LPE_CREG.UNCMP + 1) (2 ^ LPE_CREG.UNCMP.w - 1)) ∧
         (s.dev.on (lpeL h k) LPE_STAT.REGOK = true → t.dev.g (lpeL h k) LPE_CREG.UNCMP = s.dev.g (lpeL h k) LPE_CREG.UNCMP) ∧
         ((s.dev.pipe h k).exp.find? (fun y => y.row = o.row) = none →
           (t.dev.pipe h k).recs = (s.dev.pipe h k).recs ∧
           ((s.dev.pipe h k).gone.contains o.row = false → t.dev.raised (lpeL h k) 4 ∧
             t.dev.g (lpeL h k) LPE_CEXP.NOEXP = min (s.dev.g (lpeL h k) LPE_CEXP.NOEXP + 1) (2 ^ LPE_CEXP.NOEXP.w - 1)) ∧
           ((s.dev.pipe h k).gone.contains o.row = true →
             t.dev.g (lpeL h k) LPE_CEXP.NOREC = min (s.dev.g (lpeL h k) LPE_CEXP.NOREC + 1) (2 ^ LPE_CEXP.NOREC.w - 1)))) ∧
     (∀ e : Fin 8, s.awake h (rowL h e) →
       (∀ q rest, (s.dev.eng h e).loupe = none → (s.dev.eng h e).loupeQ = q :: rest → (s.dev.eng h e).cur = none → (s.dev.eng h e).due = [] →
         (s.dev.eng h e).tinv = none → (s.dev.eng h e).minv = none →
         ∃ t, exec (.loupeRenderRequest h e) s = .next t ∧ t.ref = s.ref ∧ t.mem = s.mem ∧ (t.dev.eng h e).loupe = some q ∧ (t.dev.eng h e).loupeQ = rest ∧
           t.dev.on (rowL h e) ROW_STAT.LOUPE = true ∧
           ((s.dev.ringD h e (s.dev.lpeC h q.pipe) = 0 ∨ s.dev.rowValid h e (s.dev.lpeC h q.pipe) q.row = false) →
             (t.dev.eng h e).lcur = (s.dev.eng h e).lcur ∧ s.dev.regsKept [rowL h e + 0x900] t.dev)) ∧
       ((s.dev.eng h e).due ≠ [] → exec (.loupeRenderRequest h e) s = .next s) ∧
       (∀ q, (s.dev.eng h e).loupe = some q →
         ((s.dev.eng h e).lcur = none → ∃ t, exec (.expectedRowArrive h e) s = .next t ∧ t.ref = s.ref ∧ t.mem = s.mem ∧ (t.dev.eng h e).loupe = none ∧
           q.row ∈ (t.dev.pipe h q.pipe).gone ∧ (t.dev.pipe h q.pipe).exp = (s.dev.pipe h q.pipe).exp ∧
           t.dev.on (rowL h e) ROW_STAT.LOUPE = false ∧ s.dev.regsKept [rowL h e + 0x900] t.dev) ∧
         (∀ y, (s.dev.eng h e).lcur = some y →
           ((s.dev.eng h e).drawn y = true → ∃ t, exec (.expectedRowArrive h e) s = .next t ∧ t.ref = s.ref ∧ t.mem = s.mem ∧
             (t.dev.eng h e).loupe = none ∧ (t.dev.eng h e).lcur = none ∧
             (⟨q.row, ((s.dev.eng h e).row y).1, ((s.dev.eng h e).row y).2⟩ : ExpRow) ∈ (t.dev.pipe h q.pipe).exp ∧
             t.dev.on (rowL h e) ROW_STAT.LOUPE = false ∧ s.dev.regsKept [rowL h e + 0x900] t.dev) ∧
           ((s.dev.eng h e).drawn y = false → exec (.expectedRowArrive h e) s = .next s)))) ∧
     (∀ (k : Fin 2) r rest, s.ref.live h = true → (s.dev.pipe h k).recs = r :: rest →
       let a := halfAddr h (s.dev.g (lpeL h k) LPE_RING_LO.BASE * 2 ^ 12 + s.dev.g (lpeL h k) LPE_RING_HI.BASE * 2 ^ 32) +
         s.dev.g (lpeL h k) LPE_RING_WR.IDX % 2 ^ s.dev.g (lpeL h k) LPE_RING_CFG.LOG2 * 16
       ∃ t, exec (.defectRecordWritten h k) s = .next t ∧ t.ref = s.ref ∧ (t.dev.pipe h k).recs = rest ∧
         t.dev.g (lpeL h k) LPE_RING_WR.IDX = (s.dev.g (lpeL h k) LPE_RING_WR.IDX + 1) % 2 ^ 21 ∧
         (a < 2 ^ 36 → (∀ i, i < 16 → s.dev.backed (a + i) = true) → s.ref.targets a = [a] →
           (∀ i, i < 16 → t.mem.byte (a + i) = BitVec.ofNat 8 (r / 2 ^ (8 * i))) ∧
           (∀ b, (b < a ∨ a + 16 ≤ b) → t.mem.byte b = s.mem.byte b) ∧ s.dev.regsKept [lpeL h k + LPE_RING_WR.IDX.off] t.dev))) ∧
  (∀ (s : State) (h : Half) (k : Fin 2) (v : Word), s.ref.live h = true → s.sole h →
     (∀ knot, s.dev.clocked (lpeL h k) = true → (s.dev.on (lpeL h k) PG_COMMIT.PENDING || (s.dev.pipe h k).copying) = true →
       ∃ t, exec (.lpeTableWrite h k knot v) s = .next t ∧ t.ref = s.ref ∧ t.mem = s.mem ∧ t.dev.raised (lpeL h k) 7 ∧ s.dev.onlyRegs [lpeL h k + 0x03C] t.dev) ∧
     (s.dev.on (lpeL h k) PG_COMMIT.PENDING = false → (s.dev.pipe h k).copying = false →
       ∃ t, exec (.lpeTableWrite h k false v) s = .next t ∧ t.ref = s.ref ∧ t.mem = s.mem ∧ (t.dev.pipe h k).ff = (s.dev.pipe h k).ff ∧
         (t.dev.pipe h k).kn = (s.dev.pipe h k).kn ∧ (t.dev.pipe h k).knS = (s.dev.pipe h k).knS ∧
         (∀ i, bankAt (if (t.dev.pipe h k).active1 then (t.dev.pipe h k).ff0 else (t.dev.pipe h k).ff1) i =
           if i = s.dev.g (lpeL h k) LPE_FFW_IDX.IDX then v.toNat else bankAt (if (s.dev.pipe h k).active1 then (s.dev.pipe h k).ff0 else (s.dev.pipe h k).ff1) i) ∧
         s.dev.regsKept [lpeL h k + 0x03C, lpeL h k + LPE_FFW_IDX.IDX.off] t.dev) ∧
     (s.dev.on (lpeL h k) PG_COMMIT.PENDING = false → (s.dev.pipe h k).copying = false → s.dev.g (lpeL h k) LPE_KNW_IDX.IDX ≤ 64 →
       ∃ t, exec (.lpeTableWrite h k true v) s = .next t ∧ t.ref = s.ref ∧ t.mem = s.mem ∧ (t.dev.pipe h k).ff = (s.dev.pipe h k).ff ∧
         (t.dev.pipe h k).kn = (s.dev.pipe h k).kn ∧
         (∀ i, bankAt (t.dev.pipe h k).knS i = if i = s.dev.g (lpeL h k) LPE_KNW_IDX.IDX then v.toNat else bankAt (s.dev.pipe h k).knS i) ∧
         s.dev.regsKept [lpeL h k + 0x03C, lpeL h k + LPE_KNW_IDX.IDX.off] t.dev) ∧
     (s.dev.clocked (lpeL h k) = true → (s.dev.pipe h k).copying = true → ∃ t, exec (.lpeBankCopyDone h k) s = .next t ∧ t.ref = s.ref ∧ t.mem = s.mem ∧
       t.dev.regs = s.dev.regs ∧ (t.dev.pipe h k).copying = false ∧ (t.dev.pipe h k).ff0 = (s.dev.pipe h k).ff ∧ (t.dev.pipe h k).ff1 = (s.dev.pipe h k).ff ∧
       (t.dev.pipe h k).kn0 = (s.dev.pipe h k).kn ∧ (t.dev.pipe h k).kn1 = (s.dev.pipe h k).kn) ∧
     ((s.dev.g (lpeL h k) LPE_RING_WR.IDX + 2 ^ 21 - fget LPE_RING_RD.IDX v) % 2 ^ 21 ≤ 2 ^ s.dev.g (lpeL h k) LPE_RING_CFG.LOG2 →
       ∃ t, exec (.lpeRingRdWrite h k v) s = .next t ∧ t.ref = s.ref ∧ t.mem = s.mem ∧ t.dev.g (lpeL h k) LPE_RING_RD.IDX = fget LPE_RING_RD.IDX v ∧
         s.dev.onlyRegs [lpeL h k + 0x03C, lpeL h k + LPE_RING_RD.IDX.off] t.dev) ∧
     (s.dev.clocked (lpeL h k) = true → 2 ^ s.dev.g (lpeL h k) LPE_RING_CFG.LOG2 < (s.dev.g (lpeL h k) LPE_RING_WR.IDX + 2 ^ 21 - fget LPE_RING_RD.IDX v) % 2 ^ 21 →
       ∃ t, exec (.lpeRingRdWrite h k v) s = .next t ∧ t.ref = s.ref ∧ t.mem = s.mem ∧ t.dev.raised (lpeL h k) 7 ∧ s.dev.onlyRegs [lpeL h k + 0x03C] t.dev) ∧
     (∀ hi, (s.dev.clocked (lpeL h k) = false → ∃ t, exec (.lpeTlogWrite h k hi v) s = .next t ∧ t.ref = s.ref ∧ t.mem = s.mem ∧
         t.dev.rd (lpeL h k) (if hi then LPE_TLOG_HI.BASE.off else LPE_TLOG_LO.BASE.off) = (if hi then v &&& 0xFF else v &&& 0xFFFFF01F) ∧
         s.dev.onlyRegs [lpeL h k + 0x03C, lpeL h k + (if hi then LPE_TLOG_HI.BASE.off else LPE_TLOG_LO.BASE.off)] t.dev) ∧
       (s.dev.clocked (lpeL h k) = true → ∃ t, exec (.lpeTlogWrite h k hi v) s = .next t ∧ t.ref = s.ref ∧ t.mem = s.mem ∧ t.dev.raised (lpeL h k) 7 ∧
         s.dev.onlyRegs [lpeL h k + 0x03C] t.dev)))

/-! ### Chapters 10 to 12: the Kuxon cores -/

/-- R297, Tables 11.5 and 11.6: what the arithmetic, logic, move and compare instructions write: the result, Z and N from it, C the carry or the
borrow, V the signed overflow. Only the destination register, those flags and the PC change. -/
def Obligations.ArithmeticAndLogicSetResultAndFlags : Prop :=
  ∀ (s : State) (r : Fin 3) (c : Fin 20) (rd rs : Fin 16) (lim : Option (BitVec 14)) (imm : BitVec 6),
    let k := s.dev.kx r c
    let x := k.b16 rd
    let y := k.b16 rs
    let q := BitVec.ofNat 16 (immVal lim imm)
    let cin := b2n (k.st 2)
    (s.issues r c [encR 0x1 rd rs 0] → ∃ t, exec (.add r c rd rs) s = .next t ∧ s.ran t r c 1 [rd] [0, 1, 2, 3] ∧ (t.dev.kx r c).holds rd (x + y) ∧
      (t.dev.kx r c).st 2 = decide (65536 ≤ x.toNat + y.toNat) ∧ (t.dev.kx r c).st 3 = decide (x.toInt + y.toInt ≠ (x + y).toInt)) ∧
    (s.issues r c [encR 0x1 rd rs 1] → ∃ t, exec (.adc r c rd rs) s = .next t ∧ s.ran t r c 1 [rd] [0, 1, 2, 3] ∧
      (t.dev.kx r c).holds rd (x + y + BitVec.ofNat 16 cin) ∧ (t.dev.kx r c).st 2 = decide (65536 ≤ x.toNat + y.toNat + cin) ∧
      (t.dev.kx r c).st 3 = decide (x.toInt + y.toInt + (cin : Int) ≠ (x + y + BitVec.ofNat 16 cin).toInt)) ∧
    (s.issues r c [encR 0x1 rd rs 2] → ∃ t, exec (.sub r c rd rs) s = .next t ∧ s.ran t r c 1 [rd] [0, 1, 2, 3] ∧ (t.dev.kx r c).holds rd (x - y) ∧
      (t.dev.kx r c).st 2 = decide (x.toNat < y.toNat) ∧ (t.dev.kx r c).st 3 = decide (x.toInt - y.toInt ≠ (x - y).toInt)) ∧
    (s.issues r c [encR 0x1 rd rs 3] → ∃ t, exec (.sbc r c rd rs) s = .next t ∧ s.ran t r c 1 [rd] [0, 1, 2, 3] ∧
      (t.dev.kx r c).holds rd (x - y - BitVec.ofNat 16 cin) ∧ (t.dev.kx r c).st 2 = decide (x.toNat < y.toNat + cin) ∧
      (t.dev.kx r c).st 3 = decide (x.toInt - y.toInt - (cin : Int) ≠ (x - y - BitVec.ofNat 16 cin).toInt)) ∧
    (s.issues r c [encR 0x2 rd rs 0] → ∃ t, exec (.and r c rd rs) s = .next t ∧ s.ran t r c 1 [rd] [0, 1] ∧ (t.dev.kx r c).holds rd (x &&& y)) ∧
    (s.issues r c [encR 0x2 rd rs 1] → ∃ t, exec (.or r c rd rs) s = .next t ∧ s.ran t r c 1 [rd] [0, 1] ∧ (t.dev.kx r c).holds rd (x ||| y)) ∧
    (s.issues r c [encR 0x2 rd rs 2] → ∃ t, exec (.xor r c rd rs) s = .next t ∧ s.ran t r c 1 [rd] [0, 1] ∧ (t.dev.kx r c).holds rd (x ^^^ y)) ∧
    (s.issues r c [encR 0x2 rd rs 3] → ∃ t, exec (.mov r c rd rs) s = .next t ∧ s.ran t r c 1 [rd] [] ∧ (t.dev.kx r c).reg rd = k.reg rs) ∧
    (s.issues r c [encR 0x3 rd rs 0] → ∃ t, exec (.cmp r c rd rs) s = .next t ∧ s.ran t r c 1 [] [0, 1, 2, 3] ∧ (t.dev.kx r c).st 0 = (x == y) ∧
      (t.dev.kx r c).st 1 = (x - y).msb ∧ (t.dev.kx r c).st 2 = decide (x.toNat < y.toNat) ∧
      (t.dev.kx r c).st 3 = decide (x.toInt - y.toInt ≠ (x - y).toInt)) ∧
    (s.issues r c [encR 0x3 rd rs 1] → ∃ t, exec (.tst r c rd rs) s = .next t ∧ s.ran t r c 1 [] [0, 1] ∧ (t.dev.kx r c).st 0 = ((x &&& y) == 0) ∧
      (t.dev.kx r c).st 1 = (x &&& y).msb) ∧
    (s.issues r c (unitOf lim (encI 0x7 rd imm.toNat)) → ∃ t, exec (.addi r c rd lim imm) s = .next t ∧
      s.ran t r c (if lim.isSome then 3 else 1) [rd] [0, 1, 2, 3] ∧ (t.dev.kx r c).holds rd (x + q) ∧
      (t.dev.kx r c).st 2 = decide (65536 ≤ x.toNat + q.toNat) ∧ (t.dev.kx r c).st 3 = decide (x.toInt + q.toInt ≠ (x + q).toInt)) ∧
    (s.issues r c (unitOf lim (encI 0x8 rd imm.toNat)) → ∃ t, exec (.movi r c rd lim imm) s = .next t ∧
      s.ran t r c (if lim.isSome then 3 else 1) [rd] [] ∧ (t.dev.kx r c).reg rd = q.toNat) ∧
    (s.issues r c (unitOf lim (encI 0x9 rd imm.toNat)) → ∃ t, exec (.cmpi r c rd lim imm) s = .next t ∧
      s.ran t r c (if lim.isSome then 3 else 1) [] [0, 1, 2, 3] ∧ (t.dev.kx r c).st 0 = (x == q) ∧ (t.dev.kx r c).st 1 = (x - q).msb ∧
      (t.dev.kx r c).st 2 = decide (x.toNat < q.toNat) ∧ (t.dev.kx r c).st 3 = decide (x.toInt - q.toInt ≠ (x - q).toInt)) ∧
    (s.issues r c [encI 0x0 rd 0x02] → ∃ t, exec (.neg r c rd) s = .next t ∧ s.ran t r c 1 [rd] [0, 1, 2, 3] ∧ (t.dev.kx r c).holds rd (0 - x) ∧
      (t.dev.kx r c).st 2 = (x != 0) ∧ (t.dev.kx r c).st 3 = (x == 0x8000)) ∧
    (s.issues r c [encI 0x0 rd 0x03] → ∃ t, exec (.not r c rd) s = .next t ∧ s.ran t r c 1 [rd] [0, 1] ∧ (t.dev.kx r c).holds rd (~~~x))

/-- R298, R300 to R302, Tables 11.7 and 11.8: products, quotients and remainders with what a zero divisor gives, the shifts by 0 to 31 with the bit
that leaves in C, parity, bit reversal, byte swap, sign extension, the CRC step. A division by zero with DZTRAP = 1 takes the DZ exception. -/
def Obligations.MultiplyDivideShiftAndBitSteps : Prop :=
  ∀ (s : State) (r : Fin 3) (c : Fin 20) (rd rs n : Fin 16),
    let k := s.dev.kx r c
    let x := k.b16 rd
    let y := k.b16 rs
    let sh (i : Instr) (w : Nat) (n : Nat) (v : BitVec 16) (out : Bool) : Prop := s.issues r c [w] →
      ∃ t, exec i s = .next t ∧ s.ran t r c 1 [rd] [0, 1, 2] ∧ (t.dev.kx r c).holds rd v ∧ (t.dev.kx r c).st 2 = if n = 0 then k.st 2 else out
    let dv (i : Instr) (fn : Nat) (v : BitVec 16) (o : Bool) : Prop := s.issues r c [encR 0x4 rd rs fn] → y ≠ 0 →
      ∃ t, exec i s = .next t ∧ s.ran t r c 1 [rd] [0, 1, 2, 3] ∧ (t.dev.kx r c).holds rd v ∧ (t.dev.kx r c).st 2 = false ∧ (t.dev.kx r c).st 3 = o
    let dz (i : Instr) (fn : Nat) (v : BitVec 16) : Prop := s.issues r c [encR 0x4 rd rs fn] → y = 0 →
      (k.st 10 = false → ∃ t, exec i s = .next t ∧ s.ran t r c 1 [rd] [0, 1, 2, 3, 4] ∧ (t.dev.kx r c).holds rd v ∧ (t.dev.kx r c).st 2 = false ∧
        (t.dev.kx r c).st 3 = false ∧ (t.dev.kx r c).st 4 = true) ∧
      (k.st 10 = true → k.st 11 = false → ∃ t, exec i s = .next t ∧ t.ref = s.ref ∧ t.mem = s.mem ∧ (k.setSt 4 true).entered (t.dev.kx r c) 18 ∧
        (t.dev.kx r c).cw 0x07 = 2)
    let m := x.toNat * y.toNat
    let n5 := y.toNat % 32
    let a := k.cw 0x18 + k.cw 0x19 * 2 ^ 16
    let acc := k.cw 0x1C + k.cw 0x1D * 2 ^ 16
    (s.issues r c [encR 0x3 rd rs 2] → ∃ t, exec (.mul r c rd rs) s = .next t ∧ s.ran t r c 1 [rd] [0, 1, 2, 3] ∧
      (t.dev.kx r c).holds rd (BitVec.ofNat 16 m) ∧ (t.dev.kx r c).st 2 = decide (65536 ≤ m) ∧ (t.dev.kx r c).st 3 = decide (65536 ≤ m)) ∧
    (s.issues r c [encR 0x3 rd rs 3] → ∃ t, exec (.mulhu r c rd rs) s = .next t ∧ s.ran t r c 1 [rd] [0, 1, 2, 3] ∧
      (t.dev.kx r c).holds rd (BitVec.ofNat 16 (m / 65536)) ∧ (t.dev.kx r c).st 2 = false ∧ (t.dev.kx r c).st 3 = false) ∧
    dv (.divu r c rd rs) 0 (x / y) false ∧ dv (.divs r c rd rs) 1 (x.sdiv y) (x == 0x8000 && y == 0xFFFF) ∧ dv (.remu r c rd rs) 2 (x % y) false ∧
    dv (.rems r c rd rs) 3 (x.srem y) (x == 0x8000 && y == 0xFFFF) ∧
    dz (.divu r c rd rs) 0 0xFFFF ∧ dz (.divs r c rd rs) 1 (if x.msb then 0x8000 else 0x7FFF) ∧ dz (.remu r c rd rs) 2 x ∧ dz (.rems r c rd rs) 3 x ∧
    sh (.shl r c rd rs) (encR 0x5 rd rs 0) n5 (x <<< n5) (decide (n5 ≤ 16) && x.getLsbD (16 - n5)) ∧
    sh (.shr r c rd rs) (encR 0x5 rd rs 1) n5 (x >>> n5) (x.getLsbD (n5 - 1)) ∧
    sh (.sar r c rd rs) (encR 0x5 rd rs 2) n5 (x.sshiftRight n5) (x.getLsbD (min 15 (n5 - 1))) ∧
    sh (.ror r c rd rs) (encR 0x5 rd rs 3) n5 (x.rotateRight n5) (x.rotateRight n5).msb ∧
    sh (.shli r c rd n) (encI 0x6 rd n) n (x <<< n.val) (x.getLsbD (16 - n.val)) ∧
    sh (.shri r c rd n) (encI 0x6 rd (0x10 + n.val)) n (x >>> n.val) (x.getLsbD (n.val - 1)) ∧
    sh (.sari r c rd n) (encI 0x6 rd (0x20 + n.val)) n (x.sshiftRight n.val) (x.getLsbD (n.val - 1)) ∧
    sh (.rori r c rd n) (encI 0x6 rd (0x30 + n.val)) n (x.rotateRight n.val) (x.rotateRight n.val).msb ∧
    (s.issues r c [encI 0x0 rd 0x04] → ∃ t, exec (.par r c rd) s = .next t ∧ s.ran t r c 1 [] [2] ∧
      (t.dev.kx r c).st 2 = decide (((List.range 16).filter (fun i => x.getLsbD i)).length % 2 = 1)) ∧
    (s.issues r c [encI 0x0 rd 0x05] → ∃ t, exec (.brev r c rd) s = .next t ∧ s.ran t r c 1 [rd] [0, 1] ∧ (t.dev.kx r c).holds rd x.reverse) ∧
    (s.issues r c [encI 0x0 rd (0x30 + n.val)] → ∃ t, exec (.brevn r c rd n) s = .next t ∧ s.ran t r c 1 [rd] [0, 1] ∧
      (t.dev.kx r c).holds rd (x.reverse >>> (15 - n.val))) ∧
    (s.issues r c [encI 0x0 rd 0x06] → ∃ t, exec (.swpb r c rd) s = .next t ∧ s.ran t r c 1 [rd] [0, 1] ∧ (t.dev.kx r c).holds rd (x.rotateLeft 8)) ∧
    (s.issues r c [encI 0x0 rd 0x07] → ∃ t, exec (.sxb r c rd) s = .next t ∧ s.ran t r c 1 [rd] [0, 1] ∧
      (t.dev.kx r c).holds rd ((x.setWidth 8).signExtend 16)) ∧
    (s.issues r c [encI 0x0 rd 0x08] → ∃ t, exec (.crc r c rd) s = .next t ∧ s.ran t r c 1 [] [0] [0x1C, 0x1D] ∧
      (t.dev.kx r c).cw 0x1C = crcStep (bit (k.cw 0x1A) 0) (bit (k.cw 0x1A) 1) acc a (k.reg rd) % 65536 ∧
      (bit (k.cw 0x1A) 0 = false → (t.dev.kx r c).cw 0x1D = k.cw 0x1D))

/-- R283, R293, R304 to R307: a met branch goes to its target, CALL and CALLR keep the address past the unit, an unmet branch goes on; LOOP sets up the
hardware loop or skips a body of count 0; RETI restores what entry saved; an illegal unit takes ILLEGAL, or a double fault with INH = 1;
an enabled pending line enters its handler. -/
def Obligations.BranchesLoopsAndEntries : Prop :=
  ∀ (s : State) (r : Fin 3) (c : Fin 20) (rd rs : Fin 16) (lim : Option (BitVec 14)) (imm : BitVec 6),
    let k := s.dev.kx r c
    let len : Nat := if lim.isSome then 3 else 1
    let past := (k.pc + len) % 2 ^ 14
    let keys := [kxcL r c + KXC_STAT.STATE.off, kxcL r c + KXC_PC.PC.off]
    (s.issues r c (unitOf lim (encI 0xD rd imm.toNat)) →
      (condMet rd (k.st 0) (k.st 1) (k.st 2) (k.st 3) = false → ∃ t, exec (.bcc r c rd lim imm) s = .next t ∧ s.ran t r c len [] []) ∧
      (condMet rd (k.st 0) (k.st 1) (k.st 2) (k.st 3) = true → ∃ t, exec (.bcc r c rd lim imm) s = .next t ∧ t.mem = s.mem ∧ s.coreOnly t r c keys ∧
        (t.dev.kx r c).pc = (((k.pc : Int) + (len : Int) + brOffset lim imm) % 2 ^ 14).toNat ∧
        (∀ w, (t.dev.kx r c).cw w = k.cw w) ∧ (∀ i, i < 16 → (t.dev.kx r c).reg i = if rd.val = 15 ∧ i = 15 then past else k.reg i))) ∧
    (s.issues r c [encR 0xC 0 rs 0] → ∃ t, exec (.jr r c rs) s = .next t ∧ t.mem = s.mem ∧ s.coreOnly t r c keys ∧
      (t.dev.kx r c).pc = k.reg rs % 2 ^ 14 ∧ (∀ w, (t.dev.kx r c).cw w = k.cw w) ∧ (∀ i, i < 16 → (t.dev.kx r c).reg i = k.reg i)) ∧
    (s.issues r c [encR 0xC rd rs 1] → ∃ t, exec (.callr r c rd rs) s = .next t ∧ t.mem = s.mem ∧ s.coreOnly t r c keys ∧
      (t.dev.kx r c).pc = k.reg rs % 2 ^ 14 ∧ (∀ w, (t.dev.kx r c).cw w = k.cw w) ∧
      (∀ i, i < 16 → (t.dev.kx r c).reg i = if i = rd.val then (k.pc + 1) % 2 ^ 14 else k.reg i)) ∧
    (s.issues r c (unitOf lim (encI 0xB rd imm.toNat)) → k.st 9 = false → ∃ t, exec (.loop r c rd lim imm) s = .next t ∧ t.mem = s.mem ∧
      s.coreOnly t r c keys ∧ (t.dev.kx r c).cw 0x10 = past ∧ (t.dev.kx r c).cw 0x11 = (past + loopLen lim imm) % 2 ^ 14 ∧
      (∀ i, i < 16 → (t.dev.kx r c).reg i = k.reg i) ∧ (∀ i, i < 16 → i ≠ 9 → (t.dev.kx r c).st i = k.st i) ∧
      (k.reg rd = 0 → (t.dev.kx r c).pc = (past + loopLen lim imm + 1) % 2 ^ 14 ∧ (t.dev.kx r c).st 9 = false ∧ (t.dev.kx r c).cw 0x12 = k.cw 0x12) ∧
      (k.reg rd ≠ 0 → (t.dev.kx r c).pc = past ∧ (t.dev.kx r c).st 9 = true ∧ (t.dev.kx r c).cw 0x12 = k.reg rd)) ∧
    (s.issues r c [encI 0x0 0 0x01] → ∃ t, exec (.nop r c) s = .next t ∧ s.ran t r c 1 [] []) ∧
    (s.issues r c [encI 0x0 0 0x11] → k.st 11 = true → ∃ t, exec (.reti r c) s = .next t ∧ t.mem = s.mem ∧ s.coreOnly t r c keys ∧
      (t.dev.kx r c).pc = k.cw 0x05 % 2 ^ 14 ∧ (t.dev.kx r c).cw 0x01 = k.cw 0x06 &&& 0xF1F ∧ (t.dev.kx r c).pair = k.saved ∧
      (∀ w, w ≠ 0x01 → (t.dev.kx r c).cw w = k.cw w) ∧ (∀ i, i < 16 → (t.dev.kx r c).reg i = k.reg i)) ∧
    (s.kready r c = true → s.dev.unitUe r c = none →
      unitLegal (s.dev.pm r c) k.pc (roleOf r c) (s.dev.decEntry r) (k.st 11) (k.st 9) = false →
      (k.st 11 = false → ∃ t, exec (.illegal r c) s = .next t ∧ t.mem = s.mem ∧ s.coreOnly t r c keys ∧ k.entered (t.dev.kx r c) 17 ∧
        (t.dev.kx r c).cw 0x07 = 1 ∧ t.dev.g (kxcL r c) KXC_STAT.CAUSE = 1) ∧
      (k.st 11 = true → ∃ t, exec (.illegal r c) s = .next t ∧ t.mem = s.mem ∧ s.coreOnly t r c keys ∧ t.dev.kstate r c = ksDouble ∧
        (t.dev.kx r c).pc = k.pc ∧ t.dev.g (kxcL r c) KXC_PC.PC = k.pc % 2 ^ 14)) ∧
    (s.coreOn r c = true → s.dev.krunning r c = true → ∀ i, s.dev.kdue r c = some i → ∃ t, exec (.interruptEntry r c) s = .next t ∧ t.mem = s.mem ∧
      s.coreOnly t r c keys ∧ k.entered (t.dev.kx r c) i ∧ (t.dev.kx r c).wait = .none ∧ t.dev.kstate r c = ksRun) ∧
    (s.coreOn r c = true → s.dev.krunning r c = true → s.dev.kdue r c = none → exec (.interruptEntry r c) s = .next s)

/-- R276, R303, R308, R309: a load or store with an address below 0x8000 reaches the core's local RAM, low byte first; LDP and STP count the pointer
up; one iteration of each string instruction; REP FILLS stores k14 words in one step. No other byte of memory changes. -/
def Obligations.LoadsStoresAndStringsReachLocalRam : Prop :=
  ∀ (s : State) (r : Fin 3) (c : Fin 20) (rd rs : Fin 16) (lim : Option (BitVec 14)),
    let k := s.dev.kx r c
    let len : Nat := if lim.isSome then 3 else 1
    let base := kramBase r c
    let a := (k.reg rs + dispOf lim) % 65536
    let at_ (b : Nat) : Nat := (s.mem.byte (base + 2 * b)).toNat + 256 * (s.mem.byte (base + 2 * b + 1)).toNat
    let sound (b : Nat) : Prop := b < 0x8000 ∧ s.dev.cleanAt (base + 2 * b) 2
    let stored (t : State) (b v : Nat) : Prop := (t.mem.byte (base + 2 * b)).toNat + 256 * (t.mem.byte (base + 2 * b + 1)).toNat = v ∧
      ∀ j, j ≠ base + 2 * b → j ≠ base + 2 * b + 1 → t.mem.byte j = s.mem.byte j
    (k.pair.replay = .empty → sound a → s.issues r c (unitOf lim (encR 0xA rd rs 0)) → ∀ slow, ∃ t, exec (.ld r c rd rs lim slow) s = .next t ∧
      s.ran t r c len [rd] [] ∧ t.mem = s.mem ∧ (t.dev.kx r c).reg rd = at_ a) ∧
    (k.pair.replay = .empty → sound a → s.issues r c (unitOf lim (encR 0xA rd rs 2)) → ∀ slow, ∃ t, exec (.ldp r c rd rs lim slow) s = .next t ∧
      s.ran t r c len [rd, rs] [] ∧ t.mem = s.mem ∧ (t.dev.kx r c).reg rd = at_ a ∧ (rd ≠ rs → (t.dev.kx r c).reg rs = (k.reg rs + 1) % 65536)) ∧
    (sound a → s.issues r c (unitOf lim (encR 0xA rd rs 1)) → ∃ t, exec (.st r c rd rs lim) s = .next t ∧ s.ran t r c len [] [] ∧ stored t a (k.reg rd)) ∧
    (sound a → s.issues r c (unitOf lim (encR 0xA rd rs 3)) → ∃ t, exec (.stp r c rd rs lim) s = .next t ∧ s.ran t r c len [rs] [] ∧
      stored t a (k.reg rd) ∧ (t.dev.kx r c).reg rs = (k.reg rs + 1) % 65536) ∧
    (∀ slow, k.pair.replay = .empty → k.pair.first = none → sound (k.reg 12) →
      (sound (k.reg 13) → s.issues r c [encI 0x0 0 0x14] → ∃ t, exec (.movs r c slow) s = .next t ∧ s.ran t r c 1 [12, 13] [] ∧
        stored t (k.reg 13) (at_ (k.reg 12)) ∧ (t.dev.kx r c).reg 12 = (k.reg 12 + 1) % 65536 ∧ (t.dev.kx r c).reg 13 = (k.reg 13 + 1) % 65536) ∧
      (sound (k.reg 13) → s.issues r c [encI 0x0 0 0x16] → ∃ t, exec (.cmps r c slow) s = .next t ∧ s.ran t r c 1 [12, 13] [0, 1, 2, 3] ∧ t.mem = s.mem ∧
        (t.dev.kx r c).st 0 = decide (at_ (k.reg 12) = at_ (k.reg 13)) ∧ (t.dev.kx r c).st 2 = decide (at_ (k.reg 12) < at_ (k.reg 13)) ∧
        (t.dev.kx r c).reg 12 = (k.reg 12 + 1) % 65536 ∧ (t.dev.kx r c).reg 13 = (k.reg 13 + 1) % 65536) ∧
      (s.issues r c [encI 0x0 rd 0x17] → ∃ t, exec (.scans r c rd slow) s = .next t ∧ s.ran t r c 1 [12] [0, 1, 2, 3] ∧ t.mem = s.mem ∧
        (t.dev.kx r c).st 0 = decide (at_ (k.reg 12) = k.reg rd) ∧ (t.dev.kx r c).reg 12 = (k.reg 12 + 1) % 65536) ∧
      (s.issues r c [encI 0x0 0 0x18] → ∃ t, exec (.crcs r c slow) s = .next t ∧ s.ran t r c 1 [12] [0] [0x1C, 0x1D] ∧ t.mem = s.mem ∧
        (t.dev.kx r c).reg 12 = (k.reg 12 + 1) % 65536 ∧
        (t.dev.kx r c).cw 0x1C = crcStep (bit (k.cw 0x1A) 0) (bit (k.cw 0x1A) 1) (k.cw 0x1C + k.cw 0x1D * 2 ^ 16) (k.cw 0x18 + k.cw 0x19 * 2 ^ 16)
          (at_ (k.reg 12)) % 65536)) ∧
    (k.pair.first = none → sound (k.reg 13) → s.issues r c [encI 0x0 rd 0x15] → ∃ t, exec (.fills r c rd) s = .next t ∧ s.ran t r c 1 [13] [] ∧
      stored t (k.reg 13) (k.reg rd) ∧ (t.dev.kx r c).reg 13 = (k.reg 13 + 1) % 65536) ∧
    (∀ slow upTo, k.pair.first = none → (rd.val < 12 ∨ rd.val = 15) → k.stepping = false → s.dev.pmUe r c 1 = false → s.dev.kdue r c = none →
      k.reg 14 ≤ upTo → k.reg 13 + k.reg 14 ≤ 0x8000 → (∀ b, k.reg 13 ≤ b → b < k.reg 13 + k.reg 14 → sound b) →
      s.issues r c [encI 0x0 0 0x10] → s.dev.pm r c (k.pc + 1) = encI 0x0 rd 0x15 →
      ∃ t, exec (.rep r c upTo slow) s = .next t ∧ s.ran t r c 2 [13, 14] [] ∧ (t.dev.kx r c).reg 14 = 0 ∧
        (t.dev.kx r c).reg 13 = (k.reg 13 + k.reg 14) % 65536 ∧
        (∀ b, k.reg 13 ≤ b → b < k.reg 13 + k.reg 14 →
          (t.mem.byte (base + 2 * b)).toNat + 256 * (t.mem.byte (base + 2 * b + 1)).toNat = k.reg rd) ∧
        (∀ j, (j < base + 2 * k.reg 13 ∨ base + 2 * (k.reg 13 + k.reg 14) ≤ j) → t.mem.byte j = s.mem.byte j))

/-- R277, R279, R296: the word that answers a far read reaches the load that waits, or the replay register of the load that was given up, with the
latch that this load leaves, and nothing of the handler's; 64 µs without it raise FARERR, and a posted write that times out is counted for
KFSYNC, whose load ends when every posted write has its response. R122, R286: WAITROW closes the open release and takes the lowest occupied slot,
or waits; WAITANGLE waits for its angle and ends with 1 on a beam in OFF or FAULT; WAITEVT takes the lowest pending line of its mask or waits;
KWTMO ticks end a wait with 0x8000. -/
def Obligations.FarAccessesAndWaitsEnd : Prop :=
  (∀ (s : State) (r : Fin 3) (c : Fin 20), s.coreOn r c = true →
     let k := s.dev.kx r c
     (∀ (rd : Fin 16) a len t0 v l, k.wait = .load rd a len none t0 → kbusRead s r c k.pair.latch t0 = ⟨some v, l, s.dev⟩ → v < 65536 →
       ∃ t, exec (.farReadResponse r c false) s = .next t ∧ t.ref = s.ref ∧ t.mem = s.mem ∧ (t.dev.kx r c).wait = .none ∧ (t.dev.kx r c).reg rd = v ∧
         (t.dev.kx r c).pair = { k.pair with latch := l } ∧ (t.dev.kx r c).saved = k.saved ∧
         (∀ i, i < 16 → i ≠ rd.val → (t.dev.kx r c).reg i = k.reg i) ∧ k.went (t.dev.kx r c) len [] ∧
         t.dev.kstate r c = if k.stepping then ksHalted else ksRun) ∧
     (∀ saved a t0 v l, (if saved then k.saved.replay else k.pair.replay) = .awaited a t0 → k.wait = .none →
       kbusRead s r c (if saved then k.saved.latch else k.pair.latch) t0 = ⟨some v, l, s.dev⟩ →
       ∃ t, exec (.farReadResponse r c saved) s = .next t ∧ t.ref = s.ref ∧ t.mem = s.mem ∧ t.dev.regs = s.dev.regs ∧
         t.dev.kx r c = (if saved then { k with saved := { k.saved with replay := .ready a v l } } else { k with pair := { k.pair with replay := .ready a v l } })) ∧
     (∀ rd a len inc t0, k.wait = .load rd a len inc t0 → t0.isFar = true → k.st 11 = false →
       ∃ t, exec (.farerr r c false false) s = .next t ∧ t.ref = s.ref ∧ t.mem = s.mem ∧ k.entered (t.dev.kx r c) 19 ∧ (t.dev.kx r c).cw 0x07 = 3 ∧
         (t.dev.kx r c).wait = .none) ∧
     (∀ saved, k.posted ≠ 0 → ∃ t, exec (.farerr r c true saved) s = .next t ∧ t.ref = s.ref ∧ t.mem = s.mem ∧ t.dev.regs = s.dev.regs ∧
       (t.dev.kx r c).posted = k.posted - 1 ∧ (t.dev.kx r c).touts = k.touts + 1 ∧ (t.dev.kx r c).wait = k.wait) ∧
     (∀ (rd : Fin 16) len, k.wait = .sync rd len none → k.touts = 0 → ∃ t, exec (.farSync r c) s = .next t ∧ t.ref = s.ref ∧ t.mem = s.mem ∧
       (t.dev.kx r c).posted = 0 ∧ (t.dev.kx r c).reg rd = 0 ∧ (t.dev.kx r c).wait = .none ∧ k.went (t.dev.kx r c) len []) ∧
     (∀ (rd : Fin 16) len, k.wait = .sync rd len none → k.touts ≠ 0 → k.st 11 = false → ∃ t, exec (.farSync r c) s = .next t ∧ t.ref = s.ref ∧
       t.mem = s.mem ∧ (t.dev.kx r c).posted = 0 ∧ (t.dev.kx r c).touts = 0 ∧ (t.dev.kx r c).reg rd = k.touts % 65536 ∧ (t.dev.kx r c).cw 0x07 = 3 ∧
       (t.dev.kx r c).st 11 = true)) ∧
  (∀ (s : State) (r : Fin 3) (c : Fin 20) (rd rs : Fin 16),
     let k := s.dev.kx r c
     let h := Half.ofRegion r
     let woke (t : State) (v : Nat) : Prop := t.ref = s.ref ∧ t.mem = s.mem ∧ (t.dev.kx r c).reg rd = v ∧ (t.dev.kx r c).wait = .none ∧
       k.went (t.dev.kx r c) 1 [] ∧ (∀ i, i < 16 → i ≠ rd.val → (t.dev.kx r c).reg i = k.reg i) ∧
       t.dev.kstate r c = if k.stepping then ksHalted else ksRun
     let slept (t : State) (w : KWait) : Prop := t.ref = s.ref ∧ t.mem = s.mem ∧ (t.dev.kx r c).wait = w ∧ (t.dev.kx r c).pc = k.pc ∧
       (t.dev.kx r c).waitFrom = s.dev.tbR r ∧ t.dev.kstate r c = ksWait ∧ (∀ i, i < 16 → (t.dev.kx r c).reg i = k.reg i)
     let lowest (i : Nat) (x : Release) : Prop := i < 32 ∧ s.dev.slot h c i = some x ∧ ∀ j, j < i → s.dev.slot h c j = none
     let got (t : State) (x : Release) : Prop := woke t (x.ctx % 32 + b2n x.skipped * 32 + b2n x.first * 64) ∧ t.dev.openR h c = some x ∧
       t.dev.slot h c x.ctx = none ∧ (t.dev.kx r c).cw 0x24 = x.row % 65536 ∧ (t.dev.kx r c).cw 0x25 = x.row / 65536 % 65536
     (roleOf r c = .beam → s.issues r c [encI 0x0 rd 0x12] →
       (∀ i x, lowest i x → ∃ t, exec (.waitrow r c rd) s = .next t ∧ got t x) ∧
       ((∀ j, j < 32 → s.dev.slot h c j = none) → ∃ t, exec (.waitrow r c rd) s = .next t ∧ slept t (.row rd) ∧ t.dev.openR h c = none)) ∧
     (s.coreOn r c = true → k.wait = .row rd → ∀ i x, lowest i x → ∃ t, exec (.waitrowComplete r c) s = .next t ∧ got t x) ∧
     (roleOf r c ≠ .service → s.issues r c [encI 0x0 rd 0x13] → ∃ t, exec (.waitangle r c rd) s = .next t ∧ slept t (.angle rd)) ∧
     (s.coreOn r c = true → k.wait = .angle rd →
       let b := k.cw 0x2A / 256 % 4
       let x := s.dev.beam h b
       let p := s.dev.g (hLoc h .beam) (BEAM_REV.REV.ix b) % 256 * 2 ^ 32 + s.dev.g (hLoc h .beam) (BEAM_ANGLE.ANGLE.ix b)
       let q := k.cw 0x2A % 256 * 2 ^ 32 + k.cw 0x28 + k.cw 0x29 * 2 ^ 16
       ((x.bState = .off ∨ x.bState = .fault) → ∃ t, exec (.waitangleComplete r c) s = .next t ∧ woke t 1) ∧
       (x.bState = .synced → x.bInHyst = false → x.bDir = false → bit (k.cw 0x2A) 10 = false →
         ((p + 2 ^ 40 - q) % 2 ^ 40 < 2 ^ 39 → ∃ t, exec (.waitangleComplete r c) s = .next t ∧ woke t 0) ∧
         (2 ^ 39 ≤ (p + 2 ^ 40 - q) % 2 ^ 40 → exec (.waitangleComplete r c) s = .next s))) ∧
     (s.issues r c [encR 0xC rd rs 2] →
       (∀ i, s.dev.evtLine r c (k.reg rs) = some i → ∃ t, exec (.waitevt r c rd rs) s = .next t ∧ woke t i ∧
         (i < 14 → k.stepping = false → bit (t.dev.kipOf r c) i = s.dev.coreLineHigh r c i)) ∧
       (s.dev.evtLine r c (k.reg rs) = none → ∃ t, exec (.waitevt r c rd rs) s = .next t ∧ slept t (.evt rd (k.reg rs)))) ∧
     (s.coreOn r c = true → ∀ m i, k.wait = .evt rd m → s.dev.evtLine r c m = some i → ∃ t, exec (.waitevtComplete r c) s = .next t ∧ woke t i) ∧
     (s.coreOn r c = true → (k.wait = .row rd ∨ k.wait = .angle rd ∨ ∃ m, k.wait = .evt rd m) → k.cw 0x2C + k.cw 0x2D * 65536 ≠ 0 →
       (k.waitFrom + (k.cw 0x2C + k.cw 0x2D * 65536) ≤ s.dev.tbR r → ∃ t, exec (.waitTimeout r c) s = .next t ∧ woke t 0x8000) ∧
       (s.dev.tbR r < k.waitFrom + (k.cw 0x2C + k.cw 0x2D * 65536) → exec (.waitTimeout r c) s = .next s)))

/-- R280, R287 to R289: loading KTB0 copies the whole time base; mailbox words leave, arrive and are read in order, eight deep, and a word that does
not fit is dropped and says so; the key restarts the watchdog period, and a period without it stops the core, which a half reports. R281, R311,
R314, R315, R317, R319: RUN and STEP start a stopped core at KXC_PC, from DOUBLE or WDOG with INH and IE clear; HALT and CRESET stop it; program
memory and the control store take words only while nothing runs from them; a routine ends at its END word, or at a safe point with something due;
an uncorrectable microword takes PMEM_UE. -/
def Obligations.MailboxesWatchdogAndCoreControl : Prop :=
  (∀ (s : State) (r : Fin 3) (c : Fin 20) (v : BitVec 16),
     let k := s.dev.kx r c
     (s.coreOn r c = true →
       (∃ t, exec (.ktbLoad r c) s = .next t ∧ t.ref = s.ref ∧ t.mem = s.mem ∧ t.dev.regs = s.dev.regs ∧ t.dev.readData.toNat = s.dev.tbR r % 65536 ∧
         (t.dev.kx r c).cw 0x20 = s.dev.tbR r % 65536 ∧ (t.dev.kx r c).cw 0x21 = s.dev.tbR r / 2 ^ 16 % 65536 ∧
         (t.dev.kx r c).cw 0x22 = s.dev.tbR r / 2 ^ 32 % 65536 ∧ (t.dev.kx r c).cw 0x23 = s.dev.tbR r / 2 ^ 48 % 65536) ∧
       (∃ t w, exec (.mailboxSend r c v) s = .next t ∧ t.ref = s.ref ∧ t.mem = s.mem ∧ t.dev = { s.dev with mboxes := s.dev.mboxes ++ [w] } ∧
         w.region = r.val ∧ w.core = c.val ∧ w.word = v.toNat ∧ w.toCore = k.cw 0x40 % 32 ∧
         w.toRegion = (match k.cw 0x40 / 32 % 4 with | 0 => r.val | 1 => 0 | 2 => 1 | _ => 2)) ∧
       (∃ t, exec (.mailboxPop r c) s = .next t ∧ t.ref = s.ref ∧ t.mem = s.mem ∧ t.dev.regs = s.dev.regs ∧ (t.dev.kx r c).mbin = k.mbin.drop 1 ∧
         t.dev.readData = BitVec.ofNat 32 (k.mbin.headD 0)) ∧
       (k.hostOut.length < 8 → ∃ t, exec (.hostMailboxPush r c v) s = .next t ∧ t.ref = s.ref ∧ t.mem = s.mem ∧
         (t.dev.kx r c).hostOut = k.hostOut ++ [v.toNat] ∧ t.dev.raised (kxcL r c) 3 ∧ s.dev.regsKept [] t.dev) ∧
       (8 ≤ k.hostOut.length → ∃ t, exec (.hostMailboxPush r c v) s = .next t ∧ t.ref = s.ref ∧ t.mem = s.mem ∧ t.dev.regs = s.dev.regs ∧
         t.dev.kx r c = { k with drop := true }) ∧
       (∃ t, exec (.hostMailboxPop r c) s = .next t ∧ t.ref = s.ref ∧ t.mem = s.mem ∧ t.dev.regs = s.dev.regs ∧ (t.dev.kx r c).hostIn = k.hostIn.drop 1 ∧
         t.dev.readData = BitVec.ofNat 32 (k.hostIn.headD 0)) ∧
       (v = 0x5A3C → ∃ t, exec (.kwdogReload r c v) s = .next t ∧ t.ref = s.ref ∧ t.mem = s.mem ∧ t.dev.regs = s.dev.regs ∧
         t.dev.kx r c = { k with wdogRan := 0, wdogFrom := s.dev.tbR r }) ∧
       (v ≠ 0x5A3C → exec (.kwdogReload r c v) s = .next s) ∧
       (s.dev.g (kxcL r c) KXC_WDOG.PERIOD ≠ 0 → (s.dev.krunning r c = true ∨ s.dev.kstate r c = ksDouble) →
         (100 * s.dev.g (kxcL r c) KXC_WDOG.PERIOD ≤ k.wdogRan + (s.dev.tbR r - k.wdogFrom) → ∃ t, exec (.watchdogExpire r c) s = .next t ∧
           t.ref = s.ref ∧ t.mem = s.mem ∧ t.dev.kstate r c = ksWdog ∧ t.dev.raised (kxcL r c) 1 ∧ (t.dev.kx r c).pc = k.pc ∧
           (r.val = 2 → t.dev.reports = s.dev.reports) ∧
           (r.val ≠ 2 → ∃ x, t.dev.reports = s.dev.reports ++ [x] ∧ x.half = Half.ofRegion r ∧ x.code = 5 ∧ x.obj = c.val)) ∧
         (k.wdogRan + (s.dev.tbR r - k.wdogFrom) < 100 * s.dev.g (kxcL r c) KXC_WDOG.PERIOD → exec (.watchdogExpire r c) s = .next s))) ∧
     (∀ (tr : Fin 3) (tc : Fin 32) w rest, s.dev.mboxes = w :: rest → w.region = r.val → w.core = c.val → w.toRegion = tr.val → w.toCore = tc.val →
       ((s.kxcOn tr tc = true ∧ (s.dev.kx tr tc).mbin.length < 8) → ∃ t, exec (.mailboxDeliver r c tr tc) s = .next t ∧ t.ref = s.ref ∧ t.mem = s.mem ∧
         t.dev.regs = s.dev.regs ∧ t.dev.mboxes = rest ∧ (t.dev.kx tr tc).mbin = (s.dev.kx tr tc).mbin ++ [w.word]) ∧
       (¬(s.kxcOn tr tc = true ∧ (s.dev.kx tr tc).mbin.length < 8) → ∃ t, exec (.mailboxDeliver r c tr tc) s = .next t ∧ t.ref = s.ref ∧ t.mem = s.mem ∧
         t.dev.regs = s.dev.regs ∧ t.dev.mboxes = rest ∧ t.dev.kx r c = { k with drop := true })) ∧
     (s.kxcOn r c = true → s.soleR r → ∀ w : Word,
       (k.hostIn.length < 8 → ∃ t, exec (.kxcHmbinWrite r c w) s = .next t ∧ t.ref = s.ref ∧ t.mem = s.mem ∧
         t.dev.kx r c = { k with hostIn := k.hostIn ++ [w.toNat % 65536] } ∧ s.dev.regsKept [kxcL r c + 0x03C] t.dev) ∧
       (8 ≤ k.hostIn.length → s.dev.clocked (kxcL r c) = true → ∃ t, exec (.kxcHmbinWrite r c w) s = .next t ∧ t.ref = s.ref ∧ t.mem = s.mem ∧
         t.dev.raised (kxcL r c) 4 ∧ s.dev.onlyRegs [kxcL r c + 0x03C] t.dev) ∧
       (∃ t, exec (.kxcHmboutRead r c) s = .next t ∧ t.ref = s.ref ∧ t.mem = s.mem ∧ t.dev.regs = s.dev.regs ∧
         t.dev.kx r c = { k with hostOut := k.hostOut.drop 1 } ∧ t.dev.readData = BitVec.ofNat 32 (k.hostOut.headD 0)))) ∧
  (∀ (s : State) (r : Fin 3) (c : Fin 20),
     let k := s.dev.kx r c
     let l := kxcL r c
     (s.kxcOn r c = true → s.soleR r →
       (s.dev.krunning r c = false →
         (∃ t, exec (.kxcRun r c) s = .next t ∧ s.coreOnly t r c [l + 0x03C, l + KXC_STAT.STATE.off] ∧ t.mem = s.mem ∧ t.dev.kstate r c = ksRun ∧
           (t.dev.kx r c).pc = s.dev.g l KXC_PC.PC ∧ (t.dev.kx r c).stepping = false ∧ (∀ i, i < 16 → (t.dev.kx r c).reg i = k.reg i) ∧
           ((s.dev.kstate r c = ksDouble ∨ s.dev.kstate r c = ksWdog) → (t.dev.kx r c).st 8 = false ∧ (t.dev.kx r c).st 11 = false)) ∧
         (∃ t, exec (.kxcStep r c) s = .next t ∧ s.coreOnly t r c [l + 0x03C, l + KXC_STAT.STATE.off] ∧ t.mem = s.mem ∧ t.dev.kstate r c = ksRun ∧
           (t.dev.kx r c).pc = s.dev.g l KXC_PC.PC ∧ (t.dev.kx r c).stepping = true) ∧
         (∀ v : Word, ∃ t, exec (.pmwWrite r c v) s = .next t ∧ t.ref = s.ref ∧ t.mem = s.mem ∧ s.dev.regsKept [l + 0x03C, l + KXC_PMW_IDX.IDX.off] t.dev ∧
           (∀ i, i < 16384 → t.dev.pm r c i = if i = s.dev.g l KXC_PMW_IDX.IDX then v.toNat % 16384 else s.dev.pm r c i) ∧
           t.dev.g l KXC_PMW_IDX.IDX = (s.dev.g l KXC_PMW_IDX.IDX + b2n (s.dev.on l KXC_PMW_IDX.AUTOINC)) % 16384)) ∧
       (s.dev.krunning r c = true →
         (∃ t, exec (.kxcHalt r c) s = .next t ∧ s.coreOnly t r c [l + 0x03C, l + KXC_STAT.STATE.off, l + KXC_PC.PC.off] ∧ t.mem = s.mem ∧
           t.dev.kstate r c = ksHalted ∧ t.dev.g l KXC_PC.PC = k.pc % 2 ^ 14 ∧ (t.dev.kx r c).pc = k.pc ∧ (t.dev.kx r c).wait = .none) ∧
         (s.dev.clocked l = true → ∀ v, ∃ t, exec (.pmwWrite r c v) s = .next t ∧ t.ref = s.ref ∧ t.mem = s.mem ∧ t.dev.raised l 2 ∧
           s.dev.onlyRegs [l + 0x03C] t.dev)) ∧
       (∃ t, exec (.creset r c) s = .next t ∧ t.ref = s.ref ∧ t.mem = s.mem ∧ t.dev.kstate r c = ksReset ∧ t.dev.kx r c = {} ∧ t.dev.kipOf r c = 0 ∧
         s.dev.regsKept [l + 0x03C, l + KXC_STAT.STATE.off] t.dev)) ∧
     (∀ (m : Master) (v : Word),
       (∀ dec i, s.loading m r = false → s.dev.clocked (ucsL r) = true → ∃ t, exec (.ucsWindowWrite m r dec i v) s = .next t ∧ t.ref = s.ref ∧ t.mem = s.mem ∧
         t.dev.raised (ucsL r) 2 ∧ s.dev.onlyRegs [ucsL r + 0x03C] t.dev) ∧
       (s.loading m r = true →
         (∀ i, ∃ t, exec (.ucsWindowWrite m r true i v) s = .next t ∧ t.ref = s.ref ∧ t.mem = s.mem ∧ t.dev.decEntry r i = v.toNat % 65536 ∧
           t.dev.ucs = s.dev.ucs) ∧
         (∃ t, exec (.ucsWindowWrite m r false 3 v) s = .next t ∧ t.ref = s.ref ∧ t.mem = s.mem ∧
           (∀ w, w < ucsSize r → t.dev.ucsWord r w = if w = s.dev.g (ucsL r) UCS_WIN_IDX.IDX then
             (s.dev.rd (ucsL r) 0x80C).toNat + (s.dev.rd (ucsL r) 0x810).toNat * 2 ^ 32 + (s.dev.rd (ucsL r) 0x814).toNat * 2 ^ 64 + v.toNat * 2 ^ 96
             else s.dev.ucsWord r w) ∧ (ucsSize r ≤ s.dev.g (ucsL r) UCS_WIN_IDX.IDX → t.dev.ucs = s.dev.ucs) ∧
           t.dev.g (ucsL r) UCS_WIN_IDX.IDX = (s.dev.g (ucsL r) UCS_WIN_IDX.IDX + b2n (s.dev.on (ucsL r) UCS_WIN_IDX.AUTOINC)) % 4096))) ∧
     (∀ (sel : Fin 16) (lim : Option (BitVec 14)) (f : BitVec 6) (due : Nat), s.issues r c (unitOf lim (encI 0xF sel f.toNat)) →
       let e := s.dev.decEntry r sel
       let w := s.dev.ucsWord r (customWord r (e % 4096))
       (bit e 15 = false → k.st 11 = false → ∃ t, exec (.cust r c sel lim f due) s = .next t ∧ t.mem = s.mem ∧ t.ref = s.ref ∧
         k.entered (t.dev.kx r c) 17 ∧ (t.dev.kx r c).cw 0x07 = 1) ∧
       (bit e 15 = true → e / 4096 % 4 < 3 → (lim.isSome = true → e / 4096 % 4 = 2) → s.dev.ucsUe r (customWord r (e % 4096)) = false →
         (w = 5 → ∃ t, exec (.cust r c sel lim f due) s = .next t ∧ t.mem = s.mem ∧ s.ran t r c (if lim.isSome then 3 else 1) [] []) ∧
         (e / 4096 % 4 = 0 → lim = none → w = 5 + 2 ^ 24 + 0x10 * 2 ^ 28 + 0x11 * 2 ^ 33 + 0x10 * 2 ^ 38 →
           ∃ t, exec (.cust r c sel lim f due) s = .next t ∧ t.mem = s.mem ∧ s.ran t r c 1 [f.toNat / 8] [] ∧
             (t.dev.kx r c).reg (f.toNat / 8) = (k.reg (f.toNat / 8) + k.reg (f.toNat % 8)) % 65536) ∧
         (w = 2 ^ 22 → due ≤ 1 → ∃ t, exec (.cust r c sel lim f due) s = .next t ∧ t.ref = s.ref ∧ t.mem = s.mem ∧ (t.dev.kx r c).pc = k.pc ∧
           (∀ i, i < 16 → (t.dev.kx r c).reg i = k.reg i) ∧
           t.dev.g (ucsL r) UCS_ERR.ABANDON = min (s.dev.g (ucsL r) UCS_ERR.ABANDON + 1) 65535))) ∧
     (∀ w : BitVec 12, s.kready r c = true → s.dev.clocked (ucsL r) = true → k.st 11 = false → s.dev.pm r c k.pc ≠ 0x3800 →
       s.dev.pm r c k.pc / 0x400 = 0xF →
       ∃ t, exec (.ueFetch r ⟨10 + c.val, by omega⟩ w) s = .next t ∧ t.ref = s.ref ∧ t.mem = s.mem ∧ t.dev.raised (ucsL r) 4 ∧ k.entered (t.dev.kx r c) 21 ∧
         (t.dev.kx r c).cw 0x07 = 5 ∧ ∃ x, t.dev.reports = s.dev.reports ++ [x] ∧ x.code = 4 ∧ x.svc = decide (r.val = 2)))

/-! ### Chapter 13: error correction -/

/-- R325, R326, R330, R331, R334 to R338, Table 13.4: the walkers read on word by word and burst by burst and count their passes; an uncorrectable word
is counted in its page and takes a source entry; two failing copies of the referee state assert both STOP_REQ lines and leave the
half states; entries pop oldest first; a bucket leaks once its period has passed and not before; logs clear; a repeated command is counted, and one that fails again leaves its
word to its next access; the refresh rate follows the device; a word read at an address with another fold is uncorrectable (R330). -/
def Obligations.MemoryErrorsAreCountedAndWalked : Prop :=
  ∀ (s : State) (h : Half),
    let l := hLoc h .scb
    let i := s.dev.g l SCB_SPOS.MEM
    let w := s.dev.g l SCB_SPOS.WORD
    let b := s.dev.g l SCB_DPOS.BURST
    (s.awake h l →
      (∀ e p, s.dev.on l SCB_CFG.SEN = true → (s.walked h)[i]? = some (e, p) →
        (w + 1 < e.words → s.dev.wordUe e p w = false → ∃ t, exec (.scrubSramRead h 0) s = .next t ∧ t.ref = s.ref ∧ t.mem = s.mem ∧
          t.dev.g l SCB_SPOS.WORD = (w + 1) % 2 ^ 24 ∧ s.dev.onlyRegs [l + SCB_SPOS.WORD.off] t.dev) ∧
        (e.block = .ref → ∃ t, exec (.scrubSramRead h 3) s = .next t ∧ t.ref = { s.ref with stopA := true, stopB := true } ∧ t.mem = s.mem)) ∧
      (s.dev.on l SCB_CFG.SEN = true → i = 0 → w + 1 < 65536 → (s.dev.esrc h).length < 16 →
        ∃ t x, exec (.scrubSramRead h 2) s = .next t ∧ t.ref = s.ref ∧ t.mem = s.mem ∧ t.dev.g l SCB_SPOS.WORD = w + 1 ∧
          t.dev.g (rowL h 0) PG_ECC_UE.UE = min (s.dev.g (rowL h 0) PG_ECC_UE.UE + 1) (2 ^ PG_ECC_UE.UE.w - 1) ∧ t.dev.raised l 2 ∧
          t.dev.esrc h = s.dev.esrc h ++ [x] ∧ x / 2 ^ 20 % 4 = 2 ∧ x % 4096 = pageOf h.n .row 0 % 4096 ∧ t.dev.reports = s.dev.reports) ∧
      (∀ found, s.dev.on l SCB_CFG.SEN = false → s.ref.svcWalk h = false ∨ s.dev.on l SCB_CFG.SVC = false → exec (.scrubSramRead h found) s = .next s) ∧
      (s.dev.on l SCB_CFG.SEN = false → s.ref.svcWalk h = true → s.dev.on l SCB_CFG.SVC = true → i < (halfMems h.n).length →
        s.dev.ueLines.contains (0x1102000000 / 8) = false → ∃ t, exec (.scrubSramRead h 0) s = .next t ∧ t.ref = s.ref ∧ t.mem = s.mem ∧
          t.dev.g l SCB_SPOS.WORD = 1 ∧ t.dev.g l SCB_SPOS.MEM = (halfMems h.n).length ∧ s.dev.onlyRegs [l + SCB_SPOS.WORD.off] t.dev) ∧
      (s.dev.on l SCB_CFG.DEN = true → s.dev.dramSize h ≠ 0 → (∀ x ∈ s.dev.ueLines, x / 8 ≠ h.n * 2 ^ 35 / 8 / 8 + b) → ∀ word,
        ((b + 1) * 64 < s.dev.dramSize h → b + 1 < 2 ^ 31 → ∃ t, exec (.scrubDramRead h 0 word) s = .next t ∧ t.ref = s.ref ∧ t.mem = s.mem ∧
          t.dev.g l SCB_DPOS.BURST = b + 1 ∧ s.dev.onlyRegs [l + SCB_DPOS.BURST.off] t.dev) ∧
        (s.dev.dramSize h ≤ (b + 1) * 64 → ∃ t, exec (.scrubDramRead h 0 word) s = .next t ∧ t.ref = s.ref ∧ t.mem = s.mem ∧
          t.dev.g l SCB_DPOS.BURST = 0 ∧ t.dev.g l SCB_PASS.DRAM = (s.dev.g l SCB_PASS.DRAM + 1) % 65536 ∧ t.dev.raised l 4 ∧
          s.dev.onlyRegs [l + SCB_DPOS.BURST.off, l + SCB_PASS.DRAM.off] t.dev)) ∧
      (∀ found word, s.dev.on l SCB_CFG.DEN = false → exec (.scrubDramRead h found word) s = .next s)) ∧
    (∃ t, exec .eccWriteback s = .next t ∧ t.ref = s.ref ∧ t.mem = s.mem ∧ t.dev = { s.dev with ceWords := s.dev.ceWords.drop 1 }) ∧
    (∀ (rg : Fin 4) (pg : BitVec 12), s.dev.lastLeak (pageAt rg pg) + s.dev.leakPeriod (pageAt rg pg) ≤ s.dev.tbR rg →
      ∃ t, exec (.bucketLeak rg pg) s = .next t ∧ t.ref = s.ref ∧ t.mem = s.mem ∧
      (∀ k, SMap.get (fun _ => 0) t.dev.buckets k =
        if k = pageAt rg pg then SMap.get (fun _ => 0) s.dev.buckets k - 1 else SMap.get (fun _ => 0) s.dev.buckets k) ∧
      t.dev = { s.dev with buckets := t.dev.buckets, leaks := t.dev.leaks } ∧
      t.dev.lastLeak (pageAt rg pg) ≤ s.dev.tbR rg ∧ s.dev.tbR rg < t.dev.lastLeak (pageAt rg pg) + s.dev.leakPeriod (pageAt rg pg)) ∧
    (∀ (rg : Fin 4) (pg : BitVec 12), s.dev.tbR rg < s.dev.lastLeak (pageAt rg pg) + s.dev.leakPeriod (pageAt rg pg) → exec (.bucketLeak rg pg) s = .next s) ∧
    (∀ (cols : List Nat) (r a b data : Nat), (r = 6 ∨ r = 8) → (∀ x ∈ cols, oddOnes x = true) → foldF r a ≠ foldF r b →
      eccClass cols r (eccSyndrome cols r a data (eccCheck cols r a data)) = 0 ∧
      eccClass cols r (eccSyndrome cols r b data (eccCheck cols r a data)) = 2) ∧
    (s.ref.live h = true → ∃ t, exec (.scbEsrcPop h) s = .next t ∧ t.ref = s.ref ∧ t.mem = s.mem ∧ t.dev.regs = s.dev.regs ∧
      t.dev.esrc h = (s.dev.esrc h).drop 1 ∧ t.dev.esrc h.peer = s.dev.esrc h.peer ∧ t.dev.readData = BitVec.ofNat 32 ((s.dev.esrc h).headD 0)) ∧
    (∀ rg pg, (pageRowOf (pageAt rg pg)).isSome = true → (rg.val < 2 → s.ref.live (Half.ofRegion rg) = true) → s.soleR rg →
      ∃ t, exec (.eccLogClear rg pg) s = .next t ∧ t.ref = s.ref ∧ t.mem = s.mem ∧ t.dev.g (locOf (pageAt rg pg)) PG_ECC_LOG_IDX.VALID = 0 ∧
        t.dev.g (locOf (pageAt rg pg)) PG_ECC_LOG_IDX.NEXT = 0 ∧
        s.dev.regsKept [locOf (pageAt rg pg) + 0x03C, locOf (pageAt rg pg) + PG_ECC_LOG_IDX.NEXT.off] t.dev) ∧
    (∀ ch : Fin 2, s.awake h (hLoc h .mec ch) →
      (∀ word, ∃ t, exec (.caParityError h ch false word) s = .next t ∧ t.ref = s.ref ∧ t.mem = s.mem ∧ t.dev.raised (hLoc h .mec ch) 0 ∧
        t.dev.g (hLoc h .mec ch) MEC_ERR.CAPAR = min (s.dev.g (hLoc h .mec ch) MEC_ERR.CAPAR + 1) 65535 ∧
        s.dev.onlyRegs [hLoc h .mec ch + MEC_ERR.CAPAR.off] t.dev) ∧
      (∀ word, ∃ t, exec (.caParityError h ch true word) s = .next t ∧ t.ref = s.ref ∧ t.mem = s.mem ∧
        t.dev.g (hLoc h .mec ch) MEC_ERR.CAPAR = min (s.dev.g (hLoc h .mec ch) MEC_ERR.CAPAR + 1) 65535 ∧
        t.dev.g (hLoc h .mec ch) MEC_ERR.CAFAIL = min (s.dev.g (hLoc h .mec ch) MEC_ERR.CAFAIL + 1) 65535 ∧
        t.dev.g (hLoc h .mec ch) PG_ECC_UE.UE = min (s.dev.g (hLoc h .mec ch) PG_ECC_UE.UE + 1) (2 ^ PG_ECC_UE.UE.w - 1) ∧
        t.dev.caBad = s.dev.caBad ++ [h.n * 2 ^ 32 + word.toNat]) ∧
      (∀ temp : BitVec 8, ∃ t, exec (.ref2x h ch temp) s = .next t ∧ t.ref = s.ref ∧ t.mem = s.mem ∧
        t.dev.g (hLoc h .mec ch) MEC_TEMP.TEMP = temp.toNat ∧
        t.dev.on (hLoc h .mec ch) MEC_STAT.REF2X = (s.dev.on (hLoc h .mec ch) MEC_CFG.AUTO2X && decide (85 < temp.toInt)) ∧
        s.dev.onlyRegs [hLoc h .mec ch + MEC_TEMP.TEMP.off, hLoc h .mec ch + MEC_STAT.REF2X.off] t.dev))

/-! ### Chapter 14: the pattern store -/

/-- R344, R347, R348, Table 14.6, Table 14.8: MAP gives each page of the object the entry its extents and check words name; UNMAP, DROP and LOAD act
on the pages of their range; a refused operation changes no entry and says why; a write during an operation is dropped with MAP_REJ. R343, R350,
R351, R353, R354: the load with the earliest deadline is issued and its page is LOADING; a page whose CRC matches becomes RESIDENT and its data
stands in memory, one that fails twice is BAD; timeouts count and after RSTN in a row the controller is reset; a log block goes out with its
number; firmware doorbells go through, or wait during a brown-out warning. -/
def Obligations.PagesMapLoadAndLog : Prop :=
  (∀ (s : State) (h : Half), s.awake h (nvhL h) → s.sole h →
     let l := nvhL h
     let dst := s.dev.g l NVH_MAPDST.PAGE
     let n := s.dev.g l NVH_MAPCNT.COUNT
     let kept (t : State) (g : Nat) : Nat := SMap.get (fun _ => 0) t.dev.ptab (h.n * 2 ^ 20 + g)
     let e := s.dev.pte s.mem h dst
     let done (t : State) (r : Nat) : Prop := t.ref = s.ref ∧ t.dev.g l NVH_STAT.MAPRESULT = r ∧ t.dev.on l NVH_STAT.MAPBUSY = false ∧ t.dev.raised l 3
     let one (t : State) (v : Nat) : Prop := (∀ g, g < 2 ^ 20 → kept t g = if g = dst then v else kept s g) ∧
       (s.ref.targets (s.dev.pteAddr h dst) = [s.dev.pteAddr h dst] →
         ∀ a, (a < s.dev.pteAddr h dst ∨ s.dev.pteAddr h dst + 16 ≤ a) → t.mem.byte a = s.mem.byte a)
     (s.dev.on l NVH_STAT.MAPBUSY = false →
       (∀ ent ext chk es, mapCheck ((s.dev.seq l).mapWrite h 1) s.mem h ent ext chk = (0, es) → dst + es.length ≤ 2 ^ 20 →
         ∃ t, exec (.map h ent ext chk) s = .next t ∧ done t 0 ∧
           ∀ g, g < 2 ^ 20 → kept t g = if dst ≤ g ∧ g < dst + es.length then es.getD (g - dst) 0 else kept s g) ∧
       (∀ ent ext chk, s.dev.on l NVH_STAT.MOUNTED = false → ∃ t, exec (.map h ent ext chk) s = .next t ∧ done t 1 ∧ t.mem = s.mem ∧ t.dev.ptab = s.dev.ptab) ∧
       (s.dev.pages h < dst + n →
         (∃ t, exec (.unmap h) s = .next t ∧ done t 4 ∧ t.mem = s.mem ∧ t.dev.ptab = s.dev.ptab) ∧
         (∃ t, exec (.drop h) s = .next t ∧ done t 4 ∧ t.mem = s.mem ∧ t.dev.ptab = s.dev.ptab)) ∧
       (n = 1 → dst < s.dev.pages h → pteMapped e = true →
         (∃ t, exec (.unmap h) s = .next t ∧ done t 0 ∧ one t (e - 2 ^ 64)) ∧
         (∃ t, exec (.drop h) s = .next t ∧ done t 0 ∧ one t (pteWith e 0) ∧ (∀ x ∈ (t.dev.nvh h).loads, x.1 ≠ dst)) ∧
         (s.dev.on l NVH_STAT.MOUNTED = true → pteState e = 0 → (s.dev.nvh h).loads.length < 4096 → (∀ x ∈ (s.dev.nvh h).loads, x.1 ≠ dst) →
           ∃ t, exec (.load h) s = .next t ∧ done t 0 ∧ t.mem = s.mem ∧ t.dev.ptab = s.dev.ptab ∧ (t.dev.nvh h).loads = (s.dev.nvh h).loads ++ [(dst, 0)])) ∧
       (∃ t, exec (.mapReservedOp h) s = .next t ∧ done t 7 ∧ t.mem = s.mem ∧ t.dev.ptab = s.dev.ptab) ∧
       (∀ capacity b0 b1, hdrPick capacity.toNat b0 b1 = none → ∃ t, exec (.remount h capacity b0 b1) s = .next t ∧ done t 1 ∧ t.mem = s.mem ∧
         t.dev.on l NVH_STAT.MOUNTED = false ∧ t.dev.raised l 1) ∧
       (∀ op, exec (.mapRej h op) s = .next s)) ∧
     (s.dev.on l NVH_STAT.MAPBUSY = true → ∀ op, ∃ t, exec (.mapRej h op) s = .next t ∧ t.ref = s.ref ∧ t.mem = s.mem ∧ t.dev.raised l 4 ∧
       s.dev.onlyRegs [l + 0x03C] t.dev) ∧
     (∀ capacity b0 b1,
       (s.dev.on l NVH_CFG.EN = false → ∀ ok, exec (.driveMount h ok capacity b0 b1) s = .next s) ∧
       (s.dev.on l NVH_CFG.EN = true → ∃ t, exec (.driveMount h false capacity b0 b1) s = .next t ∧ t.ref = s.ref ∧ t.mem = s.mem ∧
         t.dev.g l NVH_STAT.DRIVE = 3 ∧ t.dev.on l NVH_STAT.MOUNTED = false ∧ t.dev.raised l 1) ∧
       (∀ slot b, s.dev.on l NVH_CFG.EN = true → s.ref.split = true → hdrPick capacity.toNat b0 b1 = some (slot, b) →
         ∃ t, exec (.driveMount h true capacity b0 b1) s = .next t ∧ t.ref = s.ref ∧ t.mem = s.mem ∧ t.dev.g l NVH_STAT.DRIVE = 2 ∧
           t.dev.on l NVH_STAT.MOUNTED = true ∧ t.dev.g l NVH_STAT.SLOT = slot ∧ t.dev.g l NVH_VOLSEQ.SEQ = blockAt b 0x10 4 % 2 ^ 32 ∧ t.dev.raised l 0 ∧
           (t.dev.nvh h).logLba = blockAt b 0x24 4 ∧ (t.dev.nvh h).cap = blockAt b 0x18 4))) ∧
  (∀ (s : State) (h : Half), s.awake h (nvhL h) → s.sole h →
     let l := nvhL h
     let x := s.dev.nvh h
     let kept (t : State) (g : Nat) : Nat := SMap.get (fun _ => 0) t.dev.ptab (h.n * 2 ^ 20 + g)
     -- the page has an entry, which lies in the half's own DRAM, in no page that is being loaded
     let entered (g : Nat) (out : List NRead) : Prop := g < s.dev.pages h ∧ s.dev.pteAddr h g + 16 ≤ 2 ^ 36 ∧ s.ref.targets (s.dev.pteAddr h g) = [s.dev.pteAddr h g] ∧
       s.dev.pteAddr h g % 2 ^ 35 / 65536 ≠ g ∧ ∀ y ∈ out, y.page ≠ s.dev.pteAddr h g % 2 ^ 35 / 65536
     (∀ q rest, (match h with | .A => s.dev.pagesA | .B => s.dev.pagesB) = q :: rest → s.dev.on (rowL h q.engine) (ROW_RIDX.EN.ix q.ctx) = false →
       ∃ t, exec (.pageAheadRequest h) s = .next t ∧ t.ref = s.ref ∧ t.mem = s.mem ∧ t.dev.nvhs = s.dev.nvhs ∧ t.dev.regs = s.dev.regs ∧
         (match h with | .A => t.dev.pagesA | .B => t.dev.pagesB) = rest) ∧
     (∀ g time, earliest x.loads = some (g, time) → x.out.length < 64 → x.resetting = false → s.dev.on l NVH_STAT.MOUNTED = true →
       (s.dev.inCap h (s.dev.pte s.mem h g % 2 ^ 32) 65536 = true → entered g x.out →
         ∃ t, exec (.nvmeReadIssue h) s = .next t ∧ t.ref = s.ref ∧ t.dev.regs = s.dev.regs ∧ (t.dev.nvh h).loads = x.loads.erase (g, time) ∧
           (t.dev.nvh h).out = x.out ++ [{ page := g, time := time }] ∧ kept t g = pteWith (s.dev.pte s.mem h g) 1) ∧
       (s.dev.inCap h (s.dev.pte s.mem h g % 2 ^ 32) 65536 = false → ∃ t, exec (.nvmeReadIssue h) s = .next t ∧ t.ref = s.ref ∧ t.mem = s.mem ∧
         t.dev.regs = s.dev.regs ∧ (t.dev.nvh h).loads = x.loads.erase (g, time) ∧ (t.dev.nvh h).out = x.out ∧ t.dev.ptab = s.dev.ptab)) ∧
     (x.loads = [] → exec (.nvmeReadIssue h) s = .next s) ∧
     (∀ (g : BitVec 20) (data : List Byte) r, x.out.find? (fun y => y.page = g.toNat) = some r → r.drop = false → r.dirty = false → data.length = 65536 →
       entered g.toNat (x.out.erase r) → (∀ y ∈ x.out.erase r, y.page ≠ g.toNat) → s.ref.targets (h.n * 2 ^ 35 + 65536 * g.toNat) = [h.n * 2 ^ 35 + 65536 * g.toNat] →
       let e := s.dev.pte s.mem h g.toNat
       (crc32 data = e / 2 ^ 32 % 2 ^ 32 → ∃ t, exec (.pageArrive h g data) s = .next t ∧ t.ref = s.ref ∧ kept t g.toNat = pteWith e 2 ∧
         (t.dev.nvh h).out = x.out.erase r ∧ t.dev.g l NVH_CLOAD.PAGES = (s.dev.g l NVH_CLOAD.PAGES + 1) % 2 ^ 32 ∧
         (∀ i, i < 65536 → s.dev.backed (h.n * 2 ^ 35 + 65536 * g.toNat + i) = true →
           (h.n * 2 ^ 35 + 65536 * g.toNat + i < s.dev.pteAddr h g.toNat ∨ s.dev.pteAddr h g.toNat + 16 ≤ h.n * 2 ^ 35 + 65536 * g.toNat + i) →
           t.mem.byte (h.n * 2 ^ 35 + 65536 * g.toNat + i) = data.getD i 0)) ∧
       (crc32 data ≠ e / 2 ^ 32 % 2 ^ 32 → r.again = false → ∃ t, exec (.pageArrive h g data) s = .next t ∧ t.ref = s.ref ∧ t.dev.ptab = s.dev.ptab ∧
         (t.dev.nvh h).out = x.out.erase r ++ [{ r with again := true }]) ∧
       (crc32 data ≠ e / 2 ^ 32 % 2 ^ 32 → r.again = true → ∃ t, exec (.pageArrive h g data) s = .next t ∧ t.ref = s.ref ∧ kept t g.toNat = pteWith e 3 ∧
         (t.dev.nvh h).out = x.out.erase r ∧ t.dev.raised l 5 ∧ t.dev.g l NVH_CERR.CHECKFAIL = min (s.dev.g l NVH_CERR.CHECKFAIL + 1) 65535)) ∧
     (∃ t, exec (.cmdTmo h none) s = .next t ∧ t.ref = s.ref ∧ t.mem = s.mem ∧ t.dev.raised l 6 ∧ (t.dev.nvh h).tmos = x.tmos + 1 ∧
       t.dev.g l NVH_CERR.TMO = min (s.dev.g l NVH_CERR.TMO + 1) 65535 ∧
       (t.dev.nvh h).resetting = (x.resetting || decide (s.dev.g l NVH_CFG.RSTN ≤ x.tmos + 1))) ∧
     (x.resetting = true → x.out = [] → ∃ t, exec (.ctrlReset h) s = .next t ∧ t.ref = s.ref ∧ t.mem = s.mem ∧ t.dev.raised l 7 ∧
       t.dev.g l NVH_STAT.DRIVE = 2 ∧ (t.dev.nvh h).resetting = false ∧ (t.dev.nvh h).tmos = 0) ∧
     (x.resetting = false → exec (.ctrlReset h) s = .next s) ∧
     (s.dev.on l NVH_CFG.LOGEN = true → (s.dev.g l NVH_LOGRD.IDX + x.logOut) % 2 ^ 21 ≠ s.dev.g l NVH_LOGWR.IDX → s.dev.warned h = false →
       x.resetting = false → s.dev.on l NVH_STAT.MOUNTED = true → x.logBlocks ≠ 0 →
       let lba := x.logLba + s.dev.g64 l NVH_LOGSEQ_LO.SEQ NVH_LOGSEQ_HI.SEQ % x.logBlocks
       let stage := halfAddr h (s.dev.g l NVH_LOGSTG.BASE * 4096) + (s.dev.g l NVH_LOGRD.IDX + x.logOut) % 2 ^ 21 % 2 ^ s.dev.g l NVH_LOGCFG.LOG2 * 4096
       s.dev.inCap h lba 4096 = true → s.ref.targets stage = [stage] → ∃ t, exec (.logBlockSubmit h) s = .next t ∧ t.ref = s.ref ∧
         (t.dev.nvh h).logOut = x.logOut + 1 ∧ (t.dev.nvh h).logTo = x.logTo ++ [lba] ∧
         t.dev.g64 l NVH_LOGSEQ_LO.SEQ NVH_LOGSEQ_HI.SEQ = (s.dev.g64 l NVH_LOGSEQ_LO.SEQ NVH_LOGSEQ_HI.SEQ + 1) % 2 ^ 64 ∧
         (∀ a, (a < stage ∨ stage + 4096 ≤ a) → t.mem.byte a = s.mem.byte a)) ∧
     ((s.dev.on l NVH_CFG.LOGEN = false ∨ s.dev.warned h = true) → exec (.logBlockSubmit h) s = .next s) ∧
     (∃ t, exec (.nvmeCompletion h true) s = .next t ∧ t.ref = s.ref ∧ t.mem = s.mem ∧ t.dev.raised l 8 ∧ (t.dev.nvh h).tmos = 0) ∧
     (x.logOut ≠ 0 → ∃ t, exec (.nvmeCompletion h false) s = .next t ∧ t.ref = s.ref ∧ t.mem = s.mem ∧ (t.dev.nvh h).logOut = x.logOut - 1 ∧ (t.dev.nvh h).logTo = x.logTo.drop 1 ∧
       t.dev.g l NVH_LOGRD.IDX = (s.dev.g l NVH_LOGRD.IDX + 1) % 2 ^ 21 ∧ s.dev.regsKept [l + NVH_LOGRD.IDX.off] t.dev) ∧
     (∀ (q : Fin 6) (tail held : BitVec 8),
       let was := SMap.get (fun _ => 0) x.held q
       let new := (tail.toNat + 512 - SMap.get (fun _ => 0) x.tails q - was) % 256
       (s.dev.g l NVH_CFG.FWQ ≤ q.val → ∃ t, exec (.fwDoorbell h q tail held) s = .next t ∧ t.ref = s.ref ∧ t.mem = s.mem ∧ s.dev.onlyRegs [l + 0x03C] t.dev) ∧
       (q.val < s.dev.g l NVH_CFG.FWQ → (s.dev.warned h = false ∨ (held = 0 ∧ was = 0)) → ∃ t, exec (.fwDoorbell h q tail held) s = .next t ∧ t.ref = s.ref ∧ t.mem = s.mem ∧
         SMap.get (fun _ => 0) (t.dev.nvh h).tails q = tail.toNat ∧ s.dev.regsKept [l + 0x03C] t.dev) ∧
       (q.val < s.dev.g l NVH_CFG.FWQ → s.dev.warned h = true → was ≠ 0 → ∃ t, exec (.fwDoorbell h q tail held) s = .next t ∧ t.ref = s.ref ∧ t.mem = s.mem ∧
         t.dev.on l NVH_STAT.BROWNHOLD = true ∧ SMap.get (fun _ => 0) (t.dev.nvh h).held q = was + new) ∧
       (q.val < s.dev.g l NVH_CFG.FWQ → s.dev.warned h = true → was = 0 → held ≠ 0 → held.toNat ≤ new →
         ∃ t, exec (.fwDoorbell h q tail held) s = .next t ∧ t.ref = s.ref ∧ t.mem = s.mem ∧
         t.dev.on l NVH_STAT.BROWNHOLD = true ∧ SMap.get (fun _ => 0) (t.dev.nvh h).held q = held.toNat ∧
         SMap.get (fun _ => 0) (t.dev.nvh h).tails q = (tail.toNat + 256 - held.toNat) % 256 ∧
         t.dev.g l NVH_CPA.HELD = min (s.dev.g l NVH_CPA.HELD + held.toNat) 65535)))

/-! ### Chapter 15: DMA -/

/-- R361, R362, R364, R365: START begins a fetch and is ignored in RUN; DOORBELL sets RING in RUN and re-reads in END; STOP waits in RUN, ends END with
ABORTED; the latch shows the three counters. Nothing else of the part changes. -/
def Obligations.ChannelCommandsFollowTheState : Prop :=
  ∀ (s : State) (r : Fin 3) (c : Fin 16), c.val < dmaCount r → s.regionOn r = true → s.soleR r →
    let l := dmaL r
    let ch := s.dev.dma r c
    let st := s.dev.dmaState r c
    let seq := l + 0x03C
    let ctl := l + 0x800 + 0x40 * c.val
    let did (t : State) (keys : List Nat) : Prop := s.channelOnly t r c keys ∧ t.mem = s.mem
    (st ≠ dmaRun → ∃ t, exec (.dmaStart r c) s = .next t ∧ did t [seq, ctl] ∧ t.dev.dmaState r c = dmaRun ∧
      t.dev.dma r c = { ch with phase := .fetch, stopping := false }) ∧
    (st = dmaRun →
      (∃ t, exec (.dmaStart r c) s = .next t ∧ did t [seq] ∧ t.dev.dma r c = ch) ∧
      (∃ t, exec (.dmaDoorbell r c) s = .next t ∧ did t [seq, ctl] ∧ t.dev.on l (DMA_CTL.RING.ix c) = true ∧ t.dev.dmaState r c = dmaRun ∧ t.dev.dma r c = ch) ∧
      (∃ t, exec (.dmaStop r c) s = .next t ∧ did t [seq] ∧ t.dev.dma r c = { ch with stopping := true })) ∧
    (st = dmaEnd →
      (∃ t, exec (.dmaDoorbell r c) s = .next t ∧ did t [seq, ctl] ∧ t.dev.dmaState r c = dmaRun ∧ t.dev.dma r c = { ch with phase := .reread, stopping := false }) ∧
      (∃ t, exec (.dmaStop r c) s = .next t ∧ did t [seq, ctl, ctl + 0x0C] ∧ t.dev.dmaState r c = dmaStopped ∧ t.dev.g l (DMA_STAT.STATUS.ix c) = 5 ∧
        t.dev.dma r c = { ch with phase := .none, stopping := false })) ∧
    (st = dmaIdle ∨ st = dmaStopped →
      (∃ t, exec (.dmaDoorbell r c) s = .next t ∧ did t [seq] ∧ t.dev.dma r c = ch) ∧ (∃ t, exec (.dmaStop r c) s = .next t ∧ did t [seq] ∧ t.dev.dma r c = ch)) ∧
    (∃ t, exec (.dmaLatch r c) s = .next t ∧ did t [seq, ctl + 0x18, ctl + 0x1C, ctl + 0x20] ∧ t.dev.dma r c = ch ∧
      t.dev.g l (DMA_TAKEN.COUNT.ix c) = ch.taken % 2 ^ 32 ∧ t.dev.g l (DMA_DONE.COUNT.ix c) = ch.done % 2 ^ 32 ∧
      t.dev.g l (DMA_FAIL.COUNT.ix c) = ch.fail % 2 ^ 32)

/-- R358 to R364, Tables 15.1 to 15.3, for a channel whose descriptor and data lie in populated DRAM without uncorrectable words: a descriptor that
the channel owns is taken, another stops it; the data moves byte for byte, none where the descriptor is malformed; word 5 and word 0 are written
back; the descriptor is counted once; the re-read words lead on, ring or end, and after a failure the channel stops. -/
def Obligations.ChannelsMoveDescriptorsAndData : Prop :=
  ∀ (s : State) (r : Fin 3) (c : Fin 16), s.channel r c → s.dev.calm → s.ref.rjHalf = none → s.plain r (s.dev.dmaDesc r c) 32 →
    let l := dmaL r
    let ch := s.dev.dma r c
    let a := s.dev.dmaDesc r c
    let ctl := l + 0x800 + 0x40 * c.val
    let dw := (List.range 8).map (fun i => s.mem.read (a + 4 * i) 4)
    let stays (t : State) : Prop := s.channelOnly t r c [ctl, ctl + 0x0C] ∧ t.mem = s.mem
    let stopped (t : State) (n : Nat) : Prop := t.dev.dmaState r c = dmaStopped ∧ t.dev.g l (DMA_STAT.STATUS.ix c) = n ∧ (t.dev.dma r c).phase = .none
    let kept (t : State) : Prop := (t.dev.dma r c).taken = ch.taken ∧ (t.dev.dma r c).done = ch.done ∧ (t.dev.dma r c).fail = ch.fail
    let fails (t : State) (n : Nat) : Prop := t.dev.dmaState r c = dmaRun ∧ t.dev.g l (DMA_STAT.STATUS.ix c) = n ∧ t.dev.raised l (16 + c) ∧
      t.dev.dma r c = { ch with phase := .last, stopping := false, fail := (ch.fail + 1) % 2 ^ 32 }
    (ch.phase = .fetch → ch.stopping = true → ∃ t, exec (.descriptorFetch r c) s = .next t ∧ stays t ∧ stopped t 5 ∧ kept t) ∧
    (ch.phase = .fetch → ch.stopping = false →
      (dscAt dw 0 % 2 = 0 → ∃ t, exec (.descriptorFetch r c) s = .next t ∧ stays t ∧ stopped t 1 ∧ kept t) ∧
      (dscAt dw 0 % 2 = 1 → ∃ t, exec (.descriptorFetch r c) s = .next t ∧ t.mem = s.mem ∧
        s.channelOnly t r c [ctl + 0x0C, ctl + 0x10, ctl + 0x14] ∧
        t.dev.dma r c = { ch with taken := (ch.taken + 1) % 2 ^ 32, phase := .move dw } ∧ t.dev.g l (DMA_STAT.STATUS.ix c) = 0 ∧
        t.dev.g l (DMA_RDONE.BYTES.ix c) = 0 ∧ t.dev.g l (DMA_WDONE.BYTES.ix c) = 0)) ∧
    (∀ w, ch.phase = .move w → dscBad w = true → ∀ rd wr, ∃ t, exec (.descriptorComplete r c rd wr) s = .next t ∧ fails t 4 ∧
      s.channelOnly t r c [ctl, ctl + 0x0C, ctl + 0x10, ctl + 0x14] ∧ t.mem.read a 4 = dscAt w 0 % 2 ^ 28 / 2 * 2 + 4 * 2 ^ 28 ∧
      ∀ x, (x < a ∨ a + 4 ≤ x) → (x < a + 20 ∨ a + 24 ≤ x) → t.mem.byte x = s.mem.byte x) ∧
    (∀ w, ch.phase = .move w → dscBad w = false →
      s.plain r (dscSrc w) (if bit (dscAt w 0) 2 then dscLen w else dscSw w) → s.plain r (dscDst w) (if bit (dscAt w 0) 3 then dscLen w else dscDw w) →
      let n := dscLen w
      let wide := if bit (dscAt w 0) 3 then n else dscDw w
      let frame (t : State) : Prop := s.channelOnly t r c [ctl, ctl + 0x0C, ctl + 0x10, ctl + 0x14] ∧
        ∀ x, (x < a ∨ a + 4 ≤ x) → (x < a + 20 ∨ a + 24 ≤ x) → (x < dscDst w ∨ dscDst w + wide ≤ x) → t.mem.byte x = s.mem.byte x
      (ch.stopping = false → ∀ rd wr, ∃ t, exec (.descriptorComplete r c rd wr) s = .next t ∧ frame t ∧ t.dev.dmaState r c = dmaRun ∧
        t.dev.dma r c = { ch with phase := .reread, stopping := false, done := (ch.done + 1) % 2 ^ 32 } ∧ t.dev.g l (DMA_STAT.STATUS.ix c) = 0 ∧
        t.dev.g l (DMA_RDONE.BYTES.ix c) = n ∧ t.dev.g l (DMA_WDONE.BYTES.ix c) = n ∧ (bit (dscAt w 0) 1 = true → t.dev.raised l c) ∧
        t.mem.read a 4 = dscAt w 0 % 2 ^ 28 / 2 * 2 ∧
        (bit (dscAt w 0) 2 = true → bit (dscAt w 0) 3 = true → (dscSrc w + n ≤ dscDst w ∨ dscDst w + n ≤ dscSrc w) →
          (dscDst w + n ≤ a ∨ a + 32 ≤ dscDst w) → ∀ i, i < n → t.mem.byte (dscDst w + i) = s.mem.byte (dscSrc w + i))) ∧
      (ch.stopping = true → ∀ rd wr, ∃ t, exec (.descriptorComplete r c rd wr) s = .next t ∧ frame t ∧ fails t 5 ∧
        t.dev.g l (DMA_RDONE.BYTES.ix c) ≤ rd.toNat ∧ t.dev.g l (DMA_WDONE.BYTES.ix c) ≤ wr.toNat) ∧
      (∀ rd wr wb, ∃ t, exec (.dmaTimeout r c rd wr wb) s = .next t ∧ frame t ∧ fails t 2)) ∧
    (ch.phase = .fetch ∨ ch.phase = .reread → ∀ rd wr wb, ∃ t, exec (.dmaTimeout r c rd wr wb) s = .next t ∧ stays t ∧ stopped t 2 ∧ kept t) ∧
    (ch.phase = .last → (∀ rd wr wb, ∃ t, exec (.dmaTimeout r c rd wr wb) s = .next t ∧ stays t ∧ stopped t 2 ∧ kept t) ∧
      ∃ t, exec (.descriptorReread r c) s = .next t ∧ stays t ∧ stopped t (s.dev.g l (DMA_STAT.STATUS.ix c)) ∧ kept t ∧ t.dev.on l (DMA_CTL.RING.ix c) = false) ∧
    (ch.phase = .reread → ch.stopping = false →
      let v := s.mem.read (a + 24) 8
      (v % 2 = 0 → ∃ t, exec (.descriptorReread r c) s = .next t ∧ s.channelOnly t r c [ctl, ctl + 0x04, ctl + 0x08] ∧ t.mem = s.mem ∧ kept t ∧
        t.dev.dmaState r c = dmaRun ∧ (t.dev.dma r c).phase = .fetch ∧ t.dev.dmaDesc r c = v / 32 % 2 ^ 35 * 32 ∧ t.dev.on l (DMA_CTL.RING.ix c) = false) ∧
      (v % 2 = 1 → s.dev.on l (DMA_CTL.RING.ix c) = true → ∃ t, exec (.descriptorReread r c) s = .next t ∧ stays t ∧ t.dev.dma r c = ch ∧
        t.dev.on l (DMA_CTL.RING.ix c) = false) ∧
      (v % 2 = 1 → s.dev.on l (DMA_CTL.RING.ix c) = false → ∃ t, exec (.descriptorReread r c) s = .next t ∧ stays t ∧ kept t ∧ t.dev.dmaState r c = dmaEnd ∧
        (t.dev.dma r c).phase = .none))

/-- R365: the law of a channel's counters is kept by every command of the channel, where its descriptor and data lie below the top of DRAM. -/
def Obligations.DescriptorsAreCountedOnce : Prop :=
  ∀ (s t : State) (r : Fin 3) (c : Fin 16) (i : Instr), s.dev.channelSound r c → s.dev.dmaDesc r c + 32 ≤ 2 ^ 36 →
    (∀ w, (s.dev.dma r c).phase = .move w → dscSrc w + dscLen w + 16 ≤ 2 ^ 36 ∧ dscDst w + dscLen w + 16 ≤ 2 ^ 36) →
    (i = .dmaStart r c ∨ i = .dmaDoorbell r c ∨ i = .dmaStop r c ∨ i = .dmaLatch r c ∨ i = .descriptorFetch r c ∨ i = .descriptorReread r c ∨
      (∃ rd wr, i = .descriptorComplete r c rd wr) ∨ ∃ rd wr wb, i = .dmaTimeout r c rd wr wb) →
    exec i s = .next t → t.dev.channelSound r c

/-! ### Chapters 16 to 18: compositions, heads, blitter -/

/-- R373, R376, R378, R381: a refresh records the time base for each composition it names; REFLAT makes the prefix invalid; a camera line
goes into the ring surface of the layer that shows the camera, in the place of the line before it where that is not all written, which is counted
as dropped; writeback stores its lines and records the time base of its latch point, or is dropped and counted. Other compositions, registers and bytes stay. -/
def Obligations.CompositionsRefreshAndWriteBack : Prop :=
  ∀ (s : State),
    let others (c : Nat) (t : State) (keys : List Nat) : Prop := t.ref = s.ref ∧ t.pending = s.pending ∧
      { t.dev.quiet with prisms := [] } = { s.dev.quiet with prisms := [] } ∧ s.dev.regsKept keys t.dev ∧ ∀ j, j ≠ c → t.dev.prism j = s.dev.prism j
    (s.dev.svcUp = true →
      (∀ mask : BitVec 2, ∃ t, exec (.l7Refresh mask) s = .next t ∧ t.ref = s.ref ∧ t.mem = s.mem ∧ { t.dev.quiet with prisms := [] } = { s.dev.quiet with prisms := [] } ∧
        s.dev.regsKept [przD4 + 0x03C] t.dev ∧ ∀ c : Fin 2, t.dev.prism c =
          if mask.getLsbD c then { s.dev.prism c with refresh := s.dev.tbS, ueL7 := false } else s.dev.prism c) ∧
      (∀ c : Fin 2, ∃ t, exec (.reflat c) s = .next t ∧ others c t [przL c + 0x03C] ∧ t.mem = s.mem ∧ t.dev.prism c = { s.dev.prism c with invalid := true }) ∧
      (∀ (h : Half) (k : Fin 2),
        let up : Bool := s.ref.live h && s.dev.on (lpeL h k) LPE_STAT.RUN && decide (s.dev.g (cxpL h k) CXP_STAT.LINK = 2) && (s.dev.pipe h k).fresh
        let taken := s.dev.modPipe h k (fun x => { x with fresh := false })
        let shows (c n : Nat) : Prop := s.dev.clocked (przL c) = true ∧ s.dev.przStopped c = false ∧ s.dev.lg c n PRZ_LCFG.EN = 1 ∧
          s.dev.lg c n PRZ_LCFG.SRC = 2 ∧ s.dev.lg c n PRZ_LLIVE.ENGINE = 2 * h.n + k
        (up = false → ∀ busy, exec (.cameraViewLine h k busy) s = .next s) ∧
        (up = true → (∀ c n, c < 2 → n < 7 → ¬ shows c n) → ∀ busy, exec (.cameraViewLine h k busy) s = .next { s with dev := taken }) ∧
        (up = true → ∀ c n, c < 2 → n < 7 → (∀ c' n', c' < 2 → n' < 7 → (shows c' n' ↔ c' = c ∧ n' = n)) → ∀ busy : Bool,
          let g := s.dev.lg c n
          let line := (s.dev.pipe h k).line
          let was := SMap.get (fun _ => 0) (s.dev.prism c).cams n
          let drop : Bool := busy && decide (0 < was)
          let count := if drop then was - 1 else was
          let base := g PRZ_LBASE_LO.BASE * 16 + g PRZ_LBASE_HI.BASE * 2 ^ 32 + count % (g PRZ_LSIZE.SH_M1 + 1) * g PRZ_LPITCH.PITCH
          let w := g PRZ_LSIZE.SW_M1 + 1
          s.dev.surfaceAt base w → s.ref.rjHalf = none → s.dev.calm → (∀ i, i < w → g PRZ_LLIVE.FIRST + i * 2 ^ g PRZ_LLIVE.SKIP < line.length) →
            ∃ t, exec (.cameraViewLine h k busy) s = .next t ∧ t.ref = s.ref ∧ t.pending = s.pending ∧
              { t.dev.quiet with prisms := [] } = { taken.quiet with prisms := [] } ∧ s.dev.regsKept (if drop then [przL c + PRZ_CNT.CAMDROP.off] else []) t.dev ∧
              (∀ j, j ≠ c → t.dev.prism j = s.dev.prism j) ∧
              t.dev.prism c = { s.dev.prism c with cams := SMap.set (fun _ => 0) (s.dev.prism c).cams n (count + 1) } ∧
              (drop = true → t.dev.raised (przL c) 3 ∧ t.dev.g (przL c) PRZ_CNT.CAMDROP = min (s.dev.g (przL c) PRZ_CNT.CAMDROP + 1) 65535) ∧
              (∀ a, (a < base ∨ base + w ≤ a) → t.mem.byte a = s.mem.byte a) ∧
              (∀ i, i < w → s.dev.backed (base + i) = true →
                t.mem.byte (base + i) = BitVec.ofNat 8 (line.getD (g PRZ_LLIVE.FIRST + i * 2 ^ g PRZ_LLIVE.SKIP) 0))))) ∧
    (∀ c : Fin 2, s.served (przL c) →
      let x := s.dev.prism c
      let fd : Dev := { s.dev with regs := x.frame.regs }
      let size := modeSize (fd.g (dhdL c) DHD_CFG.MODE)
      let base := fd.g (przL c) PRZ_WB_LO.BASE * 16 + fd.g (przL c) PRZ_WB_HI.BASE * 2 ^ 32
      let pitch := fd.g (przL c) PRZ_WBCFG.PITCH
      let wide := size.1 * (if fd.g (przL c) PRZ_WBCFG.WBFMT = 1 then 4 else 2)
      let kept (t : State) (lines : Nat) : Prop :=
        ∀ a, (∀ y, y < min lines size.2 → a < base + y * pitch ∨ base + y * pitch + wide ≤ a) → t.mem.byte a = s.mem.byte a
      (x.frame.wb = false → exec (.wbDone c) s = .next s ∧ ∀ lines, exec (.wbDrop c lines) s = .next s) ∧
      (x.frame.wb = true → s.dev.przStopped c = false → (∀ y, y < size.2 → s.dev.surfaceAt (base + y * pitch) wide) → s.ref.rjHalf = none → s.dev.calm →
        (∃ t, exec (.wbDone c) s = .next t ∧ others c t [przL c + 0x818, przL c + 0x81C] ∧ kept t 2048 ∧ t.dev.raised (przL c) 4 ∧
          t.dev.g64 (przL c) PRZ_WBTB_LO.TB PRZ_WBTB_HI.TB = x.frame.tb % 2 ^ 64 ∧ t.dev.prism c = { x with frame := { x.frame with wb := false } }) ∧
        (∀ lines : BitVec 11, ∃ t, exec (.wbDrop c lines) s = .next t ∧ others c t [przL c + 0x824] ∧ kept t lines.toNat ∧ t.dev.raised (przL c) 5 ∧
          t.dev.g (przL c) PRZ_CNT2.WBDROP = min (s.dev.g (przL c) PRZ_CNT2.WBDROP + 1) 65535 ∧
          t.dev.prism c = { x with frame := { x.frame with wb := false } })))

/-- R378, R380, R392 to R396, R481: with no commit armed on its pages, a running head's latch point, in command mode after a transfer, starts a
frame: the composition judges L7 stale by its refresh and its maximum age, the head shows VBLANK and the first porch line and counts; in service
dim the head stops there. A head starts when its clock has locked, and restarts at its first sync line after an underrun. R388, R390, R395, R398:
compatibility scan-out fetches a line while its buffer has room; DSI command words enter a FIFO of 64 and a whole packet leaves it; a response or
its timeout ends BTA; a tearing-effect edge starts a transfer or counts as early, a missed one starts it and counts; a lost lock shows. -/
def Obligations.HeadsLatchFetchAndSync : Prop :=
  (∀ (s : State) (c : Fin 2), s.served (dhdL c) → s.dev.clocked (przL c) = true → s.dev.clocked przD4 = true → s.dev.calm → s.dev.on (przL c) PRZ_STAT.FLATTENING = false →
     (∀ p ∈ [pageOf 2 .prz c, pageOf 2 .prz 2, pageOf 2 .dhd c], s.dev.armed p = false) →
     let l := dhdL c
     let x := s.dev.prism c
     let stale : Bool := s.dev.lg c 7 PRZ_LCFG.EN = 1 && (x.ueL7 || decide (x.refresh + s.dev.g przD4 (PRZ_MAXAGE.MAXAGE.ix c) * 100000 < s.dev.tbS))
     let latched (t : State) (line : Nat) (keys : List Nat) : Prop := t.ref = s.ref ∧ t.mem = s.mem ∧
       (t.dev.on l DHD_STAT.RUN = true → bit (t.dev.headStat c) 2 = true) ∧ t.dev.g l DHD_STAT.LINE = line % 2 ^ 11 ∧ t.dev.on (przL c) PRZ_STAT.L7STALE = stale ∧
       (t.dev.prism c).frame.tb = s.dev.tbS ∧ (t.dev.prism c).frame.stale = stale ∧ t.dev.raised l 0 ∧
       (stale = true → s.dev.on (przL c) PRZ_STAT.L7STALE = false → t.dev.raised (przL c) 1 ∧ t.dev.raised przD4 1) ∧
       (c = 0 → t.dev.g l DHD_FCNT.FRAMES = (s.dev.g l DHD_FCNT.FRAMES + 1) % 2 ^ 32) ∧
       t.dev.head c = { s.dev.head c with placed := s.dev.tbS, transfer := false, lines := [], buffered := 0 } ∧ (∀ j, j ≠ c.val → t.dev.head j = s.dev.head j ∧ t.dev.prism j = s.dev.prism j) ∧
       { t.dev.quiet with prisms := [], heads := [], decBy := none } = { s.dev.quiet with prisms := [], heads := [], decBy := none } ∧
       s.dev.regsKept ([l + 0x800, l + 0x804, rLoc 2 .evc + EVC_DVLOG.PAGE.off, rLoc 2 .evc + EVC_DVCNT.COUNT.off, przL c + 0x800, przL c + 0x820, przL c + 0x824] ++ keys) t.dev
     let command : Bool := decide (c = 1) && s.dev.cmdMode
     (s.dev.on l DHD_STAT.RUN = false → exec (.latchPoint c) s = .next s ∧ ∀ lines, exec (.underrun c lines) s = .next s) ∧
     (command = true → (s.dev.head 1).transfer = false → exec (.latchPoint c) s = .next s) ∧ (command = true → ∀ lines, exec (.underrun c lines) s = .next s) ∧
     (s.dev.on l DHD_STAT.RUN = true → exec (.rasterStart c) s = .next s) ∧
     (s.dev.on l DHD_STAT.RUN = true → (command = true → (s.dev.head 1).transfer = true) →
       (s.dev.dimmed = false → ∃ t, exec (.latchPoint c) s = .next t ∧ latched t (s.dev.porchLine c) [] ∧ t.dev.on l DHD_STAT.RUN = true) ∧
       (s.dev.dimmed = true → ∃ t, exec (.latchPoint c) s = .next t ∧ latched t (s.dev.porchLine c) [] ∧ t.dev.on l DHD_STAT.RUN = false) ∧
       (x.frame.wb = false → command = false → ∀ lines, ∃ t, exec (.underrun c lines) s = .next t ∧ latched t (s.dev.syncLine c) [l + 0x814] ∧ t.dev.raised l 1 ∧
         t.dev.on l DHD_STAT.RUN = true ∧ t.dev.g l DHD_UNDER.COUNT = min (s.dev.g l DHD_UNDER.COUNT + 1) 65535)) ∧
     (s.dev.on l DHD_STAT.RUN = false → s.dev.on l DHD_CFG.EN = true → s.dev.dimmed = false → ∃ t, exec (.rasterStart c) s = .next t ∧
       latched t (s.dev.syncLine c) [] ∧ t.dev.on l DHD_STAT.RUN = true ∧ t.dev.on l DHD_STAT.LOCKED = true) ∧
     ((s.dev.on l DHD_CFG.EN = false ∨ s.dev.dimmed = true) → exec (.rasterStart c) s = .next s)) ∧
  (∀ (s : State),
     let d := s.dev
     let only (c : Nat) (t : State) (keys : List Nat) (y : Head) : Prop := t.ref = s.ref ∧ t.mem = s.mem ∧ t.pending = s.pending ∧
       { t.dev.quiet with heads := [] } = { d.quiet with heads := [] } ∧ d.regsKept keys t.dev ∧ t.dev.head c = y ∧ ∀ j, j ≠ c → t.dev.head j = d.head j
     (∀ c : Fin 2, s.served (dhdL c) → d.calm →
       let x := d.head c
       (∃ t, exec (.lockLost c) s = .next t ∧ only c t [dhdL c + 0x800] x ∧ t.dev.on (dhdL c) DHD_STAT.LOCKED = false ∧ t.dev.raised (dhdL c) 5) ∧
       (∀ shown : BitVec 11,
         let left := x.buffered - shown.toNat
         (d.on (dhdL c) DHD_STAT.RUN = true → d.on (dhdL c) DHD_CFG.SCAN = true → (left + 1) * compatLine d c ≤ 65536 →
           x.lines.length < (modeSize (d.g (dhdL c) DHD_CFG.MODE)).2 →
           ∃ t, exec (.compatLineFetch c shown) s = .next t ∧ only c t [] { x with
             lines := x.lines ++ [(List.range (compatLine d c)).map (fun i => readByte s.ref d s.mem (compatBase d c + x.lines.length * d.g (dhdL c) DHD_CPITCH.PITCH + i))]
             buffered := left + 1 }) ∧
         (d.on (dhdL c) DHD_STAT.RUN = false ∨ d.on (dhdL c) DHD_CFG.SCAN = false ∨ 65536 < (left + 1) * compatLine d c →
           exec (.compatLineFetch c shown) s = .next s))) ∧
     (d.svcUp = true → ∀ v : Word,
       let x := d.head 1
       (x.fifo.length < 64 → ∃ t, exec (.dsiCommandWrite v) s = .next t ∧ only 1 t [dhdL 1 + 0x03C, dhdL 1 + 0x844] { x with fifo := x.fifo ++ [v.toNat] } ∧
         t.dev.g (dhdL 1) DHD_DCLV.FREE = 63 - x.fifo.length) ∧
       (64 ≤ x.fifo.length → ∃ t, exec (.dsiCommandWrite v) s = .next t ∧ only 1 t [dhdL 1 + 0x03C, dhdL 1 + 0x844] x ∧ t.dev.on (dhdL 1) DHD_DCLV.DROP = true)) ∧
     (s.served (dhdL 1) →
       let l := dhdL 1
       let x := d.head 1
       (∀ hdr rest, x.fifo = hdr :: rest → x.bta = false → (if d.on l DHD_CFG.CMDMODE then x.transfer = false else d.on l DHD_STAT.RUN = true) →
         let n := 1 + (hdr / 2 ^ 8 % 65536 + 3) / 4
         (n ≤ x.fifo.length → x.fifo.length ≤ 64 → ∃ t, exec .dsiCommandSend s = .next t ∧
           only 1 t [l + 0x844] { x with fifo := x.fifo.drop n, sent := x.fifo.take n, bta := bit hdr 25 } ∧
           t.dev.g l DHD_DCLV.FREE = 64 - (x.fifo.length - n)) ∧
         (x.fifo.length < n → exec .dsiCommandSend s = .next s)) ∧
       (x.bta = true → exec .dsiCommandSend s = .next s ∧
         (∀ data : List Byte, ∃ t, exec (.cmdDone data) s = .next t ∧ only 1 t [l + 0x848, l + 0x84C, l + 0x850, l + 0x854] { x with bta := false } ∧ t.dev.raised l 4 ∧
           ∀ i, i < data.length → i < 16 → t.dev.g l ⟨0x848 + i / 4 * 4, 4, 8 * (i % 4), 8⟩ = (data.getD i 0).toNat) ∧
         (∃ t, exec .dsiResponseTimeout s = .next t ∧ only 1 t [l + 0x844] { x with bta := false } ∧ t.dev.on l DHD_DCLV.TMO = true ∧ t.dev.raised l 4)) ∧
       (x.bta = false → exec .dsiResponseTimeout s = .next s ∧ ∀ data, exec (.cmdDone data) s = .next s) ∧
       (d.cmdMode = true → x.transfer = false →
         (∃ t, exec .teEdge s = .next t ∧ only 1 t [] { x with transfer := true } ∧ t.dev.raised l 2) ∧
         (∃ t, exec .teMiss s = .next t ∧ only 1 t [l + 0x818] { x with transfer := true } ∧ t.dev.raised l 3 ∧
           t.dev.g l DHD_TECNT.MISS = min (d.g l DHD_TECNT.MISS + 1) 65535)) ∧
       (d.cmdMode = true → x.transfer = true → exec .teMiss s = .next s ∧
         ∃ t, exec .teEdge s = .next t ∧ only 1 t [l + 0x818] x ∧ t.dev.g l DHD_TECNT.EARLY = min (d.g l DHD_TECNT.EARLY + 1) 65535) ∧
       (d.cmdMode = false → exec .teEdge s = .next s ∧ exec .teMiss s = .next s)))

/-- R401, R405, R406, Table 18.4: GO captures the operation's registers, or is rejected while BUSY; ABORT marks the operation; an operation that validation
refuses draws nothing and shows its error; another ends with what stopped it and writes no byte outside its clipped destination
pixels; a plain FILL leaves the colour in every one of them. -/
def Obligations.BlitterDrawsOnlyItsPixels : Prop :=
  ∀ (s : State),
    let only (t : State) (keys : List Nat) : Prop := t.ref = s.ref ∧ t.pending = s.pending ∧
      { t.dev.quiet with blt := none, freeCount := 0 } = { s.dev.quiet with blt := none, freeCount := 0 } ∧ s.dev.regsKept keys t.dev
    (s.dev.svcUp = true →
      (∀ (op : Fin 8) (blend : Fin 4) (transp : Bool),
        (s.dev.on bltL BLT_STAT.BUSY = false → ∃ t b, exec (.bltGo op blend transp) s = .next t ∧ only t [bltL + 0x03C, bltL + 0x800, bltL + 0x804] ∧ t.mem = s.mem ∧
          t.dev.on bltL BLT_STAT.BUSY = true ∧ t.dev.blt = some b ∧ b.f BLT_CMD.OP = op.val ∧ b.f BLT_CMD.BLEND = blend.val ∧ b.f BLT_CMD.TRANSP = b2n transp ∧
          b.abort = false ∧ b.held = s.dev.on (sLoc .pwr) PWR_STAT.DIM ∧
          ∀ off, 0x808 ≤ off → off < 0x844 → SMap.get regReset b.regs (bltL + off) = s.dev.rd bltL off) ∧
        (s.dev.on bltL BLT_STAT.BUSY = true → ∃ t, exec (.bltGo op blend transp) s = .next t ∧ only t [bltL + 0x03C, bltL + 0x800, bltL + 0x844] ∧ t.mem = s.mem ∧
          t.dev.blt = s.dev.blt ∧ (s.dev.clocked bltL = true → t.dev.raised bltL 2) ∧ t.dev.g bltL BLT_CNT.REJ = min (s.dev.g bltL BLT_CNT.REJ + 1) 65535)) ∧
      (∃ t, exec .bltAbort s = .next t ∧ only t [bltL + 0x03C] ∧ t.mem = s.mem ∧
        t.dev.blt = if s.dev.on bltL BLT_STAT.BUSY then s.dev.blt.map (fun b => { b with abort := true }) else s.dev.blt)) ∧
    (∀ b, s.served bltL → s.dev.blt = some b → b.held = false → s.ref.rjHalf = none → s.dev.calm →
      let wide (f : Nat) : Nat := (bltBits f + 7) / 8
      let ended (t : State) (err : Nat) : Prop := only t [bltL + 0x804, bltL + 0x844, bltL + 0x848] ∧ t.dev.blt = none ∧ t.dev.on bltL BLT_STAT.BUSY = false ∧
        t.dev.g bltL BLT_STAT.ERR = err ∧ t.dev.g bltL BLT_CNT.OPS = min (s.dev.g bltL BLT_CNT.OPS + 1) 65535 ∧ t.dev.raised bltL (if err = 0 then 0 else 1)
      let frame (t : State) : Prop := ∀ x, (∀ e ∈ b.pixels, x < b.dst.addr e.1 e.2.1 ∨ b.dst.addr e.1 e.2.1 + wide b.dst.fmt ≤ x) → t.mem.byte x = s.mem.byte x
      (b.error ≠ 0 → ∀ n, (∃ t, exec (.bltComplete n) s = .next t ∧ ended t b.error ∧ t.mem = s.mem ∧ t.dev.g bltL BLT_PIX.PIXELS = 0) ∧
        (∃ t, exec (.bltTimeout n) s = .next t ∧ ended t b.error ∧ t.mem = s.mem ∧ t.dev.g bltL BLT_PIX.PIXELS = 0)) ∧
      (b.error = 0 → (∀ e ∈ b.pixels, s.plain 2 (b.dst.addr e.1 e.2.1) (wide b.dst.fmt) ∧
          (match e.2.2 with | .colour _ => True | .source x y => s.plain 2 (b.src.addr x y) (wide b.src.fmt) | .expand x y => s.plain 2 (b.src.addr x y) (wide b.src.fmt))) →
        (b.abort = false → ∀ n, ∃ t, exec (.bltComplete n) s = .next t ∧ ended t 0 ∧ frame t ∧
          (b.f BLT_CMD.OP ≠ 4 → t.dev.g bltL BLT_PIX.PIXELS = b.pixels.length % 2 ^ 27) ∧
          (b.f BLT_CMD.OP = 1 → b.f BLT_CMD.BLEND = 0 → b.dst.fmt = 5 → ∀ e ∈ b.pixels, t.mem.read (b.dst.addr e.1 e.2.1) 4 = b.f BLT_FG.COL)) ∧
        (b.abort = true → ∀ n : BitVec 27, ∃ t, exec (.bltComplete n) s = .next t ∧ ended t 7 ∧ frame t ∧
          t.dev.g bltL BLT_PIX.PIXELS ≤ (b.untilEdge n.toNat).length) ∧
        (∀ n : BitVec 27, ∃ t, exec (.bltTimeout n) s = .next t ∧ ended t 5 ∧ frame t ∧ t.dev.g bltL BLT_PIX.PIXELS ≤ n.toNat)))

/-! ### Chapter 19: acoustic unit -/

/-- R421: the law of the frame counters of each port is kept by every command of the acoustic unit. -/
def Obligations.AudioFramesAreCounted : Prop :=
  ∀ (s t : State) (i : Instr) (p : Nat), s.dev.aud.portSound p →
    ((∃ mics, i = .audioSamplePeriod mics) ∨ (∃ which src b, i = .zcTmo which src b) ∨ (∃ q slots, i = .audioFrameReceive q slots) ∨
      (∃ q, i = .audioFrameSync q) ∨ (∃ v, i = .keyon v) ∨ (∃ v, i = .keyoff v) ∨ ∃ q, i = .audPlatch q) →
    exec i s = .next t → t.dev.aud.portSound p

/-- R412, R415, R418, R421: a frame enters the FIFO of an enabled input port, leaves that of an enabled output port, and is counted; an empty output
FIFO repeats; key commands wait for the block boundary; a gain takes its pending value at the time-out; the latch shows one port's counters.
R412, R415 to R417: a sample period, with no commit armed and no uncorrectable wavetable word: a period that begins a block takes the key
commands and starts their voices at VSTART; each enabled input port gives a frame or repeats one; an active voice advances and a one-shot voice
that reaches VEND ends; each enabled output port takes a frame, in which a bus without an active source carries 0. -/
def Obligations.AudioPortsMixKeysAndGains : Prop :=
  (∀ (s : State),
     let a := s.dev.aud
     (s.dev.svcUp = true →
       (∀ v : Word, ∃ t, exec (.keyon v) s = .next t ∧ s.audioOnly t [audL + 0x03C] ∧ t.dev.aud = { a with keyOn := a.keyOn ||| v.toNat }) ∧
       (∀ v : Word, ∃ t, exec (.keyoff v) s = .next t ∧ s.audioOnly t [audL + 0x03C] ∧ t.dev.aud = { a with keyOff := a.keyOff ||| v.toNat }) ∧
       (∀ p : Fin 4, ∃ t, exec (.audPlatch p) s = .next t ∧ s.audioOnly t [audL + 0x03C, audL + 0x844, audL + 0x848, audL + 0x84C, audL + 0x850] ∧ t.dev.aud = a ∧
         t.dev.g audL AUD_PRX.COUNT = (a.port p).rx % 2 ^ 32 ∧ t.dev.g audL AUD_PTAKEN.COUNT = (a.port p).taken % 2 ^ 32 ∧
         t.dev.g audL AUD_PDROP.COUNT = (a.port p).drops % 2 ^ 32 ∧ t.dev.g audL AUD_PINSERT.COUNT = (a.port p).inserts % 2 ^ 32)) ∧
     (s.served audL →
       (∀ (p : Fin 2) (slots : List (BitVec 24)),
         let x := a.port p
         let f := (slots.take (fmtSlots (s.dev.g audL (AUD_PCFG.FMT.ix p)))).map (fun v => v.toInt)
         (s.dev.on audL (AUD_PCFG.EN.ix p) = false → exec (.audioFrameReceive p slots) s = .next s) ∧
         (s.dev.on audL (AUD_PCFG.EN.ix p) = true → x.fifo.length < 64 → ∃ t, exec (.audioFrameReceive p slots) s = .next t ∧
           s.audioOnly t [audL + 0x830 + 4 * p.val] ∧ t.dev.aud = a.setPort p { x with fifo := x.fifo ++ [f], rx := (x.rx + 1) % 2 ^ 32 } ∧
           t.dev.g audL (AUD_PSTAT.FILL.ix p) = (x.fifo.length + 1) % 64) ∧
         (s.dev.on audL (AUD_PCFG.EN.ix p) = true → 64 ≤ x.fifo.length → ∃ t, exec (.audioFrameReceive p slots) s = .next t ∧ s.audioOnly t [] ∧
           t.dev.aud.port p = { x with rx := (x.rx + 1) % 2 ^ 32, drops := (x.drops + 1) % 2 ^ 32 } ∧ t.dev.raised audL 0)) ∧
       (∀ p : Fin 2,
         let q := 2 + p.val
         let x := a.port q
         (s.dev.on audL (AUD_PCFG.EN.ix q) = false → exec (.audioFrameSync p) s = .next s) ∧
         (s.dev.on audL (AUD_PCFG.EN.ix q) = true → ∀ f fs, x.fifo = f :: fs → ∃ t, exec (.audioFrameSync p) s = .next t ∧ s.audioOnly t [audL + 0x830 + 4 * q] ∧
           t.dev.aud = a.setPort q { x with fifo := fs, last := f, taken := (x.taken + 1) % 2 ^ 32 } ∧ t.dev.g audL (AUD_PSTAT.FILL.ix q) = fs.length % 64) ∧
         (s.dev.on audL (AUD_PCFG.EN.ix q) = true → x.fifo = [] → ∃ t, exec (.audioFrameSync p) s = .next t ∧ s.audioOnly t [] ∧
           t.dev.aud.port q = { x with inserts := (x.inserts + 1) % 2 ^ 32 } ∧ t.dev.raised audL 1)) ∧
       (∀ (which : Fin 3) (src : Fin 52) (b : Fin 16),
         let pick (y : Audio) : Gain := if which = 0 then gainOf y.sgain (src.val * 16 + b.val) else if which = 1 then gainOf y.bgain b.val else y.steth
         ((pick a).zc = none → exec (.zcTmo which src b) s = .next s) ∧
         (∀ v, (pick a).zc = some v → ∃ t, exec (.zcTmo which src b) s = .next t ∧ s.audioOnly t [] ∧ pick t.dev.aud = { pick a with cur := v, len := 0, zc := none } ∧
           t.dev.aud.ports = a.ports ∧ t.dev.aud.voices = a.voices ∧ t.dev.raised audL 5)))) ∧
  (∀ (s : State) (mics : List (BitVec 24)), s.served audL → s.dev.armed (pageOf 2 .aud 0) = false → (∀ w ∈ s.dev.ueWords, w.1 ≠ pageOf 2 .aud 0) →
     let a := s.dev.aud
     let g (f : Fld) : Nat := s.dev.g audL f
     ∃ t, exec (.audioSamplePeriod mics) s = .next t ∧
       s.audioOnly t ([audL + 0x808, audL + 0x80C, audL + 0x820, audL + 0x824, audL + 0x830, audL + 0x834, audL + 0x838, audL + 0x83C] ++
         (List.range 64).map (fun k => audL + 0x900 + 4 * k)) ∧ t.dev.aud.wave = a.wave ∧
       (a.left ≠ 0 → t.dev.aud.left = a.left - 1 ∧ t.dev.aud.keyOn = a.keyOn ∧ t.dev.aud.keyOff = a.keyOff ∧
         (∀ v, v < 32 → s.dev.voiceOn v = false → t.dev.voiceOn v = false) ∧
         (∀ v, v < 32 → s.dev.voiceOn v = true → (a.voice v).pos + g (AUD_VPITCH.INC.ix v) < g (AUD_VENDX.INDEX.ix v) * 65536 →
           (t.dev.aud.voice v).pos = (a.voice v).pos + g (AUD_VPITCH.INC.ix v)) ∧
         (∀ v, v < 32 → s.dev.voiceOn v = true → g (AUD_VMODE.LOOP.ix v) = 0 → (a.voice v).pos + g (AUD_VPITCH.INC.ix v) < 2 ^ 33 →
           g (AUD_VENDX.INDEX.ix v) * 65536 ≤ (a.voice v).pos + g (AUD_VPITCH.INC.ix v) →
           t.dev.voiceOn v = false ∧ bit (t.dev.g audL AUD_VEND.ENDED) v = true ∧ t.dev.raised audL 4)) ∧
       (a.left = 0 → t.dev.aud.left = 2 ^ g AUD_CFG.BLK - 1 ∧ t.dev.aud.keyOn = 0 ∧ t.dev.aud.keyOff = 0 ∧
         ∀ v, v < 32 → bit a.keyOn v = true → t.dev.voiceOn v = true ∧ (t.dev.aud.voice v).pos = g (AUD_VSTART.INDEX.ix v) * 65536) ∧
       (∀ p, p < 2 → g (AUD_PCFG.EN.ix p) = 1 →
         (∀ f fs, (a.port p).fifo = f :: fs → fs.length < 48 → t.dev.aud.port p = { a.port p with fifo := fs, last := f, taken := ((a.port p).taken + 1) % 2 ^ 32 }) ∧
         (∀ f f' fs, (a.port p).fifo = f :: f' :: fs → 47 ≤ fs.length → t.dev.aud.port p =
           { a.port p with fifo := fs, last := f, taken := ((a.port p).taken + 1) % 2 ^ 32, drops := ((a.port p).drops + 1) % 2 ^ 32 } ∧ t.dev.raised audL 0) ∧
         ((a.port p).fifo = [] → t.dev.aud.port p = { a.port p with inserts := ((a.port p).inserts + 1) % 2 ^ 32 } ∧ t.dev.raised audL 1)) ∧
       (∀ q, q = 2 ∨ q = 3 → g (AUD_PCFG.EN.ix q) = 1 →
         (48 ≤ (a.port q).fifo.length → t.dev.aud.port q = { a.port q with rx := ((a.port q).rx + 1) % 2 ^ 32, drops := ((a.port q).drops + 1) % 2 ^ 32 }) ∧
         ((a.port q).fifo.length < 48 → ∃ f, t.dev.aud.port q = { a.port q with fifo := (a.port q).fifo ++ [f], rx := ((a.port q).rx + 1) % 2 ^ 32 } ∧
           f.length = fmtSlots (g (AUD_PCFG.FMT.ix q)) ∧
           (a.left ≠ 0 → ∀ b, b < f.length → s.dev.busSources (8 * (q - 2) + b) = [] → s.dev.stethOn (8 * (q - 2) + b) = false → f[b]? = some 0))) ∧
       (∀ p, p < 4 → g (AUD_PCFG.EN.ix p) = 0 → t.dev.aud.port p = a.port p))

/-! ### Chapter 20: events and host interface -/

/-- R431: what an endpoint does with one of its 64 vectors. A vector that no asserted source names, or that is in service, sends nothing; a masked one sets its
PBA bit; one of class INFO or WARN waits out EVC_VMOD; otherwise the message leaves and the vector is in service. EOI and unmasking apply the same
rule after they have cleared the vector's in-service or mask bit. -/
def Obligations.VectorsAreDeliveredByTheRules : Prop :=
  ∀ (s : State) (h : Half) (v : Fin 64), s.ref.hs h ≠ .off →
    let l := hLoc h .hif
    let key := h.n * 64 + v.val
    let es := s.dev.vecSources h v
    let cls := es.foldl (fun c e => max c (e / 2 ^ 17 % 4)) 0
    let last := SMap.get (fun _ => 0) s.dev.lastMsg key
    let busy := SMap.get (fun _ => false) s.dev.inService key
    let masked := s.dev.on l (MSIX_CTRL.MASK.ix v)
    let wait : Prop := cls ≤ 1 ∧ last ≠ 0 ∧ s.dev.tb h < last - 1 + 100 * s.dev.g (hLoc h .evc) (EVC_VMOD.MOD.ix v)
    let pba (t : State) : Bool := bit (t.dev.rd l (0xBF0 + 4 * (v.val / 32))).toNat (v.val % 32)
    let base (t : State) (keys : List Nat) : Prop := t.ref = s.ref ∧ t.mem = s.mem ∧ t.pending = s.pending ∧ s.dev.onlyRegs keys t.dev ∧
      t.dev.lines = s.dev.lines ∧ t.dev.kip = s.dev.kip ∧ ∀ j, j ≠ key → SMap.get (fun _ => false) t.dev.inService j = SMap.get (fun _ => false) s.dev.inService j
    let sent (t : State) : Prop := SMap.get (fun _ => false) t.dev.inService key = true ∧ t.dev.msix = s.dev.msix ++
      [⟨h, v, s.dev.g l (MSIX_ADDR_LO.ADDR.ix v) + s.dev.g l (MSIX_ADDR_HI.ADDR.ix v) * 2 ^ 32, s.dev.g l (MSIX_DATA.DATA.ix v)⟩]
    let silent (t : State) (b : Bool) : Prop := SMap.get (fun _ => false) t.dev.inService key = b ∧ t.dev.msix = s.dev.msix
    ((es = [] ∨ busy = true ∨ (masked = false ∧ wait)) → exec (.msixModerationExpire h v) s = .next s) ∧
    (es ≠ [] → busy = false → masked = true → ∃ t, exec (.msixModerationExpire h v) s = .next t ∧ base t [] ∧ silent t false ∧ pba t = true) ∧
    (es ≠ [] → busy = false → masked = false → ¬ wait → ∃ t, exec (.msixModerationExpire h v) s = .next t ∧ base t [] ∧ sent t) ∧
    (s.sole h → (es = [] ∨ (masked = false ∧ wait)) → ∃ t, exec (.eoi h v) s = .next t ∧ base t [hLoc h .evc + 0x03C] ∧ silent t false) ∧
    (s.sole h → es ≠ [] → masked = true → ∃ t, exec (.eoi h v) s = .next t ∧ base t [hLoc h .evc + 0x03C] ∧ silent t false ∧ pba t = true) ∧
    (s.sole h → es ≠ [] → masked = false → ¬ wait → ∃ t, exec (.eoi h v) s = .next t ∧ base t [hLoc h .evc + 0x03C] ∧ sent t) ∧
    (pba s = false ∨ es = [] ∨ busy = true ∨ wait → ∃ t, exec (.msixUnmask h v) s = .next t ∧ base t [l + 0x03C, l + 0xC0C + 16 * v.val] ∧ silent t busy ∧
      t.dev.on l (MSIX_CTRL.MASK.ix v) = false ∧ pba t = false) ∧
    (pba s = true → es ≠ [] → busy = false → ¬ wait → ∃ t, exec (.msixUnmask h v) s = .next t ∧ base t [l + 0x03C, l + 0xC0C + 16 * v.val] ∧ sent t ∧
      t.dev.on l (MSIX_CTRL.MASK.ix v) = false ∧ pba t = false)

/-- R429, R430, R432, R435, R437: a table write stores the entry of the source it addresses, without CEN where it names no core or line of the region, and
delivers an asserted source to its core; an inbound read without a response counts; the link coming up shows its speed and width, and
going down returns the HIF page to its reset values and closes the endpoint's session. -/
def Obligations.TablesLinksAndTimeouts : Prop :=
  ∀ (s : State),
    (∀ (r : Fin 3) (v : Word), (if r.val = 2 then s.dev.svcUp = true else s.ref.hs (Half.ofRegion r) ≠ .off) → s.soleR r →
      let l := rLoc r .evc
      let n := v.toNat
      let src := s.dev.g l EVC_TW_IDX.SRC
      let core := n / 2 ^ 8 % 32
      let line := n / 2 ^ 13 % 16
      let bad : Bool := (if r = 2 then 8 else 20) ≤ core || 14 ≤ line
      let e := n % 2 ^ 19 - (if bad && bit n 7 then 2 ^ 7 else 0)
      ∃ t, exec (.evcTableWrite r v) s = .next t ∧ t.ref = s.ref ∧ t.mem = s.mem ∧
        { t.dev.quiet with evcTab := [] } = { s.dev.quiet with evcTab := [] } ∧ s.dev.regsKept [l + 0x03C, l + 0x800] t.dev ∧
        t.dev.evcEntry r src = e ∧ (∀ j, j ≠ r.val * 512 + src → SMap.get (fun _ => 0) t.dev.evcTab j = SMap.get (fun _ => 0) s.dev.evcTab j) ∧
        (bad = true → s.dev.clocked l = true → t.dev.raised l 2) ∧
        t.dev.g l EVC_TW_IDX.SRC = (if s.dev.on l EVC_TW_IDX.AUTOINC then (src + 1) % 512 else src) ∧
        (bad = false → s.dev.asserted src = true → bit n 7 = true → s.dev.coreLineHigh r core line = false → bit (t.dev.kipOf r core) line = true)) ∧
    (∀ h : Half, s.ref.hs h ≠ .off →
      let l := hLoc h .hif
      (∃ t, exec (.hostReadTimeout h) s = .next t ∧ t.ref = s.ref ∧ t.mem = s.mem ∧ s.dev.onlyRegs [l + 0x810] t.dev ∧
        t.dev.g l HIF_ERR.CA = min (s.dev.g l HIF_ERR.CA + 1) 255 ∧ (s.awake h l → t.dev.raised l 2)) ∧
      (s.ref.sby h = false → ∀ speed width : Fin 5, ∃ t, exec (.hostLinkUp h speed width) s = .next t ∧ t.ref = s.ref ∧ t.mem = s.mem ∧ s.dev.onlyRegs [l + 0x80C] t.dev ∧
        t.dev.on l HIF_STAT.LINKUP = true ∧ t.dev.g l HIF_STAT.SPEED = speed.val ∧ t.dev.g l HIF_STAT.WIDTH = width.val ∧ (s.awake h l → t.dev.raised l 0)) ∧
      (∃ t, exec (.hostLinkDown h) s = .next t ∧ t.ref = (if s.ref.session = some h then { s.ref with session := none } else s.ref) ∧ t.mem = s.mem ∧
        { t.dev.quiet with shadow := [] } = { s.dev.quiet with shadow := [] } ∧
        (∀ k, evReg k = false → SMap.get regReset t.dev.regs k = if k / 0x100000 = l / 0x100000 then regReset k else SMap.get regReset s.dev.regs k) ∧
        (s.ref.live h = true → t.dev.raised l 1)))

/-! ### Chapter 21: timers -/

/-- R440 to R446: an event of the region clock or the audio master arrives at any time, one of another source where it is on its way. It ticks a
running timer once in DIV: the count wraps at PERIOD, which sets out to the timers that count the wraps, TICKS runs on, and the compare
matches, in add-interval mode moving on by INTERVAL; CLR zeroes the three and moves a passed compare past the present; captures queue up to four and pop oldest first; RUN alone
writes RUN. -/
def Obligations.TimersTickMatchAndCapture : Prop :=
  ∀ (s : State) (r : Fin 3) (i : Fin 16), s.regionOn r = true →
    let d := s.dev
    let l := tmrL r i
    let x := d.timer r i
    let g (f : Fld) : Nat := d.g l f
    let only (t : State) (keys : List Nat) (y : Timer) : Prop := t.ref = s.ref ∧ t.mem = s.mem ∧ t.pending = s.pending ∧
      { t.dev.quiet with timers := [], readData := 0, freeCount := 0 } = { d.quiet with timers := [], readData := 0, freeCount := 0 } ∧ d.regsKept keys t.dev ∧
      t.dev.timer r i = y ∧ ∀ j, j ≠ r.val * 16 + i.val → SMap.get (fun _ => ({} : Timer)) t.dev.timers j = SMap.get (fun _ => {}) d.timers j
    let clock : Bool := decide (g TMR_CFG.SRC = 0) || decide (g TMR_CFG.SRC = 2)
    let arrives : Prop := clock = true ∨ x.evs ≠ 0
    let x0 : Timer := if clock then x else { x with evs := x.evs - 1 }
    let follows (k : Nat) : Prop := d.g (tmrL r k) TMR_CFG.SRC = 5 ∧ d.g (tmrL r k) TMR_CFG.SEL % 16 = i.val
    let wraps : Prop := g TMR_PERIOD.PERIOD ≤ g TMR_COUNT.COUNT
    let hit : Prop := d.on l TMR_CFG.CMPEN = true ∧ (if d.on l TMR_CFG.MODE then (g TMR_TICKS.TICKS + 1) % 2 ^ 32 = g TMR_NEXT.NC
      else (if g TMR_PERIOD.PERIOD ≤ g TMR_COUNT.COUNT then 0 else (g TMR_COUNT.COUNT + 1) % 2 ^ 32) = g TMR_CMP.CMP)
    let ticked (t : State) : Prop := t.dev.timer r i = { x0 with acc := x.acc + 0x10000 - g TMR_DIV.DIV } ∧ t.dev.g l TMR_TICKS.TICKS = (g TMR_TICKS.TICKS + 1) % 2 ^ 32 ∧
      (wraps → t.dev.g l TMR_COUNT.COUNT = 0 ∧ t.dev.raised l 0) ∧ (¬ wraps → t.dev.g l TMR_COUNT.COUNT = (g TMR_COUNT.COUNT + 1) % 2 ^ 32) ∧
      (g TMR_PERIOD.PERIOD < g TMR_COUNT.COUNT → t.dev.on l TMR_FLAGS.PERIOD_LATE = true ∧ t.dev.raised l 5)
    (d.clocked l = true →
      (¬ arrives → exec (.timerSourceEvent r i) s = .next s) ∧
      (arrives → d.on l TMR_CTL.RUN = false → ∃ t, exec (.timerSourceEvent r i) s = .next t ∧ only t [] x0) ∧
      (arrives → d.on l TMR_CTL.RUN = true → x.acc + 0x10000 < g TMR_DIV.DIV → ∃ t, exec (.timerSourceEvent r i) s = .next t ∧
        only t [] { x0 with acc := x.acc + 0x10000 }) ∧
      (arrives → d.on l TMR_CTL.RUN = true → g TMR_DIV.DIV ≤ x.acc + 0x10000 → wraps → ∀ k : Fin 16, k ≠ i → follows k → d.on (tmrL r k) TMR_CTL.RUN = true →
        d.clocked (tmrL r k) = true → ∃ t, exec (.timerSourceEvent r i) s = .next t ∧ (t.dev.timer r k).evs = (d.timer r k).evs + 1) ∧
      (arrives → d.on l TMR_CTL.RUN = true → g TMR_DIV.DIV ≤ x.acc + 0x10000 → (wraps → ∀ k, k < 16 → ¬ follows k) →
        (¬ hit → ∃ t, exec (.timerSourceEvent r i) s = .next t ∧ ticked t ∧
          only t [l + 0x804, l + 0x808, l + 0x81C] { x0 with acc := x.acc + 0x10000 - g TMR_DIV.DIV }) ∧
        (hit → r = 2 → ∃ t, exec (.timerSourceEvent r i) s = .next t ∧ ticked t ∧ t.dev.raised l 1 ∧
          only t [l + 0x804, l + 0x808, l + 0x80C, l + 0x81C] { x0 with acc := x.acc + 0x10000 - g TMR_DIV.DIV } ∧
          t.dev.g l TMR_NEXT.NC = (if d.on l TMR_CFG.MODE then (g TMR_NEXT.NC + g TMR_INTERVAL.INTERVAL) % 2 ^ 32 else g TMR_NEXT.NC)) ∧
        (hit → r ≠ 2 → ∃ t, exec (.timerSourceEvent r i) s = .next t ∧ t.ref = s.ref ∧ t.mem = s.mem ∧ ticked t ∧ t.dev.raised l 1)) ∧
      (x.edges = 0 → exec (.timerCaptureEdge r i) s = .next s) ∧
      (x.edges ≠ 0 → x.caps.length < 4 → ∃ t, exec (.timerCaptureEdge r i) s = .next t ∧
        only t [l + 0x814] { x with edges := x.edges - 1, caps := x.caps ++ [g TMR_COUNT.COUNT] } ∧
        t.dev.g l TMR_CAPST.LEVEL = x.caps.length + 1 ∧ t.dev.raised l 3) ∧
      (x.edges ≠ 0 → 4 ≤ x.caps.length → ∃ t, exec (.timerCaptureEdge r i) s = .next t ∧ only t [l + 0x818] { x with edges := x.edges - 1 } ∧
        t.dev.g l TMR_CNT.CAPLOST = min (g TMR_CNT.CAPLOST + 1) 65535 ∧ t.dev.raised l 4)) ∧
    (s.soleR r → ∀ run : Bool,
      (∃ t, exec (.timerRun r i run) s = .next t ∧ only t [l + 0x03C, l + 0x800] x ∧ t.dev.on l TMR_CTL.RUN = run) ∧
      (x.caps.length < 4 → ∃ t, exec (.capnow r i run) s = .next t ∧ only t [l + 0x03C, l + 0x800, l + 0x814] { x with caps := x.caps ++ [g TMR_COUNT.COUNT] } ∧
        t.dev.on l TMR_CTL.RUN = run ∧ (d.clocked l = true → t.dev.raised l 3)) ∧
      (4 ≤ x.caps.length → ∃ t, exec (.capnow r i run) s = .next t ∧ only t [l + 0x03C, l + 0x800, l + 0x818] x ∧ t.dev.on l TMR_CTL.RUN = run ∧
        (d.clocked l = true → t.dev.raised l 4)) ∧
      (d.on l TMR_CFG.MODE = false → ∃ t, exec (.timerClr r i run) s = .next t ∧ only t [l + 0x03C, l + 0x800, l + 0x804, l + 0x808] { x with acc := 0 } ∧
        t.dev.on l TMR_CTL.RUN = run ∧ t.dev.g l TMR_COUNT.COUNT = 0 ∧ t.dev.g l TMR_TICKS.TICKS = 0) ∧
      (d.on l TMR_CFG.MODE = true → g TMR_INTERVAL.INTERVAL ≠ 0 → ∃ t k, exec (.timerClr r i run) s = .next t ∧
        only t [l + 0x03C, l + 0x800, l + 0x804, l + 0x808, l + 0x80C, l + 0x818] { x with acc := 0 } ∧
        t.dev.on l TMR_CTL.RUN = run ∧ t.dev.g l TMR_COUNT.COUNT = 0 ∧ t.dev.g l TMR_TICKS.TICKS = 0 ∧
        t.dev.g l TMR_NEXT.NC = (g TMR_NEXT.NC + k * g TMR_INTERVAL.INTERVAL) % 2 ^ 32 ∧ t.dev.g l TMR_CNT.MISSED = min (g TMR_CNT.MISSED + k) 65535 ∧
        (0 < sgn 32 (g TMR_NEXT.NC) → k = 0) ∧
        (sgn 32 (g TMR_NEXT.NC) ≤ 0 → 0 < sgn 32 (g TMR_NEXT.NC) + (k * g TMR_INTERVAL.INTERVAL : Nat) ∧
          sgn 32 (g TMR_NEXT.NC) + (k * g TMR_INTERVAL.INTERVAL : Nat) ≤ g TMR_INTERVAL.INTERVAL ∧ (d.clocked l = true → t.dev.raised l 2)))) ∧
    (∃ t, exec (.timerCapPop r i) s = .next t ∧ only t [l + 0x814] { x with caps := x.caps.drop 1 } ∧ t.dev.readData = BitVec.ofNat 32 (x.caps.headD 0) ∧
      (x.caps.length ≤ 4 → t.dev.g l TMR_CAPST.LEVEL = x.caps.length - 1))

/-! ### Chapter 22: general pins -/

/-- R449, R453, R455, R456: an edge sets the synchronised level of its pin, and the timers whose inputs select that edge are sent it; a matcher's filtered result follows its pins, and counts and raises its event by MODE;
a bank whose detected level changes turns its pads off; KPIN_XOR toggles the output bits of its core. -/
def Obligations.PinsMatchersAndBanks : Prop :=
  ∀ (s : State),
    (s.served (gpxL 0) →
      let l := gpxL 0
      (∀ (n : BitVec 8) (level : Bool), ∃ t, exec (.pinEdge n level) s = .next t ∧ t.ref = s.ref ∧ t.mem = s.mem ∧ t.dev = { s.dev with pads := t.dev.pads, timers := t.dev.timers } ∧
        (∀ i, t.dev.padIn i = if i = n.toNat then level else s.dev.padIn i) ∧
        ∀ (r : Fin 3) (k : Fin 16),
          let was := s.dev.funcIn (144 + 16 * r.val + k.val)
          let sel : Bool := (t.dev.funcIn (144 + 16 * r.val + k.val) != was) && bit (s.dev.g (tmrL r k) TMR_CFG.EDGE) (b2n was) && s.dev.clocked (tmrL r k)
          (t.dev.timer r k).evs = (s.dev.timer r k).evs + b2n (sel && s.dev.on (tmrL r k) TMR_CTL.RUN && decide (s.dev.g (tmrL r k) TMR_CFG.SRC = 4)) ∧
          (t.dev.timer r k).edges = (s.dev.timer r k).edges + b2n (sel && decide (s.dev.g (tmrL r k) TMR_CFG.CAPSRC = 1))) ∧
      (∀ m : Fin 8,
        let was := bit (s.dev.g l GPX_PMST.MATCH) m
        let now := s.dev.pmResult m
        let mode := s.dev.g l (GPX_PM_CFG.MODE.ix m)
        (now = was → exec (.pmMatch m) s = .next s) ∧
        (now ≠ was → ∃ t, exec (.pmMatch m) s = .next t ∧ t.ref = s.ref ∧ t.mem = s.mem ∧ s.dev.onlyRegs [l + 0x804, l + 0x840 + 4 * m.val] t.dev ∧
          (∀ j, j < 8 → bit (t.dev.g l GPX_PMST.MATCH) j = if j = m.val then now else bit (s.dev.g l GPX_PMST.MATCH) j) ∧
          (mode = 2 ∨ (mode = 0 ∧ now = true) ∨ (mode = 1 ∧ now = false) → t.dev.raised l (8 + m) ∧
            t.dev.g l (GPX_PMCNT.COUNT.ix m) = min (s.dev.g l (GPX_PMCNT.COUNT.ix m) + 1) (2 ^ 32 - 1)) ∧
          ((mode = 0 ∧ now = false) ∨ (mode = 1 ∧ now = true) ∨ mode = 3 → s.dev.onlyRegs [l + 0x804] t.dev))) ∧
      (∀ (k : Fin 8) (v18 : Bool),
        let was := bit (s.dev.g l GPX_BSTAT.DET18) k
        (was = v18 → exec (.bankV k v18) s = .next s) ∧
        (was ≠ v18 → ∃ t, exec (.bankV k v18) s = .next t ∧ t.ref = s.ref ∧ t.mem = s.mem ∧ s.dev.regsKept [l + 0x800] t.dev ∧
          { t.dev.quiet with bankOff := 0, timers := [] } = { s.dev.quiet with bankOff := 0, timers := [] } ∧ t.dev.bankOff = s.dev.bankOff ||| 2 ^ k.val ∧ t.dev.raised l 1 ∧
          (∀ j, j < 8 → bit (t.dev.g l GPX_BSTAT.DET18) j = if j = k.val then v18 else bit (s.dev.g l GPX_BSTAT.DET18) j) ∧
          ∀ n, n / 32 = k.val → pinDrive t n = none))) ∧
    (∀ (c : Fin 8) (v : BitVec 16), s.coreOn 2 c = true → ∃ t, exec (.kpinXor c v) s = .next t ∧ s.coreOnly t 2 c [] ∧ t.mem = s.mem ∧
      (t.dev.kx 2 c).cw 0x50 = (s.dev.kx 2 c).cw 0x50 ^^^ v.toNat ∧ (∀ w, w ≠ 0x50 → (t.dev.kx 2 c).cw w = (s.dev.kx 2 c).cw w) ∧
      { t.dev.kx 2 c with ctl := [] } = { s.dev.kx 2 c with ctl := [] })

/-! ### Chapter 23: flash, OTP, attestation -/

/-- R468, R470, R471, Table 23.8: a flash command begins, or is refused with ACTIVE, STRAP or BROWNOUT and changes no flash byte; READ fills the
buffer, PROGRAM puts the buffer over erased bytes, ERASE clears its block, and none touches another byte; erase and program wait during a
warning; a customer key hash is programmed once and revoked under D5; the report carries the nonce of its GO. -/
def Obligations.FlashKeysAndAttestation : Prop :=
  ∀ (s : State), s.dev.svcUp = true →
    let d := s.dev
    let dev := d.g cfgL CFG_FLADDR.DEV
    let a := d.g cfgL CFG_FLADDR.ADDR
    let warn := d.g pwrL PWR_STAT.WARN
    let used : Prop := d.g cfgL CFG_USE.SVC = dev ∨ d.g cfgL CFG_USE.HA = dev ∨ d.g cfgL CFG_USE.HB = dev
    let only (t : State) (keys : List Nat) : Prop := t.ref = s.ref ∧ t.mem = s.mem ∧ t.pending = s.pending ∧
      { t.dev.quiet with flOp := none, otpOp := none, flash := [], otp := [], otpRev := 0, atNonce := 0 } =
        { d.quiet with flOp := none, otpOp := none, flash := [], otp := [], otpRev := 0, atNonce := 0 } ∧ d.regsKept keys t.dev
    let keys0 (t : State) : Prop := t.dev.otp = d.otp ∧ t.dev.otpRev = d.otpRev ∧ t.dev.otpOp = d.otpOp ∧ t.dev.atNonce = d.atNonce
    let refused (t : State) (code : Nat) : Prop := only t [cfgL + 0x03C, cfgL + 0x81C] ∧ keys0 t ∧ t.dev.flash = d.flash ∧ t.dev.flOp = none ∧
      t.dev.g cfgL CFG_FLSTAT.RESULT = code ∧ (d.clocked cfgL = true → t.dev.raised cfgL 1)
    let begun (t : State) (op : Nat) : Prop := only t [cfgL + 0x03C, cfgL + 0x81C] ∧ keys0 t ∧ t.dev.flash = d.flash ∧ t.dev.on cfgL CFG_FLSTAT.BUSY = true ∧
      t.dev.flOp = some ⟨op, dev, a, if op = 2 then d.flBuf else []⟩
    (∀ m : Master,
      (d.flOp ≠ none → ∀ i, (i = .flashRead m ∨ i = .flashProgram m ∨ i = .flashErase m) → ∃ t, exec i s = .next t ∧ only t [cfgL + 0x03C] ∧ keys0 t ∧ t.dev.flash = d.flash ∧
        t.dev.flOp = d.flOp) ∧
      (d.flOp = none →
        (used → 0x1000 < a + 256 → ∃ t, exec (.flashProgram m) s = .next t ∧ refused t 1) ∧
        (used → ∃ t, exec (.flashErase m) s = .next t ∧ refused t 1) ∧
        (¬ used → a < 0x1000 → s.hasD5 m = false → (∃ t, exec (.flashProgram m) s = .next t ∧ refused t 2) ∧ ∃ t, exec (.flashErase m) s = .next t ∧ refused t 2) ∧
        (¬ used → (0x1000 ≤ a ∨ s.hasD5 m = true) → warn ≠ 0 →
          (∃ t, exec (.flashProgram m) s = .next t ∧ refused t 3) ∧ ∃ t, exec (.flashErase m) s = .next t ∧ refused t 3) ∧
        (a % 256 = 0 → a + 256 ≤ d.flashSize dev → ∃ t, exec (.flashRead m) s = .next t ∧ begun t 1) ∧
        (¬ used → (0x1000 ≤ a ∨ s.hasD5 m = true) → warn = 0 →
          (a % 256 = 0 → a + 256 ≤ d.flashSize dev → ∃ t, exec (.flashProgram m) s = .next t ∧ begun t 2) ∧
          (a % 65536 = 0 → a + 65536 ≤ d.flashSize dev → ∃ t, exec (.flashErase m) s = .next t ∧ begun t 3)))) ∧
    (d.flOp = none → exec .fldone s = .next s) ∧
    (∀ x, d.flOp = some x →
      let base := x.dev * 2 ^ 28 + x.addr
      let byte (t : State) (k : Nat) : Byte := SMap.get flashFill t.dev.flash k
      let done (t : State) (keys : List Nat) : Prop := only t ([cfgL + 0x81C] ++ keys) ∧ keys0 t ∧ t.dev.flOp = none ∧ t.dev.on cfgL CFG_FLSTAT.BUSY = false ∧
        t.dev.g cfgL CFG_FLSTAT.RESULT = 0 ∧ (d.clocked cfgL = true → t.dev.raised cfgL 0)
      (x.op ≠ 1 → warn ≠ 0 → exec .fldone s = .next s) ∧
      (x.op = 1 → ∃ t, exec .fldone s = .next t ∧ done t ((List.range 64).map (fun i => cfgL + 0x900 + 4 * i)) ∧ t.dev.flash = d.flash ∧
        ∀ i : Fin 64, t.dev.g cfgL (CFG_FLBUF.DATA.ix i) = d.flashN x.dev (x.addr + 4 * i) 4) ∧
      (x.op = 2 → warn = 0 → x.data.length = 256 → ∃ t, exec .fldone s = .next t ∧ done t [] ∧ (∀ k, (k < base ∨ base + 256 ≤ k) → byte t k = byte s k) ∧
        ∀ i, i < 256 → byte s (base + i) = 0xFF → byte t (base + i) = x.data.getD i 0) ∧
      (x.op = 3 → warn = 0 → ∃ t, exec .fldone s = .next t ∧ done t [] ∧ ∀ k, byte t k = if base ≤ k ∧ k < base + 65536 then 0xFF else byte s k)) ∧
    (∀ (m : Master) (slot : BitVec 2),
      let n := slot.toNat
      let no (t : State) (code : Nat) : Prop := only t [secL + 0x03C, secL + 0x814] ∧ t.dev.flash = d.flash ∧ t.dev.otp = d.otp ∧ t.dev.otpRev = d.otpRev ∧ t.dev.otpOp = none ∧
        t.dev.g secL SEC_STAT.RESULT = code ∧ (d.clocked secL = true → t.dev.raised secL 2)
      let yes (t : State) (op : Nat) : Prop := only t [secL + 0x03C, secL + 0x814] ∧ t.dev.flash = d.flash ∧ t.dev.otp = d.otp ∧ t.dev.otpRev = d.otpRev ∧
        t.dev.on secL SEC_STAT.OTPBUSY = true ∧ t.dev.otpOp = some ⟨op, n, d.regBig secL SEC_OTPBUF.DATA.off 48⟩
      d.otpOp = none →
      (warn ≠ 0 → ∃ t, exec (.otpProgram m slot) s = .next t ∧ no t 3) ∧
      (warn = 0 → s.hasD5 m = false → ∃ t, exec (.otpProgram m slot) s = .next t ∧ no t 6) ∧ (s.hasD5 m = false → ∃ t, exec (.otpRevoke m slot) s = .next t ∧ no t 6) ∧
      (n = 1 ∨ n = 2 → s.hasD5 m = true → (∃ t, exec (.otpRevoke m slot) s = .next t ∧ yes t 2) ∧
        (warn = 0 → (d.keyHash n).isSome = true → ∃ t, exec (.otpProgram m slot) s = .next t ∧ no t 7) ∧
        (warn = 0 → d.keyHash n = none → ∃ t, exec (.otpProgram m slot) s = .next t ∧ yes t 1))) ∧
    (d.otpOp = none → exec .otpdone s = .next s) ∧
    (∀ x, d.otpOp = some x → ∃ t, exec .otpdone s = .next t ∧ only t [secL + 0x814] ∧ t.dev.flash = d.flash ∧ t.dev.otpOp = none ∧ t.dev.on secL SEC_STAT.OTPBUSY = false ∧
      t.dev.g secL SEC_STAT.RESULT = 0 ∧ (d.clocked secL = true → t.dev.raised secL 1) ∧
      (x.op = 1 → t.dev.otpRev = d.otpRev ∧ ∀ k, SMap.get (fun _ => none) t.dev.otp k = if k = x.slot then some x.hash else SMap.get (fun _ => none) d.otp k) ∧
      (x.op ≠ 1 → t.dev.otp = d.otp ∧ t.dev.otpRev = d.otpRev ||| 2 ^ x.slot)) ∧
    (d.on secL SEC_STAT.ATBUSY = false → exec .atdone s = .next s ∧ ∃ t, exec .attestGo s = .next t ∧ only t [secL + 0x03C, secL + 0x814] ∧
      t.dev.on secL SEC_STAT.ATBUSY = true ∧ t.dev.atNonce = d.regBig secL SEC_NONCE.DATA.off 48 ∧ t.dev.otpOp = d.otpOp ∧ t.dev.flOp = d.flOp) ∧
    (d.on secL SEC_STAT.ATBUSY = true → (∃ t, exec .attestGo s = .next t ∧ only t [secL + 0x03C] ∧ t.dev.atNonce = d.atNonce) ∧
      ∃ t, exec .atdone s = .next t ∧ only t ([secL + 0x814] ++ (List.range 96).map (fun i => secL + 0xA00 + 4 * i)) ∧ t.dev.atNonce = d.atNonce ∧
        t.dev.on secL SEC_STAT.ATBUSY = false ∧ (d.clocked secL = true → t.dev.raised secL 0) ∧ t.dev.g secL (SEC_REPORT.REPORT.ix 0) = 0x00B00001 ∧
        ∀ i, i < 12 → t.dev.rd secL (SEC_REPORT.REPORT.ix (12 + i)).off = packWord (bigBytes d.atNonce 48) i)

/-! ### Chapter 24: supplies, resets, low power -/

/-- R473, R474, R481, R483, R485: a sample below the warning level warns and marks every page of the region; one above it by more than 20 mV clears the
warning, and the firmware commands that the half's NVH held go out; PWR_CLR clears the marks; any sample of a temperature shows in PWR_TEMP, above
105 °C it raises HOT, and the service region's sets and clears THROT; a request with a wrong KEY is counted and dropped; DIM and UNDIM are taken up
when they can be. -/
def Obligations.WarningsThrottlingAndDim : Prop :=
  ∀ (s : State),
    let d := s.dev
    let warn := d.g pwrL PWR_STAT.WARN
    let only (t : State) (keys : List Nat) : Prop := t.mem = s.mem ∧ t.pending = s.pending ∧ d.onlyRegs keys t.dev
    let sup (rg : Nat) : Bool := if rg = 0 then s.ref.supA else if rg = 1 then s.ref.supB else s.ref.supS
    let held (rg : Nat) : List Nat := if rg = 2 then [] else [nvhL (Half.ofRegion rg) + NVH_STAT.BROWNHOLD.off]
    let isHot (c : BitVec 8) (t : State) : Prop := 105 < c.toInt → d.clocked pwrL = true → t.dev.raised pwrL 4
    let throttles (c : BitVec 8) (t : State) : Prop :=
      (t.dev.on pwrL PWR_STAT.THROT = if (d.g pwrL PWR_THROT.ON : Int) ≤ c.toInt then true
        else if c.toInt < (d.g pwrL PWR_THROT.ON : Int) - d.g pwrL PWR_THROT.HYST then false else d.on pwrL PWR_STAT.THROT) ∧
      ((d.g pwrL PWR_THROT.ON : Int) ≤ c.toInt → d.on pwrL PWR_STAT.THROT = false → d.clocked pwrL = true → t.dev.raised pwrL 3)
    let seen (rg : Nat) : List Nat := (pagesOf rg).map (fun p => locOf p + 0x008)
    (∀ (rg : Fin 3) (mv : BitVec 12) (elapsed : Nat) (tr : Train),
      let vmon := pwrL + 0x804 + 4 * rg.val
      (sup rg = true → mv.toNat < d.warnLevel rg → bit warn rg = false → ∃ t, exec (.boWarn rg mv) s = .next t ∧ t.ref = s.ref ∧
        only t ([vmon, pwrL + 0x800, pwrL + 0x848] ++ seen rg) ∧ t.dev.g pwrL (PWR_VMON.MV.ix rg) = mv.toNat ∧
        (∀ j, j < 3 → bit (t.dev.g pwrL PWR_STAT.WARN) j = (bit warn j || j == rg.val)) ∧ (∀ p ∈ pagesOf rg, t.dev.on (locOf p) PG_STAT.BROWNOUT_SEEN = true) ∧
        t.dev.g pwrL PWR_CNT.WARNS = min (d.g pwrL PWR_CNT.WARNS + 1) 65535 ∧ (d.clocked pwrL = true → t.dev.raised pwrL 0)) ∧
      ((sup rg = false ∨ d.warnLevel rg ≤ mv.toNat ∨ bit warn rg = true) → ∃ t, exec (.boWarn rg mv) s = .next t ∧ t.ref = s.ref ∧ only t [vmon] ∧
        t.dev.g pwrL (PWR_VMON.MV.ix rg) = mv.toNat) ∧
      (mv.toNat ≤ d.warnLevel rg + 20 → ∃ t, exec (.boClear rg mv elapsed tr) s = .next t ∧ t.ref = s.ref ∧ only t [vmon]) ∧
      (d.warnLevel rg + 20 < mv.toNat → sup rg = true → (if rg = 2 then d.svcUp = true else s.ref.hs (Half.ofRegion rg) ≠ .off) →
        ∃ t, exec (.boClear rg mv elapsed tr) s = .next t ∧ t.ref = s.ref ∧ t.mem = s.mem ∧ t.pending = s.pending ∧
          { t.dev.quiet with nvhs := [] } = { d.quiet with nvhs := [] } ∧ d.regsKept ([vmon, pwrL + 0x800] ++ held rg) t.dev ∧
          (rg = 2 ∨ bit warn rg = false → d.onlyRegs [vmon, pwrL + 0x800] t.dev) ∧
          (∀ h : Half, h.n ≠ rg.val → t.dev.nvh h = d.nvh h) ∧
          (∀ h : Half, h.n = rg.val → bit warn rg = true → t.dev.on (nvhL h) NVH_STAT.BROWNHOLD = false ∧
            { t.dev.nvh h with tails := [] } = { d.nvh h with tails := [], held := [] } ∧
            ∀ q, q < 6 → SMap.get (fun _ => 0) (t.dev.nvh h).tails q = (SMap.get (fun _ => 0) (d.nvh h).tails q + SMap.get (fun _ => 0) (d.nvh h).held q) % 256) ∧
          (∀ j, j < 3 → bit (t.dev.g pwrL PWR_STAT.WARN) j = (bit warn j && j != rg.val)) ∧ (bit warn rg = true → d.clocked pwrL = true → t.dev.raised pwrL 1)) ∧
      (∀ c : BitVec 8, d.svcUp = true →
        ∃ t, exec (.hot rg c) s = .next t ∧ t.ref = s.ref ∧ only t ([pwrL + 0x814 + 4 * rg.val] ++ if rg = 2 then [pwrL + 0x800] else []) ∧
          t.dev.g pwrL (PWR_TEMP.TEMP.ix rg) = c.toNat ∧ isHot c t ∧ (rg = 2 → throttles c t))) ∧
    (∀ c : BitVec 8, d.svcUp = true →
      ∀ i, i = .throttle c ∨ i = .throttleClear c → ∃ t, exec i s = .next t ∧ t.ref = s.ref ∧ only t [pwrL + 0x800, pwrL + 0x81C] ∧
        t.dev.g pwrL (PWR_TEMP.TEMP.ix 2) = c.toNat ∧ isHot c t ∧ throttles c t) ∧
    (∀ (m : Master) (mask : BitVec 3), d.svcUp = true → s.sends m = true → d.domainOf s.ref m = 3 ∨ d.domainOf s.ref m = 5 →
      bit (d.g pwrL PG_LOCK.WRITERS) (d.domainOf s.ref m) = true → ∃ t, exec (.pwrClr m mask) s = .next t ∧ t.ref = s.ref ∧
        only t ([pwrL + 0x03C] ++ seen 0 ++ seen 1 ++ seen 2) ∧
        ∀ rg, rg < 3 → ∀ p ∈ pagesOf rg, t.dev.on (locOf p) PG_STAT.BROWNOUT_SEEN = (d.on (locOf p) PG_STAT.BROWNOUT_SEEN && !bit mask.toNat rg)) ∧
    (∀ (m : Master) (key : BitVec 16) (h : Half) (e : Nat) (tr : Train) (i : Instr), key ≠ 0xA55A → d.svcUp = true → s.sends m = true → d.asks = [] →
      bit (d.g pwrL PG_LOCK.WRITERS) (d.domainOf s.ref m) = true →
      (i = .warm (some (m, key)) ∨ i = .svcrst (some (m, key)) ∨ i = .hstby h (some (m, key)) ∨ i = .wake h e tr (some (m, key)) ∨ i = .dim (some (m, key)) ∨
        i = .undim (some (m, key))) →
      ∃ t, exec i s = .next t ∧ t.ref = s.ref ∧ only t [pwrL + 0x03C, pwrL + 0x848] ∧ t.dev.g pwrL PWR_CNT.REJ = min (d.g pwrL PWR_CNT.REJ + 1) 65535 ∧
        (d.clocked pwrL = true → t.dev.raised pwrL 5)) ∧
    (d.asks.contains 6 = true → d.on pwrL PWR_STAT.DIM = false → ∃ t, exec (.dim none) s = .next t ∧ t.ref = s.ref ∧ t.mem = s.mem ∧ t.dev.on pwrL PWR_STAT.DIM = true ∧
      d.regsKept [pwrL + 0x800] t.dev ∧ t.dev.quiet = { d.quiet with asks := d.asks.erase 6 }) ∧
    (d.asks.contains 7 = true → d.on pwrL PWR_STAT.DIM = true → ∃ t, exec (.undim none) s = .next t ∧ t.ref = s.ref ∧ t.mem = s.mem ∧ t.dev.on pwrL PWR_STAT.DIM = false ∧
      d.regsKept [pwrL + 0x800] t.dev ∧ { t.dev.quiet with prisms := [], blt := none } = { d.quiet with prisms := [], blt := none, asks := d.asks.erase 7 } ∧
      (∀ c : Fin 2, t.dev.prism c = { d.prism c with invalid := true }) ∧ t.dev.blt = d.blt.map (fun b => { b with held := false }))

/-- R475 to R477, R480 to R482, R485: a fallen supply resets its own region alone, with its memory filled and the fault reported, and a fallen VDD_REF the whole part;
a recovered half is released into INIT; a chip warm reset begins by asserting both STOP_REQ lines and both fences; a service reset keeps
DRAM and the referee, and cuts a flash command in progress short; half standby and WAKE take and give back a half; without an eligible slot the part comes up in its factory defaults. -/
def Obligations.ResetsKeepToTheirRegions : Prop :=
  ∀ (s : State),
    let d := s.dev
    let inHalf (h : Half) (a : Nat) : Prop := (h.n * 2 ^ 35 ≤ a ∧ a < (h.n + 1) * 2 ^ 35) ∨ (0x1100000000 + h.n * 0x1000000 ≤ a ∧ a < 0x1101000000 + h.n * 0x1000000)
    -- the flash after a reset of the service region: as it was but for the range of an erase or program that the reset cuts short
    let cut (t : State) : Prop := t.dev.flOp = none ∧ ((∀ x, d.flOp = some x → x.op = 1) → t.dev.flash = d.flash) ∧
      ∀ k, (∀ x, d.flOp = some x → k < x.dev * 2 ^ 28 + x.addr ∨ x.dev * 2 ^ 28 + x.addr + 65536 ≤ k) → SMap.get flashFill t.dev.flash k = SMap.get flashFill d.flash k
    let inSvc (a : Nat) : Prop := 0x1102000000 ≤ a ∧ a < 0x1103880000
    (∀ (rg : Fin 4) (mv : BitVec 12), 720 < mv.toNat → ∃ t, exec (.boReset rg mv) s = .next t ∧ t.ref = s.ref ∧ t.mem = s.mem ∧
      d.onlyRegs [pwrL + 0x804 + 4 * rg.val] t.dev) ∧
    (∀ (h : Half) (mv : BitVec 12), mv.toNat ≤ 720 → s.ref.sup h = true → s.ref.hs h ≠ .off →
      ∃ t, exec (.boReset ⟨h.n, by cases h <;> decide⟩ mv) s = .next t ∧ t.ref.hs h = .off ∧ t.ref.sup h = false ∧ t.ref.epoch = s.ref.epoch ∧ t.ref.split = s.ref.split ∧
        t.dev.g pwrL (match h with | .A => PWR_LASTRST.A | .B => PWR_LASTRST.B) = 1 ∧
        (∃ x ∈ t.dev.reports, x.half = h ∧ x.code = 0x0C) ∧ t.dev.flash = d.flash ∧ t.dev.flOp = d.flOp ∧ t.dev.otp = d.otp ∧ t.dev.tb h.peer = d.tb h.peer ∧
        ∀ a, (inHalf h a → t.mem.byte a = 0) ∧ (¬ inHalf h a → t.mem.byte a = s.mem.byte a)) ∧
    (∀ mv : BitVec 12, mv.toNat ≤ 720 → ∃ t, exec (.boReset 3 mv) s = .next t ∧ t.ref = {} ∧ t.dev = d.cold ∧
      (∀ a, inHalf .A a ∨ inHalf .B a ∨ inSvc a → t.mem.byte a = 0) ∧ ∀ a, ¬ inHalf .A a → ¬ inHalf .B a → ¬ inSvc a → t.mem.byte a = s.mem.byte a) ∧
    (∀ (mv : BitVec 12), mv.toNat ≤ 720 → s.ref.supS = true → ∃ t, exec (.boReset 2 mv) s = .next t ∧ t.ref = { s.ref with supS := false } ∧ t.dev.svcUp = false ∧
      cut t ∧ t.dev.otp = d.otp ∧ ∀ a, (inSvc a → t.mem.byte a = 0) ∧ (¬ inSvc a → t.mem.byte a = s.mem.byte a)) ∧
    (∀ (h : Half) (mv : BitVec 12) (elapsed : Nat) (tr : Train), d.warnLevel h.n + 20 < mv.toNat → s.ref.hs h = .off → d.svcUp = true → s.ref.defaults = true →
      ∃ t, exec (.boClear ⟨h.n, by cases h <;> decide⟩ mv elapsed tr) s = .next t ∧ t.ref.hs h = .init ∧ t.ref.sup h = true ∧ t.ref.hs h.peer = s.ref.hs h.peer ∧
        t.ref.epoch = s.ref.epoch ∧ t.dev.tb h = (if s.ref.counts h.peer then d.tb h.peer else (match h with | .A => s.ref.recA | .B => s.ref.recB) + elapsed) % 2 ^ 64 ∧
        ∀ a, (inHalf h a → t.mem.byte a = 0) ∧ (¬ inHalf h a → t.mem.byte a = s.mem.byte a)) ∧
    (d.asks.contains 0 = true → s.ref.act = .idle → ∃ t, exec (.warm none) s = .next t ∧ t.ref.stopA = true ∧ t.ref.stopB = true ∧ t.ref.fence .A = true ∧
      t.ref.fence .B = true ∧ t.ref.act = .warm ∧ t.ref.authority = s.ref.authority ∧ t.mem = s.mem ∧ t.dev.asks = d.asks.erase 0) ∧
    (d.asks.contains 1 = true → ∃ t, exec (.svcrst none) s = .next t ∧ t.ref = s.ref ∧ ∀ a, a < 0x1102000000 → t.mem.byte a = s.mem.byte a) ∧
    (d.asks.contains 1 = true → d.svcUp = true → { d with flash := d.flashCut }.slots2 = [] → ∃ t, exec (.svcrst none) s = .next t ∧ t.ref = s.ref ∧ t.dev.svcLoading = true ∧
      t.dev.g pwrL PWR_LASTRST.S = 4 ∧ t.dev.g cfgL CFG_USE.SVC = 3 ∧ t.dev.tb .A = d.tb .A ∧ t.dev.tb .B = d.tb .B ∧ cut t ∧
      (∀ c, c < 8 → t.dev.kstate 2 c = 0) ∧ (∀ a, (inSvc a → t.mem.byte a = 0) ∧ (¬ inSvc a → t.mem.byte a = s.mem.byte a))) ∧
    (∀ h : Half,
      (d.asks.contains (2 + h.n) = true → RD.standbyOk (s.ref, d) h = true → bit (d.g pwrL PWR_STAT.HSTBY) h.n = false → ∃ t, exec (.hstby h none) s = .next t ∧
        t.ref = (s.ref.closeSess h).setSby h true ∧ t.mem = s.mem ∧ t.dev.asks = d.asks.erase (2 + h.n) ∧ bit (t.dev.g pwrL PWR_STAT.HSTBY) h.n = true ∧
        (∀ k : Fin 2, t.dev.on (hLoc h .mec k) MEC_STAT.SELFREF = true) ∧ (∀ i : Fin 16, t.dev.on (tmrL h.n i) TMR_CTL.RUN = false) ∧
        (∀ p : Fin 64, t.dev.pst h p = psDown) ∧ (∀ c : Fin 20, t.dev.krunning h.n c = false)) ∧
      (d.asks.contains (4 + h.n) = true → s.ref.sby h = true → bit (d.g pwrL PWR_STAT.HSTBY) h.n = true → ∀ elapsed tr, ∃ t,
        exec (.wake h elapsed tr none) s = .next t ∧ t.ref.sby h = false ∧ t.ref.hs h = .init ∧ t.ref.hs h.peer = s.ref.hs h.peer ∧ t.mem = s.mem ∧
        bit (t.dev.g pwrL PWR_STAT.HSTBY) h.n = false ∧ (∀ k : Fin 2, t.dev.on (hLoc h .mec k) MEC_STAT.SELFREF = false) ∧
        t.dev.tb h = (if s.ref.counts h.peer then d.tb h.peer else (match h with | .A => s.ref.recA | .B => s.ref.recB) + elapsed) % 2 ^ 64) ∧
      (s.ref.hs h ≠ .off → s.ref.sby h = false → ∃ t, exec (.pllLoss h) s = .next t ∧ t.ref = s.ref ∧ t.mem = s.mem ∧ t.dev.regs = d.regs ∧
        ∃ det, t.dev.reports = d.reports ++ [⟨h, 0x0D, 0, det, false, false⟩])) ∧
    (∀ (up : BitVec 3) (tr : Train), up.getLsbD 2 = false → ∃ t, exec (.refereePowerOn up tr) s = .next t ∧
      t.ref = { ({} : Referee) with supA := up.getLsbD 0, supB := up.getLsbD 1, supS := false } ∧ t.dev = d.cold) ∧
    (∀ (up : BitVec 3) (tr : Train), up.getLsbD 2 = true → d.cold.slots2 = [] → ∃ t, exec (.refereePowerOn up tr) s = .next t ∧ t.ref.defaults = true ∧
      t.dev.on cfgL CFG_DEFAULTED.SET = true ∧ t.dev.svcUp = true ∧ t.ref.epoch = ({} : Referee).epoch ∧ cut t ∧
      (∀ h : Half, t.ref.hs h = if t.ref.sup h then .init else .off) ∧ t.ref.supA = up.getLsbD 0 ∧ t.ref.supB = up.getLsbD 1)

/-! ### Chapter 25: register pages -/

/-- R488 to R492: a REQ on a page without group is refused with NOSHADOW, BROWNOUT, its boundary code, QUARANTINED or ROWGRP and leaves PENDING 0,
arms it until its boundary, or swaps it at once: the active set then holds the shadow set; a shadow set found illegal at the boundary
is refused with its lowest code and stays armed; a group is armed or refused whole; CANCEL withdraws a group's request. A beam page swaps
at its sampling edge. -/
def Obligations.CommitsArmSwapAndCancel : Prop :=
  (∀ (s : State) (rg : Fin 4) (pg : BitVec 12) (row : PageRow) (i : Nat), pageRowOf (pageAt rg pg) = some (row, i) → upAt s.ref s.dev rg = true →
    s.soleR rg →
    let d := s.dev
    let p := pageAt rg pg
    let l := locOf p
    let com := l + 0x010
    let seq := l + 0x03C
    let hv := [hLoc .A .hrn + HRN_STAT.VALIDATING.off, hLoc .B .hrn + HRN_STAT.VALIDATING.off]
    let only (t : State) (keys : List Nat) : Prop := t.ref = s.ref ∧ t.mem = s.mem ∧ t.pending = s.pending ∧ d.onlyRegs keys t.dev
    let told (t : State) : Prop := ∀ b, cfgErrBit row.block = some b → d.clocked l = true → t.dev.raised l b
    let refused (t : State) (code : Nat) : Prop := only t [com, seq] ∧ t.dev.armed p = false ∧ t.dev.g l PG_COMMIT.RESULT = code ∧ told t
    (∀ code (g b : Fin 16), row.noShadow = some code → d.grp p = 0 → d.armed p = false → ∃ t, exec (.commitReq rg pg g b) s = .next t ∧ refused t code) ∧
    (∀ b : Fin 16, row.noShadow = none →
      (d.armed p = true → ∃ t, exec (.commitReq rg pg 0 b) s = .next t ∧ only t [com, seq] ∧ t.dev.armed p = true ∧
        t.dev.g l PG_COMMIT.RESULT = d.g l PG_COMMIT.RESULT) ∧
      (d.armed p = false →
        (d.warnAt rg = true → ∃ t, exec (.commitReq rg pg 0 b) s = .next t ∧ refused t 0x02) ∧
        (d.warnAt rg = false →
          (b.val ∉ row.bounds → frozenAt s.ref rg = false → ∃ t, exec (.commitReq rg pg 0 b) s = .next t ∧ refused t (boundCode row.block)) ∧
          (b.val ∈ row.bounds → frozenAt s.ref rg = true → ∃ t, exec (.commitReq rg pg 0 b) s = .next t ∧ refused t 0x06) ∧
          (b.val ∈ row.bounds → frozenAt s.ref rg = false →
            (b = 1 → ∃ t, exec (.commitReq rg pg 0 b) s = .next t ∧ refused t 0x07) ∧
            (b ≠ 1 → d.headIdle p = false → (row.block = .hrn → d.on l HRN_STAT.COPY = false) → (row.block = .hrn ∨ d.waits p = true ∨ b ≠ 0) →
              ∃ t, exec (.commitReq rg pg 0 b) s = .next t ∧ only t ([com, seq] ++ if row.block = .hrn then [l + HRN_STAT.VALIDATING.off] else []) ∧
                t.dev.armed p = true ∧ t.dev.grp p = 0 ∧ t.dev.bound p = b.val ∧ t.dev.g l PG_COMMIT.RESULT = d.g l PG_COMMIT.RESULT) ∧
            (b = 0 → row.block ∈ [.aeq, .seal, .dma, .mec, .scb, .pwr] →
              (d.pageCodes [p] p = [] → ∃ t, exec (.commitReq rg pg 0 b) s = .next t ∧ only t ([com, seq] ++ (List.range 0x7C0).map (fun k => l + 0x40 + k) ++
                  if row.block = .mec then [l + MEC_STAT.REF2X.off] else []) ∧
                t.dev.armed p = false ∧ t.dev.g l PG_COMMIT.RESULT = 0 ∧ ∀ off, 0x40 ≤ off → off < 0x800 → t.dev.rd l off = d.rdS l off) ∧
              (d.pageCodes [p] p ≠ [] → ∃ t, exec (.commitReq rg pg 0 b) s = .next t ∧ only t [com, seq] ∧ t.dev.armed p = true ∧
                some (t.dev.g l PG_COMMIT.RESULT) = (d.pageCodes [p] p).min? ∧ told t)))))) ∧
    (∀ g b : Fin 16, row.noShadow = none →
      let e := ((d.seq l).p l PG_COMMIT.GROUP g.val).p l PG_COMMIT.BOUND b.val
      let ps := e.members p
      (g ≠ 0 → d.armed p = false →
        ((∀ q ∈ ps, Dev.requestCodes s.ref e ps q = []) → b ≠ 0 → (∀ q ∈ ps, d.headIdle q = false) → ∃ t, exec (.commitReq rg pg g b) s = .next t ∧
          only t ([com, seq] ++ ps.map (fun q => locOf q + 0x010) ++ hv) ∧ ∀ q ∈ ps, t.dev.armed q = true) ∧
        (∀ q0 ∈ ps, Dev.requestCodes s.ref e ps q0 ≠ [] → ∃ t, exec (.commitReq rg pg g b) s = .next t ∧ t.ref = s.ref ∧ t.mem = s.mem ∧
          ∀ q ∈ ps, t.dev.armed q = false ∧ t.dev.g (locOf q) PG_COMMIT.RESULT = ((Dev.requestCodes s.ref e ps q).min?).getD 0x05)) ∧
      ∃ t, exec (.commitCancel rg pg g b) s = .next t ∧ only t ([com, seq] ++ ps.map (fun q => locOf q + 0x010) ++ hv) ∧
        ∀ q ∈ ps, t.dev.armed q = false ∧ t.dev.g (locOf q) PG_COMMIT.RESULT = d.g (locOf q) PG_COMMIT.RESULT)) ∧
  (∀ (s : State) (h : Half), s.awake h (hLoc h .beam) →
    let d := s.dev
    let p := pageOf h.n .beam 0
    let l := hLoc h .beam
    let only (t : State) (keys : List Nat) : Prop := t.ref = s.ref ∧ t.mem = s.mem ∧ t.pending = s.pending ∧ d.onlyRegs keys t.dev
    (d.armed p = false → exec (.beamCommitSwap h) s = .next s) ∧
    (d.armed p = true → d.grp p = 0 → d.bound p = 0 →
      (d.pageCodes [p] p ≠ [] → ∃ t, exec (.beamCommitSwap h) s = .next t ∧ only t [l + 0x010] ∧ t.dev.armed p = true ∧
        some (t.dev.g l PG_COMMIT.RESULT) = (d.pageCodes [p] p).min? ∧ t.dev.raised l 26) ∧
      (d.pageCodes [p] p = [] → (∀ b : Fin 4, d.gS l (BEAM_CFG.EN.ix b) = d.g l (BEAM_CFG.EN.ix b) ∧ (d.beam h b).lineA.run < 2 ∧
          (d.beam h b).lineB.run < 2 ∧ (d.beam h b).lineZ.run < 2 ∧ ((d.beam h b).state = .off ∨ d.gS l (BEAM_SPEED.SPEED.ix b) = 0 ∨
            (sgn 32 (d.beam h b).repVel).natAbs ≤ d.gS l (BEAM_SPEED.SPEED.ix b))) →
        ∃ t, exec (.beamCommitSwap h) s = .next t ∧ t.ref = s.ref ∧ t.mem = s.mem ∧ t.pending = s.pending ∧
          { t.dev.quiet with beams := [] } = { d.quiet with beams := [] } ∧
          d.regsKept ([l + 0x010] ++ (List.range 0x7C0).map (fun k => l + 0x40 + k) ++ (List.range 4).map (fun b => l + (BEAM_STATE.STATE.ix b).off) ++
            (List.range 4).map (fun b => l + (BEAM_COUNT.COUNT.ix b).off)) t.dev ∧
          (∀ j, j / 4 ≠ h.n → SMap.get (fun _ => ({} : Beam)) t.dev.beams j = SMap.get (fun _ => {}) d.beams j) ∧
          (∀ b : Fin 4, t.dev.beam h b = { d.beam h b with fast := (t.dev.beam h b).fast } ∧ t.dev.g l (BEAM_STATE.STATE.ix b) = (d.beam h b).state.code ∧
            (d.gS l (BEAM_COARSE.COARSE.ix b) = 0 → t.dev.on l (BEAM_STATE.PRED_COARSE.ix b) = false)) ∧
          t.dev.armed p = false ∧ t.dev.g l PG_COMMIT.RESULT = 0 ∧ ∀ off, 0x40 ≤ off → off < 0x800 → t.dev.rd l off = d.rdS l off)))

/-- R21: a request whose group a page of another region names too is refused whole with GROUP_REGION: no page of the group is armed or swaps, and the
shadow sets stay as they are. -/
def Obligations.CommitGroupsStayInOneRegion : Prop :=
  ∀ (s : State) (rg : Fin 4) (pg : BitVec 12) (row : PageRow) (i : Nat) (g b : Fin 16), pageRowOf (pageAt rg pg) = some (row, i) →
    upAt s.ref s.dev rg = true → s.soleR rg → row.noShadow = none → s.dev.armed (pageAt rg pg) = false → g ≠ 0 →
    (∃ o q, o < 3 ∧ o ≠ rg.val ∧ q ∈ pagesOf o ∧ s.dev.grp q = g.val) →
    let p := pageAt rg pg
    let ps := (((s.dev.seq (locOf p)).p (locOf p) PG_COMMIT.GROUP g.val).p (locOf p) PG_COMMIT.BOUND b.val).members p
    ∃ t, exec (.commitReq rg pg g b) s = .next t ∧ t.ref = s.ref ∧ t.mem = s.mem ∧ t.dev.shadow = s.dev.shadow ∧ p ∈ ps ∧
      ∀ q ∈ ps, ∀ row' i', pageRowOf q = some (row', i') → row'.noShadow = none →
        t.dev.g (locOf q) PG_COMMIT.RESULT = 0x01 ∧ t.dev.armed q = false ∧
        ∀ off, 0x40 ≤ off → off < 0x800 → t.dev.rd (locOf q) off = s.dev.rd (locOf q) off

/-- R493: PG_LOCK holds the owner of Table 25.4 and its writers at reset; its owner alone writes it, never takes its own bit from WRITERS, and no more
once FREEZE is 1; every other bit stays; bit d of WRITERS lets domain d write the page, but while the half is in QUARANTINE only D5
writes it; a block reset keeps PG_LOCK, a reset of the region returns it. -/
def Obligations.PageLocksNameTheWriters : Prop :=
  ∀ (s : State) (rg : Fin 4) (pg : BitVec 12) (row : PageRow) (i : Nat), pageRowOf (pageAt rg pg) = some (row, i) →
    let d := s.dev
    let p := pageAt rg pg
    let l := locOf p
    let o := row.ownerIn rg
    let only (t : State) (keys : List Nat) : Prop := t.ref = s.ref ∧ t.mem = s.mem ∧ t.pending = s.pending ∧ d.onlyRegs keys t.dev
    let log (x : Nat) : List Nat := [rLoc x .evc + EVC_DVLOG.PAGE.off, rLoc x .evc + EVC_DVCNT.COUNT.off]
    let drop (t : State) : Prop := only t (log 0 ++ log 1 ++ log 2) ∧
      (rg ≠ 3 → only t (log rg) ∧ (d.clocked (rLoc rg .evc) = true → t.dev.raised (rLoc rg .evc) 0))
    State.reset.dev.g l PG_LOCK.OWNER = o ∧
    (∀ j, j < 6 → bit (State.reset.dev.g l PG_LOCK.WRITERS) j =
      if row.block ∈ [.cfg, .sec, .pwr] then decide (j = 1 ∨ j = 2 ∨ j = 3 ∨ j = 5) else decide (j = o ∨ (o ≠ 0 ∧ o ≠ 4 ∧ j = 5))) ∧
    State.reset.dev.on l PG_LOCK.FREEZE = false ∧
    (∀ (m : Master) (v : Word), upAt s.ref d rg = true → s.sends m = true → s.ref.rjHalf = none →
      let w := v.toNat / 2 ^ 8 % 64
      (frozenAt s.ref rg = false → d.domainOf s.ref m = o →
        (d.on l PG_LOCK.FREEZE = true → ∃ t, exec (.pgLockWrite m rg pg v) s = .next t ∧ only t [l + 0x03C] ∧ t.dev.rd l 0x038 = d.rd l 0x038) ∧
        (d.on l PG_LOCK.FREEZE = false → ∃ t, exec (.pgLockWrite m rg pg v) s = .next t ∧ only t [l + 0x03C, l + 0x038] ∧
          (∀ j, j < 6 → bit (t.dev.g l PG_LOCK.WRITERS) j = (bit w j || j == o)) ∧ t.dev.on l PG_LOCK.FREEZE = v.getLsbD 31 ∧
          t.dev.rd l 0x038 &&& 0x7FFFC0FF = d.rd l 0x038 &&& 0x7FFFC0FF)) ∧
      ((frozenAt s.ref rg = true ∨ d.domainOf s.ref m ≠ o) → ∃ t, exec (.pgLockWrite m rg pg v) s = .next t ∧ drop t)) ∧
    (∀ (cr : Fin 3) (c : Fin 20) (a : BitVec 40) (v : Word), upAt s.ref d rg = true → s.sends (.core cr c) = true → s.ref.rjHalf = none →
      a.toNat = 0x1000000000 + p * 4096 + 0x018 →
      let dom := d.domainOf s.ref (.core cr c)
      (frozenAt s.ref rg = false → bit (d.g l PG_LOCK.WRITERS) dom = true → ∃ t, exec (.registerWrite (.core cr c) a (toBytes v.toNat 4)) s = .next t ∧
        only t [l + 0x03C, l + 0x018] ∧ t.dev.rd l 0x018 = v &&& BitVec.ofNat 32 row.events) ∧
      ((frozenAt s.ref rg = true ∨ bit (d.g l PG_LOCK.WRITERS) dom = false) →
        ∃ t, exec (.registerWrite (.core cr c) a (toBytes v.toNat 4)) s = .next t ∧ drop t)) ∧
    (∀ (h k : Half) (a : BitVec 40) (v : Word), rg.val = h.n → frozenAt s.ref rg = true → s.sends (.host k true) = true → s.ref.rjHalf = none →
      d.domainOf s.ref (.host k true) = 5 → d.reaches (.host k true) a.toNat = true → a.toNat = 0x1000000000 + p * 4096 + 0x018 →
      ∃ t, exec (.registerWrite (.host k true) a (toBytes v.toNat 4)) s = .next t ∧ t.dev.rd l 0x018 = v &&& BitVec.ofNat 32 row.events) ∧
    (upAt s.ref d rg = true → s.soleR rg → ∃ t, exec (.blockReset rg pg) s = .next t ∧ t.dev.rd l 0x038 = d.rd l 0x038) ∧
    (∀ (mv : BitVec 12), mv.toNat ≤ 720 → (∀ h : Half, rg.val = h.n → s.ref.sup h = true ∧ s.ref.hs h ≠ .off) → (rg.val = 2 → s.ref.supS = true) →
      ∃ t, exec (.boReset rg mv) s = .next t ∧ t.dev.rd l 0x038 = regReset (l + 0x038))

/-- R32: a read of the low word of TB latches the high word for its master, whose next read of the high word returns it; a load of KTB0 takes the
whole TB in one step. -/
def Obligations.TimeBaseReadsAreWhole : Prop :=
  (∀ (s : State) (h : Half) (m : Master) (a a' : BitVec 40), s.sends m = true → s.dev.reaches m a.toNat = true → s.ref.hs h ≠ .off →
    let p := pageOf h.n .beam 0
    let tb := s.dev.tb h
    let same (d e : Dev) : Prop := { e with readData := 0, latched := [], regs := [] } = { d with readData := 0, latched := [], regs := [] } ∧
      d.regsKept [hLoc .A .hif + HIF_ERR.DOM.off, hLoc .B .hif + HIF_ERR.DOM.off] e
    a.toNat = 0x1000000000 + p * 4096 + 0x920 → a'.toNat = a.toNat + 4 → SMap.get (fun _ => none) s.dev.latched (latchKey p 0x920 m) = none →
    ∃ t, exec (.lowWordRead m a) s = .next t ∧ t.ref = s.ref ∧ t.mem = s.mem ∧ t.dev.readData.toNat = tb % 2 ^ 32 ∧ same s.dev t.dev ∧
      ∀ (u : State), u.dev.latched = t.dev.latched → u.ref = s.ref → u.dev.svcUp = s.dev.svcUp → u.dev.reaches m a'.toNat = true →
        ∃ v, exec (.rcRead m a') u = .next v ∧ v.dev.readData.toNat = tb / 2 ^ 32 % 2 ^ 32 ∧ same u.dev v.dev) ∧
  (∀ (s : State) (r : Fin 3) (c : Fin 20), s.coreOn r c = true →
    ∃ t, exec (.ktbLoad r c) s = .next t ∧ t.ref = s.ref ∧ t.mem = s.mem ∧ t.dev.readData.toNat = s.dev.tbR r % 2 ^ 16 ∧
      ∀ j, j < 4 → (t.dev.kx r c).cw (0x20 + j) = s.dev.tbR r / 2 ^ (16 * j) % 2 ^ 16)

/-- R428: a write that a page's lock drops is a domain violation on the EVC of the page's region, an access to a reserved address a decode error on the
service EVC; the first since its log was last read stands in EVC_DVLOG, the others are counted in EVC_DVCNT. A decode error also records its master and domain
(R25). -/
def Obligations.ViolationsAreLoggedOnce : Prop :=
  ∀ (s : State) (cr : Fin 3) (c : Fin 20) (a : BitVec 40), s.sends (.core cr c) = true → s.ref.rjHalf = none →
    let d := s.dev
    let m : Master := .core cr c
    let dom := d.domainOf s.ref m
    let log (t : State) (reg : Nat) (w : Nat) (e : Nat) : Prop := let l := rLoc reg .evc
      t.ref = s.ref ∧ t.mem = s.mem ∧ { t.dev.quiet with decBy := none } = { d.quiet with decBy := none } ∧
      t.dev.decBy = (if e = 1 then some (some m, dom) else d.decBy) ∧ d.regsKept [l + EVC_DVLOG.PAGE.off, l + EVC_DVCNT.COUNT.off] t.dev ∧ (d.clocked l = true → t.dev.raised l e) ∧
      (if d.rd l EVC_DVLOG.PAGE.off = 0 then t.dev.rd l EVC_DVLOG.PAGE.off = BitVec.ofNat 32 w ∧ t.dev.rd l EVC_DVCNT.COUNT.off = d.rd l EVC_DVCNT.COUNT.off
      else t.dev.rd l EVC_DVLOG.PAGE.off = d.rd l EVC_DVLOG.PAGE.off ∧ t.dev.g l EVC_DVCNT.COUNT = min (d.g l EVC_DVCNT.COUNT + 1) 65535)
    (∀ (v : Word) (p off : Nat) (row : PageRow) (i : Nat), off < 0x1000 → off % 4 = 0 → a.toNat = 0x1000000000 + p * 4096 + off → pageRowOf p = some (row, i) →
      p / 4096 < 3 → upAt s.ref d (p / 4096) = true → mayWrite s dom row p i off = false →
      ∃ t, exec (.registerWrite m a (toBytes v.toNat 4)) s = .next t ∧
        log t (p / 4096) (p % 4096 + off * 2 ^ 12 + dom * 2 ^ 24) 0) ∧
    (d.reserved a.toNat = true → d.calm → d.inL7 a.toNat = false →
      let w := a.toNat / 4096 % 4096 + a.toNat % 4096 * 2 ^ 12 + dom * 2 ^ 24 + 2 ^ 28
      (∀ x : Byte, ∃ t, exec (.registerWrite m a [x]) s = .next t ∧ log t 2 w 1) ∧
      (∃ t, exec (.rcRead m a) s = .next t ∧ t.mem = s.mem ∧ t.dev.readData.toNat % 256 = 0 ∧ t.dev.decBy = some (some m, dom) ∧
        (d.clocked (rLoc 2 .evc) = true → t.dev.raised (rLoc 2 .evc) 1))) ∧
    (∀ (v : Word) (p off : Nat), off < 0x1000 → off % 4 = 0 → a.toNat = 0x1000000000 + p * 4096 + off → isPage a.toNat = true → pageRowOf p = none →
      upAt s.ref d (p / 4096) = true → ∃ t, exec (.registerWrite m a (toBytes v.toNat 4)) s = .next t ∧
        log t 2 (p % 4096 + off * 2 ^ 12 + dom * 2 ^ 24 + 2 ^ 28) 1) ∧
    (∀ (reg : Fin 3), upAt s.ref d reg = true → a.toNat = 0x1000000000 + pageOf reg .evc 0 * 4096 + EVC_DVLOG.PAGE.off →
      SMap.get (fun _ => none) d.latched (latchKey (pageOf reg .evc 0) EVC_DVLOG.PAGE.off m) = none →
      ∃ t, exec (.rcRead m a) s = .next t ∧ t.dev.readData = d.rd (rLoc reg .evc) EVC_DVLOG.PAGE.off &&& 0x17FFFFFF ∧
        t.dev.rd (rLoc reg .evc) EVC_DVLOG.PAGE.off = d.rd (rLoc reg .evc) EVC_DVLOG.PAGE.off &&& 0xE8000000)

/-- R11, R24, R478, R481, R487, R491: a block reset puts the page back to its reset values but for what Table 24.3 keeps, withdraws an armed
request, and is refused where R478 refuses it; a clock gate writes ENABLE; a write to a shadowed register goes to the shadow set, or is
dropped and recorded where its domain is no writer (on the referee's page at the service EVC, notes/assumptions/71.md); a write to memory
stores its bytes; a read clears RC bits. -/
def Obligations.PagesResetGateAndTakeAccesses : Prop :=
  (∀ (s : State) (rg : Fin 4) (pg : BitVec 12) (row : PageRow) (i : Nat), pageRowOf (pageAt rg pg) = some (row, i) → upAt s.ref s.dev rg = true →
    s.soleR rg →
    let d := s.dev
    let p := pageAt rg pg
    let l := locOf p
    let seq := l + 0x03C
    let word (e : Dev) (k : Nat) : Word := SMap.get regReset e.regs k
    let sh (e : Dev) (k : Nat) : Word := SMap.get regReset e.shadow k
    let only (t : State) (keys : List Nat) : Prop := t.ref = s.ref ∧ t.mem = s.mem ∧ t.pending = s.pending ∧ d.onlyRegs keys t.dev
    (d.resetRefused s.ref row.block rg i = true → ∃ t, exec (.blockReset rg pg) s = .next t ∧ only t [seq] ∧
      ∀ b, cfgErrBit row.block = some b → d.clocked l = true → t.dev.raised l b) ∧
    (d.resetRefused s.ref row.block rg i = false → d.grp p = 0 ∨ d.armed p = false → ∃ t, exec (.blockReset rg pg) s = .next t ∧ t.ref = s.ref ∧ t.mem = s.mem ∧
      t.dev.armed p = false ∧ (∀ k, k / 0x100000 ≠ p → evReg k = false → word t.dev k = word d k ∧ sh t.dev k = sh d k) ∧
      (∀ off, off < 0x1000 → off ≠ 0x008 → evReg (l + off) = false →
        t.dev.rd l off = if keptAtReset row.block off then d.rd l off else regReset (l + off)) ∧
      t.dev.g l PG_STAT.BROWNOUT_SEEN = d.g l PG_STAT.BROWNOUT_SEEN ∧ ∀ m, t.dev.viewOf p m = false) ∧
    (∀ on : Bool, d.g l PG_CTL.ENABLE = b2n on ∨ row.block ∈ [.ref, .cfg, .sec, .pwr, .evc] → ∃ t, exec (.clockGate rg pg on) s = .next t ∧ only t [seq]) ∧
    (∀ on : Bool, d.g l PG_CTL.ENABLE ≠ b2n on → row.block ∉ [.ref, .cfg, .sec, .pwr, .evc, .lpe, .cxp] → d.armed p = false →
      ∃ t, exec (.clockGate rg pg on) s = .next t ∧ only t [seq, l + 0x00C] ∧ t.dev.clocked l = on) ∧
    (∀ (cr : Fin 3) (c : Fin 20) (a : BitVec 40) (v : Word) (off : Nat) (rr : RegRow), s.sends (.core cr c) = true → s.ref.rjHalf = none → frozenAt s.ref rg = false →
      d.armed p = false → off < 0x1000 → off % 4 = 0 → a.toNat = 0x1000000000 + p * 4096 + off → row.rowFor off = some rr →
      let dom := d.domainOf s.ref (.core cr c)
      let wr : Instr := .registerWrite (.core cr c) a (toBytes v.toNat 4)
      (row.block ∈ [.aeq, .seal, .mec, .scb, .pwr] → rr.rws ≠ 0 → bit (d.g l PG_LOCK.WRITERS) dom = true → ∃ t, exec wr s = .next t ∧ t.ref = s.ref ∧ t.mem = s.mem ∧
        { t.dev.quiet with shadow := [] } = { d.quiet with shadow := [] } ∧ d.regsKept [seq] t.dev ∧
        ∀ k, sh t.dev k = if k = l + off then maskPut rr.rws v (d.rdS l off) else sh d k) ∧
      (off ≠ 0x038 → bit (d.g l PG_LOCK.WRITERS) dom = false → ∃ t, exec wr s = .next t ∧
        let lv := rLoc (if rg = 3 then 2 else rg) .evc
        only t [lv + EVC_DVLOG.PAGE.off, lv + EVC_DVCNT.COUNT.off] ∧ (d.clocked lv = true → t.dev.raised lv 0)) ∧
      (row.block ∈ [.aeq, .seal, .mec, .pwr] → rr.rc ≠ 0 → 0x800 ≤ off → SMap.get (fun _ => none) d.latched (latchKey p off (.core cr c)) = none →
        ∃ t, exec (.rcRead (.core cr c) a) s = .next t ∧ t.ref = s.ref ∧ t.mem = s.mem ∧ t.dev.readData = d.rd l off &&& BitVec.ofNat 32 rr.rd ∧
          { t.dev.quiet with readData := 0 } = { d.quiet with readData := 0 } ∧ d.regsKept [l + off] t.dev ∧
          t.dev.rd l off = d.rd l off &&& ~~~(BitVec.ofNat 32 rr.rc)))) ∧
  (∀ (s : State) (cr : Fin 3) (c : Fin 20) (a : BitVec 40) (data : List Byte), s.sends (.core cr c) = true → s.ref.rjHalf = none → s.dev.calm → data ≠ [] →
    s.plain cr a.toNat data.length → (cr = 2 → c ≠ 7) → (∀ j, j < data.length → s.dev.inL7 (a.toNat + j) = false) →
    ∃ t, exec (.registerWrite (.core cr c) a data) s = .next t ∧ t.ref = s.ref ∧ s.dev.onlyRegs [] t.dev ∧
      (∀ j, j < data.length → some (t.mem.byte (a.toNat + j)) = data[j]?) ∧
      ∀ x, (x < a.toNat ∨ a.toNat + data.length ≤ x) → t.mem.byte x = s.mem.byte x)
end

