-- ==== Sys2Proof/Laws/SMap.lean ====
section
/-! SUPPORT. Laws of sparse maps: reading after a write, and that every operation keeps the canonical form. -/
namespace Sys2Proof.Machine

open Sys2Proof

variable {α : Type} {d : Nat → α}

/-! ### Reading after a change -/

@[simp] theorem SMap.get_put_same (m : SMap α) (k : Nat) (v : α) : SMap.get d (SMap.put k v m) k = v := by
  induction m with
  | nil => simp [SMap.put, SMap.get]
  | cons e m ih =>
    obtain ⟨j, u⟩ := e
    unfold SMap.put
    split
    · simp [SMap.get]
    · split
      · simp [SMap.get]
      · next h1 h2 => simp [SMap.get, h2, ih]

theorem SMap.get_put_ne (m : SMap α) {k i : Nat} (v : α) (h : i ≠ k) : SMap.get d (SMap.put k v m) i = SMap.get d m i := by
  induction m with
  | nil => simp [SMap.put, SMap.get, h]
  | cons e m ih =>
    obtain ⟨j, u⟩ := e
    unfold SMap.put
    split
    · simp [SMap.get, h]
    · split
      · next h1 h2 => subst h2; simp [SMap.get, h]
      · simp [SMap.get, ih]

theorem SMap.get_del_ne (m : SMap α) {k i : Nat} (h : i ≠ k) : SMap.get d (SMap.del k m) i = SMap.get d m i := by
  induction m with
  | nil => rfl
  | cons e m ih =>
    obtain ⟨j, u⟩ := e
    unfold SMap.del
    split
    · next h2 => subst h2; simp [SMap.get, h, ih]
    · simp [SMap.get, ih]

@[simp] theorem SMap.get_del_same (m : SMap α) (k : Nat) : SMap.get d (SMap.del k m) k = d k := by
  induction m with
  | nil => rfl
  | cons e m ih =>
    obtain ⟨j, u⟩ := e
    unfold SMap.del
    split
    · exact ih
    · next h2 => simp [SMap.get, h2, ih]

/-- Returning the keys that `p` selects to their unlisted values does so, and leaves every other key alone. -/
theorem SMap.get_erase (m : SMap α) (p : Nat → Bool) (k : Nat) :
    SMap.get d (SMap.erase p m) k = if p k then d k else SMap.get d m k := by
  induction m with
  | nil => simp [SMap.erase, SMap.get]
  | cons e m ih =>
    obtain ⟨j, u⟩ := e
    unfold SMap.erase at ih ⊢
    by_cases hj : p j = true
    · rw [List.filter_cons_of_neg (by simp [hj]), ih]
      by_cases hk : k = j
      · subst hk; simp [hj]
      · simp [SMap.get, hk]
    · rw [List.filter_cons_of_pos (by simp [hj])]
      by_cases hk : k = j
      · subst hk; simp [SMap.get, hj]
      · simp [SMap.get, hk, ih]

variable [DecidableEq α]

/-- A write leaves every other key alone. -/
theorem SMap.get_set_ne (m : SMap α) {k i : Nat} (v : α) (h : i ≠ k) : SMap.get d (SMap.set d m k v) i = SMap.get d m i := by
  unfold SMap.set
  split
  · exact SMap.get_del_ne m h
  · exact SMap.get_put_ne m v h

/-- A read after a write to the same key gives the value written. -/
@[simp] theorem SMap.get_set_same (m : SMap α) (k : Nat) (v : α) : SMap.get d (SMap.set d m k v) k = v := by
  unfold SMap.set
  split
  · next hv => simp [hv]
  · exact SMap.get_put_same m k v

/-- A read after a write, at any key. -/
theorem SMap.get_set (m : SMap α) (k i : Nat) (v : α) : SMap.get d (SMap.set d m k v) i = if i = k then v else SMap.get d m i := by
  split
  · next h => subst h; simp
  · next h => exact SMap.get_set_ne m v h

/-! ### The canonical form -/

theorem SMap.wfFrom_mono {m : SMap α} {lo lo' : Nat} (hl : lo' ≤ lo) (h : SMap.wfFrom d lo m = true) : SMap.wfFrom d lo' m = true := by
  cases m with
  | nil => rfl
  | cons e m =>
    obtain ⟨j, u⟩ := e
    simp only [SMap.wfFrom, Bool.and_eq_true, decide_eq_true_eq] at h ⊢
    exact ⟨⟨Nat.le_trans hl h.1.1, h.1.2⟩, h.2⟩

/-- A key below the first listed one reads as unlisted. -/
theorem SMap.get_below {m : SMap α} {lo k : Nat} (h : SMap.wfFrom d lo m = true) (hk : k < lo) : SMap.get d m k = d k := by
  induction m generalizing lo with
  | nil => rfl
  | cons e m ih =>
    obtain ⟨j, u⟩ := e
    simp only [SMap.wfFrom, Bool.and_eq_true, decide_eq_true_eq] at h
    have hj : k ≠ j := by omega
    simp only [SMap.get, hj, if_false]
    exact ih h.2 (by omega)

theorem SMap.wfFrom_del {m : SMap α} {lo : Nat} (k : Nat) (h : SMap.wfFrom d lo m = true) : SMap.wfFrom d lo (SMap.del k m) = true := by
  induction m generalizing lo with
  | nil => rfl
  | cons e m ih =>
    obtain ⟨j, u⟩ := e
    simp only [SMap.wfFrom, Bool.and_eq_true, decide_eq_true_eq] at h
    unfold SMap.del
    split
    · exact SMap.wfFrom_mono (by omega) (ih h.2)
    · simp only [SMap.wfFrom, Bool.and_eq_true, decide_eq_true_eq]
      exact ⟨h.1, ih h.2⟩

theorem SMap.wfFrom_put {m : SMap α} {lo : Nat} (k : Nat) (v : α) (hv : v ≠ d k) (hk : lo ≤ k) (h : SMap.wfFrom d lo m = true) :
    SMap.wfFrom d lo (SMap.put k v m) = true := by
  induction m generalizing lo with
  | nil => simp [SMap.put, SMap.wfFrom, hk, hv]
  | cons e m ih =>
    obtain ⟨j, u⟩ := e
    have h' := h
    simp only [SMap.wfFrom, Bool.and_eq_true, decide_eq_true_eq] at h
    unfold SMap.put
    split
    · simp only [SMap.wfFrom, Bool.and_eq_true, decide_eq_true_eq]
      exact ⟨⟨hk, hv⟩, ⟨by omega, h.1.2⟩, h.2⟩
    · split
      · next h1 h2 =>
        subst h2
        simp only [SMap.wfFrom, Bool.and_eq_true, decide_eq_true_eq]
        exact ⟨⟨hk, hv⟩, h.2⟩
      · simp only [SMap.wfFrom, Bool.and_eq_true, decide_eq_true_eq]
        exact ⟨h.1, ih (by omega) h.2⟩

/-- A write keeps the canonical form. -/
theorem SMap.wf_set {m : SMap α} (k : Nat) (v : α) (h : SMap.wf d m = true) : SMap.wf d (SMap.set d m k v) = true := by
  unfold SMap.set
  split
  · exact SMap.wfFrom_del k h
  · next hv => exact SMap.wfFrom_put k v hv (Nat.zero_le _) h

theorem SMap.wfFrom_filter {m : SMap α} {lo : Nat} (p : Nat × α → Bool) (h : SMap.wfFrom d lo m = true) :
    SMap.wfFrom d lo (m.filter p) = true := by
  induction m generalizing lo with
  | nil => rfl
  | cons e m ih =>
    obtain ⟨j, u⟩ := e
    simp only [SMap.wfFrom, Bool.and_eq_true, decide_eq_true_eq] at h
    by_cases hp : p (j, u) = true
    · rw [List.filter_cons_of_pos hp]
      simp only [SMap.wfFrom, Bool.and_eq_true, decide_eq_true_eq]
      exact ⟨h.1, ih h.2⟩
    · rw [List.filter_cons_of_neg hp]
      exact SMap.wfFrom_mono (by omega) (ih h.2)

/-- Returning a range of keys to their unlisted values keeps the canonical form. -/
theorem SMap.wf_erase {m : SMap α} (p : Nat → Bool) (h : SMap.wf d m = true) : SMap.wf d (SMap.erase p m) = true :=
  SMap.wfFrom_filter _ h

/-- A change of one value keeps the canonical form. -/
theorem SMap.wf_modify {m : SMap α} (k : Nat) (f : α → α) (h : SMap.wf d m = true) : SMap.wf d (SMap.modify d m k f) = true :=
  SMap.wf_set k _ h

end Sys2Proof.Machine
end

