-- ==== Sys2Proof/Laws/State.lean ====
section
/-! SUPPORT. What the named updates of the state change: one lemma per field and update, true by unfolding, and what each shape of a
meaning answers. -/
namespace Sys2Proof.Machine

open Sys2Proof

/-! ### The shapes of a meaning -/

theorem onDev_eq (f : State → Dev) (s : State) : onDev f s = .next { s with dev := f s } := rfl
theorem onMem_eq (f : State → List MemOp × Dev) (s : State) : onMem f s = .next { s with mem := s.mem.applyAll (f s).1, dev := (f s).2 } := rfl
theorem onRef_eq (f : State → Referee × List MemOp × Dev) (s : State) :
    onRef f s = .next { s with ref := (f s).1, mem := s.mem.applyAll (f s).2.1, dev := (f s).2.2 } := rfl
/-- A half that runs obeys its command. -/
theorem onHalf_live {h : Half} {f : State → Dev} {s : State} (hl : s.ref.live h = true) : onHalf h f s = .next { s with dev := f s } := by
  simp [onHalf, onDev, hl]
/-- A half that is frozen, off or in standby is left as it is. -/
theorem onHalf_still {h : Half} {f : State → Dev} {s : State} (hl : s.ref.live h = false) : onHalf h f s = .next s := by
  simp [onHalf, onDev, hl]
theorem onBlock_live {h : Half} {l : Loc} {f : State → Dev} {s : State} (hl : s.ref.live h = true) (hc : s.dev.clocked l = true) :
    onBlock h l f s = .next { s with dev := f s } := by
  simp [onBlock, onDev, hl, hc]
theorem onBlock_still {h : Half} {l : Loc} {f : State → Dev} {s : State} (hc : (s.ref.live h && s.dev.clocked l) = false) :
    onBlock h l f s = .next s := by
  simp only [onBlock, onDev, hc]
  rfl
theorem onBlockMem_live {h : Half} {l : Loc} {f : State → List MemOp × Dev} {s : State} (hl : s.ref.live h = true) (hc : s.dev.clocked l = true) :
    onBlockMem h l f s = .next { s with mem := s.mem.applyAll (f s).1, dev := (f s).2 } := by
  simp [onBlockMem, onMem, hl, hc]
theorem onSvc_up {l : Loc} {f : State → Dev} {s : State} (hu : s.dev.svcUp = true) (hc : s.dev.clocked l = true) :
    onSvc l f s = .next { s with dev := f s } := by
  simp [onSvc, onDev, hu, hc]
theorem onSvcReg_up {f : State → Dev} {s : State} (hu : s.dev.svcUp = true) : onSvcReg f s = .next { s with dev := f s } := by
  simp [onSvcReg, onDev, hu]
theorem onSvcReg_down {f : State → Dev} {s : State} (hu : s.dev.svcUp = false) : onSvcReg f s = .next s := by
  simp [onSvcReg, onDev, hu]
theorem onSvc_down {l : Loc} {f : State → Dev} {s : State} (hu : (s.dev.svcUp && s.dev.clocked l) = false) : onSvc l f s = .next s := by
  simp only [onSvc, onDev, hu]
  rfl
/-- A register write of a half that no rejoining half follows is that half's alone. -/
theorem forwarded_alone {h : Half} {f : Half → State → Answer} {s : State} (hr : s.ref.rejoinerOf h = none) : forwarded h f s = f h s := by
  unfold forwarded
  rw [hr]
  cases f h s <;> rfl
/-- Else the rejoining half takes the write after it. -/
theorem forwarded_both {h x : Half} {f : Half → State → Answer} {s t : State} (hr : s.ref.rejoinerOf h = some x) (ht : f h s = .next t) :
    forwarded h f s = f x t := by
  unfold forwarded
  rw [hr, ht]
/-- The half that follows is the other one. -/
theorem rejoinerOf_peer {r : Referee} {h x : Half} (hr : r.rejoinerOf h = some x) : x = h.peer := by
  unfold Referee.rejoinerOf at hr
  split at hr
  · cases hr
  · split at hr
    · next hx => cases hr; rw [← hx.1]; cases x <;> rfl
    · cases hr
theorem onWrite_live {h : Half} {l : Loc} {f : State → Dev → Dev} {s : State} (hl : s.ref.live h = true) :
    onWrite h l f s = .next { s with dev := f s (s.dev.seq l) } := onHalf_live hl

/-! ### Registers: a write of an active register leaves every other part of the devices alone -/

@[simp] theorem Dev.wr_shadow (d : Dev) (l : Loc) (o : Nat) (w : Word) : (d.wr l o w).shadow = d.shadow := rfl
@[simp] theorem Dev.wr_views (d : Dev) (l : Loc) (o : Nat) (w : Word) : (d.wr l o w).views = d.views := rfl
@[simp] theorem Dev.wr_csels (d : Dev) (l : Loc) (o : Nat) (w : Word) : (d.wr l o w).csels = d.csels := rfl
@[simp] theorem Dev.wr_latched (d : Dev) (l : Loc) (o : Nat) (w : Word) : (d.wr l o w).latched = d.latched := rfl
@[simp] theorem Dev.wr_tbA (d : Dev) (l : Loc) (o : Nat) (w : Word) : (d.wr l o w).tbA = d.tbA := rfl
@[simp] theorem Dev.wr_tbB (d : Dev) (l : Loc) (o : Nat) (w : Word) : (d.wr l o w).tbB = d.tbB := rfl
@[simp] theorem Dev.wr_tbS (d : Dev) (l : Loc) (o : Nat) (w : Word) : (d.wr l o w).tbS = d.tbS := rfl
@[simp] theorem Dev.wr_tickA (d : Dev) (l : Loc) (o : Nat) (w : Word) : (d.wr l o w).tickA = d.tickA := rfl
@[simp] theorem Dev.wr_tickB (d : Dev) (l : Loc) (o : Nat) (w : Word) : (d.wr l o w).tickB = d.tickB := rfl
@[simp] theorem Dev.wr_reports (d : Dev) (l : Loc) (o : Nat) (w : Word) : (d.wr l o w).reports = d.reports := rfl
@[simp] theorem Dev.wr_freeCount (d : Dev) (l : Loc) (o : Nat) (w : Word) : (d.wr l o w).freeCount = d.freeCount := rfl
@[simp] theorem Dev.wr_evcTab (d : Dev) (l : Loc) (o : Nat) (w : Word) : (d.wr l o w).evcTab = d.evcTab := rfl
@[simp] theorem Dev.wr_lines (d : Dev) (l : Loc) (o : Nat) (w : Word) : (d.wr l o w).lines = d.lines := rfl
@[simp] theorem Dev.wr_inService (d : Dev) (l : Loc) (o : Nat) (w : Word) : (d.wr l o w).inService = d.inService := rfl
@[simp] theorem Dev.wr_lastMsg (d : Dev) (l : Loc) (o : Nat) (w : Word) : (d.wr l o w).lastMsg = d.lastMsg := rfl
@[simp] theorem Dev.wr_msix (d : Dev) (l : Loc) (o : Nat) (w : Word) : (d.wr l o w).msix = d.msix := rfl
@[simp] theorem Dev.wr_outs (d : Dev) (l : Loc) (o : Nat) (w : Word) : (d.wr l o w).outs = d.outs := rfl
@[simp] theorem Dev.wr_caBad (d : Dev) (l : Loc) (o : Nat) (w : Word) : (d.wr l o w).caBad = d.caBad := rfl
@[simp] theorem Dev.wr_leaks (d : Dev) (l : Loc) (o : Nat) (w : Word) : (d.wr l o w).leaks = d.leaks := rfl
@[simp] theorem Dev.wr_decBy (d : Dev) (l : Loc) (o : Nat) (w : Word) : (d.wr l o w).decBy = d.decBy := rfl
@[simp] theorem Dev.wr_kip (d : Dev) (l : Loc) (o : Nat) (w : Word) : (d.wr l o w).kip = d.kip := rfl
@[simp] theorem Dev.wr_beams (d : Dev) (l : Loc) (o : Nat) (w : Word) : (d.wr l o w).beams = d.beams := rfl
@[simp] theorem Dev.wr_xqA (d : Dev) (l : Loc) (o : Nat) (w : Word) : (d.wr l o w).xqA = d.xqA := rfl
@[simp] theorem Dev.wr_xqB (d : Dev) (l : Loc) (o : Nat) (w : Word) : (d.wr l o w).xqB = d.xqB := rfl
@[simp] theorem Dev.wr_xlA (d : Dev) (l : Loc) (o : Nat) (w : Word) : (d.wr l o w).xlA = d.xlA := rfl
@[simp] theorem Dev.wr_xlB (d : Dev) (l : Loc) (o : Nat) (w : Word) : (d.wr l o w).xlB = d.xlB := rfl
@[simp] theorem Dev.wr_snaps (d : Dev) (l : Loc) (o : Nat) (w : Word) : (d.wr l o w).snaps = d.snaps := rfl
@[simp] theorem Dev.wr_preds (d : Dev) (l : Loc) (o : Nat) (w : Word) : (d.wr l o w).preds = d.preds := rfl
@[simp] theorem Dev.wr_engines (d : Dev) (l : Loc) (o : Nat) (w : Word) : (d.wr l o w).engines = d.engines := rfl
@[simp] theorem Dev.wr_ctxs (d : Dev) (l : Loc) (o : Nat) (w : Word) : (d.wr l o w).ctxs = d.ctxs := rfl
@[simp] theorem Dev.wr_motifs (d : Dev) (l : Loc) (o : Nat) (w : Word) : (d.wr l o w).motifs = d.motifs := rfl
@[simp] theorem Dev.wr_staging (d : Dev) (l : Loc) (o : Nat) (w : Word) : (d.wr l o w).staging = d.staging := rfl
@[simp] theorem Dev.wr_mawIdx (d : Dev) (l : Loc) (o : Nat) (w : Word) : (d.wr l o w).mawIdx = d.mawIdx := rfl
@[simp] theorem Dev.wr_slots (d : Dev) (l : Loc) (o : Nat) (w : Word) : (d.wr l o w).slots = d.slots := rfl
@[simp] theorem Dev.wr_openRel (d : Dev) (l : Loc) (o : Nat) (w : Word) : (d.wr l o w).openRel = d.openRel := rfl
@[simp] theorem Dev.wr_pagesA (d : Dev) (l : Loc) (o : Nat) (w : Word) : (d.wr l o w).pagesA = d.pagesA := rfl
@[simp] theorem Dev.wr_pagesB (d : Dev) (l : Loc) (o : Nat) (w : Word) : (d.wr l o w).pagesB = d.pagesB := rfl
@[simp] theorem Dev.wr_harness (d : Dev) (l : Loc) (o : Nat) (w : Word) : (d.wr l o w).harness = d.harness := rfl
@[simp] theorem Dev.wr_chans (d : Dev) (l : Loc) (o : Nat) (w : Word) : (d.wr l o w).chans = d.chans := rfl
@[simp] theorem Dev.wr_scansA (d : Dev) (l : Loc) (o : Nat) (w : Word) : (d.wr l o w).scansA = d.scansA := rfl
@[simp] theorem Dev.wr_scansB (d : Dev) (l : Loc) (o : Nat) (w : Word) : (d.wr l o w).scansB = d.scansB := rfl
@[simp] theorem Dev.wr_seals (d : Dev) (l : Loc) (o : Nat) (w : Word) : (d.wr l o w).seals = d.seals := rfl
@[simp] theorem Dev.wr_ports (d : Dev) (l : Loc) (o : Nat) (w : Word) : (d.wr l o w).ports = d.ports := rfl
@[simp] theorem Dev.wr_pipes (d : Dev) (l : Loc) (o : Nat) (w : Word) : (d.wr l o w).pipes = d.pipes := rfl
@[simp] theorem Dev.wr_cxps (d : Dev) (l : Loc) (o : Nat) (w : Word) : (d.wr l o w).cxps = d.cxps := rfl
@[simp] theorem Dev.wr_bhist (d : Dev) (l : Loc) (o : Nat) (w : Word) : (d.wr l o w).bhist = d.bhist := rfl
@[simp] theorem Dev.wr_readData (d : Dev) (l : Loc) (o : Nat) (w : Word) : (d.wr l o w).readData = d.readData := rfl
@[simp] theorem Dev.wr_ptab (d : Dev) (l : Loc) (o : Nat) (w : Word) : (d.wr l o w).ptab = d.ptab := rfl
@[simp] theorem Dev.wr_ueLines (d : Dev) (l : Loc) (o : Nat) (w : Word) : (d.wr l o w).ueLines = d.ueLines := rfl
@[simp] theorem Dev.wr_ueWords (d : Dev) (l : Loc) (o : Nat) (w : Word) : (d.wr l o w).ueWords = d.ueWords := rfl
@[simp] theorem Dev.wr_prisms (d : Dev) (l : Loc) (o : Nat) (w : Word) : (d.wr l o w).prisms = d.prisms := rfl
@[simp] theorem Dev.wr_heads (d : Dev) (l : Loc) (o : Nat) (w : Word) : (d.wr l o w).heads = d.heads := rfl
@[simp] theorem Dev.wr_preLut (d : Dev) (l : Loc) (o : Nat) (w : Word) : (d.wr l o w).preLut = d.preLut := rfl
@[simp] theorem Dev.wr_postLut (d : Dev) (l : Loc) (o : Nat) (w : Word) : (d.wr l o w).postLut = d.postLut := rfl
@[simp] theorem Dev.wr_nvhs (d : Dev) (l : Loc) (o : Nat) (w : Word) : (d.wr l o w).nvhs = d.nvhs := rfl
@[simp] theorem Dev.wr_eccLog (d : Dev) (l : Loc) (o : Nat) (w : Word) : (d.wr l o w).eccLog = d.eccLog := rfl
@[simp] theorem Dev.wr_buckets (d : Dev) (l : Loc) (o : Nat) (w : Word) : (d.wr l o w).buckets = d.buckets := rfl
@[simp] theorem Dev.wr_ceWords (d : Dev) (l : Loc) (o : Nat) (w : Word) : (d.wr l o w).ceWords = d.ceWords := rfl
@[simp] theorem Dev.wr_esrcA (d : Dev) (l : Loc) (o : Nat) (w : Word) : (d.wr l o w).esrcA = d.esrcA := rfl
@[simp] theorem Dev.wr_esrcB (d : Dev) (l : Loc) (o : Nat) (w : Word) : (d.wr l o w).esrcB = d.esrcB := rfl
@[simp] theorem Dev.wr_kux (d : Dev) (l : Loc) (o : Nat) (w : Word) : (d.wr l o w).kux = d.kux := rfl
@[simp] theorem Dev.wr_pmem (d : Dev) (l : Loc) (o : Nat) (w : Word) : (d.wr l o w).pmem = d.pmem := rfl
@[simp] theorem Dev.wr_ucs (d : Dev) (l : Loc) (o : Nat) (w : Word) : (d.wr l o w).ucs = d.ucs := rfl
@[simp] theorem Dev.wr_svcLoading (d : Dev) (l : Loc) (o : Nat) (w : Word) : (d.wr l o w).svcLoading = d.svcLoading := rfl
@[simp] theorem Dev.wr_mboxes (d : Dev) (l : Loc) (o : Nat) (w : Word) : (d.wr l o w).mboxes = d.mboxes := rfl
@[simp] theorem Dev.wr_pads (d : Dev) (l : Loc) (o : Nat) (w : Word) : (d.wr l o w).pads = d.pads := rfl
@[simp] theorem Dev.wr_bankOff (d : Dev) (l : Loc) (o : Nat) (w : Word) : (d.wr l o w).bankOff = d.bankOff := rfl
@[simp] theorem Dev.wr_aud (d : Dev) (l : Loc) (o : Nat) (w : Word) : (d.wr l o w).aud = d.aud := rfl
@[simp] theorem Dev.wr_timers (d : Dev) (l : Loc) (o : Nat) (w : Word) : (d.wr l o w).timers = d.timers := rfl
@[simp] theorem Dev.wr_flash (d : Dev) (l : Loc) (o : Nat) (w : Word) : (d.wr l o w).flash = d.flash := rfl
@[simp] theorem Dev.wr_flashLen (d : Dev) (l : Loc) (o : Nat) (w : Word) : (d.wr l o w).flashLen = d.flashLen := rfl
@[simp] theorem Dev.wr_flOp (d : Dev) (l : Loc) (o : Nat) (w : Word) : (d.wr l o w).flOp = d.flOp := rfl
@[simp] theorem Dev.wr_otp (d : Dev) (l : Loc) (o : Nat) (w : Word) : (d.wr l o w).otp = d.otp := rfl
@[simp] theorem Dev.wr_otpRev (d : Dev) (l : Loc) (o : Nat) (w : Word) : (d.wr l o w).otpRev = d.otpRev := rfl
@[simp] theorem Dev.wr_otpOp (d : Dev) (l : Loc) (o : Nat) (w : Word) : (d.wr l o w).otpOp = d.otpOp := rfl
@[simp] theorem Dev.wr_atNonce (d : Dev) (l : Loc) (o : Nat) (w : Word) : (d.wr l o w).atNonce = d.atNonce := rfl
@[simp] theorem Dev.wr_meas (d : Dev) (l : Loc) (o : Nat) (w : Word) : (d.wr l o w).meas = d.meas := rfl
@[simp] theorem Dev.wr_dmas (d : Dev) (l : Loc) (o : Nat) (w : Word) : (d.wr l o w).dmas = d.dmas := rfl
@[simp] theorem Dev.wr_blt (d : Dev) (l : Loc) (o : Nat) (w : Word) : (d.wr l o w).blt = d.blt := rfl
@[simp] theorem Dev.wr_stopReqs (d : Dev) (l : Loc) (o : Nat) (w : Word) : (d.wr l o w).stopReqs = d.stopReqs := rfl
@[simp] theorem Dev.wr_svcUp (d : Dev) (l : Loc) (o : Nat) (w : Word) : (d.wr l o w).svcUp = d.svcUp := rfl
@[simp] theorem Dev.wr_asks (d : Dev) (l : Loc) (o : Nat) (w : Word) : (d.wr l o w).asks = d.asks := rfl
@[simp] theorem Dev.p_shadow (d : Dev) (l : Loc) (x : Fld) (v : Nat) : (d.p l x v).shadow = d.shadow := rfl
@[simp] theorem Dev.p_views (d : Dev) (l : Loc) (x : Fld) (v : Nat) : (d.p l x v).views = d.views := rfl
@[simp] theorem Dev.p_csels (d : Dev) (l : Loc) (x : Fld) (v : Nat) : (d.p l x v).csels = d.csels := rfl
@[simp] theorem Dev.p_latched (d : Dev) (l : Loc) (x : Fld) (v : Nat) : (d.p l x v).latched = d.latched := rfl
@[simp] theorem Dev.p_tbA (d : Dev) (l : Loc) (x : Fld) (v : Nat) : (d.p l x v).tbA = d.tbA := rfl
@[simp] theorem Dev.p_tbB (d : Dev) (l : Loc) (x : Fld) (v : Nat) : (d.p l x v).tbB = d.tbB := rfl
@[simp] theorem Dev.p_tbS (d : Dev) (l : Loc) (x : Fld) (v : Nat) : (d.p l x v).tbS = d.tbS := rfl
@[simp] theorem Dev.p_tickA (d : Dev) (l : Loc) (x : Fld) (v : Nat) : (d.p l x v).tickA = d.tickA := rfl
@[simp] theorem Dev.p_tickB (d : Dev) (l : Loc) (x : Fld) (v : Nat) : (d.p l x v).tickB = d.tickB := rfl
@[simp] theorem Dev.p_reports (d : Dev) (l : Loc) (x : Fld) (v : Nat) : (d.p l x v).reports = d.reports := rfl
@[simp] theorem Dev.p_freeCount (d : Dev) (l : Loc) (x : Fld) (v : Nat) : (d.p l x v).freeCount = d.freeCount := rfl
@[simp] theorem Dev.p_evcTab (d : Dev) (l : Loc) (x : Fld) (v : Nat) : (d.p l x v).evcTab = d.evcTab := rfl
@[simp] theorem Dev.p_lines (d : Dev) (l : Loc) (x : Fld) (v : Nat) : (d.p l x v).lines = d.lines := rfl
@[simp] theorem Dev.p_inService (d : Dev) (l : Loc) (x : Fld) (v : Nat) : (d.p l x v).inService = d.inService := rfl
@[simp] theorem Dev.p_lastMsg (d : Dev) (l : Loc) (x : Fld) (v : Nat) : (d.p l x v).lastMsg = d.lastMsg := rfl
@[simp] theorem Dev.p_msix (d : Dev) (l : Loc) (x : Fld) (v : Nat) : (d.p l x v).msix = d.msix := rfl
@[simp] theorem Dev.p_outs (d : Dev) (l : Loc) (x : Fld) (v : Nat) : (d.p l x v).outs = d.outs := rfl
@[simp] theorem Dev.p_caBad (d : Dev) (l : Loc) (x : Fld) (v : Nat) : (d.p l x v).caBad = d.caBad := rfl
@[simp] theorem Dev.p_leaks (d : Dev) (l : Loc) (x : Fld) (v : Nat) : (d.p l x v).leaks = d.leaks := rfl
@[simp] theorem Dev.p_decBy (d : Dev) (l : Loc) (x : Fld) (v : Nat) : (d.p l x v).decBy = d.decBy := rfl
@[simp] theorem Dev.p_kip (d : Dev) (l : Loc) (x : Fld) (v : Nat) : (d.p l x v).kip = d.kip := rfl
@[simp] theorem Dev.p_beams (d : Dev) (l : Loc) (x : Fld) (v : Nat) : (d.p l x v).beams = d.beams := rfl
@[simp] theorem Dev.p_xqA (d : Dev) (l : Loc) (x : Fld) (v : Nat) : (d.p l x v).xqA = d.xqA := rfl
@[simp] theorem Dev.p_xqB (d : Dev) (l : Loc) (x : Fld) (v : Nat) : (d.p l x v).xqB = d.xqB := rfl
@[simp] theorem Dev.p_xlA (d : Dev) (l : Loc) (x : Fld) (v : Nat) : (d.p l x v).xlA = d.xlA := rfl
@[simp] theorem Dev.p_xlB (d : Dev) (l : Loc) (x : Fld) (v : Nat) : (d.p l x v).xlB = d.xlB := rfl
@[simp] theorem Dev.p_snaps (d : Dev) (l : Loc) (x : Fld) (v : Nat) : (d.p l x v).snaps = d.snaps := rfl
@[simp] theorem Dev.p_preds (d : Dev) (l : Loc) (x : Fld) (v : Nat) : (d.p l x v).preds = d.preds := rfl
@[simp] theorem Dev.p_engines (d : Dev) (l : Loc) (x : Fld) (v : Nat) : (d.p l x v).engines = d.engines := rfl
@[simp] theorem Dev.p_ctxs (d : Dev) (l : Loc) (x : Fld) (v : Nat) : (d.p l x v).ctxs = d.ctxs := rfl
@[simp] theorem Dev.p_motifs (d : Dev) (l : Loc) (x : Fld) (v : Nat) : (d.p l x v).motifs = d.motifs := rfl
@[simp] theorem Dev.p_staging (d : Dev) (l : Loc) (x : Fld) (v : Nat) : (d.p l x v).staging = d.staging := rfl
@[simp] theorem Dev.p_mawIdx (d : Dev) (l : Loc) (x : Fld) (v : Nat) : (d.p l x v).mawIdx = d.mawIdx := rfl
@[simp] theorem Dev.p_slots (d : Dev) (l : Loc) (x : Fld) (v : Nat) : (d.p l x v).slots = d.slots := rfl
@[simp] theorem Dev.p_openRel (d : Dev) (l : Loc) (x : Fld) (v : Nat) : (d.p l x v).openRel = d.openRel := rfl
@[simp] theorem Dev.p_pagesA (d : Dev) (l : Loc) (x : Fld) (v : Nat) : (d.p l x v).pagesA = d.pagesA := rfl
@[simp] theorem Dev.p_pagesB (d : Dev) (l : Loc) (x : Fld) (v : Nat) : (d.p l x v).pagesB = d.pagesB := rfl
@[simp] theorem Dev.p_harness (d : Dev) (l : Loc) (x : Fld) (v : Nat) : (d.p l x v).harness = d.harness := rfl
@[simp] theorem Dev.p_chans (d : Dev) (l : Loc) (x : Fld) (v : Nat) : (d.p l x v).chans = d.chans := rfl
@[simp] theorem Dev.p_scansA (d : Dev) (l : Loc) (x : Fld) (v : Nat) : (d.p l x v).scansA = d.scansA := rfl
@[simp] theorem Dev.p_scansB (d : Dev) (l : Loc) (x : Fld) (v : Nat) : (d.p l x v).scansB = d.scansB := rfl
@[simp] theorem Dev.p_seals (d : Dev) (l : Loc) (x : Fld) (v : Nat) : (d.p l x v).seals = d.seals := rfl
@[simp] theorem Dev.p_ports (d : Dev) (l : Loc) (x : Fld) (v : Nat) : (d.p l x v).ports = d.ports := rfl
@[simp] theorem Dev.p_pipes (d : Dev) (l : Loc) (x : Fld) (v : Nat) : (d.p l x v).pipes = d.pipes := rfl
@[simp] theorem Dev.p_cxps (d : Dev) (l : Loc) (x : Fld) (v : Nat) : (d.p l x v).cxps = d.cxps := rfl
@[simp] theorem Dev.p_bhist (d : Dev) (l : Loc) (x : Fld) (v : Nat) : (d.p l x v).bhist = d.bhist := rfl
@[simp] theorem Dev.p_readData (d : Dev) (l : Loc) (x : Fld) (v : Nat) : (d.p l x v).readData = d.readData := rfl
@[simp] theorem Dev.p_ptab (d : Dev) (l : Loc) (x : Fld) (v : Nat) : (d.p l x v).ptab = d.ptab := rfl
@[simp] theorem Dev.p_ueLines (d : Dev) (l : Loc) (x : Fld) (v : Nat) : (d.p l x v).ueLines = d.ueLines := rfl
@[simp] theorem Dev.p_ueWords (d : Dev) (l : Loc) (x : Fld) (v : Nat) : (d.p l x v).ueWords = d.ueWords := rfl
@[simp] theorem Dev.p_prisms (d : Dev) (l : Loc) (x : Fld) (v : Nat) : (d.p l x v).prisms = d.prisms := rfl
@[simp] theorem Dev.p_heads (d : Dev) (l : Loc) (x : Fld) (v : Nat) : (d.p l x v).heads = d.heads := rfl
@[simp] theorem Dev.p_preLut (d : Dev) (l : Loc) (x : Fld) (v : Nat) : (d.p l x v).preLut = d.preLut := rfl
@[simp] theorem Dev.p_postLut (d : Dev) (l : Loc) (x : Fld) (v : Nat) : (d.p l x v).postLut = d.postLut := rfl
@[simp] theorem Dev.p_nvhs (d : Dev) (l : Loc) (x : Fld) (v : Nat) : (d.p l x v).nvhs = d.nvhs := rfl
@[simp] theorem Dev.p_eccLog (d : Dev) (l : Loc) (x : Fld) (v : Nat) : (d.p l x v).eccLog = d.eccLog := rfl
@[simp] theorem Dev.p_buckets (d : Dev) (l : Loc) (x : Fld) (v : Nat) : (d.p l x v).buckets = d.buckets := rfl
@[simp] theorem Dev.p_ceWords (d : Dev) (l : Loc) (x : Fld) (v : Nat) : (d.p l x v).ceWords = d.ceWords := rfl
@[simp] theorem Dev.p_esrcA (d : Dev) (l : Loc) (x : Fld) (v : Nat) : (d.p l x v).esrcA = d.esrcA := rfl
@[simp] theorem Dev.p_esrcB (d : Dev) (l : Loc) (x : Fld) (v : Nat) : (d.p l x v).esrcB = d.esrcB := rfl
@[simp] theorem Dev.p_kux (d : Dev) (l : Loc) (x : Fld) (v : Nat) : (d.p l x v).kux = d.kux := rfl
@[simp] theorem Dev.p_pmem (d : Dev) (l : Loc) (x : Fld) (v : Nat) : (d.p l x v).pmem = d.pmem := rfl
@[simp] theorem Dev.p_ucs (d : Dev) (l : Loc) (x : Fld) (v : Nat) : (d.p l x v).ucs = d.ucs := rfl
@[simp] theorem Dev.p_svcLoading (d : Dev) (l : Loc) (x : Fld) (v : Nat) : (d.p l x v).svcLoading = d.svcLoading := rfl
@[simp] theorem Dev.p_mboxes (d : Dev) (l : Loc) (x : Fld) (v : Nat) : (d.p l x v).mboxes = d.mboxes := rfl
@[simp] theorem Dev.p_pads (d : Dev) (l : Loc) (x : Fld) (v : Nat) : (d.p l x v).pads = d.pads := rfl
@[simp] theorem Dev.p_bankOff (d : Dev) (l : Loc) (x : Fld) (v : Nat) : (d.p l x v).bankOff = d.bankOff := rfl
@[simp] theorem Dev.p_aud (d : Dev) (l : Loc) (x : Fld) (v : Nat) : (d.p l x v).aud = d.aud := rfl
@[simp] theorem Dev.p_timers (d : Dev) (l : Loc) (x : Fld) (v : Nat) : (d.p l x v).timers = d.timers := rfl
@[simp] theorem Dev.p_flash (d : Dev) (l : Loc) (x : Fld) (v : Nat) : (d.p l x v).flash = d.flash := rfl
@[simp] theorem Dev.p_flashLen (d : Dev) (l : Loc) (x : Fld) (v : Nat) : (d.p l x v).flashLen = d.flashLen := rfl
@[simp] theorem Dev.p_flOp (d : Dev) (l : Loc) (x : Fld) (v : Nat) : (d.p l x v).flOp = d.flOp := rfl
@[simp] theorem Dev.p_otp (d : Dev) (l : Loc) (x : Fld) (v : Nat) : (d.p l x v).otp = d.otp := rfl
@[simp] theorem Dev.p_otpRev (d : Dev) (l : Loc) (x : Fld) (v : Nat) : (d.p l x v).otpRev = d.otpRev := rfl
@[simp] theorem Dev.p_otpOp (d : Dev) (l : Loc) (x : Fld) (v : Nat) : (d.p l x v).otpOp = d.otpOp := rfl
@[simp] theorem Dev.p_atNonce (d : Dev) (l : Loc) (x : Fld) (v : Nat) : (d.p l x v).atNonce = d.atNonce := rfl
@[simp] theorem Dev.p_meas (d : Dev) (l : Loc) (x : Fld) (v : Nat) : (d.p l x v).meas = d.meas := rfl
@[simp] theorem Dev.p_dmas (d : Dev) (l : Loc) (x : Fld) (v : Nat) : (d.p l x v).dmas = d.dmas := rfl
@[simp] theorem Dev.p_blt (d : Dev) (l : Loc) (x : Fld) (v : Nat) : (d.p l x v).blt = d.blt := rfl
@[simp] theorem Dev.p_stopReqs (d : Dev) (l : Loc) (x : Fld) (v : Nat) : (d.p l x v).stopReqs = d.stopReqs := rfl
@[simp] theorem Dev.p_svcUp (d : Dev) (l : Loc) (x : Fld) (v : Nat) : (d.p l x v).svcUp = d.svcUp := rfl
@[simp] theorem Dev.p_asks (d : Dev) (l : Loc) (x : Fld) (v : Nat) : (d.p l x v).asks = d.asks := rfl
@[simp] theorem Dev.wrS_regs (d : Dev) (l : Loc) (o : Nat) (w : Word) : (d.wrS l o w).regs = d.regs := rfl
@[simp] theorem Dev.wrS_views (d : Dev) (l : Loc) (o : Nat) (w : Word) : (d.wrS l o w).views = d.views := rfl
@[simp] theorem Dev.wrS_csels (d : Dev) (l : Loc) (o : Nat) (w : Word) : (d.wrS l o w).csels = d.csels := rfl
@[simp] theorem Dev.wrS_latched (d : Dev) (l : Loc) (o : Nat) (w : Word) : (d.wrS l o w).latched = d.latched := rfl
@[simp] theorem Dev.wrS_tbA (d : Dev) (l : Loc) (o : Nat) (w : Word) : (d.wrS l o w).tbA = d.tbA := rfl
@[simp] theorem Dev.wrS_tbB (d : Dev) (l : Loc) (o : Nat) (w : Word) : (d.wrS l o w).tbB = d.tbB := rfl
@[simp] theorem Dev.wrS_tbS (d : Dev) (l : Loc) (o : Nat) (w : Word) : (d.wrS l o w).tbS = d.tbS := rfl
@[simp] theorem Dev.wrS_tickA (d : Dev) (l : Loc) (o : Nat) (w : Word) : (d.wrS l o w).tickA = d.tickA := rfl
@[simp] theorem Dev.wrS_tickB (d : Dev) (l : Loc) (o : Nat) (w : Word) : (d.wrS l o w).tickB = d.tickB := rfl
@[simp] theorem Dev.wrS_reports (d : Dev) (l : Loc) (o : Nat) (w : Word) : (d.wrS l o w).reports = d.reports := rfl
@[simp] theorem Dev.wrS_freeCount (d : Dev) (l : Loc) (o : Nat) (w : Word) : (d.wrS l o w).freeCount = d.freeCount := rfl
@[simp] theorem Dev.wrS_evcTab (d : Dev) (l : Loc) (o : Nat) (w : Word) : (d.wrS l o w).evcTab = d.evcTab := rfl
@[simp] theorem Dev.wrS_lines (d : Dev) (l : Loc) (o : Nat) (w : Word) : (d.wrS l o w).lines = d.lines := rfl
@[simp] theorem Dev.wrS_inService (d : Dev) (l : Loc) (o : Nat) (w : Word) : (d.wrS l o w).inService = d.inService := rfl
@[simp] theorem Dev.wrS_lastMsg (d : Dev) (l : Loc) (o : Nat) (w : Word) : (d.wrS l o w).lastMsg = d.lastMsg := rfl
@[simp] theorem Dev.wrS_msix (d : Dev) (l : Loc) (o : Nat) (w : Word) : (d.wrS l o w).msix = d.msix := rfl
@[simp] theorem Dev.wrS_outs (d : Dev) (l : Loc) (o : Nat) (w : Word) : (d.wrS l o w).outs = d.outs := rfl
@[simp] theorem Dev.wrS_caBad (d : Dev) (l : Loc) (o : Nat) (w : Word) : (d.wrS l o w).caBad = d.caBad := rfl
@[simp] theorem Dev.wrS_leaks (d : Dev) (l : Loc) (o : Nat) (w : Word) : (d.wrS l o w).leaks = d.leaks := rfl
@[simp] theorem Dev.wrS_decBy (d : Dev) (l : Loc) (o : Nat) (w : Word) : (d.wrS l o w).decBy = d.decBy := rfl
@[simp] theorem Dev.wrS_kip (d : Dev) (l : Loc) (o : Nat) (w : Word) : (d.wrS l o w).kip = d.kip := rfl
@[simp] theorem Dev.wrS_beams (d : Dev) (l : Loc) (o : Nat) (w : Word) : (d.wrS l o w).beams = d.beams := rfl
@[simp] theorem Dev.wrS_xqA (d : Dev) (l : Loc) (o : Nat) (w : Word) : (d.wrS l o w).xqA = d.xqA := rfl
@[simp] theorem Dev.wrS_xqB (d : Dev) (l : Loc) (o : Nat) (w : Word) : (d.wrS l o w).xqB = d.xqB := rfl
@[simp] theorem Dev.wrS_xlA (d : Dev) (l : Loc) (o : Nat) (w : Word) : (d.wrS l o w).xlA = d.xlA := rfl
@[simp] theorem Dev.wrS_xlB (d : Dev) (l : Loc) (o : Nat) (w : Word) : (d.wrS l o w).xlB = d.xlB := rfl
@[simp] theorem Dev.wrS_snaps (d : Dev) (l : Loc) (o : Nat) (w : Word) : (d.wrS l o w).snaps = d.snaps := rfl
@[simp] theorem Dev.wrS_preds (d : Dev) (l : Loc) (o : Nat) (w : Word) : (d.wrS l o w).preds = d.preds := rfl
@[simp] theorem Dev.wrS_engines (d : Dev) (l : Loc) (o : Nat) (w : Word) : (d.wrS l o w).engines = d.engines := rfl
@[simp] theorem Dev.wrS_ctxs (d : Dev) (l : Loc) (o : Nat) (w : Word) : (d.wrS l o w).ctxs = d.ctxs := rfl
@[simp] theorem Dev.wrS_motifs (d : Dev) (l : Loc) (o : Nat) (w : Word) : (d.wrS l o w).motifs = d.motifs := rfl
@[simp] theorem Dev.wrS_staging (d : Dev) (l : Loc) (o : Nat) (w : Word) : (d.wrS l o w).staging = d.staging := rfl
@[simp] theorem Dev.wrS_mawIdx (d : Dev) (l : Loc) (o : Nat) (w : Word) : (d.wrS l o w).mawIdx = d.mawIdx := rfl
@[simp] theorem Dev.wrS_slots (d : Dev) (l : Loc) (o : Nat) (w : Word) : (d.wrS l o w).slots = d.slots := rfl
@[simp] theorem Dev.wrS_openRel (d : Dev) (l : Loc) (o : Nat) (w : Word) : (d.wrS l o w).openRel = d.openRel := rfl
@[simp] theorem Dev.wrS_pagesA (d : Dev) (l : Loc) (o : Nat) (w : Word) : (d.wrS l o w).pagesA = d.pagesA := rfl
@[simp] theorem Dev.wrS_pagesB (d : Dev) (l : Loc) (o : Nat) (w : Word) : (d.wrS l o w).pagesB = d.pagesB := rfl
@[simp] theorem Dev.wrS_harness (d : Dev) (l : Loc) (o : Nat) (w : Word) : (d.wrS l o w).harness = d.harness := rfl
@[simp] theorem Dev.wrS_chans (d : Dev) (l : Loc) (o : Nat) (w : Word) : (d.wrS l o w).chans = d.chans := rfl
@[simp] theorem Dev.wrS_scansA (d : Dev) (l : Loc) (o : Nat) (w : Word) : (d.wrS l o w).scansA = d.scansA := rfl
@[simp] theorem Dev.wrS_scansB (d : Dev) (l : Loc) (o : Nat) (w : Word) : (d.wrS l o w).scansB = d.scansB := rfl
@[simp] theorem Dev.wrS_seals (d : Dev) (l : Loc) (o : Nat) (w : Word) : (d.wrS l o w).seals = d.seals := rfl
@[simp] theorem Dev.wrS_ports (d : Dev) (l : Loc) (o : Nat) (w : Word) : (d.wrS l o w).ports = d.ports := rfl
@[simp] theorem Dev.wrS_pipes (d : Dev) (l : Loc) (o : Nat) (w : Word) : (d.wrS l o w).pipes = d.pipes := rfl
@[simp] theorem Dev.wrS_cxps (d : Dev) (l : Loc) (o : Nat) (w : Word) : (d.wrS l o w).cxps = d.cxps := rfl
@[simp] theorem Dev.wrS_bhist (d : Dev) (l : Loc) (o : Nat) (w : Word) : (d.wrS l o w).bhist = d.bhist := rfl
@[simp] theorem Dev.wrS_readData (d : Dev) (l : Loc) (o : Nat) (w : Word) : (d.wrS l o w).readData = d.readData := rfl
@[simp] theorem Dev.wrS_ptab (d : Dev) (l : Loc) (o : Nat) (w : Word) : (d.wrS l o w).ptab = d.ptab := rfl
@[simp] theorem Dev.wrS_ueLines (d : Dev) (l : Loc) (o : Nat) (w : Word) : (d.wrS l o w).ueLines = d.ueLines := rfl
@[simp] theorem Dev.wrS_ueWords (d : Dev) (l : Loc) (o : Nat) (w : Word) : (d.wrS l o w).ueWords = d.ueWords := rfl
@[simp] theorem Dev.wrS_prisms (d : Dev) (l : Loc) (o : Nat) (w : Word) : (d.wrS l o w).prisms = d.prisms := rfl
@[simp] theorem Dev.wrS_heads (d : Dev) (l : Loc) (o : Nat) (w : Word) : (d.wrS l o w).heads = d.heads := rfl
@[simp] theorem Dev.wrS_preLut (d : Dev) (l : Loc) (o : Nat) (w : Word) : (d.wrS l o w).preLut = d.preLut := rfl
@[simp] theorem Dev.wrS_postLut (d : Dev) (l : Loc) (o : Nat) (w : Word) : (d.wrS l o w).postLut = d.postLut := rfl
@[simp] theorem Dev.wrS_nvhs (d : Dev) (l : Loc) (o : Nat) (w : Word) : (d.wrS l o w).nvhs = d.nvhs := rfl
@[simp] theorem Dev.wrS_eccLog (d : Dev) (l : Loc) (o : Nat) (w : Word) : (d.wrS l o w).eccLog = d.eccLog := rfl
@[simp] theorem Dev.wrS_buckets (d : Dev) (l : Loc) (o : Nat) (w : Word) : (d.wrS l o w).buckets = d.buckets := rfl
@[simp] theorem Dev.wrS_ceWords (d : Dev) (l : Loc) (o : Nat) (w : Word) : (d.wrS l o w).ceWords = d.ceWords := rfl
@[simp] theorem Dev.wrS_esrcA (d : Dev) (l : Loc) (o : Nat) (w : Word) : (d.wrS l o w).esrcA = d.esrcA := rfl
@[simp] theorem Dev.wrS_esrcB (d : Dev) (l : Loc) (o : Nat) (w : Word) : (d.wrS l o w).esrcB = d.esrcB := rfl
@[simp] theorem Dev.wrS_kux (d : Dev) (l : Loc) (o : Nat) (w : Word) : (d.wrS l o w).kux = d.kux := rfl
@[simp] theorem Dev.wrS_pmem (d : Dev) (l : Loc) (o : Nat) (w : Word) : (d.wrS l o w).pmem = d.pmem := rfl
@[simp] theorem Dev.wrS_ucs (d : Dev) (l : Loc) (o : Nat) (w : Word) : (d.wrS l o w).ucs = d.ucs := rfl
@[simp] theorem Dev.wrS_svcLoading (d : Dev) (l : Loc) (o : Nat) (w : Word) : (d.wrS l o w).svcLoading = d.svcLoading := rfl
@[simp] theorem Dev.wrS_mboxes (d : Dev) (l : Loc) (o : Nat) (w : Word) : (d.wrS l o w).mboxes = d.mboxes := rfl
@[simp] theorem Dev.wrS_pads (d : Dev) (l : Loc) (o : Nat) (w : Word) : (d.wrS l o w).pads = d.pads := rfl
@[simp] theorem Dev.wrS_bankOff (d : Dev) (l : Loc) (o : Nat) (w : Word) : (d.wrS l o w).bankOff = d.bankOff := rfl
@[simp] theorem Dev.wrS_aud (d : Dev) (l : Loc) (o : Nat) (w : Word) : (d.wrS l o w).aud = d.aud := rfl
@[simp] theorem Dev.wrS_timers (d : Dev) (l : Loc) (o : Nat) (w : Word) : (d.wrS l o w).timers = d.timers := rfl
@[simp] theorem Dev.wrS_flash (d : Dev) (l : Loc) (o : Nat) (w : Word) : (d.wrS l o w).flash = d.flash := rfl
@[simp] theorem Dev.wrS_flashLen (d : Dev) (l : Loc) (o : Nat) (w : Word) : (d.wrS l o w).flashLen = d.flashLen := rfl
@[simp] theorem Dev.wrS_flOp (d : Dev) (l : Loc) (o : Nat) (w : Word) : (d.wrS l o w).flOp = d.flOp := rfl
@[simp] theorem Dev.wrS_otp (d : Dev) (l : Loc) (o : Nat) (w : Word) : (d.wrS l o w).otp = d.otp := rfl
@[simp] theorem Dev.wrS_otpRev (d : Dev) (l : Loc) (o : Nat) (w : Word) : (d.wrS l o w).otpRev = d.otpRev := rfl
@[simp] theorem Dev.wrS_otpOp (d : Dev) (l : Loc) (o : Nat) (w : Word) : (d.wrS l o w).otpOp = d.otpOp := rfl
@[simp] theorem Dev.wrS_atNonce (d : Dev) (l : Loc) (o : Nat) (w : Word) : (d.wrS l o w).atNonce = d.atNonce := rfl
@[simp] theorem Dev.wrS_meas (d : Dev) (l : Loc) (o : Nat) (w : Word) : (d.wrS l o w).meas = d.meas := rfl
@[simp] theorem Dev.wrS_dmas (d : Dev) (l : Loc) (o : Nat) (w : Word) : (d.wrS l o w).dmas = d.dmas := rfl
@[simp] theorem Dev.wrS_blt (d : Dev) (l : Loc) (o : Nat) (w : Word) : (d.wrS l o w).blt = d.blt := rfl
@[simp] theorem Dev.wrS_stopReqs (d : Dev) (l : Loc) (o : Nat) (w : Word) : (d.wrS l o w).stopReqs = d.stopReqs := rfl
@[simp] theorem Dev.wrS_svcUp (d : Dev) (l : Loc) (o : Nat) (w : Word) : (d.wrS l o w).svcUp = d.svcUp := rfl
@[simp] theorem Dev.wrS_asks (d : Dev) (l : Loc) (o : Nat) (w : Word) : (d.wrS l o w).asks = d.asks := rfl

/-! ### Counters are writes of one register -/

theorem Dev.sat_eq (d : Dev) (l : Loc) (f : Fld) (n : Nat) : d.sat l f n = d.p l f (min (d.g l f + n) (2 ^ f.w - 1)) := rfl
theorem Dev.wrap_eq (d : Dev) (l : Loc) (f : Fld) (n : Nat) : d.wrap l f n = d.p l f (d.g l f + n) := rfl
theorem Dev.maxF_eq (d : Dev) (l : Loc) (f : Fld) (v : Nat) : d.maxF l f v = d.p l f (max (d.g l f) (min v (2 ^ f.w - 1))) := rfl

/-! ### The time bases -/

@[simp] theorem Dev.setTb_same (d : Dev) (h : Half) (v : Nat) : (d.setTb h v).tb h = v % 2 ^ 64 := by cases h <;> rfl
@[simp] theorem Dev.setTb_peer (d : Dev) (h : Half) (v : Nat) : (d.setTb h v).tb h.peer = d.tb h.peer := by cases h <;> rfl

end Sys2Proof.Machine
end

