-- ==== Sys2Proof/Laws/Fields.lean ====
section
/-! SUPPORT. Laws of register fields: reading a field after a write of a field. -/
namespace Sys2Proof.Machine

open Sys2Proof

/-- A part below bit `a` and a field of `b` bits above it stay below bit `a + b`. -/
theorem two_parts_lt {x y a b : Nat} (hx : x < 2 ^ a) (hy : y < 2 ^ b) : x + y * 2 ^ a < 2 ^ (a + b) := by
  have : (y + 1) * 2 ^ a ≤ 2 ^ b * 2 ^ a := Nat.mul_le_mul_right _ hy
  rw [Nat.add_mul] at this
  rw [Nat.pow_add, Nat.mul_comm (2 ^ a)]
  omega

theorem fget_lt (f : Fld) (w : Word) : fget f w < 2 ^ f.w := Nat.mod_lt _ (Nat.two_pow_pos _)

/-- The number of a word with one field replaced, in three parts: below, the field, above. -/
theorem fput_toNat (f : Fld) (v : Nat) (w : Word) (hw : f.lo + f.w ≤ 32) :
    (fput f v w).toNat = w.toNat % 2 ^ f.lo + v % 2 ^ f.w * 2 ^ f.lo + w.toNat / 2 ^ (f.lo + f.w) * 2 ^ (f.lo + f.w) := by
  unfold fput fget
  rw [BitVec.toNat_ofNat]
  have h1 : w.toNat = w.toNat % 2 ^ f.lo + w.toNat / 2 ^ f.lo % 2 ^ f.w * 2 ^ f.lo + w.toNat / 2 ^ (f.lo + f.w) * 2 ^ (f.lo + f.w) := by
    have e1 := Nat.mod_add_div w.toNat (2 ^ f.lo)
    have e2 := Nat.mod_add_div (w.toNat / 2 ^ f.lo) (2 ^ f.w)
    rw [Nat.div_div_eq_div_mul, ← Nat.pow_add] at e2
    calc w.toNat = w.toNat % 2 ^ f.lo + 2 ^ f.lo * (w.toNat / 2 ^ f.lo) := e1.symm
      _ = w.toNat % 2 ^ f.lo + 2 ^ f.lo * (w.toNat / 2 ^ f.lo % 2 ^ f.w + 2 ^ f.w * (w.toNat / 2 ^ (f.lo + f.w))) := by rw [e2]
      _ = _ := by rw [Nat.mul_add, ← Nat.mul_assoc, ← Nat.pow_add]; ring
  have hA := Nat.mod_lt w.toNat (Nat.two_pow_pos f.lo)
  have hV := Nat.mod_lt v (Nat.two_pow_pos f.w)
  have hlt : w.toNat % 2 ^ f.lo + v % 2 ^ f.w * 2 ^ f.lo + w.toNat / 2 ^ (f.lo + f.w) * 2 ^ (f.lo + f.w) < 2 ^ 32 := by
    have hT : w.toNat / 2 ^ (f.lo + f.w) < 2 ^ (32 - (f.lo + f.w)) := by
      rw [Nat.div_lt_iff_lt_mul (Nat.two_pow_pos _), ← Nat.pow_add]
      have : 32 - (f.lo + f.w) + (f.lo + f.w) = 32 := by omega
      rw [this]; exact w.isLt
    have h2 : w.toNat % 2 ^ f.lo + v % 2 ^ f.w * 2 ^ f.lo < 2 ^ (f.lo + f.w) := two_parts_lt hA hV
    have h3 : (w.toNat / 2 ^ (f.lo + f.w) + 1) * 2 ^ (f.lo + f.w) ≤ 2 ^ 32 := by
      calc _ ≤ 2 ^ (32 - (f.lo + f.w)) * 2 ^ (f.lo + f.w) := Nat.mul_le_mul_right _ hT
        _ = 2 ^ 32 := by rw [← Nat.pow_add]; congr 1; omega
    rw [Nat.add_mul] at h3; omega
  have hE : w.toNat - w.toNat / 2 ^ f.lo % 2 ^ f.w * 2 ^ f.lo + v % 2 ^ f.w * 2 ^ f.lo
      = w.toNat % 2 ^ f.lo + v % 2 ^ f.w * 2 ^ f.lo + w.toNat / 2 ^ (f.lo + f.w) * 2 ^ (f.lo + f.w) := by
    generalize w.toNat / 2 ^ f.lo % 2 ^ f.w * 2 ^ f.lo = A at h1 ⊢
    omega
  rw [hE, Nat.mod_eq_of_lt hlt]

@[simp] theorem fget_fput_same (f : Fld) (v : Nat) (w : Word) (hw : f.lo + f.w ≤ 32) : fget f (fput f v w) = v % 2 ^ f.w := by
  have h := fput_toNat f v w hw
  unfold fget
  rw [h]
  have hA := Nat.mod_lt w.toNat (Nat.two_pow_pos f.lo)
  have e : w.toNat % 2 ^ f.lo + v % 2 ^ f.w * 2 ^ f.lo + w.toNat / 2 ^ (f.lo + f.w) * 2 ^ (f.lo + f.w)
      = w.toNat % 2 ^ f.lo + (v % 2 ^ f.w + w.toNat / 2 ^ (f.lo + f.w) * 2 ^ f.w) * 2 ^ f.lo := by
    rw [Nat.add_mul, Nat.mul_assoc, ← Nat.pow_add, Nat.add_comm f.w f.lo]; omega
  rw [e, Nat.add_mul_div_right _ _ (Nat.two_pow_pos _), Nat.div_eq_of_lt hA, Nat.zero_add, Nat.add_mul_mod_self_right, Nat.mod_mod]

/-- A write of one field leaves every field of other bits alone. -/
theorem fget_fput_ne (f g : Fld) (v : Nat) (w : Word) (hw : f.lo + f.w ≤ 32) (hd : g.lo + g.w ≤ f.lo ∨ f.lo + f.w ≤ g.lo) :
    fget g (fput f v w) = fget g w := by
  have h := fput_toNat f v w hw
  have hA := Nat.mod_lt w.toNat (Nat.two_pow_pos f.lo)
  have hV := Nat.mod_lt v (Nat.two_pow_pos f.w)
  unfold fget
  rcases hd with hd | hd
  · have key : ∀ x : Nat, x / 2 ^ g.lo % 2 ^ g.w = x % 2 ^ f.lo % 2 ^ (g.lo + g.w) / 2 ^ g.lo := by
      intro x
      rw [Nat.mod_mod_of_dvd _ (Nat.pow_dvd_pow 2 hd), Nat.pow_add, Nat.mod_mul_right_div_self]
    rw [key, key w.toNat, h]
    congr 2
    have e : w.toNat % 2 ^ f.lo + v % 2 ^ f.w * 2 ^ f.lo + w.toNat / 2 ^ (f.lo + f.w) * 2 ^ (f.lo + f.w)
        = w.toNat % 2 ^ f.lo + 2 ^ f.lo * (v % 2 ^ f.w + w.toNat / 2 ^ (f.lo + f.w) * 2 ^ f.w) := by
      rw [Nat.pow_add]; ring
    rw [e, Nat.add_mul_mod_self_left, Nat.mod_mod]
  · have h2 : w.toNat % 2 ^ f.lo + v % 2 ^ f.w * 2 ^ f.lo < 2 ^ (f.lo + f.w) := two_parts_lt hA hV
    have key : ∀ x : Nat, x / 2 ^ g.lo = x / 2 ^ (f.lo + f.w) / 2 ^ (g.lo - (f.lo + f.w)) := by
      intro x
      rw [Nat.div_div_eq_div_mul, ← Nat.pow_add]
      congr 2; omega
    rw [key, key w.toNat, h, Nat.add_mul_div_right _ _ (Nat.two_pow_pos _), Nat.div_eq_of_lt h2, Nat.zero_add]

/-! ### Fields of the active set -/

@[simp] theorem Dev.rd_wr_same (d : Dev) (l : Loc) (o : Nat) (w : Word) : (d.wr l o w).rd l o = w := by simp [Dev.rd, Dev.wr]
theorem Dev.rd_wr_ne (d : Dev) {l l' : Loc} {o o' : Nat} (w : Word) (h : l' + o' ≠ l + o) : (d.wr l o w).rd l' o' = d.rd l' o' := by
  simp [Dev.rd, Dev.wr, SMap.get_set_ne _ _ h]
@[simp] theorem Dev.rdS_wrS_same (d : Dev) (l : Loc) (o : Nat) (w : Word) : (d.wrS l o w).rdS l o = w := by simp [Dev.rdS, Dev.wrS]
@[simp] theorem Dev.rd_wrS (d : Dev) (l l' : Loc) (o o' : Nat) (w : Word) : (d.wrS l o w).rd l' o' = d.rd l' o' := rfl
@[simp] theorem Dev.rdS_wr (d : Dev) (l l' : Loc) (o o' : Nat) (w : Word) : (d.wr l o w).rdS l' o' = d.rdS l' o' := rfl
/-- A field reads as written, cut to its width. -/
theorem Dev.g_p_same (d : Dev) (l : Loc) (f : Fld) (v : Nat) (hw : f.lo + f.w ≤ 32) : (d.p l f v).g l f = v % 2 ^ f.w := by
  simp [Dev.g, Dev.p, hw]
/-- A write of a field of another register leaves a field alone. -/
theorem Dev.g_p_ne (d : Dev) {l l' : Loc} {f f' : Fld} (v : Nat) (h : l' + f'.off ≠ l + f.off) : (d.p l f v).g l' f' = d.g l' f' := by
  simp [Dev.g, Dev.p, Dev.rd_wr_ne _ _ h]
/-- A write of a field leaves a field of other bits of the same register alone. -/
theorem Dev.g_p_disj (d : Dev) (l : Loc) {f f' : Fld} (v : Nat) (ho : f'.off = f.off) (hw : f.lo + f.w ≤ 32)
    (hd : f'.lo + f'.w ≤ f.lo ∨ f.lo + f.w ≤ f'.lo) : (d.p l f v).g l f' = d.g l f' := by
  simp [Dev.g, Dev.p, ho, fget_fput_ne f f' v _ hw hd]
theorem Dev.rd_p_ne (d : Dev) {l l' : Loc} {f : Fld} {o : Nat} (v : Nat) (h : l' + o ≠ l + f.off) : (d.p l f v).rd l' o = d.rd l' o := by
  simp [Dev.p, Dev.rd_wr_ne _ _ h]
@[simp] theorem Dev.gS_p (d : Dev) (l l' : Loc) (f f' : Fld) (v : Nat) : (d.p l f v).gS l' f' = d.gS l' f' := rfl

end Sys2Proof.Machine
end

