-- ==== Sys2Proof/Laws/Events.lean ====
section
/-! SUPPORT. Laws of events: everything raising an event can change, said once. -/
namespace Sys2Proof.Machine

open Sys2Proof

/-! ### Frames compose -/

theorem Dev.onlyRegs_refl (ks : List Nat) (d : Dev) : d.onlyRegs ks d := ⟨rfl, fun _ _ _ => rfl⟩
theorem Dev.onlyRegs_trans {ks : List Nat} {d e f : Dev} (h1 : d.onlyRegs ks e) (h2 : e.onlyRegs ks f) : d.onlyRegs ks f :=
  ⟨h2.1.trans h1.1, fun k hk he => (h2.2 k hk he).trans (h1.2 k hk he)⟩
theorem Dev.onlyRegs_mono {ks ks' : List Nat} {d e : Dev} (hs : ∀ k ∈ ks, k ∈ ks') (h : d.onlyRegs ks e) : d.onlyRegs ks' e :=
  ⟨h.1, fun k hk he => h.2 k (fun hm => hk (hs k hm)) he⟩
theorem Dev.onlyRegs_wr (d : Dev) (l : Loc) (o : Nat) (w : Word) {ks : List Nat} (h : l + o ∈ ks ∨ evReg (l + o) = true) :
    d.onlyRegs ks (d.wr l o w) := by
  refine ⟨rfl, fun k hk he => ?_⟩
  refine SMap.get_set_ne _ _ ?_
  rintro rfl
  rcases h with h | h
  · exact hk h
  · simp [h] at he
theorem Dev.onlyRegs_p (d : Dev) (l : Loc) (f : Fld) (v : Nat) {ks : List Nat} (h : l + f.off ∈ ks ∨ evReg (l + f.off) = true) :
    d.onlyRegs ks (d.p l f v) := Dev.onlyRegs_wr d l f.off _ h
theorem Dev.onlyRegs_foldl {α : Type} {ks : List Nat} (f : Dev → α → Dev) (hf : ∀ (x : Dev) (a : α), x.onlyRegs ks (f x a)) (d : Dev) (xs : List α) :
    d.onlyRegs ks (xs.foldl f d) := by
  induction xs generalizing d with
  | nil => exact Dev.onlyRegs_refl ks d
  | cons a xs ih => exact Dev.onlyRegs_trans (hf d a) (ih (f d a))

/-! ### Delivery -/

theorem evReg_pba (h : Half) (v : Nat) : evReg (hLoc h .hif + (0xBF0 + 4 * (v % 64 / 32))) = true := by
  have hv : v % 64 / 32 = 0 ∨ v % 64 / 32 = 1 := by omega
  rcases hv with hv | hv <;> rw [hv] <;> cases h <;> decide

/-- Delivering a vector changes event delivery only. -/
theorem Dev.deliver_frame (d : Dev) (h : Half) (v : Nat) (ks : List Nat) : d.onlyRegs ks (d.deliver h (v % 64)) := by
  unfold Dev.deliver
  dsimp only
  split
  · exact Dev.onlyRegs_refl ks d
  · split
    · exact Dev.onlyRegs_wr d _ _ _ (.inr (evReg_pba h v))
    · split
      · exact Dev.onlyRegs_refl ks d
      · exact ⟨rfl, fun _ _ _ => rfl⟩

/-- A source's line taking a level changes event delivery only. -/
theorem Dev.setLine_frame (d : Dev) (src : Nat) (level : Bool) (ks : List Nat) : d.onlyRegs ks (d.setLine src level) := by
  unfold Dev.setLine
  dsimp only
  split
  · refine Dev.onlyRegs_trans (e := { d with lines := SMap.set (fun _ => false) d.lines src level }) ⟨rfl, fun _ _ _ => rfl⟩ ?_
    refine Dev.onlyRegs_foldl _ (fun x evc => ?_) _ _
    have hk : ∀ c m, x.onlyRegs ks (x.orKip evc c m) := fun _ _ => ⟨rfl, fun _ _ _ => rfl⟩
    split <;> split
    · exact Dev.onlyRegs_trans (hk _ _) (Dev.deliver_frame _ _ _ ks)
    · exact Dev.deliver_frame _ _ _ ks
    · exact hk _ _
    · exact Dev.onlyRegs_refl ks x
  · exact ⟨rfl, fun _ _ _ => rfl⟩

/-- A change of a page's event registers, with what its lines deliver. -/
theorem Dev.withLines_frame (d : Dev) (p : Nat) (f : Dev → Dev) (ks : List Nat) (hf : d.onlyRegs ks (f d)) : d.onlyRegs ks (d.withLines p f) := by
  unfold Dev.withLines
  refine Dev.onlyRegs_trans hf (Dev.onlyRegs_foldl _ (fun x sl => ?_) _ _)
  dsimp only
  split
  · exact Dev.onlyRegs_refl ks x
  · exact Dev.setLine_frame x _ _ ks

theorem evReg_raw {l : Loc} (h : l % 0x100000 = 0) : evReg (l + 0x014) = true := by
  have : (l + 0x014) % 0x100000 = 0x014 := by unfold Loc at *; omega
  simp [evReg, this]
theorem evReg_pend {l : Loc} (h : l % 0x100000 = 0) : evReg (l + 0x01C) = true := by
  have : (l + 0x01C) % 0x100000 = 0x01C := by unfold Loc at *; omega
  simp [evReg, this]
@[simp] theorem locOf_page (p : Nat) : locOf p % 0x100000 = 0 := Nat.mul_mod_left _ _
@[simp] theorem hLoc_page (h : Half) (b : Block) (i : Nat) : hLoc h b i % 0x100000 = 0 := Nat.mul_mod_left _ _
@[simp] theorem sLoc_page (b : Block) (i : Nat) : sLoc b i % 0x100000 = 0 := Nat.mul_mod_left _ _
@[simp] theorem rLoc_page (r : Nat) (b : Block) (i : Nat) : rLoc r b i % 0x100000 = 0 := Nat.mul_mod_left _ _

/-- Raising an event changes its page's raw and pending bits and event delivery, and nothing else. -/
theorem Dev.raise_frame (d : Dev) {l : Loc} (hl : l % 0x100000 = 0) (n : Nat) (ks : List Nat) : d.onlyRegs ks (d.raise l n) := by
  unfold Dev.raise
  split
  · exact Dev.onlyRegs_refl ks d
  · refine Dev.withLines_frame d _ _ ks ?_
    exact Dev.onlyRegs_trans (Dev.onlyRegs_wr d l _ _ (.inr (evReg_raw hl))) (Dev.onlyRegs_wr _ l _ _ (.inr (evReg_pend hl)))

/-- Clearing pending bits changes the page's raw and pending bits and event delivery, and nothing else. -/
theorem Dev.clearPend_frame (d : Dev) {l : Loc} (hl : l % 0x100000 = 0) (m : Word) (ks : List Nat) : d.onlyRegs ks (d.clearPend l m) := by
  unfold Dev.clearPend
  refine Dev.withLines_frame d _ _ ks ?_
  exact Dev.onlyRegs_trans (Dev.onlyRegs_wr d l _ _ (.inr (evReg_pend hl))) (Dev.onlyRegs_wr _ l _ _ (.inr (evReg_raw hl)))

/-- Raising an event leaves every other register's fields alone. -/
theorem Dev.g_raise (d : Dev) {l : Loc} (hl : l % 0x100000 = 0) (n : Nat) (l' : Loc) (f : Fld) (he : evReg (l' + f.off) = false) :
    (d.raise l n).g l' f = d.g l' f := by
  simp only [Dev.g, Dev.rd, (Dev.raise_frame d hl n []).2 _ (by simp) he]

/-! ### Raising an event sets its bits -/

/-- Delivery leaves every register but the pending words of the vectors alone. -/
theorem Dev.deliver_reg (d : Dev) (h : Half) (v k : Nat) (hk : k % 0x100000 < 0xBF0) :
    SMap.get regReset (d.deliver h (v % 64)).regs k = SMap.get regReset d.regs k := by
  unfold Dev.deliver
  dsimp only
  split
  · rfl
  · split
    · refine SMap.get_set_ne _ _ ?_
      have hv : v % 64 / 32 = 0 ∨ v % 64 / 32 = 1 := by omega
      have hp := hLoc_page h .hif 0
      have : (hLoc h .hif : Nat) % 0x100000 = 0 := hp
      unfold Loc at *
      omega
    · split <;> rfl

theorem Dev.reg_foldl {α : Type} (f : Dev → α → Dev) (k : Nat)
    (hf : ∀ (x : Dev) (a : α), SMap.get regReset (f x a).regs k = SMap.get regReset x.regs k) (d : Dev) (xs : List α) :
    SMap.get regReset (xs.foldl f d).regs k = SMap.get regReset d.regs k := by
  induction xs generalizing d with
  | nil => rfl
  | cons a xs ih => rw [List.foldl_cons, ih, hf]

theorem Dev.setLine_reg (d : Dev) (src : Nat) (level : Bool) (k : Nat) (hk : k % 0x100000 < 0xBF0) :
    SMap.get regReset (d.setLine src level).regs k = SMap.get regReset d.regs k := by
  unfold Dev.setLine
  dsimp only
  split
  · refine (Dev.reg_foldl _ k (fun x evc => ?_) _ _).trans rfl
    split <;> split
    · rw [Dev.deliver_reg _ _ _ _ hk]; rfl
    · rw [Dev.deliver_reg _ _ _ _ hk]
    · rfl
    · rfl
  · rfl

theorem Dev.withLines_reg (d : Dev) (p : Nat) (f : Dev → Dev) (k : Nat) (hk : k % 0x100000 < 0xBF0) :
    SMap.get regReset (d.withLines p f).regs k = SMap.get regReset (f d).regs k := by
  unfold Dev.withLines
  refine Dev.reg_foldl _ k (fun x sl => ?_) _ _
  dsimp only
  split
  · rfl
  · exact Dev.setLine_reg _ _ _ _ hk

theorem bit_or_two_pow (w : Word) {n : Nat} (hn : n < 32) : bit (w ||| BitVec.ofNat 32 (2 ^ n)).toNat n = true := by
  have h1 : (w ||| BitVec.ofNat 32 (2 ^ n)).toNat.testBit n = true := by
    rw [BitVec.toNat_or, Nat.testBit_or, BitVec.toNat_ofNat, Nat.mod_eq_of_lt (Nat.pow_lt_pow_right (by decide) hn),
      Nat.testBit_two_pow_self, Bool.or_true]
  simpa [bit, Nat.testBit_eq_decide_div_mod_eq] using h1

/-- Raising an event of a page whose clock runs sets its raw and pending bits. -/
theorem Dev.raise_raised (d : Dev) {l : Loc} (hl : l % 0x100000 = 0) {n : Nat} (hn : n < 32) (hc : d.clocked l = true) : (d.raise l n).raised l n := by
  have h0 : ¬ d.g l PG_CTL.ENABLE = 0 := by
    intro h0
    simp [Dev.clocked, Dev.on, h0] at hc
  have hl' : (l : Nat) % 0x100000 = 0 := hl
  have hr : ∀ o : Nat, o < 0xBF0 → (d.raise l n).rd l o =
      ((d.wr l 0x014 (d.rd l 0x014 ||| BitVec.ofNat 32 (2 ^ n))).wr l 0x01C
        ((d.wr l 0x014 (d.rd l 0x014 ||| BitVec.ofNat 32 (2 ^ n))).rd l 0x01C ||| BitVec.ofNat 32 (2 ^ n))).rd l o := by
    intro o ho
    unfold Dev.raise
    rw [if_neg h0]
    unfold Dev.rd
    rw [Dev.withLines_reg _ _ _ _ (by unfold Loc at *; omega)]
  constructor
  · rw [hr _ (by decide), Dev.rd_wr_ne _ _ (by unfold Loc at *; omega), Dev.rd_wr_same]
    exact bit_or_two_pow _ hn
  · rw [hr _ (by decide), Dev.rd_wr_same]
    exact bit_or_two_pow _ hn

/-! ### Raising an event leaves every unit's state alone, whatever the page -/

theorem Dev.setLine_quiet (d : Dev) (src : Nat) (level : Bool) : (d.setLine src level).quiet = d.quiet := (Dev.setLine_frame d src level []).1
theorem Dev.raise_quiet (d : Dev) (l : Loc) (n : Nat) : (d.raise l n).quiet = d.quiet := by
  unfold Dev.raise
  split
  · rfl
  · unfold Dev.withLines
    have gen : ∀ (xs : List (Nat × Nat)) (x : Dev), (xs.foldl (fun x sl => let lv := x.sourceLevel (l / 0x100000) sl.2
        if lv = x.asserted sl.1 then x else x.setLine sl.1 lv) x).quiet = x.quiet := by
      intro xs
      induction xs with
      | nil => intro x; rfl
      | cons a xs ih =>
        intro x
        rw [List.foldl_cons, ih]
        dsimp only
        split
        · rfl
        · exact Dev.setLine_quiet _ _ _
    rw [gen]
    rfl
@[simp] theorem Dev.raise_shadow (d : Dev) (l : Loc) (n : Nat) : (d.raise l n).shadow = d.shadow := by
  have h := congrArg Dev.shadow (Dev.raise_quiet d l n); simpa [Dev.quiet] using h
@[simp] theorem Dev.raise_views (d : Dev) (l : Loc) (n : Nat) : (d.raise l n).views = d.views := by
  have h := congrArg Dev.views (Dev.raise_quiet d l n); simpa [Dev.quiet] using h
@[simp] theorem Dev.raise_csels (d : Dev) (l : Loc) (n : Nat) : (d.raise l n).csels = d.csels := by
  have h := congrArg Dev.csels (Dev.raise_quiet d l n); simpa [Dev.quiet] using h
@[simp] theorem Dev.raise_latched (d : Dev) (l : Loc) (n : Nat) : (d.raise l n).latched = d.latched := by
  have h := congrArg Dev.latched (Dev.raise_quiet d l n); simpa [Dev.quiet] using h
@[simp] theorem Dev.raise_tbA (d : Dev) (l : Loc) (n : Nat) : (d.raise l n).tbA = d.tbA := by
  have h := congrArg Dev.tbA (Dev.raise_quiet d l n); simpa [Dev.quiet] using h
@[simp] theorem Dev.raise_tbB (d : Dev) (l : Loc) (n : Nat) : (d.raise l n).tbB = d.tbB := by
  have h := congrArg Dev.tbB (Dev.raise_quiet d l n); simpa [Dev.quiet] using h
@[simp] theorem Dev.raise_tbS (d : Dev) (l : Loc) (n : Nat) : (d.raise l n).tbS = d.tbS := by
  have h := congrArg Dev.tbS (Dev.raise_quiet d l n); simpa [Dev.quiet] using h
@[simp] theorem Dev.raise_tickA (d : Dev) (l : Loc) (n : Nat) : (d.raise l n).tickA = d.tickA := by
  have h := congrArg Dev.tickA (Dev.raise_quiet d l n); simpa [Dev.quiet] using h
@[simp] theorem Dev.raise_tickB (d : Dev) (l : Loc) (n : Nat) : (d.raise l n).tickB = d.tickB := by
  have h := congrArg Dev.tickB (Dev.raise_quiet d l n); simpa [Dev.quiet] using h
@[simp] theorem Dev.raise_reports (d : Dev) (l : Loc) (n : Nat) : (d.raise l n).reports = d.reports := by
  have h := congrArg Dev.reports (Dev.raise_quiet d l n); simpa [Dev.quiet] using h
@[simp] theorem Dev.raise_freeCount (d : Dev) (l : Loc) (n : Nat) : (d.raise l n).freeCount = d.freeCount := by
  have h := congrArg Dev.freeCount (Dev.raise_quiet d l n); simpa [Dev.quiet] using h
@[simp] theorem Dev.raise_evcTab (d : Dev) (l : Loc) (n : Nat) : (d.raise l n).evcTab = d.evcTab := by
  have h := congrArg Dev.evcTab (Dev.raise_quiet d l n); simpa [Dev.quiet] using h
@[simp] theorem Dev.raise_beams (d : Dev) (l : Loc) (n : Nat) : (d.raise l n).beams = d.beams := by
  have h := congrArg Dev.beams (Dev.raise_quiet d l n); simpa [Dev.quiet] using h
@[simp] theorem Dev.raise_xqA (d : Dev) (l : Loc) (n : Nat) : (d.raise l n).xqA = d.xqA := by
  have h := congrArg Dev.xqA (Dev.raise_quiet d l n); simpa [Dev.quiet] using h
@[simp] theorem Dev.raise_xqB (d : Dev) (l : Loc) (n : Nat) : (d.raise l n).xqB = d.xqB := by
  have h := congrArg Dev.xqB (Dev.raise_quiet d l n); simpa [Dev.quiet] using h
@[simp] theorem Dev.raise_xlA (d : Dev) (l : Loc) (n : Nat) : (d.raise l n).xlA = d.xlA := by
  have h := congrArg Dev.xlA (Dev.raise_quiet d l n); simpa [Dev.quiet] using h
@[simp] theorem Dev.raise_xlB (d : Dev) (l : Loc) (n : Nat) : (d.raise l n).xlB = d.xlB := by
  have h := congrArg Dev.xlB (Dev.raise_quiet d l n); simpa [Dev.quiet] using h
@[simp] theorem Dev.raise_snaps (d : Dev) (l : Loc) (n : Nat) : (d.raise l n).snaps = d.snaps := by
  have h := congrArg Dev.snaps (Dev.raise_quiet d l n); simpa [Dev.quiet] using h
@[simp] theorem Dev.raise_preds (d : Dev) (l : Loc) (n : Nat) : (d.raise l n).preds = d.preds := by
  have h := congrArg Dev.preds (Dev.raise_quiet d l n); simpa [Dev.quiet] using h
@[simp] theorem Dev.raise_engines (d : Dev) (l : Loc) (n : Nat) : (d.raise l n).engines = d.engines := by
  have h := congrArg Dev.engines (Dev.raise_quiet d l n); simpa [Dev.quiet] using h
@[simp] theorem Dev.raise_ctxs (d : Dev) (l : Loc) (n : Nat) : (d.raise l n).ctxs = d.ctxs := by
  have h := congrArg Dev.ctxs (Dev.raise_quiet d l n); simpa [Dev.quiet] using h
@[simp] theorem Dev.raise_motifs (d : Dev) (l : Loc) (n : Nat) : (d.raise l n).motifs = d.motifs := by
  have h := congrArg Dev.motifs (Dev.raise_quiet d l n); simpa [Dev.quiet] using h
@[simp] theorem Dev.raise_staging (d : Dev) (l : Loc) (n : Nat) : (d.raise l n).staging = d.staging := by
  have h := congrArg Dev.staging (Dev.raise_quiet d l n); simpa [Dev.quiet] using h
@[simp] theorem Dev.raise_mawIdx (d : Dev) (l : Loc) (n : Nat) : (d.raise l n).mawIdx = d.mawIdx := by
  have h := congrArg Dev.mawIdx (Dev.raise_quiet d l n); simpa [Dev.quiet] using h
@[simp] theorem Dev.raise_slots (d : Dev) (l : Loc) (n : Nat) : (d.raise l n).slots = d.slots := by
  have h := congrArg Dev.slots (Dev.raise_quiet d l n); simpa [Dev.quiet] using h
@[simp] theorem Dev.raise_openRel (d : Dev) (l : Loc) (n : Nat) : (d.raise l n).openRel = d.openRel := by
  have h := congrArg Dev.openRel (Dev.raise_quiet d l n); simpa [Dev.quiet] using h
@[simp] theorem Dev.raise_pagesA (d : Dev) (l : Loc) (n : Nat) : (d.raise l n).pagesA = d.pagesA := by
  have h := congrArg Dev.pagesA (Dev.raise_quiet d l n); simpa [Dev.quiet] using h
@[simp] theorem Dev.raise_pagesB (d : Dev) (l : Loc) (n : Nat) : (d.raise l n).pagesB = d.pagesB := by
  have h := congrArg Dev.pagesB (Dev.raise_quiet d l n); simpa [Dev.quiet] using h
@[simp] theorem Dev.raise_harness (d : Dev) (l : Loc) (n : Nat) : (d.raise l n).harness = d.harness := by
  have h := congrArg Dev.harness (Dev.raise_quiet d l n); simpa [Dev.quiet] using h
@[simp] theorem Dev.raise_chans (d : Dev) (l : Loc) (n : Nat) : (d.raise l n).chans = d.chans := by
  have h := congrArg Dev.chans (Dev.raise_quiet d l n); simpa [Dev.quiet] using h
@[simp] theorem Dev.raise_scansA (d : Dev) (l : Loc) (n : Nat) : (d.raise l n).scansA = d.scansA := by
  have h := congrArg Dev.scansA (Dev.raise_quiet d l n); simpa [Dev.quiet] using h
@[simp] theorem Dev.raise_scansB (d : Dev) (l : Loc) (n : Nat) : (d.raise l n).scansB = d.scansB := by
  have h := congrArg Dev.scansB (Dev.raise_quiet d l n); simpa [Dev.quiet] using h
@[simp] theorem Dev.raise_seals (d : Dev) (l : Loc) (n : Nat) : (d.raise l n).seals = d.seals := by
  have h := congrArg Dev.seals (Dev.raise_quiet d l n); simpa [Dev.quiet] using h
@[simp] theorem Dev.raise_ports (d : Dev) (l : Loc) (n : Nat) : (d.raise l n).ports = d.ports := by
  have h := congrArg Dev.ports (Dev.raise_quiet d l n); simpa [Dev.quiet] using h
@[simp] theorem Dev.raise_pipes (d : Dev) (l : Loc) (n : Nat) : (d.raise l n).pipes = d.pipes := by
  have h := congrArg Dev.pipes (Dev.raise_quiet d l n); simpa [Dev.quiet] using h
@[simp] theorem Dev.raise_cxps (d : Dev) (l : Loc) (n : Nat) : (d.raise l n).cxps = d.cxps := by
  have h := congrArg Dev.cxps (Dev.raise_quiet d l n); simpa [Dev.quiet] using h
@[simp] theorem Dev.raise_bhist (d : Dev) (l : Loc) (n : Nat) : (d.raise l n).bhist = d.bhist := by
  have h := congrArg Dev.bhist (Dev.raise_quiet d l n); simpa [Dev.quiet] using h
@[simp] theorem Dev.raise_readData (d : Dev) (l : Loc) (n : Nat) : (d.raise l n).readData = d.readData := by
  have h := congrArg Dev.readData (Dev.raise_quiet d l n); simpa [Dev.quiet] using h
@[simp] theorem Dev.raise_ptab (d : Dev) (l : Loc) (n : Nat) : (d.raise l n).ptab = d.ptab := by
  have h := congrArg Dev.ptab (Dev.raise_quiet d l n); simpa [Dev.quiet] using h
@[simp] theorem Dev.raise_ueLines (d : Dev) (l : Loc) (n : Nat) : (d.raise l n).ueLines = d.ueLines := by
  have h := congrArg Dev.ueLines (Dev.raise_quiet d l n); simpa [Dev.quiet] using h
@[simp] theorem Dev.raise_ueWords (d : Dev) (l : Loc) (n : Nat) : (d.raise l n).ueWords = d.ueWords := by
  have h := congrArg Dev.ueWords (Dev.raise_quiet d l n); simpa [Dev.quiet] using h
@[simp] theorem Dev.raise_prisms (d : Dev) (l : Loc) (n : Nat) : (d.raise l n).prisms = d.prisms := by
  have h := congrArg Dev.prisms (Dev.raise_quiet d l n); simpa [Dev.quiet] using h
@[simp] theorem Dev.raise_heads (d : Dev) (l : Loc) (n : Nat) : (d.raise l n).heads = d.heads := by
  have h := congrArg Dev.heads (Dev.raise_quiet d l n); simpa [Dev.quiet] using h
@[simp] theorem Dev.raise_preLut (d : Dev) (l : Loc) (n : Nat) : (d.raise l n).preLut = d.preLut := by
  have h := congrArg Dev.preLut (Dev.raise_quiet d l n); simpa [Dev.quiet] using h
@[simp] theorem Dev.raise_postLut (d : Dev) (l : Loc) (n : Nat) : (d.raise l n).postLut = d.postLut := by
  have h := congrArg Dev.postLut (Dev.raise_quiet d l n); simpa [Dev.quiet] using h
@[simp] theorem Dev.raise_nvhs (d : Dev) (l : Loc) (n : Nat) : (d.raise l n).nvhs = d.nvhs := by
  have h := congrArg Dev.nvhs (Dev.raise_quiet d l n); simpa [Dev.quiet] using h
@[simp] theorem Dev.raise_eccLog (d : Dev) (l : Loc) (n : Nat) : (d.raise l n).eccLog = d.eccLog := by
  have h := congrArg Dev.eccLog (Dev.raise_quiet d l n); simpa [Dev.quiet] using h
@[simp] theorem Dev.raise_buckets (d : Dev) (l : Loc) (n : Nat) : (d.raise l n).buckets = d.buckets := by
  have h := congrArg Dev.buckets (Dev.raise_quiet d l n); simpa [Dev.quiet] using h
@[simp] theorem Dev.raise_ceWords (d : Dev) (l : Loc) (n : Nat) : (d.raise l n).ceWords = d.ceWords := by
  have h := congrArg Dev.ceWords (Dev.raise_quiet d l n); simpa [Dev.quiet] using h
@[simp] theorem Dev.raise_esrcA (d : Dev) (l : Loc) (n : Nat) : (d.raise l n).esrcA = d.esrcA := by
  have h := congrArg Dev.esrcA (Dev.raise_quiet d l n); simpa [Dev.quiet] using h
@[simp] theorem Dev.raise_esrcB (d : Dev) (l : Loc) (n : Nat) : (d.raise l n).esrcB = d.esrcB := by
  have h := congrArg Dev.esrcB (Dev.raise_quiet d l n); simpa [Dev.quiet] using h
@[simp] theorem Dev.raise_kux (d : Dev) (l : Loc) (n : Nat) : (d.raise l n).kux = d.kux := by
  have h := congrArg Dev.kux (Dev.raise_quiet d l n); simpa [Dev.quiet] using h
@[simp] theorem Dev.raise_pmem (d : Dev) (l : Loc) (n : Nat) : (d.raise l n).pmem = d.pmem := by
  have h := congrArg Dev.pmem (Dev.raise_quiet d l n); simpa [Dev.quiet] using h
@[simp] theorem Dev.raise_ucs (d : Dev) (l : Loc) (n : Nat) : (d.raise l n).ucs = d.ucs := by
  have h := congrArg Dev.ucs (Dev.raise_quiet d l n); simpa [Dev.quiet] using h
@[simp] theorem Dev.raise_svcLoading (d : Dev) (l : Loc) (n : Nat) : (d.raise l n).svcLoading = d.svcLoading := by
  have h := congrArg Dev.svcLoading (Dev.raise_quiet d l n); simpa [Dev.quiet] using h
@[simp] theorem Dev.raise_mboxes (d : Dev) (l : Loc) (n : Nat) : (d.raise l n).mboxes = d.mboxes := by
  have h := congrArg Dev.mboxes (Dev.raise_quiet d l n); simpa [Dev.quiet] using h
@[simp] theorem Dev.raise_pads (d : Dev) (l : Loc) (n : Nat) : (d.raise l n).pads = d.pads := by
  have h := congrArg Dev.pads (Dev.raise_quiet d l n); simpa [Dev.quiet] using h
@[simp] theorem Dev.raise_bankOff (d : Dev) (l : Loc) (n : Nat) : (d.raise l n).bankOff = d.bankOff := by
  have h := congrArg Dev.bankOff (Dev.raise_quiet d l n); simpa [Dev.quiet] using h
@[simp] theorem Dev.raise_aud (d : Dev) (l : Loc) (n : Nat) : (d.raise l n).aud = d.aud := by
  have h := congrArg Dev.aud (Dev.raise_quiet d l n); simpa [Dev.quiet] using h
@[simp] theorem Dev.raise_timers (d : Dev) (l : Loc) (n : Nat) : (d.raise l n).timers = d.timers := by
  have h := congrArg Dev.timers (Dev.raise_quiet d l n); simpa [Dev.quiet] using h
@[simp] theorem Dev.raise_flash (d : Dev) (l : Loc) (n : Nat) : (d.raise l n).flash = d.flash := by
  have h := congrArg Dev.flash (Dev.raise_quiet d l n); simpa [Dev.quiet] using h
@[simp] theorem Dev.raise_flashLen (d : Dev) (l : Loc) (n : Nat) : (d.raise l n).flashLen = d.flashLen := by
  have h := congrArg Dev.flashLen (Dev.raise_quiet d l n); simpa [Dev.quiet] using h
@[simp] theorem Dev.raise_flOp (d : Dev) (l : Loc) (n : Nat) : (d.raise l n).flOp = d.flOp := by
  have h := congrArg Dev.flOp (Dev.raise_quiet d l n); simpa [Dev.quiet] using h
@[simp] theorem Dev.raise_otp (d : Dev) (l : Loc) (n : Nat) : (d.raise l n).otp = d.otp := by
  have h := congrArg Dev.otp (Dev.raise_quiet d l n); simpa [Dev.quiet] using h
@[simp] theorem Dev.raise_otpRev (d : Dev) (l : Loc) (n : Nat) : (d.raise l n).otpRev = d.otpRev := by
  have h := congrArg Dev.otpRev (Dev.raise_quiet d l n); simpa [Dev.quiet] using h
@[simp] theorem Dev.raise_otpOp (d : Dev) (l : Loc) (n : Nat) : (d.raise l n).otpOp = d.otpOp := by
  have h := congrArg Dev.otpOp (Dev.raise_quiet d l n); simpa [Dev.quiet] using h
@[simp] theorem Dev.raise_atNonce (d : Dev) (l : Loc) (n : Nat) : (d.raise l n).atNonce = d.atNonce := by
  have h := congrArg Dev.atNonce (Dev.raise_quiet d l n); simpa [Dev.quiet] using h
@[simp] theorem Dev.raise_meas (d : Dev) (l : Loc) (n : Nat) : (d.raise l n).meas = d.meas := by
  have h := congrArg Dev.meas (Dev.raise_quiet d l n); simpa [Dev.quiet] using h
@[simp] theorem Dev.raise_dmas (d : Dev) (l : Loc) (n : Nat) : (d.raise l n).dmas = d.dmas := by
  have h := congrArg Dev.dmas (Dev.raise_quiet d l n); simpa [Dev.quiet] using h
@[simp] theorem Dev.raise_blt (d : Dev) (l : Loc) (n : Nat) : (d.raise l n).blt = d.blt := by
  have h := congrArg Dev.blt (Dev.raise_quiet d l n); simpa [Dev.quiet] using h
@[simp] theorem Dev.raise_stopReqs (d : Dev) (l : Loc) (n : Nat) : (d.raise l n).stopReqs = d.stopReqs := by
  have h := congrArg Dev.stopReqs (Dev.raise_quiet d l n); simpa [Dev.quiet] using h
@[simp] theorem Dev.raise_outs (d : Dev) (l : Loc) (n : Nat) : (d.raise l n).outs = d.outs := by
  have h := congrArg Dev.outs (Dev.raise_quiet d l n); simpa [Dev.quiet] using h
@[simp] theorem Dev.raise_caBad (d : Dev) (l : Loc) (n : Nat) : (d.raise l n).caBad = d.caBad := by
  have h := congrArg Dev.caBad (Dev.raise_quiet d l n); simpa [Dev.quiet] using h
@[simp] theorem Dev.raise_leaks (d : Dev) (l : Loc) (n : Nat) : (d.raise l n).leaks = d.leaks := by
  have h := congrArg Dev.leaks (Dev.raise_quiet d l n); simpa [Dev.quiet] using h
@[simp] theorem Dev.raise_decBy (d : Dev) (l : Loc) (n : Nat) : (d.raise l n).decBy = d.decBy := by
  have h := congrArg Dev.decBy (Dev.raise_quiet d l n); simpa [Dev.quiet] using h
@[simp] theorem Dev.raise_svcUp (d : Dev) (l : Loc) (n : Nat) : (d.raise l n).svcUp = d.svcUp := by
  have h := congrArg Dev.svcUp (Dev.raise_quiet d l n); simpa [Dev.quiet] using h
@[simp] theorem Dev.raise_asks (d : Dev) (l : Loc) (n : Nat) : (d.raise l n).asks = d.asks := by
  have h := congrArg Dev.asks (Dev.raise_quiet d l n); simpa [Dev.quiet] using h
@[simp] theorem Dev.reportP_shadow (d : Dev) (h : Half) (code obj : Nat) (l : Loc) : (d.reportP h code obj l).shadow = d.shadow := rfl
@[simp] theorem Dev.reportP_views (d : Dev) (h : Half) (code obj : Nat) (l : Loc) : (d.reportP h code obj l).views = d.views := rfl
@[simp] theorem Dev.reportP_csels (d : Dev) (h : Half) (code obj : Nat) (l : Loc) : (d.reportP h code obj l).csels = d.csels := rfl
@[simp] theorem Dev.reportP_latched (d : Dev) (h : Half) (code obj : Nat) (l : Loc) : (d.reportP h code obj l).latched = d.latched := rfl
@[simp] theorem Dev.reportP_tbA (d : Dev) (h : Half) (code obj : Nat) (l : Loc) : (d.reportP h code obj l).tbA = d.tbA := rfl
@[simp] theorem Dev.reportP_tbB (d : Dev) (h : Half) (code obj : Nat) (l : Loc) : (d.reportP h code obj l).tbB = d.tbB := rfl
@[simp] theorem Dev.reportP_tbS (d : Dev) (h : Half) (code obj : Nat) (l : Loc) : (d.reportP h code obj l).tbS = d.tbS := rfl
@[simp] theorem Dev.reportP_tickA (d : Dev) (h : Half) (code obj : Nat) (l : Loc) : (d.reportP h code obj l).tickA = d.tickA := rfl
@[simp] theorem Dev.reportP_tickB (d : Dev) (h : Half) (code obj : Nat) (l : Loc) : (d.reportP h code obj l).tickB = d.tickB := rfl
@[simp] theorem Dev.reportP_freeCount (d : Dev) (h : Half) (code obj : Nat) (l : Loc) : (d.reportP h code obj l).freeCount = d.freeCount := rfl
@[simp] theorem Dev.reportP_evcTab (d : Dev) (h : Half) (code obj : Nat) (l : Loc) : (d.reportP h code obj l).evcTab = d.evcTab := rfl
@[simp] theorem Dev.reportP_beams (d : Dev) (h : Half) (code obj : Nat) (l : Loc) : (d.reportP h code obj l).beams = d.beams := rfl
@[simp] theorem Dev.reportP_xqA (d : Dev) (h : Half) (code obj : Nat) (l : Loc) : (d.reportP h code obj l).xqA = d.xqA := rfl
@[simp] theorem Dev.reportP_xqB (d : Dev) (h : Half) (code obj : Nat) (l : Loc) : (d.reportP h code obj l).xqB = d.xqB := rfl
@[simp] theorem Dev.reportP_xlA (d : Dev) (h : Half) (code obj : Nat) (l : Loc) : (d.reportP h code obj l).xlA = d.xlA := rfl
@[simp] theorem Dev.reportP_xlB (d : Dev) (h : Half) (code obj : Nat) (l : Loc) : (d.reportP h code obj l).xlB = d.xlB := rfl
@[simp] theorem Dev.reportP_snaps (d : Dev) (h : Half) (code obj : Nat) (l : Loc) : (d.reportP h code obj l).snaps = d.snaps := rfl
@[simp] theorem Dev.reportP_preds (d : Dev) (h : Half) (code obj : Nat) (l : Loc) : (d.reportP h code obj l).preds = d.preds := rfl
@[simp] theorem Dev.reportP_engines (d : Dev) (h : Half) (code obj : Nat) (l : Loc) : (d.reportP h code obj l).engines = d.engines := rfl
@[simp] theorem Dev.reportP_ctxs (d : Dev) (h : Half) (code obj : Nat) (l : Loc) : (d.reportP h code obj l).ctxs = d.ctxs := rfl
@[simp] theorem Dev.reportP_motifs (d : Dev) (h : Half) (code obj : Nat) (l : Loc) : (d.reportP h code obj l).motifs = d.motifs := rfl
@[simp] theorem Dev.reportP_staging (d : Dev) (h : Half) (code obj : Nat) (l : Loc) : (d.reportP h code obj l).staging = d.staging := rfl
@[simp] theorem Dev.reportP_mawIdx (d : Dev) (h : Half) (code obj : Nat) (l : Loc) : (d.reportP h code obj l).mawIdx = d.mawIdx := rfl
@[simp] theorem Dev.reportP_slots (d : Dev) (h : Half) (code obj : Nat) (l : Loc) : (d.reportP h code obj l).slots = d.slots := rfl
@[simp] theorem Dev.reportP_openRel (d : Dev) (h : Half) (code obj : Nat) (l : Loc) : (d.reportP h code obj l).openRel = d.openRel := rfl
@[simp] theorem Dev.reportP_pagesA (d : Dev) (h : Half) (code obj : Nat) (l : Loc) : (d.reportP h code obj l).pagesA = d.pagesA := rfl
@[simp] theorem Dev.reportP_pagesB (d : Dev) (h : Half) (code obj : Nat) (l : Loc) : (d.reportP h code obj l).pagesB = d.pagesB := rfl
@[simp] theorem Dev.reportP_harness (d : Dev) (h : Half) (code obj : Nat) (l : Loc) : (d.reportP h code obj l).harness = d.harness := rfl
@[simp] theorem Dev.reportP_chans (d : Dev) (h : Half) (code obj : Nat) (l : Loc) : (d.reportP h code obj l).chans = d.chans := rfl
@[simp] theorem Dev.reportP_scansA (d : Dev) (h : Half) (code obj : Nat) (l : Loc) : (d.reportP h code obj l).scansA = d.scansA := rfl
@[simp] theorem Dev.reportP_scansB (d : Dev) (h : Half) (code obj : Nat) (l : Loc) : (d.reportP h code obj l).scansB = d.scansB := rfl
@[simp] theorem Dev.reportP_ports (d : Dev) (h : Half) (code obj : Nat) (l : Loc) : (d.reportP h code obj l).ports = d.ports := rfl
@[simp] theorem Dev.reportP_pipes (d : Dev) (h : Half) (code obj : Nat) (l : Loc) : (d.reportP h code obj l).pipes = d.pipes := rfl
@[simp] theorem Dev.reportP_cxps (d : Dev) (h : Half) (code obj : Nat) (l : Loc) : (d.reportP h code obj l).cxps = d.cxps := rfl
@[simp] theorem Dev.reportP_bhist (d : Dev) (h : Half) (code obj : Nat) (l : Loc) : (d.reportP h code obj l).bhist = d.bhist := rfl
@[simp] theorem Dev.reportP_readData (d : Dev) (h : Half) (code obj : Nat) (l : Loc) : (d.reportP h code obj l).readData = d.readData := rfl
@[simp] theorem Dev.reportP_ptab (d : Dev) (h : Half) (code obj : Nat) (l : Loc) : (d.reportP h code obj l).ptab = d.ptab := rfl
@[simp] theorem Dev.reportP_ueLines (d : Dev) (h : Half) (code obj : Nat) (l : Loc) : (d.reportP h code obj l).ueLines = d.ueLines := rfl
@[simp] theorem Dev.reportP_ueWords (d : Dev) (h : Half) (code obj : Nat) (l : Loc) : (d.reportP h code obj l).ueWords = d.ueWords := rfl
@[simp] theorem Dev.reportP_prisms (d : Dev) (h : Half) (code obj : Nat) (l : Loc) : (d.reportP h code obj l).prisms = d.prisms := rfl
@[simp] theorem Dev.reportP_heads (d : Dev) (h : Half) (code obj : Nat) (l : Loc) : (d.reportP h code obj l).heads = d.heads := rfl
@[simp] theorem Dev.reportP_preLut (d : Dev) (h : Half) (code obj : Nat) (l : Loc) : (d.reportP h code obj l).preLut = d.preLut := rfl
@[simp] theorem Dev.reportP_postLut (d : Dev) (h : Half) (code obj : Nat) (l : Loc) : (d.reportP h code obj l).postLut = d.postLut := rfl
@[simp] theorem Dev.reportP_nvhs (d : Dev) (h : Half) (code obj : Nat) (l : Loc) : (d.reportP h code obj l).nvhs = d.nvhs := rfl
@[simp] theorem Dev.reportP_eccLog (d : Dev) (h : Half) (code obj : Nat) (l : Loc) : (d.reportP h code obj l).eccLog = d.eccLog := rfl
@[simp] theorem Dev.reportP_buckets (d : Dev) (h : Half) (code obj : Nat) (l : Loc) : (d.reportP h code obj l).buckets = d.buckets := rfl
@[simp] theorem Dev.reportP_ceWords (d : Dev) (h : Half) (code obj : Nat) (l : Loc) : (d.reportP h code obj l).ceWords = d.ceWords := rfl
@[simp] theorem Dev.reportP_esrcA (d : Dev) (h : Half) (code obj : Nat) (l : Loc) : (d.reportP h code obj l).esrcA = d.esrcA := rfl
@[simp] theorem Dev.reportP_esrcB (d : Dev) (h : Half) (code obj : Nat) (l : Loc) : (d.reportP h code obj l).esrcB = d.esrcB := rfl
@[simp] theorem Dev.reportP_kux (d : Dev) (h : Half) (code obj : Nat) (l : Loc) : (d.reportP h code obj l).kux = d.kux := rfl
@[simp] theorem Dev.reportP_pmem (d : Dev) (h : Half) (code obj : Nat) (l : Loc) : (d.reportP h code obj l).pmem = d.pmem := rfl
@[simp] theorem Dev.reportP_ucs (d : Dev) (h : Half) (code obj : Nat) (l : Loc) : (d.reportP h code obj l).ucs = d.ucs := rfl
@[simp] theorem Dev.reportP_svcLoading (d : Dev) (h : Half) (code obj : Nat) (l : Loc) : (d.reportP h code obj l).svcLoading = d.svcLoading := rfl
@[simp] theorem Dev.reportP_mboxes (d : Dev) (h : Half) (code obj : Nat) (l : Loc) : (d.reportP h code obj l).mboxes = d.mboxes := rfl
@[simp] theorem Dev.reportP_pads (d : Dev) (h : Half) (code obj : Nat) (l : Loc) : (d.reportP h code obj l).pads = d.pads := rfl
@[simp] theorem Dev.reportP_bankOff (d : Dev) (h : Half) (code obj : Nat) (l : Loc) : (d.reportP h code obj l).bankOff = d.bankOff := rfl
@[simp] theorem Dev.reportP_aud (d : Dev) (h : Half) (code obj : Nat) (l : Loc) : (d.reportP h code obj l).aud = d.aud := rfl
@[simp] theorem Dev.reportP_timers (d : Dev) (h : Half) (code obj : Nat) (l : Loc) : (d.reportP h code obj l).timers = d.timers := rfl
@[simp] theorem Dev.reportP_flash (d : Dev) (h : Half) (code obj : Nat) (l : Loc) : (d.reportP h code obj l).flash = d.flash := rfl
@[simp] theorem Dev.reportP_flashLen (d : Dev) (h : Half) (code obj : Nat) (l : Loc) : (d.reportP h code obj l).flashLen = d.flashLen := rfl
@[simp] theorem Dev.reportP_flOp (d : Dev) (h : Half) (code obj : Nat) (l : Loc) : (d.reportP h code obj l).flOp = d.flOp := rfl
@[simp] theorem Dev.reportP_otp (d : Dev) (h : Half) (code obj : Nat) (l : Loc) : (d.reportP h code obj l).otp = d.otp := rfl
@[simp] theorem Dev.reportP_otpRev (d : Dev) (h : Half) (code obj : Nat) (l : Loc) : (d.reportP h code obj l).otpRev = d.otpRev := rfl
@[simp] theorem Dev.reportP_otpOp (d : Dev) (h : Half) (code obj : Nat) (l : Loc) : (d.reportP h code obj l).otpOp = d.otpOp := rfl
@[simp] theorem Dev.reportP_atNonce (d : Dev) (h : Half) (code obj : Nat) (l : Loc) : (d.reportP h code obj l).atNonce = d.atNonce := rfl
@[simp] theorem Dev.reportP_meas (d : Dev) (h : Half) (code obj : Nat) (l : Loc) : (d.reportP h code obj l).meas = d.meas := rfl
@[simp] theorem Dev.reportP_dmas (d : Dev) (h : Half) (code obj : Nat) (l : Loc) : (d.reportP h code obj l).dmas = d.dmas := rfl
@[simp] theorem Dev.reportP_blt (d : Dev) (h : Half) (code obj : Nat) (l : Loc) : (d.reportP h code obj l).blt = d.blt := rfl
@[simp] theorem Dev.reportP_stopReqs (d : Dev) (h : Half) (code obj : Nat) (l : Loc) : (d.reportP h code obj l).stopReqs = d.stopReqs := rfl
@[simp] theorem Dev.reportP_outs (d : Dev) (h : Half) (code obj : Nat) (l : Loc) : (d.reportP h code obj l).outs = d.outs := rfl
@[simp] theorem Dev.reportP_caBad (d : Dev) (h : Half) (code obj : Nat) (l : Loc) : (d.reportP h code obj l).caBad = d.caBad := rfl
@[simp] theorem Dev.reportP_leaks (d : Dev) (h : Half) (code obj : Nat) (l : Loc) : (d.reportP h code obj l).leaks = d.leaks := rfl
@[simp] theorem Dev.reportP_decBy (d : Dev) (h : Half) (code obj : Nat) (l : Loc) : (d.reportP h code obj l).decBy = d.decBy := rfl
@[simp] theorem Dev.reportP_svcUp (d : Dev) (h : Half) (code obj : Nat) (l : Loc) : (d.reportP h code obj l).svcUp = d.svcUp := rfl
@[simp] theorem Dev.reportP_asks (d : Dev) (h : Half) (code obj : Nat) (l : Loc) : (d.reportP h code obj l).asks = d.asks := rfl
@[simp] theorem Dev.reportP_regs (d : Dev) (h : Half) (code obj : Nat) (l : Loc) : (d.reportP h code obj l).regs = d.regs := rfl

end Sys2Proof.Machine
end

