-- ==== Sys2Proof/Laws/Memory.lean ====
section
/-! SUPPORT. Laws of memory: every operation keeps its canonical form; reading after a change. -/
namespace Sys2Proof.Machine

open Sys2Proof

/-- A change of memory keeps the canonical form. -/
theorem Mem.apply_wf {m : Mem} (o : MemOp) (h : Memory.wf m = true) : Memory.wf (m.apply o) = true := by
  cases o with
  | store a b => exact SMap.wf_set a b h
  | fill lo len => exact SMap.wf_erase (fun k => lo ≤ k && k < lo + len) (show SMap.wf memFill m = true from h)

/-- A list of changes keeps the canonical form. -/
theorem Mem.applyAll_wf {m : Mem} (ops : List MemOp) (h : Memory.wf m = true) : Memory.wf (m.applyAll ops) = true := by
  unfold Mem.applyAll
  induction ops generalizing m with
  | nil => exact h
  | cons o ops ih => exact ih (Mem.apply_wf o h)

@[simp] theorem Mem.applyAll_nil (m : Mem) : m.applyAll [] = m := rfl
@[simp] theorem Mem.applyAll_cons (m : Mem) (o : MemOp) (ops : List MemOp) : m.applyAll (o :: ops) = (m.apply o).applyAll ops := rfl
theorem Mem.applyAll_append (m : Mem) (a b : List MemOp) : m.applyAll (a ++ b) = (m.applyAll a).applyAll b := by
  simp [Mem.applyAll, List.foldl_append]

/-- A read after a store to the same address gives the byte stored. -/
theorem Mem.byte_store_same (m : Mem) (a : Nat) (b : Byte) : (m.apply (.store a b)).byte a = b :=
  SMap.get_set_same m a b

/-- A store leaves every other address alone. -/
theorem Mem.byte_store_ne (m : Mem) {a i : Nat} (b : Byte) (h : i ≠ a) : (m.apply (.store a b)).byte i = m.byte i :=
  SMap.get_set_ne m b h

/-- A fill reads as zero in its range and leaves every other address alone. -/
theorem Mem.byte_fill (m : Mem) (lo len i : Nat) :
    (m.apply (.fill lo len)).byte i = if lo ≤ i ∧ i < lo + len then 0 else m.byte i := by
  have := SMap.get_erase (d := memFill) m (fun k => decide (lo ≤ k) && decide (k < lo + len)) i
  simpa [Mem.apply, Mem.byte, memFill] using this

/-- The machine at reset lists no byte. -/
theorem reset_memory_wf : Memory.wf State.reset.mem = true := rfl

end Sys2Proof.Machine
end

