-- ==== Sys2Proof/Laws/Units.lean ====
section
/-!
SUPPORT. What an update of one unit's record leaves alone and what it changes: for each update the other records and the registers, by
unfolding; the record itself after it; and the records of the same kind under another key.
-/
namespace Sys2Proof.Machine

open Sys2Proof

theorem SMap.get_modify {α : Type} [DecidableEq α] (d : Nat → α) (m : SMap α) (k i : Nat) (f : α → α) :
    SMap.get d (SMap.modify d m k f) i = if i = k then f (SMap.get d m k) else SMap.get d m i := SMap.get_set m k i _

/-! ### setBeam -/

@[simp] theorem Dev.setBeam_regs (d : Dev) (h : Half) (b : Nat) (x : Beam) : (d.setBeam h b x).regs = d.regs := rfl
@[simp] theorem Dev.setBeam_shadow (d : Dev) (h : Half) (b : Nat) (x : Beam) : (d.setBeam h b x).shadow = d.shadow := rfl
@[simp] theorem Dev.setBeam_reports (d : Dev) (h : Half) (b : Nat) (x : Beam) : (d.setBeam h b x).reports = d.reports := rfl
@[simp] theorem Dev.setBeam_freeCount (d : Dev) (h : Half) (b : Nat) (x : Beam) : (d.setBeam h b x).freeCount = d.freeCount := rfl
@[simp] theorem Dev.setBeam_readData (d : Dev) (h : Half) (b : Nat) (x : Beam) : (d.setBeam h b x).readData = d.readData := rfl
@[simp] theorem Dev.setBeam_engines (d : Dev) (h : Half) (b : Nat) (x : Beam) : (d.setBeam h b x).engines = d.engines := rfl
@[simp] theorem Dev.setBeam_ctxs (d : Dev) (h : Half) (b : Nat) (x : Beam) : (d.setBeam h b x).ctxs = d.ctxs := rfl
@[simp] theorem Dev.setBeam_harness (d : Dev) (h : Half) (b : Nat) (x : Beam) : (d.setBeam h b x).harness = d.harness := rfl
@[simp] theorem Dev.setBeam_chans (d : Dev) (h : Half) (b : Nat) (x : Beam) : (d.setBeam h b x).chans = d.chans := rfl
@[simp] theorem Dev.setBeam_seals (d : Dev) (h : Half) (b : Nat) (x : Beam) : (d.setBeam h b x).seals = d.seals := rfl
@[simp] theorem Dev.setBeam_ports (d : Dev) (h : Half) (b : Nat) (x : Beam) : (d.setBeam h b x).ports = d.ports := rfl
@[simp] theorem Dev.setBeam_pipes (d : Dev) (h : Half) (b : Nat) (x : Beam) : (d.setBeam h b x).pipes = d.pipes := rfl
@[simp] theorem Dev.setBeam_cxps (d : Dev) (h : Half) (b : Nat) (x : Beam) : (d.setBeam h b x).cxps = d.cxps := rfl
@[simp] theorem Dev.setBeam_kux (d : Dev) (h : Half) (b : Nat) (x : Beam) : (d.setBeam h b x).kux = d.kux := rfl
@[simp] theorem Dev.setBeam_nvhs (d : Dev) (h : Half) (b : Nat) (x : Beam) : (d.setBeam h b x).nvhs = d.nvhs := rfl
@[simp] theorem Dev.setBeam_dmas (d : Dev) (h : Half) (b : Nat) (x : Beam) : (d.setBeam h b x).dmas = d.dmas := rfl
@[simp] theorem Dev.setBeam_prisms (d : Dev) (h : Half) (b : Nat) (x : Beam) : (d.setBeam h b x).prisms = d.prisms := rfl
@[simp] theorem Dev.setBeam_heads (d : Dev) (h : Half) (b : Nat) (x : Beam) : (d.setBeam h b x).heads = d.heads := rfl
@[simp] theorem Dev.setBeam_aud (d : Dev) (h : Half) (b : Nat) (x : Beam) : (d.setBeam h b x).aud = d.aud := rfl
@[simp] theorem Dev.setBeam_timers (d : Dev) (h : Half) (b : Nat) (x : Beam) : (d.setBeam h b x).timers = d.timers := rfl
@[simp] theorem Dev.setBeam_ueLines (d : Dev) (h : Half) (b : Nat) (x : Beam) : (d.setBeam h b x).ueLines = d.ueLines := rfl
@[simp] theorem Dev.setBeam_rd (d : Dev) (h : Half) (b : Nat) (x : Beam) (l : Loc) (o : Nat) : (d.setBeam h b x).rd l o = d.rd l o := rfl
@[simp] theorem Dev.setBeam_g (d : Dev) (h : Half) (b : Nat) (x : Beam) (l : Loc) (q : Fld) : (d.setBeam h b x).g l q = d.g l q := rfl
@[simp] theorem Dev.setBeam_on (d : Dev) (h : Half) (b : Nat) (x : Beam) (l : Loc) (q : Fld) : (d.setBeam h b x).on l q = d.on l q := rfl
@[simp] theorem Dev.beam_setBeam_same (d : Dev) (h : Half) (b : Nat) (x : Beam) : (d.setBeam h b x).beam h b = x := SMap.get_set_same _ _ _
theorem Dev.beam_setBeam_ne (d : Dev) (h : Half) (b : Nat) (x : Beam) (h' : Half) (b' : Nat) (hb : b < 4) (hb' : b' < 4) (ne : h' ≠ h ∨ b' ≠ b) : (d.setBeam h b x).beam h' b' = d.beam h' b' := by
  refine SMap.get_set_ne _ _ ?_
  cases h <;> cases h' <;> simp_all [Half.n] <;> omega

/-! ### modEng -/

@[simp] theorem Dev.modEng_regs (d : Dev) (h : Half) (e : Nat) (f : Engine → Engine) : (d.modEng h e f).regs = d.regs := rfl
@[simp] theorem Dev.modEng_shadow (d : Dev) (h : Half) (e : Nat) (f : Engine → Engine) : (d.modEng h e f).shadow = d.shadow := rfl
@[simp] theorem Dev.modEng_reports (d : Dev) (h : Half) (e : Nat) (f : Engine → Engine) : (d.modEng h e f).reports = d.reports := rfl
@[simp] theorem Dev.modEng_freeCount (d : Dev) (h : Half) (e : Nat) (f : Engine → Engine) : (d.modEng h e f).freeCount = d.freeCount := rfl
@[simp] theorem Dev.modEng_readData (d : Dev) (h : Half) (e : Nat) (f : Engine → Engine) : (d.modEng h e f).readData = d.readData := rfl
@[simp] theorem Dev.modEng_beams (d : Dev) (h : Half) (e : Nat) (f : Engine → Engine) : (d.modEng h e f).beams = d.beams := rfl
@[simp] theorem Dev.modEng_ctxs (d : Dev) (h : Half) (e : Nat) (f : Engine → Engine) : (d.modEng h e f).ctxs = d.ctxs := rfl
@[simp] theorem Dev.modEng_harness (d : Dev) (h : Half) (e : Nat) (f : Engine → Engine) : (d.modEng h e f).harness = d.harness := rfl
@[simp] theorem Dev.modEng_chans (d : Dev) (h : Half) (e : Nat) (f : Engine → Engine) : (d.modEng h e f).chans = d.chans := rfl
@[simp] theorem Dev.modEng_seals (d : Dev) (h : Half) (e : Nat) (f : Engine → Engine) : (d.modEng h e f).seals = d.seals := rfl
@[simp] theorem Dev.modEng_ports (d : Dev) (h : Half) (e : Nat) (f : Engine → Engine) : (d.modEng h e f).ports = d.ports := rfl
@[simp] theorem Dev.modEng_pipes (d : Dev) (h : Half) (e : Nat) (f : Engine → Engine) : (d.modEng h e f).pipes = d.pipes := rfl
@[simp] theorem Dev.modEng_cxps (d : Dev) (h : Half) (e : Nat) (f : Engine → Engine) : (d.modEng h e f).cxps = d.cxps := rfl
@[simp] theorem Dev.modEng_kux (d : Dev) (h : Half) (e : Nat) (f : Engine → Engine) : (d.modEng h e f).kux = d.kux := rfl
@[simp] theorem Dev.modEng_nvhs (d : Dev) (h : Half) (e : Nat) (f : Engine → Engine) : (d.modEng h e f).nvhs = d.nvhs := rfl
@[simp] theorem Dev.modEng_dmas (d : Dev) (h : Half) (e : Nat) (f : Engine → Engine) : (d.modEng h e f).dmas = d.dmas := rfl
@[simp] theorem Dev.modEng_prisms (d : Dev) (h : Half) (e : Nat) (f : Engine → Engine) : (d.modEng h e f).prisms = d.prisms := rfl
@[simp] theorem Dev.modEng_heads (d : Dev) (h : Half) (e : Nat) (f : Engine → Engine) : (d.modEng h e f).heads = d.heads := rfl
@[simp] theorem Dev.modEng_aud (d : Dev) (h : Half) (e : Nat) (f : Engine → Engine) : (d.modEng h e f).aud = d.aud := rfl
@[simp] theorem Dev.modEng_timers (d : Dev) (h : Half) (e : Nat) (f : Engine → Engine) : (d.modEng h e f).timers = d.timers := rfl
@[simp] theorem Dev.modEng_ueLines (d : Dev) (h : Half) (e : Nat) (f : Engine → Engine) : (d.modEng h e f).ueLines = d.ueLines := rfl
@[simp] theorem Dev.modEng_rd (d : Dev) (h : Half) (e : Nat) (f : Engine → Engine) (l : Loc) (o : Nat) : (d.modEng h e f).rd l o = d.rd l o := rfl
@[simp] theorem Dev.modEng_g (d : Dev) (h : Half) (e : Nat) (f : Engine → Engine) (l : Loc) (q : Fld) : (d.modEng h e f).g l q = d.g l q := rfl
@[simp] theorem Dev.modEng_on (d : Dev) (h : Half) (e : Nat) (f : Engine → Engine) (l : Loc) (q : Fld) : (d.modEng h e f).on l q = d.on l q := rfl
@[simp] theorem Dev.eng_modEng_same (d : Dev) (h : Half) (e : Nat) (f : Engine → Engine) : (d.modEng h e f).eng h e = f (d.eng h e) := by unfold Dev.modEng Dev.eng; rw [SMap.get_modify, if_pos rfl]
theorem Dev.eng_modEng_ne (d : Dev) (h : Half) (e : Nat) (f : Engine → Engine) (h' : Half) (e' : Nat) (he : e < 8) (he' : e' < 8) (ne : h' ≠ h ∨ e' ≠ e) : (d.modEng h e f).eng h' e' = d.eng h' e' := by
  unfold Dev.modEng Dev.eng
  rw [SMap.get_modify, if_neg]
  cases h <;> cases h' <;> simp_all [Half.n] <;> omega

/-! ### modCx -/

@[simp] theorem Dev.modCx_regs (d : Dev) (h : Half) (e c : Nat) (f : Ctx → Ctx) : (d.modCx h e c f).regs = d.regs := rfl
@[simp] theorem Dev.modCx_shadow (d : Dev) (h : Half) (e c : Nat) (f : Ctx → Ctx) : (d.modCx h e c f).shadow = d.shadow := rfl
@[simp] theorem Dev.modCx_reports (d : Dev) (h : Half) (e c : Nat) (f : Ctx → Ctx) : (d.modCx h e c f).reports = d.reports := rfl
@[simp] theorem Dev.modCx_freeCount (d : Dev) (h : Half) (e c : Nat) (f : Ctx → Ctx) : (d.modCx h e c f).freeCount = d.freeCount := rfl
@[simp] theorem Dev.modCx_readData (d : Dev) (h : Half) (e c : Nat) (f : Ctx → Ctx) : (d.modCx h e c f).readData = d.readData := rfl
@[simp] theorem Dev.modCx_beams (d : Dev) (h : Half) (e c : Nat) (f : Ctx → Ctx) : (d.modCx h e c f).beams = d.beams := rfl
@[simp] theorem Dev.modCx_engines (d : Dev) (h : Half) (e c : Nat) (f : Ctx → Ctx) : (d.modCx h e c f).engines = d.engines := rfl
@[simp] theorem Dev.modCx_harness (d : Dev) (h : Half) (e c : Nat) (f : Ctx → Ctx) : (d.modCx h e c f).harness = d.harness := rfl
@[simp] theorem Dev.modCx_chans (d : Dev) (h : Half) (e c : Nat) (f : Ctx → Ctx) : (d.modCx h e c f).chans = d.chans := rfl
@[simp] theorem Dev.modCx_seals (d : Dev) (h : Half) (e c : Nat) (f : Ctx → Ctx) : (d.modCx h e c f).seals = d.seals := rfl
@[simp] theorem Dev.modCx_ports (d : Dev) (h : Half) (e c : Nat) (f : Ctx → Ctx) : (d.modCx h e c f).ports = d.ports := rfl
@[simp] theorem Dev.modCx_pipes (d : Dev) (h : Half) (e c : Nat) (f : Ctx → Ctx) : (d.modCx h e c f).pipes = d.pipes := rfl
@[simp] theorem Dev.modCx_cxps (d : Dev) (h : Half) (e c : Nat) (f : Ctx → Ctx) : (d.modCx h e c f).cxps = d.cxps := rfl
@[simp] theorem Dev.modCx_kux (d : Dev) (h : Half) (e c : Nat) (f : Ctx → Ctx) : (d.modCx h e c f).kux = d.kux := rfl
@[simp] theorem Dev.modCx_nvhs (d : Dev) (h : Half) (e c : Nat) (f : Ctx → Ctx) : (d.modCx h e c f).nvhs = d.nvhs := rfl
@[simp] theorem Dev.modCx_dmas (d : Dev) (h : Half) (e c : Nat) (f : Ctx → Ctx) : (d.modCx h e c f).dmas = d.dmas := rfl
@[simp] theorem Dev.modCx_prisms (d : Dev) (h : Half) (e c : Nat) (f : Ctx → Ctx) : (d.modCx h e c f).prisms = d.prisms := rfl
@[simp] theorem Dev.modCx_heads (d : Dev) (h : Half) (e c : Nat) (f : Ctx → Ctx) : (d.modCx h e c f).heads = d.heads := rfl
@[simp] theorem Dev.modCx_aud (d : Dev) (h : Half) (e c : Nat) (f : Ctx → Ctx) : (d.modCx h e c f).aud = d.aud := rfl
@[simp] theorem Dev.modCx_timers (d : Dev) (h : Half) (e c : Nat) (f : Ctx → Ctx) : (d.modCx h e c f).timers = d.timers := rfl
@[simp] theorem Dev.modCx_ueLines (d : Dev) (h : Half) (e c : Nat) (f : Ctx → Ctx) : (d.modCx h e c f).ueLines = d.ueLines := rfl
@[simp] theorem Dev.modCx_rd (d : Dev) (h : Half) (e c : Nat) (f : Ctx → Ctx) (l : Loc) (o : Nat) : (d.modCx h e c f).rd l o = d.rd l o := rfl
@[simp] theorem Dev.modCx_g (d : Dev) (h : Half) (e c : Nat) (f : Ctx → Ctx) (l : Loc) (q : Fld) : (d.modCx h e c f).g l q = d.g l q := rfl
@[simp] theorem Dev.modCx_on (d : Dev) (h : Half) (e c : Nat) (f : Ctx → Ctx) (l : Loc) (q : Fld) : (d.modCx h e c f).on l q = d.on l q := rfl
@[simp] theorem Dev.cx_modCx_same (d : Dev) (h : Half) (e c : Nat) (f : Ctx → Ctx) : (d.modCx h e c f).cx h e c = f (d.cx h e c) := by unfold Dev.modCx Dev.cx; rw [SMap.get_modify, if_pos rfl]
theorem Dev.cx_modCx_ne (d : Dev) (h : Half) (e c : Nat) (f : Ctx → Ctx) (h' : Half) (e' : Nat) (c' : Nat) (hc : c < 32) (hc' : c' < 32) (he : e < 8) (he' : e' < 8) (ne : h' ≠ h ∨ e' ≠ e ∨ c' ≠ c) : (d.modCx h e c f).cx h' e' c' = d.cx h' e' c' := by
  unfold Dev.modCx Dev.cx
  rw [SMap.get_modify, if_neg]
  cases h <;> cases h' <;> simp_all [Half.n] <;> omega

/-! ### modHarn -/

@[simp] theorem Dev.modHarn_regs (d : Dev) (h : Half) (f : Harness → Harness) : (d.modHarn h f).regs = d.regs := rfl
@[simp] theorem Dev.modHarn_shadow (d : Dev) (h : Half) (f : Harness → Harness) : (d.modHarn h f).shadow = d.shadow := rfl
@[simp] theorem Dev.modHarn_reports (d : Dev) (h : Half) (f : Harness → Harness) : (d.modHarn h f).reports = d.reports := rfl
@[simp] theorem Dev.modHarn_freeCount (d : Dev) (h : Half) (f : Harness → Harness) : (d.modHarn h f).freeCount = d.freeCount := rfl
@[simp] theorem Dev.modHarn_readData (d : Dev) (h : Half) (f : Harness → Harness) : (d.modHarn h f).readData = d.readData := rfl
@[simp] theorem Dev.modHarn_beams (d : Dev) (h : Half) (f : Harness → Harness) : (d.modHarn h f).beams = d.beams := rfl
@[simp] theorem Dev.modHarn_engines (d : Dev) (h : Half) (f : Harness → Harness) : (d.modHarn h f).engines = d.engines := rfl
@[simp] theorem Dev.modHarn_ctxs (d : Dev) (h : Half) (f : Harness → Harness) : (d.modHarn h f).ctxs = d.ctxs := rfl
@[simp] theorem Dev.modHarn_chans (d : Dev) (h : Half) (f : Harness → Harness) : (d.modHarn h f).chans = d.chans := rfl
@[simp] theorem Dev.modHarn_seals (d : Dev) (h : Half) (f : Harness → Harness) : (d.modHarn h f).seals = d.seals := rfl
@[simp] theorem Dev.modHarn_ports (d : Dev) (h : Half) (f : Harness → Harness) : (d.modHarn h f).ports = d.ports := rfl
@[simp] theorem Dev.modHarn_pipes (d : Dev) (h : Half) (f : Harness → Harness) : (d.modHarn h f).pipes = d.pipes := rfl
@[simp] theorem Dev.modHarn_cxps (d : Dev) (h : Half) (f : Harness → Harness) : (d.modHarn h f).cxps = d.cxps := rfl
@[simp] theorem Dev.modHarn_kux (d : Dev) (h : Half) (f : Harness → Harness) : (d.modHarn h f).kux = d.kux := rfl
@[simp] theorem Dev.modHarn_nvhs (d : Dev) (h : Half) (f : Harness → Harness) : (d.modHarn h f).nvhs = d.nvhs := rfl
@[simp] theorem Dev.modHarn_dmas (d : Dev) (h : Half) (f : Harness → Harness) : (d.modHarn h f).dmas = d.dmas := rfl
@[simp] theorem Dev.modHarn_prisms (d : Dev) (h : Half) (f : Harness → Harness) : (d.modHarn h f).prisms = d.prisms := rfl
@[simp] theorem Dev.modHarn_heads (d : Dev) (h : Half) (f : Harness → Harness) : (d.modHarn h f).heads = d.heads := rfl
@[simp] theorem Dev.modHarn_aud (d : Dev) (h : Half) (f : Harness → Harness) : (d.modHarn h f).aud = d.aud := rfl
@[simp] theorem Dev.modHarn_timers (d : Dev) (h : Half) (f : Harness → Harness) : (d.modHarn h f).timers = d.timers := rfl
@[simp] theorem Dev.modHarn_ueLines (d : Dev) (h : Half) (f : Harness → Harness) : (d.modHarn h f).ueLines = d.ueLines := rfl
@[simp] theorem Dev.modHarn_rd (d : Dev) (h : Half) (f : Harness → Harness) (l : Loc) (o : Nat) : (d.modHarn h f).rd l o = d.rd l o := rfl
@[simp] theorem Dev.modHarn_g (d : Dev) (h : Half) (f : Harness → Harness) (l : Loc) (q : Fld) : (d.modHarn h f).g l q = d.g l q := rfl
@[simp] theorem Dev.modHarn_on (d : Dev) (h : Half) (f : Harness → Harness) (l : Loc) (q : Fld) : (d.modHarn h f).on l q = d.on l q := rfl
@[simp] theorem Dev.harn_modHarn_same (d : Dev) (h : Half) (f : Harness → Harness) : (d.modHarn h f).harn h = f (d.harn h) := by unfold Dev.modHarn Dev.harn; rw [SMap.get_modify, if_pos rfl]
theorem Dev.harn_modHarn_ne (d : Dev) (h : Half) (f : Harness → Harness) (h' : Half)  (ne : h' ≠ h) : (d.modHarn h f).harn h' = d.harn h' := by
  unfold Dev.modHarn Dev.harn
  rw [SMap.get_modify, if_neg]
  cases h <;> cases h' <;> simp_all [Half.n]

/-! ### modChan -/

@[simp] theorem Dev.modChan_regs (d : Dev) (h : Half) (ch : Nat) (f : Chan → Chan) : (d.modChan h ch f).regs = d.regs := rfl
@[simp] theorem Dev.modChan_shadow (d : Dev) (h : Half) (ch : Nat) (f : Chan → Chan) : (d.modChan h ch f).shadow = d.shadow := rfl
@[simp] theorem Dev.modChan_reports (d : Dev) (h : Half) (ch : Nat) (f : Chan → Chan) : (d.modChan h ch f).reports = d.reports := rfl
@[simp] theorem Dev.modChan_freeCount (d : Dev) (h : Half) (ch : Nat) (f : Chan → Chan) : (d.modChan h ch f).freeCount = d.freeCount := rfl
@[simp] theorem Dev.modChan_readData (d : Dev) (h : Half) (ch : Nat) (f : Chan → Chan) : (d.modChan h ch f).readData = d.readData := rfl
@[simp] theorem Dev.modChan_beams (d : Dev) (h : Half) (ch : Nat) (f : Chan → Chan) : (d.modChan h ch f).beams = d.beams := rfl
@[simp] theorem Dev.modChan_engines (d : Dev) (h : Half) (ch : Nat) (f : Chan → Chan) : (d.modChan h ch f).engines = d.engines := rfl
@[simp] theorem Dev.modChan_ctxs (d : Dev) (h : Half) (ch : Nat) (f : Chan → Chan) : (d.modChan h ch f).ctxs = d.ctxs := rfl
@[simp] theorem Dev.modChan_harness (d : Dev) (h : Half) (ch : Nat) (f : Chan → Chan) : (d.modChan h ch f).harness = d.harness := rfl
@[simp] theorem Dev.modChan_seals (d : Dev) (h : Half) (ch : Nat) (f : Chan → Chan) : (d.modChan h ch f).seals = d.seals := rfl
@[simp] theorem Dev.modChan_ports (d : Dev) (h : Half) (ch : Nat) (f : Chan → Chan) : (d.modChan h ch f).ports = d.ports := rfl
@[simp] theorem Dev.modChan_pipes (d : Dev) (h : Half) (ch : Nat) (f : Chan → Chan) : (d.modChan h ch f).pipes = d.pipes := rfl
@[simp] theorem Dev.modChan_cxps (d : Dev) (h : Half) (ch : Nat) (f : Chan → Chan) : (d.modChan h ch f).cxps = d.cxps := rfl
@[simp] theorem Dev.modChan_kux (d : Dev) (h : Half) (ch : Nat) (f : Chan → Chan) : (d.modChan h ch f).kux = d.kux := rfl
@[simp] theorem Dev.modChan_nvhs (d : Dev) (h : Half) (ch : Nat) (f : Chan → Chan) : (d.modChan h ch f).nvhs = d.nvhs := rfl
@[simp] theorem Dev.modChan_dmas (d : Dev) (h : Half) (ch : Nat) (f : Chan → Chan) : (d.modChan h ch f).dmas = d.dmas := rfl
@[simp] theorem Dev.modChan_prisms (d : Dev) (h : Half) (ch : Nat) (f : Chan → Chan) : (d.modChan h ch f).prisms = d.prisms := rfl
@[simp] theorem Dev.modChan_heads (d : Dev) (h : Half) (ch : Nat) (f : Chan → Chan) : (d.modChan h ch f).heads = d.heads := rfl
@[simp] theorem Dev.modChan_aud (d : Dev) (h : Half) (ch : Nat) (f : Chan → Chan) : (d.modChan h ch f).aud = d.aud := rfl
@[simp] theorem Dev.modChan_timers (d : Dev) (h : Half) (ch : Nat) (f : Chan → Chan) : (d.modChan h ch f).timers = d.timers := rfl
@[simp] theorem Dev.modChan_ueLines (d : Dev) (h : Half) (ch : Nat) (f : Chan → Chan) : (d.modChan h ch f).ueLines = d.ueLines := rfl
@[simp] theorem Dev.modChan_rd (d : Dev) (h : Half) (ch : Nat) (f : Chan → Chan) (l : Loc) (o : Nat) : (d.modChan h ch f).rd l o = d.rd l o := rfl
@[simp] theorem Dev.modChan_g (d : Dev) (h : Half) (ch : Nat) (f : Chan → Chan) (l : Loc) (q : Fld) : (d.modChan h ch f).g l q = d.g l q := rfl
@[simp] theorem Dev.modChan_on (d : Dev) (h : Half) (ch : Nat) (f : Chan → Chan) (l : Loc) (q : Fld) : (d.modChan h ch f).on l q = d.on l q := rfl
@[simp] theorem Dev.chan_modChan_same (d : Dev) (h : Half) (ch : Nat) (f : Chan → Chan) : (d.modChan h ch f).chan h ch = f (d.chan h ch) := by unfold Dev.modChan Dev.chan; rw [SMap.get_modify, if_pos rfl]
theorem Dev.chan_modChan_ne (d : Dev) (h : Half) (ch : Nat) (f : Chan → Chan) (h' : Half) (ch' : Nat) (hc : ch < 65536) (hc' : ch' < 65536) (ne : h' ≠ h ∨ ch' ≠ ch) : (d.modChan h ch f).chan h' ch' = d.chan h' ch' := by
  unfold Dev.modChan Dev.chan
  rw [SMap.get_modify, if_neg]
  cases h <;> cases h' <;> simp_all [Half.n] <;> omega

/-! ### modSeal -/

@[simp] theorem Dev.modSeal_regs (d : Dev) (h : Half) (f : SealUnit → SealUnit) : (d.modSeal h f).regs = d.regs := rfl
@[simp] theorem Dev.modSeal_shadow (d : Dev) (h : Half) (f : SealUnit → SealUnit) : (d.modSeal h f).shadow = d.shadow := rfl
@[simp] theorem Dev.modSeal_reports (d : Dev) (h : Half) (f : SealUnit → SealUnit) : (d.modSeal h f).reports = d.reports := rfl
@[simp] theorem Dev.modSeal_freeCount (d : Dev) (h : Half) (f : SealUnit → SealUnit) : (d.modSeal h f).freeCount = d.freeCount := rfl
@[simp] theorem Dev.modSeal_readData (d : Dev) (h : Half) (f : SealUnit → SealUnit) : (d.modSeal h f).readData = d.readData := rfl
@[simp] theorem Dev.modSeal_beams (d : Dev) (h : Half) (f : SealUnit → SealUnit) : (d.modSeal h f).beams = d.beams := rfl
@[simp] theorem Dev.modSeal_engines (d : Dev) (h : Half) (f : SealUnit → SealUnit) : (d.modSeal h f).engines = d.engines := rfl
@[simp] theorem Dev.modSeal_ctxs (d : Dev) (h : Half) (f : SealUnit → SealUnit) : (d.modSeal h f).ctxs = d.ctxs := rfl
@[simp] theorem Dev.modSeal_harness (d : Dev) (h : Half) (f : SealUnit → SealUnit) : (d.modSeal h f).harness = d.harness := rfl
@[simp] theorem Dev.modSeal_chans (d : Dev) (h : Half) (f : SealUnit → SealUnit) : (d.modSeal h f).chans = d.chans := rfl
@[simp] theorem Dev.modSeal_ports (d : Dev) (h : Half) (f : SealUnit → SealUnit) : (d.modSeal h f).ports = d.ports := rfl
@[simp] theorem Dev.modSeal_pipes (d : Dev) (h : Half) (f : SealUnit → SealUnit) : (d.modSeal h f).pipes = d.pipes := rfl
@[simp] theorem Dev.modSeal_cxps (d : Dev) (h : Half) (f : SealUnit → SealUnit) : (d.modSeal h f).cxps = d.cxps := rfl
@[simp] theorem Dev.modSeal_kux (d : Dev) (h : Half) (f : SealUnit → SealUnit) : (d.modSeal h f).kux = d.kux := rfl
@[simp] theorem Dev.modSeal_nvhs (d : Dev) (h : Half) (f : SealUnit → SealUnit) : (d.modSeal h f).nvhs = d.nvhs := rfl
@[simp] theorem Dev.modSeal_dmas (d : Dev) (h : Half) (f : SealUnit → SealUnit) : (d.modSeal h f).dmas = d.dmas := rfl
@[simp] theorem Dev.modSeal_prisms (d : Dev) (h : Half) (f : SealUnit → SealUnit) : (d.modSeal h f).prisms = d.prisms := rfl
@[simp] theorem Dev.modSeal_heads (d : Dev) (h : Half) (f : SealUnit → SealUnit) : (d.modSeal h f).heads = d.heads := rfl
@[simp] theorem Dev.modSeal_aud (d : Dev) (h : Half) (f : SealUnit → SealUnit) : (d.modSeal h f).aud = d.aud := rfl
@[simp] theorem Dev.modSeal_timers (d : Dev) (h : Half) (f : SealUnit → SealUnit) : (d.modSeal h f).timers = d.timers := rfl
@[simp] theorem Dev.modSeal_ueLines (d : Dev) (h : Half) (f : SealUnit → SealUnit) : (d.modSeal h f).ueLines = d.ueLines := rfl
@[simp] theorem Dev.modSeal_rd (d : Dev) (h : Half) (f : SealUnit → SealUnit) (l : Loc) (o : Nat) : (d.modSeal h f).rd l o = d.rd l o := rfl
@[simp] theorem Dev.modSeal_g (d : Dev) (h : Half) (f : SealUnit → SealUnit) (l : Loc) (q : Fld) : (d.modSeal h f).g l q = d.g l q := rfl
@[simp] theorem Dev.modSeal_on (d : Dev) (h : Half) (f : SealUnit → SealUnit) (l : Loc) (q : Fld) : (d.modSeal h f).on l q = d.on l q := rfl
@[simp] theorem Dev.sealU_modSeal_same (d : Dev) (h : Half) (f : SealUnit → SealUnit) : (d.modSeal h f).sealU h = f (d.sealU h) := by unfold Dev.modSeal Dev.sealU; rw [SMap.get_modify, if_pos rfl]
theorem Dev.sealU_modSeal_ne (d : Dev) (h : Half) (f : SealUnit → SealUnit) (h' : Half)  (ne : h' ≠ h) : (d.modSeal h f).sealU h' = d.sealU h' := by
  unfold Dev.modSeal Dev.sealU
  rw [SMap.get_modify, if_neg]
  cases h <;> cases h' <;> simp_all [Half.n]

/-! ### modPort -/

@[simp] theorem Dev.modPort_regs (d : Dev) (h : Half) (p : Nat) (f : Port → Port) : (d.modPort h p f).regs = d.regs := rfl
@[simp] theorem Dev.modPort_shadow (d : Dev) (h : Half) (p : Nat) (f : Port → Port) : (d.modPort h p f).shadow = d.shadow := rfl
@[simp] theorem Dev.modPort_reports (d : Dev) (h : Half) (p : Nat) (f : Port → Port) : (d.modPort h p f).reports = d.reports := rfl
@[simp] theorem Dev.modPort_freeCount (d : Dev) (h : Half) (p : Nat) (f : Port → Port) : (d.modPort h p f).freeCount = d.freeCount := rfl
@[simp] theorem Dev.modPort_readData (d : Dev) (h : Half) (p : Nat) (f : Port → Port) : (d.modPort h p f).readData = d.readData := rfl
@[simp] theorem Dev.modPort_beams (d : Dev) (h : Half) (p : Nat) (f : Port → Port) : (d.modPort h p f).beams = d.beams := rfl
@[simp] theorem Dev.modPort_engines (d : Dev) (h : Half) (p : Nat) (f : Port → Port) : (d.modPort h p f).engines = d.engines := rfl
@[simp] theorem Dev.modPort_ctxs (d : Dev) (h : Half) (p : Nat) (f : Port → Port) : (d.modPort h p f).ctxs = d.ctxs := rfl
@[simp] theorem Dev.modPort_harness (d : Dev) (h : Half) (p : Nat) (f : Port → Port) : (d.modPort h p f).harness = d.harness := rfl
@[simp] theorem Dev.modPort_chans (d : Dev) (h : Half) (p : Nat) (f : Port → Port) : (d.modPort h p f).chans = d.chans := rfl
@[simp] theorem Dev.modPort_seals (d : Dev) (h : Half) (p : Nat) (f : Port → Port) : (d.modPort h p f).seals = d.seals := rfl
@[simp] theorem Dev.modPort_pipes (d : Dev) (h : Half) (p : Nat) (f : Port → Port) : (d.modPort h p f).pipes = d.pipes := rfl
@[simp] theorem Dev.modPort_cxps (d : Dev) (h : Half) (p : Nat) (f : Port → Port) : (d.modPort h p f).cxps = d.cxps := rfl
@[simp] theorem Dev.modPort_kux (d : Dev) (h : Half) (p : Nat) (f : Port → Port) : (d.modPort h p f).kux = d.kux := rfl
@[simp] theorem Dev.modPort_nvhs (d : Dev) (h : Half) (p : Nat) (f : Port → Port) : (d.modPort h p f).nvhs = d.nvhs := rfl
@[simp] theorem Dev.modPort_dmas (d : Dev) (h : Half) (p : Nat) (f : Port → Port) : (d.modPort h p f).dmas = d.dmas := rfl
@[simp] theorem Dev.modPort_prisms (d : Dev) (h : Half) (p : Nat) (f : Port → Port) : (d.modPort h p f).prisms = d.prisms := rfl
@[simp] theorem Dev.modPort_heads (d : Dev) (h : Half) (p : Nat) (f : Port → Port) : (d.modPort h p f).heads = d.heads := rfl
@[simp] theorem Dev.modPort_aud (d : Dev) (h : Half) (p : Nat) (f : Port → Port) : (d.modPort h p f).aud = d.aud := rfl
@[simp] theorem Dev.modPort_timers (d : Dev) (h : Half) (p : Nat) (f : Port → Port) : (d.modPort h p f).timers = d.timers := rfl
@[simp] theorem Dev.modPort_ueLines (d : Dev) (h : Half) (p : Nat) (f : Port → Port) : (d.modPort h p f).ueLines = d.ueLines := rfl
@[simp] theorem Dev.modPort_rd (d : Dev) (h : Half) (p : Nat) (f : Port → Port) (l : Loc) (o : Nat) : (d.modPort h p f).rd l o = d.rd l o := rfl
@[simp] theorem Dev.modPort_g (d : Dev) (h : Half) (p : Nat) (f : Port → Port) (l : Loc) (q : Fld) : (d.modPort h p f).g l q = d.g l q := rfl
@[simp] theorem Dev.modPort_on (d : Dev) (h : Half) (p : Nat) (f : Port → Port) (l : Loc) (q : Fld) : (d.modPort h p f).on l q = d.on l q := rfl
@[simp] theorem Dev.port_modPort_same (d : Dev) (h : Half) (p : Nat) (f : Port → Port) : (d.modPort h p f).port h p = f (d.port h p) := by unfold Dev.modPort Dev.port; rw [SMap.get_modify, if_pos rfl]
theorem Dev.port_modPort_ne (d : Dev) (h : Half) (p : Nat) (f : Port → Port) (h' : Half) (p' : Nat) (hp : p < 64) (hp' : p' < 64) (ne : h' ≠ h ∨ p' ≠ p) : (d.modPort h p f).port h' p' = d.port h' p' := by
  unfold Dev.modPort Dev.port
  rw [SMap.get_modify, if_neg]
  cases h <;> cases h' <;> simp_all [Half.n] <;> omega

/-! ### modPipe -/

@[simp] theorem Dev.modPipe_regs (d : Dev) (h : Half) (k : Nat) (f : Pipe → Pipe) : (d.modPipe h k f).regs = d.regs := rfl
@[simp] theorem Dev.modPipe_shadow (d : Dev) (h : Half) (k : Nat) (f : Pipe → Pipe) : (d.modPipe h k f).shadow = d.shadow := rfl
@[simp] theorem Dev.modPipe_reports (d : Dev) (h : Half) (k : Nat) (f : Pipe → Pipe) : (d.modPipe h k f).reports = d.reports := rfl
@[simp] theorem Dev.modPipe_freeCount (d : Dev) (h : Half) (k : Nat) (f : Pipe → Pipe) : (d.modPipe h k f).freeCount = d.freeCount := rfl
@[simp] theorem Dev.modPipe_readData (d : Dev) (h : Half) (k : Nat) (f : Pipe → Pipe) : (d.modPipe h k f).readData = d.readData := rfl
@[simp] theorem Dev.modPipe_beams (d : Dev) (h : Half) (k : Nat) (f : Pipe → Pipe) : (d.modPipe h k f).beams = d.beams := rfl
@[simp] theorem Dev.modPipe_engines (d : Dev) (h : Half) (k : Nat) (f : Pipe → Pipe) : (d.modPipe h k f).engines = d.engines := rfl
@[simp] theorem Dev.modPipe_ctxs (d : Dev) (h : Half) (k : Nat) (f : Pipe → Pipe) : (d.modPipe h k f).ctxs = d.ctxs := rfl
@[simp] theorem Dev.modPipe_harness (d : Dev) (h : Half) (k : Nat) (f : Pipe → Pipe) : (d.modPipe h k f).harness = d.harness := rfl
@[simp] theorem Dev.modPipe_chans (d : Dev) (h : Half) (k : Nat) (f : Pipe → Pipe) : (d.modPipe h k f).chans = d.chans := rfl
@[simp] theorem Dev.modPipe_seals (d : Dev) (h : Half) (k : Nat) (f : Pipe → Pipe) : (d.modPipe h k f).seals = d.seals := rfl
@[simp] theorem Dev.modPipe_ports (d : Dev) (h : Half) (k : Nat) (f : Pipe → Pipe) : (d.modPipe h k f).ports = d.ports := rfl
@[simp] theorem Dev.modPipe_cxps (d : Dev) (h : Half) (k : Nat) (f : Pipe → Pipe) : (d.modPipe h k f).cxps = d.cxps := rfl
@[simp] theorem Dev.modPipe_kux (d : Dev) (h : Half) (k : Nat) (f : Pipe → Pipe) : (d.modPipe h k f).kux = d.kux := rfl
@[simp] theorem Dev.modPipe_nvhs (d : Dev) (h : Half) (k : Nat) (f : Pipe → Pipe) : (d.modPipe h k f).nvhs = d.nvhs := rfl
@[simp] theorem Dev.modPipe_dmas (d : Dev) (h : Half) (k : Nat) (f : Pipe → Pipe) : (d.modPipe h k f).dmas = d.dmas := rfl
@[simp] theorem Dev.modPipe_prisms (d : Dev) (h : Half) (k : Nat) (f : Pipe → Pipe) : (d.modPipe h k f).prisms = d.prisms := rfl
@[simp] theorem Dev.modPipe_heads (d : Dev) (h : Half) (k : Nat) (f : Pipe → Pipe) : (d.modPipe h k f).heads = d.heads := rfl
@[simp] theorem Dev.modPipe_aud (d : Dev) (h : Half) (k : Nat) (f : Pipe → Pipe) : (d.modPipe h k f).aud = d.aud := rfl
@[simp] theorem Dev.modPipe_timers (d : Dev) (h : Half) (k : Nat) (f : Pipe → Pipe) : (d.modPipe h k f).timers = d.timers := rfl
@[simp] theorem Dev.modPipe_ueLines (d : Dev) (h : Half) (k : Nat) (f : Pipe → Pipe) : (d.modPipe h k f).ueLines = d.ueLines := rfl
@[simp] theorem Dev.modPipe_rd (d : Dev) (h : Half) (k : Nat) (f : Pipe → Pipe) (l : Loc) (o : Nat) : (d.modPipe h k f).rd l o = d.rd l o := rfl
@[simp] theorem Dev.modPipe_g (d : Dev) (h : Half) (k : Nat) (f : Pipe → Pipe) (l : Loc) (q : Fld) : (d.modPipe h k f).g l q = d.g l q := rfl
@[simp] theorem Dev.modPipe_on (d : Dev) (h : Half) (k : Nat) (f : Pipe → Pipe) (l : Loc) (q : Fld) : (d.modPipe h k f).on l q = d.on l q := rfl
@[simp] theorem Dev.pipe_modPipe_same (d : Dev) (h : Half) (k : Nat) (f : Pipe → Pipe) : (d.modPipe h k f).pipe h k = f (d.pipe h k) := by unfold Dev.modPipe Dev.pipe; rw [SMap.get_modify, if_pos rfl]
theorem Dev.pipe_modPipe_ne (d : Dev) (h : Half) (k : Nat) (f : Pipe → Pipe) (h' : Half) (k' : Nat) (hk : k < 2) (hk' : k' < 2) (ne : h' ≠ h ∨ k' ≠ k) : (d.modPipe h k f).pipe h' k' = d.pipe h' k' := by
  unfold Dev.modPipe Dev.pipe
  rw [SMap.get_modify, if_neg]
  cases h <;> cases h' <;> simp_all [Half.n] <;> omega

/-! ### modCxp -/

@[simp] theorem Dev.modCxp_regs (d : Dev) (h : Half) (k : Nat) (f : Cxp → Cxp) : (d.modCxp h k f).regs = d.regs := rfl
@[simp] theorem Dev.modCxp_shadow (d : Dev) (h : Half) (k : Nat) (f : Cxp → Cxp) : (d.modCxp h k f).shadow = d.shadow := rfl
@[simp] theorem Dev.modCxp_reports (d : Dev) (h : Half) (k : Nat) (f : Cxp → Cxp) : (d.modCxp h k f).reports = d.reports := rfl
@[simp] theorem Dev.modCxp_freeCount (d : Dev) (h : Half) (k : Nat) (f : Cxp → Cxp) : (d.modCxp h k f).freeCount = d.freeCount := rfl
@[simp] theorem Dev.modCxp_readData (d : Dev) (h : Half) (k : Nat) (f : Cxp → Cxp) : (d.modCxp h k f).readData = d.readData := rfl
@[simp] theorem Dev.modCxp_beams (d : Dev) (h : Half) (k : Nat) (f : Cxp → Cxp) : (d.modCxp h k f).beams = d.beams := rfl
@[simp] theorem Dev.modCxp_engines (d : Dev) (h : Half) (k : Nat) (f : Cxp → Cxp) : (d.modCxp h k f).engines = d.engines := rfl
@[simp] theorem Dev.modCxp_ctxs (d : Dev) (h : Half) (k : Nat) (f : Cxp → Cxp) : (d.modCxp h k f).ctxs = d.ctxs := rfl
@[simp] theorem Dev.modCxp_harness (d : Dev) (h : Half) (k : Nat) (f : Cxp → Cxp) : (d.modCxp h k f).harness = d.harness := rfl
@[simp] theorem Dev.modCxp_chans (d : Dev) (h : Half) (k : Nat) (f : Cxp → Cxp) : (d.modCxp h k f).chans = d.chans := rfl
@[simp] theorem Dev.modCxp_seals (d : Dev) (h : Half) (k : Nat) (f : Cxp → Cxp) : (d.modCxp h k f).seals = d.seals := rfl
@[simp] theorem Dev.modCxp_ports (d : Dev) (h : Half) (k : Nat) (f : Cxp → Cxp) : (d.modCxp h k f).ports = d.ports := rfl
@[simp] theorem Dev.modCxp_pipes (d : Dev) (h : Half) (k : Nat) (f : Cxp → Cxp) : (d.modCxp h k f).pipes = d.pipes := rfl
@[simp] theorem Dev.modCxp_kux (d : Dev) (h : Half) (k : Nat) (f : Cxp → Cxp) : (d.modCxp h k f).kux = d.kux := rfl
@[simp] theorem Dev.modCxp_nvhs (d : Dev) (h : Half) (k : Nat) (f : Cxp → Cxp) : (d.modCxp h k f).nvhs = d.nvhs := rfl
@[simp] theorem Dev.modCxp_dmas (d : Dev) (h : Half) (k : Nat) (f : Cxp → Cxp) : (d.modCxp h k f).dmas = d.dmas := rfl
@[simp] theorem Dev.modCxp_prisms (d : Dev) (h : Half) (k : Nat) (f : Cxp → Cxp) : (d.modCxp h k f).prisms = d.prisms := rfl
@[simp] theorem Dev.modCxp_heads (d : Dev) (h : Half) (k : Nat) (f : Cxp → Cxp) : (d.modCxp h k f).heads = d.heads := rfl
@[simp] theorem Dev.modCxp_aud (d : Dev) (h : Half) (k : Nat) (f : Cxp → Cxp) : (d.modCxp h k f).aud = d.aud := rfl
@[simp] theorem Dev.modCxp_timers (d : Dev) (h : Half) (k : Nat) (f : Cxp → Cxp) : (d.modCxp h k f).timers = d.timers := rfl
@[simp] theorem Dev.modCxp_ueLines (d : Dev) (h : Half) (k : Nat) (f : Cxp → Cxp) : (d.modCxp h k f).ueLines = d.ueLines := rfl
@[simp] theorem Dev.modCxp_rd (d : Dev) (h : Half) (k : Nat) (f : Cxp → Cxp) (l : Loc) (o : Nat) : (d.modCxp h k f).rd l o = d.rd l o := rfl
@[simp] theorem Dev.modCxp_g (d : Dev) (h : Half) (k : Nat) (f : Cxp → Cxp) (l : Loc) (q : Fld) : (d.modCxp h k f).g l q = d.g l q := rfl
@[simp] theorem Dev.modCxp_on (d : Dev) (h : Half) (k : Nat) (f : Cxp → Cxp) (l : Loc) (q : Fld) : (d.modCxp h k f).on l q = d.on l q := rfl
@[simp] theorem Dev.cxp_modCxp_same (d : Dev) (h : Half) (k : Nat) (f : Cxp → Cxp) : (d.modCxp h k f).cxp h k = f (d.cxp h k) := by unfold Dev.modCxp Dev.cxp; rw [SMap.get_modify, if_pos rfl]
theorem Dev.cxp_modCxp_ne (d : Dev) (h : Half) (k : Nat) (f : Cxp → Cxp) (h' : Half) (k' : Nat) (hk : k < 2) (hk' : k' < 2) (ne : h' ≠ h ∨ k' ≠ k) : (d.modCxp h k f).cxp h' k' = d.cxp h' k' := by
  unfold Dev.modCxp Dev.cxp
  rw [SMap.get_modify, if_neg]
  cases h <;> cases h' <;> simp_all [Half.n] <;> omega

/-! ### setKx -/

@[simp] theorem Dev.setKx_regs (d : Dev) (r c : Nat) (x : Kux) : (d.setKx r c x).regs = d.regs := rfl
@[simp] theorem Dev.setKx_shadow (d : Dev) (r c : Nat) (x : Kux) : (d.setKx r c x).shadow = d.shadow := rfl
@[simp] theorem Dev.setKx_reports (d : Dev) (r c : Nat) (x : Kux) : (d.setKx r c x).reports = d.reports := rfl
@[simp] theorem Dev.setKx_freeCount (d : Dev) (r c : Nat) (x : Kux) : (d.setKx r c x).freeCount = d.freeCount := rfl
@[simp] theorem Dev.setKx_readData (d : Dev) (r c : Nat) (x : Kux) : (d.setKx r c x).readData = d.readData := rfl
@[simp] theorem Dev.setKx_beams (d : Dev) (r c : Nat) (x : Kux) : (d.setKx r c x).beams = d.beams := rfl
@[simp] theorem Dev.setKx_engines (d : Dev) (r c : Nat) (x : Kux) : (d.setKx r c x).engines = d.engines := rfl
@[simp] theorem Dev.setKx_ctxs (d : Dev) (r c : Nat) (x : Kux) : (d.setKx r c x).ctxs = d.ctxs := rfl
@[simp] theorem Dev.setKx_harness (d : Dev) (r c : Nat) (x : Kux) : (d.setKx r c x).harness = d.harness := rfl
@[simp] theorem Dev.setKx_chans (d : Dev) (r c : Nat) (x : Kux) : (d.setKx r c x).chans = d.chans := rfl
@[simp] theorem Dev.setKx_seals (d : Dev) (r c : Nat) (x : Kux) : (d.setKx r c x).seals = d.seals := rfl
@[simp] theorem Dev.setKx_ports (d : Dev) (r c : Nat) (x : Kux) : (d.setKx r c x).ports = d.ports := rfl
@[simp] theorem Dev.setKx_pipes (d : Dev) (r c : Nat) (x : Kux) : (d.setKx r c x).pipes = d.pipes := rfl
@[simp] theorem Dev.setKx_cxps (d : Dev) (r c : Nat) (x : Kux) : (d.setKx r c x).cxps = d.cxps := rfl
@[simp] theorem Dev.setKx_nvhs (d : Dev) (r c : Nat) (x : Kux) : (d.setKx r c x).nvhs = d.nvhs := rfl
@[simp] theorem Dev.setKx_dmas (d : Dev) (r c : Nat) (x : Kux) : (d.setKx r c x).dmas = d.dmas := rfl
@[simp] theorem Dev.setKx_prisms (d : Dev) (r c : Nat) (x : Kux) : (d.setKx r c x).prisms = d.prisms := rfl
@[simp] theorem Dev.setKx_heads (d : Dev) (r c : Nat) (x : Kux) : (d.setKx r c x).heads = d.heads := rfl
@[simp] theorem Dev.setKx_aud (d : Dev) (r c : Nat) (x : Kux) : (d.setKx r c x).aud = d.aud := rfl
@[simp] theorem Dev.setKx_timers (d : Dev) (r c : Nat) (x : Kux) : (d.setKx r c x).timers = d.timers := rfl
@[simp] theorem Dev.setKx_ueLines (d : Dev) (r c : Nat) (x : Kux) : (d.setKx r c x).ueLines = d.ueLines := rfl
@[simp] theorem Dev.setKx_rd (d : Dev) (r c : Nat) (x : Kux) (l : Loc) (o : Nat) : (d.setKx r c x).rd l o = d.rd l o := rfl
@[simp] theorem Dev.setKx_g (d : Dev) (r c : Nat) (x : Kux) (l : Loc) (q : Fld) : (d.setKx r c x).g l q = d.g l q := rfl
@[simp] theorem Dev.setKx_on (d : Dev) (r c : Nat) (x : Kux) (l : Loc) (q : Fld) : (d.setKx r c x).on l q = d.on l q := rfl
@[simp] theorem Dev.kx_setKx_same (d : Dev) (r c : Nat) (x : Kux) : (d.setKx r c x).kx r c = x := SMap.get_set_same _ _ _
theorem Dev.kx_setKx_ne (d : Dev) (r c : Nat) (x : Kux) (r' : Nat) (c' : Nat) (hc : c < 32) (hc' : c' < 32) (ne : r' ≠ r ∨ c' ≠ c) : (d.setKx r c x).kx r' c' = d.kx r' c' := by
  refine SMap.get_set_ne _ _ ?_
  omega

/-! ### modNvh -/

@[simp] theorem Dev.modNvh_regs (d : Dev) (h : Half) (f : Nvh → Nvh) : (d.modNvh h f).regs = d.regs := rfl
@[simp] theorem Dev.modNvh_shadow (d : Dev) (h : Half) (f : Nvh → Nvh) : (d.modNvh h f).shadow = d.shadow := rfl
@[simp] theorem Dev.modNvh_reports (d : Dev) (h : Half) (f : Nvh → Nvh) : (d.modNvh h f).reports = d.reports := rfl
@[simp] theorem Dev.modNvh_freeCount (d : Dev) (h : Half) (f : Nvh → Nvh) : (d.modNvh h f).freeCount = d.freeCount := rfl
@[simp] theorem Dev.modNvh_readData (d : Dev) (h : Half) (f : Nvh → Nvh) : (d.modNvh h f).readData = d.readData := rfl
@[simp] theorem Dev.modNvh_beams (d : Dev) (h : Half) (f : Nvh → Nvh) : (d.modNvh h f).beams = d.beams := rfl
@[simp] theorem Dev.modNvh_engines (d : Dev) (h : Half) (f : Nvh → Nvh) : (d.modNvh h f).engines = d.engines := rfl
@[simp] theorem Dev.modNvh_ctxs (d : Dev) (h : Half) (f : Nvh → Nvh) : (d.modNvh h f).ctxs = d.ctxs := rfl
@[simp] theorem Dev.modNvh_harness (d : Dev) (h : Half) (f : Nvh → Nvh) : (d.modNvh h f).harness = d.harness := rfl
@[simp] theorem Dev.modNvh_chans (d : Dev) (h : Half) (f : Nvh → Nvh) : (d.modNvh h f).chans = d.chans := rfl
@[simp] theorem Dev.modNvh_seals (d : Dev) (h : Half) (f : Nvh → Nvh) : (d.modNvh h f).seals = d.seals := rfl
@[simp] theorem Dev.modNvh_ports (d : Dev) (h : Half) (f : Nvh → Nvh) : (d.modNvh h f).ports = d.ports := rfl
@[simp] theorem Dev.modNvh_pipes (d : Dev) (h : Half) (f : Nvh → Nvh) : (d.modNvh h f).pipes = d.pipes := rfl
@[simp] theorem Dev.modNvh_cxps (d : Dev) (h : Half) (f : Nvh → Nvh) : (d.modNvh h f).cxps = d.cxps := rfl
@[simp] theorem Dev.modNvh_kux (d : Dev) (h : Half) (f : Nvh → Nvh) : (d.modNvh h f).kux = d.kux := rfl
@[simp] theorem Dev.modNvh_dmas (d : Dev) (h : Half) (f : Nvh → Nvh) : (d.modNvh h f).dmas = d.dmas := rfl
@[simp] theorem Dev.modNvh_prisms (d : Dev) (h : Half) (f : Nvh → Nvh) : (d.modNvh h f).prisms = d.prisms := rfl
@[simp] theorem Dev.modNvh_heads (d : Dev) (h : Half) (f : Nvh → Nvh) : (d.modNvh h f).heads = d.heads := rfl
@[simp] theorem Dev.modNvh_aud (d : Dev) (h : Half) (f : Nvh → Nvh) : (d.modNvh h f).aud = d.aud := rfl
@[simp] theorem Dev.modNvh_timers (d : Dev) (h : Half) (f : Nvh → Nvh) : (d.modNvh h f).timers = d.timers := rfl
@[simp] theorem Dev.modNvh_ueLines (d : Dev) (h : Half) (f : Nvh → Nvh) : (d.modNvh h f).ueLines = d.ueLines := rfl
@[simp] theorem Dev.modNvh_rd (d : Dev) (h : Half) (f : Nvh → Nvh) (l : Loc) (o : Nat) : (d.modNvh h f).rd l o = d.rd l o := rfl
@[simp] theorem Dev.modNvh_g (d : Dev) (h : Half) (f : Nvh → Nvh) (l : Loc) (q : Fld) : (d.modNvh h f).g l q = d.g l q := rfl
@[simp] theorem Dev.modNvh_on (d : Dev) (h : Half) (f : Nvh → Nvh) (l : Loc) (q : Fld) : (d.modNvh h f).on l q = d.on l q := rfl
@[simp] theorem Dev.nvh_modNvh_same (d : Dev) (h : Half) (f : Nvh → Nvh) : (d.modNvh h f).nvh h = f (d.nvh h) := by unfold Dev.modNvh Dev.nvh; rw [SMap.get_modify, if_pos rfl]
theorem Dev.nvh_modNvh_ne (d : Dev) (h : Half) (f : Nvh → Nvh) (h' : Half)  (ne : h' ≠ h) : (d.modNvh h f).nvh h' = d.nvh h' := by
  unfold Dev.modNvh Dev.nvh
  rw [SMap.get_modify, if_neg]
  cases h <;> cases h' <;> simp_all [Half.n]

/-! ### modDma -/

@[simp] theorem Dev.modDma_regs (d : Dev) (r c : Nat) (f : DmaCh → DmaCh) : (d.modDma r c f).regs = d.regs := rfl
@[simp] theorem Dev.modDma_shadow (d : Dev) (r c : Nat) (f : DmaCh → DmaCh) : (d.modDma r c f).shadow = d.shadow := rfl
@[simp] theorem Dev.modDma_reports (d : Dev) (r c : Nat) (f : DmaCh → DmaCh) : (d.modDma r c f).reports = d.reports := rfl
@[simp] theorem Dev.modDma_freeCount (d : Dev) (r c : Nat) (f : DmaCh → DmaCh) : (d.modDma r c f).freeCount = d.freeCount := rfl
@[simp] theorem Dev.modDma_readData (d : Dev) (r c : Nat) (f : DmaCh → DmaCh) : (d.modDma r c f).readData = d.readData := rfl
@[simp] theorem Dev.modDma_beams (d : Dev) (r c : Nat) (f : DmaCh → DmaCh) : (d.modDma r c f).beams = d.beams := rfl
@[simp] theorem Dev.modDma_engines (d : Dev) (r c : Nat) (f : DmaCh → DmaCh) : (d.modDma r c f).engines = d.engines := rfl
@[simp] theorem Dev.modDma_ctxs (d : Dev) (r c : Nat) (f : DmaCh → DmaCh) : (d.modDma r c f).ctxs = d.ctxs := rfl
@[simp] theorem Dev.modDma_harness (d : Dev) (r c : Nat) (f : DmaCh → DmaCh) : (d.modDma r c f).harness = d.harness := rfl
@[simp] theorem Dev.modDma_chans (d : Dev) (r c : Nat) (f : DmaCh → DmaCh) : (d.modDma r c f).chans = d.chans := rfl
@[simp] theorem Dev.modDma_seals (d : Dev) (r c : Nat) (f : DmaCh → DmaCh) : (d.modDma r c f).seals = d.seals := rfl
@[simp] theorem Dev.modDma_ports (d : Dev) (r c : Nat) (f : DmaCh → DmaCh) : (d.modDma r c f).ports = d.ports := rfl
@[simp] theorem Dev.modDma_pipes (d : Dev) (r c : Nat) (f : DmaCh → DmaCh) : (d.modDma r c f).pipes = d.pipes := rfl
@[simp] theorem Dev.modDma_cxps (d : Dev) (r c : Nat) (f : DmaCh → DmaCh) : (d.modDma r c f).cxps = d.cxps := rfl
@[simp] theorem Dev.modDma_kux (d : Dev) (r c : Nat) (f : DmaCh → DmaCh) : (d.modDma r c f).kux = d.kux := rfl
@[simp] theorem Dev.modDma_nvhs (d : Dev) (r c : Nat) (f : DmaCh → DmaCh) : (d.modDma r c f).nvhs = d.nvhs := rfl
@[simp] theorem Dev.modDma_prisms (d : Dev) (r c : Nat) (f : DmaCh → DmaCh) : (d.modDma r c f).prisms = d.prisms := rfl
@[simp] theorem Dev.modDma_heads (d : Dev) (r c : Nat) (f : DmaCh → DmaCh) : (d.modDma r c f).heads = d.heads := rfl
@[simp] theorem Dev.modDma_aud (d : Dev) (r c : Nat) (f : DmaCh → DmaCh) : (d.modDma r c f).aud = d.aud := rfl
@[simp] theorem Dev.modDma_timers (d : Dev) (r c : Nat) (f : DmaCh → DmaCh) : (d.modDma r c f).timers = d.timers := rfl
@[simp] theorem Dev.modDma_ueLines (d : Dev) (r c : Nat) (f : DmaCh → DmaCh) : (d.modDma r c f).ueLines = d.ueLines := rfl
@[simp] theorem Dev.modDma_rd (d : Dev) (r c : Nat) (f : DmaCh → DmaCh) (l : Loc) (o : Nat) : (d.modDma r c f).rd l o = d.rd l o := rfl
@[simp] theorem Dev.modDma_g (d : Dev) (r c : Nat) (f : DmaCh → DmaCh) (l : Loc) (q : Fld) : (d.modDma r c f).g l q = d.g l q := rfl
@[simp] theorem Dev.modDma_on (d : Dev) (r c : Nat) (f : DmaCh → DmaCh) (l : Loc) (q : Fld) : (d.modDma r c f).on l q = d.on l q := rfl
@[simp] theorem Dev.dma_modDma_same (d : Dev) (r c : Nat) (f : DmaCh → DmaCh) : (d.modDma r c f).dma r c = f (d.dma r c) := by unfold Dev.modDma Dev.dma; rw [SMap.get_modify, if_pos rfl]
theorem Dev.dma_modDma_ne (d : Dev) (r c : Nat) (f : DmaCh → DmaCh) (r' : Nat) (c' : Nat) (hc : c < 16) (hc' : c' < 16) (ne : r' ≠ r ∨ c' ≠ c) : (d.modDma r c f).dma r' c' = d.dma r' c' := by
  unfold Dev.modDma Dev.dma
  rw [SMap.get_modify, if_neg]
  omega

/-! ### modPrism -/

@[simp] theorem Dev.modPrism_regs (d : Dev) (c : Nat) (f : Prism → Prism) : (d.modPrism c f).regs = d.regs := rfl
@[simp] theorem Dev.modPrism_shadow (d : Dev) (c : Nat) (f : Prism → Prism) : (d.modPrism c f).shadow = d.shadow := rfl
@[simp] theorem Dev.modPrism_reports (d : Dev) (c : Nat) (f : Prism → Prism) : (d.modPrism c f).reports = d.reports := rfl
@[simp] theorem Dev.modPrism_freeCount (d : Dev) (c : Nat) (f : Prism → Prism) : (d.modPrism c f).freeCount = d.freeCount := rfl
@[simp] theorem Dev.modPrism_readData (d : Dev) (c : Nat) (f : Prism → Prism) : (d.modPrism c f).readData = d.readData := rfl
@[simp] theorem Dev.modPrism_beams (d : Dev) (c : Nat) (f : Prism → Prism) : (d.modPrism c f).beams = d.beams := rfl
@[simp] theorem Dev.modPrism_engines (d : Dev) (c : Nat) (f : Prism → Prism) : (d.modPrism c f).engines = d.engines := rfl
@[simp] theorem Dev.modPrism_ctxs (d : Dev) (c : Nat) (f : Prism → Prism) : (d.modPrism c f).ctxs = d.ctxs := rfl
@[simp] theorem Dev.modPrism_harness (d : Dev) (c : Nat) (f : Prism → Prism) : (d.modPrism c f).harness = d.harness := rfl
@[simp] theorem Dev.modPrism_chans (d : Dev) (c : Nat) (f : Prism → Prism) : (d.modPrism c f).chans = d.chans := rfl
@[simp] theorem Dev.modPrism_seals (d : Dev) (c : Nat) (f : Prism → Prism) : (d.modPrism c f).seals = d.seals := rfl
@[simp] theorem Dev.modPrism_ports (d : Dev) (c : Nat) (f : Prism → Prism) : (d.modPrism c f).ports = d.ports := rfl
@[simp] theorem Dev.modPrism_pipes (d : Dev) (c : Nat) (f : Prism → Prism) : (d.modPrism c f).pipes = d.pipes := rfl
@[simp] theorem Dev.modPrism_cxps (d : Dev) (c : Nat) (f : Prism → Prism) : (d.modPrism c f).cxps = d.cxps := rfl
@[simp] theorem Dev.modPrism_kux (d : Dev) (c : Nat) (f : Prism → Prism) : (d.modPrism c f).kux = d.kux := rfl
@[simp] theorem Dev.modPrism_nvhs (d : Dev) (c : Nat) (f : Prism → Prism) : (d.modPrism c f).nvhs = d.nvhs := rfl
@[simp] theorem Dev.modPrism_dmas (d : Dev) (c : Nat) (f : Prism → Prism) : (d.modPrism c f).dmas = d.dmas := rfl
@[simp] theorem Dev.modPrism_heads (d : Dev) (c : Nat) (f : Prism → Prism) : (d.modPrism c f).heads = d.heads := rfl
@[simp] theorem Dev.modPrism_aud (d : Dev) (c : Nat) (f : Prism → Prism) : (d.modPrism c f).aud = d.aud := rfl
@[simp] theorem Dev.modPrism_timers (d : Dev) (c : Nat) (f : Prism → Prism) : (d.modPrism c f).timers = d.timers := rfl
@[simp] theorem Dev.modPrism_ueLines (d : Dev) (c : Nat) (f : Prism → Prism) : (d.modPrism c f).ueLines = d.ueLines := rfl
@[simp] theorem Dev.modPrism_rd (d : Dev) (c : Nat) (f : Prism → Prism) (l : Loc) (o : Nat) : (d.modPrism c f).rd l o = d.rd l o := rfl
@[simp] theorem Dev.modPrism_g (d : Dev) (c : Nat) (f : Prism → Prism) (l : Loc) (q : Fld) : (d.modPrism c f).g l q = d.g l q := rfl
@[simp] theorem Dev.modPrism_on (d : Dev) (c : Nat) (f : Prism → Prism) (l : Loc) (q : Fld) : (d.modPrism c f).on l q = d.on l q := rfl
@[simp] theorem Dev.prism_modPrism_same (d : Dev) (c : Nat) (f : Prism → Prism) : (d.modPrism c f).prism c = f (d.prism c) := by unfold Dev.modPrism Dev.prism; rw [SMap.get_modify, if_pos rfl]
theorem Dev.prism_modPrism_ne (d : Dev) (c : Nat) (f : Prism → Prism) (c' : Nat)  (ne : c' ≠ c) : (d.modPrism c f).prism c' = d.prism c' := by
  unfold Dev.modPrism Dev.prism
  rw [SMap.get_modify, if_neg]
  omega

/-! ### modHead -/

@[simp] theorem Dev.modHead_regs (d : Dev) (c : Nat) (f : Head → Head) : (d.modHead c f).regs = d.regs := rfl
@[simp] theorem Dev.modHead_shadow (d : Dev) (c : Nat) (f : Head → Head) : (d.modHead c f).shadow = d.shadow := rfl
@[simp] theorem Dev.modHead_reports (d : Dev) (c : Nat) (f : Head → Head) : (d.modHead c f).reports = d.reports := rfl
@[simp] theorem Dev.modHead_freeCount (d : Dev) (c : Nat) (f : Head → Head) : (d.modHead c f).freeCount = d.freeCount := rfl
@[simp] theorem Dev.modHead_readData (d : Dev) (c : Nat) (f : Head → Head) : (d.modHead c f).readData = d.readData := rfl
@[simp] theorem Dev.modHead_beams (d : Dev) (c : Nat) (f : Head → Head) : (d.modHead c f).beams = d.beams := rfl
@[simp] theorem Dev.modHead_engines (d : Dev) (c : Nat) (f : Head → Head) : (d.modHead c f).engines = d.engines := rfl
@[simp] theorem Dev.modHead_ctxs (d : Dev) (c : Nat) (f : Head → Head) : (d.modHead c f).ctxs = d.ctxs := rfl
@[simp] theorem Dev.modHead_harness (d : Dev) (c : Nat) (f : Head → Head) : (d.modHead c f).harness = d.harness := rfl
@[simp] theorem Dev.modHead_chans (d : Dev) (c : Nat) (f : Head → Head) : (d.modHead c f).chans = d.chans := rfl
@[simp] theorem Dev.modHead_seals (d : Dev) (c : Nat) (f : Head → Head) : (d.modHead c f).seals = d.seals := rfl
@[simp] theorem Dev.modHead_ports (d : Dev) (c : Nat) (f : Head → Head) : (d.modHead c f).ports = d.ports := rfl
@[simp] theorem Dev.modHead_pipes (d : Dev) (c : Nat) (f : Head → Head) : (d.modHead c f).pipes = d.pipes := rfl
@[simp] theorem Dev.modHead_cxps (d : Dev) (c : Nat) (f : Head → Head) : (d.modHead c f).cxps = d.cxps := rfl
@[simp] theorem Dev.modHead_kux (d : Dev) (c : Nat) (f : Head → Head) : (d.modHead c f).kux = d.kux := rfl
@[simp] theorem Dev.modHead_nvhs (d : Dev) (c : Nat) (f : Head → Head) : (d.modHead c f).nvhs = d.nvhs := rfl
@[simp] theorem Dev.modHead_dmas (d : Dev) (c : Nat) (f : Head → Head) : (d.modHead c f).dmas = d.dmas := rfl
@[simp] theorem Dev.modHead_prisms (d : Dev) (c : Nat) (f : Head → Head) : (d.modHead c f).prisms = d.prisms := rfl
@[simp] theorem Dev.modHead_aud (d : Dev) (c : Nat) (f : Head → Head) : (d.modHead c f).aud = d.aud := rfl
@[simp] theorem Dev.modHead_timers (d : Dev) (c : Nat) (f : Head → Head) : (d.modHead c f).timers = d.timers := rfl
@[simp] theorem Dev.modHead_ueLines (d : Dev) (c : Nat) (f : Head → Head) : (d.modHead c f).ueLines = d.ueLines := rfl
@[simp] theorem Dev.modHead_rd (d : Dev) (c : Nat) (f : Head → Head) (l : Loc) (o : Nat) : (d.modHead c f).rd l o = d.rd l o := rfl
@[simp] theorem Dev.modHead_g (d : Dev) (c : Nat) (f : Head → Head) (l : Loc) (q : Fld) : (d.modHead c f).g l q = d.g l q := rfl
@[simp] theorem Dev.modHead_on (d : Dev) (c : Nat) (f : Head → Head) (l : Loc) (q : Fld) : (d.modHead c f).on l q = d.on l q := rfl
@[simp] theorem Dev.head_modHead_same (d : Dev) (c : Nat) (f : Head → Head) : (d.modHead c f).head c = f (d.head c) := by unfold Dev.modHead Dev.head; rw [SMap.get_modify, if_pos rfl]
theorem Dev.head_modHead_ne (d : Dev) (c : Nat) (f : Head → Head) (c' : Nat)  (ne : c' ≠ c) : (d.modHead c f).head c' = d.head c' := by
  unfold Dev.modHead Dev.head
  rw [SMap.get_modify, if_neg]
  omega

/-! ### modAud -/

@[simp] theorem Dev.modAud_regs (d : Dev) (f : Audio → Audio) : (d.modAud f).regs = d.regs := rfl
@[simp] theorem Dev.modAud_shadow (d : Dev) (f : Audio → Audio) : (d.modAud f).shadow = d.shadow := rfl
@[simp] theorem Dev.modAud_reports (d : Dev) (f : Audio → Audio) : (d.modAud f).reports = d.reports := rfl
@[simp] theorem Dev.modAud_freeCount (d : Dev) (f : Audio → Audio) : (d.modAud f).freeCount = d.freeCount := rfl
@[simp] theorem Dev.modAud_readData (d : Dev) (f : Audio → Audio) : (d.modAud f).readData = d.readData := rfl
@[simp] theorem Dev.modAud_beams (d : Dev) (f : Audio → Audio) : (d.modAud f).beams = d.beams := rfl
@[simp] theorem Dev.modAud_engines (d : Dev) (f : Audio → Audio) : (d.modAud f).engines = d.engines := rfl
@[simp] theorem Dev.modAud_ctxs (d : Dev) (f : Audio → Audio) : (d.modAud f).ctxs = d.ctxs := rfl
@[simp] theorem Dev.modAud_harness (d : Dev) (f : Audio → Audio) : (d.modAud f).harness = d.harness := rfl
@[simp] theorem Dev.modAud_chans (d : Dev) (f : Audio → Audio) : (d.modAud f).chans = d.chans := rfl
@[simp] theorem Dev.modAud_seals (d : Dev) (f : Audio → Audio) : (d.modAud f).seals = d.seals := rfl
@[simp] theorem Dev.modAud_ports (d : Dev) (f : Audio → Audio) : (d.modAud f).ports = d.ports := rfl
@[simp] theorem Dev.modAud_pipes (d : Dev) (f : Audio → Audio) : (d.modAud f).pipes = d.pipes := rfl
@[simp] theorem Dev.modAud_cxps (d : Dev) (f : Audio → Audio) : (d.modAud f).cxps = d.cxps := rfl
@[simp] theorem Dev.modAud_kux (d : Dev) (f : Audio → Audio) : (d.modAud f).kux = d.kux := rfl
@[simp] theorem Dev.modAud_nvhs (d : Dev) (f : Audio → Audio) : (d.modAud f).nvhs = d.nvhs := rfl
@[simp] theorem Dev.modAud_dmas (d : Dev) (f : Audio → Audio) : (d.modAud f).dmas = d.dmas := rfl
@[simp] theorem Dev.modAud_prisms (d : Dev) (f : Audio → Audio) : (d.modAud f).prisms = d.prisms := rfl
@[simp] theorem Dev.modAud_heads (d : Dev) (f : Audio → Audio) : (d.modAud f).heads = d.heads := rfl
@[simp] theorem Dev.modAud_timers (d : Dev) (f : Audio → Audio) : (d.modAud f).timers = d.timers := rfl
@[simp] theorem Dev.modAud_ueLines (d : Dev) (f : Audio → Audio) : (d.modAud f).ueLines = d.ueLines := rfl
@[simp] theorem Dev.modAud_rd (d : Dev) (f : Audio → Audio) (l : Loc) (o : Nat) : (d.modAud f).rd l o = d.rd l o := rfl
@[simp] theorem Dev.modAud_g (d : Dev) (f : Audio → Audio) (l : Loc) (q : Fld) : (d.modAud f).g l q = d.g l q := rfl
@[simp] theorem Dev.modAud_on (d : Dev) (f : Audio → Audio) (l : Loc) (q : Fld) : (d.modAud f).on l q = d.on l q := rfl
@[simp] theorem Dev.modAud_aud (d : Dev) (f : Audio → Audio) : (d.modAud f).aud = f d.aud := rfl

/-! ### setTimer -/

@[simp] theorem Dev.setTimer_regs (d : Dev) (r t : Nat) (x : Timer) : (d.setTimer r t x).regs = d.regs := rfl
@[simp] theorem Dev.setTimer_shadow (d : Dev) (r t : Nat) (x : Timer) : (d.setTimer r t x).shadow = d.shadow := rfl
@[simp] theorem Dev.setTimer_reports (d : Dev) (r t : Nat) (x : Timer) : (d.setTimer r t x).reports = d.reports := rfl
@[simp] theorem Dev.setTimer_freeCount (d : Dev) (r t : Nat) (x : Timer) : (d.setTimer r t x).freeCount = d.freeCount := rfl
@[simp] theorem Dev.setTimer_readData (d : Dev) (r t : Nat) (x : Timer) : (d.setTimer r t x).readData = d.readData := rfl
@[simp] theorem Dev.setTimer_beams (d : Dev) (r t : Nat) (x : Timer) : (d.setTimer r t x).beams = d.beams := rfl
@[simp] theorem Dev.setTimer_engines (d : Dev) (r t : Nat) (x : Timer) : (d.setTimer r t x).engines = d.engines := rfl
@[simp] theorem Dev.setTimer_ctxs (d : Dev) (r t : Nat) (x : Timer) : (d.setTimer r t x).ctxs = d.ctxs := rfl
@[simp] theorem Dev.setTimer_harness (d : Dev) (r t : Nat) (x : Timer) : (d.setTimer r t x).harness = d.harness := rfl
@[simp] theorem Dev.setTimer_chans (d : Dev) (r t : Nat) (x : Timer) : (d.setTimer r t x).chans = d.chans := rfl
@[simp] theorem Dev.setTimer_seals (d : Dev) (r t : Nat) (x : Timer) : (d.setTimer r t x).seals = d.seals := rfl
@[simp] theorem Dev.setTimer_ports (d : Dev) (r t : Nat) (x : Timer) : (d.setTimer r t x).ports = d.ports := rfl
@[simp] theorem Dev.setTimer_pipes (d : Dev) (r t : Nat) (x : Timer) : (d.setTimer r t x).pipes = d.pipes := rfl
@[simp] theorem Dev.setTimer_cxps (d : Dev) (r t : Nat) (x : Timer) : (d.setTimer r t x).cxps = d.cxps := rfl
@[simp] theorem Dev.setTimer_kux (d : Dev) (r t : Nat) (x : Timer) : (d.setTimer r t x).kux = d.kux := rfl
@[simp] theorem Dev.setTimer_nvhs (d : Dev) (r t : Nat) (x : Timer) : (d.setTimer r t x).nvhs = d.nvhs := rfl
@[simp] theorem Dev.setTimer_dmas (d : Dev) (r t : Nat) (x : Timer) : (d.setTimer r t x).dmas = d.dmas := rfl
@[simp] theorem Dev.setTimer_prisms (d : Dev) (r t : Nat) (x : Timer) : (d.setTimer r t x).prisms = d.prisms := rfl
@[simp] theorem Dev.setTimer_heads (d : Dev) (r t : Nat) (x : Timer) : (d.setTimer r t x).heads = d.heads := rfl
@[simp] theorem Dev.setTimer_aud (d : Dev) (r t : Nat) (x : Timer) : (d.setTimer r t x).aud = d.aud := rfl
@[simp] theorem Dev.setTimer_ueLines (d : Dev) (r t : Nat) (x : Timer) : (d.setTimer r t x).ueLines = d.ueLines := rfl
@[simp] theorem Dev.setTimer_rd (d : Dev) (r t : Nat) (x : Timer) (l : Loc) (o : Nat) : (d.setTimer r t x).rd l o = d.rd l o := rfl
@[simp] theorem Dev.setTimer_g (d : Dev) (r t : Nat) (x : Timer) (l : Loc) (q : Fld) : (d.setTimer r t x).g l q = d.g l q := rfl
@[simp] theorem Dev.setTimer_on (d : Dev) (r t : Nat) (x : Timer) (l : Loc) (q : Fld) : (d.setTimer r t x).on l q = d.on l q := rfl
@[simp] theorem Dev.timer_setTimer_same (d : Dev) (r t : Nat) (x : Timer) : (d.setTimer r t x).timer r t = x := SMap.get_set_same _ _ _
theorem Dev.timer_setTimer_ne (d : Dev) (r t : Nat) (x : Timer) (r' : Nat) (t' : Nat) (ht : t < 16) (ht' : t' < 16) (ne : r' ≠ r ∨ t' ≠ t) : (d.setTimer r t x).timer r' t' = d.timer r' t' := by
  refine SMap.get_set_ne _ _ ?_
  omega

end Sys2Proof.Machine
end

