-- ==== Sys2Proof/Tests/Slice0.lean ====
section
/-!
SUPPORT. Tests of the model: ill-formed commands that `Instr.wf` refuses; for every statement a concrete state and operands that meet its
hypotheses, clause by clause; single steps whose result the manual gives.
-/
set_option Elab.async false
namespace Sys2Proof.Tests
open Sys2Proof Sys2Proof.Machine

/-- Half A in CHARGE, Half B in STANDBY, the service region released, every supply up. -/
def live : State :=
  { State.reset with
    ref := { hsA := .charge, hsB := .standby, supA := true, supB := true, supS := true, powerOn := false, cold := false }
    dev := { svcUp := true } }
/-- `live` with its devices changed. -/
def dv (f : Dev → Dev) : State := { live with dev := f live.dev }
/-- `live` with its referee changed. -/
def rf (f : Referee → Referee) : State := { live with ref := f live.ref }
/-- The same machine with the DRAM of Half A populated. -/
def pop (s : State) : State := { s with dev := (s.dev.p (hLoc .A .mec) MEC_GEOM.DENSITY 1).p (hLoc .A .mec 1) MEC_GEOM.DENSITY 1 }
/-- `live` with the DRAM of Half A populated. -/
def dram (f : Dev → Dev := id) : State := { pop live with dev := f (pop live).dev }
/-- With no memory error, the code does nothing at any read. -/
theorem clean_of (d : Dev) (h : d.ceWords = [] ∧ d.ueLines = [] ∧ d.caBad = []) (a n : Nat) : d.cleanAt a n := by
  unfold Dev.cleanAt Dev.ceIn; rw [h.1, h.2.1, h.2.2]; simp
/-- With no memory error and no page on its way, accesses to memory do nothing besides. -/
theorem calm_of (d : Dev) (h : d.ueLines = [] ∧ d.caBad = [] ∧ d.ceWords = [] ∧ (d.nvh .A).out = [] ∧ (d.nvh .B).out = []) : d.calm :=
  ⟨h.1, h.2.1, h.2.2.1, fun x => by cases x; exact h.2.2.2.1; exact h.2.2.2.2⟩
theorem crc32Byte_lt (c : Nat) (b : Byte) (h : c < 2 ^ 32) : crc32Byte c b < 2 ^ 32 := by
  have step : ∀ (l : List Nat) (x : Nat), x < 2 ^ 32 → l.foldl (fun x _ => if x % 2 = 1 then (x / 2) ^^^ 0xEDB88320 else x / 2) x < 2 ^ 32 := by
    intro l
    induction l with
    | nil => intro x hx; exact hx
    | cons _ _ ih =>
      intro x hx
      refine ih _ ?_
      dsimp only
      split
      · exact Nat.xor_lt_two_pow (by omega) (by decide)
      · omega
  exact step _ _ (Nat.xor_lt_two_pow h (by have := b.isLt; omega))
theorem crc32_lt (bs : List Byte) : crc32 bs < 2 ^ 32 := by
  have all : ∀ (l : List Byte) (x : Nat), x < 2 ^ 32 → l.foldl crc32Byte x < 2 ^ 32 := by
    intro l
    induction l with
    | nil => intro x hx; exact hx
    | cons b _ ih => intro x hx; exact ih _ (crc32Byte_lt x b hx)
  exact Nat.xor_lt_two_pow (all bs _ (by decide)) (by decide)
theorem ofBytes_toBytes (v : Nat) (h : v < 2 ^ 32) : ofBytes (toBytes v 4) = v := by
  simp [toBytes, ofBytes]; omega
theorem toBytes_four (v : Nat) : (toBytes v 4).length = 4 := rfl

/-! ### Witnesses: the machine as a whole -/

theorem witness_EveryStepAnswersANextState : ∃ t, step { live with pending := [.tbTick .A, .otpdone] } = .next t ∧ t.pending = [.otpdone] :=
  ⟨_, rfl, by decide +kernel⟩
theorem witness_EveryStepKeepsMemoryCanonical : live.sound = true ∧ ∃ t, step { live with pending := [.tbTick .A] } = .next t := by
  refine ⟨by decide +kernel, _, rfl⟩
theorem witness_OnlyTheRefereeMovesCharge : Machine.Instr.refereeActs (.tbTick .A) = false ∧ ∃ t, exec (.tbTick .A) live = .next t := by
  refine ⟨by decide +kernel, _, rfl⟩
theorem witness_AtMostOneHalfIsInCharge : ¬ (live.ref.hsA = .charge ∧ live.ref.hsB = .charge) ∧
    ∃ t, step { live with pending := [.boReset 0 5] } = .next t := by
  refine ⟨by decide +kernel, _, rfl⟩
/-- The first and the last page of the index. -/
theorem witness_ResetLeavesTheResetValues : (pageRowOf 0).isSome = true ∧ (pageRowOf (3 * 4096)).isSome = true := by decide +kernel

/-! ### Witnesses: chapter 02 -/

theorem witness_TickAdvancesTimeBaseAndBroadcastsBeams : live.ref.hs .A ≠ .off ∧ live.ref.sby .A = false ∧
    live.ref.hs .B ≠ .off ∧ live.ref.sby .B = false := by decide +kernel
/-- Beam 3 with a filter of one cycle; beam 0 turning between its edges; beam 3 in FAULT. -/
theorem witness_BeamsFilterInterpolateAndStall :
    (let s := dv fun d => d.p (hLoc .A .beam) (BEAM_CFG.FILT.ix 3) 1
     s.awake .A (hLoc .A .beam) ∧ 0 < 1 ∧ s.dev.bg .A 3 BEAM_CFG.FILT ≤ (s.dev.beam .A 3).lineA.run + 1 ∧ (s.dev.beam .A 3).lineB.acc = false) ∧
    (let s := dv fun d => (d.setBeam .A 0 { state := .synced }).p (hLoc .A .beam) (BEAM_CPR.CPR.ix 0) 4096
     s.awake .A (hLoc .A .beam) ∧ (s.dev.beam .A 0).state ≠ .off ∧ (s.dev.beam .A 0).dir = false ∧
       (s.dev.beam .A 0).lineA.raw = (s.dev.beam .A 0).lineA.acc ∧ (s.dev.beam .A 0).lineB.raw = (s.dev.beam .A 0).lineB.acc ∧
       (s.dev.beam .A 0).lineZ.raw = (s.dev.beam .A 0).lineZ.acc ∧
       (s.dev.beam .A 0).aLast ≤ edgePos (s.dev.bg .A 0 BEAM_CPR.CPR) ((s.dev.beam .A 0).u + 1) ∧
       (s.dev.beam .A 0).pos < edgePos (s.dev.bg .A 0 BEAM_CPR.CPR) ((s.dev.beam .A 0).u + 1)) ∧
    (let s := dv fun d => (d.setBeam .A 3 { state := .fault, lastEdge := 1, now := 200 }).p (hLoc .A .beam) (BEAM_STALL.STALL.ix 3) 1
     s.awake .A (hLoc .A .beam) ∧ s.sole .A ∧ (s.dev.beam .A 3).state = .fault ∧ (s.dev.beam .A 2).state ≠ .fault ∧
       (s.dev.beam .A 3).now < (s.dev.beam .A 3).lastEdge + 200 * s.dev.bg .A 3 BEAM_STALL.STALL) ∧
    (let s := dv fun d => (d.setBeam .A 3 { state := .synced, lastEdge := 1, now := 201 }).p (hLoc .A .beam) (BEAM_STALL.STALL.ix 3) 1
     s.awake .A (hLoc .A .beam) ∧ (s.dev.beam .A 3).lastEdge + 200 * s.dev.bg .A 3 BEAM_STALL.STALL ≤ (s.dev.beam .A 3).now) := by
  unfold State.awake State.sole; decide +kernel
theorem witness_PredictionsAndSnapshots :
    (live.awake .A (hLoc .A .beam) ∧ live.sole .A ∧ live.dev.on (hLoc .A .beam) BEAM_PRED_CTL.BUSY = false ∧ live.dev.tb .A % 400 = 0) ∧
    (dv fun d => d.setTb .A 399).dev.tb .A % 400 ≠ 0 ∧
    (let s := dv fun d => d.p (hLoc .A .beam) BEAM_PRED_CTL.BUSY 1
     s.awake .A (hLoc .A .beam) ∧ s.sole .A ∧ s.dev.on (hLoc .A .beam) BEAM_PRED_CTL.BUSY = true) := by
  unfold State.awake State.sole; decide +kernel

/-! ### Witnesses: chapters 03 to 05 -/

/-- Context 31 of engine 7 in a state. -/
def cs (x : CtxState) : State := dv fun d => d.setCst .A 7 31 x
theorem witness_ContextCommandsFollowTheirStates :
    live.sole .A ∧ (cs .idle).awake .A (rowL .A 7) ∧ (cs .running).awake .A (rowL .A 7) ∧ (cs .hold).awake .A (rowL .A 7) ∧ (cs .draining).awake .A (rowL .A 7) ∧
    (dv fun d => d.p (cxL .A 7 31) ROW_BIND.REVERSIBLE 0).dev.armOk .A 7 31 = true ∧ (cs .running).dev.cst .A 7 31 = .running ∧
    (let s := dv fun d => (d.setCst .A 7 31 .running).p (cxL .A 7 31) ROW_CMDROW.ROW 1
     s.dev.cst .A 7 31 = .running ∧ 0 < rowDiff (s.dev.g (cxL .A 7 31) ROW_CMDROW.ROW) (s.dev.rownum .A 7 31)) ∧
    (let s := dv fun d => (d.setCst .A 7 31 .hold).p (cxL .A 7 31) ROW_CMDROW.ROW 1
     s.dev.cst .A 7 31 = .hold ∧ 0 < rowDiff (s.dev.g (cxL .A 7 31) ROW_CMDROW.ROW) (s.dev.g (cxL .A 7 31) ROW_HELDN.N)) ∧
    (cs .hold).dev.cst .A 7 31 ≠ .idle ∧ (cs .hold).dev.armOk .A 7 31 = false ∧ (cs .idle).dev.cst .A 7 31 = .idle ∧
    (cs .hold).dev.cst .A 7 31 ≠ .running ∧ (cs .running).dev.cst .A 7 31 ≠ .hold ∧
    (cs .draining).dev.cst .A 7 31 = .draining ∧ (cs .draining).dev.ctxBusy .A 7 31 = false ∧ (cs .hold).dev.cst .A 7 31 ≠ .draining ∧
    (dv fun d => (d.setCst .A 7 31 .draining).modEng .A 7 fun g => { g with cur := some { ctx := 31, row := 0, kind := .new } }).dev.ctxBusy .A 7 31 = true := by
  unfold State.awake State.sole; decide +kernel
theorem witness_TriggersNumberRowsOrFault :
    (let s := dv fun d => (((d.setCst .A 7 31 .armed).p (cxL .A 7 31) ROW_BIND.LEAD_M1 0).modCx .A 7 31 fun c => { c with start := 1 }).modEng .A 7 fun g => { g with syncs := 1 }
     s.awake .A (rowL .A 7) ∧ s.dev.parked .A 7 31 = false ∧ s.dev.dueOf .A 7 31 = [] ∧ (s.dev.cx .A 7 31).waiting = false ∧
       s.dev.cst .A 7 31 = .armed ∧ bit (s.dev.eng .A 7).syncs (s.dev.beamOf .A 7 31) = true ∧
       0 = ((s.dev.cx .A 7 31).start + 2 ^ 32 - s.dev.leadOf .A 7 31) % 2 ^ 32) ∧
    (let s := dv fun d => (d.setCst .A 7 31 .running).p (cxL .A 7 31) ROW_ROWNUM.N (2 ^ 32 - 1)
     s.awake .A (rowL .A 7) ∧ s.dev.cst .A 7 31 = .running ∧ (s.dev.cx .A 7 31).cmd = none ∧ 0 = (s.dev.rownum .A 7 31 + 1) % 2 ^ 32 ∧
       s.dev.parked .A 7 31 = false ∧ s.dev.dueOf .A 7 31 = [] ∧ (s.dev.cx .A 7 31).waiting = false) ∧
    (let s := dv fun d => (d.setCst .A 7 31 .hold).modEng .A 7 fun g => { g with syncs := 1 }
     s.awake .A (rowL .A 7) ∧ s.dev.cst .A 7 31 = .hold ∧ (s.dev.cx .A 7 31).cmd = none ∧ bit (s.dev.eng .A 7).syncs (s.dev.beamOf .A 7 31) = true ∧
       bit (s.dev.eng .A 7).backs (s.dev.beamOf .A 7 31) = false) ∧
    (let s := dv fun d => ((d.setCst .A 7 31 .running).p (cxL .A 7 31) ROW_BIND.CRITICAL 1).modEng .A 7 fun g =>
       { g with due := [{ ctx := 31, row := 0, kind := .new }] }
     s.awake .A (rowL .A 7) ∧ s.dev.cst .A 7 31 = .running ∧ (s.dev.cx .A 7 31).cmd = none ∧ s.dev.dueOf .A 7 31 ≠ [] ∧
       s.dev.on (cxL .A 7 31) ROW_BIND.CRITICAL = true) ∧
    (let s := dv fun d => (d.setCst .A 7 31 .running).modEng .A 7 fun g => { g with parked := [({ ctx := 31, row := 0, kind := .new }, 0)] }
     s.awake .A (rowL .A 7) ∧ s.dev.cst .A 7 31 = .running ∧ (s.dev.cx .A 7 31).cmd = none ∧ s.dev.parked .A 7 31 = true) := by
  unfold State.awake; decide +kernel
theorem witness_MarkersMoveAndReverseContexts :
    live.awake .A (rowL .A 7) ∧ (3 : Fin 4) ≠ 2 ∧ (cs .running).dev.beamOf .A 7 31 = 0 ∧ (cs .running).dev.cst .A 7 31 = .running ∧
    ((cs .reversing).awake .A (rowL .A 7) ∧ (cs .reversing).dev.cst .A 7 31 = .reversing ∧ (cs .reversing).dev.parked .A 7 31 = false ∧
      (cs .reversing).dev.dueOf .A 7 31 = [] ∧ ((cs .reversing).dev.cx .A 7 31).waiting = false) := by
  unfold State.awake; decide +kernel
theorem witness_BindingsAndCachesTakeTheirWrites :
    ((cs .idle).awake .A (rowL .A 7) ∧ (cs .idle).sole .A ∧ (cs .idle).dev.cst .A 7 31 = .idle) ∧ ((cs .armed).awake .A (rowL .A 7) ∧ (cs .armed).dev.cst .A 7 31 ≠ .idle) ∧
    (let s := dv fun d => d.modEng .A 7 fun g => { g with tinv := some .all, minv := some (.range 0 64) }
     s.awake .A (rowL .A 7) ∧ (s.dev.eng .A 7).cur = none ∧ (s.dev.eng .A 7).lcur = none ∧ (s.dev.eng .A 7).tinv = some .all ∧
       (s.dev.eng .A 7).minv = some (.range 0 64)) := by
  unfold State.awake State.sole; decide +kernel

/-! ### Witnesses: chapters 04 to 06 -/

/-- A due entry of context 31. -/
def due31 (k : RKind) : Due := { ctx := 31, row := 5, kind := k }
/-- A render of one group of columns whose only line is out. -/
def drawing (f : Engine → Engine) : Dev → Dev := fun d => d.modEng .A 7 fun g => f { g with cur := some (due31 .new), want := [0] }
theorem witness_RendersDrawRowsAndMotifs :
    (live.awake .A (rowL .A 7) ∧ live.sole .A) ∧
    (let s := dv fun d => d.modEng .A 7 fun g => { g with due := [due31 .new] }
     s.awake .A (rowL .A 7) ∧ s.dev.armed (pageOf 0 .row 7) = false ∧ (s.dev.eng .A 7).cur = none ∧ (s.dev.eng .A 7).lcur = none ∧
       (s.dev.eng .A 7).due = [due31 .new] ∧ (s.dev.eng .A 7).tinv = none ∧ (s.dev.eng .A 7).minv = none ∧ (due31 .new).kind = .new ∧
       s.dev.motUe .A 7 (due31 .new).image = false) ∧
    (let s := dv fun d => d.modEng .A 7 fun g => { g with due := [due31 .reverse] }
     s.awake .A (rowL .A 7) ∧ s.dev.armed (pageOf 0 .row 7) = false ∧ (s.dev.eng .A 7).due = [due31 .reverse] ∧ (due31 .reverse).kind = .reverse ∧
       (due31 .reverse).again = false ∧ ((s.dev.eng .A 7).newRows 31).contains 5 = false ∧
       (due31 .reverse).ctx < 32 ∧ s.dev.rowValid .A 7 31 5 = false) ∧
    (let s := dv fun d => d.modEng .A 7 fun g => { g with due := [due31 .replay], recs := [⟨due31 .new, [], 0⟩] }
     s.awake .A (rowL .A 7) ∧ s.dev.armed (pageOf 0 .row 7) = false ∧ (s.dev.eng .A 7).cur = none ∧ (s.dev.eng .A 7).due = [due31 .replay] ∧
       (due31 .replay).again = false ∧ ((s.dev.eng .A 7).newRows 31).contains 5 = true) ∧
    (let s := dv (drawing fun g => { g with wantM := [2 ^ 34 - 1] })
     s.awake .A (rowL .A 7) ∧ s.dev.armed (pageOf 0 .row 7) = false ∧ (s.dev.eng .A 7).cur = some (due31 .new) ∧
       (0 : BitVec 34).toNat ∈ (s.dev.eng .A 7).want ∧ (BitVec.allOnes 34).toNat ∈ (s.dev.eng .A 7).wantM ∧
       s.dev.fillMark s.mem .A (0 : BitVec 34).toNat false = .data ∧ s.dev.fillMark s.mem .A (BitVec.allOnes 34).toNat false = .data ∧
       s.dev.fillMark s.mem .A (BitVec.allOnes 34).toNat true = .uncorrectable ∧ 1 < (s.dev.eng .A 7).want.length + (s.dev.eng .A 7).wantM.length) ∧
    (let s := dram fun d => { drawing id (d.p (hLoc .A .nvh) NVH_CFG.EN 0) with ptab := [(0, 2 ^ 64)] }
     s.awake .A (rowL .A 7) ∧ s.dev.armed (pageOf 0 .row 7) = false ∧ (s.dev.eng .A 7).cur = some (due31 .new) ∧ 0 ∈ (s.dev.eng .A 7).want ∧
       s.dev.fillMark s.mem .A (0 : BitVec 34).toNat true = .absent) ∧
    (let s := dv (drawing fun g => { g with want := [], step := 3 })
     s.awake .A (rowL .A 7) ∧ s.dev.armed (pageOf 0 .row 7) = false ∧ (s.dev.eng .A 7).cur = some (due31 .new) ∧ (s.dev.eng .A 7).drawn (due31 .new) = true) ∧
    (let s := dv (drawing id)
     (s.dev.eng .A 7).cur = some (due31 .new) ∧ (s.dev.eng .A 7).drawn (due31 .new) = false ∧ (s.dev.eng .A 7).blocked = false) := by
  unfold State.awake State.sole; decide +kernel
/-- A rendered row that waits for its lane. -/
def row31 : RRow := ⟨due31 .new, [], [], 0, false, []⟩
theorem witness_GatherQueuesAndRecordsRows :
    (let s := dv fun d => d.modEng .A 7 fun g => { g with ready := [row31] }
     s.awake .A (hLoc .A .hrn) ∧ (s.dev.eng .A 7).renewing = false ∧ (s.dev.eng .A 7).lane = none ∧ (s.dev.eng .A 7).ready = row31 :: []) ∧
    (let s := dv fun d => d.modEng .A 7 fun g => { g with lane := some (due31 .new) }
     s.awake .A (hLoc .A .hrn) ∧ (s.dev.eng .A 7).lane = some (due31 .new) ∧ (s.dev.eng .A 7).gath.segs = (segsOf (due31 .new).segs).drop 1 ∧
       (s.dev.eng .A 7).blocked = false ∧ (due31 .new).rangeErr 7 (s.dev.eng .A 7).gath.bad (segsOf (due31 .new).segs) = false) ∧
    (∀ off ∈ [true, false], let x := { due31 .new with segs := 7 }
     let s := dv fun d => d.modEng .A 7 fun g => { g with lane := some x, laneOff := off, gath := { segs := [1, 2] } }
     s.awake .A (hLoc .A .hrn) ∧ (s.dev.eng .A 7).lane = some x ∧ (s.dev.eng .A 7).laneOff = off ∧ (s.dev.eng .A 7).gath.segs = (segsOf x.segs).drop 1) ∧ (live.dev.eng .A 7).lane = none ∧
    (let s := dram fun d => (d.modEng .A 7 fun g => { g with recs := [⟨due31 .new, [], 0⟩] }).p (rowL .A 7) (ROW_HR_LO.DLOG2.ix 31) 8
     s.awake .A (rowL .A 7) ∧ (s.dev.eng .A 7).recs.find? (fun y => y.due.ctx = 31) = some ⟨due31 .new, [], 0⟩ ∧ s.dev.unsealed .A 7 (due31 .new) = false ∧
       s.dev.ringD .A 7 31 = 256 ∧ s.ref.rjHalf ≠ some Half.A.peer ∧ s.dev.recAddr .A 7 31 5 = 5 * 1024 ∧
       (∀ i ∈ [0, 1023], s.dev.backed (5 * 1024 + i) = true) ∧ s.ref.targets (5 * 1024) = [5 * 1024] ∧ (s.dev.recBytes .A 7 (due31 .new) [] 0).length = 1024) ∧
    (let s := dv fun d => d.modEng .A 7 fun g => { g with recs := [⟨due31 .new, [], 0⟩] }
     s.awake .A (rowL .A 7) ∧ (s.dev.eng .A 7).recs.find? (fun y => y.due.ctx = 31) = some ⟨due31 .new, [], 0⟩ ∧ s.dev.unsealed .A 7 (due31 .new) = false ∧
       s.dev.ringD .A 7 31 = 0) := by
  unfold State.awake; decide +kernel
theorem witness_HarnessBanksSwapWhole :
    (live.awake .A (hLoc .A .hrn) ∧ live.sole .A ∧ live.dev.on (hLoc .A .hrn) PG_COMMIT.PENDING = false ∧ live.dev.on (hLoc .A .hrn) HRN_STAT.COPY = false ∧
      live.dev.on (hLoc .A .hrn) HRN_STAT.VALIDATING = false) ∧
    (let s := dv fun d => d.p (hLoc .A .hrn) PG_COMMIT.PENDING 1
     s.awake .A (hLoc .A .hrn) ∧ s.dev.on (hLoc .A .hrn) PG_COMMIT.PENDING = true) ∧
    (let s := dv fun d => ((d.p (hLoc .A .hrn) PG_COMMIT.PENDING 1).p (hLoc .A .hrn) HRN_STAT.VALIDATING 1).modHarn .A fun x => { x with bank1 := [(0, 14 * 2 ^ 24)] }
     s.ref.live .A = true ∧ s.dev.on (hLoc .A .hrn) HRN_STAT.VALIDATING = true ∧ s.dev.armed (pageOf 0 .hrn 0) = true ∧ s.dev.grp (pageOf 0 .hrn 0) = 0 ∧
       ((s.dev.harn .A).shadow.any fun e => decide (4 ≤ enXform e.2) && decide (enXform e.2 < 15)) = true) ∧
    (let s := dv fun d => (d.p (hLoc .A .hrn) PG_COMMIT.PENDING 1).p (hLoc .A .hrn) HRN_STAT.VALIDATING 1
     s.ref.live .A = true ∧ s.dev.on (hLoc .A .hrn) HRN_STAT.VALIDATING = true ∧ s.dev.armed (pageOf 0 .hrn 0) = true ∧ s.dev.grp (pageOf 0 .hrn 0) = 0 ∧
       ((s.dev.harn .A).shadow.any fun e => decide (4 ≤ enXform e.2) && decide (enXform e.2 < 15)) = false ∧ s.dev.bound (pageOf 0 .hrn 0) = 0) ∧
    (let s := dv fun d => d.p (hLoc .A .hrn) HRN_STAT.COPY 1
     s.awake .A (hLoc .A .hrn) ∧ s.dev.on (hLoc .A .hrn) HRN_STAT.COPY = true ∧ ∀ u ∈ s.dev.ueWords, u.1 ≠ pageOf 0 .hrn 0) := by
  unfold State.awake State.sole; decide +kernel
/-- Channel 65535 with one unsent event one step ahead of a beam at 0, or behind it. -/
def evAt (pos : Nat) : State := dv fun d => (d.modChan .A 65535 fun c => { c with q := [{ ev := pos, ctx := 255, inst := 0, clear := true }] }).setBeam .A 0 { bState := .synced }
theorem witness_QueuesCancelExpireAndCount :
    (∀ x ∈ [(⟨255, none, false⟩ : Scan), ⟨255, some true, true⟩],
      let s := dv fun d => d.setScans .A [x]
      s.awake .A (hLoc .A .aeq) ∧ (s.dev.scans .A).find? (fun y => y.ctx = (255 : BitVec 8).toNat) = some x ∧ (s.dev.eng .A 7).started 31 = false ∧
        (s.dev.eng .A 7).laneOff = false ∧ (s.dev.chan .A 65535).canc < 2 ^ 32) ∧
    (let s := dv fun d => d.modHarn .A fun x => { x with offs := 8 }
     s.awake .A (hLoc .A .aeq) ∧ bit (s.dev.harn .A).offs 3 = true ∧ s.dev.rendersOf .A 3 = false ∧ bit (s.dev.harn .A).offs 2 = false) ∧
    (dv fun d => d.modEng .A 7 fun g => { g with due := [due31 .new] }).dev.rendersOf .A 0 = true ∧ live.sole .A ∧
    (let s := evAt ((2 ^ 40 - 1) * 2 ^ 18)
     s.awake .A (hLoc .A .aeq) ∧ (s.dev.chan .A 65535).head = some { ev := (2 ^ 40 - 1) * 2 ^ 18, ctx := 255, inst := 0, clear := true } ∧
       s.dev.beamRuns .A (s.dev.rbeam .A 63) ((2 ^ 40 - 1) * 2 ^ 18) = true ∧ s.dev.dist .A (s.dev.rbeam .A 63) ((2 ^ 40 - 1) * 2 ^ 18) < 0 ∧ s.dev.on (hLoc .A .aeq) AEQ_CFG.EXPIRE = true ∧
       (s.dev.p (hLoc .A .aeq) AEQ_CFG.EXPIRE 0).on (hLoc .A .aeq) AEQ_CFG.EXPIRE = false) := by
  unfold State.awake State.sole; decide +kernel

/-! ### Witnesses: chapter 07 -/

/-- Port 63 of Half A in a state. -/
def ps (x : Nat) (f : Port → Port := id) : State := dv fun d => ((d.p (rlkL .A 63) RLK_STAT.STATE x).p (rlkL .A 63) RLK_EPOCH.EPOCH 1).modPort .A 63 f
theorem witness_PortsTrainAndRetrain :
    (ps psUp).awake .A (rlkL .A 63) ∧ (ps psUp).dev.pst .A 63 ≠ psDown ∧
    (let s := dv fun d => (((d.p (rlkL .A 63) RLK_STAT.STATE psTraining).p (rlkL .A 63) RLK_STAT.LOCKED 1).p (rlkL .A 63) RLK_EPOCH.EPOCH 1).modPort .A 63 fun x => { x with goodHb := 9 }
     s.awake .A (rlkL .A 63) ∧ s.dev.pst .A 63 = psTraining ∧ (s.dev.port .A 63).await = .none ∧ s.dev.on (rlkL .A 63) RLK_STAT.LOCKED = true ∧
       9 ≤ (s.dev.port .A 63).goodHb ∧ (1 : Word).toNat ≤ s.dev.g (rlkL .A 63) RLK_EPOCH.EPOCH ∧ 2048 ≤ (2048 : BitVec 16).toNat ∧ s.ref.leads .A = true ∧ s.ref.leads .B = false) ∧
    (let s := dv fun d => d.p (rlkL .A 63) RLK_CFG.EN 1
     s.awake .A (rlkL .A 63) ∧ s.dev.pst .A 63 = psDown ∧ s.dev.on (rlkL .A 63) RLK_CFG.EN = true ∧ s.ref.hs .A ≠ .init) ∧
    (let s := dv fun d => (((d.p (rlkL .A 63) RLK_STAT.STATE psUp).p (rlkL .A 63) RLK_CFG.CRIT 1).modPort .A 63 fun x => { x with lead := true }).setTb .A 50000
     s.awake .A (rlkL .A 63) ∧ s.dev.pst .A 63 = psUp ∧ s.dev.on (rlkL .A 63) RLK_CFG.CRIT = true ∧ s.dev.linkLost .A 63 = true ∧ (s.dev.port .A 63).lead = true ∧
       ((s.dev.port .A 63).retrains.filter fun x => decide (s.dev.tb .A < x + 100000000)).length < 8) ∧
    (let s := dv fun d => ((d.p (rlkL .A 63) RLK_STAT.STATE psFenced).modPort .A 63 fun x => { x with retrains := List.replicate 8 0, codeAt := List.replicate 8 0 }).setTb .A 51
     s.dev.pst .A 63 = psFenced ∧ s.dev.linkLost .A 63 = true ∧ ¬ ((s.dev.port .A 63).retrains.filter fun x => decide (s.dev.tb .A < x + 100000000)).length < 8) ∧
    (ps psUp).dev.linkLost .A 63 = false := by
  unfold State.awake; decide +kernel
/-- A port of Half A that may send. -/
def sends (s : State) : Prop := s.awake .A (rlkL .A 63) ∧ s.ref.hs .A ≠ .init ∧ s.dev.armed (pageOf 0 .rlk 63) = false ∧ (s.dev.port .A 63).drvOff = false
/-- A sequenced frame of channel 65535. -/
def frame1 : Frame := ⟨0, 2, [0, 0], [65535]⟩
theorem witness_PortsSendFramesInOrderAndMirror :
    (sends (ps psDown) ∧ (ps psDown).dev.pst .A 63 = psDown) ∧
    (∀ b ∈ [false, true], ∀ n ∈ [psUp, psFenced],
      let s : State := { ps n (fun x => { x with hb := b }) with ref := { live.ref with hsA := .standby, hsB := .charge } }
      sends s ∧ s.ref.fence .A = true ∧ s.dev.pst .A 63 ≠ psDown ∧ s.dev.pst .A 63 ≠ psQuarantine ∧ (s.dev.port .A 63).hb = b) ∧
    (let s := ps psUp fun x => { x with chg := some false }
     sends s ∧ s.ref.fence .A = false ∧ s.dev.pst .A 63 = psUp ∧ (s.dev.port .A 63).chg = some false) ∧
    (let s := ps psUp fun x => { x with snap := 1 }
     sends s ∧ s.ref.fence .A = false ∧ s.dev.pst .A 63 = psUp ∧ (s.dev.port .A 63).chg = none ∧ (s.dev.port .A 63).await ≠ .ack ∧
       (s.dev.port .A 63).snap ≠ (s.dev.snap .A (s.dev.rbeam .A 63)).tb) ∧
    (let s := ps psUp fun x => { x with ack := true }
     sends s ∧ s.ref.fence .A = false ∧ s.dev.pst .A 63 = psUp ∧ (s.dev.port .A 63).chg = none ∧
       (s.dev.port .A 63).snap = (s.dev.snap .A (s.dev.rbeam .A 63)).tb ∧ (s.dev.port .A 63).ack = true) ∧
    (let s := ps psUp fun x => { x with aud := true }
     sends s ∧ s.dev.pst .A 63 = psUp ∧ (s.dev.port .A 63).ack = false ∧ (s.dev.port .A 63).aud = true) ∧
    (let s := ps psUp fun x => { x with hb := true }
     sends s ∧ s.dev.pst .A 63 = psUp ∧ (s.dev.port .A 63).ack = false ∧ (s.dev.port .A 63).aud = false ∧ (s.dev.port .A 63).hb = true) ∧
    (let s := ps psUp fun x => { x with rtx := [0], unack := [frame1] }
     sends s ∧ s.dev.pst .A 63 = psUp ∧ (s.dev.port .A 63).ack = false ∧ (s.dev.port .A 63).aud = false ∧ (s.dev.port .A 63).hb = false ∧
       (s.dev.port .A 63).await = .none ∧ (s.dev.port .A 63).rtx = [0] ∧ (s.dev.port .A 63).unack.find? (fun f => f.seq = 0) = some frame1) ∧
    (let s := ps psUp fun x => { x with ack := true, await := .ack, snap := 1 }
     sends s ∧ (s.dev.port .A 63).chg = none ∧ (s.dev.port .A 63).await = .ack ∧ (s.dev.port .A 63).ack = true) ∧
    (∀ r ∈ [live.ref, { live.ref with hsB := .quarantine }],
      let s : State := { evAt (2 ^ 18) with dev := ((evAt (2 ^ 18)).dev.p (rlkL .A 63) RLK_STAT.STATE psUp).setCredits .A 63 1, ref := r }
      sends s ∧ s.ref.fence .A = false ∧ s.dev.pst .A 63 = psUp ∧ (s.dev.port .A 63).chg = none ∧ (s.dev.port .A 63).await = .none ∧
        (s.dev.port .A 63).snap = (s.dev.snap .A (s.dev.rbeam .A 63)).tb ∧ (s.dev.port .A 63).ack = false ∧ (s.dev.port .A 63).aud = false ∧
        (s.dev.port .A 63).hb = false ∧ (s.dev.port .A 63).rtx = [] ∧ (s.dev.port .A 63).closed = none ∧ (s.dev.port .A 63).unack.length < 128 ∧
        0 < (s.dev.port .A 63).spendable ∧ (s.dev.pick s.ref .A 63).isSome = true ∧ s.ref.mirrors .A = decide (r.hsB = .standby)) ∧
    (let s := dv fun d => (d.modPort .B 63 fun x => { x with mirrors := [frame1] }).modPort .A 63 fun x => { x with confirms := 1, closed := some frame1 }
     s.awake .A (rlkL .A 63) ∧ (s.dev.port Half.A.peer 63).mirrors = [frame1] ∧ 0 < (s.dev.port .A 63).confirms ∧ (s.dev.port .A 63).closed ≠ none ∧
       (s.dev.port .A 63).confirmed = false ∧ (s.dev.port .A 62).closed = none) := by
  unfold sends State.awake; (repeat' apply And.intro) <;> decide +kernel
theorem witness_ReturnsAndReportsCountOnce :
    (let s := dv fun d => ((d.p (rlkL .A 63) RLK_STAT.STATE psUp).p (rlkL .A 63) RLK_EPOCH.EPOCH 1).p (rlkL .A 63) RLK_SEQ.TXNEXT 1
     s.awake .A (rlkL .A 63) ∧ s.dev.pst .A 63 ≠ psDown ∧ s.dev.pst .A 63 ≠ psQuarantine ∧ (1 : Word).toNat ≤ s.dev.g (rlkL .A 63) RLK_EPOCH.EPOCH ∧ s.dev.pst .A 63 = psUp ∧
       (s.dev.port .A 63).await = .none ∧
       seqDiff (1 : BitVec 16).toNat (s.dev.g (rlkL .A 63) RLK_SEQ.OLDEST) ≤ seqDiff (s.dev.g (rlkL .A 63) RLK_SEQ.TXNEXT) (s.dev.g (rlkL .A 63) RLK_SEQ.OLDEST) ∧
       seqDiff (s.dev.g (rlkL .A 63) RLK_SEQ.TXNEXT) (s.dev.g (rlkL .A 63) RLK_SEQ.OLDEST) < seqDiff (2 : BitVec 16).toNat (s.dev.g (rlkL .A 63) RLK_SEQ.OLDEST) ∧
       0 < sgn 32 ((1 : Word).toNat + 2 ^ 32 - s.dev.g (rlkL .A 63) RLK_CR.COUNT) ∧ sgn 32 ((0 : Word).toNat + 2 ^ 32 - s.dev.g (rlkL .A 63) RLK_CR.COUNT) ≤ 0 ∧
       (∀ r ∈ [Rx.codeError, Rx.bad], r ≠ Rx.ok) ∧ (0 : Word).toNat / 2 ^ 16 % 64 = 0 ∧ (3 : Fin 4) ≠ 0 ∧ s.dev.g (rlkL .A 63) RLK_EPOCH.EPOCH < (2 : Word).toNat) ∧
    (let s := dv fun d => ((d.p (rlkL .A 63) RLK_STAT.STATE psUp).p (rlkL .A 63) RLK_EPOCH.EPOCH 1).modChan .A 65535 fun c => { c with unrep := 1 }
     s.awake .A (rlkL .A 63) ∧ s.dev.pst .A 63 = psUp ∧ (1 : Word).toNat ≤ s.dev.g (rlkL .A 63) RLK_EPOCH.EPOCH ∧ s.ref.leads .A = true ∧ (s.dev.port .A 63).rxNext < 65536 ∧
       (0x10000 : Word).toNat / 2 ^ 16 % 64 = 1 ∧ (0 : BitVec 16).toNat = (s.dev.port .A 63).rxNext ∧
       0 < (s.dev.chan .A (1024 * 63 + (1023 : Word).toNat % 1024)).unrep ∧ (s.dev.chan .A (1024 * 63 + (0 : Word).toNat % 1024)).unrep = 0 ∧
       (List.replicate 32 (0 : Word)).length = (0x200000 : Word).toNat / 2 ^ 16 % 64 ∧ (List.replicate 32 (0 : Word)).length ≤ 32 ∧
       32768 ≤ seqDiff (32768 : BitVec 16).toNat (s.dev.port .A 63).rxNext ∧ 1 ≤ seqDiff (32767 : BitVec 16).toNat (s.dev.port .A 63).rxNext ∧
       seqDiff (32767 : BitVec 16).toNat (s.dev.port .A 63).rxNext < 32768 ∧ (s.dev.port .A 63).retryFor ≠ some (s.dev.port .A 63).rxNext) := by
  unfold State.awake; decide +kernel
theorem witness_BoardAccessAndTimers :
    (let s := ps psUp
     s.awake .A (rlkL .A 63) ∧ s.sole .A ∧ fget RLK_MGT_CTL.GO (1 : Word) = 1 ∧ s.dev.on (rlkL .A 63) RLK_MGT_CTL.BUSY = false ∧ s.dev.pst .A 63 = psUp ∧
       (s.dev.port .A 63).await = .none ∧ (ps psFenced).dev.pst .A 63 ≠ psUp) ∧
    (let s := dv fun d => ((d.p (rlkL .A 63) RLK_STAT.STATE psUp).p (rlkL .A 63) RLK_EPOCH.EPOCH 1).p (rlkL .A 63) RLK_MGT_CTL.BUSY 1
     s.awake .A (rlkL .A 63) ∧ s.dev.on (rlkL .A 63) RLK_MGT_CTL.BUSY = true ∧ s.dev.pst .A 63 = psUp ∧ (1 : Word).toNat ≤ s.dev.g (rlkL .A 63) RLK_EPOCH.EPOCH ∧
       (List.replicate 16 (0 : Word)).length = (if (0 : Fin 4) = 0 ∧ (0 : BitVec 8) = 0 then (15 : Fin 16).val + 1 else 0) ∧
       (0 : BitVec 16).toNat = (s.dev.port .A 63).rxNext ∧ (s.dev.port .A 63).tag = (0 : BitVec 8).toNat ∧ (s.dev.port .A 63).mgt = none) := by
  unfold State.awake State.sole; decide +kernel

/-! ### Witnesses: chapter 08 -/

/-- A gathered segment of no events, and its record. -/
def job0 : SealJob := ⟨7, .new, [], 0, 0, []⟩
def rec0 : SealRec := ⟨7, 0, sealCrc 7 [], 0, 0, [], false, false⟩
/-- A seal unit of a half in CHARGE or STANDBY that exchanges records. -/
def sealsOf (s : State) (h : Half) : Prop := s.awake h (hLoc h .seal) ∧ s.ref.sealing = true ∧ s.ref.hs h ≠ .rejoining ∧ s.ref.rjHalf = none ∧ s.ref.observes h = false
/-- A record in hand in the own table, the peer's table, or on its way. -/
def sl (own peer out : List SealRec) : State := dv fun d => (d.modSeal .A fun u => { u with own := own, peer := peer, jobs := [job0] }).modSeal .B fun u => { u with out := out }
theorem witness_SealsReleaseOrHoldInstances :
    (let s := sl [] [rec0] []
     sealsOf s .A ∧ (s.dev.sealU .A).jobs = [job0] ∧ ((s.dev.sealU .A).held.any fun y => y.key = job0.key) = false ∧
       (s.dev.sealU .A).peer.find? (fun y => y.key = job0.key) = some rec0 ∧ rec0.nev = job0.events.length ∧ rec0.crc = sealCrc job0.key job0.events) ∧
    (let s := sl [] [{ rec0 with nev := 1 }] []
     sealsOf s .A ∧ (s.dev.sealU .A).jobs = [job0] ∧ (s.dev.sealU .A).peer.find? (fun y => y.key = job0.key) = some { rec0 with nev := 1 } ∧ (1 : Nat) ≠ job0.events.length) ∧
    (let s := sl (List.replicate 1023 { rec0 with key := 8 }) [] []
     sealsOf s .A ∧ (s.dev.sealU .A).peer.find? (fun y => y.key = job0.key) = none ∧ (s.dev.sealU .A).own.length < 1024) ∧
    (let s := sl (List.replicate 1024 { rec0 with key := 8 }) [] []
     sealsOf s .A ∧ (s.dev.sealU .A).peer.find? (fun y => y.key = job0.key) = none ∧ 1024 ≤ (s.dev.sealU .A).own.length) ∧
    (let s := sl [rec0] [] [rec0]
     sealsOf s .A ∧ (s.dev.sealU Half.A.peer).out = [rec0] ∧ ((s.dev.sealU .A).held.any fun y => y.key = rec0.key) = false ∧
       (s.dev.sealU .A).own.find? (fun y => y.key = rec0.key) = some rec0) ∧
    (let s := sl [] (List.replicate 1023 { rec0 with key := 8 }) [rec0]
     sealsOf s .A ∧ (s.dev.sealU Half.A.peer).out = [rec0] ∧ (s.dev.sealU .A).own.find? (fun y => y.key = rec0.key) = none ∧ (s.dev.sealU .A).peer.length < 1024) ∧
    (let s := sl [rec0] [rec0] []
     sealsOf s .A ∧ (s.dev.sealU .A).own.find? (fun y => !y.held) = some rec0 ∧ (s.dev.sealU .A).peer.find? (fun y => !y.held) = some rec0) := by
  unfold sealsOf State.awake; (repeat' apply And.intro) <;> decide +kernel
/-- A report of Half A with a code, waiting first. -/
def rp (code : Nat) : State := dv fun d => { d with reports := [{ half := .A, code := code }] }
/-- Its vote. -/
def vote (code : Nat) : Vote := ⟨{ half := .A, code := code }, none, 0⟩
/-- `live` with an action in progress. -/
def acting (a : Act) : State := rf fun r => { r with act := a }
theorem witness_ReportsAreVotedAndDecided :
    ((rp 6).dev.reports = [{ half := .A, code := 6 }] ∧ (rp 6).dev.clocked refL = true ∧ (rp 6).ref.act = .idle ∧ (rp 6).ref.rjHalf = none ∧
      (rp 6).ref.waiting = []) ∧
    (rp 3).dev.reports = [{ half := .A, code := 3 }] ∧ (rp 0x0D).dev.reports = [{ half := .A, code := 0x0D }] ∧
    (rp 0x0B).dev.reports = [{ half := .A, code := 0x0B }] ∧ (rp 0x11).dev.reports = [{ half := .A, code := 0x11 }] ∧ (rf fun r => { r with waiting := [vote 8] }).ref.waiting ≠ [] ∧
    (let s : State := { rp 4 with ref := (acting (.takeover (vote 4) .A 1 0)).ref }
     s.dev.reports = [{ half := .A, code := 4 }] ∧ s.dev.clocked refL = true ∧ s.ref.act = .takeover (vote 4) .A 1 0) ∧
    (let s : State := { dv (fun d => { d with reports := [{ half := .B, code := 6 }] }) with ref := (acting (.common (vote 6))).ref }
     s.ref.act = .common (vote 6) ∧ (vote 6).rep.code ≠ 0x0C ∧ s.dev.reports = [{ half := .B, code := 6 }] ∧ Half.B ≠ (vote 6).rep.half ∧ s.dev.clocked refL = true) ∧
    (let s := rf fun r => { r with waiting := [vote 8] }
     s.ref.waiting = [vote 8] ∧ s.ref.busy = false ∧ ([] : List Vote).find? (fun u => (vote 8).rep.matches u.rep && decide (u.tb ≤ (vote 8).tb + 2000)) = none) ∧
    (let u : Vote := ⟨{ half := .B, code := 8 }, none, 2000⟩
     let s := rf fun r => { r with waiting := [vote 8, u] }
     s.ref.waiting = [vote 8, u] ∧ s.ref.busy = false ∧ s.dev.clocked refL = true ∧
       [u].find? (fun u => (vote 8).rep.matches u.rep && decide (u.tb ≤ (vote 8).tb + 2000)) = some u) ∧
    (let s := rf fun r => { r with waiting := [vote 5] }
     s.ref.waiting = [vote 5] ∧ s.ref.busy = false) ∧
    (let s := rf fun r => { r with waiting := [vote 5], act := .warm }
     s.ref.waiting = [vote 5] ∧ s.ref.busy = true) := by decide +kernel
theorem witness_SelfChecksDecideSealFaults :
    (vote 3).rep.code = 0x03 ∧ (acting (.check (vote 3) .awaited .silent none)).ref.act = .check (vote 3) .awaited .silent none ∧
    SelfCheck.silent ≠ .awaited ∧ live.ref.live .A = true ∧ (acting (.check (vote 3) (.word 0) .awaited none)).ref.act = .check (vote 3) (.word 0) .awaited none ∧
    SelfCheck.word 0 ≠ .awaited ∧ live.ref.live .B = true ∧ live.ref.hs .A = .charge ∧ live.ref.hs .B ≠ .charge := by decide +kernel
theorem witness_ChargeMovesOnlyAfterTheFence :
    (let s := acting (.takeover (vote 4) .A 1 0)
     s.ref.act = .takeover (vote 4) .A 1 0 ∧ s.ref.hs .A ≠ .off ∧ s.dev.allConfirmed .A = true ∧
       (let d := s.dev.p (rlkL .B 63) RLK_STAT.STATE psFenced
        d.allConfirmed .A = true ∧ d.pst .B 63 = psFenced)) ∧
    (let s := acting (.handover .A)
     s.ref.act = .handover .A ∧ s.ref.hs .A ≠ .off ∧ s.dev.allConfirmed .A = true) ∧
    (let s : State := { acting (.handover .A) with dev := (ps psUp).dev }
     s.ref.act = .handover .A ∧ s.dev.allConfirmed .A = false ∧ s.dev.confirmed .A 63 = false) ∧
    (let s : State := { dv (fun d => d.modSeal .A fun u => { u with held := [rec0] }) with ref := live.ref.setReissue .A true }
     s.ref.reissue .A = true ∧ s.ref.live .A = true ∧ s.dev.g (hLoc .A .seal) SEAL_REISS.COUNT + (s.dev.sealU .A).held.length < 2 ^ 32 ∧
       s.dev.g (hLoc .A .seal) SEAL_NOREC.COUNT + (s.dev.sealU .A).held.length < 2 ^ 32) := by decide +kernel
/-- `live` with a session of endpoint 0. -/
def sess (f : Referee → Referee := id) : State := rf fun r => f { r with session := some .A }
theorem witness_RequestsNeedSessionAndState :
    live.ref.session ≠ some .A ∧
    ((sess).ref.session = some .A ∧ (sess).ref.split = false ∧ (sess).ref.hs .B = .standby ∧ (sess).ref.busy = false ∧ (sess).ref.hs .A ≠ .standby) ∧
    ((sess).ref.hs (sess).ref.inCharge = .charge ∧ (sess).ref.hs (sess).ref.inCharge.peer = .standby ∧ (sess).ref.noEpoch = false ∧
      ((sess).dev.sealU .A).held = [] ∧ ((sess).dev.sealU .B).held = []) ∧
    (sess fun r => { r with act := .warm }).ref.busy = true ∧ (sess fun r => { r with split := true }).ref.split = true ∧
    (sess fun r => { r with epoch := 0xFFFFFFFF }).ref.noEpoch = true ∧ ((dv fun d => d.modSeal .A fun u => { u with held := [rec0] }).dev.sealU .A).held ≠ [] ∧
    RD.rejoinCode ((sess).ref, (sess).dev) .B ≠ 0 ∧
    (let s := rf fun r => { r with session := none, d5mask := 1 }
     bit s.ref.d5mask Half.A.n = true ∧ s.ref.session = none) := by decide +kernel
/-- Both halves in INIT with INIT complete. -/
def inits (f : Referee → Referee := id) : State := rf fun r => f { r with hsA := .init, hsB := .init, initA := true, initB := true, powerOn := true }
theorem witness_HalvesLeaveInitByTheRules :
    ((inits).ref.defaults = false ∧ (inits).ref.split = false ∧ (inits).ref.powerOn = true ∧ (inits).ref.ready .A = true ∧ (inits).ref.ready .B = true ∧
      (inits).ref.noEpoch = false) ∧
    (inits fun r => { r with epoch := 0xFFFFFFFF }).ref.noEpoch = true ∧
    (let s := rf fun r => { r with hsB := .init, initB := true }
     s.ref.defaults = false ∧ s.ref.split = false ∧ s.ref.powerOn = false ∧ s.ref.ready .B = true ∧ s.ref.hs Half.B.peer = .charge ∧ s.ref.act = .idle) ∧
    (let s := inits fun r => { r with split := true, epoch := 0xFFFFFFFD }
     s.ref.split = true ∧ s.ref.ready .A = true ∧ s.ref.ready .B = true ∧ s.ref.epoch + 1 < 0xFFFFFFFF) ∧
    (let s := inits fun r => { r with initB := false }
     s.ref.defaults = false ∧ s.ref.split = false ∧ s.ref.powerOn = true ∧ s.ref.ready .B = false ∧ s.ref.hs .B = .init ∧ s.ref.ready Half.B.peer = true ∧
       s.ref.noEpoch = false ∧ s.dev.on (hLoc .B .mec) MEC_GEOM.ABSENT = false ∧ s.dev.on (hLoc .B .mec 1) MEC_GEOM.ABSENT = false) ∧
    (let s := rf fun r => { r with hsB := .init }
     s.ref.defaults = false ∧ s.ref.powerOn = false ∧ s.ref.ready .B = false ∧ s.ref.hs .B = .init ∧ s.ref.rjHalf ≠ some .B) ∧
    (let s := rf fun r => { r with hsB := .rejoining, rjHalf := some .B, rjPhase := 1 }
     s.ref.rjHalf = some .B ∧ s.ref.hs .B = .rejoining ∧ s.ref.rjPhase = 1 ∧ s.dev.ueLines = []) ∧
    live.ref.autorejoin = false ∧ (rf fun r => { r with autorejoin := true }).ref.autorejoin = true ∧ live.ref.rjHalf = none := by decide +kernel
theorem witness_RequestsNeedSessionAndState_rejoin :
    (let s := rf fun r => { r with session := some .A, hsB := .quarantine, autorejoin := true }
     s.ref.session = some .A ∧ s.ref.autorejoin = true ∧ RD.rejoinCode (s.ref, s.dev) .B = 0) := by decide +kernel
/-- Half B in STATE of its rejoin. -/
theorem witness_RejoiningHalfTakesTheWrites :
    (rf fun r => { r with hsB := .rejoining, rjHalf := some .B, rjPhase := 2 }).ref.rejoinerOf .A = some .B := by decide +kernel

/-! ### Witnesses: chapter 09 -/

/-- Pipe and camera port 1 of Half A. -/
def cx1 (f : Cxp → Cxp) : State := dv fun d => d.modCxp .A 1 f
/-- Every beam of Half A has been at a position, SYNCED and forward, since the start. -/
def hist (d : Dev) (pos : Nat) : Dev := { d with bhist := (List.range 4).map fun b => (b, [⟨0, pos, true, false⟩]) }
theorem witness_CameraPortsCarryPacketsAndTriggers :
    (let s := cx1 fun x => { x with rx := List.replicate 47 0 }
     s.awake .A (cxpL .A 1) ∧ (s.dev.cxp .A 1).rx.length + 1 + (List.replicate 16 (0 : Word)).length ≤ 64 ∧
       64 < (s.dev.cxp .A 1).rx.length + 1 + (List.replicate 17 (0 : Word)).length ∧ (s.dev.cxp .A 1).rx = 0 :: List.replicate 46 0) ∧
    (let s := cx1 fun x => { x with tx := List.replicate 64 0 }
     s.awake .A (cxpL .A 1) ∧ s.sole .A ∧ s.dev.armed (pageOf 0 .lpe 1) = false ∧ 64 ≤ (s.dev.cxp .A 1).tx.length) ∧
    (let s := cx1 fun x => { x with tx := 63 :: List.replicate 62 0 }
     (s.dev.cxp .A 1).tx.length < 64 ∧ ((s.dev.cxp .A 1).tx ++ [(0 : Word).toNat]).length = ((s.dev.cxp .A 1).tx ++ [(0 : Word).toNat]).headD 0 % 256 + 1) ∧
    (live.dev.cxp .A 1).rx = [] ∧
    (let s := dv fun d => d.p (cxpL .A 1) CXP_STAT.LINK 2
     s.awake .A (cxpL .A 1) ∧ s.dev.g (cxpL .A 1) CXP_STAT.LINK = 2) ∧
    (let s := dv fun d => ((hist d 8).p (cxpL .A 1) CXP_CFG.TRIG 1).modCxp .A 1 fun x => { x with trigs := List.replicate 16 (0, 0) }
     s.awake .A (cxpL .A 1) ∧ s.dev.histAt .A (s.dev.travelBeam .A 1) (s.dev.tb .A) = some ⟨0, 8, true, false⟩ ∧ s.dev.g (cxpL .A 1) CXP_CFG.TRIG = 1 ∧
       (s.dev.cxp .A 1).lastTrig = none ∧ 16 ≤ (s.dev.cxp .A 1).trigs.length) ∧
    (let s := dv fun d => (((hist d 8).p (cxpL .A 1) CXP_CFG.TRIG 1).p (cxpL .A 1) CXP_TPITCH.PITCH 8).modCxp .A 1 fun x => { x with lastTrig := some 0 }
     s.dev.histAt .A (s.dev.travelBeam .A 1) (s.dev.tb .A) = some ⟨0, 8, true, false⟩ ∧
       (s.dev.g (cxpL .A 1) CXP_TPITCH.PITCH : Int) ≤ posDiff 8 0) ∧
    (let s := dv fun d => hist d 8
     s.dev.histAt .A (s.dev.travelBeam .A 1) (s.dev.tb .A) = some ⟨0, 8, true, false⟩ ∧ s.dev.g (cxpL .A 1) CXP_CFG.TRIG ≠ 1 ∧ (s.dev.cxp .A 1).trigs.length < 16) := by
  unfold State.awake State.sole; decide +kernel
/-- A line of stream 0 may come: the link is UP, the pipe runs, and its beam has a broadcast. -/
def lineAt (p : Option Nat) : State := dv fun d => (((hist d 8).p (cxpL .A 1) CXP_STAT.LINK 2).p (lpeL .A 1) LPE_STAT.RUN 1).modPipe .A 1 fun x => { x with pmax := p }
theorem witness_LinesAreStampedAndTaken :
    live.awake .A (cxpL .A 1) ∧ live.dev.g (cxpL .A 1) CXP_STAT.LINK ≠ 2 ∧
    (∀ p ∈ [none, some 8],
      let s := lineAt p
      s.awake .A (cxpL .A 1) ∧ s.dev.g (cxpL .A 1) CXP_STAT.LINK = 2 ∧ (0 : BitVec 8).toNat = s.dev.g (cxpL .A 1) CXP_CFG.STREAM ∧
        (0 : Fin 5).val = s.dev.g (cxpL .A 1) CXP_CFG.FMT ∧ (4 : Fin 5).val ≠ s.dev.g (cxpL .A 1) CXP_CFG.FMT ∧ s.dev.g (cxpL .A 1) CXP_CFG.TRIG = 0 ∧
        s.dev.armed (pageOf 0 .lpe 1) = false ∧ s.dev.clocked (lpeL .A 1) = true ∧ s.dev.on (lpeL .A 1) LPE_STAT.RUN = true ∧
        s.dev.histAt .A (s.dev.travelBeam .A 1) (s.dev.tb .A - s.dev.g (cxpL .A 1) CXP_LAT.LAT) = some ⟨0, 8, true, false⟩ ∧
        s.dev.accepts .A 1 ⟨s.dev.tb .A - s.dev.g (cxpL .A 1) CXP_LAT.LAT, 8, true⟩ = p.isNone) := by
  unfold State.awake; decide +kernel
/-- Engine 7 with the Loupe request of row 5 from pipe 1 taken. -/
def lpr (f : Engine → Engine := id) : State := dv fun d => d.modEng .A 7 fun g => f { g with loupe := some ⟨1, 5⟩ }
theorem witness_PipesCloseRowsByTheirTables :
    (∀ l ∈ [[], [5]],
      let s := dv fun d => (d.p (lpeL .A 1) LPE_STAT.RUN 1).modPipe .A 1 fun x => { x with row := some { row := 5 }, gone := l }
      s.awake .A (lpeL .A 1) ∧ s.dev.on (lpeL .A 1) LPE_STAT.RUN = true ∧ (s.dev.pipe .A 1).row = some { row := 5 } ∧
        s.dev.on (lpeL .A 1) LPE_STAT.REGOK = false ∧ (s.dev.pipe .A 1).exp.find? (fun y => y.row = 5) = none ∧ (s.dev.pipe .A 1).gone.contains 5 = !l.isEmpty ∧
        (s.dev.p (lpeL .A 1) LPE_STAT.REGOK 1).on (lpeL .A 1) LPE_STAT.REGOK = true) ∧
    (let s := dv fun d => d.modEng .A 7 fun g => { g with loupeQ := [⟨1, 5⟩] }
     s.awake .A (rowL .A 7) ∧ (s.dev.eng .A 7).loupe = none ∧ (s.dev.eng .A 7).loupeQ = [⟨1, 5⟩] ∧ (s.dev.eng .A 7).cur = none ∧ (s.dev.eng .A 7).due = [] ∧
       (s.dev.eng .A 7).tinv = none ∧ (s.dev.eng .A 7).minv = none ∧ s.dev.rowValid .A 7 (s.dev.lpeC .A 1) 5 = false) ∧
    ((dv fun d => d.modEng .A 7 fun g => { g with due := [due31 .new] }).dev.eng .A 7).due ≠ [] ∧
    (let s := lpr
     s.awake .A (rowL .A 7) ∧ (s.dev.eng .A 7).loupe = some ⟨1, 5⟩ ∧ (s.dev.eng .A 7).lcur = none) ∧
    (∀ n ∈ [2, 3],
      let s := lpr fun g => { g with lcur := some (due31 .replay), step := n }
      s.awake .A (rowL .A 7) ∧ (s.dev.eng .A 7).loupe = some ⟨1, 5⟩ ∧ (s.dev.eng .A 7).lcur = some (due31 .replay) ∧
        (s.dev.eng .A 7).drawn (due31 .replay) = decide (n = 3)) ∧
    (let s := dram fun d => d.modPipe .A 1 fun x => { x with recs := [1] }
     s.ref.live .A = true ∧ (s.dev.pipe .A 1).recs = [1] ∧ halfAddr .A (s.dev.g (lpeL .A 1) LPE_RING_LO.BASE * 2 ^ 12 + s.dev.g (lpeL .A 1) LPE_RING_HI.BASE * 2 ^ 32) +
        s.dev.g (lpeL .A 1) LPE_RING_WR.IDX % 2 ^ s.dev.g (lpeL .A 1) LPE_RING_CFG.LOG2 * 16 = 0 ∧ (∀ i, i < 16 → s.dev.backed (0 + i) = true) ∧
        s.ref.targets 0 = [0]) ∧
    (let s := dv fun d => d.modPipe .A 1 fun x => { x with copying := true }
     s.ref.live .A = true ∧ s.sole .A ∧ s.dev.clocked (lpeL .A 1) = true ∧ (s.dev.pipe .A 1).copying = true) ∧
    (live.ref.live .A = true ∧ live.sole .A ∧ live.dev.on (lpeL .A 1) PG_COMMIT.PENDING = false ∧ (live.dev.pipe .A 1).copying = false ∧
      (live.dev.p (lpeL .A 1) LPE_KNW_IDX.IDX 64).g (lpeL .A 1) LPE_KNW_IDX.IDX ≤ 64) ∧
    (let s := dv fun d => d.p (lpeL .A 1) LPE_RING_WR.IDX 1
     (s.dev.g (lpeL .A 1) LPE_RING_WR.IDX + 2 ^ 21 - fget LPE_RING_RD.IDX (0 : Word)) % 2 ^ 21 ≤ 2 ^ s.dev.g (lpeL .A 1) LPE_RING_CFG.LOG2) ∧
    (let s := dv fun d => d.p (lpeL .A 1) LPE_RING_WR.IDX (2 ^ 21 - 1)
     s.dev.clocked (lpeL .A 1) = true ∧
       2 ^ s.dev.g (lpeL .A 1) LPE_RING_CFG.LOG2 < (s.dev.g (lpeL .A 1) LPE_RING_WR.IDX + 2 ^ 21 - fget LPE_RING_RD.IDX (0 : Word)) % 2 ^ 21) ∧
    (dv fun d => d.p (lpeL .A 1) PG_CTL.ENABLE 0).dev.clocked (lpeL .A 1) = false := by
  unfold State.awake State.sole; decide +kernel

/-! ### Witnesses: chapters 10 to 12 -/

/-- Core 15 of Half A about to issue a unit at the top of its program memory, with a given state. -/
def kst (ws : List Nat) (k : Kux := {}) (r : Nat := 0) (c : Nat := 15) : State := dv fun d =>
  (((List.range ws.length).foldl (fun d i => { d with pmem := SMap.set (fun _ => 0) d.pmem ((r * 32 + c) * 16384 + (16383 + i) % 16384) (ws.getD i 0) }) d).setKx r c
    { k with pc := 16383 }).p (kxcL r c) KXC_STAT.STATE ksRun
/-- It can. -/
def can (ws : List Nat) (k : Kux := {}) : Prop := (kst ws k).issues 0 15 ws
/-- No literal before a unit, or the greatest one. -/
def limOf (j : Nat) : Option (BitVec 14) := if j = 0 then none else some (BitVec.allOnes 14)
/-- Every form at register 15 and register 0, plain and behind LIMM with the greatest literal. -/
theorem witness_ArithmeticAndLogicSetResultAndFlags :
    (∀ w ∈ [encR 0x1 15 0 0, encR 0x1 15 0 1, encR 0x1 15 0 2, encR 0x1 15 0 3, encR 0x2 15 0 0, encR 0x2 15 0 1, encR 0x2 15 0 2, encR 0x2 15 0 3, encR 0x3 15 0 0,
      encR 0x3 15 0 1, encI 0x0 15 2, encI 0x0 15 3], (kst [w]).issues 0 15 [w]) ∧
    (∀ m ∈ [7, 8, 9], ∀ j ∈ [0, 1], (kst (unitOf (limOf j) (encI m 15 63))).issues 0 15 (unitOf (limOf j) (encI m 15 63))) := by
  unfold State.issues; decide +kernel
theorem witness_MultiplyDivideShiftAndBitSteps :
    (∀ w ∈ [encR 0x3 15 0 2, encR 0x3 15 0 3, encR 0x4 15 0 0, encR 0x4 15 0 1, encR 0x4 15 0 2, encR 0x4 15 0 3, encR 0x5 15 0 0, encR 0x5 15 0 1, encR 0x5 15 0 2,
      encR 0x5 15 0 3, encI 0x6 15 15, encI 0x6 15 (0x10 + 15), encI 0x6 15 (0x20 + 15), encI 0x6 15 (0x30 + 15), encI 0x0 15 4, encI 0x0 15 5,
      encI 0x0 15 (0x30 + 15), encI 0x0 15 6, encI 0x0 15 7, encI 0x0 15 8], (kst [w]).issues 0 15 [w]) ∧
    ((kst [encR 0x4 15 0 3] { k := [(0, 65535)] }).dev.kx 0 15).b16 0 ≠ 0 ∧
    (let k := (kst [encR 0x4 15 0 0]).dev.kx 0 15
     k.b16 0 = 0 ∧ k.st 10 = false) ∧
    (let k := (kst [encR 0x4 15 0 0] { ctl := [(1, 2 ^ 10)] }).dev.kx 0 15
     k.b16 0 = 0 ∧ k.st 10 = true ∧ k.st 11 = false) := by
  unfold State.issues; decide +kernel
theorem witness_BranchesLoopsAndEntries :
    (∀ j ∈ [0, 1], (kst (unitOf (limOf j) (encI 0xD 15 63))).issues 0 15 (unitOf (limOf j) (encI 0xD 15 63)) ∧
      (kst (unitOf (limOf j) (encI 0xB 15 63))).issues 0 15 (unitOf (limOf j) (encI 0xB 15 63))) ∧
    (∀ w ∈ [encR 0xC 0 15 0, encR 0xC 15 15 1, encI 0x0 0 1], (kst [w]).issues 0 15 [w]) ∧
    (let k := (kst []).dev.kx 0 15
     condMet 0 (k.st 0) (k.st 1) (k.st 2) (k.st 3) = false ∧ condMet 15 (k.st 0) (k.st 1) (k.st 2) (k.st 3) = true ∧ k.st 9 = false) ∧
    (let s := kst [encI 0x0 0 0x11] { ctl := [(1, 2 ^ 11)] }
     s.issues 0 15 [encI 0x0 0 0x11] ∧ (s.dev.kx 0 15).st 11 = true) ∧
    (∀ k ∈ [({} : Kux), { ctl := [(1, 2 ^ 11)] }],
      let s := kst [0] k
      s.kready 0 15 = true ∧ s.dev.unitUe 0 15 = none ∧
        unitLegal (s.dev.pm 0 15) (s.dev.kx 0 15).pc (roleOf 0 15) (s.dev.decEntry 0) ((s.dev.kx 0 15).st 11) ((s.dev.kx 0 15).st 9) = false) ∧
    (let s := { kst [] { ctl := [(1, 2 ^ 8), (2, 1)] } with dev := (kst [] { ctl := [(1, 2 ^ 8), (2, 1)] }).dev.orKip 0 15 1 }
     s.coreOn 0 15 = true ∧ s.dev.krunning 0 15 = true ∧ s.dev.kdue 0 15 = some 0) ∧
    ((kst []).coreOn 0 15 = true ∧ (kst []).dev.krunning 0 15 = true ∧ (kst []).dev.kdue 0 15 = none) := by
  unfold State.issues; decide +kernel
theorem witness_LoadsStoresAndStringsReachLocalRam :
    (∀ j ∈ [0, 1], ∀ fn ∈ [0, 1, 2, 3], (kst (unitOf (limOf j) (encR 0xA 15 0 fn))).issues 0 15 (unitOf (limOf j) (encR 0xA 15 0 fn))) ∧
    (∀ w ∈ [encI 0x0 0 0x14, encI 0x0 0 0x16, encI 0x0 15 0x17, encI 0x0 0 0x18, encI 0x0 15 0x15], (kst [w]).issues 0 15 [w]) ∧
    (let s := kst [encI 0x0 0 0x10, encI 0x0 15 0x15] { k := [(13, 0x7FFE), (14, 2)] }
     let k := s.dev.kx 0 15
     s.issues 0 15 [encI 0x0 0 0x10] ∧ s.dev.pm 0 15 (k.pc + 1) = encI 0x0 15 0x15 ∧ k.pair.replay = .empty ∧ k.pair.first = none ∧ k.stepping = false ∧
       s.dev.pmUe 0 15 1 = false ∧ s.dev.kdue 0 15 = none ∧ k.reg 14 ≤ 2 ∧ k.reg 13 + k.reg 14 ≤ 0x8000 ∧
       (k.reg 0 + dispOf none) % 65536 < 0x8000 ∧ k.reg 12 < 0x8000 ∧ k.reg 13 < 0x8000) := by
  unfold State.issues; decide +kernel
theorem witness_LoadsStoresAndStringsReachLocalRam_clean (u v w : Nat) (k : Kux) (a n : Nat) :
    (kst [w] k).dev.cleanAt a n ∧ (kst [v, w] k).dev.cleanAt a n ∧ (kst [u, v, w] k).dev.cleanAt a n :=
  ⟨clean_of _ ⟨rfl, rfl, rfl⟩ a n, clean_of _ ⟨rfl, rfl, rfl⟩ a n, clean_of _ ⟨rfl, rfl, rfl⟩ a n⟩
/-- Word address 0xEFFF of a far bank that leads to a memory byte. -/
def farMem : KTarget := .mem 0x2000
theorem witness_FarAccessesAndWaitsEnd :
    (let s := pop (kst [] { wait := .load 15 0xEFFF 3 none farMem })
     s.coreOn 0 15 = true ∧ (s.dev.kx 0 15).wait = .load 15 0xEFFF 3 none farMem ∧ kbusRead s 0 15 none farMem = ⟨some 0, none, s.dev⟩ ∧ 0 < 65536) ∧
    (∀ b ∈ [false, true],
      let s := pop (kst [] { pair := { replay := .awaited 0xEFFF farMem, latch := some (1, 2) }, saved := { replay := .awaited 0xEFFF farMem, latch := some (1, 2) } })
      let k := s.dev.kx 0 15
      s.coreOn 0 15 = true ∧ (if b then k.saved.replay else k.pair.replay) = .awaited 0xEFFF farMem ∧ k.wait = .none ∧
        kbusRead s 0 15 (if b then k.saved.latch else k.pair.latch) farMem = ⟨some 0, some (1, 2), s.dev⟩) ∧
    (let s := kst [] { wait := .load 15 0xC000 1 none (.far 0 0 false) }
     s.coreOn 0 15 = true ∧ (s.dev.kx 0 15).wait = .load 15 0xC000 1 none (.far 0 0 false) ∧ (KTarget.far 0 0 false).isFar = true ∧ (s.dev.kx 0 15).st 11 = false) ∧
    (let s := kst [] { posted := 1 }
     s.coreOn 0 15 = true ∧ (s.dev.kx 0 15).posted ≠ 0) ∧
    (let s := kst [] { wait := .sync 15 3 none }
     s.coreOn 0 15 = true ∧ (s.dev.kx 0 15).wait = .sync 15 3 none ∧ (s.dev.kx 0 15).touts = 0) ∧
    (let s := kst [] { wait := .sync 15 3 none, touts := 1 }
     (s.dev.kx 0 15).wait = .sync 15 3 none ∧ (s.dev.kx 0 15).touts ≠ 0 ∧ (s.dev.kx 0 15).st 11 = false) := by decide +kernel
/-- A release in the last slot of core 15. -/
def withRel (s : State) : State := { s with dev := s.dev.setSlot .A 15 31 (some ⟨31, 5, false, false⟩) }
/-- Beam 0 as broadcast, a WAITANGLE for position `q` under way. -/
def angle (b : BeamState) (q : Nat) : State := { kst [] { wait := .angle 15, ctl := [(0x28, q)] } with dev := (kst [] { wait := .angle 15, ctl := [(0x28, q)] }).dev.setBeam .A 0 { bState := b } }
theorem witness_FarAccessesAndWaitsEnd_waits :
    (∀ w ∈ [encI 0x0 15 0x12, encI 0x0 15 0x13, encR 0xC 15 0 2], (kst [w]).issues 0 15 [w] ∧ (withRel (kst [w])).issues 0 15 [w]) ∧ roleOf 0 15 = .beam ∧
    (let s := withRel (kst [] { wait := .row 15 })
     31 < 32 ∧ s.dev.slot .A 15 31 = some ⟨31, 5, false, false⟩ ∧ (∀ j, j < 31 → s.dev.slot .A 15 j = none) ∧ s.coreOn 0 15 = true ∧ (s.dev.kx 0 15).wait = .row 15) ∧
    (∀ j, j < 32 → (kst []).dev.slot .A 15 j = none) ∧
    (∀ b ∈ [BeamState.off, .fault, .synced],
      let s := angle b 0
      s.coreOn 0 15 = true ∧ (s.dev.kx 0 15).wait = .angle 15 ∧ (s.dev.beam .A ((s.dev.kx 0 15).cw 0x2A / 256 % 4)).bState = b) ∧
    (∀ q ∈ [0, 1],
      let s := angle .synced q
      let k := s.dev.kx 0 15
      let x := s.dev.beam .A (k.cw 0x2A / 256 % 4)
      x.bState = .synced ∧ x.bInHyst = false ∧ x.bDir = false ∧ bit (k.cw 0x2A) 10 = false ∧ k.cw 0x28 = q ∧
        ((0 + 2 ^ 40 - q) % 2 ^ 40 < 2 ^ 39 ↔ q = 0) ∧ s.dev.g (hLoc .A .beam) (BEAM_REV.REV.ix 0) = 0 ∧ s.dev.g (hLoc .A .beam) (BEAM_ANGLE.ANGLE.ix 0) = 0) ∧
    (let s := { kst [encR 0xC 15 0 2] { k := [(0, 65535)] } with dev := (kst [encR 0xC 15 0 2] { k := [(0, 65535)] }).dev.orKip 0 15 (2 ^ 13) }
     s.issues 0 15 [encR 0xC 15 0 2] ∧ s.dev.evtLine 0 15 ((s.dev.kx 0 15).reg 0) = some 13) ∧
    (kst [encR 0xC 15 0 2]).dev.evtLine 0 15 0 = none ∧
    (let s := { kst [] { wait := .evt 15 65535 } with dev := (kst [] { wait := .evt 15 65535 }).dev.orKip 0 15 1 }
     s.coreOn 0 15 = true ∧ (s.dev.kx 0 15).wait = .evt 15 65535 ∧ s.dev.evtLine 0 15 65535 = some 0) ∧
    (∀ t ∈ [0, 1],
      let s := { kst [] { wait := .row 15, ctl := [(0x2C, 1)] } with dev := (kst [] { wait := .row 15, ctl := [(0x2C, 1)] }).dev.setTb .A t }
      let k := s.dev.kx 0 15
      s.coreOn 0 15 = true ∧ k.wait = .row 15 ∧ k.cw 0x2C + k.cw 0x2D * 65536 = 1 ∧ k.waitFrom = 0 ∧ s.dev.tbR 0 = t) := by
  unfold State.issues; decide +kernel
/-- Core 19 of Half A, running or stopped. -/
def core19 (st : Nat) (k : Kux := {}) : State := dv fun d => (d.setKx 0 19 k).p (kxcL 0 19) KXC_STAT.STATE st
theorem witness_MailboxesWatchdogAndCoreControl :
    ((core19 ksRun).coreOn 0 19 = true ∧ ((core19 ksRun).dev.kx 0 19).hostOut.length < 8 ∧ (core19 ksRun).kxcOn 0 19 = true ∧
      ((core19 ksRun).dev.kx 0 19).hostIn.length < 8 ∧ (core19 ksRun).dev.krunning 0 19 = true ∧ (core19 ksRun).dev.clocked (kxcL 0 19) = true ∧
      (∀ r, r < 3 → (core19 ksRun).soleR r)) ∧
    (let s := core19 ksRun { hostOut := List.replicate 8 0, hostIn := List.replicate 8 0 }
     s.coreOn 0 19 = true ∧ 8 ≤ (s.dev.kx 0 19).hostOut.length ∧ 8 ≤ (s.dev.kx 0 19).hostIn.length) ∧
    (∀ p ∈ [99, 100],
      let s := dv fun d => ((d.setTb .A p).p (kxcL 0 19) KXC_WDOG.PERIOD 1).p (kxcL 0 19) KXC_STAT.STATE ksDouble
      s.coreOn 0 19 = true ∧ s.dev.g (kxcL 0 19) KXC_WDOG.PERIOD ≠ 0 ∧ s.dev.kstate 0 19 = ksDouble ∧
        (100 * s.dev.g (kxcL 0 19) KXC_WDOG.PERIOD ≤ (s.dev.kx 0 19).wdogRan + (s.dev.tbR 0 - (s.dev.kx 0 19).wdogFrom) ↔ p = 100)) ∧
    (let s := dv fun d => { d with mboxes := [⟨0, 19, 2, 7, 65535⟩] }
     s.dev.mboxes = [⟨0, 19, 2, 7, 65535⟩] ∧ s.kxcOn 2 7 = true ∧ (s.dev.kx 2 7).mbin.length < 8 ∧ ¬ (s.kxcOn 2 8 = true ∧ (s.dev.kx 2 8).mbin.length < 8)) ∧
    ((core19 ksHalted).kxcOn 0 19 = true ∧ (core19 ksHalted).dev.krunning 0 19 = false) ∧
    (live.loading (.core 2 0) 0 = false ∧ live.dev.clocked (ucsL 0) = true ∧ (inits).loading (.core 2 0) 0 = true) ∧
    (let s := kst [encI 0xF 15 63]
     s.issues 0 15 [encI 0xF 15 63] ∧ bit (s.dev.decEntry 0 15) 15 = false ∧ (s.dev.kx 0 15).st 11 = false) ∧
    (∀ w ∈ [5, 5 + 2 ^ 24 + 0x10 * 2 ^ 28 + 0x11 * 2 ^ 33 + 0x10 * 2 ^ 38, 2 ^ 22],
      let s := { kst [encI 0xF 15 63] with dev := { (kst [encI 0xF 15 63]).dev.wr (ucsL 0) (UCS_DEC.ENTRY.ix 15).off 0x8FFF with ucs := [(4095, w)] } }
      let e := s.dev.decEntry 0 15
      s.issues 0 15 [encI 0xF 15 63] ∧ bit e 15 = true ∧ e / 4096 % 4 = 0 ∧ s.dev.ucsUe 0 (customWord 0 (e % 4096)) = false ∧ s.dev.ucsWord 0 (customWord 0 (e % 4096)) = w) ∧
    ((kst (unitOf (limOf 1) (encI 0xF 15 63))).issues 0 15 (unitOf (limOf 1) (encI 0xF 15 63))) ∧
    (let s := kst [encI 0xF 15 63]
     s.kready 0 15 = true ∧ s.dev.clocked (ucsL 0) = true ∧ (s.dev.kx 0 15).st 11 = false ∧ s.dev.pm 0 15 (s.dev.kx 0 15).pc ≠ 0x3800 ∧
       s.dev.pm 0 15 (s.dev.kx 0 15).pc / 0x400 = 0xF) := by
  unfold State.issues State.soleR State.sole; decide +kernel

/-! ### Witnesses: chapter 13 -/

theorem witness_MemoryErrorsAreCountedAndWalked :
    (let s := dv fun d => d.p (hLoc .A .scb) SCB_CFG.SEN 1
     s.awake .A (hLoc .A .scb) ∧ s.dev.on (hLoc .A .scb) SCB_CFG.SEN = true ∧ s.dev.g (hLoc .A .scb) SCB_SPOS.MEM = 0 ∧
       (match (s.walked .A)[0]? with | some (e, p) => decide (0 + 1 < e.words) && !s.dev.wordUe e p 0 | none => false) = true ∧
       s.dev.g (hLoc .A .scb) SCB_SPOS.WORD + 1 < 65536 ∧ (s.dev.esrc .A).length < 16) ∧
    (let s := dv fun d => ((d.p (hLoc .A .scb) SCB_CFG.SEN 1).p (hLoc .A .scb) SCB_CFG.SVC 1).p (hLoc .A .scb) SCB_SPOS.MEM
       ((({ live with dev := live.dev.p (hLoc .A .scb) SCB_CFG.SVC 1 } : State).walked .A).length - 1)
     s.awake .A (hLoc .A .scb) ∧ s.dev.on (hLoc .A .scb) SCB_CFG.SEN = true ∧
       ((s.walked .A)[s.dev.g (hLoc .A .scb) SCB_SPOS.MEM]?).any (fun x => x.1.block = .ref) = true) ∧
    (let s := dv fun d => (d.p (hLoc .A .scb) SCB_CFG.SEN 0).p (hLoc .A .scb) SCB_CFG.SVC 1
     s.awake .A (hLoc .A .scb) ∧ s.dev.on (hLoc .A .scb) SCB_CFG.SEN = false ∧ s.ref.svcWalk .A = true ∧ s.dev.on (hLoc .A .scb) SCB_CFG.SVC = true ∧
       s.dev.g (hLoc .A .scb) SCB_SPOS.MEM < (halfMems 0).length ∧ s.dev.ueLines.contains (0x1102000000 / 8) = false) ∧
    (let s := dram fun d => d.p (hLoc .A .scb) SCB_CFG.DEN 1
     s.awake .A (hLoc .A .scb) ∧ s.dev.on (hLoc .A .scb) SCB_CFG.DEN = true ∧ s.dev.dramSize .A ≠ 0 ∧ s.dev.ueLines = [] ∧
       (s.dev.g (hLoc .A .scb) SCB_DPOS.BURST + 1) * 64 < s.dev.dramSize .A ∧ s.dev.g (hLoc .A .scb) SCB_DPOS.BURST + 1 < 2 ^ 31) ∧
    (let s := dram fun d => (d.p (hLoc .A .scb) SCB_CFG.DEN 1).p (hLoc .A .scb) SCB_DPOS.BURST (2 ^ 27 - 1)
     s.dev.on (hLoc .A .scb) SCB_CFG.DEN = true ∧ s.dev.dramSize .A ≠ 0 ∧ s.dev.ueLines = [] ∧ s.dev.dramSize .A ≤ (s.dev.g (hLoc .A .scb) SCB_DPOS.BURST + 1) * 64) ∧
    (let s := dv fun d => ((d.p (hLoc .A .scb) SCB_CFG.SEN 0).p (hLoc .A .scb) SCB_CFG.DEN 0).p (hLoc .A .scb) SCB_CFG.SVC 0
     s.awake .A (hLoc .A .scb) ∧ s.dev.on (hLoc .A .scb) SCB_CFG.SEN = false ∧ s.dev.on (hLoc .A .scb) SCB_CFG.DEN = false ∧ s.dev.on (hLoc .A .scb) SCB_CFG.SVC = false) ∧
    live.ref.live .A = true ∧ (pageRowOf (pageAt 0 0)).isSome = true ∧ live.ref.live (Half.ofRegion 0) = true ∧ live.soleR 0 ∧ live.awake .A (hLoc .A .mec 1) ∧
    (∀ n ∈ [0, 1],
      let s := dv fun d => (d.p (locOf (pageAt 0 0)) PG_BUCKET.LEAKP 3).setTb .A (799 + n)
      (s.dev.lastLeak (pageAt 0 0) + s.dev.leakPeriod (pageAt 0 0) ≤ s.dev.tbR 0 ↔ n = 1)) ∧
    (∀ x ∈ [7, 11, 13, 14], oddOnes x = true) ∧ foldF 6 0 ≠ foldF 6 1 ∧ foldF 8 0 ≠ foldF 8 1 := by
  unfold State.awake State.soleR State.sole; decide +kernel

/-! ### Witnesses: chapter 14 -/

/-- A directory entry of object 1, of one page, and its extent list. -/
def ent1 : List Byte := [1, 0, 0, 0, 1, 0, 0, 0, 0, 0, 1, 0, 0, 0, 0, 0, 0, 0, 0, 0, 1, 0, 0, 0, 0, 0, 0, 0, 169, 166, 163, 224, 0, 0, 0, 0, 0, 0, 0, 0, 0, 0, 0, 0, 0, 0, 0, 0, 0, 0, 0, 0, 0, 0, 0, 0, 0, 0, 0, 0, 61, 245, 179, 220]
def ext1 : List Byte := [0, 0, 0, 0, 16, 0, 0, 0, 0, 0, 0, 0, 0, 0, 0, 0]
/-- A volume header whose copy is valid. -/
def hdrBody : List Byte := [0x54, 0x4C, 0x56, 0x50, 1, 0, 0, 0] ++ List.replicate 4084 0
def hdr1 : List Byte := hdrBody ++ toBytes (crc32 hdrBody) 4
/-- A page of zeros. -/
def page0 : List Byte := List.replicate 65536 0
theorem witness_PagesMapLoadAndLog :
    (let s := dram fun d => ((d.p (nvhL .A) NVH_STAT.MOUNTED 1).p (nvhL .A) NVH_MAPOBJ.OBJID 1).modNvh .A fun x => { x with cap := 2 ^ 32 }
     s.awake .A (nvhL .A) ∧ s.sole .A ∧ s.dev.on (nvhL .A) NVH_STAT.MAPBUSY = false ∧
       (let x := mapCheck ((s.dev.seq (nvhL .A)).mapWrite .A 1) s.mem .A ent1 ext1 (some [0])
        x.1 = 0 ∧ s.dev.g (nvhL .A) NVH_MAPDST.PAGE + x.2.length ≤ 2 ^ 20 ∧ x.2.length = 1)) ∧
    live.dev.on (nvhL .A) NVH_STAT.MOUNTED = false ∧
    (let s := dv fun d => d.p (nvhL .A) NVH_MAPCNT.COUNT 1
     s.awake .A (nvhL .A) ∧ s.dev.on (nvhL .A) NVH_STAT.MAPBUSY = false ∧
       s.dev.pages .A < s.dev.g (nvhL .A) NVH_MAPDST.PAGE + s.dev.g (nvhL .A) NVH_MAPCNT.COUNT) ∧
    (let s := dram fun d => { ((d.p (nvhL .A) NVH_MAPCNT.COUNT 1).p (nvhL .A) NVH_STAT.MOUNTED 1).p (nvhL .A) NVH_CFG.EN 0 with ptab := [(0, 2 ^ 64)] }
     s.awake .A (nvhL .A) ∧ s.dev.on (nvhL .A) NVH_STAT.MAPBUSY = false ∧ s.dev.g (nvhL .A) NVH_MAPCNT.COUNT = 1 ∧ s.dev.g (nvhL .A) NVH_MAPDST.PAGE = 0 ∧
       0 < s.dev.pages .A ∧ pteMapped (s.dev.pte s.mem .A 0) = true ∧ s.dev.on (nvhL .A) NVH_STAT.MOUNTED = true ∧ pteState (s.dev.pte s.mem .A 0) = 0 ∧
       (s.dev.nvh .A).loads = [] ∧ s.ref.targets (s.dev.pteAddr .A 0) = [s.dev.pteAddr .A 0]) ∧
    hdrPick 1 [] [] = none ∧
    (let s := dv fun d => d.p (nvhL .A) NVH_STAT.MAPBUSY 1
     s.awake .A (nvhL .A) ∧ s.dev.on (nvhL .A) NVH_STAT.MAPBUSY = true) ∧
    (dv fun d => d.p (nvhL .A) NVH_CFG.EN 0).dev.on (nvhL .A) NVH_CFG.EN = false ∧
    (let s := dv fun d => { d with pagesA := [⟨7, 31, 5, 0⟩] }
     s.awake .A (nvhL .A) ∧ s.dev.pagesA = [⟨7, 31, 5, 0⟩] ∧ s.dev.on (rowL .A 7) (ROW_RIDX.EN.ix 31) = false) ∧
    (∀ n ∈ [15, 16],
      let s := dram fun d => { (((d.p (nvhL .A) NVH_CFG.EN 0).p (nvhL .A) NVH_PTBASE.BASE 8).p (nvhL .A) NVH_STAT.MOUNTED 1).modNvh .A fun x => { x with
        loads := [(0, 0)], cap := n } with ptab := [(0, 2 ^ 64)] }
      s.awake .A (nvhL .A) ∧ earliest (s.dev.nvh .A).loads = some (0, 0) ∧ (s.dev.nvh .A).out.length < 64 ∧ (s.dev.nvh .A).resetting = false ∧
        s.dev.on (nvhL .A) NVH_STAT.MOUNTED = true ∧ s.dev.inCap .A (s.dev.pte s.mem .A 0 % 2 ^ 32) 65536 = decide (n = 16) ∧
        0 < s.dev.pages .A ∧ s.dev.pteAddr .A 0 + 16 ≤ 2 ^ 36 ∧ s.ref.targets (s.dev.pteAddr .A 0) = [s.dev.pteAddr .A 0] ∧
        s.dev.pteAddr .A 0 % 2 ^ 35 / 65536 ≠ 0 ∧ (s.dev.nvh .A).out = []) ∧
    (live.dev.nvh .A).loads = [] ∧
    (let s := dv fun d => d.modNvh .A fun x => { x with resetting := true }
     (s.dev.nvh .A).resetting = true ∧ (s.dev.nvh .A).out = []) ∧
    (let s := dv fun d => (((d.p (nvhL .A) NVH_CFG.LOGEN 1).p (nvhL .A) NVH_STAT.MOUNTED 1).p (nvhL .A) NVH_LOGWR.IDX 1).modNvh .A fun x => { x with
       logLba := 8, logBlocks := 8, cap := 9 }
     s.awake .A (nvhL .A) ∧ s.dev.on (nvhL .A) NVH_CFG.LOGEN = true ∧
       (s.dev.g (nvhL .A) NVH_LOGRD.IDX + (s.dev.nvh .A).logOut) % 2 ^ 21 ≠ s.dev.g (nvhL .A) NVH_LOGWR.IDX ∧ s.dev.warned .A = false ∧
       (s.dev.nvh .A).resetting = false ∧ s.dev.on (nvhL .A) NVH_STAT.MOUNTED = true ∧ (s.dev.nvh .A).logBlocks ≠ 0 ∧
       s.dev.inCap .A ((s.dev.nvh .A).logLba + s.dev.g64 (nvhL .A) NVH_LOGSEQ_LO.SEQ NVH_LOGSEQ_HI.SEQ % (s.dev.nvh .A).logBlocks) 4096 = true ∧
       s.ref.targets 0 = [0] ∧ halfAddr .A (s.dev.g (nvhL .A) NVH_LOGSTG.BASE * 4096) + (s.dev.g (nvhL .A) NVH_LOGRD.IDX + (s.dev.nvh .A).logOut) % 2 ^ 21 %
         2 ^ s.dev.g (nvhL .A) NVH_LOGCFG.LOG2 * 4096 = 0) ∧
    ((dv fun d => d.modNvh .A fun x => { x with logOut := 1 }).dev.nvh .A).logOut ≠ 0 ∧
    (∀ w ∈ [0, 1], ∀ l ∈ [[], [(0, 3)]],
      let s := dv fun d => ((d.p (nvhL .A) NVH_CFG.FWQ 1).p (sLoc .pwr) PWR_STAT.WARN w).modNvh .A fun x => { x with held := l }
      s.awake .A (nvhL .A) ∧ SMap.get (fun _ => 0) (s.dev.nvh .A).held 0 = 3 * l.length ∧
        (255 : BitVec 8).toNat ≤ ((255 : BitVec 8).toNat + 512 - SMap.get (fun _ => 0) (s.dev.nvh .A).tails 0 - 0) % 256 ∧ (0 : Fin 6).val < s.dev.g (nvhL .A) NVH_CFG.FWQ ∧ s.dev.g (nvhL .A) NVH_CFG.FWQ ≤ (1 : Fin 6).val ∧ s.dev.warned .A = decide (w = 1)) := by
  unfold State.awake State.sole; (repeat' apply And.intro) <;> decide +kernel
theorem witness_PagesMapLoadAndLog_mount : hdrPick 1 hdr1 hdr1 = some (0, hdr1) ∧ (rf fun r => { r with split := true }).ref.split = true ∧
    (dv fun d => d.p (nvhL .A) NVH_CFG.EN 1).dev.on (nvhL .A) NVH_CFG.EN = true := by
  have hl : hdrBody.length = 0xFFC := by unfold hdrBody; rw [List.length_append, List.length_replicate] <;> rfl
  have hv : hdrValid 1 hdr1 = true := by
    have h1 : hdr1.length = 4096 := by unfold hdr1; rw [List.length_append, hl, toBytes_four]
    have h2 : blockAt hdr1 0xFFC 4 = crc32 (hdr1.take 0xFFC) := by
      unfold hdr1 blockAt
      rw [List.drop_left' hl, List.take_left' hl, List.take_of_length_le (Nat.le_of_eq (toBytes_four _))]
      exact ofBytes_toBytes _ (crc32_lt _)
    unfold hdrValid; rw [h1, h2, show decide (crc32 (hdr1.take 0xFFC) = crc32 (hdr1.take 0xFFC)) = true from decide_eq_true rfl, Bool.and_true]; decide +kernel
  refine ⟨?_, by decide +kernel, by decide +kernel⟩
  unfold hdrPick; simp [hv]
/-- A page table that the NVH does not look up in memory, at 64 MiB. -/
def tabled : Dev := (((pop live).dev.p (nvhL .A) NVH_CFG.EN 0).p (nvhL .A) NVH_PTBASE.BASE 8)
/-- A page that arrives for its entry: with the CRC of the entry, or with another, first or again. -/
def arriving (crc : Nat) (again : Bool) : State :=
  { live with dev := { tabled.modNvh .A (fun x => { x with out := [{ page := 0, time := 0, again := again }] }) with ptab := [(0, crc * 2 ^ 32)] } }
theorem arriving_regs (crc : Nat) (again : Bool) : (arriving crc again).dev.regs = tabled.regs := by
  unfold arriving Dev.modNvh; rfl
theorem arriving_on (crc : Nat) (again : Bool) : (arriving crc again).dev.on (hLoc .A .nvh) NVH_CFG.EN = false := by
  unfold Dev.on Dev.g Dev.rd; rw [arriving_regs]; decide +kernel
theorem arriving_pages (crc : Nat) (again : Bool) : (arriving crc again).dev.pages .A = 131072 := by
  unfold Dev.pages Dev.dramSize Dev.on Dev.g Dev.rd; rw [arriving_regs]; decide +kernel
theorem arriving_pte (crc : Nat) (again : Bool) : (arriving crc again).dev.pte (arriving crc again).mem .A 0 = crc * 2 ^ 32 := by
  unfold Dev.pte
  rw [arriving_on, arriving_pages]
  rfl
theorem witness_PagesMapLoadAndLog_arrive (again : Bool) :
    (arriving 0 again).awake .A (nvhL .A) ∧ ((arriving 0 again).dev.nvh .A).out.find? (fun y => y.page = (0 : BitVec 20).toNat) = some { page := 0, time := 0, again := again } ∧
    ((arriving 0 again).dev.nvh .A).out.erase { page := 0, time := 0, again := again } = [] ∧ page0.length = 65536 ∧
    (0 < (arriving 0 again).dev.pages .A ∧ (arriving 0 again).dev.pteAddr .A 0 + 16 ≤ 2 ^ 36 ∧
      (arriving 0 again).ref.targets ((arriving 0 again).dev.pteAddr .A 0) = [(arriving 0 again).dev.pteAddr .A 0] ∧
      (arriving 0 again).dev.pteAddr .A 0 % 2 ^ 35 / 65536 ≠ 0 ∧ (arriving 0 again).ref.targets 0 = [0]) ∧
    crc32 page0 = (arriving (crc32 page0) again).dev.pte (arriving (crc32 page0) again).mem .A 0 / 2 ^ 32 % 2 ^ 32 ∧
    crc32 page0 ≠ (arriving (crc32 page0 + 1) again).dev.pte (arriving (crc32 page0 + 1) again).mem .A 0 / 2 ^ 32 % 2 ^ 32 := by
  refine ⟨by unfold State.awake; cases again <;> decide +kernel, by cases again <;> decide +kernel, by cases again <;> decide +kernel,
    by unfold page0; exact List.length_replicate .., by cases again <;> decide +kernel, ?_, ?_⟩
  · rw [arriving_pte]; have := crc32_lt page0; omega
  · rw [arriving_pte]; have := crc32_lt page0; omega

/-! ### Witnesses: chapter 15 -/

/-- Channel 15 of Half A in a state and a phase, with a descriptor at address 0: its words 0, 1, 4 and 6, `src` being 2^33. -/
def dma15 (st : Nat) (x : DmaCh) (w0 w1 w6 : Nat) (f : Dev → Dev := id) : State :=
  { dram (fun d => f ((d.modDma 0 15 fun _ => x).p (dmaL 0) (DMA_CTL.STATE.ix 15) st)) with
    mem := Mem.applyAll [] (storeN 0 w0 4 ++ storeN 4 w1 4 ++ storeN 8 256 4 ++ storeN 16 512 4 ++ storeN 24 w6 4) }
theorem witness_ChannelCommandsFollowTheState :
    (15 : Fin 16).val < dmaCount 0 ∧ live.regionOn 0 = true ∧ (∀ x ∈ [dmaIdle, dmaRun, dmaEnd, dmaStopped], (dma15 x {} 0 0 0).dev.dmaState 0 15 = x) ∧
    (7 : Fin 16).val < dmaCount 2 ∧ live.regionOn 2 = true ∧ live.soleR 0 ∧ live.soleR 2 ∧ dmaIdle ≠ dmaRun := by
  unfold State.soleR State.sole; decide +kernel
/-- The words of a linear descriptor of 16 bytes that the channel owns. -/
def dwords : List Nat := [0xD, 16, 256, 0, 512, 0, 0, 0]
theorem witness_ChannelsMoveDescriptorsAndData_calm (st : Nat) (x : DmaCh) (w0 w1 w6 : Nat) : (dma15 st x w0 w1 w6).dev.calm :=
  calm_of _ ⟨rfl, rfl, rfl, rfl, rfl⟩
theorem witness_ChannelsMoveDescriptorsAndData :
    (∀ w0 ∈ [0, 0xD, 0x7D], ∀ x ∈ [({ phase := .fetch } : DmaCh), { phase := .fetch, stopping := true }, { phase := .reread }, { phase := .last }, { phase := .move dwords },
        { phase := .move dwords, stopping := true }],
      let s := dma15 dmaRun x w0 16 0
      s.channel 0 15 ∧ s.ref.rjHalf = none ∧ s.plain 0 (s.dev.dmaDesc 0 15) 32 ∧ s.dev.dma 0 15 = x ∧
        (let dw := (List.range 8).map fun i => s.mem.read (s.dev.dmaDesc 0 15 + 4 * i) 4
         (dscAt dw 0 % 2 = 0 ↔ w0 = 0) ∧ (w0 ≠ 0 → dscBad dw = decide (w0 = 0x7D)))) ∧
    (let s := dma15 dmaRun { phase := .move dwords } 0xD 16 0
     dscBad dwords = false ∧ s.plain 0 (dscSrc dwords) (if bit (dscAt dwords 0) 2 then dscLen dwords else dscSw dwords) ∧
       s.plain 0 (dscDst dwords) (if bit (dscAt dwords 0) 3 then dscLen dwords else dscDw dwords)) ∧
    (∀ v ∈ [64, 1], ∀ ring ∈ [0, 1],
      let s := dma15 dmaRun { phase := .reread } 0xD 16 v fun d => d.p (dmaL 0) (DMA_CTL.RING.ix 15) ring
      s.channel 0 15 ∧ (s.dev.dma 0 15).phase = .reread ∧ (s.dev.dma 0 15).stopping = false ∧ s.mem.read (s.dev.dmaDesc 0 15 + 24) 8 = v ∧
        s.dev.on (dmaL 0) (DMA_CTL.RING.ix 15) = decide (ring = 1)) := by
  unfold State.channel State.plain; decide +kernel
theorem witness_DescriptorsAreCountedOnce :
    (let s := dma15 dmaRun { phase := .move dwords, taken := 1 } 0xD 16 0
     s.dev.channelSound 0 15 ∧ s.dev.dmaDesc 0 15 + 32 ≤ 2 ^ 36 ∧ (s.dev.dma 0 15).phase = .move dwords ∧
       dscSrc dwords + dscLen dwords + 16 ≤ 2 ^ 36 ∧ dscDst dwords + dscLen dwords + 16 ≤ 2 ^ 36) := by
  unfold Dev.channelSound; decide +kernel
theorem witness_DescriptorsAreCountedOnce_next : ∃ t, exec (.dmaStart 0 15) (dma15 dmaIdle {} 0 0 0) = .next t := ⟨_, rfl⟩

/-! ### Witnesses: chapters 16 to 18 -/

/-- Layer 6 of composition 1 shows the camera of pipe 1 of Half B, whose line has 4,096 samples. -/
def shown : State := dv fun d =>
  ((((d.p (layerAt 1 6).1 (PRZ_LCFG.EN.ix (layerAt 1 6).2) 1).p (layerAt 1 6).1 (PRZ_LCFG.SRC.ix (layerAt 1 6).2) 2).p (layerAt 1 6).1 (PRZ_LLIVE.ENGINE.ix (layerAt 1 6).2) 3).p
    (layerAt 1 6).1 (PRZ_LSIZE.SW_M1.ix (layerAt 1 6).2) 15).modPipe .B 1 fun x => { x with line := List.replicate 16 0 }
theorem witness_CompositionsRefreshAndWriteBack :
    live.dev.svcUp = true ∧
    (∀ n ∈ [0, 1],
      let s := { shown with dev := ((shown.dev.p (lpeL .B 1) LPE_STAT.RUN 1).p (cxpL .B 1) CXP_STAT.LINK 2).modPipe .B 1 fun x => { x with fresh := n == 1 } }
      (s.ref.live .B && s.dev.on (lpeL .B 1) LPE_STAT.RUN && decide (s.dev.g (cxpL .B 1) CXP_STAT.LINK = 2) && (s.dev.pipe .B 1).fresh) = decide (n = 1)) ∧
    (let s := shown
     let sh (c n : Nat) : Prop := s.dev.clocked (przL c) = true ∧ s.dev.przStopped c = false ∧ s.dev.lg c n PRZ_LCFG.EN = 1 ∧ s.dev.lg c n PRZ_LCFG.SRC = 2 ∧
       s.dev.lg c n PRZ_LLIVE.ENGINE = 2 * Half.B.n + 1
     (∀ c, c < 2 → ∀ n, n < 7 → (sh c n ↔ c = 1 ∧ n = 6)) ∧
       s.dev.lg 1 6 PRZ_LBASE_LO.BASE * 16 + s.dev.lg 1 6 PRZ_LBASE_HI.BASE * 2 ^ 32 + 0 % (s.dev.lg 1 6 PRZ_LSIZE.SH_M1 + 1) * s.dev.lg 1 6 PRZ_LPITCH.PITCH + 16 ≤ 2 ^ 36 ∧
       s.ref.rjHalf = none ∧
       (∀ i, i < s.dev.lg 1 6 PRZ_LSIZE.SW_M1 + 1 → s.dev.lg 1 6 PRZ_LLIVE.FIRST + i * 2 ^ s.dev.lg 1 6 PRZ_LLIVE.SKIP < (s.dev.pipe .B 1).line.length)) ∧
    (∀ c, c < 2 → ∀ n, n < 7 → live.dev.lg c n PRZ_LCFG.EN ≠ 1) ∧
    (∀ b ∈ [false, true],
      let s := dv fun d => d.modPrism 1 fun x => { x with frame := { x.frame with wb := b } }
      let fd : Dev := { s.dev with regs := (s.dev.prism 1).frame.regs }
      s.served (przL 1) ∧ (s.dev.prism 1).frame.wb = b ∧ s.dev.przStopped 1 = false ∧ s.ref.rjHalf = none ∧
        fd.g (przL 1) PRZ_WB_LO.BASE * 16 + fd.g (przL 1) PRZ_WB_HI.BASE * 2 ^ 32 + (modeSize (fd.g (dhdL 1) DHD_CFG.MODE)).2 * fd.g (przL 1) PRZ_WBCFG.PITCH +
          (modeSize (fd.g (dhdL 1) DHD_CFG.MODE)).1 * (if fd.g (przL 1) PRZ_WBCFG.WBFMT = 1 then 4 else 2) ≤ 2 ^ 36) := by
  unfold State.served; decide +kernel
theorem witness_CompositionsRefreshAndWriteBack_calm : shown.dev.calm ∧ ∀ b, (dv fun d => d.modPrism 1 fun x => { x with frame := { x.frame with wb := b } }).dev.calm :=
  ⟨calm_of _ ⟨rfl, rfl, rfl, rfl, rfl⟩, fun _ => calm_of _ ⟨rfl, rfl, rfl, rfl, rfl⟩⟩
/-- Head `c` running or not, in service dim or not. -/
def head (c run dim en : Nat) (f : Dev → Dev := id) : State := dv fun d => f (((d.p (dhdL c) DHD_STAT.RUN run).p (dhdL c) DHD_CFG.EN en).p pwrL PWR_STAT.DIM dim)
theorem witness_HeadsLatchFetchAndSync :
    (∀ c ∈ [0, 1], ∀ run ∈ [0, 1], ∀ dim ∈ [0, 1], ∀ en ∈ [0, 1],
      let s := head c run dim en
      s.served (dhdL c) ∧ s.dev.clocked (przL c) = true ∧ s.dev.clocked przD4 = true ∧ s.dev.on (przL c) PRZ_STAT.FLATTENING = false ∧
        (∀ p ∈ [pageOf 2 .prz c, pageOf 2 .prz 2, pageOf 2 .dhd c], s.dev.armed p = false) ∧ s.dev.on (dhdL c) DHD_STAT.RUN = decide (run = 1) ∧
        s.dev.dimmed = decide (dim = 1) ∧ s.dev.on (dhdL c) DHD_CFG.EN = decide (en = 1) ∧ (s.dev.prism c).frame.wb = false ∧ s.dev.cmdMode = false) ∧
    (∀ b ∈ [false, true],
      let s := head 1 1 0 1 fun d => (d.p (dhdL 1) DHD_CFG.CMDMODE 1).modHead 1 fun x => { x with transfer := b }
      s.served (dhdL 1) ∧ (decide ((1 : Fin 2) = 1) && s.dev.cmdMode) = true ∧ (s.dev.head 1).transfer = b ∧ s.dev.on (dhdL 1) DHD_STAT.RUN = true) ∧
    (let s := head 1 1 0 1 fun d => (d.p (dhdL 1) DHD_CFG.SCAN 1).modHead 1 fun x => { x with buffered := 1 }
     s.served (dhdL 1) ∧ s.dev.on (dhdL 1) DHD_STAT.RUN = true ∧ s.dev.on (dhdL 1) DHD_CFG.SCAN = true ∧
       (((s.dev.head 1).buffered - (1 : BitVec 11).toNat) + 1) * compatLine s.dev 1 ≤ 65536 ∧ (s.dev.head 1).lines.length < (modeSize (s.dev.g (dhdL 1) DHD_CFG.MODE)).2) ∧
    (let s := head 1 1 0 1 fun d => (d.p (dhdL 1) DHD_CFG.SCAN 1).modHead 1 fun x => { x with buffered := 2000 }
     65536 < (((s.dev.head 1).buffered - (0 : BitVec 11).toNat) + 1) * compatLine s.dev 1) ∧
    (live.served (dhdL 1) ∧ live.dev.on (dhdL 1) DHD_STAT.RUN = false ∧ (live.dev.head 1).fifo.length < 64 ∧ (live.dev.head 1).bta = false ∧ live.dev.cmdMode = false) ∧
    (∀ n ∈ [1, 64],
      let s := head 1 1 0 1 fun d => d.modHead 1 fun x => { x with fifo := (63 * 4 * 2 ^ 8) :: List.replicate (n - 1) 0 }
      let x := s.dev.head 1
      x.fifo = (63 * 4 * 2 ^ 8) :: List.replicate (n - 1) 0 ∧ x.bta = false ∧
        (if s.dev.on (dhdL 1) DHD_CFG.CMDMODE then x.transfer = false else s.dev.on (dhdL 1) DHD_STAT.RUN = true) ∧
        (1 + (63 * 4 * 2 ^ 8 / 2 ^ 8 % 65536 + 3) / 4 ≤ x.fifo.length ↔ n = 64) ∧ x.fifo.length ≤ 64) ∧
    ((dv fun d => d.modHead 1 fun x => { x with bta := true }).dev.head 1).bta = true ∧
    64 ≤ ((dv fun d => d.modHead 1 fun x => { x with fifo := List.replicate 64 0 }).dev.head 1).fifo.length := by
  unfold State.served; decide +kernel
theorem witness_HeadsLatchFetchAndSync_calm (c run dim en : Nat) : (head c run dim en).dev.calm := calm_of _ ⟨rfl, rfl, rfl, rfl, rfl⟩
/-- A captured FILL of one pixel of 32 bits, or an operation with a reserved code. -/
def fill1 (op : Nat) : BltOp := { regs := [(bltL + 0x800, BitVec.ofNat 32 (op * 16)), (bltL + 0x810, 5), (bltL + 0x834, 0x1FFF1FFF)] }
theorem witness_BlitterDrawsOnlyItsPixels :
    (live.dev.svcUp = true ∧ live.dev.on bltL BLT_STAT.BUSY = false ∧ (dv fun d => d.p bltL BLT_STAT.BUSY 1).dev.on bltL BLT_STAT.BUSY = true) ∧
    (let s := dv fun d => { d with blt := some (fill1 7) }
     s.served bltL ∧ s.dev.blt = some (fill1 7) ∧ (fill1 7).held = false ∧ s.ref.rjHalf = none ∧ (fill1 7).error ≠ 0) ∧
    (∀ ab ∈ [false, true],
      let b := { fill1 1 with abort := ab }
      let s := dram fun d => { d with blt := some b }
      s.served bltL ∧ s.dev.blt = some b ∧ b.held = false ∧ b.abort = ab ∧ s.ref.rjHalf = none ∧ b.error = 0 ∧ b.pixels.length = 1 ∧
        b.dst.fmt = 5 ∧ b.f BLT_CMD.OP = 1 ∧ b.f BLT_CMD.BLEND = 0 ∧
        ∀ e ∈ b.pixels, s.plain 2 (b.dst.addr e.1 e.2.1) ((bltBits b.dst.fmt + 7) / 8) ∧ (match e.2.2 with | .colour _ => true | _ => false) = true) := by
  unfold State.served State.plain; decide +kernel
theorem witness_BlitterDrawsOnlyItsPixels_calm (b : BltOp) : (dv fun d => { d with blt := some b }).dev.calm ∧ (dram fun d => { d with blt := some b }).dev.calm :=
  ⟨calm_of _ ⟨rfl, rfl, rfl, rfl, rfl⟩, calm_of _ ⟨rfl, rfl, rfl, rfl, rfl⟩⟩

/-! ### Witnesses: chapters 19 and 20 -/

/-- The acoustic unit with a changed port. -/
def port (p : Nat) (x : APort) (f : Dev → Dev := id) : State := dv fun d => f { d with aud := d.aud.setPort p x }
theorem witness_AudioFramesAreCounted :
    (∀ p ∈ [0, 3], (port p { fifo := [[]], rx := 3, taken := 1, drops := 1 }).dev.aud.portSound p) := by
  unfold Audio.portSound; decide +kernel
theorem witness_AudioFramesAreCounted_next : ∃ t, exec (.audioFrameReceive 0 []) (port 0 {} fun d => d.p audL (AUD_PCFG.EN.ix 0) 1) = .next t := ⟨_, rfl⟩
theorem witness_AudioPortsKeysAndGains :
    live.dev.svcUp = true ∧ live.served audL ∧ live.dev.on audL (AUD_PCFG.EN.ix 0) = false ∧
    (∀ n ∈ [63, 64],
      let s := port 1 { fifo := List.replicate n [] } fun d => d.p audL (AUD_PCFG.EN.ix 1) 1
      s.served audL ∧ s.dev.on audL (AUD_PCFG.EN.ix 1) = true ∧ ((s.dev.aud.port 1).fifo.length < 64 ↔ n = 63)) ∧
    live.dev.on audL (AUD_PCFG.EN.ix 3) = false ∧
    (∀ f ∈ [[], [[(1 : Int)]]],
      let s := port 3 { fifo := f } fun d => d.p audL (AUD_PCFG.EN.ix 3) 1
      s.served audL ∧ s.dev.on audL (AUD_PCFG.EN.ix 3) = true ∧ (s.dev.aud.port 3).fifo = f) ∧
    (∀ z ∈ [none, some 5],
      let s := dv fun d => { d with aud := { d.aud with steth := { zc := z }, sgain := setGain [] (51 * 16 + 15) { zc := z }, bgain := setGain [] 15 { zc := z } } }
      s.served audL ∧ (gainOf s.dev.aud.sgain (51 * 16 + 15)).zc = z ∧ (gainOf s.dev.aud.bgain 15).zc = z ∧ s.dev.aud.steth.zc = z) := by
  unfold State.served; decide +kernel
/-- Voice 31 active at a position, with END 1 and PITCH 1, in the middle of a block; ports 0 and 2 enabled, their FIFOs as long as said. -/
def voice (pos n0 n2 : Nat) : State := dv fun d =>
  ((((({ d with aud := (((d.aud.setPort 0 { fifo := List.replicate n0 [] }).setPort 2 { fifo := List.replicate n2 [] }).setVoice 31 { pos := pos }) }.modAud
    fun a => { a with left := 3, keyOn := 2 }).p audL AUD_VACT.ACTIVE (2 ^ 31)).p audL (AUD_VENDX.INDEX.ix 31) 1).p audL (AUD_VPITCH.INC.ix 31) 1).p audL
    (AUD_PCFG.EN.ix 0) 1).p audL (AUD_PCFG.EN.ix 2) 1
theorem witness_SamplePeriodsMixInOrder :
    (∀ pos ∈ [65534, 65535], ∀ n0 ∈ [0, 1, 48, 49], ∀ n2 ∈ [47, 48],
      let s := voice pos n0 n2
      s.served audL ∧ s.dev.armed (pageOf 2 .aud 0) = false ∧ s.dev.ueWords = [] ∧ s.dev.aud.left ≠ 0 ∧ s.dev.voiceOn 0 = false ∧ s.dev.voiceOn 31 = true ∧
        s.dev.g audL (AUD_VMODE.LOOP.ix 31) = 0 ∧ (s.dev.aud.voice 31).pos + s.dev.g audL (AUD_VPITCH.INC.ix 31) < 2 ^ 33 ∧
        ((s.dev.aud.voice 31).pos + s.dev.g audL (AUD_VPITCH.INC.ix 31) < s.dev.g audL (AUD_VENDX.INDEX.ix 31) * 65536 ↔ pos = 65534) ∧
        s.dev.g audL (AUD_PCFG.EN.ix 0) = 1 ∧ (s.dev.aud.port 0).fifo.length = n0 ∧ s.dev.g audL (AUD_PCFG.EN.ix 2) = 1 ∧ (s.dev.aud.port 2).fifo.length = n2 ∧
        s.dev.g audL (AUD_PCFG.EN.ix 1) = 0 ∧ s.dev.busSources 0 = [] ∧ s.dev.stethOn 0 = false ∧ 0 < fmtSlots (s.dev.g audL (AUD_PCFG.FMT.ix 2))) ∧
    (let s := dv fun d => d.modAud fun a => { a with keyOn := 2 ^ 31 }
     s.served audL ∧ s.dev.armed (pageOf 2 .aud 0) = false ∧ s.dev.aud.left = 0 ∧ bit s.dev.aud.keyOn 31 = true) := by
  unfold State.served; decide +kernel
/-- Source 0 of the EVC of Half B enabled for vector 63 with a class, asserted or not; the vector's mask, its last message, its pending bit. -/
def vec (cls : Nat) (up : Bool) (mask last pba : Nat) (busy : Bool := false) : State := dv fun d =>
  ((({ d with evcTab := [(512, 1 + 63 * 2 + cls * 2 ^ 17)], lines := [(0, up)], lastMsg := [(127, last)], inService := [(127, busy)] }.p (hLoc .B .hif)
    (MSIX_CTRL.MASK.ix 63) mask).p (hLoc .B .evc) (EVC_VMOD.MOD.ix 63) 1)).wr (hLoc .B .hif) 0xBF4 (BitVec.ofNat 32 (pba * 2 ^ 31))
theorem witness_VectorsAreDeliveredByTheRules :
    live.ref.hs .B ≠ .off ∧ live.sole .B ∧ (vec 0 false 0 0 0).dev.vecSources .B 63 = [] ∧
    (∀ cls ∈ [1, 2], ∀ mask ∈ [0, 1], ∀ last ∈ [0, 1], ∀ pba ∈ [0, 1], ∀ busy ∈ [false, true],
      let s := vec cls true mask last pba busy
      let es := s.dev.vecSources .B 63
      s.ref.hs .B ≠ .off ∧ es ≠ [] ∧ es.foldl (fun c e => max c (e / 2 ^ 17 % 4)) 0 = cls ∧ SMap.get (fun _ => 0) s.dev.lastMsg 127 = last ∧
        SMap.get (fun _ => false) s.dev.inService 127 = busy ∧ s.dev.on (hLoc .B .hif) (MSIX_CTRL.MASK.ix 63) = decide (mask = 1) ∧
        bit (s.dev.rd (hLoc .B .hif) (0xBF0 + 4 * (63 / 32))).toNat (63 % 32) = decide (pba = 1) ∧
        (cls ≤ 1 ∧ last ≠ 0 ∧ s.dev.tb .B < last - 1 + 100 * s.dev.g (hLoc .B .evc) (EVC_VMOD.MOD.ix 63) ↔ cls = 1 ∧ last = 1)) := by
  unfold State.sole; decide +kernel
theorem witness_TablesLinksAndTimeouts :
    live.dev.svcUp = true ∧ live.soleR 0 ∧ live.soleR 2 ∧ live.ref.hs .A ≠ .off ∧ live.ref.sby .A = false ∧ live.awake .A (hLoc .A .hif) ∧ live.ref.live .A = true ∧
    live.dev.clocked (rLoc 2 .evc) = true ∧ live.dev.g (rLoc 2 .evc) EVC_TW_IDX.SRC = 0 ∧
    (dv fun d => { d with lines := [(0, true)] }).dev.asserted 0 = true ∧ live.dev.coreLineHigh 2 7 13 = false ∧
    ((8 ≤ 7 || 14 ≤ 13) = false ∧ (8 ≤ 8 || 14 ≤ 13) = true) := by
  unfold State.awake State.soleR State.sole; decide +kernel

/-! ### Witnesses: chapters 21 and 22 -/

/-- Timer 15 of region `r` running, with a prescaler of `div`/65536 events, an accumulator, a COUNT and a PERIOD, the compare and MODE. -/
def timer (r : Fin 3) (div acc count cmp mode : Nat) (f : Dev → Dev := id) : State := dv fun d =>
  f (((((((d.setTimer r 15 { acc := acc }).p (tmrL r 15) TMR_CTL.RUN 1).wr (tmrL r 15) TMR_DIV.DIV.off (BitVec.ofNat 32 div)).wr (tmrL r 15) TMR_COUNT.COUNT.off
    (BitVec.ofNat 32 count)).wr (tmrL r 15) TMR_PERIOD.PERIOD.off 9).p (tmrL r 15) TMR_CFG.CMPEN cmp).p (tmrL r 15) TMR_CFG.MODE mode)
theorem witness_TimersTickMatchAndCapture :
    (∀ r ∈ [(0 : Fin 3), 2], ∀ count ∈ [8, 9, 10], ∀ cmp ∈ [0, 1], ∀ mode ∈ [0, 1],
      let s := timer r 65536 0 count cmp mode fun d => d.wr (tmrL r 15) TMR_NEXT.NC.off 1
      s.regionOn r = true ∧ s.dev.clocked (tmrL r 15) = true ∧ s.dev.on (tmrL r 15) TMR_CTL.RUN = true ∧ s.dev.g (tmrL r 15) TMR_DIV.DIV ≤ (s.dev.timer r 15).acc + 0x10000 ∧
        (s.dev.g (tmrL r 15) TMR_PERIOD.PERIOD ≤ s.dev.g (tmrL r 15) TMR_COUNT.COUNT ↔ 9 ≤ count) ∧
        ((s.dev.on (tmrL r 15) TMR_CFG.CMPEN = true ∧ (if s.dev.on (tmrL r 15) TMR_CFG.MODE then (s.dev.g (tmrL r 15) TMR_TICKS.TICKS + 1) % 2 ^ 32 = s.dev.g (tmrL r 15) TMR_NEXT.NC
          else (if s.dev.g (tmrL r 15) TMR_PERIOD.PERIOD ≤ s.dev.g (tmrL r 15) TMR_COUNT.COUNT then 0 else (s.dev.g (tmrL r 15) TMR_COUNT.COUNT + 1) % 2 ^ 32) =
            s.dev.g (tmrL r 15) TMR_CMP.CMP)) ↔ cmp = 1 ∧ (mode = 1 ∨ 9 ≤ count)) ∧
        s.dev.g (tmrL r 15) TMR_CFG.SRC = 0 ∧ s.soleR r ∧ ∀ k, k < 16 → ¬ (s.dev.g (tmrL r k) TMR_CFG.SRC = 5 ∧ s.dev.g (tmrL r k) TMR_CFG.SEL % 16 = 15)) ∧
    (let s := timer 0 65537 0 0 0 0
     (s.dev.timer 0 15).acc + 0x10000 < s.dev.g (tmrL 0 15) TMR_DIV.DIV) ∧
    live.dev.on (tmrL 0 15) TMR_CTL.RUN = false ∧ (live.dev.timer 0 15).edges = 0 ∧
    (let s := timer 0 65536 0 9 0 0 fun d => ((d.p (tmrL 0 14) TMR_CFG.SRC 5).p (tmrL 0 14) TMR_CFG.SEL 15).p (tmrL 0 14) TMR_CTL.RUN 1
     s.dev.g (tmrL 0 15) TMR_PERIOD.PERIOD ≤ s.dev.g (tmrL 0 15) TMR_COUNT.COUNT ∧ s.dev.g (tmrL 0 14) TMR_CFG.SRC = 5 ∧ s.dev.g (tmrL 0 14) TMR_CFG.SEL % 16 = (15 : Fin 16).val ∧
       s.dev.on (tmrL 0 14) TMR_CTL.RUN = true ∧ s.dev.clocked (tmrL 0 14) = true ∧ (14 : Fin 16) ≠ 15) ∧
    (∀ n ∈ [0, 1],
      let s := timer 0 65536 0 0 0 0 fun d => (d.p (tmrL 0 15) TMR_CFG.SRC 4).setTimer 0 15 { evs := n }
      s.dev.g (tmrL 0 15) TMR_CFG.SRC = 4 ∧ (s.dev.timer 0 15).evs = n) ∧
    (∀ n ∈ [3, 4],
      let s := dv fun d => d.setTimer 0 15 { caps := List.replicate n 0, edges := 1 }
      (s.dev.timer 0 15).edges ≠ 0 ∧ (s.dev.timer 0 15).caps.length = n) ∧
    (∀ nc ∈ [0, 1],
      let s := timer 0 65536 0 0 0 1 fun d => (d.wr (tmrL 0 15) TMR_NEXT.NC.off (BitVec.ofNat 32 nc)).wr (tmrL 0 15) TMR_INTERVAL.INTERVAL.off 7
      s.dev.on (tmrL 0 15) TMR_CFG.MODE = true ∧ s.dev.g (tmrL 0 15) TMR_INTERVAL.INTERVAL ≠ 0 ∧ (0 < sgn 32 (s.dev.g (tmrL 0 15) TMR_NEXT.NC) ↔ nc = 1)) := by
  unfold State.soleR State.sole; (repeat' apply And.intro) <;> decide +kernel
/-- Matcher 7 in a mode, its last result and its present one (it compares one pin, pin 0, which is low, with 0 or 1). -/
def matcher (mode was now : Nat) : State := dv fun d =>
  (((d.p (gpxL 0) (GPX_PM_CFG.MODE.ix 7) mode).p (gpxL 0) (GPX_PM_CFG.MASK.ix 7) 1).p (gpxL 0) (GPX_PM_CFG.VALUE.ix 7) (1 - now)).p (gpxL 0) GPX_PMST.MATCH (was * 128)
theorem witness_PinsMatchersAndBanks :
    live.served (gpxL 0) ∧
    (∀ mode ∈ [0, 1, 2, 3], ∀ was ∈ [0, 1], ∀ now ∈ [0, 1],
      let s := matcher mode was now
      s.served (gpxL 0) ∧ s.dev.g (gpxL 0) (GPX_PM_CFG.MODE.ix 7) = mode ∧ bit (s.dev.g (gpxL 0) GPX_PMST.MATCH) 7 = decide (was = 1) ∧ s.dev.pmResult 7 = decide (now = 1)) ∧
    (∀ v ∈ [0, 128], bit ((dv fun d => d.p (gpxL 0) GPX_BSTAT.DET18 v).dev.g (gpxL 0) GPX_BSTAT.DET18) 7 = decide (v = 128)) ∧
    live.coreOn 2 7 = true := by
  unfold State.served; decide +kernel

/-! ### Witnesses: chapters 23 and 24 -/

/-- The host of Half A holds the session and its BAR2 carries D5. -/
def owner (f : Dev → Dev := id) : State :=
  { (dv fun d => f ((d.p (hLoc .A .hif) HIF_WIN.DOM 3).p (hLoc .A .hif) HIF_STAT.LINKUP 1)) with ref := { live.ref with session := some .A } }
/-- A flash address, a device that CFG_USE names or not, the warnings. -/
def fl (dev addr warn : Nat) (f : Dev → Dev := id) (a : State := live) : State :=
  { a with dev := f ((((a.dev.p cfgL CFG_FLADDR.DEV dev).p cfgL CFG_FLADDR.ADDR addr).p pwrL PWR_STAT.WARN warn).p cfgL CFG_USE.SVC 0) }
theorem witness_FlashKeysAndAttestation :
    (let s := fl 0 0xF01 0
     s.dev.svcUp = true ∧ s.dev.flOp = none ∧ s.dev.g cfgL CFG_USE.SVC = s.dev.g cfgL CFG_FLADDR.DEV ∧ 0x1000 < s.dev.g cfgL CFG_FLADDR.ADDR + 256) ∧
    (∀ a ∈ [0xFFF, 0x1000], ∀ warn ∈ [0, 1],
      let s := fl 1 a warn
      s.dev.g cfgL CFG_FLADDR.DEV = 1 ∧ s.dev.g cfgL CFG_FLADDR.ADDR = a ∧ ¬ (s.dev.g cfgL CFG_USE.SVC = 1 ∨ s.dev.g cfgL CFG_USE.HA = 1 ∨ s.dev.g cfgL CFG_USE.HB = 1) ∧
        s.hasD5 (.core 2 7) = false ∧ s.dev.g pwrL PWR_STAT.WARN = warn) ∧
    (owner.hasD5 (.host .A true) = true ∧ owner.dev.svcUp = true) ∧
    (let s := fl 1 0 0 id owner
     s.hasD5 (.host .A true) = true ∧ s.dev.g pwrL PWR_STAT.WARN = 0 ∧ s.dev.g cfgL CFG_FLADDR.ADDR % 65536 = 0 ∧ s.dev.g cfgL CFG_FLADDR.ADDR + 65536 ≤ s.dev.flashSize 1) ∧
    (let s := fl 1 (2 ^ 25 - 256) 0
     s.dev.g cfgL CFG_FLADDR.ADDR % 256 = 0 ∧ s.dev.g cfgL CFG_FLADDR.ADDR + 256 ≤ s.dev.flashSize 1) ∧
    (∀ op ∈ [1, 2, 3], ∀ warn ∈ [0, 1],
      let x : FlashOp := ⟨op, 1, 0, List.replicate 256 0⟩
      let s := fl 1 0 warn fun d => { d with flOp := some x }
      s.dev.flOp = some x ∧ x.data.length = 256 ∧ s.dev.g pwrL PWR_STAT.WARN = warn ∧ SMap.get flashFill s.dev.flash (1 * 2 ^ 28 + 255) = 0xFF) ∧
    (∀ warn ∈ [0, 1], ∀ k ∈ [none, some 5],
      let s := fl 1 0 warn (fun d => { d with otp := [(2, k)] }) owner
      s.dev.otpOp = none ∧ s.dev.g pwrL PWR_STAT.WARN = warn ∧ s.hasD5 (.core 2 7) = false ∧ s.hasD5 (.host .A true) = true ∧ (s.dev.keyHash 2).isSome = k.isSome ∧
        s.dev.keyHash 1 = none) ∧
    (∀ op ∈ [1, 2], (dv fun d => { d with otpOp := some ⟨op, 2, 5⟩ }).dev.otpOp = some ⟨op, 2, 5⟩) ∧
    (∀ b ∈ [0, 1], (dv fun d => d.p secL SEC_STAT.ATBUSY b).dev.on secL SEC_STAT.ATBUSY = decide (b = 1)) ∧ live.dev.clocked secL = true ∧ live.dev.clocked cfgL = true := by
  decide +kernel
theorem witness_WarningsThrottlingAndDim :
    (∀ rg ∈ [(0 : Fin 3), 2], live.dev.warnLevel rg - 1 < live.dev.warnLevel rg ∧ live.dev.warnLevel rg + 21 < 4096 ∧ 0 < live.dev.warnLevel rg) ∧
    live.ref.supA = true ∧ live.ref.supS = true ∧ live.dev.svcUp = true ∧ live.dev.g pwrL PWR_STAT.WARN = 0 ∧ live.ref.hs .A ≠ .off ∧ live.ref.hs .B ≠ .off ∧
    (∀ rg ∈ [0, 2], bit ((dv fun d => d.p pwrL PWR_STAT.WARN 5).dev.g pwrL PWR_STAT.WARN) rg = true) ∧ live.dev.clocked pwrL = true ∧
    (105 < (106 : BitVec 8).toInt ∧ (live.dev.g pwrL PWR_THROT.ON : Int) ≤ (127 : BitVec 8).toInt ∧ live.dev.on pwrL PWR_STAT.THROT = false) ∧
    (live.sends (.core 2 0) = true ∧ live.dev.domainOf live.ref (.core 2 0) = 3 ∧ bit (live.dev.g pwrL PG_LOCK.WRITERS) 3 = true ∧ live.dev.asks = []) ∧
    (owner.sends (.host .A true) = true ∧ owner.dev.domainOf owner.ref (.host .A true) = 5 ∧ bit (owner.dev.g pwrL PG_LOCK.WRITERS) 5 = true) ∧
    (∀ b ∈ [0, 1],
      let s := dv fun d => { (d.p pwrL PWR_STAT.DIM b) with asks := [6, 7] }
      s.dev.asks.contains 6 = true ∧ s.dev.asks.contains 7 = true ∧ s.dev.on pwrL PWR_STAT.DIM = decide (b = 1)) := by decide +kernel
theorem witness_ResetsKeepToTheirRegions :
    (live.ref.supA = true ∧ live.ref.supB = true ∧ live.ref.supS = true ∧ live.ref.hs .A ≠ .off ∧ live.ref.hs .B ≠ .off) ∧
    (let s := rf fun r => { r with hsA := .off, supA := false, defaults := true }
     s.dev.warnLevel 0 + 21 < 4096 ∧ s.ref.hs .A = .off ∧ s.dev.svcUp = true ∧ s.ref.defaults = true) ∧
    (let s := dv fun d => { d with asks := [0, 1] }
     s.dev.asks.contains 0 = true ∧ s.dev.asks.contains 1 = true ∧ s.ref.act = .idle ∧ s.dev.svcUp = true ∧ { s.dev with flash := s.dev.flashCut }.slots2 = []) ∧
    (let s := { (rf fun r => { r with hsB := .quarantine }) with dev := { live.dev with asks := [3] } }
     s.dev.asks.contains (2 + Half.B.n) = true ∧ RD.standbyOk (s.ref, s.dev) .B = true ∧ bit (s.dev.g pwrL PWR_STAT.HSTBY) Half.B.n = false) ∧
    (let s := { (rf fun r => r.setSby .B true) with dev := { (live.dev.p pwrL PWR_STAT.HSTBY 2) with asks := [5] } }
     s.dev.asks.contains (4 + Half.B.n) = true ∧ s.ref.sby .B = true ∧ bit (s.dev.g pwrL PWR_STAT.HSTBY) Half.B.n = true) ∧
    (live.ref.hs .B ≠ .off ∧ live.ref.sby .B = false) ∧ (3 : BitVec 3).getLsbD 2 = false ∧ (4 : BitVec 3).getLsbD 2 = true ∧ live.dev.cold.slots2 = [] := by decide +kernel

/-! ### Witnesses: chapters 25, 01 and 20 -/

/-- The page number of `p` in its region. -/
def pgOf (p : Nat) : BitVec 12 := BitVec.ofNat 12 p
/-- The page of block `b` in region `rg`, with its row of Table 25.4, as the commands name it. -/
def named (rg : Fin 4) (b : Block) (noShadow : Option Nat) : Bool :=
  match pageRowOf (pageAt rg (pgOf (pageOf rg b 0))) with
  | some (row, i) => row.block == b && i == 0 && row.noShadow == noShadow
  | none => false
theorem witness_CommitsArmSwapAndCancel :
    named 2 .cfg (some 0x18) = true ∧ live.soleR 0 ∧ live.soleR 2 ∧
    (named 0 .aeq none = true ∧ named 0 .hrn none = true ∧ named 2 .aud none = true ∧ upAt live.ref live.dev 0 = true ∧ upAt live.ref live.dev 2 = true) ∧
    (live.dev.grp (pageOf 0 .aeq 0) = 0 ∧ live.dev.armed (pageOf 0 .aeq 0) = false ∧ live.dev.warnAt 0 = false ∧ frozenAt live.ref 0 = false ∧
      live.dev.headIdle (pageOf 0 .aeq 0) = false ∧ live.dev.headIdle (pageOf 2 .aud 0) = false ∧ live.dev.on (hLoc .A .hrn) HRN_STAT.COPY = false ∧
      live.dev.pageCodes [pageOf 0 .aeq 0] (pageOf 0 .aeq 0) = []) ∧
    (dv fun d => d.p (locOf (pageOf 0 .aeq 0)) PG_COMMIT.PENDING 1).dev.armed (pageOf 0 .aeq 0) = true ∧
    (dv fun d => d.p pwrL PWR_STAT.WARN 1).dev.warnAt 0 = true ∧ frozenAt (rf fun r => { r with hsA := .quarantine }).ref 0 = true ∧
    (let e := ((live.dev.seq (locOf (pageOf 0 .aeq 0))).p (locOf (pageOf 0 .aeq 0)) PG_COMMIT.GROUP 3).p (locOf (pageOf 0 .aeq 0)) PG_COMMIT.BOUND 2
     let ps := e.members (pageOf 0 .aeq 0)
     ps = [pageOf 0 .aeq 0] ∧ (∀ q ∈ ps, Dev.requestCodes live.ref e ps q ≠ [])) ∧
    (let s := dv fun d => d.p (locOf (pageOf 0 .beam 0)) PG_COMMIT.PENDING 1
     let l := hLoc .A .beam
     let p := pageOf Half.A.n .beam 0
     s.awake .A l ∧ s.dev.armed p = true ∧ s.dev.grp p = 0 ∧ s.dev.bound p = 0 ∧ s.dev.pageCodes [p] p = [] ∧
       ∀ b ∈ [(0 : Fin 4), 1, 2, 3], s.dev.gS l (BEAM_CFG.EN.ix b) = s.dev.g l (BEAM_CFG.EN.ix b) ∧ (s.dev.beam .A b).lineA.run < 2 ∧
          (s.dev.beam .A b).lineB.run < 2 ∧ (s.dev.beam .A b).lineZ.run < 2 ∧ (s.dev.beam .A b).state = .off) := by
  unfold State.awake State.soleR State.sole; decide +kernel
/-- SEAL_CFG with a time-out of 0 in the shadow set; a context of engine 0 in commit group 3; all ones in BEAM_CFG of beam 0. -/
theorem witness_CommitsArmSwapAndCancel_codes :
    (let s := dv fun d => { d with shadow := [(hLoc .A .seal + SEAL_CFG.TMO.off, 0)] }
     named 0 .seal none = true ∧ s.dev.pageCodes [pageOf 0 .seal 0] (pageOf 0 .seal 0) ≠ []) ∧
    (let s := dv fun d => d.p (rowL .A 0) (ROW_XCFG.GRP.ix 31) 3
     let p := pageOf 0 .row 0
     let e := ((s.dev.seq (locOf p)).p (locOf p) PG_COMMIT.GROUP 3).p (locOf p) PG_COMMIT.BOUND 1
     let ps := e.members p
     named 0 .row none = true ∧ s.dev.armed p = false ∧ ps = [p] ∧ ∀ q ∈ ps, Dev.requestCodes s.ref e ps q = [] ∧ s.dev.headIdle q = false) ∧
    (let s := dv fun d => { (d.p (hLoc .A .beam) PG_COMMIT.PENDING 1) with shadow := [(hLoc .A .beam + (BEAM_CFG.EN.ix 0).off, 0xFFFFFFFF)] }
     let p := pageOf Half.A.n .beam 0
     s.dev.armed p = true ∧ s.dev.grp p = 0 ∧ s.dev.bound p = 0 ∧ s.dev.pageCodes [p] p ≠ []) := by decide +kernel
theorem witness_CommitGroupsStayInOneRegion :
    (let s := dv fun d => d.p (hLoc .B .aeq) PG_COMMIT.GROUP 5
     named 0 .aeq none = true ∧ upAt s.ref s.dev 0 = true ∧ s.dev.armed (pageOf 0 .aeq 0) = false ∧ pageOf 1 .aeq 0 ∈ pagesOf 1 ∧ s.dev.grp (pageOf 1 .aeq 0) = 5) := by
  decide +kernel
/-- Half A in QUARANTINE, the session with the host of Half B, whose BAR2 window is D5 over the pages of Half A. -/
def jailer : State :=
  { (dv fun d => ((d.p (hLoc .B .hif) HIF_WIN.DOM 3).p (hLoc .B .hif) HIF_STAT.LINKUP 1).p (hLoc .B .hif) HIF_WIN.BASE 1024) with
    ref := { live.ref with hsA := .quarantine, hsB := .charge, session := some .B } }
theorem witness_PageLocksNameTheWriters :
    (upAt live.ref live.dev 0 = true ∧ live.soleR 0 ∧ live.sends (.core 0 0) = true ∧ live.ref.rjHalf = none ∧ frozenAt live.ref 0 = false ∧
      live.dev.domainOf live.ref (.core 0 0) = 1 ∧ live.dev.domainOf live.ref (.core 2 0) = 3 ∧ live.dev.on (hLoc .A .aeq) PG_LOCK.FREEZE = false ∧
      bit (live.dev.g (hLoc .A .aeq) PG_LOCK.WRITERS) 1 = true ∧ bit (live.dev.g (hLoc .A .aeq) PG_LOCK.WRITERS) 3 = false ∧ live.sends (.core 2 0) = true ∧
      (0x1000000000 + pageOf 0 .aeq 0 * 4096 + 0x018 : Nat) < 2 ^ 40) ∧
    (dv fun d => d.p (hLoc .A .aeq) PG_LOCK.FREEZE 1).dev.on (hLoc .A .aeq) PG_LOCK.FREEZE = true ∧
    (let a := 0x1000000000 + pageOf 0 .aeq 0 * 4096 + 0x018
     frozenAt jailer.ref 0 = true ∧ jailer.sends (.host .B true) = true ∧ jailer.ref.rjHalf = none ∧ jailer.dev.domainOf jailer.ref (.host .B true) = 5 ∧
       jailer.dev.reaches (.host .B true) a = true ∧ jailer.sends (.core 2 0) = true) ∧
    (live.ref.sup .A = true ∧ live.ref.hs .A ≠ .off ∧ live.ref.supS = true) := by
  unfold State.soleR State.sole; decide +kernel
theorem witness_TimeBaseReadsAreWhole :
    live.sends (.core 2 0) = true ∧ live.dev.reaches (.core 2 0) (0x1000000000 + pageOf 0 .beam 0 * 4096 + 0x920) = true ∧ live.ref.hs .A ≠ .off ∧
    live.sends (.host .B false) = true ∧ live.dev.reaches (.host .B false) (0x1000000000 + pageOf 1 .beam 0 * 4096 + 0x924) = true ∧ SMap.get (fun _ => none) live.dev.latched (latchKey (pageOf 0 .beam 0) 0x920 (.core 2 0)) = none ∧
    (0x1000000000 + pageOf 1 .beam 0 * 4096 + 0x924 : Nat) < 2 ^ 40 ∧ live.coreOn 2 7 = true ∧ live.coreOn 0 15 = true := by decide +kernel
theorem witness_ViolationsAreLoggedOnce :
    live.sends (.core 2 7) = true ∧ live.ref.rjHalf = none ∧ live.dev.domainOf live.ref (.core 2 7) = 4 ∧
    (∀ off ∈ [0x018, 0x038, 0xFFC], (pageRowOf (pageOf 0 .beam 0)).any (fun x => !mayWrite live 4 x.1 (pageOf 0 .beam 0) x.2 off) = true) ∧
    upAt live.ref live.dev 0 = true ∧ live.dev.reserved 0x1100140000 = true ∧ live.dev.inL7 0x1100140000 = false ∧ live.dev.rd (rLoc 2 .evc) EVC_DVLOG.PAGE.off = 0 ∧
    (dv fun d => d.wr (rLoc 2 .evc) EVC_DVLOG.PAGE.off 5).dev.rd (rLoc 2 .evc) EVC_DVLOG.PAGE.off ≠ 0 ∧
    isPage (0x1000000000 + 0x6C * 4096) = true ∧ pageRowOf 0x6C = none ∧ upAt live.ref live.dev 2 = true ∧
    SMap.get (fun _ => none) live.dev.latched (latchKey (pageOf 2 .evc 0) EVC_DVLOG.PAGE.off (.core 2 7)) = none := by decide +kernel
theorem witness_ViolationsAreLoggedOnce_calm : live.dev.calm := calm_of _ ⟨rfl, rfl, rfl, rfl, rfl⟩
theorem witness_PagesResetGateAndTakeAccesses :
    (live.dev.resetRefused live.ref .beam 0 0 = true ∧ live.dev.resetRefused live.ref .mec 0 1 = false ∧ named 0 .mec none = true ∧ upAt live.ref live.dev 0 = true ∧
      live.dev.armed (pageOf 0 .mec 0) = false) ∧
    (live.dev.g (hLoc .A .mec) PG_CTL.ENABLE = b2n true ∧ live.dev.g (hLoc .A .mec) PG_CTL.ENABLE ≠ b2n false) ∧
    (live.sends (.core 0 19) = true ∧ live.ref.rjHalf = none ∧ frozenAt live.ref 0 = false ∧ live.dev.domainOf live.ref (.core 0 19) = 1 ∧
      live.dev.domainOf live.ref (.core 1 19) = 2 ∧ live.sends (.core 1 19) = true ∧
      bit (live.dev.g (hLoc .A .seal) PG_LOCK.WRITERS) 1 = true ∧ bit (live.dev.g (hLoc .A .seal) PG_LOCK.WRITERS) 2 = false ∧ named 0 .seal none = true) ∧
    (let s := pop live
     s.sends (.core 0 19) = true ∧ s.soleR 0 ∧ s.ref.rjHalf = none ∧ s.plain 0 0 16 ∧ ∀ j, j < 16 → s.dev.inL7 j = false) := by
  unfold State.plain State.soleR State.sole; decide +kernel
theorem witness_PagesResetGateAndTakeAccesses_calm : (pop live).dev.calm := calm_of _ ⟨rfl, rfl, rfl, rfl, rfl⟩

/-! ### Ill-formed commands -/

theorem smoke_no_such_service_core : Instr.wf (.add 2 8 0 0) = false ∧ Instr.wf (.add 2 7 0 0) = true ∧ Instr.wf (.add 1 19 0 0) = true := by decide
theorem smoke_no_such_service_channel : Instr.wf (.dmaStart 2 8) = false ∧ Instr.wf (.dmaStart 2 7) = true ∧ Instr.wf (.dmaStart 1 15) = true := by decide
theorem smoke_short_drive_block : Instr.wf (.remount .A 0 [] []) = false := by decide
theorem smoke_empty_access : Instr.wf (.registerWrite (.core 0 0) 0 []) = false := by decide
theorem smoke_too_many_reports : Instr.wf (.stsReceive .A 0 .ok 0 0 0 0 (List.replicate 33 0)) = false := by decide
theorem smoke_too_long_response : Instr.wf (.mgtResponseReceive .A 0 .ok 0 0 0 0 0 0 (List.replicate 17 0)) = false := by decide
theorem smoke_short_page : Instr.wf (.pageArrive .A 0 []) = false := by decide
theorem smoke_long_command_answer : Instr.wf (.cmdDone (List.replicate 17 0)) = false := by decide
theorem smoke_too_many_slots : Instr.wf (.audioFrameReceive 0 (List.replicate 17 0)) = false := by decide

/-! ### Single steps -/

/-- The word that a core's register holds after a unit, and its carry. -/
def after (a : Answer) (r : Nat) : Option (Nat × Bool) :=
  match a with
  | .next t => some ((t.dev.kx 0 15).reg r, (t.dev.kx 0 15).st 2)
  | _ => none
/-- The example after Table 11.7: SAR of 0x8001 by 20 gives 0xFFFF with C = 1. -/
theorem test_sar_by_20 : after (exec (.sar 0 15 1 2) (kst [0x1400 + 0x40 + 8 + 2] { k := [(1, 0x8001), (2, 20)] })) 1 = some (0xFFFF, true) := by decide +kernel
/-- The same: ROR of 0x1234 by 20 gives 0x4123 with C = 0. -/
theorem test_ror_by_20 : after (exec (.ror 0 15 1 2) (kst [0x1400 + 0x40 + 8 + 3] { k := [(1, 0x1234), (2, 20)] })) 1 = some (0x4123, false) := by decide +kernel
/-- Example 11.1: the words 0x3800 0x3FC0 0x2058 are MOVI k1, #0xF018. -/
theorem test_movi_limm : after (exec (.movi 0 15 1 (some 0x3FC0) 0x18) (kst [0x3800, 0x3FC0, 0x2058])) 1 = some (0xF018, false) := by decide +kernel
/-- Example 11.1: 0x203F is MOVI k0, #−1, and 0x1C7E is ADDI k1, #−2: from 0xF01E it gives 0xF01C. -/
theorem test_movi_negative : after (exec (.movi 0 15 0 none 0x3F) (kst [0x203F])) 0 = some (0xFFFF, false) := by decide +kernel
theorem test_addi_negative : (after (exec (.addi 0 15 1 none 0x3E) (kst [0x1C7E] { k := [(1, 0xF01E)] })) 1).map Prod.fst = some 0xF01C := by decide +kernel
/-- Example 06.1: the entries of channels 3,000 and 1,300, and the stamp of step 3. -/
theorem test_harness_entries : enCol 0x000BB800 = 3000 ∧ enXform 0x000BB800 = 0 ∧ enCtx 0x000BB800 = 0 ∧ enCol 0x0009EB00 = 2539 := by decide
theorem test_stamp : stampAt 0x3A10000000 1000 1002 false 0xFF4C 0 0 = 0x3C0F4C0000 := by decide
/-- Example 06.1: row 1,002 of context 0, channel 3,000 with cell code 3, gives the event 0x00F0_3D30_0000_87B8. -/
theorem test_event_word :
    gatherCh live.dev .A 0 ⟨{ ctx := 0, row := 1002, kind := .new, image := [0, 0, 0, 0, 0, 1, 0, 0xFF4C0021], bind := 10239 * 2 ^ 16, bank := [(3000, 0x000BB800)] },
      List.replicate 3001 3, 1000, 0x3A10000000, fun _ => 0, []⟩ 3000 = .ev 0x00F03D30000087B8 := by decide +kernel
/-- Example 02.1: with CPR 65,536 the edge into count 4,096 stands at 0x1000_0000. -/
theorem test_edge_position : edgePos 65536 4096 = 0x10000000 := by decide
/-- Example 22.1: the entry 0x0000_A380 of source 444, the wrap of service timer 2 with its event enabled, sets line 5 of sc3. -/
theorem test_timer_line :
    bit (((dv fun d => { d with evcTab := [(2 * 512 + 444, 0xA380)] }.wr (tmrL 2 2) PG_EVT_EN.EN.off 1).dev.raise (tmrL 2 2) 0).kipOf 2 3) 5 = true := by
  decide +kernel
/-- An empty queue idles; a queue gives its commands in the order they came. -/
theorem test_idle : step live = .next live := rfl
theorem test_queue_order : (match step { live with pending := [.nop 0 0, .kxcRun 0 0] } with | .next t => t.pending | _ => []) = [.kxcRun 0 0] := by decide +kernel
/-- IEEE 802.3 Table 36-1: D0.0 is 100111 0100 at negative disparity and 011000 1011 at positive; D21.5 is 101010 1010 at both; D17.7 takes its
alternate form 100011 0111 at negative disparity. -/
theorem test_code_groups : codeData false 0x00 = (groupBits [1, 0, 0, 1, 1, 1, 0, 1, 0, 0], false) ∧ codeData true 0x00 = (groupBits [0, 1, 1, 0, 0, 0, 1, 0, 1, 1], true) ∧
    (codeData true 0xB5).1 = groupBits [1, 0, 1, 0, 1, 0, 1, 0, 1, 0] ∧ (codeData false 0xF1).1 = groupBits [1, 0, 0, 0, 1, 1, 0, 1, 1, 1] := by decide +kernel
/-- R167: after an idle set the running disparity is negative, whichever set was called for. -/
theorem test_idle_disparity : (idleSet true).2 = false ∧ (idleSet false).2 = false := by decide +kernel

end Sys2Proof.Tests
end

section
/-! SUPPORT. The page index and the registers of a page, the count of accepted writes (R486), commands to a page's header, and the checks of a block reset (R478). -/
namespace Sys2Proof.Machine

open Sys2Proof

/-! ### The page index -/

/-- What placing a page says of its row of Table 25.4 and of its number in that row. -/
theorem pageRowOf_some {p i : Nat} {row : PageRow} (h : pageRowOf p = some (row, i)) :
    row ∈ (if p / 4096 < 2 then pageRowsHalf else pageRowsOther) ∧ (if row.half then p / 4096 < 2 else p / 4096 = row.region) ∧
      row.base ≤ p % 4096 ∧ p % 4096 < row.base + row.count ∧ i = row.first + (p % 4096 - row.base) := by
  unfold pageRowOf at h
  dsimp only at h
  split at h
  · next r hr =>
    have hp := List.find?_some hr
    have hm := List.mem_of_find?_eq_some hr
    obtain ⟨rfl, rfl⟩ : r = row ∧ r.first + (p % 4096 - r.base) = i := by simpa using h
    simp only [Bool.and_eq_true, decide_eq_true_eq] at hp
    obtain ⟨⟨hreg, hlo⟩, hhi⟩ := hp
    refine ⟨hm, ?_, hlo, hhi, rfl⟩
    cases hh : r.half <;> simpa [hh] using hreg
  · cases h

/-- A row of Table 25.4. -/
theorem pageRowOf_mem {p i : Nat} {row : PageRow} (h : pageRowOf p = some (row, i)) : row ∈ pageRowsHalf ++ pageRowsOther := by
  have hm := (pageRowOf_some h).1
  split at hm
  · exact List.mem_append_left _ hm
  · exact List.mem_append_right _ hm

/-- No row of Table 25.4 lies outside the first 128 pages of the first four regions. -/
theorem pageRowOf_bounds {p i : Nat} {row : PageRow} (h : pageRowOf p = some (row, i)) : p / 4096 < 4 ∧ p % 4096 < 128 := by
  have hrows : ∀ r ∈ pageRowsHalf ++ pageRowsOther, r.base + r.count ≤ 128 ∧ r.region < 4 := by decide
  obtain ⟨hb, hr⟩ := hrows row (pageRowOf_mem h)
  obtain ⟨_, hreg, _, hhi, _⟩ := pageRowOf_some h
  constructor
  · split at hreg <;> omega
  · omega

/-- A page is the page of its block and number. -/
theorem pageOf_of_pageRowOf {p i : Nat} {row : PageRow} (h : pageRowOf p = some (row, i)) : pageOf (p / 4096) row.block i = p := by
  have hall : ∀ reg < 4, ∀ ix < 128, ∀ x ∈ pageRowOf (reg * 4096 + ix), pageOf reg x.1.block x.2 = reg * 4096 + ix := by decide +kernel
  obtain ⟨hreg, hix⟩ := pageRowOf_bounds h
  have hp : p / 4096 * 4096 + p % 4096 = p := by omega
  simpa [hp, h] using hall _ hreg _ hix

/-- The referee's region holds one page. -/
theorem page_lt_of_pageRowOf {p i : Nat} {row : PageRow} (h : pageRowOf p = some (row, i)) : p < 0x3001 := by
  have hall : ∀ ix < 128, (pageRowOf (3 * 4096 + ix)).isSome = true → ix = 0 := by decide
  obtain ⟨hreg, hix⟩ := pageRowOf_bounds h
  by_cases h3 : p / 4096 = 3
  · have hp : 3 * 4096 + p % 4096 = p := by omega
    have := hall _ hix (by rw [hp, h]; rfl)
    omega
  · omega

theorem pageAt_div (rg : Fin 4) (pg : BitVec 12) : pageAt rg pg / 4096 = rg.val := by
  have := pg.isLt
  unfold pageAt
  omega

/-- A register and its page. -/
theorem locOf_add_div (p : Nat) {off : Nat} (h : off < 0x100000) : (locOf p + off) / 0x100000 = p := by
  unfold locOf Loc
  omega
theorem locOf_add_mod (p : Nat) {off : Nat} (h : off < 0x100000) : (locOf p + off) % 0x100000 = off := by
  unfold locOf Loc
  omega

/-! ### The count of accepted writes (R486) -/

theorem Dev.seq_locOf (d : Dev) (p : Nat) : d.seq (locOf p) = d.p (locOf p) PG_SEQ.WRITES (d.g (locOf p) PG_SEQ.WRITES + 1) := by
  have : (locOf p / 0x100000 * 0x100000 : Nat) = locOf p := by unfold locOf Loc; omega
  unfold Dev.seq
  rw [this]
  rfl

theorem Dev.onlyRegs_seq (d : Dev) (p : Nat) : d.onlyRegs [locOf p + 0x03C] (d.seq (locOf p)) := by
  rw [Dev.seq_locOf]
  exact Dev.onlyRegs_p d _ _ _ (.inl (List.mem_singleton.2 rfl))

/-- Counting a write leaves every register at another offset alone. -/
theorem Dev.rd_seq (d : Dev) (p : Nat) {l : Loc} {o : Nat} (h : (l + o) % 0x100000 ≠ 0x03C) : (d.seq (locOf p)).rd l o = d.rd l o := by
  rw [Dev.seq_locOf]
  refine Dev.rd_p_ne d _ ?_
  intro he
  exact h (by rw [he]; exact locOf_add_mod p (by decide))

theorem Dev.g_seq (d : Dev) (p : Nat) {l : Loc} {f : Fld} (h : (l + f.off) % 0x100000 ≠ 0x03C) : (d.seq (locOf p)).g l f = d.g l f := by
  unfold Dev.g
  rw [Dev.rd_seq d p h]

@[simp] theorem Dev.seq_shadow (d : Dev) (l : Loc) : (d.seq l).shadow = d.shadow := by
  rw [Dev.seq, Dev.wrap_eq, Dev.p_shadow]
@[simp] theorem Dev.seq_views (d : Dev) (l : Loc) : (d.seq l).views = d.views := by
  rw [Dev.seq, Dev.wrap_eq, Dev.p_views]
@[simp] theorem Dev.seq_latched (d : Dev) (l : Loc) : (d.seq l).latched = d.latched := by
  rw [Dev.seq, Dev.wrap_eq, Dev.p_latched]
@[simp] theorem Dev.rdS_seq (d : Dev) (l l' : Loc) (o : Nat) : (d.seq l).rdS l' o = d.rdS l' o := by simp [Dev.rdS]

/-- Counting a write leaves the other header registers of every page alone. -/
theorem Dev.g_seq_locOf (d : Dev) (p q : Nat) {f : Fld} (hf : f.off < 0x100000) (h : f.off ≠ 0x03C) : (d.seq (locOf p)).g (locOf q) f = d.g (locOf q) f :=
  Dev.g_seq d p (by rw [locOf_add_mod q hf]; exact h)
@[simp] theorem Dev.clocked_seq (d : Dev) (p q : Nat) : (d.seq (locOf p)).clocked (locOf q) = d.clocked (locOf q) := by
  unfold Dev.clocked Dev.on
  rw [Dev.g_seq_locOf d p q (by decide) (by decide)]
@[simp] theorem Dev.armed_seq (d : Dev) (p q : Nat) : (d.seq (locOf p)).armed q = d.armed q := by
  unfold Dev.armed Dev.on
  rw [Dev.g_seq_locOf d p q (by decide) (by decide)]
@[simp] theorem Dev.grp_seq (d : Dev) (p q : Nat) : (d.seq (locOf p)).grp q = d.grp q := Dev.g_seq_locOf d p q (by decide) (by decide)

/-! ### Commands to a page's header -/

/-- A command to the header of a page that is there, which no other half takes over: its write is counted, then acted on (R486, R221). -/
theorem onHeader_alone {rg : Fin 4} {pg : BitVec 12} {f : Nat → State → Dev → Dev} {s : State} (hrow : (pageRowOf (pageAt rg pg)).isSome = true)
    (hup : upAt s.ref s.dev rg = true) (hs : s.soleR rg) :
    onHeader rg pg f s = .next { s with dev := f (pageAt rg pg) s (s.dev.seq (locOf (pageAt rg pg))) } := by
  have hone : onHeaderOf f (pageAt rg pg) s = .next { s with dev := f (pageAt rg pg) s (s.dev.seq (locOf (pageAt rg pg))) } := by
    have hn : (pageRowOf (pageAt rg pg)).isNone = false := by simpa [← Option.isSome_iff_ne_none] using hrow
    simp [onHeaderOf, onDev, pageAt_div, hup, hn]
  unfold onHeader
  split
  · next hlt =>
    have hn : (Half.ofRegion rg.val).n = rg.val := by
      have h01 : rg.val = 0 ∨ rg.val = 1 := by omega
      rcases h01 with h | h <;> rw [h] <;> rfl
    rw [forwarded_alone (hs hlt), hn]
    exact hone
  · exact hone

/-! ### R478: a block reset that is refused -/

/-- The states of contexts, ports and heads are no counters of writes. -/
theorem Dev.resetRefused_seq (d : Dev) (p : Nat) (r : Referee) (b : Block) (reg i : Nat) :
    (d.seq (locOf p)).resetRefused r b reg i = d.resetRefused r b reg i := by
  have hrow : ∀ c ∈ List.range 32, (d.seq (locOf p)).cst (Half.ofRegion reg) i c = d.cst (Half.ofRegion reg) i c := by
    intro c hc
    have hc32 : c < 32 := List.mem_range.1 hc
    unfold Dev.cst
    rw [Dev.g_seq]
    unfold cxL ctxLocOf ROW_CSTAT.STATE Loc
    dsimp only
    omega
  have hrlk : (d.seq (locOf p)).pst (Half.ofRegion reg) i = d.pst (Half.ofRegion reg) i := Dev.g_seq_locOf d p _ (by decide) (by decide)
  have hdhd : (d.seq (locOf p)).on (dhdL i) DHD_STAT.RUN = d.on (dhdL i) DHD_STAT.RUN := by
    unfold Dev.on
    rw [show dhdL i = locOf (pageOf 2 .dhd i) from rfl, Dev.g_seq_locOf d p _ (by decide) (by decide)]
  cases b
  case row =>
    simp only [Dev.resetRefused]
    rw [Bool.eq_iff_iff, List.any_eq_true, List.any_eq_true]
    exact exists_congr fun c => and_congr_right fun hc => by rw [hrow c hc]
  case rlk => simp only [Dev.resetRefused, hrlk]
  case dhd => simp only [Dev.resetRefused, hdhd]
  all_goals simp only [Dev.resetRefused]

/-- Every block's CFG_ERR bit lies in a word. -/
theorem cfgErrBit_lt {b : Block} {n : Nat} (h : cfgErrBit b = some n) : n < 32 := by
  cases b <;> cases h <;> decide

/-- CFG_ERR changes event delivery only. -/
theorem Dev.cfgErr_frame (d : Dev) (p : Nat) (ks : List Nat) : d.onlyRegs ks (d.cfgErr p) := by
  unfold Dev.cfgErr
  split
  · split
    · exact Dev.raise_frame d (locOf_page p) _ ks
    · exact Dev.onlyRegs_refl ks d
  · exact Dev.onlyRegs_refl ks d

theorem Dev.cfgErr_raised (d : Dev) {p i b : Nat} {row : PageRow} (hrow : pageRowOf p = some (row, i)) (hb : cfgErrBit row.block = some b)
    (hc : d.clocked (locOf p) = true) : (d.cfgErr p).raised (locOf p) b := by
  have he : d.cfgErr p = d.raise (locOf p) b := by simp [Dev.cfgErr, hrow, hb]
  rw [he]
  exact Dev.raise_raised d (locOf_page p) (cfgErrBit_lt hb) hc

end Sys2Proof.Machine
end

section
/-! SUPPORT. What CANCEL and the two halves of a block reset (its registers, the unit behind them) change, and the reset values they leave. -/
namespace Sys2Proof.Machine

open Sys2Proof

/-! ### R491: an armed request is withdrawn -/

/-- The registers in which CANCEL shows on a page that is in no group: its PG_COMMIT, and HRN_STAT where the harness unit validates (R147). -/
def cancelKeys (p : Nat) : List Nat :=
  (locOf p + PG_COMMIT.PENDING.off) :: (if p % 4096 = 0x009 ∧ p / 4096 < 2 then [locOf p + HRN_STAT.VALIDATING.off] else [])

theorem Dev.cancel_frame (d : Dev) {p : Nat} (h : d.grp p = 0) : d.onlyRegs (cancelKeys p) (d.cancel p) := by
  have hps : d.armedWith p = if d.armed p then [p] else [] := by simp [Dev.armedWith, Dev.members, h, List.filter_cons]
  unfold Dev.cancel cancelKeys
  rw [hps]
  by_cases ha : d.armed p = true
  · rw [if_pos ha, List.foldl_cons, List.foldl_nil]
    dsimp only
    split
    · exact Dev.onlyRegs_trans (Dev.onlyRegs_p d _ _ _ (.inl (by simp))) (Dev.onlyRegs_p _ _ _ _ (.inl (by simp)))
    · exact Dev.onlyRegs_p d _ _ _ (.inl (by simp))
  · rw [if_neg ha]
    exact Dev.onlyRegs_refl _ _

/-- A register that a block reset keeps is none in which CANCEL shows. -/
theorem kept_notMem_cancelKeys {p i off : Nat} {row : PageRow} (hrow : pageRowOf p = some (row, i)) (hk : keptAtReset row.block off = true) :
    locOf p + off ∉ cancelKeys p := by
  have hcommit : off ≠ 0x010 := by
    rintro rfl
    revert hk
    cases row.block <;> decide
  have hharness : p % 4096 = 0x009 → p / 4096 < 2 → off ≠ 0x808 := by
    rintro hix hreg rfl
    have hhrn : row.block = .hrn := by
      have hall : ∀ reg < 2, ∀ x ∈ pageRowOf (reg * 4096 + 9), x.1.block = .hrn := by decide
      have hp : p / 4096 * 4096 + 9 = p := by omega
      simpa [hp, hrow] using hall _ hreg
    rw [hhrn] at hk
    exact absurd hk (by decide)
  unfold cancelKeys
  split
  · next hp => simp [PG_COMMIT.PENDING, HRN_STAT.VALIDATING, hcommit, hharness hp.1 hp.2]
  · simp [PG_COMMIT.PENDING, hcommit]

/-! ### Registers by their location -/

theorem Dev.get_p (d : Dev) (l : Loc) (f : Fld) (v k : Nat) :
    SMap.get regReset (d.p l f v).regs k = if k = l + f.off then fput f v (d.rd l f.off) else SMap.get regReset d.regs k := SMap.get_set _ _ _ _
theorem Dev.get_p_ne (d : Dev) {l : Loc} {f : Fld} (v : Nat) {k : Nat} (h : k ≠ l + f.off) :
    SMap.get regReset (d.p l f v).regs k = SMap.get regReset d.regs k := SMap.get_set_ne _ _ h

/-! ### R478: what a block reset leaves -/

/-- A block reset leaves the registers and shadow registers of every other page. -/
theorem Dev.regsReset_other (d : Dev) (b : Block) {p k : Nat} (hk : k / 0x100000 ≠ p) :
    SMap.get regReset (d.regsReset b p).regs k = SMap.get regReset d.regs k ∧
      SMap.get regReset (d.regsReset b p).shadow k = SMap.get regReset d.shadow k := by
  have hne : k ≠ locOf p + 0x008 := by
    rintro rfl
    exact hk (locOf_add_div p (by decide))
  unfold Dev.regsReset
  constructor
  · rw [Dev.get_p_ne _ _ hne, SMap.get_erase]
    simp [hk]
  · rw [Dev.p_shadow, SMap.get_erase]
    simp [hk]

/-- A register of the page itself but PG_STAT is kept (Table 24.3) or returns to its reset value. -/
theorem Dev.regsReset_rd (d : Dev) (b : Block) (p : Nat) {off : Nat} (h : off < 0x1000) (h8 : off ≠ 0x008) :
    (d.regsReset b p).rd (locOf p) off = if keptAtReset b off then d.rd (locOf p) off else regReset (locOf p + off) := by
  have hdiv := locOf_add_div p (show off < 0x100000 by omega)
  have hmod := locOf_add_mod p (show off < 0x100000 by omega)
  have hmod' : (locOf p + off) % 0x1000 = off := by unfold locOf Loc; omega
  unfold Dev.regsReset
  dsimp only
  rw [Dev.rd_p_ne _ _ (by simpa [PG_STAT.BROWNOUT_SEEN] using h8)]
  unfold Dev.rd
  dsimp only
  rw [SMap.get_erase, hdiv, hmod, hmod']
  cases keptAtReset b off <;> simp [h]

theorem Dev.regsReset_brownout (d : Dev) (b : Block) (p : Nat) :
    (d.regsReset b p).g (locOf p) PG_STAT.BROWNOUT_SEEN = d.g (locOf p) PG_STAT.BROWNOUT_SEEN := by
  unfold Dev.regsReset
  dsimp only
  rw [Dev.g_p_same _ _ _ _ (by decide)]
  exact Nat.mod_eq_of_lt (fget_lt _ _)

theorem masterId_lt (m : Master) : m.id < 256 := by
  cases m with
  | loupe h k => cases h <;> simp only [Master.id, Half.n] <;> omega
  | host h _ => cases h <;> simp [Master.id, Half.n]
  | mailbox h => cases h <;> simp [Master.id, Half.n]
  | _ => simp only [Master.id]; omega

/-- A block reset returns every master's VIEW of the page to the active set. -/
theorem Dev.regsReset_viewOf (d : Dev) (b : Block) (p : Nat) (m : Master) : (d.regsReset b p).viewOf p m = false := by
  have hp : perMaster p m / 256 = p := by
    have := masterId_lt m
    unfold perMaster
    omega
  unfold Dev.viewOf Dev.regsReset
  rw [Dev.p_views, SMap.get_erase]
  simp [hp]

theorem Dev.kxcReset_shadow (d : Dev) (r c : Nat) : (d.kxcReset r c).shadow = d.shadow := by
  unfold Dev.kxcReset
  rw [Dev.p_shadow]
  rfl
theorem Dev.unitReset_shadow (d : Dev) (b : Block) (reg i : Nat) : (d.unitReset b reg i).shadow = d.shadow := by
  unfold Dev.unitReset
  cases b
  case kxc => exact Dev.kxcReset_shadow d reg i
  case beam | row | scb | prz => dsimp only; split <;> rfl
  all_goals rfl
theorem Dev.kxcReset_views (d : Dev) (r c : Nat) : (d.kxcReset r c).views = d.views := by
  unfold Dev.kxcReset
  rw [Dev.p_views]
  rfl
theorem Dev.unitReset_views (d : Dev) (b : Block) (reg i : Nat) : (d.unitReset b reg i).views = d.views := by
  unfold Dev.unitReset
  cases b
  case kxc => exact Dev.kxcReset_views d reg i
  case beam | row | scb | prz => dsimp only; split <;> rfl
  all_goals rfl

/-- CRESET writes KXC_STAT of its core's page. -/
theorem Dev.kxcReset_reg (d : Dev) (r c k : Nat) : SMap.get regReset (d.kxcReset r c).regs k =
    if k = kxcL r c + KXC_STAT.STATE.off then fput KXC_STAT.STATE ksReset (d.rd (kxcL r c) KXC_STAT.STATE.off) else SMap.get regReset d.regs k := by
  unfold Dev.kxcReset
  rw [Dev.get_p]
  rfl
/-- Of what a block holds behind its registers only a core's state shows in a register. -/
theorem Dev.unitReset_regs (d : Dev) {b : Block} (hb : b ≠ .kxc) (reg i : Nat) : (d.unitReset b reg i).regs = d.regs := by
  unfold Dev.unitReset
  cases b
  case kxc => exact absurd rfl hb
  case beam | row | scb | prz => dsimp only; split <;> rfl
  all_goals rfl

/-- The reset of a unit writes no register but KXC_STAT, which stands at RESET already once the registers are reset. -/
theorem Dev.unitReset_reg (d : Dev) {p i : Nat} {row : PageRow} (hrow : pageRowOf p = some (row, i))
    (hx : row.block = .kxc → d.rd (locOf p) KXC_STAT.STATE.off = 0) (k : Nat) :
    SMap.get regReset (d.unitReset row.block (p / 4096) i).regs k = SMap.get regReset d.regs k := by
  by_cases hb : row.block = .kxc
  · have hl : kxcL (p / 4096) i = locOf p := by
      have := pageOf_of_pageRowOf hrow
      rw [hb] at this
      unfold kxcL rLoc
      rw [this]
    have h0 : fput KXC_STAT.STATE ksReset 0 = 0 := by decide
    rw [hb]
    unfold Dev.unitReset
    dsimp only
    rw [Dev.kxcReset_reg, hl, hx hb, h0]
    split
    · next hk => rw [hk]; exact (hx hb).symm
    · rfl
  · rw [Dev.unitReset_regs d hb]

/-- The reset value of a register by its page, its bank and its offset. -/
theorem regReset_of {k p i off : Nat} {row : PageRow} (hrow : pageRowOf p = some (row, i)) (hdiv : k / 0x100000 = p) (hbank : k % 0x100000 / 0x1000 = 0)
    (hoff : k % 0x1000 = off) :
    (off < 0x40 → regReset k = BitVec.ofNat 32 (hdrReset row (p / 4096) i off)) ∧
      (∀ x, 0x40 ≤ off → row.block ≠ .dhd → rowAt row.regs off = some x → regReset k = BitVec.ofNat 32 x.reset) := by
  unfold regReset
  simp only [hdiv, hbank, hoff, hrow]
  constructor
  · intro h
    rw [if_pos ⟨trivial, h⟩]
  · intro x h hb hx
    rw [if_neg (by omega), if_pos trivial, hx]
    simp [hb]

/-- A core stands at RESET after reset, and no request is armed. -/
theorem regReset_kxcStat {p i : Nat} {row : PageRow} (hrow : pageRowOf p = some (row, i)) (hb : row.block = .kxc) : regReset (locOf p + 0x804) = 0 := by
  have hregs : ∀ r ∈ pageRowsHalf ++ pageRowsOther, r.block = .kxc → r.regs = regsKxc := by decide
  have hat : rowAt regsKxc 0x804 = some ⟨0x804, 1, 0x4, 0x0, 0x0, 0x0, 0x0, 0xF0007, 0x0, 0x0⟩ := by decide
  have hbank : (locOf p + 0x804) % 0x100000 / 0x1000 = 0 := by rw [locOf_add_mod p (by decide)]
  have hoff : (locOf p + 0x804) % 0x1000 = 0x804 := by unfold locOf Loc; omega
  exact (regReset_of hrow (locOf_add_div p (by decide)) hbank hoff).2 _ (by decide) (by simp [hb])
    (by rw [hregs row (pageRowOf_mem hrow) hb, hat])

theorem regReset_commit {p i : Nat} {row : PageRow} (hrow : pageRowOf p = some (row, i)) : regReset (locOf p + 0x010) = 0 := by
  have hbank : (locOf p + 0x010) % 0x100000 / 0x1000 = 0 := by rw [locOf_add_mod p (by decide)]
  have hoff : (locOf p + 0x010) % 0x1000 = 0x010 := by unfold locOf Loc; omega
  exact (regReset_of hrow (locOf_add_div p (by decide)) hbank hoff).1 (by decide)

/-- The lines of a page follow its events: registers change in event delivery only. -/
theorem Dev.withLines_after (d : Dev) (p : Nat) (f : Dev → Dev) : (f d).onlyRegs [] (d.withLines p f) :=
  Dev.withLines_frame (f d) p id [] (Dev.onlyRegs_refl [] (f d))

theorem Dev.onlyRegs_shadow {ks : List Nat} {d e : Dev} (h : d.onlyRegs ks e) : e.shadow = d.shadow := by
  simpa [Dev.quiet] using congrArg Dev.shadow h.1
theorem Dev.onlyRegs_views {ks : List Nat} {d e : Dev} (h : d.onlyRegs ks e) : e.views = d.views := by
  simpa [Dev.quiet] using congrArg Dev.views h.1

end Sys2Proof.Machine
end

section
/-! Block resets and clock gates as commands (R478, R481, R491). -/
namespace Sys2Proof.Machine

open Sys2Proof

/-! ### R478, R491: a block reset that is carried out -/

/-- The devices after the armed request of a page is withdrawn. -/
def Dev.withdrawn (d : Dev) (p : Nat) : Dev := if d.armed p then d.cancel p else d
/-- The devices after the registers of a page and the unit behind them are reset. -/
def Dev.cleared (d : Dev) (row : PageRow) (p i : Nat) : Dev := (d.regsReset row.block p).unitReset row.block (p / 4096) i

theorem Dev.blockReset_refused (d : Dev) {r : Referee} {p i : Nat} {row : PageRow} (hrow : pageRowOf p = some (row, i))
    (h : d.resetRefused r row.block (p / 4096) i = true) : d.blockReset r p = d.cfgErr p := by
  simp [Dev.blockReset, hrow, h]
theorem Dev.blockReset_done (d : Dev) {r : Referee} {p i : Nat} {row : PageRow} (hrow : pageRowOf p = some (row, i))
    (h : d.resetRefused r row.block (p / 4096) i = false) : d.blockReset r p = (d.withdrawn p).withLines p (fun x => x.cleared row p i) := by
  simp [Dev.blockReset, hrow, h, Dev.withdrawn, Dev.cleared]

theorem Dev.withdrawn_frame (d : Dev) {p : Nat} (h : d.grp p = 0 ∨ d.armed p = false) : d.onlyRegs (cancelKeys p) (d.withdrawn p) := by
  unfold Dev.withdrawn
  split
  · next ha => exact Dev.cancel_frame d (h.resolve_right (by simp [ha]))
  · exact Dev.onlyRegs_refl _ d

section Cleared
variable (d : Dev) {p i : Nat} {row : PageRow} (hrow : pageRowOf p = some (row, i))
include hrow

/-- The reset of the unit leaves every register as the reset of the registers left it. -/
theorem Dev.cleared_reg (k : Nat) : SMap.get regReset (d.cleared row p i).regs k = SMap.get regReset (d.regsReset row.block p).regs k := by
  refine Dev.unitReset_reg _ hrow (fun hb => ?_) k
  have hkept : keptAtReset .kxc 0x804 = false := by decide
  rw [show KXC_STAT.STATE.off = 0x804 from rfl, Dev.regsReset_rd d _ p (by decide) (by decide), hb, hkept, if_neg Bool.false_ne_true]
  exact regReset_kxcStat hrow hb

theorem Dev.cleared_rd {off : Nat} (h : off < 0x1000) (h8 : off ≠ 0x008) :
    (d.cleared row p i).rd (locOf p) off = if keptAtReset row.block off then d.rd (locOf p) off else regReset (locOf p + off) := by
  rw [← Dev.regsReset_rd d _ p h h8]
  unfold Dev.rd
  rw [Dev.cleared_reg d hrow]

theorem Dev.cleared_brownout : (d.cleared row p i).g (locOf p) PG_STAT.BROWNOUT_SEEN = d.g (locOf p) PG_STAT.BROWNOUT_SEEN := by
  rw [← Dev.regsReset_brownout d row.block p]
  exact congrArg (fget _) (Dev.cleared_reg d hrow _)

theorem Dev.cleared_other {k : Nat} (hk : k / 0x100000 ≠ p) : SMap.get regReset (d.cleared row p i).regs k = SMap.get regReset d.regs k ∧
    SMap.get regReset (d.cleared row p i).shadow k = SMap.get regReset d.shadow k := by
  obtain ⟨hregs, hshadow⟩ := Dev.regsReset_other d row.block hk
  refine ⟨(Dev.cleared_reg d hrow k).trans hregs, ?_⟩
  unfold Dev.cleared
  rw [Dev.unitReset_shadow, hshadow]
omit hrow in
theorem Dev.cleared_viewOf (m : Master) : (d.cleared row p i).viewOf p m = false := by
  have := Dev.regsReset_viewOf d row.block p m
  unfold Dev.viewOf at this ⊢
  unfold Dev.cleared
  rw [Dev.unitReset_views, this]
end Cleared

theorem evReg_header (p : Nat) {off : Nat} (h : off < 0xBF0) (h14 : off ≠ 0x014) (h1C : off ≠ 0x01C) : evReg (locOf p + off) = false := by
  have hmod := locOf_add_mod p (show off < 0x100000 by omega)
  simp only [evReg, hmod, Bool.or_eq_false_iff, Bool.and_eq_false_iff, decide_eq_false_iff_not]
  omega

/-- A register of the page itself is not another page's. -/
theorem notMem_cancelKeys_of_other {p k : Nat} (hk : k / 0x100000 ≠ p) : k ∉ (locOf p + 0x03C) :: cancelKeys p := by
  have hne : ∀ o < 0x100000, k ≠ locOf p + o := by
    rintro o ho rfl
    exact hk (locOf_add_div p ho)
  unfold cancelKeys
  split <;> simp [hne, PG_COMMIT.PENDING, HRN_STAT.VALIDATING]

/-- What a block reset leaves of its page and of the others (R478, Table 24.3), over what the write's count and CANCEL leave. -/
theorem Dev.blockReset_effect (d : Dev) {e : Dev} {r : Referee} {p i : Nat} {row : PageRow} (hrow : pageRowOf p = some (row, i))
    (he : d.onlyRegs [locOf p + 0x03C] e) (hno : e.resetRefused r row.block (p / 4096) i = false) (hg : e.grp p = 0 ∨ e.armed p = false) :
    (∀ k, k / 0x100000 ≠ p → evReg k = false → SMap.get regReset (e.blockReset r p).regs k = SMap.get regReset d.regs k ∧
      SMap.get regReset (e.blockReset r p).shadow k = SMap.get regReset d.shadow k) ∧
    (∀ off, off < 0x1000 → off ≠ 0x008 → evReg (locOf p + off) = false →
      (e.blockReset r p).rd (locOf p) off = if keptAtReset row.block off then d.rd (locOf p) off else regReset (locOf p + off)) ∧
    (e.blockReset r p).g (locOf p) PG_STAT.BROWNOUT_SEEN = d.g (locOf p) PG_STAT.BROWNOUT_SEEN ∧ ∀ m, (e.blockReset r p).viewOf p m = false := by
  have hw : d.onlyRegs ((locOf p + 0x03C) :: cancelKeys p) (e.withdrawn p) :=
    Dev.onlyRegs_trans (Dev.onlyRegs_mono (by simp) he) (Dev.onlyRegs_mono (fun k hk => List.mem_cons_of_mem _ hk) (Dev.withdrawn_frame e hg))
  have ht := Dev.withLines_after (e.withdrawn p) p (fun x => x.cleared row p i)
  rw [Dev.blockReset_done e hrow hno]
  generalize e.withdrawn p = w at hw ht ⊢
  generalize Dev.withLines w p _ = t at ht ⊢
  refine ⟨fun k hk hev => ?_, fun off h h8 hev => ?_, ?_, fun m => ?_⟩
  · obtain ⟨hregs, hshadow⟩ := Dev.cleared_other w hrow hk
    rw [ht.2 k (by simp) hev, hregs, hw.2 k (notMem_cancelKeys_of_other hk) hev, Dev.onlyRegs_shadow ht, hshadow, Dev.onlyRegs_shadow hw]
    exact ⟨rfl, rfl⟩
  · unfold Dev.rd
    rw [ht.2 _ (by simp) hev]
    refine (Dev.cleared_rd w hrow h h8).trans ?_
    split
    · next hkept =>
      have h3C : off ≠ 0x03C := by
        rintro rfl
        revert hkept
        cases row.block <;> decide
      refine hw.2 _ ?_ hev
      simp [h3C, kept_notMem_cancelKeys hrow hkept]
    · rfl
  · have hev := evReg_header p (off := PG_STAT.BROWNOUT_SEEN.off) (by decide) (by decide) (by decide)
    have hseen : PG_STAT.BROWNOUT_SEEN.off ≠ 0x03C ∧ PG_STAT.BROWNOUT_SEEN.off ≠ PG_COMMIT.PENDING.off ∧
      PG_STAT.BROWNOUT_SEEN.off ≠ HRN_STAT.VALIDATING.off := by decide
    unfold Dev.g Dev.rd
    rw [ht.2 _ (by simp) hev]
    refine (Dev.cleared_brownout w hrow).trans (congrArg (fget _) (hw.2 _ ?_ hev))
    unfold cancelKeys
    split <;> simp [hseen]
  · have := Dev.cleared_viewOf (row := row) (i := i) w (p := p) m
    unfold Dev.viewOf at this ⊢
    rw [Dev.onlyRegs_views ht, this]

/-- BLOCK_RESET where R478 refuses it: the page's write is counted and CFG_ERR stands. -/
theorem exec_blockReset_refused {s : State} {rg : Fin 4} {pg : BitVec 12} {row : PageRow} {i : Nat} (hrow : pageRowOf (pageAt rg pg) = some (row, i))
    (hup : upAt s.ref s.dev rg = true) (hs : s.soleR rg) (h : s.dev.resetRefused s.ref row.block rg i = true) :
    ∃ t, exec (.blockReset rg pg) s = .next t ∧ (t.ref = s.ref ∧ t.mem = s.mem ∧ t.pending = s.pending ∧
        s.dev.onlyRegs [locOf (pageAt rg pg) + 0x03C] t.dev) ∧
      ∀ b, cfgErrBit row.block = some b → s.dev.clocked (locOf (pageAt rg pg)) = true → t.dev.raised (locOf (pageAt rg pg)) b := by
  refine ⟨_, onHeader_alone (by simp [hrow]) hup hs, ⟨rfl, rfl, rfl, ?_⟩, fun b hb hc => ?_⟩
  · dsimp only
    rw [Dev.blockReset_refused _ hrow (by rw [Dev.resetRefused_seq, pageAt_div, h])]
    exact Dev.onlyRegs_trans (Dev.onlyRegs_seq s.dev _) (Dev.cfgErr_frame _ _ _)
  · dsimp only
    rw [Dev.blockReset_refused _ hrow (by rw [Dev.resetRefused_seq, pageAt_div, h])]
    exact Dev.cfgErr_raised _ hrow hb (by rw [Dev.clocked_seq, hc])

/-- BLOCK_RESET where R478 does not refuse it. -/
theorem exec_blockReset_done {s : State} {rg : Fin 4} {pg : BitVec 12} {row : PageRow} {i : Nat} (hrow : pageRowOf (pageAt rg pg) = some (row, i))
    (hup : upAt s.ref s.dev rg = true) (hs : s.soleR rg) (h : s.dev.resetRefused s.ref row.block rg i = false)
    (hg : s.dev.grp (pageAt rg pg) = 0 ∨ s.dev.armed (pageAt rg pg) = false) :
    let p := pageAt rg pg
    ∃ t, exec (.blockReset rg pg) s = .next t ∧ t.ref = s.ref ∧ t.mem = s.mem ∧ t.dev.armed p = false ∧
      (∀ k, k / 0x100000 ≠ p → evReg k = false → SMap.get regReset t.dev.regs k = SMap.get regReset s.dev.regs k ∧
        SMap.get regReset t.dev.shadow k = SMap.get regReset s.dev.shadow k) ∧
      (∀ off, off < 0x1000 → off ≠ 0x008 → evReg (locOf p + off) = false →
        t.dev.rd (locOf p) off = if keptAtReset row.block off then s.dev.rd (locOf p) off else regReset (locOf p + off)) ∧
      t.dev.g (locOf p) PG_STAT.BROWNOUT_SEEN = s.dev.g (locOf p) PG_STAT.BROWNOUT_SEEN ∧ ∀ m, t.dev.viewOf p m = false := by
  intro p
  obtain ⟨hother, hown, hseen, hview⟩ := Dev.blockReset_effect s.dev (r := s.ref) hrow (Dev.onlyRegs_seq s.dev _)
    (by rw [Dev.resetRefused_seq, pageAt_div, h]) (by rwa [Dev.grp_seq, Dev.armed_seq])
  refine ⟨_, onHeader_alone (by simp [hrow]) hup hs, rfl, rfl, ?_, hother, hown, hseen, hview⟩
  have hcommit := hown 0x010 (by decide) (by decide) (evReg_header _ (by decide) (by decide) (by decide))
  have hkept : keptAtReset row.block 0x010 = false := by cases row.block <;> decide
  rw [hkept, if_neg Bool.false_ne_true, regReset_commit hrow] at hcommit
  unfold Dev.armed Dev.on Dev.g
  dsimp only
  rw [show PG_COMMIT.PENDING.off = 0x010 from rfl, hcommit]
  decide

/-! ### R481: the clock gate -/

/-- The blocks whose clock always runs. -/
theorem Dev.clockGate_fixed (d : Dev) (r : Referee) {p i : Nat} {row : PageRow} (hrow : pageRowOf p = some (row, i)) (on : Bool)
    (hb : row.block ∈ [Block.ref, .cfg, .sec, .pwr, .evc]) : d.clockGate r p on = d := by
  simp only [List.mem_cons, List.not_mem_nil, or_false] at hb
  unfold Dev.clockGate
  rw [hrow]
  rcases hb with hb | hb | hb | hb | hb <;> simp [hb]

/-- On a page without an armed request the gate writes ENABLE alone; the Loupe's pages act on it besides (R252). -/
theorem Dev.clockGate_plain (d : Dev) (r : Referee) {p i : Nat} {row : PageRow} (hrow : pageRowOf p = some (row, i)) (on : Bool)
    (hb : row.block ∉ [Block.ref, .cfg, .sec, .pwr, .evc, .lpe, .cxp]) (ha : d.armed p = false) :
    d.clockGate r p on = d.p (locOf p) PG_CTL.ENABLE (b2n on) := by
  have hsettle : (d.p (locOf p) PG_CTL.ENABLE (b2n on)).settle p = d.p (locOf p) PG_CTL.ENABLE (b2n on) := by
    have ha' : (d.p (locOf p) PG_CTL.ENABLE (b2n on)).armed p = false := by
      unfold Dev.armed Dev.on at ha ⊢
      rw [Dev.g_p_ne d _ (by simp [PG_COMMIT.PENDING, PG_CTL.ENABLE]), ha]
    simp [Dev.settle, ha']
  unfold Dev.clockGate
  rw [hrow]
  cases hblk : row.block
  case ref | cfg | sec | pwr | evc | lpe | cxp => simp [hblk] at hb
  all_goals simp [hblk, hsettle]

/-- CLOCK_GATE is a write of ENABLE to the page's header. -/
theorem exec_clockGate_eq {s : State} {rg : Fin 4} {pg : BitVec 12} {row : PageRow} {i : Nat} (hrow : pageRowOf (pageAt rg pg) = some (row, i))
    (hup : upAt s.ref s.dev rg = true) (hs : s.soleR rg) (on : Bool) :
    exec (.clockGate rg pg on) s = .next { s with
      dev := (if s.dev.g (locOf (pageAt rg pg)) PG_CTL.ENABLE = b2n on then s.dev.seq (locOf (pageAt rg pg))
        else (s.dev.seq (locOf (pageAt rg pg))).clockGate s.ref (pageAt rg pg) on) } := by
  rw [← Dev.g_seq_locOf s.dev (pageAt rg pg) (pageAt rg pg) (f := PG_CTL.ENABLE) (by decide) (by decide)]
  exact onHeader_alone (by simp [hrow]) hup hs

/-- CLOCK_GATE where ENABLE stands as asked, or the block has no gate: the write is counted. -/
theorem exec_clockGate_still {s : State} {rg : Fin 4} {pg : BitVec 12} {row : PageRow} {i : Nat} (hrow : pageRowOf (pageAt rg pg) = some (row, i))
    (hup : upAt s.ref s.dev rg = true) (hs : s.soleR rg) (on : Bool)
    (h : s.dev.g (locOf (pageAt rg pg)) PG_CTL.ENABLE = b2n on ∨ row.block ∈ [Block.ref, .cfg, .sec, .pwr, .evc]) :
    ∃ t, exec (.clockGate rg pg on) s = .next t ∧ t.ref = s.ref ∧ t.mem = s.mem ∧ t.pending = s.pending ∧
      s.dev.onlyRegs [locOf (pageAt rg pg) + 0x03C] t.dev := by
  refine ⟨_, exec_clockGate_eq hrow hup hs on, rfl, rfl, rfl, ?_⟩
  dsimp only
  split
  · exact Dev.onlyRegs_seq s.dev _
  · next hne =>
    rw [Dev.clockGate_fixed _ _ hrow on (h.resolve_left hne)]
    exact Dev.onlyRegs_seq s.dev _

/-- CLOCK_GATE that changes ENABLE, on a page without an armed request. -/
theorem exec_clockGate_moves {s : State} {rg : Fin 4} {pg : BitVec 12} {row : PageRow} {i : Nat} (hrow : pageRowOf (pageAt rg pg) = some (row, i))
    (hup : upAt s.ref s.dev rg = true) (hs : s.soleR rg) (on : Bool) (h : s.dev.g (locOf (pageAt rg pg)) PG_CTL.ENABLE ≠ b2n on)
    (hb : row.block ∉ [Block.ref, .cfg, .sec, .pwr, .evc, .lpe, .cxp]) (ha : s.dev.armed (pageAt rg pg) = false) :
    ∃ t, exec (.clockGate rg pg on) s = .next t ∧ (t.ref = s.ref ∧ t.mem = s.mem ∧ t.pending = s.pending ∧
      s.dev.onlyRegs [locOf (pageAt rg pg) + 0x03C, locOf (pageAt rg pg) + 0x00C] t.dev) ∧ t.dev.clocked (locOf (pageAt rg pg)) = on := by
  have hexec := exec_clockGate_eq hrow hup hs on
  rw [if_neg h, Dev.clockGate_plain _ _ hrow on hb (by rw [Dev.armed_seq, ha])] at hexec
  refine ⟨_, hexec, ⟨rfl, rfl, rfl, ?_⟩, ?_⟩
  · dsimp only
    refine Dev.onlyRegs_trans (Dev.onlyRegs_mono ?_ (Dev.onlyRegs_seq s.dev (pageAt rg pg))) (Dev.onlyRegs_p _ _ PG_CTL.ENABLE _ (.inl ?_))
    · simp
    · simp [PG_CTL.ENABLE]
  · dsimp only
    unfold Dev.clocked Dev.on
    rw [Dev.g_p_same _ _ _ _ (by decide)]
    cases on <;> rfl

end Sys2Proof.Machine
end

section
/-! SUPPORT. A core's accesses to the register pages: the word and the page of an access, and a write that is dropped (R24, R428). -/
namespace Sys2Proof.Machine

open Sys2Proof

/-! ### A core's accesses -/

/-- The access of a Kuxon core: its number and the domain of its region (R22, R23). -/
def coreAcc (s : State) (cr : Fin 3) (c : Fin 20) : Acc := { m := .core cr c, dom := s.dev.domainOf s.ref (.core cr c) }

/-- A write of a core that can send is a write of the bus. -/
theorem exec_registerWrite_core {s : State} {cr : Fin 3} {c : Fin 20} (hs : s.sends (.core cr c) = true) (a : BitVec 40) (data : List Byte) :
    exec (.registerWrite (.core cr c) a data) s = .next { s with
      mem := s.mem.applyAll (busWrite s (coreAcc s cr c) a.toNat data).1, dev := (busWrite s (coreAcc s cr c) a.toNat data).2 } := by
  have hgo : ¬ ((!s.sends (.core cr c)) = true ∨ (!s.dev.reaches (.core cr c) a.toNat) = true) := by simp [hs, Dev.reaches]
  unfold exec
  dsimp only
  unfold execRegisterWrite
  dsimp only
  rw [onMem_eq, if_neg hgo]
  rfl

/-- A read of a core that can send is a read of the bus. -/
theorem exec_rcRead_core {s : State} {cr : Fin 3} {c : Fin 20} (hs : s.sends (.core cr c) = true) (a : BitVec 40) :
    exec (.rcRead (.core cr c) a) s = .next { s with
      dev := { (busRead s (coreAcc s cr c) a.toNat 4).dev with readData := BitVec.ofNat 32 (leNat (busRead s (coreAcc s cr c) a.toNat 4).bytes) } } := by
  have hgo : ¬ ((!s.sends (.core cr c)) = true ∨ (!s.dev.reaches (.core cr c) a.toNat) = true) := by simp [hs, Dev.reaches]
  unfold exec
  dsimp only
  unfold execRcRead readWord
  dsimp only
  rw [onDev_eq, if_neg hgo]
  rfl

/-! ### Words and bytes -/

/-- An aligned access of four bytes covers one word. -/
theorem wordsOf_word {a : Nat} {bs : List Byte} (ha : a % 4 = 0) (hb : bs.length = 4) : wordsOf a bs = [(a, packWord bs 0)] := by
  have h0 : (a + 3) / 4 * 4 = a := by omega
  have h1 : a < ((a + 3) / 4 + 1) * 4 := by omega
  simp [wordsOf, hb, List.range_succ, h0, h1]

theorem toBytes_length (v n : Nat) : (toBytes v n).length = n := by
  induction n generalizing v with
  | zero => rfl
  | succ n ih => simp [toBytes, ih]

theorem foldl_range_four {α : Type} (f : α → Nat → α) (x : α) : (List.range 4).foldl f x = f (f (f (f x 0) 1) 2) 3 := rfl
/-- The four bytes of a word are the word. -/
theorem packWord_toBytes (v : Word) : packWord (toBytes v.toNat 4) 0 = v := by
  have hv := v.isLt
  have h0 : ((toBytes v.toNat 4)[4 * 0 + 0]?).getD 0 = BitVec.ofNat 8 v.toNat := rfl
  have h1 : ((toBytes v.toNat 4)[4 * 0 + 1]?).getD 0 = BitVec.ofNat 8 (v.toNat / 256) := rfl
  have h2 : ((toBytes v.toNat 4)[4 * 0 + 2]?).getD 0 = BitVec.ofNat 8 (v.toNat / 256 / 256) := rfl
  have h3 : ((toBytes v.toNat 4)[4 * 0 + 3]?).getD 0 = BitVec.ofNat 8 (v.toNat / 256 / 256 / 256) := rfl
  unfold packWord
  rw [foldl_range_four, h0, h1, h2, h3]
  apply BitVec.eq_of_toNat_eq
  rw [BitVec.toNat_ofNat, BitVec.toNat_ofNat, BitVec.toNat_ofNat, BitVec.toNat_ofNat, BitVec.toNat_ofNat]
  generalize v.toNat = n at hv ⊢
  omega
theorem leNat_word (w : Word) : BitVec.ofNat 32 (leNat ((List.range 4).map (fun i => BitVec.ofNat 8 (w.toNat / 2 ^ (8 * i))))) = w := by
  have hw := w.isLt
  apply BitVec.eq_of_toNat_eq
  simp [leNat, List.range_succ]
  omega

/-! ### Registers of one page -/

/-- An address of a register of a page that is placed. -/
theorem isPage_of_pageRowOf {a p off i : Nat} {row : PageRow} (hrow : pageRowOf p = some (row, i)) (ho : off < 0x1000)
    (ha : a = 0x1000000000 + p * 4096 + off) : isPage a = true := by
  have := page_lt_of_pageRowOf hrow
  unfold isPage
  rw [Bool.and_eq_true, decide_eq_true_eq, decide_eq_true_eq]
  unfold pagesLo pagesHi
  omega

/-- While no half rejoins, no write is forwarded (R221). -/
theorem regWrite_alone {s : State} (h : s.ref.rjHalf = none) (x : Acc) (p off : Nat) (v : Word) : regWrite s x p off v = regWriteOne s x p off v := by
  have hf : s.ref.forwards x.m p = none := by simp [Referee.forwards, Referee.rejoinerOf, h]
  unfold regWrite
  rw [hf]

/-- A core's write of one register of a page. -/
theorem exec_coreWrite_page {s : State} {cr : Fin 3} {c : Fin 20} {a : BitVec 40} {p off i : Nat} {row : PageRow} (hs : s.sends (.core cr c) = true)
    (hj : s.ref.rjHalf = none) (hrow : pageRowOf p = some (row, i)) (ho : off < 0x1000) (h4 : off % 4 = 0)
    (ha : a.toNat = 0x1000000000 + p * 4096 + off) (v : Word) :
    exec (.registerWrite (.core cr c) a (toBytes v.toNat 4)) s = .next { s with dev := regWriteOne s (coreAcc s cr c) p off v } := by
  have hbus : busWrite s (coreAcc s cr c) a.toNat (toBytes v.toNat 4) = ([], regWriteOne s (coreAcc s cr c) p off v) := by
    have hp : (a.toNat - pagesLo) / 4096 = p := by unfold pagesLo; omega
    have hoff : a.toNat % 4096 = off := by omega
    unfold busWrite
    dsimp only
    rw [if_pos (isPage_of_pageRowOf hrow ho ha), wordsOf_word (by omega) (toBytes_length _ _), packWord_toBytes]
    simp only [coreAcc, hostBad, List.foldl_cons, List.foldl_nil, hp, hoff]
    rw [regWrite_alone hj]
  rw [exec_registerWrite_core hs, hbus]
  rfl

/-- A core's read of one register of a page: its word, and the devices after the read. -/
theorem exec_coreRead_page {s : State} {cr : Fin 3} {c : Fin 20} {a : BitVec 40} {p off i : Nat} {row : PageRow} (hs : s.sends (.core cr c) = true)
    (hrow : pageRowOf p = some (row, i)) (ho : off < 0x1000) (h4 : off % 4 = 0) (ha : a.toNat = 0x1000000000 + p * 4096 + off) :
    exec (.rcRead (.core cr c) a) s =
      .next { s with dev := { (regRead s (coreAcc s cr c) p off).2 with readData := (regRead s (coreAcc s cr c) p off).1 } } := by
  have hp : (a.toNat - pagesLo) / 4096 = p := by unfold pagesLo; omega
  have hoff : a.toNat % 4096 = off := by omega
  have hbus : busRead s (coreAcc s cr c) a.toNat 4 =
      ⟨(List.range 4).map (fun i => BitVec.ofNat 8 ((regRead s (coreAcc s cr c) p off).1.toNat / 2 ^ (8 * i))), false, (regRead s (coreAcc s cr c) p off).2⟩ := by
    unfold busRead
    dsimp only
    rw [if_pos (isPage_of_pageRowOf hrow ho ha), wordsOf_word (by omega) (by simp)]
    simp only [coreAcc, hostBad, List.foldl_cons, List.foldl_nil, hp, hoff]
    simp [List.range_succ]
  rw [exec_rcRead_core hs, hbus, leNat_word]

/-- The register row of an offset is one of its list, and the offset that of one of its copies. -/
theorem rowAt_some {rs : List RegRow} {off : Nat} {r : RegRow} (h : rowAt rs off = some r) :
    r ∈ rs ∧ r.off ≤ off ∧ (off - r.off) % r.stride = 0 ∧ (off - r.off) / r.stride < r.cnt := by
  have hp := List.find?_some h
  simp only [Bool.and_eq_true, decide_eq_true_eq] at hp
  exact ⟨List.mem_of_find?_eq_some h, hp.1.1, hp.1.2, hp.2⟩

/-- A register with one copy stands at its own offset. -/
theorem rowAt_single {rs : List RegRow} {off : Nat} {r : RegRow} (h : rowAt rs off = some r) (h1 : r.cnt = 1) (hs : r.stride = 4) : r ∈ rs ∧ off = r.off := by
  obtain ⟨hm, hle, hmod, hlt⟩ := rowAt_some h
  rw [hs] at hmod hlt
  exact ⟨hm, by omega⟩

/-! ### A write that is dropped (R24, R428) -/

theorem Dev.violation_frame (d : Dev) (reg page off dom : Nat) (decode : Bool) :
    d.onlyRegs [rLoc reg .evc + EVC_DVLOG.PAGE.off, rLoc reg .evc + EVC_DVCNT.COUNT.off] (d.violation reg page off dom decode) := by
  unfold Dev.violation
  dsimp only
  refine Dev.onlyRegs_trans ?_ (Dev.raise_frame _ (rLoc_page _ _ _) _ _)
  split
  · exact Dev.onlyRegs_wr d _ _ _ (.inl (by simp))
  · exact Dev.onlyRegs_p d _ EVC_DVCNT.COUNT _ (.inl (by simp))

/-- The log of a violation leaves the page's clock as it was. -/
theorem Dev.violation_raised (d : Dev) {reg : Nat} (page off dom : Nat) (decode : Bool) (hc : d.clocked (rLoc reg .evc) = true) :
    (d.violation reg page off dom decode).raised (rLoc reg .evc) (if decode then 1 else 0) := by
  unfold Dev.violation
  dsimp only
  refine Dev.raise_raised _ (rLoc_page _ _ _) (by cases decode <;> decide) ?_
  unfold Dev.clocked Dev.on Dev.g at hc ⊢
  split
  · rw [Dev.rd_wr_ne d _ (by simp [PG_CTL.ENABLE, EVC_DVLOG.PAGE]), hc]
  · rw [Dev.sat_eq, Dev.rd_p_ne d _ (by simp [PG_CTL.ENABLE, EVC_DVCNT.COUNT]), hc]

/-- A domain that is no writer of a page writes none of its registers but PG_LOCK, whose writer is the owner (R24, R493). -/
theorem mayWrite_of_notWriter {s : State} {dom p i off : Nat} {row : PageRow} (hf : frozenAt s.ref (p / 4096) = false) (h38 : off ≠ 0x038)
    (hw : bit (s.dev.g (locOf p) PG_LOCK.WRITERS) dom = false) : mayWrite s dom row p i off = false := by
  simp [mayWrite, hf, h38, hw]

theorem regWriteOne_dropped {s : State} {x : Acc} {p off i : Nat} {row : PageRow} (hrow : pageRowOf p = some (row, i))
    (hup : upAt s.ref s.dev (p / 4096) = true) (h4 : off % 4 = 0) (hm : mayWrite s x.dom row p i off = false) (v : Word) :
    regWriteOne s x p off v = s.dev.dropped p off x.dom := by
  have hoff : off / 4 * 4 = off := by omega
  simp [regWriteOne, hoff, hrow, hup, hm]

/-- A write that is carried out is counted, then acted on. -/
theorem regWriteOne_taken {s : State} {x : Acc} {p off i : Nat} {row : PageRow} (hrow : pageRowOf p = some (row, i))
    (hup : upAt s.ref s.dev (p / 4096) = true) (h4 : off % 4 = 0) (h40 : 0x40 ≤ off) (hm : mayWrite s x.dom row p i off = true) (v : Word) :
    regWriteOne s x p off v = blockWrite { s with dev := s.dev.seq (locOf p) } x row p i off v := by
  have hoff : off / 4 * 4 = off := by omega
  simp [regWriteOne, hoff, hrow, hup, hm, Nat.not_lt.2 h40]

/-- A core's write where its domain is no writer is dropped and recorded. -/
theorem exec_coreWrite_dropped {s : State} {rg : Fin 4} {pg : BitVec 12} {row : PageRow} {i : Nat} (hrow : pageRowOf (pageAt rg pg) = some (row, i))
    (hup : upAt s.ref s.dev rg = true) {cr : Fin 3} {c : Fin 20} {a : BitVec 40} {off : Nat} (hs : s.sends (.core cr c) = true)
    (hj : s.ref.rjHalf = none) (hf : frozenAt s.ref rg = false) (ho : off < 0x1000) (h4 : off % 4 = 0)
    (ha : a.toNat = 0x1000000000 + pageAt rg pg * 4096 + off) (h38 : off ≠ 0x038)
    (hw : bit (s.dev.g (locOf (pageAt rg pg)) PG_LOCK.WRITERS) (s.dev.domainOf s.ref (.core cr c)) = false) (v : Word) :
    ∃ t, exec (.registerWrite (.core cr c) a (toBytes v.toNat 4)) s = .next t ∧
      let lv := rLoc (if rg = 3 then 2 else rg.val) .evc
      (t.ref = s.ref ∧ t.mem = s.mem ∧ t.pending = s.pending ∧ s.dev.onlyRegs [lv + EVC_DVLOG.PAGE.off, lv + EVC_DVCNT.COUNT.off] t.dev) ∧
        (s.dev.clocked lv = true → t.dev.raised lv 0) := by
  have hm := mayWrite_of_notWriter (row := row) (i := i) (by rw [pageAt_div, hf]) h38 hw
  have hreg : (if pageAt rg pg / 4096 = 3 then 2 else pageAt rg pg / 4096) = (if rg = 3 then 2 else rg.val) := by
    have hall : ∀ r : Fin 4, (if r.val = 3 then 2 else r.val) = (if r = 3 then 2 else r.val) := by decide
    rw [pageAt_div, hall rg]
  have hd := regWriteOne_dropped (x := coreAcc s cr c) hrow (by rw [pageAt_div, hup]) h4 hm v
  unfold Dev.dropped at hd
  rw [hreg] at hd
  refine ⟨_, exec_coreWrite_page hs hj hrow ho h4 ha v, ⟨rfl, rfl, rfl, ?_⟩, fun hc => ?_⟩
  · dsimp only
    rw [hd]
    exact Dev.violation_frame _ _ _ _ _ _
  · dsimp only
    rw [hd]
    exact Dev.violation_raised _ _ _ _ _ hc

end Sys2Proof.Machine
end

section
/-! A core's write to a shadowed register (R487) and its read of a register with RC bits (R11). -/
namespace Sys2Proof.Machine

open Sys2Proof

/-! ### A write to a shadowed register (R487) -/

/-- The shadowed registers of the blocks whose only acting registers lie from 0x800 on: one copy each, below 0x800. -/
theorem shadowed_offset {p i off : Nat} {row : PageRow} {rr : RegRow} (hrow : pageRowOf p = some (row, i))
    (hb : row.block ∈ [Block.aeq, .seal, .mec, .scb, .pwr]) (hr : row.rowFor off = some rr) (hw : rr.rws ≠ 0) : 0x40 ≤ off ∧ off < 0x800 := by
  have hhdr : ∀ r ∈ regsHdr, r.rws = 0 := by decide
  have hall : ∀ x ∈ pageRowsHalf ++ pageRowsOther, x.block ∈ [Block.aeq, .seal, .mec, .scb, .pwr] → ∀ r ∈ x.regs, r.rws ≠ 0 →
      r.cnt = 1 ∧ r.stride = 4 ∧ r.off < 0x800 := by decide
  have hnot : row.block ≠ .dma ∧ row.block ≠ .row := by
    constructor <;> intro he <;> simp [he] at hb
  unfold PageRow.rowFor at hr
  split at hr
  · exact absurd (hhdr rr (rowAt_some hr).1) hw
  · next h40 =>
    rw [if_neg (by simp [hnot.1]), if_neg (by simp [hnot.2])] at hr
    obtain ⟨hcnt, hstride, hoff⟩ := hall row (pageRowOf_mem hrow) hb rr (rowAt_some hr).1 hw
    have := (rowAt_single hr hcnt hstride).2
    omega

/-- None of those registers acts when it is written. -/
theorem actingWrite_none {s : State} {x : Acc} {row : PageRow} {p i off : Nat} {v : Word} (hb : row.block ∈ [Block.aeq, .seal, .mec, .scb, .pwr])
    (ho : off < 0x800) : actingWrite s x row p i off v = none := by
  have h800 : off ≠ 0x800 ∧ off ≠ 0x840 ∧ off ≠ 0x844 := by omega
  simp only [List.mem_cons, List.not_mem_nil, or_false] at hb
  unfold actingWrite
  rcases hb with hb | hb | hb | hb | hb <;> simp [hb, h800]

theorem Dev.armed_wrS (d : Dev) (l : Loc) (o : Nat) (w : Word) (p : Nat) : (d.wrS l o w).armed p = d.armed p := by
  unfold Dev.armed Dev.on Dev.g
  rw [Dev.rd_wrS]

/-- A write of a shadow register changes the shadow set alone. -/
theorem Dev.wrS_quiet (d : Dev) (l : Loc) (o : Nat) (w : Word) : { (d.wrS l o w).quiet with shadow := [] } = { d.quiet with shadow := [] } := rfl
theorem Dev.regsKept_wrS {ks : List Nat} {d e : Dev} (h : d.regsKept ks e) (l : Loc) (o : Nat) (w : Word) : d.regsKept ks (e.wrS l o w) := by
  unfold Dev.regsKept
  rw [Dev.wrS_regs]
  exact h

/-- A write of a register with shadow bits, while no request of its page is armed, puts those bits of the shadow set. -/
theorem blockWrite_shadow {s : State} {x : Acc} {row : PageRow} {p i off : Nat} {rr : RegRow} {v : Word} (hact : actingWrite s x row p i off v = none)
    (hb : row.block ≠ .row) (hr : row.rowFor off = some rr) (hw : rr.rws ≠ 0) (ha : s.dev.armed p = false) :
    blockWrite s x row p i off v = s.dev.wrS (locOf p) off (maskPut rr.rws v (s.dev.rdS (locOf p) off)) := by
  have hl : s.dev.locFor x row p off = locOf p := by simp [Dev.locFor, hb]
  have hsettle : ∀ w, (s.dev.wrS (locOf p) off w).settle p = s.dev.wrS (locOf p) off w := by
    intro w
    have ha' : (s.dev.wrS (locOf p) off w).armed p = false := (Dev.armed_wrS ..).trans ha
    simp [Dev.settle, ha']
  unfold blockWrite
  rw [hact, hr]
  dsimp only
  rw [hl, if_pos hw, hsettle]

theorem mayWrite_of_writer {s : State} {dom p i off : Nat} {row : PageRow} (hf : frozenAt s.ref (p / 4096) = false) (h38 : off ≠ 0x038)
    (hb : row.block ≠ .prz) (hw : bit (s.dev.g (locOf p) PG_LOCK.WRITERS) dom = true) : mayWrite s dom row p i off = true := by
  simp [mayWrite, hf, h38, hw, Dev.plutShut, hb]

/-- A core's write to a shadowed register goes to the shadow set. -/
theorem exec_coreWrite_shadow {s : State} {rg : Fin 4} {pg : BitVec 12} {row : PageRow} {i : Nat} (hrow : pageRowOf (pageAt rg pg) = some (row, i))
    (hup : upAt s.ref s.dev rg = true) {cr : Fin 3} {c : Fin 20} {a : BitVec 40} {off : Nat} {rr : RegRow} (hs : s.sends (.core cr c) = true)
    (hj : s.ref.rjHalf = none) (hf : frozenAt s.ref rg = false) (harm : s.dev.armed (pageAt rg pg) = false) (ho : off < 0x1000) (h4 : off % 4 = 0)
    (ha : a.toNat = 0x1000000000 + pageAt rg pg * 4096 + off) (hr : row.rowFor off = some rr)
    (hb : row.block ∈ [Block.aeq, .seal, .mec, .scb, .pwr]) (hrws : rr.rws ≠ 0)
    (hw : bit (s.dev.g (locOf (pageAt rg pg)) PG_LOCK.WRITERS) (s.dev.domainOf s.ref (.core cr c)) = true) (v : Word) :
    ∃ t, exec (.registerWrite (.core cr c) a (toBytes v.toNat 4)) s = .next t ∧ t.ref = s.ref ∧ t.mem = s.mem ∧
      { t.dev.quiet with shadow := [] } = { s.dev.quiet with shadow := [] } ∧ s.dev.regsKept [locOf (pageAt rg pg) + 0x03C] t.dev ∧
      ∀ k, SMap.get regReset t.dev.shadow k =
        if k = locOf (pageAt rg pg) + off then maskPut rr.rws v (s.dev.rdS (locOf (pageAt rg pg)) off) else SMap.get regReset s.dev.shadow k := by
  obtain ⟨h40, h800⟩ := shadowed_offset hrow hb hr hrws
  have hnot : row.block ≠ .row ∧ row.block ≠ .prz := by
    constructor <;> intro he <;> simp [he] at hb
  have hm : mayWrite s (coreAcc s cr c).dom row (pageAt rg pg) i off = true :=
    mayWrite_of_writer (by rw [pageAt_div, hf]) (by omega) hnot.2 hw
  have hd : regWriteOne s (coreAcc s cr c) (pageAt rg pg) off v = (s.dev.seq (locOf (pageAt rg pg))).wrS (locOf (pageAt rg pg)) off
      (maskPut rr.rws v (s.dev.rdS (locOf (pageAt rg pg)) off)) := by
    rw [regWriteOne_taken hrow (by rw [pageAt_div, hup]) h4 h40 hm, blockWrite_shadow (actingWrite_none hb h800) hnot.1 hr hrws]
    · dsimp only
      rw [Dev.rdS_seq]
    · dsimp only
      rw [Dev.armed_seq, harm]
  obtain ⟨hquiet, hregs⟩ := Dev.onlyRegs_seq s.dev (pageAt rg pg)
  refine ⟨_, exec_coreWrite_page hs hj hrow ho h4 ha v, rfl, rfl, ?_, ?_, fun k => ?_⟩ <;> dsimp only <;> rw [hd]
  · rw [Dev.wrS_quiet, hquiet]
  · exact Dev.regsKept_wrS hregs _ _ _
  · unfold Dev.wrS
    dsimp only
    rw [SMap.get_set, Dev.seq_shadow]

/-! ### A read that clears bits (R11) -/

/-- The registers with RC bits of these blocks: one copy each, no shadow bits, none of the words that are not stored as they read. -/
theorem rc_offset {p i off : Nat} {row : PageRow} {rr : RegRow} (hrow : pageRowOf p = some (row, i)) (hb : row.block ∈ [Block.aeq, .seal, .mec, .pwr])
    (hr : row.rowFor off = some rr) (hc : rr.rc ≠ 0) (h800 : 0x800 ≤ off) :
    rr.rws = 0 ∧ off ≠ 0x800 ∧ off < 0x900 ∧ (row.block = .mec → off ≠ 0x804) := by
  have hall : ∀ x ∈ pageRowsHalf ++ pageRowsOther, x.block ∈ [Block.aeq, .seal, .mec, .pwr] → ∀ r ∈ x.regs, r.rc ≠ 0 →
      r.cnt = 1 ∧ r.stride = 4 ∧ r.rws = 0 ∧ r.off ≠ 0x800 ∧ r.off < 0x900 ∧ (x.block = .mec → r.off ≠ 0x804) := by decide
  have hnot : row.block ≠ .dma ∧ row.block ≠ .row := by
    constructor <;> intro he <;> simp [he] at hb
  unfold PageRow.rowFor at hr
  rw [if_neg (by omega), if_neg (by simp [hnot.1]), if_neg (by simp [hnot.2])] at hr
  obtain ⟨hcnt, hstride, hrest⟩ := hall row (pageRowOf_mem hrow) hb rr (rowAt_some hr).1 hc
  rw [(rowAt_single hr hcnt hstride).2]
  exact hrest

/-- The value a read returns is no register. -/
theorem Dev.regsKept_readData {ks : List Nat} {d e : Dev} (h : d.regsKept ks e) (v : Word) : d.regsKept ks { e with readData := v } := h
theorem Dev.quiet_readData (d : Dev) (v : Word) : { ({ d with readData := v } : Dev).quiet with readData := 0 } = { d.quiet with readData := 0 } := rfl
theorem Dev.rd_readData (d : Dev) (v : Word) (l : Loc) (o : Nat) : ({ d with readData := v } : Dev).rd l o = d.rd l o := rfl

/-- A read of a register with RC bits shows its word and clears them. -/
theorem regRead_rc {s : State} {x : Acc} {p i off : Nat} {row : PageRow} {rr : RegRow} (hrow : pageRowOf p = some (row, i))
    (hup : upAt s.ref s.dev (p / 4096) = true) (h4 : off % 4 = 0) (hb : row.block ∈ [Block.aeq, .seal, .mec, .pwr]) (hr : row.rowFor off = some rr)
    (hc : rr.rc ≠ 0) (h800 : 0x800 ≤ off) (hlat : SMap.get (fun _ => none) s.dev.latched (latchKey p off x.m) = none) :
    regRead s x p off = (s.dev.rd (locOf p) off &&& BitVec.ofNat 32 rr.rd,
      s.dev.wr (locOf p) off (s.dev.rd (locOf p) off &&& ~~~(BitVec.ofNat 32 rr.rc))) := by
  obtain ⟨hrws, hne800, h900, hmec⟩ := rc_offset hrow hb hr hc h800
  have hnot : row.block ≠ .row := by
    intro he
    simp [he] at hb
  have hl : s.dev.locFor x row p off = locOf p := by simp [Dev.locFor, hnot]
  have hoff : off / 4 * 4 = off := by omega
  simp only [List.mem_cons, List.not_mem_nil, or_false] at hb
  have hblock : blockWord s x row p i off = none := by
    have hpocc : ixAt AEQ_POCC.QUEUED 64 off = none := by simp [ixAt, AEQ_POCC.QUEUED, Nat.not_le.2 h900]
    unfold blockWord
    rcases hb with hb | hb | hb | hb <;> simp [hb, hne800, hpocc, hmec]
  have hword : wordOf s x row p i off = s.dev.rd (locOf p) off &&& BitVec.ofNat 32 rr.rd := by
    unfold wordOf
    rw [hr]
    dsimp only
    rw [if_neg (by omega), hblock, hl]
    simp [hrws]
  have hclear : s.dev.rcClear x row p off = s.dev.wr (locOf p) off (s.dev.rd (locOf p) off &&& ~~~(BitVec.ofNat 32 rr.rc)) := by
    unfold Dev.rcClear
    rw [hr]
    dsimp only
    rw [if_neg hc, hl]
  have heffect : readEffect s x row p i off = s.dev.rcClear x row p off := by
    unfold readEffect
    rcases hb with hb | hb | hb | hb <;> simp [hb]
  have hhigh : highOf row i off = none := by
    unfold highOf
    rcases hb with hb | hb | hb | hb <;> simp [hb]
  unfold regRead
  rw [hoff, hrow]
  dsimp only
  rw [hup, hlat, hword, heffect, hclear, hhigh]
  simp [Nat.not_lt.2 (show 0x40 ≤ off by omega)]

/-- A core's read of a register with RC bits returns its word, and the bits clear. -/
theorem exec_coreRead_rc {s : State} {rg : Fin 4} {pg : BitVec 12} {row : PageRow} {i : Nat} (hrow : pageRowOf (pageAt rg pg) = some (row, i))
    (hup : upAt s.ref s.dev rg = true) {cr : Fin 3} {c : Fin 20} {a : BitVec 40} {off : Nat} {rr : RegRow} (hs : s.sends (.core cr c) = true)
    (ho : off < 0x1000) (h4 : off % 4 = 0) (ha : a.toNat = 0x1000000000 + pageAt rg pg * 4096 + off) (hr : row.rowFor off = some rr)
    (hb : row.block ∈ [Block.aeq, .seal, .mec, .pwr]) (hc : rr.rc ≠ 0) (h800 : 0x800 ≤ off)
    (hlat : SMap.get (fun _ => none) s.dev.latched (latchKey (pageAt rg pg) off (.core cr c)) = none) :
    ∃ t, exec (.rcRead (.core cr c) a) s = .next t ∧ t.ref = s.ref ∧ t.mem = s.mem ∧
      t.dev.readData = s.dev.rd (locOf (pageAt rg pg)) off &&& BitVec.ofNat 32 rr.rd ∧
      { t.dev.quiet with readData := 0 } = { s.dev.quiet with readData := 0 } ∧ s.dev.regsKept [locOf (pageAt rg pg) + off] t.dev ∧
      t.dev.rd (locOf (pageAt rg pg)) off = s.dev.rd (locOf (pageAt rg pg)) off &&& ~~~(BitVec.ofNat 32 rr.rc) := by
  have hread := regRead_rc (x := coreAcc s cr c) hrow (by rw [pageAt_div, hup]) h4 hb hr hc h800 hlat
  obtain ⟨hquiet, hregs⟩ := Dev.onlyRegs_wr s.dev (locOf (pageAt rg pg)) off
    (s.dev.rd (locOf (pageAt rg pg)) off &&& ~~~(BitVec.ofNat 32 rr.rc)) (ks := [locOf (pageAt rg pg) + off]) (.inl (by simp))
  refine ⟨_, exec_coreRead_page hs hrow ho h4 ha, rfl, rfl, ?_, ?_, ?_, ?_⟩ <;> dsimp only <;> rw [hread]
  · rw [Dev.quiet_readData, hquiet]
  · exact Dev.regsKept_readData hregs _
  · rw [Dev.rd_readData, Dev.rd_wr_same]

end Sys2Proof.Machine
end

section
/-! A core's write to memory (R24, R25), and the statement on block resets, clock gates and accesses. -/
namespace Sys2Proof.Machine

open Sys2Proof

/-! ### A write to memory (R24, R25, R331) -/

/-- Bytes stored in a row read back, and no other byte changes. -/
theorem Mem.byte_storeBytes (m : Mem) (a : Nat) (bs : List Byte) (x : Nat) :
    (m.applyAll (storeBytes a bs)).byte x = if a ≤ x then (bs[x - a]?).getD (m.byte x) else m.byte x := by
  induction bs generalizing m a with
  | nil => simp [storeBytes]
  | cons b bs ih =>
    rw [storeBytes, Mem.applyAll_cons, ih]
    rcases Nat.lt_trichotomy x a with h | h | h
    · rw [if_neg (by omega), if_neg (by omega), Mem.byte_store_ne m b (by omega)]
    · subst h
      simp [Mem.byte_store_same]
    · obtain ⟨j, hj⟩ : ∃ j, x - a = j + 1 := ⟨x - a - 1, by omega⟩
      have hj' : x - (a + 1) = j := by omega
      rw [if_pos (by omega), if_pos (by omega), Mem.byte_store_ne m b (by omega), hj, hj', List.getElem?_cons_succ]

/-- Where memory stands behind every byte, all of them are stored. -/
theorem Dev.put_backed (d : Dev) {a : Nat} {bs : List Byte} (h : ∀ i, i < bs.length → d.backed (a + i) = true) : d.put a bs = storeBytes a bs := by
  induction bs generalizing a with
  | nil => rfl
  | cons b bs ih =>
    have h0 : d.backed a = true := h 0 (by simp)
    have hrest : ∀ i, i < bs.length → d.backed (a + 1 + i) = true := by
      intro i hi
      have := h (i + 1) (by simp; omega)
      rwa [show a + 1 + i = a + (i + 1) by omega]
    rw [Dev.put, if_pos h0, ih hrest, storeBytes]
theorem mem_storeBytes {a : Nat} {bs : List Byte} {o : MemOp} (h : o ∈ storeBytes a bs) : ∃ i b, i < bs.length ∧ o = .store (a + i) b := by
  induction bs generalizing a with
  | nil => simp [storeBytes] at h
  | cons b bs ih =>
    rcases List.mem_cons.1 h with rfl | h
    · exact ⟨0, b, by simp, rfl⟩
    · obtain ⟨i, b', hi, rfl⟩ := ih h
      exact ⟨i + 1, b', by simp; omega, by rw [Nat.add_right_comm, Nat.add_assoc]⟩

/-- DRAM that answers is populated, and its controller fills nothing (R25, R332). -/
theorem Dev.backed_dram {d : Dev} {a : Nat} (ha : a < 2 ^ 36) (h : d.backed a = true) :
    d.reserved a = false ∧ d.on (hLoc (Half.ofRegion (a / 2 ^ 35)) .mec) MEC_STAT.FILLING = false := by
  by_cases hlo : a < 2 ^ 35
  · have hh : Half.ofRegion (a / 2 ^ 35) = .A := by rw [Nat.div_eq_of_lt hlo]; rfl
    simp only [Dev.backed, hlo, if_true, Bool.and_eq_true, decide_eq_true_eq, Bool.not_eq_true'] at h
    refine ⟨?_, by rw [hh]; exact h.2⟩
    simp only [Dev.reserved, hlo, if_true, decide_eq_false_iff_not]
    omega
  · have hh : Half.ofRegion (a / 2 ^ 35) = .B := by rw [show a / 2 ^ 35 = 1 by omega]; rfl
    simp only [Dev.backed, hlo, ha, if_true, if_false, Bool.and_eq_true, decide_eq_true_eq, Bool.not_eq_true'] at h
    refine ⟨?_, by rw [hh]; exact h.2⟩
    simp only [Dev.reserved, hlo, ha, if_true, if_false, decide_eq_false_iff_not]
    omega

section Dram
variable {a : Nat} (ha : a < 2 ^ 36)
include ha

/-- No register, no read-only memory, no window that leaves the part lies in DRAM. -/
theorem isPage_dram : isPage a = false := by
  unfold isPage
  rw [Bool.and_eq_false_iff, decide_eq_false_iff_not, decide_eq_false_iff_not]
  unfold pagesLo
  omega
theorem inSw_dram : inSw a = false := by
  unfold inSw
  rw [Bool.and_eq_false_iff, decide_eq_false_iff_not, decide_eq_false_iff_not]
  omega
theorem readOnly_dram : readOnly a = false := by
  unfold readOnly
  simp only [Bool.or_eq_false_iff, Bool.and_eq_false_iff, decide_eq_false_iff_not]
  omega
theorem outDown_dram (d : Dev) : d.outDown a = none := by
  unfold Dev.outDown
  rw [if_neg (by omega)]
theorem outboundAt_dram (d : Dev) : d.outboundAt a = none := by
  unfold Dev.outboundAt
  rw [if_neg (by omega), if_neg (by omega)]
theorem doorbellAt_dram : doorbellAt a = none := by
  unfold doorbellAt
  rw [if_neg (by omega)]
theorem fillAcc_backed {d : Dev} (h : d.backed a = true) (r : Referee) : d.fillAcc r a = d := by
  have hfill := (Dev.backed_dram ha h).2
  unfold Dev.fillAcc
  simp only [inSw_dram ha, Bool.false_eq_true, if_false, hfill, and_false]
/-- While no half rejoins, a write to DRAM reaches that address alone (R34, R221). -/
theorem targets_dram {r : Referee} (hj : r.rjHalf = none) : r.targets a = [a] := by
  unfold Referee.targets
  simp [hj, inSw_dram ha]
end Dram

/-- While no page is being loaded, a write touches no page under load (R351). -/
theorem Dev.dirtied_calm {d : Dev} (h : ∀ x, (d.nvh x).out = []) (a n : Nat) : d.dirtied a n = d := by
  unfold Dev.dirtied
  dsimp only
  rw [if_pos]
  by_cases hk : 2 ≤ a / 2 ^ 35
  · exact .inl hk
  · right
    have hA := h .A
    have hB := h .B
    unfold Dev.nvh Half.n at hA hB
    dsimp only at hA hB
    rcases (show a / 2 ^ 35 = 0 ∨ a / 2 ^ 35 = 1 by omega) with hk | hk <;> rw [hk] <;> simp [hA, hB]

/-- A write at DRAM that answers, outside the L7 range and with no memory error about, stores its bytes and does nothing else. -/
theorem Dev.storeAt_calm {d : Dev} (hcalm : d.calm) {dom a : Nat} {bs : List Byte} (hb : bs ≠ []) (hend : a + bs.length ≤ 2 ^ 36)
    (hback : ∀ i, i < bs.length → d.backed (a + i) = true) (hl7 : ∀ i, i < bs.length → d.inL7 (a + i) = false) (walker : Half) :
    d.storeAt walker dom a bs = (storeBytes a bs, d) := by
  obtain ⟨hue, _, hce, hout⟩ := hcalm
  have hfind : (List.range bs.length).find? (fun i => d.inL7 (a + i)) = none := by
    refine List.find?_eq_none.2 fun i hi => ?_
    simp [hl7 i (List.mem_range.1 hi)]
  have hlate : d.ceIn a bs.length = [] := by simp [Dev.ceIn, hce]
  have hsame : ({ d with ueLines := [], ceWords := [] } : Dev) = d := by rw [← hue, ← hce]
  unfold Dev.storeAt
  dsimp only
  rw [if_neg (by simpa using hb), hfind, hlate, hue, hce, Dev.put_backed d hback]
  simp only [List.filter_nil, ite_self, List.foldl_nil, hsame, Dev.dirtied_calm hout]
  refine Prod.ext (List.filter_eq_self.2 fun o ho => ?_) rfl
  obtain ⟨i, b, hi, rfl⟩ := mem_storeBytes ho
  simp [Dev.writeShut, hl7 i hi, readOnly_dram (show a + i < 2 ^ 36 by omega)]

/-- A write of the bus to DRAM that answers and may be written. -/
theorem busWrite_dram {s : State} {x : Acc} {a : Nat} {bs : List Byte} (hj : s.ref.rjHalf = none) (hcalm : s.dev.calm) (hb : bs ≠ [])
    (hend : a + bs.length ≤ 2 ^ 36) (hback : ∀ i, i < bs.length → s.dev.backed (a + i) = true) (hshut : shutMem s.ref s.dev x.dom a = false)
    (hl7 : ∀ i, i < bs.length → s.dev.inL7 (a + i) = false) : busWrite s x a bs = (storeBytes a bs, s.dev) := by
  have hlen : 0 < bs.length := List.length_pos_iff.2 hb
  have ha : a < 2 ^ 36 := by omega
  have hback0 : s.dev.backed a = true := hback 0 hlen
  have hfind : (List.range bs.length).find? (fun i => s.dev.reserved (a + i) || readOnly (a + i)) = none := by
    refine List.find?_eq_none.2 fun i hi => ?_
    have hi' := List.mem_range.1 hi
    have hlt : a + i < 2 ^ 36 := by omega
    simp [(Dev.backed_dram hlt (hback i hi')).1, readOnly_dram hlt]
  unfold busWrite
  dsimp only
  rw [isPage_dram ha, if_neg Bool.false_ne_true, hfind, outDown_dram ha, doorbellAt_dram ha, hshut]
  dsimp only
  rw [if_neg Bool.false_ne_true, fillAcc_backed ha hback0]
  unfold storeMem
  rw [outboundAt_dram ha, targets_dram ha hj]
  simp [Dev.storeAt_calm hcalm hb hend hback hl7]

/-- A core's write to memory of its bytes. -/
theorem exec_coreWrite_memory {s : State} {cr : Fin 3} {c : Fin 20} {a : BitVec 40} {data : List Byte} (hs : s.sends (.core cr c) = true)
    (hj : s.ref.rjHalf = none) (hcalm : s.dev.calm) (hd : data ≠ []) (hplain : s.plain cr a.toNat data.length) (hc : cr = 2 → c ≠ 7)
    (hl7 : ∀ j, j < data.length → s.dev.inL7 (a.toNat + j) = false) :
    ∃ t, exec (.registerWrite (.core cr c) a data) s = .next t ∧ t.ref = s.ref ∧ s.dev.onlyRegs [] t.dev ∧
      (∀ j, j < data.length → some (t.mem.byte (a.toNat + j)) = data[j]?) ∧
      ∀ x, (x < a.toNat ∨ a.toNat + data.length ≤ x) → t.mem.byte x = s.mem.byte x := by
  obtain ⟨hend, hbytes⟩ := hplain
  have hdom : s.dev.domainOf s.ref (.core cr c) = cr.val + 1 := by
    have hall : ∀ (r : Fin 3) (k : Fin 20), (r = 2 → k ≠ 7) → (if r.val < 2 then r.val + 1 else if k.val = 7 then 4 else 3) = r.val + 1 := by decide
    exact hall cr c hc
  have hshut : shutMem s.ref s.dev (coreAcc s cr c).dom a.toNat = false := by
    unfold coreAcc
    rw [hdom]
    exact (hbytes 0 (List.length_pos_iff.2 hd)).2
  have hbus := busWrite_dram (x := coreAcc s cr c) hj hcalm hd hend (fun i hi => (hbytes i hi).1) hshut hl7
  have hexec := exec_registerWrite_core hs a data
  rw [hbus] at hexec
  refine ⟨_, hexec, rfl, Dev.onlyRegs_refl _ _, fun j hj => ?_, fun x hx => ?_⟩ <;> dsimp only <;> rw [Mem.byte_storeBytes]
  · simp [hj]
  · split
    · next hle => rw [List.getElem?_eq_none (by omega), Option.getD_none]
    · rfl

end Sys2Proof.Machine

open Sys2Proof Sys2Proof.Machine

/-- Settles O60: each clause is the meaning of its command on the page, cut into the header write, the access of a core to one register, and the
store to memory. -/
theorem pagesResetGateAndTakeAccesses : Obligations.PagesResetGateAndTakeAccesses := by
  unfold Obligations.PagesResetGateAndTakeAccesses
  refine ⟨fun s rg pg row i hrow hup hs => ⟨exec_blockReset_refused hrow hup hs, exec_blockReset_done hrow hup hs,
    exec_clockGate_still hrow hup hs, exec_clockGate_moves hrow hup hs, ?_⟩, ?_⟩
  · intro cr c a v off rr hsends hj hf harm ho h4 ha hr
    refine ⟨fun hb hrws hw => ?_, fun h38 hw => ?_, fun hb hc h800 hlat => ?_⟩
    · exact exec_coreWrite_shadow hrow hup hsends hj hf harm ho h4 ha hr hb hrws hw v
    · exact exec_coreWrite_dropped hrow hup hsends hj hf ho h4 ha h38 hw v
    · exact exec_coreRead_rc hrow hup hsends ho h4 ha hr hb hc h800 hlat
  · intro s cr c a data hsends hj hcalm hd hplain hc hl7
    exact exec_coreWrite_memory hsends hj hcalm hd hplain hc hl7
end

section
/-! SUPPORT. The acts of the referee's sequencer that leave the half states, the charge epoch and the split mode alone (R18, R210, R212). -/
namespace Sys2Proof.Machine

open Sys2Proof

/-! ### Updates of the referee -/

@[simp] theorem Referee.authority_setFence (r : Referee) (h : Half) (b : Bool) : (r.setFence h b).authority = r.authority := by cases h <;> rfl
@[simp] theorem Referee.authority_setReissue (r : Referee) (h : Half) (b : Bool) : (r.setReissue h b).authority = r.authority := by cases h <;> rfl
@[simp] theorem Referee.authority_setRsp (r : Referee) (ep : Half) (v : Nat) : (r.setRsp ep v).authority = r.authority := by cases ep <;> rfl
@[simp] theorem Referee.authority_setSessRes (r : Referee) (ep : Half) (v : Nat) : (r.setSessRes ep v).authority = r.authority := by cases ep <;> rfl
@[simp] theorem Referee.authority_setInit (r : Referee) (h : Half) (b : Bool) : (r.setInit h b).authority = r.authority := by cases h <;> rfl
@[simp] theorem Referee.authority_setSby (r : Referee) (h : Half) (b : Bool) : (r.setSby h b).authority = r.authority := by cases h <;> rfl
@[simp] theorem Referee.authority_closeSess (r : Referee) (ep : Half) : (r.closeSess ep).authority = r.authority := by
  unfold Referee.closeSess
  split <;> rfl
@[simp] theorem Referee.authority_openSess (r : Referee) (ep : Half) : (r.openSess ep).authority = r.authority := by
  unfold Referee.openSess
  split
  · exact r.authority_setSessRes ep _
  · split
    · exact r.authority_setSessRes ep _
    · exact r.authority_setSessRes ep 0

/-! ### Acts of the sequencer on the referee and the devices -/

@[simp] theorem RD.authority_stop (x : RD) (a b : Bool) : (x.stop a b).1.authority = x.1.authority := rfl
@[simp] theorem RD.authority_fenceHalf (x : RD) (h : Half) : (x.fenceHalf h).1.authority = x.1.authority := x.1.authority_setFence h true

theorem RD.authority_fillDone (x : RD) (h : Half) : (x.fillDone h).1.authority = x.1.authority := by
  unfold RD.fillDone
  split
  · rfl
  · dsimp only
    split
    · exact x.1.authority_setInit h true
    · rfl

theorem RD.authority_fenceTimeout (x : RD) (h : Half) (p : Nat) : (x.fenceTimeout h p).1.authority = x.1.authority := by
  unfold RD.fenceTimeout
  extract_lets waits
  split <;> rfl

theorem RD.authority_reissueCmd (x : RD) (m : Mem) (h : Half) : (x.reissueCmd m h).1.authority = x.1.authority := by
  unfold RD.reissueCmd
  split
  · exact x.1.authority_setReissue h false
  · rfl

theorem RD.authority_transfer (x : RD) (ks : List Nat) : (x.transfer ks).1.authority = x.1.authority := by
  unfold RD.transfer
  split
  · rfl
  · split <;> rfl

theorem RD.authority_handover (x : RD) : x.handover.2.1.authority = x.1.authority := by
  unfold RD.handover
  dsimp only
  split
  · rfl
  · split
    · rfl
    · rw [RD.authority_fenceHalf]
      rfl

/-- A mailbox request changes what its act changes, and what the mailbox answers (R437). -/
theorem RD.authority_request (x : RD) (ep : Half) (still : Bool) (tag : Nat) {f : RD → Nat × RD} (hf : ∀ y, (f y).2.1.authority = y.1.authority) :
    (x.request ep still tag f).1.authority = x.1.authority := by
  unfold RD.request
  split
  · cases ep <;> rfl
  · dsimp only
    rw [Referee.authority_setRsp]
    split
    · exact hf x
    · rfl

@[simp] theorem Boot.ref_dev (x : Boot) (f : Dev → Dev) : (x.dev f).1 = x.1 := rfl
@[simp] theorem Boot.ref_reject (x : Boot) : x.reject.1 = x.1 := x.ref_dev _
theorem Boot.ref_applyWrites (x : Boot) (slot rg : Nat) : (x.applyWrites slot rg).1 = x.1 := rfl
/-- Loading a region changes devices alone: the referee's fields of the configuration are taken at power-on (R464). -/
theorem Boot.ref_load (x : Boot) (rg : Nat) : (x.load rg).2.1 = x.1 := by
  unfold Boot.load
  split
  · rfl
  · extract_lets r y
    split
    · exact y.ref_applyWrites _ rg
    · rfl

/-! ### What a command answers -/

/-- The answer is a next state with the same waiting commands and memory changed by stores and fills; unless the command `acts` for the referee's
sequencer, the half states, the charge epoch and the split mode are as they were. -/
def State.answered (s : State) (acts : Bool) (a : Answer) : Prop :=
  ∃ r ops d, a = .next { s with ref := r, mem := s.mem.applyAll ops, dev := d } ∧ (acts = false → r.authority = s.ref.authority)

theorem answered_ref {acts : Bool} {s : State} {r : Referee} {ops : List MemOp} {d : Dev} (h : acts = false → r.authority = s.ref.authority) :
    s.answered acts (.next { s with ref := r, mem := s.mem.applyAll ops, dev := d }) := ⟨r, ops, d, rfl, h⟩
/-- A command that changes memory and devices. -/
theorem answered_mem {acts : Bool} {s : State} {ops : List MemOp} {d : Dev} : s.answered acts (.next { s with mem := s.mem.applyAll ops, dev := d }) :=
  ⟨s.ref, ops, d, rfl, fun _ => rfl⟩
/-- A command that changes devices only. -/
theorem answered_dev {acts : Bool} {s : State} {d : Dev} : s.answered acts (.next { s with dev := d }) := ⟨s.ref, [], d, rfl, fun _ => rfl⟩
/-- An act of the sequencer that may change what the referee keeps. -/
theorem answered_acting {s : State} {r : Referee} {ops : List MemOp} {d : Dev} :
    s.answered true (.next { s with ref := r, mem := s.mem.applyAll ops, dev := d }) := answered_ref nofun
/-- Any other act of the sequencer. -/
theorem answered_onRef {acts : Bool} {f : State → Referee × List MemOp × Dev} {s : State} (h : (f s).1.authority = s.ref.authority) :
    s.answered acts (onRef f s) := answered_ref fun _ => h
theorem answered_onRequest {acts : Bool} {ep : Half} {still : Bool} {tag : BitVec 8} {f : RD → Nat × RD} (hf : ∀ y, (f y).2.1.authority = y.1.authority)
    (s : State) : s.answered acts (onRequest ep still tag f s) := answered_onRef (RD.authority_request _ ep still _ hf)
theorem answered_onAsk {acts : Bool} {i : Nat} {src : Option (Master × BitVec 16)} {f : Boot → Boot} (hf : ∀ y, (f y).1.authority = y.1.authority)
    (s : State) : s.answered acts (onAsk i src f s) := by
  refine answered_onRef ?_
  extract_lets d0 y
  split
  · exact hf _
  · rfl

/-- A register write that the rejoining half takes over answers as its two parts do (R221 step 3). -/
theorem answered_forwarded {acts : Bool} {h : Half} {f : Half → State → Answer} (hf : ∀ h (s : State), s.answered acts (f h s)) (s : State) :
    s.answered acts (forwarded h f s) := by
  obtain ⟨r, ops, d, ht, hr⟩ := hf h s
  cases hx : s.ref.rejoinerOf h with
  | none => rw [forwarded_alone hx]; exact hf h s
  | some x =>
    rw [forwarded_both hx ht]
    obtain ⟨r', ops', d', ht', hr'⟩ := hf x { s with ref := r, mem := s.mem.applyAll ops, dev := d }
    exact ⟨r', ops ++ ops', d', by rw [ht', Mem.applyAll_append], fun ha => (hr' ha).trans (hr ha)⟩
theorem answered_forwardedBy {acts : Bool} {m : Master} {h : Half} {f : Half → State → Answer} (hf : ∀ h (s : State), s.answered acts (f h s)) (s : State) :
    s.answered acts (forwardedBy m h f s) := by
  unfold forwardedBy
  split
  · exact answered_forwarded hf s
  · exact hf h s
theorem answered_forwardedR {acts : Bool} {r : Fin 3} {f : Fin 3 → State → Answer} (hf : ∀ r (s : State), s.answered acts (f r s)) (s : State) :
    s.answered acts (forwardedR r f s) := by
  unfold forwardedR
  split
  · exact hf r s
  · exact answered_forwarded (fun _ => hf _) s
theorem answered_onHeader {acts : Bool} {rg : Fin 4} {pg : BitVec 12} {f : Nat → State → Dev → Dev} (s : State) :
    s.answered acts (onHeader rg pg f s) := by
  unfold onHeader
  split
  · exact answered_forwarded (fun _ _ => answered_dev) s
  · exact answered_dev

end Sys2Proof.Machine
end

section
/-! What a command can change, case by case, and the two invariants that follow: memory stays canonical (R33, R332), and the referee's sequencer alone
moves the half states, the epoch and the split mode (R18, R210, R212). -/
namespace Sys2Proof.Machine

open Sys2Proof

/-! ### Commands with more than one shape of answer -/

theorem answered_eccLogClear {acts : Bool} (rg : Fin 4) (pg : BitVec 12) (s : State) : s.answered acts (execEccLogClear rg pg s) := by
  unfold execEccLogClear
  dsimp only
  split
  · exact answered_forwarded (fun _ _ => answered_dev) s
  · exact answered_dev

/-- A half without supply answers its endpoint nothing; else the session of the endpoint ends (R435). -/
theorem answered_hostLinkDown {acts : Bool} (h : Half) (s : State) : s.answered acts (execHostLinkDown h s) := by
  refine answered_onRef ?_
  dsimp only
  split
  · rfl
  · dsimp only
    split <;> rfl

theorem answered_scrubSramRead {acts : Bool} (h : Half) (found : Fin 4) (s : State) : s.answered acts (execScrubSramRead h found s) := by
  refine answered_onRef ?_
  dsimp only
  split
  · rfl
  · split <;> rfl

theorem answered_rowRecordWrite {acts : Bool} (h : Half) (e : Fin 8) (c : Fin 32) (s : State) : s.answered acts (execRowRecordWrite h e c s) := by
  refine answered_onRef ?_
  dsimp only
  split
  · split
    · rfl
    · dsimp only
      split
      · exact RD.authority_transfer _ _
      · rfl
  · rfl

theorem answered_warm {acts : Bool} (src : Option (Master × BitVec 16)) (s : State) : s.answered acts (execWarm src s) := by
  refine answered_onAsk (fun x => ?_) s
  split
  · rw [Boot.ref_reject]
  · split
    · rw [Boot.ref_dev]
    · exact ((RD.authority_fenceHalf _ _).trans (RD.authority_fenceHalf _ _)).trans (RD.authority_stop _ _ _)

theorem answered_svcrst {acts : Bool} (src : Option (Master × BitVec 16)) (s : State) : s.answered acts (execSvcrst src s) := by
  refine answered_onAsk (fun x => ?_) s
  dsimp only
  split <;> exact congrArg Referee.authority (Boot.ref_load _ 2)

theorem answered_hstby {acts : Bool} (h : Half) (src : Option (Master × BitVec 16)) (s : State) : s.answered acts (execHstby h src s) := by
  refine answered_onAsk (fun x => ?_) s
  split
  · rw [Boot.ref_reject]
  · extract_lets y
    rw [Boot.ref_dev]
    exact (Referee.authority_setSby _ h true).trans (Referee.authority_closeSess _ h)

theorem answered_dim {acts : Bool} (src : Option (Master × BitVec 16)) (s : State) : s.answered acts (execDim src s) := by
  refine answered_onAsk (fun x => ?_) s
  split
  · rw [Boot.ref_reject]
  · rw [Boot.ref_dev]

theorem answered_undim {acts : Bool} (src : Option (Master × BitVec 16)) (s : State) : s.answered acts (execUndim src s) := by
  refine answered_onAsk (fun x => ?_) s
  split
  · rw [Boot.ref_reject]
  · rw [Boot.ref_dev]

/-! ### Requests through a mailbox -/

theorem answered_mbxReq (ep : Half) (v : Nat) (s : State) : s.answered true (mbxReq ep v s) := by
  unfold mbxReq
  dsimp only
  split <;> exact answered_acting

theorem answered_mailboxWrite (ep : Half) (off v : Nat) (s : State) : s.answered true (mailboxWrite ep off v s) := by
  unfold mailboxWrite
  split
  · exact answered_mbxReq ep v s
  · split
    · exact answered_onRef (s.ref.authority_openSess ep)
    · split
      · exact answered_onRef ((Referee.authority_setSessRes _ ep 0).trans (s.ref.authority_closeSess ep))
      · split
        · exact answered_dev
        · exact answered_dev

theorem answered_registerWrite (m : Master) (a : BitVec 40) (data : List Byte) (s : State) :
    s.answered (Instr.refereeActs (.registerWrite m a data)) (execRegisterWrite m a data s) := by
  cases m
  case mailbox ep =>
    unfold execRegisterWrite
    dsimp only
    split
    · exact answered_dev
    · split
      · exact answered_dev
      · exact answered_mailboxWrite ep _ _ s
  all_goals exact answered_mem

/-- What a command answers, by its shape: a change of devices, of memory and devices, a register write that the rejoining half takes over, or an act
of the referee's sequencer. -/
theorem exec_answered (c : Instr) (s : State) : s.answered (Instr.refereeActs c) (exec c s) := by
  cases c with unfold exec
  | tbTick | beamInputEdge | beamStallTimeout | beamCommitSwap | predDone | replicaSnapshot | renderStart | lineFillReturn | renderComplete |
    gatherStart | gatherComplete | tcinvDone | mcinvDone | drainingComplete | beamStateMarker | beamDisabledCancel | reverseDirectionMarker |
    reverseTrigger | forwardDirectionMarker | cancelScanComplete | hrnValidationDone | hrnCopyDone | expired | queueUe | frameBoundary |
    mirrorConfirm | mirrorLate | audTimer | hbTimer | receiverLock | hbReceive | ackReceive | crdReceive | stsReceive | mgtResponseReceive |
    mgtTimeout | retransmitTimeout | trainingTimeout | trainingRetry | linkDown | cxpLineMarker | loupeRowTimeout | expectedRowArrive |
    loupeRenderRequest | travelTrigger | cxpControlRx | cxpCtlrxRead | cxpLinkUp | cxpLinkDown | cxpFifoOverflow | lpeBankCopyDone | add | adc |
    sub | sbc | and | or | xor | mov | cmp | tst | addi | movi | cmpi | neg | not | mul | mulhu | divu | divs | remu | rems | shl | shr | sar |
    ror | shli | shri | sari | rori | par | brev | brevn | swpb | sxb | crc | ld | ldp | bcc | jr | callr | loop | nop | reti | waitrow |
    waitangle | waitevt | waitrowComplete | waitangleComplete | waitevtComplete | waitTimeout | illegal | interruptEntry | farerr | farSync |
    ktbLoad | mailboxSend | mailboxDeliver | mailboxPop | hostMailboxPush | hostMailboxPop | kxcHmboutRead | kwdogReload | watchdogExpire |
    ucsWindowWrite | ueFetch | scrubDramRead | eccWriteback | bucketLeak | scbEsrcPop | caParityError | driveMount | pageAheadRequest |
    nvmeCompletion | l7Refresh | reflat | compatLineFetch | dsiCommandWrite | dsiCommandSend | cmdDone | dsiResponseTimeout | teEdge | teMiss |
    bltGo | bltAbort | audioSamplePeriod | zcTmo | audioFrameReceive | audioFrameSync | keyon | keyoff | audPlatch | msixModerationExpire |
    msixUnmask | hostReadTimeout | mbxKeep | timerSourceEvent | timerCaptureEdge | timerCapPop | pinEdge | pmMatch | bankV | kpinXor | flashRead |
    flashProgram | flashErase | fldone | otpProgram | otpRevoke | otpdone | attestGo | atdone | boWarn | pwrClr | throttle | hot | pgLockWrite |
    interpolatedAngleAdvance | pllLoss | lockLost | hostLinkUp | throttleClear | mirrorRecordReceive | ref2x | rcRead | lowWordRead =>
    exact answered_dev
  | rowTrigger | defectRecordWritten | st | stp | rep | movs | fills | cmps | scans | crcs | cust | farReadResponse | map | unmap | load | drop |
    remount | mapReservedOp | nvmeReadIssue | pageArrive | cmdTmo | logBlockSubmit | descriptorFetch | descriptorComplete | descriptorReread |
    dmaTimeout | latchPoint | cameraViewLine | wbDone | wbDrop | rasterStart | underrun | bltComplete | bltTimeout | ctrlReset =>
    exact answered_mem
  | beamResync | predReq | tcinvAll | tcinvRange | mcinvAll | mcinvRange | arm | hold | resume | stop | abort | rowCmdReserved | rowBindWrite |
    rowHistoryWrite | rowRidxWrite | hrnTwDataWrite | aeqCntLatch | mgtGo | cxpCtltxWrite | lpeTableWrite | lpeRingRdWrite | lpeTlogWrite |
    mapRej | fwDoorbell | eoi =>
    exact answered_forwarded (fun _ _ => answered_dev) s
  | mawIdxWrite | mawEntryWrite => exact answered_forwardedBy (fun _ _ => answered_dev) s
  | kxcHmbinWrite | kxcRun | kxcHalt | kxcStep | creset | pmwWrite | dmaStart | dmaDoorbell | dmaStop | dmaLatch | evcTableWrite | timerRun |
    timerClr | capnow =>
    exact answered_forwardedR (fun _ _ => answered_dev) s
  | stopClear | flogClear | mbxReservedRequest => exact answered_onRequest (fun _ => rfl) s
  | blockReset | clockGate | commitReq | commitCancel =>
    exact answered_onHeader s
  | refereePowerOn | halfInitComplete | initTimeout | tbCompare | sealCompute | sealRecordReceive | sealTmo | faultReport | faultReportDequeue |
    commonModeTimeout | selfCheckWord | selfCheckTimeout | fenceConfirm | autorejoinTimeout | release | rejoin | rejoinCopyDone | boClear |
    boReset | wake =>
    exact answered_acting
  | memoryFillDone => exact answered_onRef (RD.authority_fillDone _ _)
  | fenceTimeout => exact answered_onRef (RD.authority_fenceTimeout _ _ _)
  | reissue => exact answered_onRef (RD.authority_reissueCmd _ _ _)
  | handover => exact answered_onRequest RD.authority_handover s
  | rowRecordWrite => exact answered_rowRecordWrite _ _ _ s
  | scrubSramRead => exact answered_scrubSramRead _ _ s
  | eccLogClear => exact answered_eccLogClear _ _ s
  | hostLinkDown => exact answered_hostLinkDown _ s
  | mbxOpen => exact answered_onRef (Referee.authority_openSess _ _)
  | mbxClose => exact answered_onRef ((Referee.authority_setSessRes _ _ 0).trans (Referee.authority_closeSess _ _))
  | mbxSessionTimeout => exact answered_onRef rfl
  | warm => exact answered_warm _ s
  | svcrst => exact answered_svcrst _ s
  | hstby => exact answered_hstby _ _ s
  | dim => exact answered_dim _ s
  | undim => exact answered_undim _ s
  | registerWrite => exact answered_registerWrite _ _ _ s

end Sys2Proof.Machine

open Sys2Proof Sys2Proof.Machine

/-- Settles O3: whatever a command answers, memory was changed by stores and fills, and each keeps the canonical form. -/
theorem everyStepKeepsMemoryCanonical : Obligations.EveryStepKeepsMemoryCanonical := by
  intro s t hs ht
  unfold step at ht
  split at ht
  · cases ht
    exact hs
  · next c rest _ =>
    obtain ⟨r, ops, d, hexec, -⟩ := exec_answered c { s with pending := rest }
    rw [hexec] at ht
    cases ht
    exact Mem.applyAll_wf ops hs

/-- Settles O4: the shape of the answer of a command that is no act of the sequencer. -/
theorem onlyTheRefereeMovesCharge : Obligations.OnlyTheRefereeMovesCharge := by
  intro s t c hc ht
  obtain ⟨r, ops, d, hexec, hr⟩ := exec_answered c s
  rw [hexec] at ht
  cases ht
  exact hr hc
end

section
/-! A tick of a half's time base: the broadcast of its beams (R63), the handover of crossing records (R61), and what it sends to the timers (R29, R440). -/
namespace Sys2Proof.Machine

open Sys2Proof

theorem Dev.regsKept_refl (ks : List Nat) (d : Dev) : d.regsKept ks d := fun _ _ _ => rfl
theorem Dev.regsKept_trans {ks : List Nat} {d e f : Dev} (h1 : d.regsKept ks e) (h2 : e.regsKept ks f) : d.regsKept ks f :=
  fun k hk he => (h2 k hk he).trans (h1 k hk he)
theorem Dev.regsKept_p {ks : List Nat} {d e : Dev} (he : d.regsKept ks e) {l : Loc} {f : Fld} (h : l + f.off ∈ ks) (v : Nat) : d.regsKept ks (e.p l f v) :=
  Dev.regsKept_trans he (Dev.onlyRegs_p e l f v (.inl h)).2

/-! ### The broadcast of one beam -/

/-- A beam without what the last tick broadcast of it. -/
def Beam.decoded (x : Beam) : Beam := { x with bDir := false, bInHyst := false, bStopped := false, bState := .off }

/-- The broadcast registers of beam `b` of half `h` show the position, velocity and acceleration of `x` (R63). -/
def Dev.shows (d : Dev) (h : Half) (b : Nat) (x : Beam) : Prop :=
  d.g (hLoc h .beam) (BEAM_ANGLE.ANGLE.ix b) = (x.pos % 2 ^ 32).toNat ∧ d.g (hLoc h .beam) (BEAM_REV.REV.ix b) = (x.pos / 2 ^ 32 % 2 ^ 32).toNat ∧
    d.g (hLoc h .beam) (BEAM_VEL.VEL.ix b) = x.repVel ∧ d.g (hLoc h .beam) (BEAM_ACC.ACC.ix b) = x.repAcc

theorem Dev.shows_congr {d e : Dev} {h : Half} {b : Nat} {x y : Beam} (hr : e.regs = d.regs) (hxy : x.decoded = y.decoded) (hd : d.shows h b x) :
    e.shows h b y := by
  have hpos : x.pos = y.pos := show x.decoded.pos = y.decoded.pos by rw [hxy]
  have hvel : x.repVel = y.repVel := show x.decoded.repVel = y.decoded.repVel by rw [hxy]
  have hacc : x.repAcc = y.repAcc := show x.decoded.repAcc = y.decoded.repAcc by rw [hxy]
  unfold Dev.shows Dev.g Dev.rd at hd ⊢
  rwa [hr, ← hpos, ← hvel, ← hacc]

/-- The registers that a broadcast of beam `b` writes. -/
def beamKeys (h : Half) (b : Nat) : List Nat :=
  [hLoc h .beam + 0x804 + 0x40 * b, hLoc h .beam + 0x808 + 0x40 * b, hLoc h .beam + 0x80C + 0x40 * b, hLoc h .beam + 0x810 + 0x40 * b]

/-- A register that every beam has, 0x40 after its predecessor's from 0x800 on (Table 02.6). -/
def Fld.ofBeam (f : Fld) : Bool := f.stride = 0x40 && f.off / 0x40 = 0x20

theorem Fld.ix_off_inj {f g : Fld} {b c : Nat} (hf : f.ofBeam = true) (hg : g.ofBeam = true) (h : (f.ix b).off = (g.ix c).off) : f.off = g.off ∧ b = c := by
  simp only [Fld.ofBeam, Bool.and_eq_true, decide_eq_true_eq] at hf hg
  simp only [Fld.ix, hf.1, hg.1] at h
  omega

/-- A write of a beam's register leaves that beam's other registers and every other beam's alone. -/
theorem Dev.g_p_beam (d : Dev) (l : Loc) {f g : Fld} {b c : Nat} (v : Nat) (hf : f.ofBeam = true) (hg : g.ofBeam = true) (hne : g.off ≠ f.off ∨ c ≠ b) :
    (d.p l (f.ix b) v).g l (g.ix c) = d.g l (g.ix c) := by
  refine Dev.g_p_ne d v fun he => ?_
  obtain ⟨hoff, hbeam⟩ := Fld.ix_off_inj hg hf (Nat.add_left_cancel he)
  exact hne.elim (fun h => h hoff) (fun h => h hbeam)
/-- A register of one field reads as written. -/
theorem Dev.g_p_word (d : Dev) (l : Loc) {f : Fld} {v : Nat} (hlo : f.lo = 0) (hw : f.w = 32) (hv : v < 2 ^ 32) : (d.p l f v).g l f = v := by
  rw [Dev.g_p_same d l f v (by omega), hw, Nat.mod_eq_of_lt hv]

theorem fitS_lt (n : Nat) (v : Int) : fitS n v < 2 ^ n := by
  unfold fitS usgn
  split
  · have := Int.emod_lt_of_pos v (b := ((2 ^ n : Nat) : Int)) (by positivity)
    have := Int.emod_nonneg v (b := ((2 ^ n : Nat) : Int)) (by positivity)
    omega
  · exact Nat.mod_lt _ (by positivity)
theorem Beam.repVel_lt (x : Beam) : x.repVel < 2 ^ 32 := by
  unfold Beam.repVel
  split
  · decide
  · exact fitS_lt 32 _
theorem Beam.repAcc_lt (x : Beam) : x.repAcc < 2 ^ 32 := by
  unfold Beam.repAcc
  split
  · decide
  · exact fitS_lt 32 _

/-- A beam in hysteresis or fault reports 0, which is what the field shows of 0. -/
theorem Beam.repVel_eq (x : Beam) : x.repVel = fitS 32 (if x.inHyst ∨ x.state = .fault then 0 else x.vel) := by
  unfold Beam.repVel
  split
  · decide
  · rfl
theorem Beam.repAcc_eq (x : Beam) : x.repAcc = fitS 32 (if x.inHyst ∨ x.state = .fault then 0 else x.acc) := by
  unfold Beam.repAcc
  split
  · decide
  · rfl

theorem Dev.shows_broadcast_same (d : Dev) (h : Half) (b : Nat) : (d.broadcast h b).shows h b (d.beam h b) := by
  unfold Dev.broadcast
  dsimp only
  refine ⟨?_, ?_, ?_, ?_⟩
  · rw [Dev.g_p_beam _ _ _ rfl rfl (.inl (by decide)), Dev.g_p_beam _ _ _ rfl rfl (.inl (by decide)), Dev.g_p_beam _ _ _ rfl rfl (.inl (by decide)),
      Dev.g_p_word _ _ rfl rfl (by omega)]
  · rw [Dev.g_p_beam _ _ _ rfl rfl (.inl (by decide)), Dev.g_p_beam _ _ _ rfl rfl (.inl (by decide)), Dev.g_p_word _ _ rfl rfl (by omega)]
  · rw [Dev.g_p_beam _ _ _ rfl rfl (.inl (by decide)), Dev.g_p_word _ _ rfl rfl (Beam.repVel_lt _)]
  · rw [Dev.g_p_word _ _ rfl rfl (Beam.repAcc_lt _)]

theorem Dev.g_broadcast_ne (d : Dev) (h : Half) {b c : Nat} {f : Fld} (hf : f.ofBeam = true) (hne : c ≠ b) :
    (d.broadcast h b).g (hLoc h .beam) (f.ix c) = d.g (hLoc h .beam) (f.ix c) := by
  unfold Dev.broadcast
  dsimp only
  rw [Dev.g_p_beam _ _ _ rfl hf (.inr hne), Dev.g_p_beam _ _ _ rfl hf (.inr hne), Dev.g_p_beam _ _ _ rfl hf (.inr hne), Dev.g_p_beam _ _ _ rfl hf (.inr hne)]
  rfl

theorem Dev.shows_broadcast_ne {d : Dev} {h : Half} {b c : Nat} {x : Beam} (hne : c ≠ b) (hd : d.shows h c x) : (d.broadcast h b).shows h c x := by
  unfold Dev.shows
  rw [Dev.g_broadcast_ne d h rfl hne, Dev.g_broadcast_ne d h rfl hne, Dev.g_broadcast_ne d h rfl hne, Dev.g_broadcast_ne d h rfl hne]
  exact hd

theorem Dev.regsKept_broadcast (d : Dev) (h : Half) (b : Nat) : d.regsKept (beamKeys h b) (d.broadcast h b) := by
  unfold Dev.broadcast
  dsimp only
  have hset : d.regsKept (beamKeys h b) (d.setBeam h b { d.beam h b with
    bDir := (d.beam h b).dir, bInHyst := (d.beam h b).inHyst, bStopped := (d.beam h b).stopped, bState := (d.beam h b).state }) := fun _ _ _ => rfl
  refine Dev.regsKept_p (Dev.regsKept_p (Dev.regsKept_p (Dev.regsKept_p hset ?_ _) ?_ _) ?_ _) ?_ _
  all_goals simp [beamKeys, Fld.ix, BEAM_ANGLE.ANGLE, BEAM_REV.REV, BEAM_VEL.VEL, BEAM_ACC.ACC, Nat.add_assoc]

/-- A broadcast leaves what the beams have decoded. -/
theorem Dev.decoded_broadcast (d : Dev) (h : Half) (b c : Nat) : ((d.broadcast h b).beam h c).decoded = (d.beam h c).decoded := by
  unfold Dev.broadcast Dev.beam Dev.setBeam
  simp only [Dev.p_beams, SMap.get_set]
  by_cases hc : c = b
  · subst hc
    rw [if_pos rfl]
    rfl
  · rw [if_neg (by omega)]

/-! ### One beam at a tick -/

/-- What a tick does for one beam: its broadcast, and the camera ports' history of it (R63, R245). -/
def Dev.beamTick (d : Dev) (h : Half) (b : Nat) : Dev := (d.broadcast h b).histTick h b

/-- Nothing but registers, beams and the ports' history of them differs. -/
def Dev.beamsOnly (d e : Dev) : Prop := ∃ rs bs hs, e = { d with regs := rs, beams := bs, bhist := hs }

theorem Dev.beamsOnly_refl (d : Dev) : d.beamsOnly d := ⟨d.regs, d.beams, d.bhist, rfl⟩
theorem Dev.beamsOnly_setBeam (d : Dev) (h : Half) (b : Nat) (x : Beam) : d.beamsOnly (d.setBeam h b x) := ⟨d.regs, _, d.bhist, rfl⟩
theorem Dev.beamsOnly_p {d e : Dev} (he : d.beamsOnly e) (l : Loc) (f : Fld) (v : Nat) : d.beamsOnly (e.p l f v) := by
  obtain ⟨rs, bs, hs, rfl⟩ := he
  exact ⟨_, bs, hs, rfl⟩
theorem Dev.beamsOnly_broadcast (d : Dev) (h : Half) (b : Nat) : d.beamsOnly (d.broadcast h b) :=
  Dev.beamsOnly_p (Dev.beamsOnly_p (Dev.beamsOnly_p (Dev.beamsOnly_p (Dev.beamsOnly_setBeam d h b _) _ _ _) _ _ _) _ _ _) _ _ _

theorem Dev.histTick_eq (d : Dev) (h : Half) (b : Nat) : ∃ hs, d.histTick h b = { d with bhist := hs } := by
  unfold Dev.histTick
  dsimp only
  split
  · split
    · exact ⟨d.bhist, rfl⟩
    · exact ⟨_, rfl⟩
  · exact ⟨_, rfl⟩

theorem Dev.beamsOnly_beamTick {d e : Dev} (he : d.beamsOnly e) (h : Half) (b : Nat) : d.beamsOnly (e.beamTick h b) := by
  obtain ⟨rs, bs, hs, rfl⟩ := he
  obtain ⟨rs', bs', hs', he'⟩ := Dev.beamsOnly_broadcast { d with regs := rs, beams := bs, bhist := hs } h b
  obtain ⟨hs'', he''⟩ := Dev.histTick_eq (Dev.broadcast { d with regs := rs, beams := bs, bhist := hs } h b) h b
  exact ⟨rs', bs', hs'', by rw [Dev.beamTick, he'', he']⟩
theorem Dev.beamTick_regs (d : Dev) (h : Half) (b : Nat) : (d.beamTick h b).regs = (d.broadcast h b).regs := by
  obtain ⟨hs, he⟩ := (d.broadcast h b).histTick_eq h b
  unfold Dev.beamTick
  rw [he]
theorem Dev.beamTick_beam (d : Dev) (h : Half) (b c : Nat) : (d.beamTick h b).beam h c = (d.broadcast h b).beam h c := by
  obtain ⟨hs, he⟩ := (d.broadcast h b).histTick_eq h b
  unfold Dev.beamTick Dev.beam
  rw [he]

/-! ### The first `n` beams at a tick -/

/-- What a tick does for the beams below `n`. -/
def Dev.beamsTick (d : Dev) (h : Half) (n : Nat) : Dev := (List.range n).foldl (fun x b => x.beamTick h b) d

theorem Dev.beamsTick_succ (d : Dev) (h : Half) (n : Nat) : d.beamsTick h (n + 1) = (d.beamsTick h n).beamTick h n := by
  simp [Dev.beamsTick, List.range_succ]

theorem Dev.beamsOnly_beamsTick (d : Dev) (h : Half) (n : Nat) : d.beamsOnly (d.beamsTick h n) := by
  induction n with
  | zero => exact Dev.beamsOnly_refl d
  | succ n ih =>
    rw [Dev.beamsTick_succ]
    exact Dev.beamsOnly_beamTick ih h n

theorem Dev.decoded_beamsTick (d : Dev) (h : Half) (n c : Nat) : ((d.beamsTick h n).beam h c).decoded = (d.beam h c).decoded := by
  induction n with
  | zero => rfl
  | succ n ih => rw [Dev.beamsTick_succ, Dev.beamTick_beam, Dev.decoded_broadcast, ih]

theorem Dev.shows_beamsTick (d : Dev) (h : Half) {n b : Nat} (hb : b < n) : (d.beamsTick h n).shows h b (d.beam h b) := by
  induction n with
  | zero => omega
  | succ n ih =>
    rw [Dev.beamsTick_succ]
    by_cases hn : b = n
    · subst hn
      exact Dev.shows_congr (Dev.beamTick_regs _ h b) (Dev.decoded_beamsTick d h b b) (Dev.shows_broadcast_same _ h b)
    · exact Dev.shows_congr (Dev.beamTick_regs _ h n) rfl (Dev.shows_broadcast_ne hn (ih (by omega)))

theorem Dev.regsKept_beamsTick (d : Dev) (h : Half) (n : Nat) : d.regsKept ((List.range n).flatMap (beamKeys h)) (d.beamsTick h n) := by
  induction n with
  | zero => exact Dev.regsKept_refl _ d
  | succ n ih =>
    intro k hk he
    rw [List.range_succ, List.flatMap_append, List.mem_append, not_or] at hk
    rw [Dev.beamsTick_succ, Dev.beamTick_regs, Dev.regsKept_broadcast _ h n k (by simpa using hk.2) he, ih k hk.1 he]

/-! ### The timers -/

/-- What sets out to a timer changes the timers alone (R440). -/
theorem Dev.tmrSend_eq (d : Dev) (r t evs edges : Nat) : ∃ ts, d.tmrSend r t evs edges = { d with timers := ts } := by
  unfold Dev.tmrSend
  extract_lets l taken
  split
  · exact ⟨d.timers, rfl⟩
  · exact ⟨_, rfl⟩

theorem Dev.foldl_timers {α : Type} (f : Dev → α → Dev) (hf : ∀ x a, ∃ ts, f x a = { x with timers := ts }) (d : Dev) (xs : List α) :
    ∃ ts, xs.foldl f d = { d with timers := ts } := by
  induction xs generalizing d with
  | nil => exact ⟨d.timers, rfl⟩
  | cons a xs ih =>
    obtain ⟨ts, he⟩ := hf d a
    obtain ⟨ts', he'⟩ := ih (f d a)
    exact ⟨ts', by rw [List.foldl_cons, he', he]⟩

theorem Dev.tmrTicks_eq (d : Dev) (h : Half) (copied : Bool) : ∃ ts, d.tmrTicks h copied = { d with timers := ts } := by
  unfold Dev.tmrTicks
  extract_lets mhz d1
  obtain ⟨ts, he⟩ : ∃ ts, d1 = { d with timers := ts } := Dev.foldl_timers _ (fun x _ => x.tmrSend_eq _ _ _ _) _ _
  split
  · exact ⟨ts, he⟩
  · obtain ⟨ts', he'⟩ := Dev.foldl_timers _ (fun x t => x.tmrSend_eq 2 t _ 0) d1 (List.range 16)
    exact ⟨ts', by rw [he', he]⟩

theorem Dev.tmrTicks_regs (d : Dev) (h : Half) (copied : Bool) : (d.tmrTicks h copied).regs = d.regs := by
  obtain ⟨ts, he⟩ := d.tmrTicks_eq h copied
  rw [he]
theorem Dev.tmrTicks_tb (d : Dev) (h k : Half) (copied : Bool) : (d.tmrTicks h copied).tb k = d.tb k := by
  obtain ⟨ts, he⟩ := d.tmrTicks_eq h copied
  rw [he]
  cases k <;> rfl
theorem Dev.tmrTicks_xl (d : Dev) (h k : Half) (copied : Bool) : (d.tmrTicks h copied).xl k = d.xl k := by
  obtain ⟨ts, he⟩ := d.tmrTicks_eq h copied
  rw [he]
  cases k <;> rfl
theorem Dev.tmrTicks_xq (d : Dev) (h k : Half) (copied : Bool) : (d.tmrTicks h copied).xq k = d.xq k := by
  obtain ⟨ts, he⟩ := d.tmrTicks_eq h copied
  rw [he]
  cases k <;> rfl

/-! ### The tick -/

/-- The devices when the time base of half `h` has advanced and an even tick has handed crossing records over (R29, R61). -/
def Dev.advanced (d : Dev) (h : Half) : Dev :=
  if (d.tb h + 1) % 2 ^ 64 % 2 = 0 then (d.setTb h ((d.tb h + 1) % 2 ^ 64)).handshake h else d.setTb h ((d.tb h + 1) % 2 ^ 64)

/-- A tick advances the half, lets its four beams broadcast, and besides changes the length of the next tick and the service copy. -/
theorem Dev.tick_eq (d : Dev) (h : Half) (isSource : Bool) : ∃ bs hs tA tB tS, d.tick h isSource = { d.advanced h with
    regs := ((d.setTb h ((d.tb h + 1) % 2 ^ 64)).beamsTick h 4).regs, beams := bs, bhist := hs, tickA := tA, tickB := tB, tbS := tS } := by
  obtain ⟨rs, bs, hs, he⟩ := Dev.beamsOnly_beamsTick (d.setTb h ((d.tb h + 1) % 2 ^ 64)) h 4
  have hfold : (List.range 4).foldl (fun x b => (x.broadcast h b).histTick h b) (d.setTb h ((d.tb h + 1) % 2 ^ 64)) =
    (d.setTb h ((d.tb h + 1) % 2 ^ 64)).beamsTick h 4 := rfl
  unfold Dev.tick Dev.advanced
  dsimp only
  rw [hfold, he]
  cases h <;> dsimp only <;> split <;> split <;> exact ⟨bs, hs, _, _, _, rfl⟩

theorem Dev.tick_regs (d : Dev) (h : Half) (isSource : Bool) :
    (d.tick h isSource).regs = ((d.setTb h ((d.tb h + 1) % 2 ^ 64)).beamsTick h 4).regs := by
  obtain ⟨bs, hs, tA, tB, tS, he⟩ := d.tick_eq h isSource
  rw [he]
theorem Dev.tick_tb (d : Dev) (h k : Half) (isSource : Bool) : (d.tick h isSource).tb k = (d.advanced h).tb k := by
  obtain ⟨bs, hs, tA, tB, tS, he⟩ := d.tick_eq h isSource
  rw [he]
  cases k <;> rfl
theorem Dev.tick_xl (d : Dev) (h : Half) (isSource : Bool) : (d.tick h isSource).xl h = (d.advanced h).xl h := by
  obtain ⟨bs, hs, tA, tB, tS, he⟩ := d.tick_eq h isSource
  rw [he]
  cases h <;> rfl
theorem Dev.tick_xq (d : Dev) (h : Half) (isSource : Bool) : (d.tick h isSource).xq h = (d.advanced h).xq h := by
  obtain ⟨bs, hs, tA, tB, tS, he⟩ := d.tick_eq h isSource
  rw [he]
  cases h <;> rfl

theorem Dev.advanced_tb (d : Dev) (h : Half) : (d.advanced h).tb h = (d.tb h + 1) % 2 ^ 64 ∧ (d.advanced h).tb h.peer = d.tb h.peer := by
  unfold Dev.advanced
  split
  · have htb : ∀ k, ((d.setTb h ((d.tb h + 1) % 2 ^ 64)).handshake h).tb k = (d.setTb h ((d.tb h + 1) % 2 ^ 64)).tb k := by
      intro k
      cases h <;> cases k <;> rfl
    rw [htb, htb, Dev.setTb_same, Nat.mod_mod, Dev.setTb_peer]
    exact ⟨rfl, rfl⟩
  · rw [Dev.setTb_same, Nat.mod_mod, Dev.setTb_peer]
    exact ⟨rfl, rfl⟩

theorem Dev.advanced_records (d : Dev) (h : Half) :
    if (d.tb h + 1) % 2 ^ 64 % 2 = 0 then
      (d.advanced h).xl h = (d.xq h).take 8 ∧ (d.advanced h).xq h = ((d.xq h).drop 8).map (fun x => { x with wait := x.wait + 4 })
    else (d.advanced h).xl h = d.xl h ∧ (d.advanced h).xq h = d.xq h := by
  unfold Dev.advanced
  split
  · cases h <;> exact ⟨rfl, rfl⟩
  · cases h <;> exact ⟨rfl, rfl⟩

/-- TB_TICK of a half that has supply and is not in half standby: a tick, and what it sends to the timers. -/
theorem exec_tbTick {s : State} {h : Half} (hoff : s.ref.hs h ≠ .off) (hsby : s.ref.sby h = false) :
    exec (.tbTick h) s = .next { s with
      dev := (s.dev.tick h (s.ref.tbSource h)).tmrTicks h (decide ((s.dev.tick h (s.ref.tbSource h)).tbS ≠ s.dev.tbS)) } := by
  unfold exec
  dsimp only
  unfold execTbTick
  rw [onDev_eq, if_neg (by simp [hoff, hsby])]

end Sys2Proof.Machine

open Sys2Proof Sys2Proof.Machine

/-- Settles O7: the tick cut into the advance of the time base with its handover, the broadcast of the beams, and what goes to the timers. -/
theorem tickAdvancesTimeBaseAndBroadcastsBeams : Obligations.TickAdvancesTimeBaseAndBroadcastsBeams := by
  intro s h hoff hsby
  refine ⟨_, exec_tbTick hoff hsby, rfl, rfl, rfl, ?_⟩
  dsimp only
  obtain ⟨htb, hpeer⟩ := s.dev.advanced_tb h
  rw [Dev.tmrTicks_tb, Dev.tmrTicks_tb, Dev.tick_tb, Dev.tick_tb, Dev.tmrTicks_xl, Dev.tmrTicks_xq, Dev.tick_xl, Dev.tick_xq]
  have hregs := (Dev.tmrTicks_regs (s.dev.tick h (s.ref.tbSource h)) h (decide ((s.dev.tick h (s.ref.tbSource h)).tbS ≠ s.dev.tbS))).trans (s.dev.tick_regs h _)
  have hbeam : ∀ b, (s.dev.setTb h ((s.dev.tb h + 1) % 2 ^ 64)).beam h b = s.dev.beam h b := fun b => by cases h <;> rfl
  refine ⟨htb, hpeer, fun b hb => ?_, s.dev.advanced_records h, fun k hk he => ?_⟩
  · rw [← Beam.repVel_eq, ← Beam.repAcc_eq]
    exact Dev.shows_congr hregs (congrArg Beam.decoded (hbeam b)) (Dev.shows_beamsTick _ h hb)
  · rw [hregs, Dev.regsKept_beamsTick _ h 4 k hk he]
    cases h <;> rfl
end

section
/-!
SUPPORT. The read of a register by any master (R11, R32): the page, the register and the word it addresses; and the 64-bit time bases, read by halves
through the beam page and whole through KTB0.
-/
namespace Sys2Proof.Machine

open Sys2Proof

/-! ### What a master's access finds -/

/-- The registers in which the endpoints count an access under a domain they do not hold (R434). -/
def domErrKeys : List Nat := [hLoc .A .hif + HIF_ERR.DOM.off, hLoc .B .hif + HIF_ERR.DOM.off]

theorem Dev.p_eq_regs (d : Dev) (l : Loc) (f : Fld) (v : Nat) : ∃ rs, d.p l f v = { d with regs := rs } := ⟨_, rfl⟩

/-- Counting such an access writes HIF_ERR alone. -/
theorem domCount_eq (s : State) (m : Master) : ∃ rs, domCount s m = { s.dev with regs := rs } ∧ s.dev.regsKept domErrKeys { s.dev with regs := rs } := by
  have hsame : ∃ rs, s.dev = { s.dev with regs := rs } ∧ s.dev.regsKept domErrKeys { s.dev with regs := rs } := ⟨s.dev.regs, rfl, Dev.regsKept_refl _ s.dev⟩
  have hcount (k : Half) (v : Nat) :
      ∃ rs, s.dev.p (hLoc k .hif) HIF_ERR.DOM v = { s.dev with regs := rs } ∧ s.dev.regsKept domErrKeys { s.dev with regs := rs } := by
    have hin : hLoc k .hif + HIF_ERR.DOM.off ∈ domErrKeys := by cases k <;> simp [domErrKeys]
    obtain ⟨rs, hrs⟩ := Dev.p_eq_regs s.dev (hLoc k .hif) HIF_ERR.DOM v
    exact ⟨rs, hrs, hrs ▸ Dev.regsKept_p (Dev.regsKept_refl _ s.dev) hin v⟩
  unfold domCount
  split
  · next h =>
    extract_lets want
    split
    · rw [Dev.sat_eq]
      exact hcount h _
    · exact hsame
  · exact hsame

/-- A master's access carries the domain it acts in (R22, R23). -/
def State.accOf (s : State) (m : Master) : Acc := { m := m, dom := s.dev.domainOf s.ref m }
/-- The part as a master's access finds it. -/
def State.counted (s : State) (m : Master) : State := { s with dev := domCount s m }

theorem State.counted_tb (s : State) (m : Master) (h : Half) : (s.counted m).dev.tb h = s.dev.tb h := by
  change (domCount s m).tb h = _
  obtain ⟨rs, hrs, -⟩ := domCount_eq s m
  rw [hrs]
  cases h <;> rfl
theorem State.counted_latched (s : State) (m : Master) : (s.counted m).dev.latched = s.dev.latched := by
  change (domCount s m).latched = _
  obtain ⟨rs, hrs, -⟩ := domCount_eq s m
  rw [hrs]

/-- A read of one register of a page through the bus. -/
theorem busRead_page {s : State} {x : Acc} {a p off i : Nat} {row : PageRow} (hrow : pageRowOf p = some (row, i)) (ho : off < 0x1000) (h4 : off % 4 = 0)
    (ha : a = 0x1000000000 + p * 4096 + off) :
    busRead s x a 4 = ⟨(List.range 4).map (fun i => BitVec.ofNat 8 ((regRead s x p off).1.toNat / 2 ^ (8 * i))), false, (regRead s x p off).2⟩ := by
  have hp : (a - pagesLo) / 4096 = p := by unfold pagesLo; omega
  have hoff : a % 4096 = off := by omega
  have ha4 : a % 4 = 0 := by omega
  have hgood : hostBad x.m a 4 = none := by
    unfold hostBad
    split
    · simp [ha4]
    · rfl
  unfold busRead
  dsimp only
  rw [if_pos (isPage_of_pageRowOf hrow ho ha), hgood, wordsOf_word ha4 (by simp)]
  simp only [List.foldl_cons, List.foldl_nil, hp, hoff]
  simp [List.range_succ]

/-- A master that can send and reaches a register reads its word. -/
theorem readWord_page {s : State} {m : Master} {a p off i : Nat} {row : PageRow} (hs : s.sends m = true) (hr : s.dev.reaches m a = true)
    (hrow : pageRowOf p = some (row, i)) (ho : off < 0x1000) (h4 : off % 4 = 0) (ha : a = 0x1000000000 + p * 4096 + off) :
    readWord s m a = { (regRead (s.counted m) (s.accOf m) p off).2 with readData := (regRead (s.counted m) (s.accOf m) p off).1 } := by
  have hgo : ¬ ((!s.sends m) = true ∨ (!s.dev.reaches m a) = true) := by simp [hs, hr]
  unfold readWord
  split
  · simp [Dev.reaches] at hr
  · rw [if_neg hgo]
    change { (match m with
      | .host h _ => if (busRead (s.counted m) (s.accOf m) a 4).ue then (busRead (s.counted m) (s.accOf m) a 4).dev.completerAbort s.ref h
          else (busRead (s.counted m) (s.accOf m) a 4).dev
      | _ => (busRead (s.counted m) (s.accOf m) a 4).dev) with readData := BitVec.ofNat 32 (leNat (busRead (s.counted m) (s.accOf m) a 4).bytes) } = _
    rw [busRead_page hrow ho h4 ha, leNat_word]
    split <;> rfl

/-! ### The words of a time base -/

/-- The page that shows the time base of a half, and its two words (R32). -/
theorem beamPage (h : Half) : ∃ row, pageRowOf (pageOf h.n .beam 0) = some (row, 0) ∧ pageOf h.n .beam 0 / 4096 = h.n ∧ row.block = .beam ∧
    (∃ lo, row.rowFor 0x920 = some lo ∧ lo.rc = 0) ∧ (∃ hi, row.rowFor 0x924 = some hi) := by
  cases h <;> exact ⟨_, rfl, rfl, rfl, ⟨_, rfl, rfl⟩, ⟨_, rfl⟩⟩

theorem upAt_half (r : Referee) (d : Dev) (h : Half) : upAt r d h.n = decide (r.hs h ≠ .off) := by cases h <;> rfl

/-- The low and the high word of the time base, as a read shows them. -/
theorem wordOf_tb {s : State} {x : Acc} {row : PageRow} {h : Half} {p i : Nat} (hp : p / 4096 = h.n) (hb : row.block = .beam) {lo hi : RegRow}
    (hlo : row.rowFor 0x920 = some lo) (hhi : row.rowFor 0x924 = some hi) :
    wordOf s x row p i 0x920 = BitVec.ofNat 32 (s.dev.tb h % 2 ^ 32) ∧ wordOf s x row p i 0x924 = BitVec.ofNat 32 (s.dev.tb h / 2 ^ 32) := by
  have hh : Half.ofRegion h.n = h := by cases h <;> rfl
  constructor
  · simp [wordOf, blockWord, hlo, hb, hp, hh]
  · simp [wordOf, blockWord, hhi, hb, hp, hh]

/-- A read of the low word shows it and latches the high word for its master. -/
theorem regRead_tbLow {s : State} {x : Acc} {h : Half} (hup : s.ref.hs h ≠ .off)
    (hfree : SMap.get (fun _ => none) s.dev.latched (latchKey (pageOf h.n .beam 0) 0x920 x.m) = none) :
    regRead s x (pageOf h.n .beam 0) 0x920 = (BitVec.ofNat 32 (s.dev.tb h % 2 ^ 32), { s.dev with
      latched := SMap.set (fun _ => none) s.dev.latched (latchKey (pageOf h.n .beam 0) 0x924 x.m) (some (BitVec.ofNat 32 (s.dev.tb h / 2 ^ 32))) }) := by
  obtain ⟨row, hrow, hp, hb, ⟨lo, hlo, hrc⟩, ⟨hi, hhi⟩⟩ := beamPage h
  obtain ⟨hwlo, hwhi⟩ := wordOf_tb (s := s) (x := x) (i := 0) hp hb hlo hhi
  have heffect : readEffect s x row (pageOf h.n .beam 0) 0 0x920 = s.dev := by simp [readEffect, hb, Dev.rcClear, hlo, hrc]
  have hhigh : highOf row 0 0x920 = some 0x924 := by simp [highOf, hb]
  unfold regRead
  rw [hrow]
  dsimp only
  rw [hp, upAt_half, decide_eq_true hup, hfree, heffect, hhigh, hwlo, ← hwhi]
  rfl

/-- A read of a register whose word is latched for the master returns the latched word and frees the latch. -/
theorem regRead_latched {s : State} {x : Acc} {p off i : Nat} {row : PageRow} {w : Word} (hrow : pageRowOf p = some (row, i))
    (hup : upAt s.ref s.dev (p / 4096) = true) (h4 : off % 4 = 0) (hheld : SMap.get (fun _ => none) s.dev.latched (latchKey p off x.m) = some w) :
    regRead s x p off = (w, { s.dev with latched := SMap.set (fun _ => none) s.dev.latched (latchKey p off x.m) none }) := by
  have hoff : off / 4 * 4 = off := by omega
  unfold regRead
  rw [hoff, hrow]
  dsimp only
  rw [hup, hheld]
  rfl

/-- A master's read of the low word. -/
theorem readWord_tbLow {s : State} {m : Master} {h : Half} {a : Nat} (hs : s.sends m = true) (hr : s.dev.reaches m a = true) (hup : s.ref.hs h ≠ .off)
    (hfree : SMap.get (fun _ => none) s.dev.latched (latchKey (pageOf h.n .beam 0) 0x920 m) = none)
    (ha : a = 0x1000000000 + pageOf h.n .beam 0 * 4096 + 0x920) :
    readWord s m a = { (s.counted m).dev with
      latched := SMap.set (fun _ => none) s.dev.latched (latchKey (pageOf h.n .beam 0) 0x924 m) (some (BitVec.ofNat 32 (s.dev.tb h / 2 ^ 32)))
      readData := BitVec.ofNat 32 (s.dev.tb h % 2 ^ 32) } := by
  obtain ⟨row, hrow, -⟩ := beamPage h
  rw [readWord_page hs hr hrow (by decide) (by decide) ha,
    regRead_tbLow (s := s.counted m) (x := s.accOf m) hup (by rw [State.counted_latched]; exact hfree), State.counted_tb, State.counted_latched]
  rfl

/-- A master's read of the high word while it is latched. -/
theorem readWord_tbHigh {s : State} {m : Master} {h : Half} {a : Nat} {w : Word} (hs : s.sends m = true) (hr : s.dev.reaches m a = true)
    (hup : s.ref.hs h ≠ .off) (hheld : SMap.get (fun _ => none) s.dev.latched (latchKey (pageOf h.n .beam 0) 0x924 m) = some w)
    (ha : a = 0x1000000000 + pageOf h.n .beam 0 * 4096 + 0x924) :
    readWord s m a = { (s.counted m).dev with
      latched := SMap.set (fun _ => none) s.dev.latched (latchKey (pageOf h.n .beam 0) 0x924 m) none, readData := w } := by
  obtain ⟨row, hrow, hp, -⟩ := beamPage h
  have hup' : upAt (s.counted m).ref (s.counted m).dev (pageOf h.n .beam 0 / 4096) = true := by
    rw [hp, upAt_half]
    exact decide_eq_true hup
  rw [readWord_page hs hr hrow (by decide) (by decide) ha,
    regRead_latched (s := s.counted m) (x := s.accOf m) hrow hup' (by decide) (by rw [State.counted_latched]; exact hheld), State.counted_latched]
  rfl

/-- A read of a time base leaves all but the latches, the value read and the count of an endpoint's domain errors. -/
def Dev.readKept (d e : Dev) : Prop :=
  { e with readData := 0, latched := [], regs := [] } = { d with readData := 0, latched := [], regs := [] } ∧ d.regsKept domErrKeys e

theorem Dev.readKept_counted (s : State) (m : Master) (ls : SMap (Option Word)) (w : Word) :
    s.dev.readKept { (s.counted m).dev with latched := ls, readData := w } := by
  change s.dev.readKept { domCount s m with latched := ls, readData := w }
  obtain ⟨rs, hrs, hkept⟩ := domCount_eq s m
  rw [hrs]
  exact ⟨rfl, hkept⟩

/-- What a master may send turns on the referee and on the service region's supply alone. -/
theorem State.sends_congr {s u : State} (hr : u.ref = s.ref) (hv : u.dev.svcUp = s.dev.svcUp) (m : Master) : u.sends m = s.sends m := by
  cases m <;> simp [State.sends, hr, hv]

/-! ### The time base of a core (R280) -/

theorem Kux.cw_setCw_same (k : Kux) (w v : Nat) : (k.setCw w v).cw w = v % 65536 := by simp [Kux.cw, Kux.setCw]
theorem Kux.cw_setCw_ne (k : Kux) {w w' : Nat} (v : Nat) (h : w' ≠ w) : (k.setCw w v).cw w' = k.cw w' := by
  simp [Kux.cw, Kux.setCw, SMap.get_set_ne _ _ h]

/-- A load of KTB0 puts the four parts of the time base in KTB0–KTB3. -/
theorem Dev.ktbLoad_cw (d : Dev) (r c : Nat) {j : Nat} (hj : j < 4) : ((d.ktbLoad r c).kx r c).cw (0x20 + j) = d.tbR r / 2 ^ (16 * j) % 2 ^ 16 := by
  unfold Dev.ktbLoad
  dsimp only
  rw [Dev.kx_setKx_same]
  interval_cases j <;> simp [Kux.cw_setCw_same, Kux.cw_setCw_ne]

theorem exec_ktbLoad {s : State} {r : Fin 3} {c : Fin 20} (hon : s.coreOn r c = true) :
    exec (.ktbLoad r c) s = .next { s with dev := { s.dev.ktbLoad r c with readData := BitVec.ofNat 32 (((s.dev.ktbLoad r c).kx r c).cw 0x20) } } := by
  unfold exec
  dsimp only
  unfold execKtbLoad onCtl
  rw [onDev_eq, if_pos hon]
  rfl

end Sys2Proof.Machine

open Sys2Proof Sys2Proof.Machine

/-- Settles O58: the read of the low word latches the high word for its master, the next read of the high word finds that latch, and a load of KTB0
copies the four parts at once. -/
theorem timeBaseReadsAreWhole : Obligations.TimeBaseReadsAreWhole := by
  unfold Obligations.TimeBaseReadsAreWhole
  dsimp only
  constructor
  · intro s h m a a' hs hr hup ha ha' hfree
    have hlow := readWord_tbLow hs hr hup hfree ha
    refine ⟨{ s with dev := readWord s m a.toNat }, rfl, rfl, rfl, ?_, ?_, ?_⟩
    · rw [hlow]
      simp
    · rw [hlow]
      exact Dev.readKept_counted s m _ _
    · intro u hlat href hsvc hr'
      have hheld : SMap.get (fun _ => none) u.dev.latched (latchKey (pageOf h.n .beam 0) 0x924 m) = some (BitVec.ofNat 32 (s.dev.tb h / 2 ^ 32)) := by
        rw [hlat, hlow]
        dsimp only
        rw [SMap.get_set_same]
      have hhigh := readWord_tbHigh (State.sends_congr href hsvc m ▸ hs) hr' (href ▸ hup) hheld (by omega)
      refine ⟨{ u with dev := readWord u m a'.toNat }, rfl, ?_, ?_⟩
      · rw [hhigh]
        simp
      · rw [hhigh]
        exact Dev.readKept_counted u m _ _
  · intro s r c hon
    refine ⟨_, exec_ktbLoad hon, rfl, rfl, ?_, fun j hj => Dev.ktbLoad_cw s.dev r c hj⟩
    have h0 := Dev.ktbLoad_cw s.dev r c (j := 0) (by decide)
    rw [Nat.add_zero] at h0
    dsimp only
    rw [h0]
    simp
    omega

end

section
/-!
SUPPORT. A commit request that is refused whole (R21, R488, R490): the pages of a group, what the refusal of pages changes, and the code of a group
that spans regions.
-/
namespace Sys2Proof.Machine

open Sys2Proof

/-! ### The pages of a region -/

theorem mem_pagesOf_div {q reg : Nat} (h : q ∈ pagesOf reg) : q / 4096 = reg := by
  have hrows : ∀ r ∈ pageRowsHalf ++ pageRowsOther, r.base + r.count ≤ 128 := by decide
  obtain ⟨row, hrow, hq⟩ := List.mem_flatMap.1 h
  obtain ⟨i, hi, rfl⟩ := List.mem_map.1 hq
  have hmem : row ∈ pageRowsHalf ++ pageRowsOther := by
    split at hrow
    · exact List.mem_append_left _ hrow
    · exact List.mem_append_right _ (List.mem_of_mem_filter hrow)
  have hbound := hrows row hmem
  have hi' := List.mem_range.1 hi
  omega

/-- A page of Table 25.4 is one of its region's pages. -/
theorem mem_pagesOf_of_pageRowOf {p i : Nat} {row : PageRow} (h : pageRowOf p = some (row, i)) : p ∈ pagesOf (p / 4096) := by
  have hother : ∀ r ∈ pageRowsOther, r.half = false := by decide
  obtain ⟨hmem, hreg, hlo, hhi, -⟩ := pageRowOf_some h
  refine List.mem_flatMap.2 ⟨row, ?_, List.mem_map.2 ⟨p % 4096 - row.base, List.mem_range.2 (by omega), by omega⟩⟩
  split at hmem
  · next hlt => rwa [if_pos hlt]
  · next hlt =>
    rw [hother row hmem, if_neg Bool.false_ne_true] at hreg
    rw [if_neg hlt]
    exact List.mem_filter.2 ⟨hmem, decide_eq_true hreg.symm⟩

/-! ### What leaves the sets of a page alone -/

/-- The shadow sets, and on every page the registers between its header and offset 0x800, where the shadowed registers lie, stay. -/
def Dev.setsKept (d e : Dev) : Prop :=
  e.shadow = d.shadow ∧ ∀ k, 0x40 ≤ k % 0x100000 → k % 0x100000 < 0x800 → SMap.get regReset e.regs k = SMap.get regReset d.regs k

theorem Dev.setsKept_refl (d : Dev) : d.setsKept d := ⟨rfl, fun _ _ _ => rfl⟩
theorem Dev.setsKept_trans {d e f : Dev} (h1 : d.setsKept e) (h2 : e.setsKept f) : d.setsKept f :=
  ⟨h2.1.trans h1.1, fun k h40 h800 => (h2.2 k h40 h800).trans (h1.2 k h40 h800)⟩
theorem Dev.setsKept_p (d : Dev) {l : Loc} {f : Fld} (v : Nat) (h : (l + f.off) % 0x100000 < 0x40 ∨ 0x800 ≤ (l + f.off) % 0x100000) : d.setsKept (d.p l f v) := by
  refine ⟨rfl, fun k h40 h800 => ?_⟩
  have hne : k ≠ l + f.off := by
    intro he
    rw [he] at h40 h800
    exact h.elim (Nat.not_lt.2 h40) (fun h => Nat.not_lt.2 h h800)
  exact SMap.get_set_ne _ _ hne
theorem Dev.setsKept_commit (d : Dev) (p : Nat) {f : Fld} (v : Nat) (h : f.off < 0x40) : d.setsKept (d.p (locOf p) f v) :=
  Dev.setsKept_p d v (.inl (by rw [locOf_add_mod p (by omega)]; exact h))
theorem Dev.setsKept_cfgErr (d : Dev) (p : Nat) : d.setsKept (d.cfgErr p) := by
  obtain ⟨hquiet, hregs⟩ := Dev.cfgErr_frame d p []
  refine ⟨(congrArg Dev.shadow hquiet : (d.cfgErr p).quiet.shadow = d.quiet.shadow), fun k h40 h800 => hregs k List.not_mem_nil ?_⟩
  simp only [evReg, Bool.or_eq_false_iff, Bool.and_eq_false_iff, decide_eq_false_iff_not]
  omega
theorem Dev.setsKept_foldl {α : Type} {f : Dev → α → Dev} (hf : ∀ (x : Dev) (a : α), x.setsKept (f x a)) (d : Dev) (xs : List α) : d.setsKept (xs.foldl f d) := by
  induction xs generalizing d with
  | nil => exact Dev.setsKept_refl d
  | cons a xs ih => exact Dev.setsKept_trans (hf d a) (ih (f d a))
theorem Dev.rd_of_setsKept {d e : Dev} (h : d.setsKept e) (p : Nat) {off : Nat} (h40 : 0x40 ≤ off) (h800 : off < 0x800) :
    e.rd (locOf p) off = d.rd (locOf p) off := by
  have hmod := locOf_add_mod p (show off < 0x100000 by omega)
  exact h.2 _ (hmod.symm ▸ h40) (hmod.symm ▸ h800)

/-! ### The fields of PG_COMMIT -/

theorem locOf_commit_ne {p q : Nat} (h : q ≠ p) {f g : Fld} (hf : f.off = 0x010) (hg : g.off = 0x010) : locOf q + g.off ≠ locOf p + f.off := by
  rw [hf, hg]
  unfold locOf Loc
  omega

/-- A page that is refused shows its code, and no page its request. -/
theorem Dev.refuse_result_same (d : Dev) (p : Nat) {c : Nat} (hc : c < 256) : (d.refuse p c).g (locOf p) PG_COMMIT.RESULT = c := by
  have hreg := (Dev.cfgErr_frame (d.p (locOf p) PG_COMMIT.RESULT c) p []).2 _ List.not_mem_nil (evReg_header p (off := 0x010) (by decide) (by decide) (by decide))
  have hg : (d.refuse p c).g (locOf p) PG_COMMIT.RESULT = (d.p (locOf p) PG_COMMIT.RESULT c).g (locOf p) PG_COMMIT.RESULT := congrArg (fget _) hreg
  rw [hg, Dev.g_p_same _ _ _ _ (by decide)]
  exact Nat.mod_eq_of_lt hc
theorem Dev.refuse_commit_ne (d : Dev) (p q c : Nat) {f : Fld} (hf : f.off = 0x010) (h : q ≠ p ∨ f.lo + f.w ≤ 16) :
    (d.refuse p c).g (locOf q) f = d.g (locOf q) f := by
  have hreg := (Dev.cfgErr_frame (d.p (locOf p) PG_COMMIT.RESULT c) p []).2 _ List.not_mem_nil
    (evReg_header q (off := f.off) (by omega) (by omega) (by omega))
  have hg : (d.refuse p c).g (locOf q) f = (d.p (locOf p) PG_COMMIT.RESULT c).g (locOf q) f := congrArg (fget f) hreg
  rw [hg]
  by_cases hq : q = p
  · subst hq
    exact Dev.g_p_disj d _ _ hf (by decide) (.inl (h.resolve_left (fun hne => hne rfl)))
  · exact Dev.g_p_ne d _ (locOf_commit_ne hq rfl hf)

/-- After its pages were refused each page of a list shows its code. -/
theorem Dev.foldl_refuse_result (code : Nat → Nat) (ps : List Nat) {q : Nat} (hc : code q < 256) (d : Dev)
    (hq : q ∈ ps ∨ d.g (locOf q) PG_COMMIT.RESULT = code q) :
    (ps.foldl (fun x p => x.refuse p (code p)) d).g (locOf q) PG_COMMIT.RESULT = code q := by
  induction ps generalizing d with
  | nil => exact hq.resolve_left List.not_mem_nil
  | cons p ps ih =>
    refine ih _ ?_
    by_cases hp : q = p
    · subst hp
      exact .inr (Dev.refuse_result_same d q hc)
    · refine hq.imp (fun hm => (List.mem_cons.1 hm).resolve_left hp) (fun hd => ?_)
      rw [Dev.refuse_commit_ne d p q _ rfl (.inl hp), hd]
theorem Dev.foldl_refuse_pending (code : Nat → Nat) (ps : List Nat) (q : Nat) (d : Dev) :
    (ps.foldl (fun x p => x.refuse p (code p)) d).armed q = d.armed q := by
  induction ps generalizing d with
  | nil => rfl
  | cons p ps ih =>
    rw [List.foldl_cons, ih]
    unfold Dev.armed Dev.on
    rw [Dev.refuse_commit_ne d p q _ rfl (.inr (by decide))]

/-- Withdrawing requests leaves those of a page withdrawn that were. -/
theorem Dev.foldl_withdrawn (ps : List Nat) {q : Nat} (d : Dev) (hq : q ∈ ps ∨ d.armed q = false) :
    (ps.foldl (fun x p => x.p (locOf p) PG_COMMIT.PENDING 0) d).armed q = false := by
  induction ps generalizing d with
  | nil => exact hq.resolve_left List.not_mem_nil
  | cons p ps ih =>
    refine ih _ ?_
    unfold Dev.armed Dev.on at hq ⊢
    by_cases hp : q = p
    · subst hp
      rw [Dev.g_p_same _ _ _ _ (by decide)]
      exact .inr rfl
    · rw [Dev.g_p_ne d _ (locOf_commit_ne hp rfl rfl)]
      exact hq.imp_left (fun hm => (List.mem_cons.1 hm).resolve_left hp)

/-! ### What a refusal tells the contexts (R126) -/

/-- GROUP_FAIL stands in the registers of contexts, beyond those of every page. -/
theorem cxL_refuse_off (h : Half) (k : Nat) : 0x1000 ≤ (cxL h (k / 32) (k % 32) + ROW_CSTAT.REFUSE.off) % 0x100000 := by
  have hk : k % 32 < 32 := Nat.mod_lt _ (by decide)
  unfold cxL ctxLocOf ROW_CSTAT.REFUSE Loc
  dsimp only
  omega
theorem Dev.tellContexts_setsKept (d : Dev) (ps : List Nat) : d.setsKept (d.tellContexts ps) := by
  unfold Dev.tellContexts
  split
  · exact Dev.setsKept_refl d
  · next p hp =>
    extract_lets h
    refine Dev.setsKept_foldl (fun x k => ?_) d _
    extract_lets l
    split
    · exact Dev.setsKept_p x _ (.inr (Nat.le_trans (by decide) (cxL_refuse_off h k)))
    · exact Dev.setsKept_refl x
theorem Dev.tellContexts_header (d : Dev) (ps : List Nat) (q : Nat) {f : Fld} (hf : f.off < 0x1000) :
    (d.tellContexts ps).g (locOf q) f = d.g (locOf q) f := by
  unfold Dev.tellContexts
  split
  · rfl
  · next p hp =>
    extract_lets h
    refine List.foldlRecOn (motive := fun x => Dev.g x (locOf q) f = d.g (locOf q) f) _ _ rfl (fun x hx k _ => ?_)
    extract_lets l
    split
    · refine (Dev.g_p_ne x _ (fun he => ?_)).trans hx
      have hoff := cxL_refuse_off h k
      rw [← he, locOf_add_mod q (by omega)] at hoff
      exact Nat.not_lt.2 hoff hf
    · exact hx

theorem Dev.refuseAll_setsKept (d : Dev) (ps : List Nat) (codes : Nat → List Nat) : d.setsKept (d.refuseAll ps codes) := by
  refine Dev.setsKept_trans (Dev.setsKept_foldl (fun x p => ?_) d ps) (Dev.tellContexts_setsKept _ ps)
  exact Dev.setsKept_trans (Dev.setsKept_commit x p _ (by decide)) (Dev.setsKept_cfgErr _ p)
theorem Dev.refuseAll_result (d : Dev) {ps : List Nat} (codes : Nat → List Nat) {q : Nat} (hq : q ∈ ps) {c : Nat} (hc : (codes q).min? = some c) (h256 : c < 256) :
    (d.refuseAll ps codes).g (locOf q) PG_COMMIT.RESULT = c := by
  have hcode : ((codes q).min?).getD 0x05 = c := by rw [hc, Option.getD_some]
  unfold Dev.refuseAll
  rw [Dev.tellContexts_header _ _ _ (by decide)]
  exact (Dev.foldl_refuse_result (fun p => (codes p).min?.getD 0x05) ps (hcode.symm ▸ h256) d (.inl hq)).trans hcode
theorem Dev.refuseAll_armed (d : Dev) (ps : List Nat) (codes : Nat → List Nat) (q : Nat) : (d.refuseAll ps codes).armed q = d.armed q := by
  rw [← Dev.foldl_refuse_pending (fun p => (codes p).min?.getD 0x05) ps q d]
  unfold Dev.armed Dev.on Dev.refuseAll
  rw [Dev.tellContexts_header _ ps q (by decide)]

/-! ### A group that spans regions (R21) -/

/-- A page of another region names the group of page `p`. -/
def Dev.spans (d : Dev) (p : Nat) : Prop := d.grp p ≠ 0 ∧ ∃ o q, o < 3 ∧ o ≠ p / 4096 ∧ q ∈ pagesOf o ∧ d.grp q = d.grp p

/-- No code is 0, so GROUP_REGION, which is 1, is the lowest a page of such a group refuses with. -/
theorem Dev.requestCodes_min {d : Dev} {r : Referee} {ps : List Nat} {p i : Nat} {row : PageRow} (hrow : pageRowOf p = some (row, i))
    (hno : row.noShadow = none) (hsp : d.spans p) : (Dev.requestCodes r d ps p).min? = some 1 := by
  obtain ⟨h0, o, q, ho, hne, hq, hgrp⟩ := hsp
  have hbc : 1 ≤ boundCode row.block := by cases row.block <;> decide
  have hany : (List.range 3).any (fun o => o ≠ p / 4096 && (pagesOf o).any (fun q => d.grp q = d.grp p)) = true :=
    List.any_eq_true.2 ⟨o, List.mem_range.2 ho, by simpa [hne] using ⟨q, hq, hgrp⟩⟩
  refine List.min?_eq_some_iff.2 ⟨?_, fun c hc => ?_⟩
  · unfold Dev.requestCodes
    rw [hrow]
    dsimp only
    rw [hno]
    dsimp only
    rw [if_pos ⟨h0, hany⟩]
    simp
  · unfold Dev.requestCodes at hc
    rw [hrow] at hc
    dsimp only at hc
    rw [hno] at hc
    dsimp only at hc
    simp only [List.mem_append, List.mem_ite_nil_left, List.mem_ite_nil_right, List.mem_singleton] at hc
    obtain (((((⟨-, rfl⟩ | ⟨-, rfl⟩) | ⟨-, rfl⟩) | ⟨-, hc⟩) | ⟨-, rfl⟩) | ⟨-, rfl⟩) | ⟨-, rfl⟩ := hc
    · decide
    · decide
    · exact hbc
    · split at hc
      · rw [List.mem_singleton.1 hc]
        decide
      · split at hc <;> rw [List.mem_singleton.1 hc] <;> decide
    · decide
    · decide
    · decide

/-- A request whose group spans regions is refused. -/
theorem Dev.request_spans {d : Dev} {r : Referee} {p i : Nat} {row : PageRow} (hrow : pageRowOf p = some (row, i)) (hno : row.noShadow = none)
    (ha : d.armed p = false) (hp : p ∈ d.members p) (hsp : d.spans p) :
    d.request r p = (((d.members p).foldl (fun x q => x.p (locOf q) PG_COMMIT.PENDING 0) d).refuseAll (d.members p) (Dev.requestCodes r d (d.members p))) := by
  have hcodes : Dev.requestCodes r d (d.members p) p ≠ [] := by
    intro he
    have hmin := Dev.requestCodes_min (r := r) (ps := d.members p) hrow hno hsp
    rw [he] at hmin
    cases hmin
  have hany : (d.members p).any (fun q => Dev.requestCodes r d (d.members p) q ≠ []) = true := List.any_eq_true.2 ⟨p, hp, decide_eq_true hcodes⟩
  unfold Dev.request
  dsimp only
  rw [ha, if_neg Bool.false_ne_true, if_pos hany]

/-! ### The group a request names (R488) -/

/-- A request gives the page its group and its boundary select. -/
def Dev.named (d : Dev) (p g b : Nat) : Dev := (d.p (locOf p) PG_COMMIT.GROUP g).p (locOf p) PG_COMMIT.BOUND b

theorem Dev.named_setsKept (d : Dev) (p g b : Nat) : d.setsKept (d.named p g b) :=
  Dev.setsKept_trans (Dev.setsKept_commit d p g (by decide)) (Dev.setsKept_commit _ p b (by decide))
theorem Dev.grp_named (d : Dev) (p b q : Nat) {g : Nat} (hg : g < 16) : (d.named p g b).grp q = if q = p then g else d.grp q := by
  unfold Dev.grp Dev.named
  split
  · next h =>
    rw [h, Dev.g_p_disj (f := PG_COMMIT.BOUND) (f' := PG_COMMIT.GROUP) _ _ _ rfl (by decide) (.inl (by decide)), Dev.g_p_same _ _ _ _ (by decide)]
    exact Nat.mod_eq_of_lt hg
  · next h => rw [Dev.g_p_ne _ _ (locOf_commit_ne h rfl rfl), Dev.g_p_ne _ _ (locOf_commit_ne h rfl rfl)]
theorem Dev.armed_named (d : Dev) (p g b : Nat) : (d.named p g b).armed p = d.armed p := by
  unfold Dev.armed Dev.on Dev.named
  rw [Dev.g_p_disj (f := PG_COMMIT.BOUND) (f' := PG_COMMIT.PENDING) _ _ _ rfl (by decide) (.inl (by decide)),
    Dev.g_p_disj (f := PG_COMMIT.GROUP) (f' := PG_COMMIT.PENDING) _ _ _ rfl (by decide) (.inl (by decide))]

/-- COMMIT_REQ names the group and then asks. -/
theorem Dev.commitWrite_req (d : Dev) (r : Referee) {p i : Nat} {row : PageRow} (hrow : pageRowOf p = some (row, i)) (hno : row.noShadow = none) (g b : Fin 16) :
    d.commitWrite r p (1 + g.val * 2 ^ 4 + b.val * 2 ^ 8) = (d.named p g.val b.val).request r p := by
  have hg : (1 + g.val * 2 ^ 4 + b.val * 2 ^ 8) / 2 ^ 4 % 16 = g.val := by omega
  have hb : (1 + g.val * 2 ^ 4 + b.val * 2 ^ 8) / 2 ^ 8 % 16 = b.val := by omega
  have hcancel : bit (1 + g.val * 2 ^ 4 + b.val * 2 ^ 8) 2 = false := by
    unfold bit
    rw [decide_eq_false_iff_not]
    omega
  have hreq : bit (1 + g.val * 2 ^ 4 + b.val * 2 ^ 8) 0 = true := by
    unfold bit
    rw [decide_eq_true_eq]
    omega
  unfold Dev.commitWrite Dev.named
  rw [hrow]
  dsimp only
  rw [hno, hg, hb, hcancel, hreq]
  simp only [Option.isSome_none, Bool.false_eq_true, if_false, if_true]

end Sys2Proof.Machine

open Sys2Proof Sys2Proof.Machine

/-- Settles O56: each page of the group refuses with GROUP_REGION, its lowest code, its request is withdrawn, and neither its sets nor its shadowed
registers change. -/
theorem commitGroupsStayInOneRegion : Obligations.CommitGroupsStayInOneRegion := by
  unfold Obligations.CommitGroupsStayInOneRegion
  intro s rg pg row i g b hrow hup hsole hno harmed hg0 ⟨o, q', ho, hne, hq', hgrp'⟩
  have hdiv : pageAt rg pg / 4096 = rg.val := pageAt_div rg pg
  generalize hp : pageAt rg pg = p at *
  have hexec : exec (.commitReq rg pg g b) s = .next { s with dev := ((s.dev.seq (locOf p)).named p g.val b.val).request s.ref p } := by
    rw [← Dev.commitWrite_req _ s.ref hrow hno, ← hp]
    exact onHeader_alone (by rw [hp, hrow]; rfl) hup hsole
  let d := (s.dev.seq (locOf p)).named p g.val b.val
  have hkept : s.dev.setsKept d := by
    refine Dev.setsKept_trans ?_ (Dev.named_setsKept _ p g.val b.val)
    rw [Dev.seq_locOf]
    exact Dev.setsKept_commit s.dev p _ (by decide)
  have hgrp (q : Nat) : d.grp q = if q = p then g.val else s.dev.grp q := by
    rw [Dev.grp_named _ p b.val q g.isLt, Dev.grp_seq]
  have hgp : d.grp p = g.val := by rw [hgrp, if_pos rfl]
  have hg : g.val ≠ 0 := fun h => hg0 (Fin.ext h)
  have hmem : d.members p = (pagesOf (p / 4096)).filter (fun q => d.grp q = d.grp p) := by
    unfold Dev.members
    rw [if_neg (by rw [hgp]; exact hg)]
  have hin : p ∈ d.members p := by
    rw [hmem]
    exact List.mem_filter.2 ⟨mem_pagesOf_of_pageRowOf hrow, decide_eq_true rfl⟩
  have hspans : ∀ q ∈ d.members p, d.spans q := by
    intro q hq
    rw [hmem] at hq
    obtain ⟨hqin, hqg⟩ := List.mem_filter.1 hq
    have hqg : d.grp q = g.val := (of_decide_eq_true hqg).trans hgp
    have hother : q' ≠ p := by
      rintro rfl
      exact hne ((mem_pagesOf_div hq').symm.trans hdiv)
    refine ⟨hqg ▸ hg, o, q', ho, ?_, hq', ?_⟩
    · rw [mem_pagesOf_div hqin, hdiv]
      exact hne
    · rw [hqg, hgrp, if_neg hother, hgrp']
  have harm : d.armed p = false := by
    rw [Dev.armed_named, Dev.armed_seq, harmed]
  have hreq := Dev.request_spans (r := s.ref) hrow hno harm hin (hspans p hin)
  have hall := Dev.setsKept_trans hkept (Dev.setsKept_trans
    (Dev.setsKept_foldl (fun x q => Dev.setsKept_commit x q 0 (f := PG_COMMIT.PENDING) (by decide)) d (d.members p))
    (Dev.refuseAll_setsKept _ (d.members p) (Dev.requestCodes s.ref d (d.members p))))
  refine ⟨_, hexec, rfl, rfl, ?_, hin, fun q hq row' i' hrow' hno' => ?_⟩
  · rw [hreq]
    exact hall.1
  · rw [hreq]
    exact ⟨Dev.refuseAll_result _ _ hq (Dev.requestCodes_min hrow' hno' (hspans q hq)) (by decide),
      (Dev.refuseAll_armed _ _ _ q).trans (Dev.foldl_withdrawn _ d (.inl hq)), fun off h40 h800 => Dev.rd_of_setsKept hall q h40 h800⟩

end

section
/-!
SUPPORT. What the referee's sequencer leaves of the referee when halves leave INIT (R211, R212) or rejoin (R220, R221): the half states, the epoch and
the rejoining half.
-/
namespace Sys2Proof.Machine

open Sys2Proof

/-! ### Half states -/

@[simp] theorem Referee.hs_setHs_same (r : Referee) (h : Half) (st : HalfState) : (r.setHs h st).hs h = st := by cases h <;> rfl
@[simp] theorem Referee.hs_setHs_peer (r : Referee) (h : Half) (st : HalfState) : (r.setHs h st).hs h.peer = r.hs h.peer := by cases h <;> rfl
@[simp] theorem Referee.epoch_setHs (r : Referee) (h : Half) (st : HalfState) : (r.setHs h st).epoch = r.epoch := by cases h <;> rfl
@[simp] theorem Referee.hs_setInit (r : Referee) (h k : Half) (b : Bool) : (r.setInit h b).hs k = r.hs k := by cases h <;> cases k <;> rfl
@[simp] theorem Referee.epoch_setInit (r : Referee) (h : Half) (b : Bool) : (r.setInit h b).epoch = r.epoch := by cases h <;> rfl
@[simp] theorem Referee.rjHalf_setInit (r : Referee) (h : Half) (b : Bool) : (r.setInit h b).rjHalf = r.rjHalf := by cases h <;> rfl

/-- A half that has completed INIT is in INIT. -/
theorem Referee.hs_of_ready {r : Referee} {h : Half} (hr : r.ready h = true) : r.hs h = .init := by
  unfold Referee.ready at hr
  exact of_decide_eq_true (Bool.and_eq_true_iff.1 hr).1
/-- A half in another state is not one that has completed INIT. -/
theorem Referee.ready_eq_false {r : Referee} {h : Half} (hs : r.hs h ≠ .init) : r.ready h = false := by
  cases hr : r.ready h with
  | false => rfl
  | true => exact absurd (Referee.hs_of_ready hr) hs

/-! ### What the sequencer's acts leave of the referee -/

/-- A pair of the referee and the devices, by its first part: the devices stay out of what a proof about the referee compares. -/
theorem RD.ref_mk (r : Referee) (d : Dev) : ((r, d) : RD).1 = r := rfl

@[simp] theorem RD.ref_ev (x : RD) (n : Nat) : (x.ev n).1 = x.1 := by
  unfold RD.ev
  exact RD.ref_mk _ _
@[simp] theorem RD.ref_start (x : RD) (h : Half) : (x.start h).1 = x.1 := by
  unfold RD.start
  exact RD.ref_mk _ _
@[simp] theorem RD.ref_started (x : RD) : x.started.1 = { x.1 with powerOn := false } := by
  unfold RD.started
  exact RD.ref_mk _ _
@[simp] theorem RD.ref_standby (x : RD) (h : Half) : (x.standby h).1 = x.1.setHs h .standby := by
  unfold RD.standby
  exact RD.ref_mk _ _
theorem RD.ref_charge (x : RD) (h : Half) :
    (x.charge h).1 = { (x.1.setHs h .charge).setFence h false with epoch := x.1.epoch + 1, inCharge := h } := by
  unfold RD.charge
  exact RD.ref_mk _ _
theorem RD.ref_quarantine {x : RD} {h : Half} (hs : x.1.hs h ≠ .off) : (x.quarantine h).1 = x.1.setHs h .quarantine := by
  unfold RD.quarantine
  rw [if_neg hs, RD.ref_ev]

theorem Referee.logPut_eq (r : Referee) (v : Vote) (e : Nat) : ∃ fl, r.logPut v e = { r with flog := fl } := by
  unfold Referee.logPut
  split
  · exact ⟨r.flog, rfl⟩
  · exact ⟨_, rfl⟩
/-- A vote and its end touch the log and REF_LASTDEC alone. -/
theorem RD.ref_vote (x : RD) (rep : Report) : ∃ n fl, (x.vote rep).2.1 = { x.1 with flogTotal := n, flog := fl } := by
  unfold RD.vote
  extract_lets v src r
  obtain ⟨fl, hfl⟩ := r.logPut_eq v (logEntry v none 0 0 r.epoch)
  refine ⟨(x.1.flogTotal + 1) % 2 ^ 32, fl, ?_⟩
  rw [RD.ref_ev, hfl]
theorem RD.ref_finish (x : RD) (v : Vote) (acc : Option Half) (rule outcome elapsed : Nat) :
    ∃ fl ld, (x.finish v acc rule outcome elapsed).1 = { x.1 with flog := fl, lastdec := ld } := by
  unfold RD.finish
  obtain ⟨fl, hfl⟩ := x.1.logPut_eq v (logEntry v acc rule outcome x.1.epoch)
  rw [RD.ref_mk, hfl]
  exact ⟨fl, _, rfl⟩

/-- A rejoin that fails leaves its half in QUARANTINE, and no half rejoins (R221). -/
theorem RD.ref_rejoinFail {x : RD} {h : Half} (hs : x.1.hs h ≠ .off) :
    (x.rejoinFail h).1.hs h = .quarantine ∧ (x.rejoinFail h).1.hs h.peer = x.1.hs h.peer ∧ (x.rejoinFail h).1.epoch = x.1.epoch ∧
      (x.rejoinFail h).1.rjHalf = none := by
  unfold RD.rejoinFail
  extract_lets v
  obtain ⟨n, fl, hv⟩ := x.ref_vote ⟨h, 0, 0, x.1.rjPhase, false, false⟩
  obtain ⟨fl', ld, hf⟩ := (v.2.rejoinEnd h).ref_finish v.1 (some h) 0 4 0
  have hv : v.2.1 = { x.1 with flogTotal := n, flog := fl } := hv
  rw [hf]
  unfold RD.rejoinEnd
  rw [RD.ref_ev, RD.ref_quarantine (by rw [hv]; cases h <;> exact hs), hv]
  cases h <;> exact ⟨rfl, rfl, rfl, rfl⟩

/-- Where no epoch is left both halves enter QUARANTINE and production stops (R212). -/
theorem RD.ref_endEpoch {x : RD} (hA : x.1.hsA ≠ .off) (hB : x.1.hsB ≠ .off) :
    x.endEpoch.1.hsA = .quarantine ∧ x.endEpoch.1.hsB = .quarantine ∧ x.endEpoch.1.epoch = x.1.epoch ∧ x.endEpoch.1.stopA = true ∧
      x.endEpoch.1.stopB = true := by
  unfold RD.endEpoch
  extract_lets v
  obtain ⟨n, fl, hv⟩ := x.ref_vote ⟨x.1.inCharge, 0x10, 0, 0, false, false⟩
  obtain ⟨fl', ld, hf⟩ := (((v.2.quarantine .A).quarantine .B).stop true true).ref_finish v.1 none 5 3 0
  have hv : v.2.1 = { x.1 with flogTotal := n, flog := fl } := hv
  have hqA : (v.2.quarantine .A).1 = v.2.1.setHs .A .quarantine := RD.ref_quarantine (by rw [hv]; exact hA)
  have hqB : ((v.2.quarantine .A).quarantine .B).1 = (v.2.1.setHs .A .quarantine).setHs .B .quarantine := by
    rw [RD.ref_quarantine (by rw [hqA, hv]; exact hB), hqA]
  rw [hf]
  unfold RD.stop
  rw [RD.ref_ev, hqB, hv]
  exact ⟨rfl, rfl, rfl, Bool.or_true _, Bool.or_true _⟩

/-! ### Leaving INIT (R211) -/

/-- At power-on the preferred half takes charge and its peer stands by. -/
theorem RD.ref_leaveInit_powerOn {x : RD} (hd : x.1.defaults = false) (hs : x.1.split = false) (hp : x.1.powerOn = true) (hA : x.1.ready .A = true)
    (hB : x.1.ready .B = true) (he : x.1.noEpoch = false) :
    x.leaveInit.1 = { (x.charge x.1.prefer).1.setHs x.1.prefer.peer .standby with powerOn := false } := by
  unfold RD.leaveInit
  simp only [hd, hs, hp, hA, hB, he, Bool.false_eq_true, if_false, if_true, Bool.and_self, Bool.not_true]
  rw [RD.ref_started, RD.ref_start, RD.ref_start, RD.ref_standby]

theorem RD.leaveInit_noEpoch {x : RD} (hd : x.1.defaults = false) (hs : x.1.split = false) (hp : x.1.powerOn = true) (hA : x.1.ready .A = true)
    (hB : x.1.ready .B = true) (he : x.1.noEpoch = true) : x.leaveInit = x.endEpoch := by
  unfold RD.leaveInit
  simp only [hd, hs, hp, hA, hB, he, Bool.false_eq_true, if_false, if_true, Bool.and_self, Bool.not_true]

/-- A half that is not ready stays as it is. -/
theorem RD.intoRejoin_still {x : RD} {h : Half} (hr : x.1.ready h = false) : x.intoRejoin h = x := by
  unfold RD.intoRejoin
  rw [hr]
  rfl
/-- A half that is ready, beside a peer in charge and a referee at rest, begins COPY. -/
theorem RD.ref_intoRejoin {x : RD} {h : Half} (hr : x.1.ready h = true) (hc : x.1.hs h.peer = .charge) (ha : x.1.act = .idle) :
    (x.intoRejoin h).1 = { x.1.setHs h .rejoining with rjHalf := some h, rjPhase := 1, rjCtxs := [], rjEqual := [] } := by
  unfold RD.intoRejoin
  simp only [hr, hc, ha, Bool.not_true, Bool.false_eq_true, if_false, ne_eq, not_true_eq_false]

/-- After a half reset it is the half that is ready which begins COPY. -/
theorem RD.ref_leaveInit_rejoin {x : RD} {h : Half} (hd : x.1.defaults = false) (hs : x.1.split = false) (hp : x.1.powerOn = false)
    (hr : x.1.ready h = true) (hc : x.1.hs h.peer = .charge) (ha : x.1.act = .idle) :
    x.leaveInit.1 = { x.1.setHs h .rejoining with rjHalf := some h, rjPhase := 1, rjCtxs := [], rjEqual := [] } := by
  unfold RD.leaveInit
  simp only [hd, hs, hp, Bool.false_eq_true, if_false]
  cases h with
  | A =>
    have hB : (x.intoRejoin .A).1.ready .B = false := by
      rw [RD.ref_intoRejoin hr hc ha]
      exact Referee.ready_eq_false (fun he => nomatch hc.symm.trans he)
    rw [RD.intoRejoin_still hB, RD.ref_intoRejoin hr hc ha]
  | B => rw [RD.intoRejoin_still (h := .A) (Referee.ready_eq_false (fun he => nomatch hc.symm.trans he)), RD.ref_intoRejoin hr hc ha]

/-- In split operation a half that is ready enters SPLIT with the next epoch. -/
theorem RD.ref_intoSplit {x : RD} {h : Half} (hr : x.1.ready h = true) (he : x.1.noEpoch = false) :
    ∃ rj, (x.intoSplit h).1 = { (x.1.setHs h .split).setFence h false with epoch := x.1.epoch + 1, rjHalf := rj, powerOn := false } := by
  unfold RD.intoSplit
  simp only [hr, he, Bool.not_true, Bool.false_eq_true, if_false]
  exact ⟨_, rfl⟩

theorem RD.ref_leaveInit_split {x : RD} (hd : x.1.defaults = false) (hs : x.1.split = true) (hA : x.1.ready .A = true) (hB : x.1.ready .B = true)
    (he : x.1.epoch + 1 < 0xFFFFFFFF) : x.leaveInit.1.hsA = .split ∧ x.leaveInit.1.hsB = .split ∧ x.leaveInit.1.epoch = x.1.epoch + 2 := by
  have hone : x.1.noEpoch = false := decide_eq_false (by omega)
  obtain ⟨rj, hxA⟩ := RD.ref_intoSplit hA hone
  have hBA : (x.intoSplit .A).1.ready .B = true := by
    rw [hxA]
    exact hB
  have honeA : (x.intoSplit .A).1.noEpoch = false := by
    rw [hxA]
    exact decide_eq_false (Nat.not_le.2 he)
  obtain ⟨rj', hxB⟩ := RD.ref_intoSplit hBA honeA
  unfold RD.leaveInit
  simp only [hd, hs, Bool.false_eq_true, if_false, if_true]
  rw [hxB, hxA]
  exact ⟨rfl, rfl, rfl⟩

/-- At power-on a half whose peer is late takes charge. -/
theorem RD.ref_initTimeout_powerOn {x : RD} {h : Half} (hd : x.1.defaults = false) (hs : x.1.split = false) (hp : x.1.powerOn = true)
    (hr : x.1.ready h = false) (hi : x.1.hs h = .init) (hpeer : x.1.ready h.peer = true) (he : x.1.noEpoch = false) :
    (x.initTimeout h).1 = { (x.charge h.peer).1.setHs h .quarantine with powerOn := false } := by
  have hq : (x.charge h.peer).1.hs h ≠ .off := by
    rw [RD.ref_charge]
    intro hoff
    have : x.1.hs h = .off := by cases h <;> exact hoff
    rw [hi] at this
    cases this
  unfold RD.initTimeout
  simp only [hd, hs, hp, hr, hi, hpeer, he, Bool.or_self, Bool.false_eq_true, if_false, if_true, Bool.not_true, Bool.not_false, Bool.and_self, decide_true, Bool.true_or]
  rw [RD.ref_started, RD.ref_start, RD.ref_quarantine hq]

/-- Later a half that is late enters QUARANTINE. -/
theorem RD.ref_initTimeout_late {x : RD} {h : Half} (hd : x.1.defaults = false) (hp : x.1.powerOn = false) (hr : x.1.ready h = false)
    (hi : x.1.hs h = .init) (hj : x.1.rjHalf ≠ some h) : (x.initTimeout h).1 = x.1.setHs h .quarantine := by
  unfold RD.initTimeout
  simp only [hd, hp, hr, hi, hj, Bool.or_self, Bool.false_eq_true, if_false, Bool.and_false, ne_eq, not_true_eq_false]
  exact RD.ref_quarantine (by rw [hi]; decide)

/-! ### A half is reset and loaded to rejoin (R220, R221) -/

@[simp] theorem Boot.ref_memOps (x : Boot) (ops : List MemOp) : (x.memOps ops).1 = x.1 := rfl
@[simp] theorem Boot.ref_ref (x : Boot) (f : Referee → Referee) : (x.ref f).1 = f x.1 := rfl
@[simp] theorem Boot.ref_rd (x : Boot) (f : RD → RD) : (x.rd f).1 = (f (x.1, x.2.dev)).1 := rfl
@[simp] theorem Boot.ref_wipe (x : Boot) (rg : Nat) (dram : Bool) : (x.wipe rg dram).1 = x.1 := by
  unfold Boot.wipe
  rw [Boot.ref_memOps, Boot.ref_dev]
@[simp] theorem Boot.ref_releaseHalf (x : Boot) (h : Half) (tb : Nat) (tr : Train) (fill : Bool) :
    (x.releaseHalf h tb tr fill).1 = (x.1.setHs h .init).setInit h false := by
  unfold Boot.releaseHalf
  rw [Boot.ref_ref, Boot.ref_dev]
@[simp] theorem Boot.ref_takeDefaults (x : Boot) : x.takeDefaults.1 = { x.1 with defaults := true } := by
  unfold Boot.takeDefaults
  rw [Boot.ref_dev, Boot.ref_ref]

/-- Half `h` stands in INIT to rejoin, or its rejoin has failed and it stands in QUARANTINE; the epoch and its peer's state are those of `r`. -/
def Referee.rejoins (r : Referee) (h : Half) (r' : Referee) : Prop :=
  r'.epoch = r.epoch ∧ r'.hs h.peer = r.hs h.peer ∧ ((r'.hs h = .init ∧ r'.rjHalf = some h) ∨ (r'.hs h = .quarantine ∧ r'.rjHalf = none))

/-- The load of a half that was reset ends in INIT or, where it fails, in REJOIN_FAIL (R467). -/
theorem Boot.loadHalf_rejoins {r : Referee} {x : Boot} {h : Half} (hep : x.1.epoch = r.epoch) (hpeer : x.1.hs h.peer = r.hs h.peer) (hi : x.1.hs h = .init)
    (hj : x.1.rjHalf = some h) : r.rejoins h (x.loadHalf h).1 := by
  unfold Boot.loadHalf
  split
  · exact ⟨hep, hpeer, .inl ⟨hi, hj⟩⟩
  · extract_lets ld y
    have hy : y.1 = x.1.setInit h (ld.1.isSome && ld.2.2.dev.dramReady h) := by
      rw [← Boot.ref_load x h.n]
      rfl
    have hyi : y.1.hs h = .init := by rw [hy, Referee.hs_setInit, hi]
    have hyp : y.1.hs h.peer = r.hs h.peer := by rw [hy, Referee.hs_setInit, hpeer]
    have hye : y.1.epoch = r.epoch := by rw [hy, Referee.epoch_setInit, hep]
    have hyj : y.1.rjHalf = some h := by rw [hy, Referee.rjHalf_setInit, hj]
    split
    · exact ⟨hye, hyp, .inl ⟨hyi, hyj⟩⟩
    · split
      · rw [Boot.ref_takeDefaults]
        exact ⟨hye, by cases h <;> exact hyp, .inl ⟨by cases h <;> exact hyi, hyj⟩⟩
      · rw [Boot.ref_rd]
        obtain ⟨hfs, hfp, hfe, hfj⟩ := RD.ref_rejoinFail (x := (y.1, y.2.dev)) (h := h) (by rw [hyi]; decide)
        exact ⟨hfe.trans hye, hfp.trans hyp, .inr ⟨hfs, hfj⟩⟩

theorem Referee.closeSess_eq (r : Referee) (ep : Half) : ∃ se, r.closeSess ep = { r with session := se } := by
  unfold Referee.closeSess
  split
  · exact ⟨none, rfl⟩
  · exact ⟨r.session, rfl⟩

theorem Boot.rejoin_rejoins (x : Boot) (h : Half) (elapsed : Nat) (tr : Train) : x.1.rejoins h (x.rejoin h elapsed tr).1 := by
  unfold Boot.rejoin Boot.dropSession
  extract_lets tb y
  obtain ⟨se, hse⟩ := x.1.closeSess_eq h
  have hy : y.1 = (Referee.setHs { x.1 with session := se, rjHalf := some h, rjPhase := 0, rjCtxs := [], rjEqual := [] } h .init).setInit h false := by
    change (Boot.releaseHalf _ h tb tr false).1 = _
    rw [Boot.ref_releaseHalf, Boot.ref_ref, Boot.ref_dev, Boot.ref_wipe, Boot.ref_ref, hse]
  refine Boot.loadHalf_rejoins ?_ ?_ ?_ ?_ <;> rw [hy] <;> cases h <;> rfl

theorem onBoot_eq (f : Boot → Boot) (s : State) :
    onBoot f s = .next { s with ref := (f (s.ref, s.run)).1, mem := s.mem.applyAll (f (s.ref, s.run)).2.ops, dev := (f (s.ref, s.run)).2.dev } := rfl

end Sys2Proof.Machine
end

section
/-!
SUPPORT. What COPY hands over of the ports of a half (R221 step 3): the next frame a port awaits, its unacknowledged frames, its sequence number and its
credits; and that what follows COPY leaves them and the harness alone.
-/
namespace Sys2Proof.Machine

open Sys2Proof

/-! ### The state of a port that is handed over -/

/-- A register at the offset of RLK_SEQ or RLK_CREDIT in its page. -/
def seqReg (k : Nat) : Prop := k % 0x100000 = 0x810 ∨ k % 0x100000 = 0x814

theorem not_seqReg {l : Loc} {o : Nat} (hl : l % 0x100000 = 0) (ho : o < 0x100000) (hne : o ≠ 0x810 ∧ o ≠ 0x814) : ¬ seqReg (l + o) := by
  unfold seqReg Loc at *
  omega
theorem seqReg_evReg {k : Nat} (h : seqReg k) : evReg k = false := by
  unfold seqReg at h
  simp only [evReg, Bool.or_eq_false_iff, Bool.and_eq_false_iff, decide_eq_false_iff_not]
  omega

/-- What STATE hands over of a port. -/
def Dev.linkOf (d : Dev) (h : Half) (p : Nat) : Nat × List Frame × Word × Word :=
  ((d.port h p).rxNext, (d.port h p).unack, d.rd (rlkL h p) 0x810, d.rd (rlkL h p) 0x814)

/-- The harness and what STATE hands over of the ports stay; and no word of memory becomes uncorrectable. -/
def Dev.linksKept (d e : Dev) : Prop :=
  e.harness = d.harness ∧ (∀ h p, (e.port h p).rxNext = (d.port h p).rxNext ∧ (e.port h p).unack = (d.port h p).unack) ∧
    (∀ k, seqReg k → SMap.get regReset e.regs k = SMap.get regReset d.regs k) ∧ (d.ueLines = [] → e.ueLines = [])

theorem Dev.linksKept_refl (d : Dev) : d.linksKept d := ⟨rfl, fun _ _ => ⟨rfl, rfl⟩, fun _ _ => rfl, id⟩
theorem Dev.linksKept_trans {d e f : Dev} (h1 : d.linksKept e) (h2 : e.linksKept f) : d.linksKept f := by
  obtain ⟨hh, hp, hr, hu⟩ := h1
  obtain ⟨hh', hp', hr', hu'⟩ := h2
  exact ⟨hh'.trans hh, fun h p => ⟨(hp' h p).1.trans (hp h p).1, (hp' h p).2.trans (hp h p).2⟩, fun k hk => (hr' k hk).trans (hr k hk), fun h0 => hu' (hu h0)⟩
theorem Dev.linksKept_foldl {α : Type} {f : Dev → α → Dev} (hf : ∀ (x : Dev) (a : α), x.linksKept (f x a)) (d : Dev) (xs : List α) :
    d.linksKept (xs.foldl f d) := by
  induction xs generalizing d with
  | nil => exact Dev.linksKept_refl d
  | cons a xs ih => exact Dev.linksKept_trans (hf d a) (ih (f d a))
theorem Dev.linksKept_of_same {d e : Dev} (hh : e.harness = d.harness) (hp : e.ports = d.ports) (hr : e.regs = d.regs) (hu : d.ueLines = [] → e.ueLines = []) :
    d.linksKept e := by
  refine ⟨hh, fun h p => ?_, fun k _ => by rw [hr], hu⟩
  unfold Dev.port
  rw [hp]
  exact ⟨rfl, rfl⟩
theorem Dev.linksKept_wr (d : Dev) {l : Loc} {o : Nat} (w : Word) (ho : ¬ seqReg (l + o)) : d.linksKept (d.wr l o w) := by
  refine ⟨rfl, fun _ _ => ⟨rfl, rfl⟩, fun k hk => ?_, id⟩
  have hne : k ≠ l + o := by
    rintro rfl
    exact ho hk
  exact SMap.get_set_ne _ _ hne
theorem Dev.linksKept_p (d : Dev) {l : Loc} {f : Fld} (v : Nat) (ho : ¬ seqReg (l + f.off)) : d.linksKept (d.p l f v) := Dev.linksKept_wr d _ ho
theorem Dev.linksKept_of_onlyRegs {ks : List Nat} {d e : Dev} (h : d.onlyRegs ks e) (hks : ∀ k ∈ ks, ¬ seqReg k) : d.linksKept e := by
  obtain ⟨hq, hr⟩ := h
  have hh : e.harness = d.harness := (congrArg Dev.harness hq : e.quiet.harness = d.quiet.harness)
  have hp : e.ports = d.ports := (congrArg Dev.ports hq : e.quiet.ports = d.quiet.ports)
  have hu : e.ueLines = d.ueLines := (congrArg Dev.ueLines hq : e.quiet.ueLines = d.quiet.ueLines)
  refine ⟨hh, fun h p => ?_, fun k hk => hr k (fun hin => hks k hin hk) (seqReg_evReg hk), fun h0 => hu.trans h0⟩
  unfold Dev.port
  rw [hp]
  exact ⟨rfl, rfl⟩
theorem Dev.linksKept_modPort (d : Dev) (h : Half) (p : Nat) {f : Port → Port} (hf : ∀ y, (f y).rxNext = y.rxNext ∧ (f y).unack = y.unack) :
    d.linksKept (d.modPort h p f) := by
  refine ⟨rfl, fun h' p' => ?_, fun _ _ => rfl, id⟩
  unfold Dev.modPort Dev.port
  rw [SMap.get_modify]
  split
  · next he =>
    rw [he]
    exact hf _
  · exact ⟨rfl, rfl⟩

theorem Dev.linkOf_of_linksKept {d e : Dev} (h : d.linksKept e) (k : Half) (p : Nat) : e.linkOf k p = d.linkOf k p := by
  obtain ⟨_, hp, hr, _⟩ := h
  have hoff : ∀ o, (o = 0x810 ∨ o = 0x814) → e.rd (rlkL k p) o = d.rd (rlkL k p) o := by
    intro o ho
    refine hr _ ?_
    unfold seqReg
    rw [show rlkL k p = locOf (pageOf k.n .rlk p) from rfl, locOf_add_mod _ (by omega)]
    exact ho
  unfold Dev.linkOf
  rw [(hp k p).1, (hp k p).2, hoff 0x810 (.inl rfl), hoff 0x814 (.inr rfl)]
theorem Dev.harn_of_linksKept {d e : Dev} (h : d.linksKept e) (k : Half) : e.harn k = d.harn k := by
  unfold Dev.harn
  rw [h.1]

/-! ### What leaves the ports' state alone -/

theorem Dev.linksKept_startCore (d : Dev) (rg c : Nat) : d.linksKept (d.startCore rg c) :=
  Dev.linksKept_trans (Dev.linksKept_of_same rfl rfl rfl id) (Dev.linksKept_p (d.setKx rg c _) _ (not_seqReg (rLoc_page rg .kxc c) (by decide) (by decide)))
theorem Dev.linksKept_enterTraining (d : Dev) (h : Half) (p : Nat) : d.linksKept (d.enterTraining h p) := by
  have hstate : ¬ seqReg (rlkL h p + RLK_STAT.STATE.off) := not_seqReg (hLoc_page h .rlk p) (by decide) (by decide)
  have hlocked : ¬ seqReg (rlkL h p + RLK_STAT.LOCKED.off) := not_seqReg (hLoc_page h .rlk p) (by decide) (by decide)
  unfold Dev.enterTraining
  refine Dev.linksKept_trans (Dev.linksKept_trans (Dev.linksKept_p d psTraining hstate) (Dev.linksKept_p _ 0 hlocked)) ?_
  exact Dev.linksKept_modPort _ h p (fun _ => ⟨rfl, rfl⟩)
/-- The cores and ports of a half start (Table 23.6 step 9). -/
theorem Dev.linksKept_startHalf (d : Dev) (h : Half) : d.linksKept (d.startHalf h) := by
  unfold Dev.startHalf
  extract_lets d1
  refine Dev.linksKept_trans (Dev.linksKept_foldl (fun x c => Dev.linksKept_startCore x h.n c) d _) (Dev.linksKept_foldl (fun x p => ?_) d1 _)
  split
  · exact Dev.linksKept_enterTraining x h p
  · exact Dev.linksKept_refl x

theorem Dev.linksKept_dirtied (d : Dev) (a n : Nat) : d.linksKept (d.dirtied a n) := by
  unfold Dev.dirtied
  extract_lets k on
  split
  · exact Dev.linksKept_refl d
  · exact Dev.linksKept_of_same rfl rfl rfl id
theorem Dev.linksKept_violation (d : Dev) (reg page off dom : Nat) (decode : Bool) : d.linksKept (d.violation reg page off dom decode) := by
  refine Dev.linksKept_of_onlyRegs (Dev.violation_frame d reg page off dom decode) (fun k hk => ?_)
  rcases List.mem_cons.1 hk with rfl | hk
  · exact not_seqReg (rLoc_page reg .evc 0) (by decide) (by decide)
  · rw [List.mem_singleton.1 hk]
    exact not_seqReg (rLoc_page reg .evc 0) (by decide) (by decide)
/-- A store where no word is uncorrectable. -/
theorem Dev.linksKept_storeAt {d : Dev} (hue : d.ueLines = []) (walker : Half) (dom a : Nat) (bs : List Byte) : d.linksKept (d.storeAt walker dom a bs).2 := by
  unfold Dev.storeAt
  extract_lets n covered part ops late d0 d1
  have hpart : part = [] := by
    change List.filter _ d.ueLines = []
    rw [hue]
    rfl
  have h0 : d.linksKept d0 := by
    unfold d0
    split
    · exact Dev.linksKept_violation d _ _ _ _ _
    · exact Dev.linksKept_refl d
  have h1 : d0.linksKept d1 := by
    refine Dev.linksKept_of_same rfl rfl rfl (fun _ => ?_)
    change List.filter _ d.ueLines = []
    rw [hue]
    rfl
  split
  · exact Dev.linksKept_refl d
  · rw [hpart]
    exact Dev.linksKept_trans h0 (Dev.linksKept_trans h1 (Dev.linksKept_dirtied d1 a n))
theorem Dev.linksKept_storeMem {d : Dev} (hue : d.ueLines = []) (r : Referee) (walker : Half) (dom a : Nat) (bs : List Byte) :
    d.linksKept (storeMem r d walker dom a bs).2 := by
  unfold storeMem
  split
  · exact Dev.linksKept_of_same rfl rfl rfl id
  · refine List.foldlRecOn (motive := fun x : List MemOp × Dev => d.linksKept x.2) _ _ (Dev.linksKept_refl d) (fun x hx t _ => ?_)
    exact Dev.linksKept_trans hx (Dev.linksKept_storeAt (hx.2.2.2 hue) walker dom t bs)

theorem Dev.linksKept_ptab (d : Dev) (m : SMap Nat) : d.linksKept { d with ptab := m } := Dev.linksKept_of_same rfl rfl rfl id
theorem Dev.linksKept_nvhStore {x : List MemOp × Dev} (hue : x.2.ueLines = []) (r : Referee) (h : Half) (a : Nat) (bs : List Byte) :
    x.2.linksKept (Dev.nvhStore x r h a bs).2 := by
  unfold Dev.nvhStore
  dsimp only
  exact Dev.linksKept_storeMem hue r h (h.n + 1) a bs
theorem Dev.linksKept_setPte {x : List MemOp × Dev} (hue : x.2.ueLines = []) (r : Referee) (h : Half) (g e : Nat) : x.2.linksKept (Dev.setPte x r h g e).2 := by
  unfold Dev.setPte
  split
  · exact Dev.linksKept_refl x.2
  · have hy := Dev.linksKept_nvhStore hue r h (x.2.pteAddr h g) (toBytes e 16)
    generalize Dev.nvhStore x r h (x.2.pteAddr h g) (toBytes e 16) = y at hy ⊢
    dsimp only
    exact Dev.linksKept_trans hy (Dev.linksKept_ptab y.2 _)
theorem Dev.linksKept_modNvh (d : Dev) (h : Half) (f : Nvh → Nvh) : d.linksKept (d.modNvh h f) := Dev.linksKept_of_same rfl rfl rfl id
theorem Dev.linksKept_queueLoad (d : Dev) (h : Half) (g t : Nat) : d.linksKept (d.queueLoad h g t) := by
  unfold Dev.queueLoad
  extract_lets x
  split
  · exact Dev.linksKept_modNvh d h _
  · split
    · exact Dev.linksKept_modNvh d h _
    · rw [Dev.sat_eq]
      exact Dev.linksKept_p d _ (not_seqReg (hLoc_page h .nvh 0) (by decide) (by decide))
/-- The entries that the rejoining half takes as ABSENT (R352). -/
theorem Dev.linksKept_dropLoading {d : Dev} (hue : d.ueLines = []) (r : Referee) (x : Half) : d.linksKept (d.dropLoading r x).2 := by
  unfold Dev.dropLoading
  refine List.foldlRecOn (motive := fun y : List MemOp × Dev => d.linksKept y.2) _ _ (Dev.linksKept_refl d) (fun y hy e _ => ?_)
  extract_lets g t
  have hq := Dev.linksKept_trans hy (Dev.linksKept_queueLoad y.2 x g t)
  exact Dev.linksKept_trans hq (Dev.linksKept_setPte (x := (y.1, y.2.queueLoad x g t)) (hq.2.2.2 hue) r x g _)

/-! ### The copy of registers from one half to the other -/

/-- A mirrored map reads as before at every key that is not selected of the unit that takes over. -/
theorem get_mirrorKeys {α : Type} [DecidableEq α] (dflt : Nat → α) (m : SMap α) {size : Nat} (hsz : 0 < size) (p x : Nat) (sel : Nat → Bool) {k : Nat}
    (hk : k / size = x → sel (k % size) = false) : SMap.get dflt (mirrorKeys dflt m size p x sel) k = SMap.get dflt m k := by
  have herase : SMap.get dflt (SMap.erase (fun k => k / size = x && sel (k % size)) m) k = SMap.get dflt m k := by
    rw [SMap.get_erase, if_neg]
    intro h
    obtain ⟨hx, hs⟩ := Bool.and_eq_true_iff.1 h
    rw [hk (of_decide_eq_true hx)] at hs
    cases hs
  have hset : ∀ es : List (Nat × α), (∀ e ∈ es, sel (e.1 % size) = true) → ∀ m' : SMap α,
      SMap.get dflt (es.foldr (fun e y => SMap.set dflt y (x * size + e.1 % size) e.2) m') k = SMap.get dflt m' k := by
    intro es hes m'
    induction es with
    | nil => rfl
    | cons e es ih =>
      have hne : k ≠ x * size + e.1 % size := by
        rintro rfl
        have hdiv : (x * size + e.1 % size) / size = x := by
          rw [Nat.add_comm, Nat.add_mul_div_right _ _ hsz, Nat.div_eq_of_lt (Nat.mod_lt _ hsz), Nat.zero_add]
        have hmod : (x * size + e.1 % size) % size = e.1 % size := by
          rw [Nat.add_comm, Nat.add_mul_mod_self_right, Nat.mod_mod]
        have hsel := hk hdiv
        rw [hmod, hes e List.mem_cons_self] at hsel
        cases hsel
      rw [List.foldr_cons, SMap.get_set_ne _ _ hne]
      exact ih (fun e he => hes e (List.mem_cons_of_mem _ he))
  unfold mirrorKeys
  rw [hset _ (fun e he => (Bool.and_eq_true_iff.1 (List.mem_filter.1 he).2).2), herase]

/-- A copy of register sets that leaves out RLK_SEQ and RLK_CREDIT. -/
theorem Dev.linksKept_copySets (d : Dev) (x : Half) {sel : Nat → Bool} (hsel : ∀ q, seqReg q → sel q = false) : d.linksKept (d.copySets x sel) := by
  refine ⟨rfl, fun _ _ => ⟨rfl, rfl⟩, fun k hk => ?_, id⟩
  refine get_mirrorKeys regReset d.regs (by decide) x.peer.n x.n sel (fun _ => hsel _ ?_)
  unfold seqReg at hk ⊢
  omega

/-- Words copied one by one from page `l'` to page `l`. -/
def Dev.copyWords (d : Dev) (l l' : Loc) (offs : List Nat) : Dev := offs.foldl (fun y off => y.wr l off (y.rd l' off)) d

theorem Dev.rd_copyWords_ne (d : Dev) (l l' : Loc) {m : Loc} {o : Nat} (offs : List Nat) (h : ∀ off ∈ offs, m + o ≠ l + off) :
    (d.copyWords l l' offs).rd m o = d.rd m o := by
  unfold Dev.copyWords
  induction offs generalizing d with
  | nil => rfl
  | cons a offs ih =>
    rw [List.foldl_cons, ih _ (fun off ho => h off (List.mem_cons_of_mem _ ho))]
    exact Dev.rd_wr_ne d _ (h a List.mem_cons_self)
theorem Dev.rd_copyWords_same (d : Dev) {l l' : Loc} {o : Nat} (offs : List Nat) (ho : o ∈ offs) (h : ∀ off ∈ offs, l' + o ≠ l + off) :
    (d.copyWords l l' offs).rd l o = d.rd l' o := by
  induction offs generalizing d with
  | nil => cases ho
  | cons a offs ih =>
    by_cases hin : o ∈ offs
    · refine (ih _ hin (fun off hoff => h off (List.mem_cons_of_mem _ hoff))).trans ?_
      exact Dev.rd_wr_ne d _ (h a List.mem_cons_self)
    · obtain rfl : o = a := (List.mem_cons.1 ho).resolve_right hin
      refine (Dev.rd_copyWords_ne _ l l' offs (fun off hoff he => hin ?_)).trans (Dev.rd_wr_same d l o _)
      rwa [Nat.add_left_cancel he]
theorem Dev.copyWords_harness (d : Dev) (l l' : Loc) (offs : List Nat) : (d.copyWords l l' offs).harness = d.harness := by
  unfold Dev.copyWords
  exact List.foldlRecOn (motive := fun x : Dev => x.harness = d.harness) _ _ rfl (fun x hx _ _ => hx)
theorem Dev.copyWords_ports (d : Dev) (l l' : Loc) (offs : List Nat) : (d.copyWords l l' offs).ports = d.ports := by
  unfold Dev.copyWords
  exact List.foldlRecOn (motive := fun x : Dev => x.ports = d.ports) _ _ rfl (fun x hx _ _ => hx)
theorem Dev.copyWords_ueLines (d : Dev) (l l' : Loc) (offs : List Nat) : (d.copyWords l l' offs).ueLines = d.ueLines := by
  unfold Dev.copyWords
  exact List.foldlRecOn (motive := fun x : Dev => x.ueLines = d.ueLines) _ _ rfl (fun x hx _ _ => hx)

theorem Dev.linksKept_modCx (d : Dev) (h : Half) (e c : Nat) (f : Ctx → Ctx) : d.linksKept (d.modCx h e c f) := Dev.linksKept_of_same rfl rfl rfl id
theorem Dev.linksKept_chans (d : Dev) (m : SMap Chan) : d.linksKept { d with chans := m } := Dev.linksKept_of_same rfl rfl rfl id
/-- STATE of a context touches no port (R221 step 4). -/
theorem Dev.linksKept_copyCtx (d : Dev) (x : Half) (k : Nat) : d.linksKept (d.copyCtx x k) := by
  have hoffs : ∀ c < 32, ∀ off ∈ ctxWords c, off < 0x100000 ∧ off ≠ 0x810 ∧ off ≠ 0x814 := by decide
  unfold Dev.copyCtx
  extract_lets e c page d1 d2 src d3
  have h1 : d.linksKept d1 := by
    refine Dev.linksKept_copySets d x (fun q hq => ?_)
    unfold seqReg at hq
    rw [Bool.and_eq_false_iff, decide_eq_false_iff_not, decide_eq_false_iff_not]
    omega
  have h2 : d1.linksKept d2 := by
    refine List.foldlRecOn (motive := fun y : Dev => d1.linksKept y) _ _ (Dev.linksKept_refl d1) (fun y hy off hoff => ?_)
    obtain ⟨hlt, hne⟩ := hoffs c (Nat.mod_lt _ (by decide)) off hoff
    exact Dev.linksKept_trans hy (Dev.linksKept_wr y _ (not_seqReg (hLoc_page x .row e) hlt hne))
  exact Dev.linksKept_trans h1 (Dev.linksKept_trans h2 (Dev.linksKept_trans (Dev.linksKept_modCx d2 x e c _) (Dev.linksKept_chans d3 _)))

/-! ### The ports of a half (R221 step 3) -/

/-- The pages of the ports. -/
theorem pageOf_rlk (h : Half) {p : Nat} (hp : p < 64) : pageOf h.n .rlk p = h.n * 4096 + 0x10 + p := by
  have hall : ∀ reg < 2, ∀ p < 64, pageOf reg .rlk p = reg * 4096 + 0x10 + p := by decide
  exact hall h.n (by cases h <;> decide) p hp
/-- No two ports share a register. -/
theorem rlkL_ne {h k : Half} {p q : Nat} (hp : p < 64) (hq : q < 64) (hne : h ≠ k ∨ p ≠ q) {o o' : Nat} (ho : o < 0x100000) (ho' : o' < 0x100000) :
    rlkL h p + o ≠ rlkL k q + o' := by
  intro he
  have hpage : pageOf h.n .rlk p = pageOf k.n .rlk q := by
    rw [← locOf_add_div (pageOf h.n .rlk p) ho, ← locOf_add_div (pageOf k.n .rlk q) ho']
    exact congrArg (· / 0x100000) he
  rw [pageOf_rlk h hp, pageOf_rlk k hq] at hpage
  revert hpage hne
  cases h <;> cases k <;> simp [Half.n] <;> omega

/-- The words of a port that STATE copies. -/
def portWords : List Nat := [RLK_EPOCH.EPOCH.off, RLK_SEQ.TXNEXT.off, RLK_CREDIT.C.off, RLK_ES.COUNT.off, RLK_CR.COUNT.off]

theorem portWords_lt {off : Nat} (h : off ∈ portWords) : off < 0x100000 := by
  have hall : ∀ o ∈ portWords, o < 0x100000 := by decide
  exact hall off h

/-- Port `p` of `x` after its peer's port was copied to it, before its words were. -/
def Dev.portMoved (d : Dev) (x : Half) (p : Nat) : Dev :=
  let o := d.port x.peer p
  d.modPort x p (fun y => { y with rxNext := o.rxNext, unack := o.unack, rtx := o.rtx, dead := o.dead, sts := o.sts, credits := o.credits })

theorem Dev.copyPort_eq (d : Dev) (x : Half) (p : Nat) : d.copyPort x p = (d.portMoved x p).copyWords (rlkL x p) (rlkL x.peer p) portWords := rfl

theorem Dev.copyPort_harness (d : Dev) (x : Half) (p : Nat) : (d.copyPort x p).harness = d.harness := by
  rw [Dev.copyPort_eq, Dev.copyWords_harness]
  rfl
theorem Dev.copyPort_ueLines (d : Dev) (x : Half) (p : Nat) : (d.copyPort x p).ueLines = d.ueLines := by
  rw [Dev.copyPort_eq, Dev.copyWords_ueLines]
  rfl

theorem Half.peer_ne (h : Half) : h.peer ≠ h := by cases h <;> decide

/-- A port takes what its peer's port has. -/
theorem Dev.linkOf_copyPort_same (d : Dev) (x : Half) {p : Nat} (hp : p < 64) : (d.copyPort x p).linkOf x p = d.linkOf x.peer p := by
  have hport : (d.copyPort x p).port x p = (d.portMoved x p).port x p := by
    unfold Dev.port
    rw [Dev.copyPort_eq, Dev.copyWords_ports]
  have hrd : ∀ o ∈ portWords, (d.copyPort x p).rd (rlkL x p) o = d.rd (rlkL x.peer p) o := by
    intro o ho
    rw [Dev.copyPort_eq,
      Dev.rd_copyWords_same _ _ ho (fun off hoff => rlkL_ne hp hp (.inl (Half.peer_ne x)) (portWords_lt ho) (portWords_lt hoff))]
    rfl
  unfold Dev.linkOf
  rw [hport, hrd 0x810 (by decide), hrd 0x814 (by decide)]
  unfold Dev.portMoved
  rw [Dev.port_modPort_same]
/-- The other ports stay as they are. -/
theorem Dev.linkOf_copyPort_ne (d : Dev) (x : Half) {p : Nat} (hp : p < 64) {h : Half} {q : Nat} (hq : q < 64) (hne : h ≠ x ∨ q ≠ p) :
    (d.copyPort x p).linkOf h q = d.linkOf h q := by
  have hport : (d.copyPort x p).port h q = d.port h q := by
    unfold Dev.port
    rw [Dev.copyPort_eq, Dev.copyWords_ports]
    exact Dev.port_modPort_ne d x p _ h q hp hq hne
  have hrd : ∀ o, o < 0x100000 → (d.copyPort x p).rd (rlkL h q) o = d.rd (rlkL h q) o := by
    intro o ho
    rw [Dev.copyPort_eq, Dev.rd_copyWords_ne _ _ _ _ (fun off hoff => rlkL_ne hq hp hne ho (portWords_lt hoff))]
    rfl
  unfold Dev.linkOf
  rw [hport, hrd 0x810 (by decide), hrd 0x814 (by decide)]

/-- The first `n` ports of `x` are copied from its peer's. -/
theorem Dev.copyPorts_spec (d : Dev) (x : Half) {n : Nat} (hn : n ≤ 64) :
    let e := (List.range n).foldl (fun y q => y.copyPort x q) d
    e.harness = d.harness ∧ e.ueLines = d.ueLines ∧ (∀ p < n, e.linkOf x p = d.linkOf x.peer p) ∧ ∀ p < 64, e.linkOf x.peer p = d.linkOf x.peer p := by
  induction n with
  | zero => exact ⟨rfl, rfl, fun p hp => absurd hp (Nat.not_lt_zero p), fun _ _ => rfl⟩
  | succ n ih =>
    obtain ⟨hh, hu, hown, hpeer⟩ := ih (by omega)
    dsimp only
    rw [List.range_succ, List.foldl_append, List.foldl_cons, List.foldl_nil]
    generalize (List.range n).foldl (fun y q => y.copyPort x q) d = e at hh hu hown hpeer ⊢
    refine ⟨(e.copyPort_harness x n).trans hh, (e.copyPort_ueLines x n).trans hu, fun p hp => ?_, fun p hp => ?_⟩
    · by_cases hpn : p = n
      · subst hpn
        exact (e.linkOf_copyPort_same x (by omega)).trans (hpeer p (by omega))
      · exact (e.linkOf_copyPort_ne x (by omega) (by omega) (.inr hpn)).trans (hown p (by omega))
    · exact (e.linkOf_copyPort_ne x (by omega) hp (.inl (Half.peer_ne x))).trans (hpeer p hp)

theorem Dev.linksKept_copyBeam (d : Dev) (x : Half) (b : Nat) : d.linksKept (d.copyBeam x b) := by
  unfold Dev.copyBeam
  split
  · exact Dev.linksKept_refl d
  · exact Dev.linksKept_of_same rfl rfl rfl id

/-- STATE, half: the harness and the ports of `x` are its peer's. -/
theorem Dev.copyHalf_spec (d : Dev) (x : Half) :
    (d.copyHalf x).harn x = d.harn x.peer ∧ (∀ p < 64, (d.copyHalf x).linkOf x p = d.linkOf x.peer p) ∧ (d.ueLines = [] → (d.copyHalf x).ueLines = []) := by
  unfold Dev.copyHalf
  extract_lets px d1 d2
  have h1 : d.linksKept d1 := by
    refine Dev.linksKept_copySets d x (fun q hq => ?_)
    unfold seqReg at hq
    rw [Bool.and_eq_false_iff, decide_eq_false_iff_not]
    right
    omega
  have hharn : d2.harn x = d.harn x.peer := by
    rw [← Dev.harn_of_linksKept h1 x.peer]
    exact SMap.get_set_same _ _ _
  have hlink : ∀ p, d2.linkOf x.peer p = d.linkOf x.peer p := fun p => Dev.linkOf_of_linksKept h1 x.peer p
  obtain ⟨hh, hu, hown, -⟩ := Dev.copyPorts_spec d2 x (n := 64) (by decide)
  have hbeams := Dev.linksKept_foldl (fun y b => Dev.linksKept_copyBeam y x b) ((List.range 64).foldl (fun y q => y.copyPort x q) d2) (List.range 4)
  refine ⟨?_, fun p hp => ?_, fun h0 => hbeams.2.2.2 (hu.trans (h1.2.2.2 h0))⟩
  · rw [Dev.harn_of_linksKept hbeams, ← hharn]
    unfold Dev.harn
    rw [hh]
  · rw [Dev.linkOf_of_linksKept hbeams, hown p hp, hlink p]

end Sys2Proof.Machine
end

section
/-!
SUPPORT. The end of a memory fill (R332), the comparison of the time bases outside a rejoin (R29), and the end of COPY (R221), on the referee and the devices
together.
-/
namespace Sys2Proof.Machine

open Sys2Proof

/-! ### The end of a fill -/

/-- Registers at different offsets of pages are different. -/
theorem page_reg_ne {l l' : Loc} {o o' : Nat} (hl : l % 0x100000 = 0) (hl' : l' % 0x100000 = 0) (ho : o < 0x100000) (ho' : o' < 0x100000) (h : o ≠ o') :
    l + o ≠ l' + o' := by
  unfold Loc at *
  omega

/-- A fill that ends shows in MEC_STAT of both channels, and MEC_GEOM stays. -/
theorem Dev.on_filled (d : Dev) (h : Half) :
    let e := (d.p (hLoc h .mec 0) MEC_STAT.FILLING 0).p (hLoc h .mec 1) MEC_STAT.FILLING 0
    e.on (hLoc h .mec 0) MEC_STAT.FILLING = false ∧ e.on (hLoc h .mec 1) MEC_STAT.FILLING = false ∧
      (∀ k, e.on (hLoc h .mec k) MEC_GEOM.ABSENT = d.on (hLoc h .mec k) MEC_GEOM.ABSENT) := by
  have hne : hLoc h .mec 0 + MEC_STAT.FILLING.off ≠ hLoc h .mec 1 + MEC_STAT.FILLING.off := by cases h <;> decide
  have hgeom : ∀ k j, hLoc h .mec k + MEC_GEOM.ABSENT.off ≠ hLoc h .mec j + MEC_STAT.FILLING.off :=
    fun k j => page_reg_ne (hLoc_page h .mec k) (hLoc_page h .mec j) (by decide) (by decide) (by decide)
  dsimp only
  refine ⟨?_, ?_, fun k => ?_⟩ <;> unfold Dev.on
  · rw [Dev.g_p_ne _ _ hne, Dev.g_p_same _ _ _ _ (by decide)]
    rfl
  · rw [Dev.g_p_same _ _ _ _ (by decide)]
    rfl
  · rw [Dev.g_p_ne _ _ (hgeom k 1), Dev.g_p_ne _ _ (hgeom k 0)]

theorem Referee.ready_setInit {r : Referee} {h : Half} (hi : r.hs h = .init) : (r.setInit h true).ready h = true := by
  unfold Referee.ready
  rw [Referee.hs_setInit, hi]
  cases h <;> rfl

/-- In a half in INIT with both channels present, the fill completes INIT. -/
theorem RD.fillDone_init {x : RD} {h : Half} (hi : x.1.hs h = .init) (h0 : x.2.on (hLoc h .mec 0) MEC_GEOM.ABSENT = false)
    (h1 : x.2.on (hLoc h .mec 1) MEC_GEOM.ABSENT = false) :
    x.fillDone h = (x.1.setInit h true, (x.2.p (hLoc h .mec 0) MEC_STAT.FILLING 0).p (hLoc h .mec 1) MEC_STAT.FILLING 0) := by
  obtain ⟨hf0, hf1, hgeom⟩ := x.2.on_filled h
  unfold RD.fillDone
  rw [List.foldl_cons, List.foldl_cons, List.foldl_nil]
  generalize (x.2.p (hLoc h .mec 0) MEC_STAT.FILLING 0).p (hLoc h .mec 1) MEC_STAT.FILLING 0 = e at hf0 hf1 hgeom ⊢
  have hready : e.dramReady h = true := by simp [Dev.dramReady, hf0, hf1, hgeom, h0, h1]
  dsimp only
  rw [if_neg (by rw [hi]; decide), if_pos ⟨hi, hready⟩]

/-! ### The comparison of the time bases -/

theorem RD.transfer_alone {x : RD} (hj : x.1.rjHalf = none) (ks : List Nat) : x.transfer ks = x := by
  unfold RD.transfer
  rw [hj]
theorem RD.rejoinProgress_alone {x : RD} (hj : x.1.rjHalf = none) : x.rejoinProgress = x := by
  unfold RD.rejoinProgress
  rw [hj]

theorem Dev.report_tb (d : Dev) (h : Half) (code obj det : Nat) (miss : Bool) :
    (d.report h code obj det miss).tbA = d.tbA ∧ (d.report h code obj det miss).tbB = d.tbB := ⟨rfl, rfl⟩

/-- While no half rejoins the comparison records the time bases; it adjusts the length of ticks, never a time base. -/
theorem RD.tbCompare_alone {x : RD} (hj : x.1.rjHalf = none) (phase : Nat) (shorten : Bool) :
    (x.tbCompare phase shorten).1 = { x.1 with recA := x.2.tbA, recB := x.2.tbB } ∧ (x.tbCompare phase shorten).2.tbA = x.2.tbA ∧
      (x.tbCompare phase shorten).2.tbB = x.2.tbB := by
  unfold RD.tbCompare
  extract_lets d diff both lead slow fast d1 d2 src y
  have htick : ∀ h, ((slow h d).tbA = d.tbA ∧ (slow h d).tbB = d.tbB) ∧ (fast h d).tbA = d.tbA ∧ (fast h d).tbB = d.tbB := by
    intro h
    cases h <;> exact ⟨⟨rfl, rfl⟩, rfl, rfl⟩
  have h1 : d1.tbA = d.tbA ∧ d1.tbB = d.tbB := by
    unfold d1
    split
    · split
      · exact (htick _).2
      · exact (htick _).1
    · exact ⟨rfl, rfl⟩
  have h2 : d2.tbA = d.tbA ∧ d2.tbB = d.tbB := by
    unfold d2
    split
    · obtain ⟨hA, hB⟩ := (d1.raise refL 5).report_tb lead 0x0E 0 (0x01 * 2 ^ 16 + min 65535 diff.natAbs) false
      rw [hA, hB, Dev.raise_tbA, Dev.raise_tbB]
      exact h1
    · exact h1
  have hy : RD.rejoinProgress (y.transfer y.idleWaiting) = y := by
    rw [RD.transfer_alone (x := y) hj, RD.rejoinProgress_alone (x := y) hj]
  rw [hy]
  exact ⟨RD.ref_mk _ _, h2⟩

/-! ### The end of COPY -/

/-- Contexts go over in STATE: the rejoin goes on, and no port is touched. -/
theorem RD.transfer_spec {x : RD} {h : Half} (hj : x.1.rjHalf = some h) (hs : x.1.hs h = .rejoining) (hp : x.1.rjPhase = 2) (ks : List Nat) :
    (x.transfer ks).1.rjHalf = some h ∧ ((x.transfer ks).1.rjPhase = 2 ∨ (x.transfer ks).1.rjPhase = 3) ∧ x.2.linksKept (x.transfer ks).2 := by
  unfold RD.transfer
  rw [hj]
  dsimp only
  rw [if_neg (by simp [hs, hp])]
  refine ⟨hj, ?_, Dev.linksKept_foldl (fun y k => Dev.linksKept_copyCtx y h k) x.2 _⟩
  dsimp only
  split
  · exact .inr rfl
  · exact .inl rfl

theorem Dev.linksKept_copied {d : Dev} (hue : d.ueLines = []) (rs : List (Nat × Nat × Nat)) : d.linksKept (d.copied rs) := by
  refine Dev.linksKept_of_same rfl rfl rfl (fun _ => ?_)
  unfold Dev.copied
  rw [hue]
  rfl
@[simp] theorem Boot.dev_dev (x : Boot) (f : Dev → Dev) : (x.dev f).2.dev = f x.2.dev := rfl
@[simp] theorem Boot.dev_rd (x : Boot) (f : RD → RD) : (x.rd f).2.dev = (f (x.1, x.2.dev)).2 := rfl

theorem Boot.dev_dropped (y : Boot) (ld : List MemOp × Dev) : ((y.memOps ld.1).dev (fun _ => ld.2)).2.dev = ld.2 := Boot.dev_dev _ _

/-- STATE begins, and the contexts that are IDLE go over. -/
theorem Boot.stateBegins_spec {z : Boot} {h : Half} (hj : z.1.rjHalf = some h) (hs : z.1.hs h = .rejoining) (all idle : List Nat) :
    let w := (z.ref (fun r => { r with rjPhase := 2, rjCtxs := all })).rd (fun q => q.transfer idle)
    w.1.authority = z.1.authority ∧ w.1.rjHalf = some h ∧ (w.1.rjPhase = 2 ∨ w.1.rjPhase = 3) ∧ z.2.dev.linksKept w.2.dev := by
  dsimp only
  rw [Boot.ref_rd, Boot.dev_rd]
  have hspec := RD.transfer_spec (x := ({ z.1 with rjPhase := 2, rjCtxs := all }, z.2.dev)) (h := h) hj (by cases h <;> exact hs) rfl idle
  exact ⟨RD.authority_transfer _ idle, hspec⟩

/-- The devices when STATE begins: the harness and the ports of `h` are its peer's. -/
theorem Dev.stateDev_spec {d : Dev} {h : Half} (hue : d.ueLines = []) (rs : List (Nat × Nat × Nat)) (r : Referee) :
    let e := (Dev.dropLoading (((d.copied rs).copyHalf h).startHalf h) r h).2
    e.harn h = d.harn h.peer ∧ ∀ p < 64, e.linkOf h p = d.linkOf h.peer p := by
  have hcopied : d.linksKept (d.copied rs) := Dev.linksKept_copied hue rs
  obtain ⟨hharn, hlink, hue'⟩ := Dev.copyHalf_spec (d.copied rs) h
  have hstart := Dev.linksKept_startHalf ((d.copied rs).copyHalf h) h
  have hkept := Dev.linksKept_trans hstart (Dev.linksKept_dropLoading (hstart.2.2.2 (hue' (hcopied.2.2.2 hue))) r h)
  refine ⟨?_, fun p hp => ?_⟩
  · rw [Dev.harn_of_linksKept hkept, hharn, Dev.harn_of_linksKept hcopied]
  · rw [Dev.linkOf_of_linksKept hkept, hlink p hp, Dev.linkOf_of_linksKept hcopied]

/-- COPY in a part without an uncorrectable word ends in STATE, with the harness and the ports of the half in charge. -/
theorem Boot.copyDone_spec {x : Boot} {h : Half} (hj : x.1.rjHalf = some h) (hs : x.1.hs h = .rejoining) (hue : x.2.dev.ueLines = []) :
    (x.copyDone h).1.authority = x.1.authority ∧ (x.copyDone h).1.rjHalf = some h ∧ ((x.copyDone h).1.rjPhase = 2 ∨ (x.copyDone h).1.rjPhase = 3) ∧
      (x.copyDone h).2.dev.harn h = x.2.dev.harn h.peer ∧ ∀ p < 64, (x.copyDone h).2.dev.linkOf h p = x.2.dev.linkOf h.peer p := by
  unfold Boot.copyDone
  extract_lets rs d
  split
  · next w hw =>
    rw [show d.ueLines = [] from hue] at hw
    cases hw
  · next y ld z all idle _ _ =>
    have hcopied : y.2.dev = ((d.copied rs).copyHalf h).startHalf h := Boot.dev_dev _ _
    have hld : ld = y.2.dev.dropLoading y.1 h := rfl
    have hdropped : z.2.dev = ld.2 := Boot.dev_dropped y ld
    have href : z.1 = x.1 := by
      unfold z y
      rw [Boot.ref_dev, Boot.ref_memOps, Boot.ref_dev, Boot.ref_memOps]
    clear_value z ld y
    obtain ⟨hharn, hlink⟩ := Dev.stateDev_spec (h := h) (show d.ueLines = [] from hue) rs y.1
    obtain ⟨hauth, hwj, hwp, hkept⟩ := Boot.stateBegins_spec (z := z) (h := h) (by rw [href, hj]) (by rw [href, hs]) all idle
    rw [← hcopied, ← hld, ← hdropped] at hharn hlink
    refine ⟨hauth.trans (congrArg _ href), hwj, hwp, (Dev.harn_of_linksKept hkept h).trans hharn, fun p hp => (Dev.linkOf_of_linksKept hkept h p).trans (hlink p hp)⟩

/-- What STATE hands over of a port, register by register. -/
theorem Dev.linkOf_eq {d e : Dev} {h k : Half} {p : Nat} (hl : e.linkOf h p = d.linkOf k p) :
    (e.port h p).rxNext = (d.port k p).rxNext ∧ (e.port h p).unack = (d.port k p).unack ∧ e.g (rlkL h p) RLK_CREDIT.C = d.g (rlkL k p) RLK_CREDIT.C ∧
      e.g (rlkL h p) RLK_SEQ.TXNEXT = d.g (rlkL k p) RLK_SEQ.TXNEXT := by
  unfold Dev.linkOf at hl
  simp only [Prod.mk.injEq] at hl
  obtain ⟨hrx, hun, hseq, hcr⟩ := hl
  exact ⟨hrx, hun, congrArg (fget RLK_CREDIT.C) hcr, congrArg (fget RLK_SEQ.TXNEXT) hseq⟩

/-! ### The commands -/

theorem exec_halfInitComplete (s : State) :
    exec .halfInitComplete s = .next { s with ref := (RD.leaveInit (s.ref, s.dev)).1, mem := s.mem, dev := (RD.leaveInit (s.ref, s.dev)).2 } := rfl
theorem exec_initTimeout (h : Half) (s : State) :
    exec (.initTimeout h) s = .next { s with ref := (RD.initTimeout (s.ref, s.dev) h).1, mem := s.mem, dev := (RD.initTimeout (s.ref, s.dev) h).2 } := rfl
theorem exec_memoryFillDone (h : Half) (s : State) :
    exec (.memoryFillDone h) s = .next { s with ref := (RD.fillDone (s.ref, s.dev) h).1, mem := s.mem, dev := (RD.fillDone (s.ref, s.dev) h).2 } := rfl
theorem exec_tbCompare (phase : Fin 10) (shorten : Bool) (s : State) :
    exec (.tbCompare phase shorten) s =
      .next { s with ref := (RD.tbCompare (s.ref, s.dev) phase shorten).1, mem := s.mem, dev := (RD.tbCompare (s.ref, s.dev) phase shorten).2 } := rfl
theorem exec_rejoinCopyDone {s : State} {h : Half} (hj : s.ref.rjHalf = some h) (hs : s.ref.hs h = .rejoining) (hp : s.ref.rjPhase = 1) :
    exec .rejoinCopyDone s = .next { s with
      ref := (Boot.copyDone (s.ref, s.run) h).1, mem := s.mem.applyAll (Boot.copyDone (s.ref, s.run) h).2.ops, dev := (Boot.copyDone (s.ref, s.run) h).2.dev } := by
  unfold exec
  dsimp only
  unfold execRejoinCopyDone
  rw [onBoot_eq]
  dsimp only
  rw [hj]
  dsimp only
  rw [if_pos ⟨hs, hp⟩]
theorem exec_autorejoinTimeout (h : Half) (elapsed : Nat) (tr : Train) (s : State) :
    exec (.autorejoinTimeout h elapsed tr) s = onBoot (fun x => if x.1.autorejoin && RD.rejoinCode (x.1, x.2.dev) h = 0 then x.rejoin h elapsed tr else x) s := rfl

end Sys2Proof.Machine

open Sys2Proof Sys2Proof.Machine

/-- Settles O27: the sequencer's acts by what they leave of the referee, the fill by the registers of both channels, and COPY by the ports' state, which
none of the acts that follow it touches. -/
theorem halvesLeaveInitByTheRules : Obligations.HalvesLeaveInitByTheRules := by
  unfold Obligations.HalvesLeaveInitByTheRules
  refine ⟨fun s hd => ⟨fun hs hp hA hB he => ?powerOn, fun hs hp hA hB he => ?noEpoch, fun h hs hp hr hc ha => ?rejoin, fun hs hA hB he => ?split,
    fun h hs hp hr hi hpeer he => ?peerLate, fun h hp hr hi hj => ?late⟩, fun s h hi h0 h1 => ?fill, fun s h hj hs hp hue => ?copy,
    fun s h elapsed tr => ⟨fun hauto => ?still, fun hauto hcode => ?auto⟩, fun s phase shorten hj => ?compare⟩
  case powerOn =>
    refine ⟨_, exec_halfInitComplete s, rfl, ?_⟩
    dsimp only
    rw [RD.ref_leaveInit_powerOn (x := (s.ref, s.dev)) hd hs hp hA hB he, RD.ref_charge]
    cases s.ref.prefer <;> exact ⟨rfl, rfl, rfl, rfl, rfl⟩
  case noEpoch =>
    have hoff : ∀ h, s.ref.ready h = true → s.ref.hs h ≠ .off := fun h hr => by
      rw [Referee.hs_of_ready hr]
      decide
    refine ⟨_, exec_halfInitComplete s, rfl, ?_⟩
    dsimp only
    rw [RD.leaveInit_noEpoch (x := (s.ref, s.dev)) hd hs hp hA hB he]
    exact RD.ref_endEpoch (x := (s.ref, s.dev)) (hoff .A hA) (hoff .B hB)
  case rejoin =>
    refine ⟨_, exec_halfInitComplete s, rfl, ?_⟩
    dsimp only
    rw [RD.ref_leaveInit_rejoin (x := (s.ref, s.dev)) hd hs hp hr hc ha]
    cases h <;> exact ⟨rfl, hc, rfl, rfl, rfl⟩
  case split =>
    exact ⟨_, exec_halfInitComplete s, rfl, RD.ref_leaveInit_split (x := (s.ref, s.dev)) hd hs hA hB he⟩
  case peerLate =>
    refine ⟨_, exec_initTimeout h s, rfl, ?_⟩
    dsimp only
    rw [RD.ref_initTimeout_powerOn (x := (s.ref, s.dev)) hd hs hp hr hi hpeer he, RD.ref_charge]
    cases h <;> exact ⟨rfl, rfl, rfl⟩
  case late =>
    refine ⟨_, exec_initTimeout h s, rfl, ?_⟩
    dsimp only
    rw [RD.ref_initTimeout_late (x := (s.ref, s.dev)) hd hp hr hi hj]
    exact ⟨Referee.hs_setHs_same _ _ _, Referee.hs_setHs_peer _ _ _, Referee.epoch_setHs _ _ _⟩
  case fill =>
    obtain ⟨hf0, hf1, -⟩ := s.dev.on_filled h
    refine ⟨_, exec_memoryFillDone h s, rfl, ?_⟩
    dsimp only
    rw [RD.fillDone_init (x := (s.ref, s.dev)) hi h0 h1]
    exact ⟨Referee.authority_setInit _ _ _, Referee.ready_setInit hi, hf0, hf1⟩
  case copy =>
    obtain ⟨hauth, hjh, hph, hharn, hlink⟩ := Boot.copyDone_spec (x := (s.ref, s.run)) hj hs hue
    exact ⟨_, exec_rejoinCopyDone hj hs hp, hauth, hjh, hph, hharn, fun p hp => Dev.linkOf_eq (hlink p hp)⟩
  case still =>
    rw [exec_autorejoinTimeout, onBoot_eq]
    simp only [hauto, Bool.false_and, Bool.false_eq_true, if_false]
    rfl
  case auto =>
    rw [exec_autorejoinTimeout, onBoot_eq]
    have hgo : (s.ref.autorejoin && decide (RD.rejoinCode (s.ref, s.run.dev) h = 0)) = true := by
      rw [hauto, Bool.true_and]
      exact decide_eq_true hcode
    dsimp only
    rw [if_pos hgo]
    exact ⟨_, rfl, Boot.rejoin_rejoins (s.ref, s.run) h elapsed tr⟩
  case compare =>
    obtain ⟨href, hA, hB⟩ := RD.tbCompare_alone (x := (s.ref, s.dev)) hj phase shorten
    exact ⟨_, exec_tbCompare phase shorten s, rfl, href, hA, hB⟩

end

section
/-!
SUPPORT. A beam of the beam unit: what its faults, markers and records leave alone, the line levels it samples (R45), and its movement between edges (R51).
-/
namespace Sys2Proof.Machine

open Sys2Proof

/-! ### What a beam shows and reports -/

theorem Dev.setsKept_of_onlyRegs {d e : Dev} (h : d.onlyRegs [] e) : d.setsKept e := by
  obtain ⟨hquiet, hregs⟩ := h
  refine ⟨(congrArg Dev.shadow hquiet : e.quiet.shadow = d.quiet.shadow), fun k h40 h800 => hregs k List.not_mem_nil ?_⟩
  simp only [evReg, Bool.or_eq_false_iff, Bool.and_eq_false_iff, decide_eq_false_iff_not]
  omega

/-- The configuration and the beams stay: what differs is shown in status registers, raised, recorded or reported. -/
def Dev.noted (d e : Dev) : Prop := d.setsKept e ∧ e.beams = d.beams

theorem Dev.noted_refl (d : Dev) : d.noted d := ⟨Dev.setsKept_refl d, rfl⟩
theorem Dev.noted_trans {d e f : Dev} (h1 : d.noted e) (h2 : e.noted f) : d.noted f := ⟨Dev.setsKept_trans h1.1 h2.1, h2.2.trans h1.2⟩
theorem Dev.beam_of_noted {d e : Dev} (h : d.noted e) (k : Half) (b : Nat) : e.beam k b = d.beam k b := by
  unfold Dev.beam
  rw [h.2]

/-- The registers of the four beams lie from 0x800 on (Table 02.6). -/
theorem Fld.ix_off_of_ofBeam {f : Fld} (hf : f.ofBeam = true) {b : Nat} (hb : b < 4) : 0x800 ≤ (f.ix b).off ∧ (f.ix b).off < 0x900 := by
  simp only [Fld.ofBeam, Bool.and_eq_true, decide_eq_true_eq] at hf
  obtain ⟨hstride, hoff⟩ := hf
  simp only [Fld.ix, hstride]
  omega

theorem Dev.noted_status (d : Dev) (h : Half) {b : Nat} (hb : b < 4) {f : Fld} (hf : f.ofBeam = true) (v : Nat) :
    d.noted (d.p (hLoc h .beam) (f.ix b) v) := by
  obtain ⟨hlo, hhi⟩ := Fld.ix_off_of_ofBeam hf hb
  have hmod : (hLoc h .beam + (f.ix b).off) % 0x100000 = (f.ix b).off := locOf_add_mod _ (by omega)
  exact ⟨Dev.setsKept_p d v (.inr (hmod.symm ▸ hlo)), Dev.p_beams d _ _ v⟩
theorem Dev.noted_raise (d : Dev) {l : Loc} (hl : l % 0x100000 = 0) (n : Nat) : d.noted (d.raise l n) :=
  ⟨Dev.setsKept_of_onlyRegs (Dev.raise_frame d hl n []), Dev.raise_beams d l n⟩
theorem Dev.noted_reportP (d : Dev) (h : Half) (code obj : Nat) (l : Loc) : d.noted (d.reportP h code obj l) := ⟨⟨rfl, fun _ _ _ => rfl⟩, rfl⟩
theorem Dev.noted_seq (d : Dev) {l : Loc} (hl : l % 0x100000 = 0) : d.noted (d.seq l) := by
  have hpage : (l / 0x100000 * 0x100000 : Nat) = l := by unfold Loc at *; omega
  have hoff : (l + 0x03C) % 0x100000 < 0x40 := by unfold Loc at *; omega
  rw [Dev.seq, hpage, Dev.wrap_eq]
  exact ⟨Dev.setsKept_p d _ (.inl hoff), Dev.p_beams d _ _ _⟩

theorem Dev.noted_pushX (d : Dev) (h : Half) {x : XRec} (hb : x.beam < 4) : d.noted (d.pushX h x) := by
  unfold Dev.pushX
  split
  · cases h <;> exact ⟨⟨rfl, fun _ _ _ => rfl⟩, rfl⟩
  · rw [Dev.sat_eq]
    have hlost := Dev.noted_status d h hb (f := BEAM_XLOST.XLOST) rfl
    have hcause := fun e => Dev.noted_status e h hb (f := BEAM_STATE.FAULT_CAUSE) rfl 5
    exact Dev.noted_trans (Dev.noted_trans (Dev.noted_trans (hlost _) (hcause _)) (Dev.noted_raise _ (hLoc_page h .beam 0) _)) (Dev.noted_reportP _ h _ _ _)
theorem Dev.noted_marker (d : Dev) (h : Half) {b : Nat} (hb : b < 4) (k : XKind) : d.noted (d.marker h b k) := Dev.noted_pushX d h hb

theorem Dev.noted_showBeam (d : Dev) (h : Half) {b : Nat} (hb : b < 4) : d.noted (d.showBeam h b) :=
  Dev.noted_trans (Dev.noted_trans (Dev.noted_trans (Dev.noted_trans (Dev.noted_status d h hb rfl _) (Dev.noted_status _ h hb rfl _))
    (Dev.noted_status _ h hb rfl _)) (Dev.noted_status _ h hb rfl _)) (Dev.noted_status _ h hb rfl _)

/-- A field of a beam's configuration (Table 02.6). -/
theorem Dev.bg_of_setsKept {d e : Dev} (hk : d.setsKept e) (h : Half) {b : Nat} (hb : b < 4) {f : Fld}
    (hf : f.stride = 0x20 ∧ 0x40 ≤ f.off ∧ f.off < 0x60) : e.bg h b f = d.bg h b f := by
  obtain ⟨hstride, hlo, hhi⟩ := hf
  exact congrArg (fget (f.ix b)) (Dev.rd_of_setsKept hk _ (by simp only [Fld.ix]; omega) (by simp only [Fld.ix, hstride]; omega))

theorem Dev.on_stopped_showBeam (d : Dev) (h : Half) (b : Nat) :
    (d.showBeam h b).on (hLoc h .beam) (BEAM_STATE.STOPPED.ix b) = (d.beam h b).stopped := by
  have hhyst (e : Dev) (v : Nat) : (e.p (hLoc h .beam) (BEAM_STATE.IN_HYST.ix b) v).g (hLoc h .beam) (BEAM_STATE.STOPPED.ix b) =
      e.g (hLoc h .beam) (BEAM_STATE.STOPPED.ix b) :=
    Dev.g_p_disj e _ v rfl (show 4 + 1 ≤ 32 by decide) (.inl (show 3 + 1 ≤ 4 by decide))
  unfold Dev.showBeam Dev.on
  dsimp only
  rw [Dev.g_p_beam _ _ _ rfl rfl (.inl (by decide)), hhyst, Dev.g_p_same _ _ _ _ (show 3 + 1 ≤ 32 by decide)]
  cases (d.beam h b).stopped <;> rfl

/-! ### A beam's lines while it decodes -/

/-- What the filter and the sampling clock hold of a beam. -/
def Beam.wires (x : Beam) : Line × Line × Line × Nat := (x.lineA, x.lineB, x.lineZ, x.now)

/-- The configuration and the lines of beam `b` stay. -/
def Dev.wiresKept (h : Half) (b : Nat) (d e : Dev) : Prop := d.setsKept e ∧ (e.beam h b).wires = (d.beam h b).wires

section Decode
variable {h : Half} {b : Nat}

theorem Dev.wiresKept_refl (d : Dev) : Dev.wiresKept h b d d := ⟨Dev.setsKept_refl d, rfl⟩
theorem Dev.wiresKept_trans {d e f : Dev} (h1 : Dev.wiresKept h b d e) (h2 : Dev.wiresKept h b e f) : Dev.wiresKept h b d f :=
  ⟨Dev.setsKept_trans h1.1 h2.1, h2.2.trans h1.2⟩
theorem Dev.wiresKept_ite {p : Prop} [Decidable p] {d e f : Dev} (he : Dev.wiresKept h b d e) (hf : Dev.wiresKept h b d f) :
    Dev.wiresKept h b d (if p then e else f) := by
  split
  · exact he
  · exact hf
theorem Dev.wiresKept_of_noted {d e : Dev} (hn : d.noted e) : Dev.wiresKept h b d e := ⟨hn.1, by rw [Dev.beam_of_noted hn]⟩
theorem Dev.setsKept_setBeam (d : Dev) (x : Beam) : d.setsKept (d.setBeam h b x) := ⟨rfl, fun _ _ _ => rfl⟩
theorem Dev.wiresKept_setBeam {d e : Dev} (hk : Dev.wiresKept h b d e) {x : Beam} (hx : x.wires = (e.beam h b).wires) :
    Dev.wiresKept h b d (e.setBeam h b x) :=
  Dev.wiresKept_trans hk ⟨Dev.setsKept_setBeam e x, by rw [Dev.beam_setBeam_same, hx]⟩
theorem Dev.wiresKept_modBeam {d e : Dev} (hk : Dev.wiresKept h b d e) {f : Beam → Beam} (hf : ∀ x, (f x).wires = x.wires) :
    Dev.wiresKept h b d (e.modBeam h b f) := Dev.wiresKept_setBeam hk (hf _)
theorem Dev.wiresKept_trans_noted {d e f : Dev} (hk : Dev.wiresKept h b d e) (hn : e.noted f) : Dev.wiresKept h b d f :=
  Dev.wiresKept_trans hk (Dev.wiresKept_of_noted hn)


/-! ### Acts of decoding -/

theorem Dev.noted_foldl {α : Type} {f : Dev → α → Dev} (hf : ∀ (x : Dev) (a : α), x.noted (f x a)) (d : Dev) (xs : List α) : d.noted (xs.foldl f d) := by
  induction xs generalizing d with
  | nil => exact Dev.noted_refl d
  | cons a xs ih => exact Dev.noted_trans (hf d a) (ih (f d a))

variable (hb : b < 4)
include hb

/-- A movement changes the position of its beam alone, and records the taps it passes. -/
theorem Dev.moveTo_spec (d : Dev) (p : Int) :
    d.setsKept (d.moveTo h b p) ∧ (d.moveTo h b p).beam h b = { d.beam h b with
      pos := if (if (d.beam h b).dir then p < (d.beam h b).pos else (d.beam h b).pos < p) then p else (d.beam h b).pos } := by
  have hmoved {e : Dev} {x : Beam} (he : (d.setBeam h b x).noted e) : d.setsKept e ∧ e.beam h b = x :=
    ⟨Dev.setsKept_trans (Dev.setsKept_setBeam d x) he.1, by rw [Dev.beam_of_noted he, Dev.beam_setBeam_same]⟩
  unfold Dev.moveTo
  extract_lets x d1
  by_cases hahead : if x.dir then p < x.pos else x.pos < p
  · rw [if_pos hahead, if_pos hahead]
    refine hmoved ?_
    split
    · exact Dev.noted_foldl (fun y _ => Dev.noted_pushX y h (show b < 4 from hb)) d1 _
    · exact Dev.noted_refl d1
  · rw [if_neg hahead, if_neg hahead]
    exact ⟨Dev.setsKept_refl d, rfl⟩
theorem Dev.wiresKept_moveTo (d : Dev) (p : Int) : Dev.wiresKept h b d (d.moveTo h b p) := by
  obtain ⟨hsets, hbeam⟩ := Dev.moveTo_spec hb d p
  exact ⟨hsets, by rw [hbeam]; rfl⟩

theorem Dev.wiresKept_beamFault (d : Dev) (code : Nat) : Dev.wiresKept h b d (d.beamFault h b code) := by
  unfold Dev.beamFault
  extract_lets l ev d1 d2
  have h1 : d.noted d1 := Dev.noted_trans (Dev.noted_status d h hb rfl _) (Dev.noted_raise _ (hLoc_page h .beam 0) _)
  have h2 : Dev.wiresKept h b d d2 := Dev.wiresKept_ite
    (Dev.wiresKept_trans_noted (Dev.wiresKept_modBeam (Dev.wiresKept_of_noted h1) (fun _ => by rfl)) (Dev.noted_marker _ h hb _)) (Dev.wiresKept_of_noted h1)
  exact Dev.wiresKept_ite (Dev.wiresKept_trans_noted h2 (Dev.noted_reportP _ h _ _ _)) h2

theorem Dev.wiresKept_estimate (d : Dev) (p : Int) : Dev.wiresKept h b d (d.estimate h b p) := by
  unfold Dev.estimate
  extract_lets l x W aw M hist y e0 w ew dt0 velK wm eM eMw dtM S accK predicted limit within judged run z v d1
  have h1 : Dev.wiresKept h b d d1 := Dev.wiresKept_setBeam (Dev.wiresKept_refl d) rfl
  have hcoarse (n : Nat) : Dev.wiresKept h b d (d1.p l (BEAM_STATE.PRED_COARSE.ix b) n) := Dev.wiresKept_trans_noted h1 (Dev.noted_status d1 h hb rfl n)
  exact Dev.wiresKept_ite (hcoarse 0) (Dev.wiresKept_ite (hcoarse 1) (Dev.wiresKept_ite (hcoarse 0) h1))

theorem Dev.wiresKept_speedCheck (d : Dev) : Dev.wiresKept h b d (d.speedCheck h b) := by
  unfold Dev.speedCheck
  extract_lets x speed fast d1
  have h1 : Dev.wiresKept h b d d1 := Dev.wiresKept_setBeam (Dev.wiresKept_refl d) rfl
  exact Dev.wiresKept_ite (Dev.wiresKept_trans h1 (Dev.wiresKept_beamFault hb d1 4)) h1

theorem Dev.wiresKept_reverse (d : Dev) (edge : Int) : Dev.wiresKept h b d (d.reverse h b edge) := by
  unfold Dev.reverse
  extract_lets l d1 d2
  have h1 : Dev.wiresKept h b d d1 := Dev.wiresKept_modBeam (Dev.wiresKept_refl d) (fun _ => rfl)
  have h2 : d1.noted d2 :=
    Dev.noted_trans (Dev.noted_trans (Dev.noted_status d1 h hb rfl _) (Dev.noted_raise _ (hLoc_page h .beam 0) _)) (Dev.noted_marker _ h hb _)
  exact Dev.wiresKept_trans (Dev.wiresKept_trans (Dev.wiresKept_trans_noted h1 h2) (Dev.wiresKept_moveTo hb d2 edge)) (Dev.wiresKept_estimate hb _ edge)

theorem Dev.wiresKept_edge (d : Dev) (fwd : Bool) : Dev.wiresKept h b d (d.edge h b fwd) := by
  unfold Dev.edge
  extract_lets x cpr u1 pos same y d0 d1
  have hset {z : Beam} (hz : z.wires = x.wires) : Dev.wiresKept h b d (d.setBeam h b z) := Dev.wiresKept_setBeam (Dev.wiresKept_refl d) hz
  have h0 : Dev.wiresKept h b d d0 := hset rfl
  have hahead {z : Beam} (hz : z.wires = x.wires) : Dev.wiresKept h b d (((d.setBeam h b z).moveTo h b pos).estimate h b pos) :=
    Dev.wiresKept_trans (Dev.wiresKept_trans (hset hz) (Dev.wiresKept_moveTo hb _ pos)) (Dev.wiresKept_estimate hb _ pos)
  have h1 : Dev.wiresKept h b d d1 := Dev.wiresKept_ite (Dev.wiresKept_ite (hahead (by rfl)) (hset (by rfl)))
    (Dev.wiresKept_ite (Dev.wiresKept_trans h0 (Dev.wiresKept_reverse hb d0 pos)) h0)
  exact Dev.wiresKept_ite (hset rfl) (Dev.wiresKept_ite (Dev.wiresKept_trans h1 (Dev.wiresKept_beamFault hb d1 3)) h1)

theorem Dev.wiresKept_index (d : Dev) : Dev.wiresKept h b d (d.index h b) := by
  unfold Dev.index
  extract_lets l x cpr off u0 p0 shift dev d1 u p against behind d2
  have hset {e : Dev} (he : d.noted e) {z : Beam} (hz : z.wires = x.wires) : Dev.wiresKept h b d (e.setBeam h b z) :=
    Dev.wiresKept_setBeam (Dev.wiresKept_of_noted he) (by rw [Dev.beam_of_noted he, hz])
  have hseen : d.noted (d.wrap l (BEAM_IDXDEV.SEEN.ix b)) := Dev.noted_status d h hb rfl _
  have h1 : d.noted d1 := Dev.noted_trans hseen (Dev.noted_status _ h hb rfl _)
  have h2 : Dev.wiresKept h b d d2 := hset (Dev.noted_trans h1 (Dev.noted_status d1 h hb rfl _)) (by rfl)
  refine Dev.wiresKept_ite (Dev.wiresKept_refl d) ?_
  split
  case h_1 =>
    exact Dev.wiresKept_trans_noted (hset hseen (by rfl)) (Dev.noted_trans (Dev.noted_raise _ (hLoc_page h .beam 0) _) (Dev.noted_marker _ h hb _))
  case h_2 =>
    refine Dev.wiresKept_ite (hset h1 (by rfl)) (Dev.wiresKept_ite ?_ (Dev.wiresKept_ite h2 (Dev.wiresKept_trans h2 (Dev.wiresKept_moveTo hb d2 p))))
    exact Dev.wiresKept_trans (hset h1 (by rfl)) (Dev.wiresKept_beamFault hb _ 2)
  case h_3 => exact Dev.wiresKept_refl d

theorem Dev.wiresKept_interpolate (d : Dev) : Dev.wiresKept h b d (d.interpolate h b) := by
  unfold Dev.interpolate
  extract_lets x cpr tau accs raw s1 next lim limited step m vel acc d1
  have h1 : Dev.wiresKept h b d d1 := Dev.wiresKept_setBeam (Dev.wiresKept_refl d) rfl
  exact Dev.wiresKept_ite (Dev.wiresKept_refl d) (Dev.wiresKept_ite h1 (Dev.wiresKept_trans h1 (Dev.wiresKept_moveTo hb d1 _)))

end Decode

end Sys2Proof.Machine
end

section
/-!
The glitch filter over a run of sampling cycles (R45), a beam between its edges (R51), the stall and GO (R55, R65): the statement on beams.
-/
namespace Sys2Proof.Machine

open Sys2Proof

/-! ### The glitch filter (R45) -/

/-- A line after `n` sampling cycles at one level. -/
def Line.held (x : Line) (v : Bool) (filt : Nat) : Nat → Line
  | 0 => x
  | n + 1 => (x.sample v filt).1.held v filt n

/-- A level is accepted where it was so before, or once its run has come to FILT cycles. -/
theorem Line.acc_held (x : Line) (v : Bool) (filt n : Nat) : (x.held v filt n).acc = v ↔ (x.acc = v ∨ (0 < n ∧ filt ≤ x.run + n)) := by
  induction n generalizing x with
  | zero => simp [Line.held]
  | succ n ih =>
    rw [Line.held, ih]
    unfold Line.sample
    split
    · next hv => simp [hv]
    · next hv =>
      have hv' : ¬ x.acc = v := fun h => hv h.symm
      split
      · next hf =>
        simp only [true_or, true_iff]
        exact .inr ⟨by omega, by omega⟩
      · next hf =>
        simp only [hv', false_or]
        omega

/-- A line that shows the level it has accepted accepts nothing. -/
theorem Line.sample_still {x : Line} (hx : x.raw = x.acc) (filt : Nat) : (x.sample x.raw filt).2.1 = false := by
  unfold Line.sample
  rw [if_pos hx]

/-! ### A sampling cycle -/

/-- The devices when the filter has left the lines of beam `b` at `ra`, `rb`, `rz` and counted what it dropped. -/
def Dev.filtered (d : Dev) (h : Half) (b : Nat) (ra rb rz : Line × Bool × Bool) : Dev :=
  (if b2n ra.2.2 + b2n rb.2.2 + b2n rz.2.2 = 0 then d else d.sat (hLoc h .beam) (BEAM_QERR.GLITCH.ix b) (b2n ra.2.2 + b2n rb.2.2 + b2n rz.2.2)).setBeam h b
    { d.beam h b with lineA := ra.1, lineB := rb.1, lineZ := rz.1 }

/-- `y` has gone on from `x` in forward direction, at the same count, and has not reached `next`. -/
def Beam.forwardTo (x : Beam) (next : Int) (y : Beam) : Prop := x.pos ≤ y.pos ∧ y.pos < next ∧ y.u = x.u ∧ y.dir = false

section Sample
variable {h : Half} {b : Nat} (hb : b < 4)
include hb

theorem Dev.filtered_spec (d : Dev) (ra rb rz : Line × Bool × Bool) :
    d.setsKept (d.filtered h b ra rb rz) ∧ (d.filtered h b ra rb rz).beam h b = { d.beam h b with lineA := ra.1, lineB := rb.1, lineZ := rz.1 } := by
  refine ⟨Dev.setsKept_trans ?_ (Dev.setsKept_setBeam _ _), Dev.beam_setBeam_same _ _ _ _⟩
  split
  · exact Dev.setsKept_refl d
  · exact (Dev.noted_status d h hb rfl _).1

/-- Decoding leaves the lines as the filter left them. -/
theorem Dev.decodeBeam_wires (d : Dev) (ra rb rz : Line × Bool × Bool) {quiet : Dev → Dev} (hq : ∀ e, Dev.wiresKept h b e (quiet e)) :
    d.setsKept (d.decodeBeam h b ra rb rz quiet) ∧ ((d.decodeBeam h b ra rb rz quiet).beam h b).wires = (ra.1, rb.1, rz.1, (d.beam h b).now) := by
  obtain ⟨hsets, hbeam⟩ := Dev.filtered_spec hb d ra rb rz
  suffices hdec : Dev.wiresKept h b (d.filtered h b ra rb rz) (d.decodeBeam h b ra rb rz quiet) by
    refine ⟨Dev.setsKept_trans hsets hdec.1, hdec.2.trans ?_⟩
    rw [hbeam]
    rfl
  unfold Dev.decodeBeam
  extract_lets l x glitches d1 up d2
  have h2 : Dev.wiresKept h b d1 d2 := Dev.wiresKept_ite
    (Dev.wiresKept_trans (Dev.wiresKept_of_noted (Dev.noted_status d1 h hb rfl _)) (Dev.wiresKept_beamFault hb _ 1))
    (Dev.wiresKept_ite (Dev.wiresKept_edge hb d1 _) (hq d1))
  exact Dev.wiresKept_ite (Dev.wiresKept_refl d1)
    (Dev.wiresKept_trans (Dev.wiresKept_ite (Dev.wiresKept_trans h2 (Dev.wiresKept_index hb d2)) h2) (Dev.wiresKept_speedCheck hb _))

omit hb in
/-- A cycle in which no line is accepted does what `quiet` does, then checks the speed. -/
theorem Dev.decodeBeam_still {d : Dev} {ra rb rz : Line × Bool × Bool} (quiet : Dev → Dev) (hon : (d.beam h b).state ≠ .off) (ha : ra.2.1 = false)
    (hbb : rb.2.1 = false) (hz : rz.2.1 = false) : d.decodeBeam h b ra rb rz quiet = (quiet (d.filtered h b ra rb rz)).speedCheck h b := by
  unfold Dev.decodeBeam
  dsimp only
  rw [if_neg hon, ha, hbb, hz]
  rfl

theorem Dev.sampleBeam_wires (d : Dev) (a bb z : Bool) :
    d.setsKept (d.sampleBeam h b a bb z) ∧ ((d.sampleBeam h b a bb z).beam h b).wires =
      (((d.beam h b).lineA.sample a (d.bg h b BEAM_CFG.FILT)).1, ((d.beam h b).lineB.sample bb (d.bg h b BEAM_CFG.FILT)).1,
        ((d.beam h b).lineZ.sample z (d.bg h b BEAM_CFG.FILT)).1, (d.beam h b).now + 1) := by
  have hdec := Dev.decodeBeam_wires hb (d.setBeam h b { d.beam h b with now := (d.beam h b).now + 1 }) ((d.beam h b).lineA.sample a (d.bg h b BEAM_CFG.FILT))
    ((d.beam h b).lineB.sample bb (d.bg h b BEAM_CFG.FILT)) ((d.beam h b).lineZ.sample z (d.bg h b BEAM_CFG.FILT)) (fun e => Dev.wiresKept_interpolate (h := h) hb e)
  rw [Dev.beam_setBeam_same] at hdec
  exact ⟨Dev.setsKept_trans (Dev.setsKept_setBeam d _) hdec.1, hdec.2⟩

theorem Dev.sampleRun_wires (d : Dev) (a bb z : Bool) (n : Nat) : ((d.sampleRun h b a bb z n).beam h b).wires =
    ((d.beam h b).lineA.held a (d.bg h b BEAM_CFG.FILT) n, (d.beam h b).lineB.held bb (d.bg h b BEAM_CFG.FILT) n,
      (d.beam h b).lineZ.held z (d.bg h b BEAM_CFG.FILT) n, (d.beam h b).now + n) := by
  induction n generalizing d with
  | zero => rfl
  | succ n ih =>
    obtain ⟨hsets, hwires⟩ := Dev.sampleBeam_wires hb d a bb z
    simp only [Beam.wires, Prod.mk.injEq] at hwires
    obtain ⟨hA, hB, hZ, hnow⟩ := hwires
    rw [Dev.sampleRun, ih, Dev.bg_of_setsKept hsets h hb (by decide), hA, hB, hZ, hnow, Nat.add_assoc, Nat.add_comm 1 n]
    rfl

/-! ### Between edges (R51) -/

/-- The speed check changes no more of its beam than whether it is fast. -/
theorem Dev.speedCheck_beam (d : Dev) : ∃ f, (d.speedCheck h b).beam h b = { d.beam h b with fast := f } := by
  unfold Dev.speedCheck
  extract_lets x speed fast d1
  refine ⟨fast, ?_⟩
  have hfault : d1.noted (d1.beamFault h b 4) := by
    unfold Dev.beamFault
    extract_lets l ev d2 d3
    have h2 : d1.noted d2 := Dev.noted_trans (Dev.noted_status d1 h hb rfl _) (Dev.noted_raise _ (hLoc_page h .beam 0) _)
    have h3 : d3 = d2 := if_neg (by simp)
    rw [h3]
    split
    · exact Dev.noted_trans h2 (Dev.noted_reportP _ h _ _ _)
    · exact h2
  split
  · rw [Dev.beam_of_noted hfault, Dev.beam_setBeam_same]
  · exact Dev.beam_setBeam_same _ _ _ _

/-- A beam that turns forward advances from its last edge by less than the way to the next one. -/
theorem Dev.interpolate_forward {d : Dev} (hdir : (d.beam h b).dir = false)
    (hlast : (d.beam h b).aLast ≤ edgePos (d.bg h b BEAM_CPR.CPR) ((d.beam h b).u + 1))
    (hpos : (d.beam h b).pos < edgePos (d.bg h b BEAM_CPR.CPR) ((d.beam h b).u + 1)) :
    (d.beam h b).forwardTo (edgePos (d.bg h b BEAM_CPR.CPR) ((d.beam h b).u + 1)) ((d.interpolate h b).beam h b) := by
  unfold Dev.interpolate
  extract_lets x cpr tau accs raw s1 next lim limited step m vel acc d1
  have hstep : step ≤ lim := by
    unfold step
    split
    · exact le_refl lim
    · next hl =>
      have : ¬ lim < s1 := fun hlt => hl (by simp [limited, hlt])
      omega
  have hnext : next = edgePos cpr (x.u + 1) := by simp [next, x, hdir]
  have hstop : x.aLast + step < next := by
    have hle : x.aLast ≤ next := hnext ▸ hlast
    omega
  have hstay : x.forwardTo (edgePos cpr (x.u + 1)) x := ⟨le_refl _, hpos, rfl, hdir⟩
  have h1 : d1.beam h b = { x with tau := tau, stepPrev := step.toNat, vel := if x.edges < 2 then 0 else vel, acc := acc, atLim := limited } :=
    Dev.beam_setBeam_same _ _ _ _
  split
  · exact hstay
  · split
    · rw [h1]
      exact hstay
    · obtain ⟨-, hmove⟩ := Dev.moveTo_spec hb d1 (if x.dir then x.aLast - step else x.aLast + step)
      have hx : x.dir = false := hdir
      rw [hmove, h1]
      simp only [hx, Bool.false_eq_true, if_false]
      split
      · next hahead => exact ⟨hahead.le, hnext ▸ hstop, rfl, rfl⟩
      · exact ⟨le_refl _, hpos, rfl, rfl⟩

/-- A sampling cycle in which no line changes moves a beam that turns forward towards the next edge. -/
theorem Dev.sampleBeam_forward {d : Dev} (hon : (d.beam h b).state ≠ .off) (hdir : (d.beam h b).dir = false)
    (hA : (d.beam h b).lineA.raw = (d.beam h b).lineA.acc) (hB : (d.beam h b).lineB.raw = (d.beam h b).lineB.acc)
    (hZ : (d.beam h b).lineZ.raw = (d.beam h b).lineZ.acc)
    (hlast : (d.beam h b).aLast ≤ edgePos (d.bg h b BEAM_CPR.CPR) ((d.beam h b).u + 1))
    (hpos : (d.beam h b).pos < edgePos (d.bg h b BEAM_CPR.CPR) ((d.beam h b).u + 1)) :
    (d.beam h b).forwardTo (edgePos (d.bg h b BEAM_CPR.CPR) ((d.beam h b).u + 1))
      ((d.sampleBeam h b (d.beam h b).lineA.raw (d.beam h b).lineB.raw (d.beam h b).lineZ.raw).beam h b) := by
  unfold Dev.sampleBeam
  extract_lets x filt
  obtain ⟨hsets, hbeam⟩ := Dev.filtered_spec hb (d.setBeam h b { x with now := x.now + 1 }) (x.lineA.sample x.lineA.raw filt)
    (x.lineB.sample x.lineB.raw filt) (x.lineZ.sample x.lineZ.raw filt)
  rw [Dev.beam_setBeam_same] at hbeam
  rw [Dev.decodeBeam_still (fun y => y.interpolate h b) (by rw [Dev.beam_setBeam_same]; exact hon) (Line.sample_still hA filt) (Line.sample_still hB filt)
    (Line.sample_still hZ filt)]
  generalize (d.setBeam h b { x with now := x.now + 1 }).filtered h b (x.lineA.sample x.lineA.raw filt)
    (x.lineB.sample x.lineB.raw filt) (x.lineZ.sample x.lineZ.raw filt) = e at hsets hbeam ⊢
  have hcpr : e.bg h b BEAM_CPR.CPR = d.bg h b BEAM_CPR.CPR := Dev.bg_of_setsKept (Dev.setsKept_trans (Dev.setsKept_setBeam d _) hsets) h hb (by decide)
  obtain ⟨f, hspeed⟩ := Dev.speedCheck_beam (h := h) hb (e.interpolate h b)
  have hforward := Dev.interpolate_forward (h := h) hb (d := e) (by rw [hbeam]; exact hdir) (by rw [hbeam, hcpr]; exact hlast) (by rw [hbeam, hcpr]; exact hpos)
  rw [hbeam, hcpr] at hforward
  rw [hspeed]
  exact hforward

/-! ### The stall and GO (R55, R65) -/

/-- What a stall leaves of a beam. -/
def Beam.stalled (x : Beam) : Beam :=
  { x with stopped := true, sameDir := 0, vel := 0, acc := 0, velEdge := 0, velK := 0, accK := 0, fast := false }

/-- What GO makes of a beam in FAULT whose encoder has `cpr` counts: at the edge angle of its count, its estimates restarted. -/
def Beam.resynced (x : Beam) (cpr : Nat) (seek : Bool) : Beam :=
  { x.restart with
    state := if seek then .seeking else .synced, pos := edgePos cpr x.u, aLast := edgePos cpr x.u, ext := x.u, uIdx := x.u, inHyst := false, stopped := true,
    sameDir := 0 }

theorem Dev.resync_beam {d : Dev} (hf : (d.beam h b).state = .fault) : (d.resync h b).beam h b =
    (d.beam h b).resynced (d.bg h b BEAM_CPR.CPR) (decide (d.bg h b BEAM_CFG.MODE = 0 ∧ d.bg h b BEAM_CFG.IDX_EN = 1)) := by
  unfold Dev.resync
  extract_lets x seek p y d1 d2
  have h2 : d1.noted d2 := by
    unfold d2
    split
    · exact Dev.noted_refl d1
    · exact Dev.noted_raise d1 (hLoc_page h .beam 0) _
  rw [if_pos hf, Dev.beam_of_noted (Dev.noted_trans (Dev.noted_trans h2 (Dev.noted_marker d2 h hb .stateMarker)) (Dev.noted_showBeam _ h hb))]
  exact Dev.beam_setBeam_same _ _ _ _
omit hb in
theorem Dev.resync_still {d : Dev} (hf : (d.beam h b).state ≠ .fault) : d.resync h b = d := if_neg hf

end Sample

/-! ### The commands -/

/-- The beam unit of a half that runs obeys its commands. -/
theorem beamGuard_awake {s : State} {h : Half} (hs : s.awake h (hLoc h .beam)) (f : Dev → Dev) : beamGuard s h f = f s.dev := by
  obtain ⟨hlive, hclock⟩ := hs
  simp only [Referee.live, Bool.and_eq_true, decide_eq_true_eq, Bool.not_eq_true'] at hlive
  obtain ⟨⟨hquar, hoff⟩, hsby⟩ := hlive
  unfold beamGuard
  dsimp only
  split
  · next h0 => exact absurd h0 hoff
  · rw [if_neg (by simp [hsby, hclock])]
    split
    · next hq => exact absurd hq hquar
    · rfl

section Commands
variable {s : State} {h : Half} {b : Fin 4} (hs : s.awake h (hLoc h .beam))
include hs

theorem exec_beamInputEdge (a bb z : Bool) (n : Nat) :
    exec (.beamInputEdge h b a bb z n) s = .next { s with dev := (s.dev.sampleRun h b a bb z n).showBeam h b } := by
  unfold exec
  dsimp only
  rw [execBeamInputEdge, onDev_eq, beamGuard_awake hs]

theorem exec_interpolatedAngleAdvance : exec (.interpolatedAngleAdvance h b) s = .next { s with
    dev := (s.dev.sampleBeam h b (s.dev.beam h b).lineA.raw (s.dev.beam h b).lineB.raw (s.dev.beam h b).lineZ.raw).showBeam h b } := by
  unfold exec
  dsimp only
  rw [execInterpolatedAngleAdvance, onDev_eq, beamGuard_awake hs]

theorem exec_beamStallTimeout_early (hnow : (s.dev.beam h b).now < (s.dev.beam h b).lastEdge + 200 * s.dev.bg h b BEAM_STALL.STALL) :
    exec (.beamStallTimeout h b) s = .next s := by
  unfold exec
  dsimp only
  rw [execBeamStallTimeout, onDev_eq, beamGuard_awake hs, Dev.stallDue, decide_eq_false (Nat.not_le.2 hnow)]
  rfl
theorem exec_beamStallTimeout_due (hnow : (s.dev.beam h b).lastEdge + 200 * s.dev.bg h b BEAM_STALL.STALL ≤ (s.dev.beam h b).now) :
    exec (.beamStallTimeout h b) s = .next { s with dev := (s.dev.setBeam h b (s.dev.beam h b).stalled).showBeam h b } := by
  unfold exec
  dsimp only
  rw [execBeamStallTimeout, onDev_eq, beamGuard_awake hs, Dev.stallDue, decide_eq_true hnow]
  rfl

theorem exec_beamResync (hsole : s.sole h) : exec (.beamResync h b) s = .next { s with dev := (s.dev.seq (hLoc h .beam)).resync h b } := by
  unfold exec
  dsimp only
  rw [execBeamResync, forwarded_alone hsole, onDev_eq, beamGuard_awake hs]

end Commands

end Sys2Proof.Machine

open Sys2Proof Sys2Proof.Machine

/-- Settles O8: decoding leaves the lines to the filter and the beams' configuration alone, so a run of cycles filters each line by itself; between
edges a step is cut to what is left of the way to the next edge. -/
theorem beamsFilterInterpolateAndStall : Obligations.BeamsFilterInterpolateAndStall := by
  unfold Obligations.BeamsFilterInterpolateAndStall
  refine ⟨fun s h b a bb z n hs => ?filter, fun s h b hs hon hdir hA hB hZ hlast hpos => ?advance, fun s h b hs hnow => exec_beamStallTimeout_early hs hnow,
    fun s h b hs hnow => ?stall, fun s h b hs hsole hf => ?go, fun s h b hs hsole hf => ?still⟩
  case filter =>
    have hwires := Dev.sampleRun_wires (h := h) b.isLt s.dev a bb z n
    simp only [Beam.wires, Prod.mk.injEq] at hwires
    obtain ⟨hA, hB, hZ, hnow⟩ := hwires
    refine ⟨_, exec_beamInputEdge hs a bb z n, rfl, rfl, rfl, ?_⟩
    dsimp only
    rw [Dev.beam_of_noted (Dev.noted_showBeam _ h b.isLt), hA, hB, hZ]
    exact ⟨Line.acc_held _ a _ n, Line.acc_held _ bb _ n, Line.acc_held _ z _ n, hnow⟩
  case advance =>
    refine ⟨_, exec_interpolatedAngleAdvance hs, rfl, rfl, ?_⟩
    dsimp only
    rw [Dev.beam_of_noted (Dev.noted_showBeam _ h b.isLt)]
    exact Dev.sampleBeam_forward b.isLt hon hdir hA hB hZ hlast hpos
  case stall =>
    refine ⟨_, exec_beamStallTimeout_due hs hnow, rfl, rfl, ?_⟩
    dsimp only
    rw [Dev.beam_of_noted (Dev.noted_showBeam _ h b.isLt), Dev.on_stopped_showBeam, Dev.beam_setBeam_same]
    exact ⟨rfl, rfl, rfl, rfl, rfl⟩
  case go =>
    have hseq : s.dev.noted (s.dev.seq (hLoc h .beam)) := Dev.noted_seq s.dev (hLoc_page h .beam 0)
    have hbeam := Dev.beam_of_noted hseq h b
    have hcfg {f : Fld} (hf : f.stride = 0x20 ∧ 0x40 ≤ f.off ∧ f.off < 0x60) : (s.dev.seq (hLoc h .beam)).bg h b f = s.dev.bg h b f :=
      Dev.bg_of_setsKept hseq.1 h b.isLt hf
    refine ⟨_, exec_beamResync hs hsole, rfl, rfl, ?_⟩
    dsimp only
    rw [Dev.resync_beam b.isLt (by rw [hbeam]; exact hf), hbeam, hcfg (by decide), hcfg (by decide), hcfg (by decide)]
    refine ⟨?_, rfl, rfl, rfl, rfl, rfl, rfl⟩
    simp [Beam.resynced]
  case still =>
    have hbeam := Dev.beam_of_noted (Dev.noted_seq s.dev (hLoc_page h .beam 0)) h b
    rw [exec_beamResync hs hsole, Dev.resync_still (by rw [hbeam]; exact hf)]

end

section
/-! The prediction unit (R56) and the replica snapshots (R64): the statement on predictions and snapshots. -/
namespace Sys2Proof.Machine

open Sys2Proof

theorem Dev.regsKept_mono {ks ks' : List Nat} {d e : Dev} (hks : ∀ k ∈ ks, k ∈ ks') (h : d.regsKept ks e) : d.regsKept ks' e :=
  fun k hk he => h k (fun hm => hk (hks k hm)) he

/-! ### What the fields of a page read after writes of its fields -/

theorem Dev.g_p_page (d : Dev) (l : Loc) {f g : Fld} (v : Nat) (hne : g.off ≠ f.off) : (d.p l f v).g l g = d.g l g :=
  Dev.g_p_ne d v fun he => hne (Nat.add_left_cancel he)
theorem Dev.on_p_page (d : Dev) (l : Loc) {f g : Fld} (v : Nat) (hne : g.off ≠ f.off) : (d.p l f v).on l g = d.on l g := by
  unfold Dev.on
  rw [Dev.g_p_page d l v hne]
theorem Dev.on_p_disj (d : Dev) (l : Loc) {f g : Fld} (v : Nat) (ho : g.off = f.off) (hw : f.lo + f.w ≤ 32) (hd : g.lo + g.w ≤ f.lo ∨ f.lo + f.w ≤ g.lo) :
    (d.p l f v).on l g = d.on l g := by
  unfold Dev.on
  rw [Dev.g_p_disj d l v ho hw hd]
theorem Dev.on_p_flag (d : Dev) (l : Loc) {f : Fld} (hlo : f.lo < 32) (hw : f.w = 1) (v : Bool) : (d.p l f (b2n v)).on l f = v := by
  unfold Dev.on
  rw [Dev.g_p_same d l f _ (by omega), hw]
  cases v <;> rfl
theorem Dev.on_p_one (d : Dev) (l : Loc) {f : Fld} (hlo : f.lo < 32) (hw : f.w = 1) : (d.p l f 1).on l f = true := Dev.on_p_flag d l hlo hw true
theorem Dev.on_p_zero (d : Dev) (l : Loc) {f : Fld} (hlo : f.lo < 32) (hw : f.w = 1) : (d.p l f 0).on l f = false := Dev.on_p_flag d l hlo hw false

/-- A 64-bit value reads as written. -/
theorem Dev.g64_p64 (d : Dev) (l : Loc) {lo hi : Fld} {v : Nat} (hlo : lo.lo = 0 ∧ lo.w = 32) (hhi : hi.lo = 0 ∧ hi.w = 32) (hne : lo.off ≠ hi.off)
    (hv : v < 2 ^ 64) : (d.p64 l lo hi v).g64 l lo hi = v := by
  unfold Dev.p64 Dev.g64
  rw [Dev.g_p_page _ l _ hne, Dev.g_p_word d l hlo.1 hlo.2 (by omega), Dev.g_p_word _ l hhi.1 hhi.2 (by omega)]
  omega

/-! ### A request for a prediction -/

/-- Counting a write of the beam page leaves that page's other registers alone. -/
theorem Dev.g_seq_beam (d : Dev) (h : Half) {f : Fld} (hf : f.off < 0x100000) (hne : f.off ≠ 0x03C) :
    (d.seq (hLoc h .beam)).g (hLoc h .beam) f = d.g (hLoc h .beam) f := Dev.g_seq_locOf d _ _ hf hne

theorem Dev.on_seq_beam (d : Dev) (h : Half) {f : Fld} (hf : f.off < 0x100000) (hne : f.off ≠ 0x03C) :
    (d.seq (hLoc h .beam)).on (hLoc h .beam) f = d.on (hLoc h .beam) f := by
  unfold Dev.on
  rw [Dev.g_seq_beam d h hf hne]

/-- A prediction turns on registers of the beam page, the time base and what the beam last broadcast. -/
theorem Dev.predict_congr {d e : Dev} {h : Half} {b : Nat} (hreg : ∀ f : Fld, f.ofBeam = true → e.g (hLoc h .beam) (f.ix b) = d.g (hLoc h .beam) (f.ix b))
    (hbeam : e.beam h b = d.beam h b) (htb : e.tb h = d.tb h) (rev angle : Nat) : e.predict h b rev angle = d.predict h b rev angle := by
  have hcoarse : e.on (hLoc h .beam) (BEAM_STATE.PRED_COARSE.ix b) = d.on (hLoc h .beam) (BEAM_STATE.PRED_COARSE.ix b) := by
    unfold Dev.on
    rw [hreg BEAM_STATE.PRED_COARSE rfl]
  unfold Dev.predict
  simp only [hreg BEAM_REV.REV rfl, hreg BEAM_ANGLE.ANGLE rfl, hreg BEAM_VEL.VEL rfl, hreg BEAM_ACC.ACC rfl, hcoarse, hbeam, htb]

theorem Dev.seq_tb (d : Dev) (h k : Half) : (d.seq (hLoc h .beam)).tb k = d.tb k := by
  rw [Dev.seq, Dev.wrap_eq]
  cases k
  · exact Dev.p_tbA d _ _ _
  · exact Dev.p_tbB d _ _ _

theorem Dev.predict_seq (d : Dev) (h : Half) {b : Nat} (hb : b < 4) (rev angle : Nat) :
    (d.seq (hLoc h .beam)).predict h b rev angle = d.predict h b rev angle := by
  refine Dev.predict_congr (fun f hf => ?_) (Dev.beam_of_noted (Dev.noted_seq d (hLoc_page h .beam 0)) h b) (Dev.seq_tb d h h) rev angle
  obtain ⟨hlo, hhi⟩ := Fld.ix_off_of_ofBeam hf hb
  exact Dev.g_seq_beam d h (by omega) (by omega)

/-- The outcome the unit of a half is working on. -/
def Dev.pred (d : Dev) (h : Half) : Pred := SMap.get (fun _ => {}) d.preds h.n

theorem Dev.on_preds (d : Dev) (m : SMap Pred) (l : Loc) (f : Fld) : ({ d with preds := m } : Dev).on l f = d.on l f := rfl
theorem Dev.regsKept_preds {ks : List Nat} {d e : Dev} (h : d.regsKept ks e) (m : SMap Pred) : d.regsKept ks { e with preds := m } := h

/-- A request that finds the unit idle starts it. -/
theorem Dev.predReq_idle {d : Dev} {h : Half} (hidle : d.on (hLoc h .beam) BEAM_PRED_CTL.BUSY = false) :
    (d.predReq h).on (hLoc h .beam) BEAM_PRED_CTL.BUSY = true ∧ (d.predReq h).on (hLoc h .beam) BEAM_PRED_STAT.OVERRUN = false ∧
      (d.predReq h).pred h = d.predict h (d.g (hLoc h .beam) BEAM_PRED_CTL.BEAM) (d.g (hLoc h .beam) BEAM_PRED_REV.REV)
        (d.g (hLoc h .beam) BEAM_PRED_ANGLE.ANGLE) ∧
      d.regsKept [hLoc h .beam + 0x900, hLoc h .beam + 0x914] (d.predReq h) := by
  unfold Dev.predReq
  extract_lets l r
  rw [hidle, if_neg Bool.false_ne_true]
  refine ⟨?_, ?_, SMap.get_set_same _ _ _, Dev.regsKept_preds ?_ _⟩
  · rw [Dev.on_preds, Dev.on_p_page _ l 0 (by decide), Dev.on_p_one d l (by decide) rfl]
  · rw [Dev.on_preds, Dev.on_p_zero _ l (by decide) rfl]
  · exact Dev.regsKept_p (Dev.regsKept_p (Dev.regsKept_refl _ d) (by simp [l, BEAM_PRED_CTL.BUSY]) 1) (by simp [l, BEAM_PRED_STAT.OVERRUN]) 0
/-- One that finds it busy only sets OVERRUN. -/
theorem Dev.predReq_busy {d : Dev} {h : Half} (hbusy : d.on (hLoc h .beam) BEAM_PRED_CTL.BUSY = true) :
    d.predReq h = d.p (hLoc h .beam) BEAM_PRED_STAT.OVERRUN 1 := if_pos hbusy

theorem exec_predReq {s : State} {h : Half} (hs : s.awake h (hLoc h .beam)) (hsole : s.sole h) :
    exec (.predReq h) s = .next { s with dev := (s.dev.seq (hLoc h .beam)).predReq h } := by
  unfold exec
  dsimp only
  rw [execPredReq, forwarded_alone hsole, onWrite_live hs.1]

/-! ### The end of a prediction -/

/-- The devices when the unit's result has been written. -/
def Dev.predicted (d : Dev) (h : Half) : Dev :=
  (((((({ d with preds := SMap.set (fun _ => {}) d.preds h.n {} }.p64 (hLoc h .beam) BEAM_PRED_TLO.T BEAM_PRED_THI.T ((d.pred h).time % 2 ^ 64)).p
    (hLoc h .beam) BEAM_PRED_STAT.VALID 1).p (hLoc h .beam) BEAM_PRED_STAT.NEVER (b2n (d.pred h).never)).p (hLoc h .beam)
    BEAM_PRED_STAT.STOPS_SHORT (b2n (d.pred h).short)).p (hLoc h .beam) BEAM_PRED_STAT.FAR (b2n (d.pred h).far)).p (hLoc h .beam)
    BEAM_PRED_STAT.COARSE (b2n (d.pred h).coarse)).p (hLoc h .beam) BEAM_PRED_CTL.BUSY 0

theorem exec_predDone {s : State} {h : Half} (hs : s.awake h (hLoc h .beam)) (hbusy : s.dev.on (hLoc h .beam) BEAM_PRED_CTL.BUSY = true) :
    exec (.predDone h) s = .next { s with dev := (s.dev.predicted h).raise (hLoc h .beam) 25 } := by
  unfold exec
  dsimp only
  rw [execPredDone, onHalf_live hs.1]
  dsimp only
  rw [if_pos hbusy]
  rfl

/-- The result of a prediction, as its registers show it. -/
theorem Dev.predicted_spec (d : Dev) (h : Half) :
    (d.predicted h).g64 (hLoc h .beam) BEAM_PRED_TLO.T BEAM_PRED_THI.T = (d.pred h).time % 2 ^ 64 ∧
      (d.predicted h).on (hLoc h .beam) BEAM_PRED_STAT.VALID = true ∧
      (d.predicted h).on (hLoc h .beam) BEAM_PRED_STAT.STOPS_SHORT = (d.pred h).short ∧
      (d.predicted h).on (hLoc h .beam) BEAM_PRED_STAT.FAR = (d.pred h).far ∧
      (d.predicted h).on (hLoc h .beam) BEAM_PRED_STAT.COARSE = (d.pred h).coarse ∧
      (d.predicted h).on (hLoc h .beam) BEAM_PRED_STAT.NEVER = (d.pred h).never ∧
      (d.predicted h).on (hLoc h .beam) BEAM_PRED_CTL.BUSY = false := by
  have htime (e : Dev) : (e.p64 (hLoc h .beam) BEAM_PRED_TLO.T BEAM_PRED_THI.T ((d.pred h).time % 2 ^ 64)).g64 (hLoc h .beam) BEAM_PRED_TLO.T BEAM_PRED_THI.T =
      (d.pred h).time % 2 ^ 64 := Dev.g64_p64 e _ (by decide) (by decide) (by decide) (Nat.mod_lt _ (by decide))
  unfold Dev.predicted
  constructor
  · unfold Dev.g64 at htime ⊢
    simp (disch := decide) only [Dev.g_p_page, htime]
  · simp (disch := decide) only [Dev.on_p_page, Dev.on_p_disj, Dev.on_p_flag, Dev.on_p_one, Dev.on_p_zero, and_self]

theorem Dev.regsKept_predicted (d : Dev) (h : Half) :
    d.regsKept [hLoc h .beam + 0x900, hLoc h .beam + 0x90C, hLoc h .beam + 0x910, hLoc h .beam + 0x914] (d.predicted h) := by
  unfold Dev.predicted Dev.p64
  refine Dev.regsKept_p (Dev.regsKept_p (Dev.regsKept_p (Dev.regsKept_p (Dev.regsKept_p (Dev.regsKept_p (Dev.regsKept_p (Dev.regsKept_p
    (Dev.regsKept_preds (Dev.regsKept_refl _ d) _) ?_ _) ?_ _) ?_ _) ?_ _) ?_ _) ?_ _) ?_ _) ?_ _
  all_goals simp [BEAM_PRED_TLO.T, BEAM_PRED_THI.T, BEAM_PRED_STAT.VALID, BEAM_PRED_STAT.NEVER, BEAM_PRED_STAT.STOPS_SHORT, BEAM_PRED_STAT.FAR,
    BEAM_PRED_STAT.COARSE, BEAM_PRED_CTL.BUSY]

theorem Dev.clocked_predicted (d : Dev) (h : Half) : (d.predicted h).clocked (hLoc h .beam) = d.clocked (hLoc h .beam) := by
  unfold Dev.predicted Dev.p64 Dev.clocked
  simp (disch := decide) only [Dev.on_p_page, Dev.on_preds]

/-- An event of the beam page leaves that page's other registers alone. -/
theorem Dev.g_raise_beam (d : Dev) (h : Half) (n : Nat) {f : Fld} (hf : f.off < 0xBF0) (h14 : f.off ≠ 0x014) (h1C : f.off ≠ 0x01C) :
    (d.raise (hLoc h .beam) n).g (hLoc h .beam) f = d.g (hLoc h .beam) f :=
  Dev.g_raise d (hLoc_page h .beam 0) n _ f (evReg_header _ hf h14 h1C)
theorem Dev.on_raise_beam (d : Dev) (h : Half) (n : Nat) {f : Fld} (hf : f.off < 0xBF0) (h14 : f.off ≠ 0x014) (h1C : f.off ≠ 0x01C) :
    (d.raise (hLoc h .beam) n).on (hLoc h .beam) f = d.on (hLoc h .beam) f := by
  unfold Dev.on
  rw [Dev.g_raise_beam d h n hf h14 h1C]

theorem Dev.g64_raise_beam (d : Dev) (h : Half) (n : Nat) {lo hi : Fld} (hlo : lo.off < 0xBF0 ∧ lo.off ≠ 0x014 ∧ lo.off ≠ 0x01C)
    (hhi : hi.off < 0xBF0 ∧ hi.off ≠ 0x014 ∧ hi.off ≠ 0x01C) : (d.raise (hLoc h .beam) n).g64 (hLoc h .beam) lo hi = d.g64 (hLoc h .beam) lo hi := by
  unfold Dev.g64
  rw [Dev.g_raise_beam d h n hlo.1 hlo.2.1 hlo.2.2, Dev.g_raise_beam d h n hhi.1 hhi.2.1 hhi.2.2]

/-! ### Replica snapshots (R64) -/

/-- The devices when the snapshots of the beams below `n` have been taken. -/
def Dev.snapped (d : Dev) (h : Half) (n : Nat) : Dev :=
  (List.range n).foldl (fun x b => { x with snaps := SMap.set (fun _ => {}) x.snaps (h.n * 4 + b) (d.snapOf h b) }) d

theorem Dev.snapped_succ (d : Dev) (h : Half) (n : Nat) : d.snapped h (n + 1) =
    { d.snapped h n with snaps := SMap.set (fun _ => {}) (d.snapped h n).snaps (h.n * 4 + n) (d.snapOf h n) } := by
  simp [Dev.snapped, List.range_succ]

theorem Dev.snapped_spec (d : Dev) (h : Half) (n : Nat) :
    (d.snapped h n).regs = d.regs ∧ ∀ b, b < n → (d.snapped h n).snap h b = d.snapOf h b := by
  induction n with
  | zero => exact ⟨rfl, fun b hb => absurd hb (Nat.not_lt_zero b)⟩
  | succ n ih =>
    obtain ⟨hregs, hsnap⟩ := ih
    rw [Dev.snapped_succ]
    refine ⟨hregs, fun b hb => ?_⟩
    change SMap.get (fun _ => {}) (SMap.set (fun _ => {}) (d.snapped h n).snaps (h.n * 4 + n) (d.snapOf h n)) (h.n * 4 + b) = _
    rw [SMap.get_set]
    split
    · next hbn => rw [show b = n by omega]
    · next hbn => exact hsnap b (by omega)

theorem exec_replicaSnapshot {s : State} {h : Half} (hs : s.awake h (hLoc h .beam)) (htb : s.dev.tb h % 400 = 0) :
    exec (.replicaSnapshot h) s = .next { s with dev := s.dev.snapped h 4 } := by
  unfold exec
  dsimp only
  rw [execReplicaSnapshot, onHalf_live hs.1, if_pos htb]
  rfl
theorem exec_replicaSnapshot_between {s : State} {h : Half} (hs : s.awake h (hLoc h .beam)) (htb : s.dev.tb h % 400 ≠ 0) :
    exec (.replicaSnapshot h) s = .next s := by
  unfold exec
  dsimp only
  rw [execReplicaSnapshot, onHalf_live hs.1, if_neg htb]

end Sys2Proof.Machine

open Sys2Proof Sys2Proof.Machine

/-- Settles O9: a request and its result are writes of the prediction unit's registers; a snapshot copies what the last broadcast left. -/
theorem predictionsAndSnapshots : Obligations.PredictionsAndSnapshots := by
  unfold Obligations.PredictionsAndSnapshots
  refine ⟨fun s h hs hsole hidle => ?start, fun s h hs hsole hbusy => ?overrun, fun s h hs hbusy => ?done, fun s h hs htb => ?snap,
    fun s h hs htb => exec_replicaSnapshot_between hs htb⟩
  case start =>
    have hbeam : s.dev.g (hLoc h .beam) BEAM_PRED_CTL.BEAM < 4 := fget_lt BEAM_PRED_CTL.BEAM _
    obtain ⟨hbusy, hover, hpred, hregs⟩ := Dev.predReq_idle ((Dev.on_seq_beam s.dev h (by decide) (by decide)).trans hidle)
    simp (disch := decide) only [Dev.g_seq_beam] at hpred
    rw [Dev.predict_seq _ h hbeam] at hpred
    have hseq := (Dev.onlyRegs_seq s.dev (pageOf h.n .beam 0)).2
    exact ⟨_, exec_predReq hs hsole, rfl, rfl, hbusy, hover, hpred,
      Dev.regsKept_trans (Dev.regsKept_mono (by simp [hLoc]) hseq) (Dev.regsKept_mono (by simp) hregs)⟩
  case overrun =>
    rw [exec_predReq hs hsole, Dev.predReq_busy ((Dev.on_seq_beam s.dev h (by decide) (by decide)).trans hbusy)]
  case done =>
    obtain ⟨htime, hvalid, hshort, hfar, hcoarse, hnever, hidle⟩ := s.dev.predicted_spec h
    have hraised := Dev.raise_raised (s.dev.predicted h) (hLoc_page h .beam 0) (n := 25) (by decide) ((s.dev.clocked_predicted h).trans hs.2)
    have hregs := Dev.regsKept_trans (s.dev.regsKept_predicted h) (Dev.raise_frame _ (hLoc_page h .beam 0) 25 _).2
    refine ⟨_, exec_predDone hs hbusy, rfl, rfl, ?_⟩
    dsimp only
    rw [Dev.g64_raise_beam _ h 25 (by decide) (by decide)]
    simp (disch := decide) only [Dev.on_raise_beam]
    exact ⟨htime, hvalid, hshort, hfar, hcoarse, hnever, hidle, hraised, hregs⟩
  case snap =>
    obtain ⟨hregs, hsnap⟩ := s.dev.snapped_spec h 4
    refine ⟨_, exec_replicaSnapshot hs htb, rfl, rfl, hregs, fun b hb => ?_⟩
    dsimp only
    rw [hsnap b hb]
    exact ⟨rfl, rfl, rfl, rfl, rfl⟩

end

section
/-! Registers of the row pages and their context banks: where they lie, what a change of some leaves of the others (R96). -/
namespace Sys2Proof.Machine

open Sys2Proof

/-! ### Where the registers lie -/

theorem cxL_eq (h : Half) (e c : Nat) : cxL h e c = rowL h e + (c + 1) * 0x1000 := rfl
theorem rowL_page (h : Half) (e : Nat) : rowL h e % 0x100000 = 0 := hLoc_page h .row e
theorem pageOf_row (h : Half) {e : Nat} (he : e < 8) : pageOf h.n .row e = h.n * 4096 + 1 + e := by
  have hall : ∀ reg < 2, ∀ e < 8, pageOf reg .row e = reg * 4096 + 1 + e := by decide
  exact hall h.n (by cases h <;> decide) e he
theorem rowL_eq (h : Half) {e : Nat} (he : e < 8) : rowL h e = (h.n * 4096 + 1 + e) * 0x100000 := by
  change pageOf h.n .row e * 0x100000 = _
  rw [pageOf_row h he]

/-- A register of a context's bank is no register of the page itself. -/
theorem cx_ne_row (h : Half) (e c o : Nat) {o' : Nat} (ho : o' < 0x1000) : cxL h e c + o ≠ rowL h e + o' := by
  have := cxL_eq h e c
  unfold Loc at *
  omega
theorem evReg_cx (h : Half) (e : Nat) {c o : Nat} (hc : c < 32) (ho : o < 0x1000) : evReg (cxL h e c + o) = false := by
  have h1 := cxL_eq h e c
  have h2 := rowL_page h e
  simp only [evReg, Bool.or_eq_false_iff, Bool.and_eq_false_iff, decide_eq_false_iff_not]
  unfold Loc at *
  omega
theorem evReg_row (h : Half) {e o : Nat} (he : e < 8) (ho : o < 0x1000) (h14 : o ≠ 0x014) (h1C : o ≠ 0x01C) : evReg (rowL h e + o) = false := by
  have h1 := rowL_eq h he
  have h2 : pageOf 0 .hif 0 = 0x6A := by decide
  have h3 : pageOf 1 .hif 0 = 0x106A := by decide
  simp only [evReg, h2, h3, Bool.or_eq_false_iff, Bool.and_eq_false_iff, decide_eq_false_iff_not]
  cases h <;> simp only [Half.n] at h1 <;> unfold Loc at * <;> omega

/-! ### Registers that stay -/

/-- Every active register but those `W` names and those of event delivery reads as before. -/
def Dev.regsOff (W : Nat → Prop) (d e : Dev) : Prop := ∀ k, ¬ W k → evReg k = false → SMap.get regReset e.regs k = SMap.get regReset d.regs k

section
variable {W V : Nat → Prop} {d e f : Dev}

theorem Dev.regsOff_refl (W : Nat → Prop) (d : Dev) : d.regsOff W d := fun _ _ _ => rfl
theorem Dev.regsOff_trans (h1 : d.regsOff W e) (h2 : e.regsOff W f) : d.regsOff W f := fun k hk he => (h2 k hk he).trans (h1 k hk he)
theorem Dev.regsOff_mono (hs : ∀ k, V k → W k) (h : d.regsOff V e) : d.regsOff W e := fun k hk he => h k (fun hv => hk (hs k hv)) he
theorem Dev.regsOff_of_regs (h : e.regs = d.regs) : d.regsOff W e := fun _ _ _ => by rw [h]
theorem Dev.regsKept_of_regs {ks : List Nat} (h : e.regs = d.regs) : d.regsKept ks e := fun _ _ _ => by rw [h]
theorem Dev.regsOff_of_regsKept {ks : List Nat} (h : d.regsKept ks e) (hs : ∀ k ∈ ks, W k) : d.regsOff W e := fun k hk he =>
  h k (fun hm => hk (hs k hm)) he
theorem Dev.regsKept_of_regsOff {ks : List Nat} (h : d.regsOff W e) (hs : ∀ k, W k → k ∈ ks) : d.regsKept ks e := fun k hk he => h k (fun hm => hk (hs k hm)) he
theorem Dev.regsOff_wr (d : Dev) {l : Loc} {o : Nat} (w : Word) (h : W (l + o)) : d.regsOff W (d.wr l o w) := fun _ hk _ =>
  SMap.get_set_ne _ _ (fun hkl => hk (hkl ▸ h))
theorem Dev.regsOff_p (d : Dev) {l : Loc} {f : Fld} (v : Nat) (h : W (l + f.off)) : d.regsOff W (d.p l f v) := Dev.regsOff_wr d _ h
theorem Dev.regsOff_sat (d : Dev) {l : Loc} {f : Fld} (n : Nat) (h : W (l + f.off)) : d.regsOff W (d.sat l f n) := Dev.regsOff_wr d _ h
theorem Dev.regsOff_raise (W : Nat → Prop) (d : Dev) {l : Loc} (hl : l % 0x100000 = 0) (n : Nat) : d.regsOff W (d.raise l n) :=
  Dev.regsOff_of_regsKept (Dev.raise_frame d hl n []).2 (fun _ hk => absurd hk List.not_mem_nil)
theorem Dev.regsOff_raiseCtx (d : Dev) {l : Loc} (hl : l % 0x100000 = 0) (c n : Nat) (h : W (l + 0x924)) : d.regsOff W (d.raiseCtx l c n) :=
  Dev.regsOff_trans (Dev.regsOff_wr d _ h) (Dev.regsOff_raise W _ hl n)
theorem Dev.regsOff_foldl {α : Type} {g : Dev → α → Dev} (xs : List α) (hg : ∀ (x : Dev), ∀ a ∈ xs, x.regsOff W (g x a)) (d : Dev) :
    d.regsOff W (xs.foldl g d) :=
  List.foldlRecOn (motive := fun x : Dev => d.regsOff W x) _ _ (Dev.regsOff_refl W d) (fun x hx a ha => Dev.regsOff_trans hx (hg x a ha))

theorem Dev.rd_of_regsOff {l : Loc} {o : Nat} (h : d.regsOff W e) (hw : ¬ W (l + o)) (he : evReg (l + o) = false) : e.rd l o = d.rd l o := h _ hw he
theorem Dev.g_of_regsOff {l : Loc} {f : Fld} (h : d.regsOff W e) (hw : ¬ W (l + f.off)) (he : evReg (l + f.off) = false) : e.g l f = d.g l f := by
  unfold Dev.g
  rw [Dev.rd_of_regsOff h hw he]
theorem Dev.on_of_regsOff {l : Loc} {f : Fld} (h : d.regsOff W e) (hw : ¬ W (l + f.off)) (he : evReg (l + f.off) = false) : e.on l f = d.on l f := by
  unfold Dev.on
  rw [Dev.g_of_regsOff h hw he]

/-! ### Changes of registers alone -/

/-- Nothing of the devices but the registers `W` names and event delivery changed. -/
def Dev.onlyOff (W : Nat → Prop) (d e : Dev) : Prop := e.quiet = d.quiet ∧ d.regsOff W e

theorem Dev.onlyOff_refl (W : Nat → Prop) (d : Dev) : d.onlyOff W d := ⟨rfl, Dev.regsOff_refl W d⟩
theorem Dev.onlyOff_trans (h1 : d.onlyOff W e) (h2 : e.onlyOff W f) : d.onlyOff W f := ⟨h2.1.trans h1.1, Dev.regsOff_trans h1.2 h2.2⟩
theorem Dev.onlyOff_mono (hs : ∀ k, V k → W k) (h : d.onlyOff V e) : d.onlyOff W e := ⟨h.1, Dev.regsOff_mono hs h.2⟩
theorem Dev.onlyOff_of_onlyRegs {ks : List Nat} (h : d.onlyRegs ks e) (hs : ∀ k ∈ ks, W k) : d.onlyOff W e := ⟨h.1, Dev.regsOff_of_regsKept h.2 hs⟩
theorem Dev.onlyRegs_of_onlyOff {ks : List Nat} (h : d.onlyOff W e) (hs : ∀ k, W k → k ∈ ks) : d.onlyRegs ks e := ⟨h.1, Dev.regsKept_of_regsOff h.2 hs⟩
theorem Dev.onlyOff_wr (d : Dev) {l : Loc} {o : Nat} (w : Word) (h : W (l + o)) : d.onlyOff W (d.wr l o w) := ⟨rfl, Dev.regsOff_wr d w h⟩
theorem Dev.onlyOff_p (d : Dev) {l : Loc} {f : Fld} (v : Nat) (h : W (l + f.off)) : d.onlyOff W (d.p l f v) := ⟨rfl, Dev.regsOff_p d v h⟩
theorem Dev.onlyOff_sat (d : Dev) {l : Loc} {f : Fld} (n : Nat) (h : W (l + f.off)) : d.onlyOff W (d.sat l f n) := ⟨rfl, Dev.regsOff_sat d n h⟩
theorem Dev.onlyOff_raise (W : Nat → Prop) (d : Dev) {l : Loc} (hl : l % 0x100000 = 0) (n : Nat) : d.onlyOff W (d.raise l n) :=
  ⟨Dev.raise_quiet d l n, Dev.regsOff_raise W d hl n⟩
theorem Dev.onlyOff_raiseCtx (d : Dev) {l : Loc} (hl : l % 0x100000 = 0) (c n : Nat) (h : W (l + 0x924)) : d.onlyOff W (d.raiseCtx l c n) :=
  Dev.onlyOff_trans (Dev.onlyOff_wr d _ h) (Dev.onlyOff_raise W _ hl n)
theorem Dev.onlyOff_foldl {α : Type} {g : Dev → α → Dev} (xs : List α) (hg : ∀ (x : Dev), ∀ a ∈ xs, x.onlyOff W (g x a)) (d : Dev) :
    d.onlyOff W (xs.foldl g d) :=
  List.foldlRecOn (motive := fun x : Dev => d.onlyOff W x) _ _ (Dev.onlyOff_refl W d) (fun x hx a ha => Dev.onlyOff_trans hx (hg x a ha))

/-! Every unit's state is as it was where the devices agree but for registers and event delivery. -/

@[simp] theorem Dev.wr_quiet (d : Dev) (l : Loc) (o : Nat) (w : Word) : (d.wr l o w).quiet = d.quiet := rfl
@[simp] theorem Dev.p_quiet (d : Dev) (l : Loc) (f : Fld) (v : Nat) : (d.p l f v).quiet = d.quiet := Dev.wr_quiet d l _ _
@[simp] theorem Dev.sat_quiet (d : Dev) (l : Loc) (f : Fld) (n : Nat) : (d.sat l f n).quiet = d.quiet := Dev.wr_quiet d l _ _
@[simp] theorem Dev.setCst_quiet (d : Dev) (h : Half) (e c : Nat) (x : CtxState) : (d.setCst h e c x).quiet = d.quiet := Dev.wr_quiet d _ _ _
@[simp] theorem Dev.raiseCtx_quiet (d : Dev) (l : Loc) (c n : Nat) : (d.raiseCtx l c n).quiet = d.quiet := Dev.raise_quiet _ l n
theorem Dev.shadow_of_quiet (h : e.quiet = d.quiet) : e.shadow = d.shadow := (congrArg Dev.shadow h : e.quiet.shadow = d.quiet.shadow)
theorem Dev.engines_of_quiet (h : e.quiet = d.quiet) : e.engines = d.engines := (congrArg Dev.engines h : e.quiet.engines = d.quiet.engines)
theorem Dev.ctxs_of_quiet (h : e.quiet = d.quiet) : e.ctxs = d.ctxs := (congrArg Dev.ctxs h : e.quiet.ctxs = d.quiet.ctxs)
theorem Dev.chans_of_quiet (h : e.quiet = d.quiet) : e.chans = d.chans := (congrArg Dev.chans h : e.quiet.chans = d.quiet.chans)
theorem Dev.pipes_of_quiet (h : e.quiet = d.quiet) : e.pipes = d.pipes := (congrArg Dev.pipes h : e.quiet.pipes = d.quiet.pipes)
theorem Dev.motifs_of_quiet (h : e.quiet = d.quiet) : e.motifs = d.motifs := (congrArg Dev.motifs h : e.quiet.motifs = d.quiet.motifs)
theorem Dev.eng_of_quiet (h : e.quiet = d.quiet) (k : Half) (i : Nat) : e.eng k i = d.eng k i := by unfold Dev.eng; rw [Dev.engines_of_quiet h]
theorem Dev.cx_of_quiet (h : e.quiet = d.quiet) (k : Half) (i c : Nat) : e.cx k i c = d.cx k i c := by unfold Dev.cx; rw [Dev.ctxs_of_quiet h]
theorem Dev.chan_of_quiet (h : e.quiet = d.quiet) (k : Half) (c : Nat) : e.chan k c = d.chan k c := by unfold Dev.chan; rw [Dev.chans_of_quiet h]
theorem Dev.pipe_of_quiet (h : e.quiet = d.quiet) (k : Half) (i : Nat) : e.pipe k i = d.pipe k i := by unfold Dev.pipe; rw [Dev.pipes_of_quiet h]
end

/-! ### The state of a context -/

theorem CtxState.ofCode_code (x : CtxState) : CtxState.ofCode (x.code % 8) = x := by cases x <;> rfl
@[simp] theorem Dev.cst_setCst (d : Dev) (h : Half) (e c : Nat) (x : CtxState) : (d.setCst h e c x).cst h e c = x := by
  unfold Dev.setCst Dev.cst
  rw [Dev.g_p_same _ _ _ _ (by decide)]
  exact CtxState.ofCode_code x
theorem Dev.cst_of_regsOff {W : Nat → Prop} {d d' : Dev} {h : Half} {e c : Nat} (hr : d.regsOff W d') (hw : ¬ W (cxL h e c + 0x814)) (hc : c < 32) :
    d'.cst h e c = d.cst h e c := by
  unfold Dev.cst
  rw [Dev.g_of_regsOff hr hw (evReg_cx h e hc (by decide))]

@[simp] theorem Dev.modCx_cst (d : Dev) (h : Half) (e c : Nat) (f : Ctx → Ctx) (k : Half) (i j : Nat) : (d.modCx h e c f).cst k i j = d.cst k i j := by
  unfold Dev.cst
  rw [Dev.modCx_g]
@[simp] theorem Dev.modEng_cst (d : Dev) (h : Half) (e : Nat) (f : Engine → Engine) (k : Half) (i j : Nat) : (d.modEng h e f).cst k i j = d.cst k i j := by
  unfold Dev.cst
  rw [Dev.modEng_g]
@[simp] theorem Dev.modCx_eng (d : Dev) (h : Half) (e c : Nat) (f : Ctx → Ctx) (k : Half) (i : Nat) : (d.modCx h e c f).eng k i = d.eng k i := by
  unfold Dev.eng
  rw [Dev.modCx_engines]
@[simp] theorem Dev.modEng_cx (d : Dev) (h : Half) (e : Nat) (f : Engine → Engine) (k : Half) (i j : Nat) : (d.modEng h e f).cx k i j = d.cx k i j := by
  unfold Dev.cx
  rw [Dev.modEng_ctxs]
@[simp] theorem Dev.p_eng (d : Dev) (l : Loc) (f : Fld) (v : Nat) (k : Half) (i : Nat) : (d.p l f v).eng k i = d.eng k i := by
  unfold Dev.eng
  rw [Dev.p_engines]
@[simp] theorem Dev.p_cx (d : Dev) (l : Loc) (f : Fld) (v : Nat) (k : Half) (i j : Nat) : (d.p l f v).cx k i j = d.cx k i j := by
  unfold Dev.cx
  rw [Dev.p_ctxs]
@[simp] theorem Dev.raise_eng (d : Dev) (l : Loc) (n : Nat) (k : Half) (i : Nat) : (d.raise l n).eng k i = d.eng k i := Dev.eng_of_quiet (Dev.raise_quiet d l n) k i
@[simp] theorem Dev.raise_cx (d : Dev) (l : Loc) (n : Nat) (k : Half) (i j : Nat) : (d.raise l n).cx k i j = d.cx k i j :=
  Dev.cx_of_quiet (Dev.raise_quiet d l n) k i j

/-! ### Registers that every context has on the page -/

/-- A register of the page, above ROW_EVT_CTX, one for each context. -/
def Fld.perCtx (f : Fld) : Bool := decide (0x924 < f.off) && decide (f.off + f.stride * 31 < 0x1000)
theorem Fld.ix_perCtx {f : Fld} (hf : f.perCtx = true) {c : Nat} (hc : c < 32) : 0x924 < (f.ix c).off ∧ (f.ix c).off < 0x1000 := by
  simp only [Fld.perCtx, Bool.and_eq_true, decide_eq_true_eq] at hf
  have hle : f.stride * c ≤ f.stride * 31 := Nat.mul_le_mul_left _ (by omega)
  change 0x924 < f.off + f.stride * c ∧ f.off + f.stride * c < 0x1000
  omega

theorem Dev.g_p_ix (d : Dev) (l : Loc) (f : Fld) (c v : Nat) (hw : f.lo + f.w ≤ 32) : (d.p l (f.ix c) v).g l (f.ix c) = v % 2 ^ f.w :=
  Dev.g_p_same d l (f.ix c) v hw

/-- A write of the page leaves the contexts' banks alone. -/
theorem Dev.g_p_row (d : Dev) (h : Half) (e c : Nat) {f : Fld} (q : Fld) (v : Nat) (hf : f.off < 0x1000) :
    (d.p (rowL h e) f v).g (cxL h e c) q = d.g (cxL h e c) q := Dev.g_p_ne d v (cx_ne_row h e c q.off hf)
theorem Dev.cst_p_row (d : Dev) (h : Half) (e c : Nat) {f : Fld} (v : Nat) (hf : f.off < 0x1000) : (d.p (rowL h e) f v).cst h e c = d.cst h e c := by
  unfold Dev.cst
  rw [Dev.g_p_row d h e c _ v hf]
/-- A write of a context's bank leaves the page alone. -/
theorem Dev.g_p_cx (d : Dev) (h : Half) (e c : Nat) (f : Fld) {q : Fld} (v : Nat) (hq : q.off < 0x1000) :
    (d.p (cxL h e c) f v).g (rowL h e) q = d.g (rowL h e) q := Dev.g_p_ne d v (cx_ne_row h e c f.off hq).symm

/-! ### A counted write of the row page (R486) -/

theorem Dev.seq_row (d : Dev) (h : Half) (e : Nat) : d.onlyRegs [rowL h e + 0x03C] (d.seq (rowL h e)) := Dev.onlyRegs_seq d _
theorem Dev.rd_seq_cx (d : Dev) (h : Half) (e c o : Nat) : (d.seq (rowL h e)).rd (cxL h e c) o = d.rd (cxL h e c) o := by
  change (d.seq (locOf (pageOf h.n .row e))).rd (cxL h e c) o = _
  rw [Dev.seq_locOf]
  exact Dev.rd_p_ne d _ (cx_ne_row h e c o (by decide))
@[simp] theorem Dev.g_seq_cx (d : Dev) (h : Half) (e c : Nat) (f : Fld) : (d.seq (rowL h e)).g (cxL h e c) f = d.g (cxL h e c) f := by
  unfold Dev.g
  rw [Dev.rd_seq_cx]
@[simp] theorem Dev.on_seq_cx (d : Dev) (h : Half) (e c : Nat) (f : Fld) : (d.seq (rowL h e)).on (cxL h e c) f = d.on (cxL h e c) f := by
  unfold Dev.on
  rw [Dev.g_seq_cx]
@[simp] theorem Dev.cst_seq (d : Dev) (h : Half) (e c : Nat) : (d.seq (rowL h e)).cst h e c = d.cst h e c := by
  unfold Dev.cst
  rw [Dev.g_seq_cx]
/-- No page's other registers change. -/
theorem Dev.g_seq_page (d : Dev) (h : Half) (e : Nat) (k : Half) (b : Block) (i : Nat) {f : Fld} (hf : f.off < 0x100000) (hne : f.off ≠ 0x03C) :
    (d.seq (rowL h e)).g (hLoc k b i) f = d.g (hLoc k b i) f := Dev.g_seq_locOf d _ _ hf hne
theorem Dev.on_seq_page (d : Dev) (h : Half) (e : Nat) (k : Half) (b : Block) (i : Nat) {f : Fld} (hf : f.off < 0x100000) (hne : f.off ≠ 0x03C) :
    (d.seq (rowL h e)).on (hLoc k b i) f = d.on (hLoc k b i) f := by
  unfold Dev.on
  rw [Dev.g_seq_page d h e k b i hf hne]

/-- An event raised for a context stands in its page. -/
theorem Dev.raiseCtx_raised (d : Dev) {l : Loc} (hl : l % 0x100000 = 0) (c : Nat) {n : Nat} (hn : n < 32) (hc : d.clocked l = true) :
    (d.raiseCtx l c n).raised l n := by
  refine Dev.raise_raised _ hl hn ?_
  unfold Dev.clocked Dev.on Dev.g at hc ⊢
  rwa [Dev.rd_wr_ne _ _ (fun he => by simp [PG_CTL.ENABLE, ROW_EVT_CTX.CTX] at he)]
/-- It changes ROW_EVT_CTX and event delivery only. -/
theorem Dev.raiseCtx_frame (d : Dev) {l : Loc} (hl : l % 0x100000 = 0) (c n : Nat) {ks : List Nat} (hk : l + 0x924 ∈ ks) : d.onlyRegs ks (d.raiseCtx l c n) :=
  Dev.onlyRegs_trans (Dev.onlyRegs_wr d l _ _ (.inl hk)) (Dev.raise_frame _ hl n ks)

end Sys2Proof.Machine
end

section
/-! Commands of contexts (R77, R78): the statement on context commands. -/
namespace Sys2Proof.Machine

open Sys2Proof

/-! ### The commands as writes -/

/-- A write of a row engine's page that no other half takes over. -/
theorem forwarded_row {s : State} {h : Half} {e : Nat} (hs : s.awake h (rowL h e)) (hsole : s.sole h) (f : Half → Dev → Dev) :
    forwarded h (fun h => onWrite h (rowL h e) (fun _ d => f h d)) s = .next { s with dev := f h (s.dev.seq (rowL h e)) } := by
  rw [forwarded_alone hsole, onWrite_live hs.1]

section
variable {s : State} {h : Half} {e : Fin 8} {c : Fin 32} (hs : s.awake h (rowL h e)) (hsole : s.sole h)
include hs hsole

theorem exec_arm : exec (.arm h e c) s = .next { s with dev := (s.dev.seq (rowL h e)).arm h e c } := forwarded_row hs hsole fun h d => d.arm h e c
theorem exec_hold (byRow : Bool) : exec (.hold h e c byRow) s = .next { s with dev := (s.dev.seq (rowL h e)).pendCmd h e c .hold byRow } :=
  forwarded_row hs hsole fun h d => d.pendCmd h e c .hold byRow
theorem exec_resume (byRow : Bool) : exec (.resume h e c byRow) s = .next { s with dev := (s.dev.seq (rowL h e)).pendCmd h e c .resume byRow } :=
  forwarded_row hs hsole fun h d => d.pendCmd h e c .resume byRow
theorem exec_stop (byRow : Bool) : exec (.stop h e c byRow) s = .next { s with dev := (s.dev.seq (rowL h e)).pendCmd h e c .stop byRow } :=
  forwarded_row hs hsole fun h d => d.pendCmd h e c .stop byRow
theorem exec_abort : exec (.abort h e c) s = .next { s with dev := (s.dev.seq (rowL h e)).abort h e c } := forwarded_row hs hsole fun h d => d.abort h e c
theorem exec_rowCmdReserved : exec (.rowCmdReserved h e c) s = .next { s with dev := (s.dev.seq (rowL h e)).cmdRej h e c } := forwarded_row hs hsole fun h d => d.cmdRej h e c
end

theorem exec_drainingComplete {s : State} {h : Half} {e : Fin 8} {c : Fin 32} (hs : s.awake h (rowL h e)) :
    exec (.drainingComplete h e c) s = .next { s with dev := s.dev.drained h e c } := by
  unfold exec
  dsimp only
  rw [execDrainingComplete, onBlock_live hs.1 hs.2]

/-! ### Writes of the state of a context -/

/-- Planes' positions lie in the context's bank. -/
theorem Dev.onlyOff_pypos (d : Dev) (l : Loc) (g : Dev → Nat → Nat) :
    d.onlyOff (fun k => l + 0x830 ≤ k ∧ k < l + 0x850) ((List.range 8).foldl (fun x p => x.p l (ROW_PYPOS.Y.ix p) (g x p)) d) := by
  refine Dev.onlyOff_foldl _ (fun x p hp => Dev.onlyOff_p x _ ?_) d
  have hp8 := List.mem_range.1 hp
  change l + 0x830 ≤ l + (0x830 + 4 * p) ∧ l + (0x830 + 4 * p) < l + 0x850
  unfold Loc at *
  omega

/-- The ranks of a context that `arm` writes: its state, H, the ring's records and the planes' positions. -/
def Dev.armed0 (d : Dev) (h : Half) (e c : Nat) : Dev :=
  ((((d.setCst h e c .armed).p (rowL h e) (ROW_HWM.H.ix c) (d.g (cxL h e c) ROW_START.START + 2 ^ 32 - 1)).p (rowL h e) (ROW_REVST.RECS.ix c) 0).p
    (rowL h e) (ROW_REVST.REVHELD.ix c) 0).p (rowL h e) (ROW_REVST.PHASE.ix c) 0
theorem Dev.arm_eq {d : Dev} {h : Half} {e c : Nat} (hok : d.armOk h e c = true) :
    d.arm h e c = ((List.range 8).foldl (fun x p => x.p (cxL h e c) (ROW_PYPOS.Y.ix p)
      (if x.on (cxL h e c) (ROW_PYLD.LOAD.ix p) then x.g (cxL h e c) (ROW_PYLD.Y.ix p) % x.planeHc h e c p else 0)) (d.armed0 h e c)).modCx h e c
        (fun x => { x with armgen := (x.armgen + 1) % 2 ^ 32, start := d.g (cxL h e c) ROW_START.START, first := true, cmd := none }) := if_pos hok

/-- What ARM leaves. -/
theorem Dev.arm_spec {d : Dev} {h : Half} {e c : Nat} (he : e < 8) (hc : c < 32) (hok : d.armOk h e c = true) :
    (d.arm h e c).cst h e c = .armed ∧ ((d.arm h e c).cx h e c).start = d.g (cxL h e c) ROW_START.START ∧
      ((d.arm h e c).cx h e c).armgen = ((d.cx h e c).armgen + 1) % 2 ^ 32 ∧
      (d.arm h e c).g (rowL h e) (ROW_HWM.H.ix c) = (d.g (cxL h e c) ROW_START.START + 2 ^ 32 - 1) % 2 ^ 32 ∧
      ((d.arm h e c).eng h e).due = (d.eng h e).due ∧ (d.arm h e c).chans = d.chans := by
  rw [Dev.arm_eq hok]
  have hplanes := (d.armed0 h e c).onlyOff_pypos (cxL h e c) fun x p =>
    if x.on (cxL h e c) (ROW_PYLD.LOAD.ix p) then x.g (cxL h e c) (ROW_PYLD.Y.ix p) % x.planeHc h e c p else 0
  revert hplanes
  generalize (List.range 8).foldl _ (d.armed0 h e c) = d2
  rintro ⟨hq, hr⟩
  have hpage {f : Fld} (hf : f.perCtx = true) : (f.ix c).off < 0x1000 := (Fld.ix_perCtx hf hc).2
  have hcst : (d.armed0 h e c).cst h e c = .armed := by
    unfold Dev.armed0
    rw [Dev.cst_p_row _ h e c _ (hpage rfl), Dev.cst_p_row _ h e c _ (hpage rfl), Dev.cst_p_row _ h e c _ (hpage rfl), Dev.cst_p_row _ h e c _ (hpage rfl),
      Dev.cst_setCst]
  have hquiet : (d.armed0 h e c).quiet = d.quiet := by simp only [Dev.armed0, Dev.p_quiet, Dev.setCst_quiet]
  have hhwm : (d.armed0 h e c).g (rowL h e) (ROW_HWM.H.ix c) = (d.g (cxL h e c) ROW_START.START + 2 ^ 32 - 1) % 2 ^ 32 := by
    have hne : (ROW_HWM.H.ix c).off ≠ (ROW_REVST.RECS.ix c).off := by simp [Fld.ix, ROW_HWM.H, ROW_REVST.RECS]
    unfold Dev.armed0
    rw [Dev.g_p_page (f := ROW_REVST.PHASE.ix c) _ _ _ hne, Dev.g_p_page (f := ROW_REVST.REVHELD.ix c) _ _ _ hne,
      Dev.g_p_page (f := ROW_REVST.RECS.ix c) _ _ _ hne, Dev.g_p_ix _ _ _ _ _ (by decide)]
    rfl
  refine ⟨?_, ?_, ?_, ?_, ?_, ?_⟩
  · rw [Dev.modCx_cst, Dev.cst_of_regsOff hr (by unfold Loc; omega) hc, hcst]
  · rw [Dev.cx_modCx_same]
  · rw [Dev.cx_modCx_same, Dev.cx_of_quiet (hq.trans hquiet)]
  · have hoff := (Fld.ix_perCtx (show ROW_HWM.H.perCtx = true from rfl) hc)
    have hcx := cxL_eq h e c
    rw [Dev.modCx_g, Dev.g_of_regsOff hr (by unfold Loc at *; omega) (evReg_row h he hoff.2 (by omega) (by omega)), hhwm]
  · rw [Dev.eng, Dev.modCx_engines, Dev.engines_of_quiet (hq.trans hquiet), ← Dev.eng]
  · rw [Dev.modCx_chans, Dev.chans_of_quiet (hq.trans hquiet)]

/-! ### Rejected and waiting commands -/

theorem Dev.armOk_seq (d : Dev) (h : Half) {e c : Nat} (hc : c < 32) : (d.seq (rowL h e)).armOk h e c = d.armOk h e c := by
  have hrow {f : Fld} (hf : f.perCtx = true) : (d.seq (rowL h e)).g (rowL h e) (f.ix c) = d.g (rowL h e) (f.ix c) := by
    have hoff := Fld.ix_perCtx hf hc
    exact Dev.g_seq_page d h e h .row e (by omega) (by omega)
  have hlog : (d.seq (rowL h e)).g (rowL h e) (ROW_HR_LO.DLOG2.ix c) = d.g (rowL h e) (ROW_HR_LO.DLOG2.ix c) := hrow rfl
  have hlo : (d.seq (rowL h e)).g (rowL h e) (ROW_HR_LO.BASE_LO.ix c) = d.g (rowL h e) (ROW_HR_LO.BASE_LO.ix c) := hrow rfl
  have hhi : (d.seq (rowL h e)).g (rowL h e) (ROW_HR_HI.BASE_HI.ix c) = d.g (rowL h e) (ROW_HR_HI.BASE_HI.ix c) := hrow rfl
  have hmode : (d.seq (rowL h e)).g (hLoc h .beam) (BEAM_CFG.MODE.ix (d.beamOf h e c)) = d.g (hLoc h .beam) (BEAM_CFG.MODE.ix (d.beamOf h e c)) := by
    have hbeam : d.beamOf h e c < 4 := fget_lt ROW_BIND.BEAM _
    have hoff : (BEAM_CFG.MODE.ix (d.beamOf h e c)).off = 0x040 + 0x20 * d.beamOf h e c := rfl
    exact Dev.g_seq_page d h e h .beam 0 (by omega) (by omega)
  have hdram : (d.seq (rowL h e)).dramSize h = d.dramSize h := by
    unfold Dev.dramSize
    simp only [Dev.g_seq_page d h e h .mec _ (f := MEC_GEOM.DENSITY) (by decide) (by decide), Dev.on_seq_page d h e h .mec _ (f := MEC_GEOM.ABSENT) (by decide) (by decide),
      Dev.g_seq_page d h e h .mec _ (f := MEC_GEOM.RANKS2) (by decide) (by decide)]
  have hbeam : (d.seq (rowL h e)).beamOf h e c = d.beamOf h e c := Dev.g_seq_cx d h e c _
  unfold Dev.armOk Dev.ringFits Dev.ringBase Dev.ringD
  simp only [Dev.cst_seq, Dev.on_seq_cx, hlog, hlo, hhi, hbeam, hmode, hdram]

/-- A rejected command raises CMD_REJ (R78). -/
theorem Dev.cmdRej_raised {d : Dev} {h : Half} {e : Nat} (c : Nat) (hc : d.clocked (rowL h e) = true) : (d.cmdRej h e c).raised (rowL h e) 3 :=
  Dev.raiseCtx_raised d (rowL_page h e) c (by decide) hc
theorem Dev.cmdRej_frame (d : Dev) (h : Half) (e c : Nat) : d.onlyRegs [rowL h e + 0x03C, rowL h e + 0x924] (d.cmdRej h e c) :=
  Dev.raiseCtx_frame d (rowL_page h e) c 3 (by simp)

/-- The states in which a command that waits for its boundary is taken (Table 03.2). -/
def RowCmd.allowedIn (k : RowCmd) (x : CtxState) : Bool :=
  match k with
  | .hold => x == .running
  | .resume => x == .hold
  | .stop => x == .running || x == .hold

theorem Dev.pendCmd_pending {d : Dev} {h : Half} {e c : Nat} {k : RowCmd} {byRow : Bool}
    (hst : k.allowedIn (d.cst h e c) = true)
    (hrow : byRow = true → 0 < rowDiff (d.g (cxL h e c) ROW_CMDROW.ROW) (if d.cst h e c = .hold then d.g (cxL h e c) ROW_HELDN.N else d.rownum h e c)) :
    d.pendCmd h e c k byRow = d.modCx h e c (fun x => { x with cmd := some (k, byRow, d.g (cxL h e c) ROW_CMDROW.ROW) }) := by
  refine if_pos ?_
  rw [Bool.and_eq_true]
  refine ⟨hst, ?_⟩
  cases byRow
  · rfl
  · have := hrow rfl
    simp only [Bool.true_and, Bool.not_eq_true', decide_eq_false_iff_not]
    omega

theorem Dev.pendCmd_rejected {d : Dev} {h : Half} {e c : Nat} {k : RowCmd} (byRow : Bool) (hst : k.allowedIn (d.cst h e c) = false) :
    d.pendCmd h e c k byRow = d.cmdRej h e c := by
  refine if_neg ?_
  rw [Bool.and_eq_true]
  rintro ⟨hok, _⟩
  exact Bool.false_ne_true (hst.symm.trans hok)

theorem Dev.arm_rejected {d : Dev} {h : Half} {e c : Nat} (hno : d.armOk h e c = false) : d.arm h e c = d.cmdRej h e c :=
  if_neg fun hok => Bool.false_ne_true (hno.symm.trans hok)
theorem Dev.abort_rejected {d : Dev} {h : Half} {e c : Nat} (hst : d.cst h e c = .idle) : d.abort h e c = d.cmdRej h e c := if_pos hst

/-! ### What is dropped and abandoned (R81) -/

theorem Dev.dropDue_eng (d : Dev) (h : Half) (e c : Nat) : (d.dropDue h e c).eng h e =
    { d.eng h e with due := (d.eng h e).due.filter (fun y => decide (y.ctx ≠ c) || y.again), parked := (d.eng h e).parked.filter (fun y => y.1.ctx ≠ c) } := by
  unfold Dev.dropDue
  rw [Dev.p_eng, Dev.modCx_eng, Dev.eng_modEng_same]
@[simp] theorem Dev.dropDue_chans (d : Dev) (h : Half) (e c : Nat) : (d.dropDue h e c).chans = d.chans := by
  rw [Dev.dropDue, Dev.p_chans, Dev.modCx_chans, Dev.modEng_chans]
@[simp] theorem Dev.dropDue_reports (d : Dev) (h : Half) (e c : Nat) : (d.dropDue h e c).reports = d.reports := by
  rw [Dev.dropDue, Dev.p_reports, Dev.modCx_reports, Dev.modEng_reports]
theorem Dev.dropDue_regs (d : Dev) (h : Half) (e c : Nat) : d.regsOff (fun k => k = cxL h e c + 0x814) (d.dropDue h e c) := by
  unfold Dev.dropDue
  exact Dev.regsOff_trans (e := (d.modEng h e _).modCx h e c _) (Dev.regsOff_of_regs rfl) (Dev.regsOff_p _ _ rfl)

theorem Dev.abandon_eng (d : Dev) (h : Half) (e c : Nat) : (d.abandon h e c).eng h e = (d.eng h e).abandon c := by
  unfold Dev.abandon
  dsimp only
  split
  · rw [Dev.p_eng, Dev.eng_modEng_same]
  · rw [Dev.eng_modEng_same]
@[simp] theorem Dev.abandon_chans (d : Dev) (h : Half) (e c : Nat) : (d.abandon h e c).chans = d.chans := by
  unfold Dev.abandon
  dsimp only
  split
  · rw [Dev.p_chans, Dev.modEng_chans]
  · rw [Dev.modEng_chans]
@[simp] theorem Dev.abandon_reports (d : Dev) (h : Half) (e c : Nat) : (d.abandon h e c).reports = d.reports := by
  unfold Dev.abandon
  dsimp only
  split
  · rw [Dev.p_reports, Dev.modEng_reports]
  · rw [Dev.modEng_reports]
theorem Dev.abandon_regs (d : Dev) (h : Half) (e c : Nat) : d.regsOff (fun k => k = rowL h e + 0x900) (d.abandon h e c) := by
  unfold Dev.abandon
  dsimp only
  split
  · exact Dev.regsOff_trans (e := d.modEng h e _) (Dev.regsOff_of_regs rfl) (Dev.regsOff_p _ _ rfl)
  · exact Dev.regsOff_of_regs rfl

theorem Engine.abandon_due (x : Engine) (c : Nat) : (x.abandon c).due = x.due.filter (fun z => !(z.again && decide (z.ctx = c))) := by
  unfold Engine.abandon
  dsimp only
  split <;> rfl
theorem Engine.abandon_parked (x : Engine) (c : Nat) : (x.abandon c).parked = x.parked := by
  unfold Engine.abandon
  dsimp only
  split <;> rfl

/-- No due entry of the context is left. -/
theorem Dev.dropped_due {d : Dev} {h : Half} {e c : Nat} {x : Engine} (hx : d.eng h e = x.abandon c)
    {y : Engine} (hy : x.due = y.due.filter (fun z => decide (z.ctx ≠ c) || z.again)) : d.dueOf h e c = [] := by
  unfold Dev.dueOf
  rw [hx, Engine.abandon_due, hy, List.filter_filter, List.filter_filter, List.filter_eq_nil_iff]
  intro z _
  by_cases hz : z.ctx = c <;> cases z.again <;> simp [hz]

/-- The devices without a context's due entries and renders: what ABORT and a fault have in common (R81). -/
def Dev.dueGone (d : Dev) (h : Half) (e c : Nat) : Dev := (d.dropDue h e c).abandon h e c

theorem Dev.dueGone_eng (d : Dev) (h : Half) (e c : Nat) : (d.dueGone h e c).eng h e = ((d.dropDue h e c).eng h e).abandon c :=
  Dev.abandon_eng (d.dropDue h e c) h e c
theorem Dev.dueGone_dueOf (d : Dev) (h : Half) (e c : Nat) : (d.dueGone h e c).dueOf h e c = [] := by
  refine Dev.dropped_due (y := d.eng h e) (Dev.dueGone_eng d h e c) ?_
  rw [Dev.dropDue_eng]
theorem Dev.dueGone_parked (d : Dev) (h : Half) (e c : Nat) : (d.dueGone h e c).parked h e c = false := by
  unfold Dev.parked
  rw [Dev.dueGone_eng, Engine.abandon_parked, Dev.dropDue_eng, List.any_filter, List.any_eq_false]
  intro z _
  by_cases hz : z.1.ctx = c <;> simp [hz]
@[simp] theorem Dev.dueGone_chans (d : Dev) (h : Half) (e c : Nat) : (d.dueGone h e c).chans = d.chans := by
  rw [Dev.dueGone, Dev.abandon_chans, Dev.dropDue_chans]
@[simp] theorem Dev.dueGone_reports (d : Dev) (h : Half) (e c : Nat) : (d.dueGone h e c).reports = d.reports := by
  rw [Dev.dueGone, Dev.abandon_reports, Dev.dropDue_reports]
theorem Dev.dueGone_regs (d : Dev) (h : Half) (e c : Nat) : d.regsOff (fun k => k = cxL h e c + 0x814 ∨ k = rowL h e + 0x900) (d.dueGone h e c) :=
  Dev.regsOff_trans (Dev.regsOff_mono (fun _ => .inl) (d.dropDue_regs h e c)) (Dev.regsOff_mono (fun _ => .inr) ((d.dropDue h e c).abandon_regs h e c))

theorem Dev.dueOf_congr {d d' : Dev} {h : Half} {e : Nat} (he : d'.eng h e = d.eng h e) (c : Nat) : d'.dueOf h e c = d.dueOf h e c := by
  unfold Dev.dueOf
  rw [he]
theorem Dev.parked_congr {d d' : Dev} {h : Half} {e : Nat} (he : d'.eng h e = d.eng h e) (c : Nat) : d'.parked h e c = d.parked h e c := by
  unfold Dev.parked
  rw [he]

/-! ### ABORT and the end of DRAINING -/

theorem Dev.requestScan_mem (d : Dev) (h : Half) (x : Scan) : x ∈ (d.requestScan h x).scans h := by
  cases h <;> exact List.mem_append_right _ (List.mem_singleton_self x)
@[simp] theorem Dev.setScans_regs (d : Dev) (h : Half) (q : List Scan) : (d.setScans h q).regs = d.regs := by cases h <;> rfl
@[simp] theorem Dev.setScans_engines (d : Dev) (h : Half) (q : List Scan) : (d.setScans h q).engines = d.engines := by cases h <;> rfl
@[simp] theorem Dev.setScans_ctxs (d : Dev) (h : Half) (q : List Scan) : (d.setScans h q).ctxs = d.ctxs := by cases h <;> rfl
@[simp] theorem Dev.setScans_chans (d : Dev) (h : Half) (q : List Scan) : (d.setScans h q).chans = d.chans := by cases h <;> rfl

theorem Dev.cst_of_regs {d d' : Dev} (hr : d'.regs = d.regs) (h : Half) (e c : Nat) : d'.cst h e c = d.cst h e c := by
  unfold Dev.cst Dev.g Dev.rd
  rw [hr]

theorem Dev.abort_spec {d : Dev} {h : Half} {e c : Nat} (hst : d.cst h e c ≠ .idle) :
    (d.abort h e c).cst h e c = .idle ∧ (d.abort h e c).dueOf h e c = [] ∧ ((d.abort h e c).cx h e c).cmd = none ∧
      (⟨32 * e + c, none, false⟩ : Scan) ∈ (d.abort h e c).scans h ∧ (d.abort h e c).chans = d.chans := by
  have heq : d.abort h e c = ((((d.dueGone h e c).setCst h e c .idle).modCx h e c (fun x => { x with cmd := none })).requestScan h ⟨32 * e + c, none, false⟩) :=
    if_neg hst
  rw [heq]
  refine ⟨?_, ?_, ?_, Dev.requestScan_mem _ h _, ?_⟩
  · rw [Dev.requestScan, Dev.cst_of_regs (Dev.setScans_regs _ h _), Dev.modCx_cst, Dev.cst_setCst]
  · refine (Dev.dueOf_congr ?_ c).trans (d.dueGone_dueOf h e c)
    rw [Dev.eng, Dev.requestScan, Dev.setScans_engines, Dev.modCx_engines, Dev.setCst, Dev.p_engines, ← Dev.eng]
  · rw [Dev.cx, Dev.requestScan, Dev.setScans_ctxs, ← Dev.cx, Dev.cx_modCx_same]
  · rw [Dev.requestScan, Dev.setScans_chans, Dev.modCx_chans, Dev.setCst, Dev.p_chans, Dev.dueGone_chans]

theorem Dev.quiet_ctxs (d : Dev) (m : SMap Ctx) : { ({ d with ctxs := m } : Dev).quiet with ctxs := [] } = { d.quiet with ctxs := [] } := rfl
theorem Dev.modCx_quiet (d : Dev) (h : Half) (e c : Nat) (f : Ctx → Ctx) : { (d.modCx h e c f).quiet with ctxs := [] } = { d.quiet with ctxs := [] } :=
  Dev.quiet_ctxs d (SMap.modify (fun _ => {}) d.ctxs ((h.n * 8 + e) * 32 + c) f)

theorem Dev.drained_spec {d : Dev} {h : Half} {e c : Nat} (hst : d.cst h e c = .draining) (hbusy : d.ctxBusy h e c = false) :
    (d.drained h e c).cst h e c = .idle ∧ ((d.drained h e c).cx h e c).cmd = none ∧
      { (d.drained h e c).quiet with ctxs := [] } = { d.quiet with ctxs := [] } ∧ d.regsKept [cxL h e c + ROW_CSTAT.STATE.off] (d.drained h e c) := by
  have heq : d.drained h e c = (d.setCst h e c .idle).modCx h e c (fun x => { x with cmd := none }) := if_pos ⟨hst, hbusy⟩
  rw [heq]
  refine ⟨?_, ?_, ?_, ?_⟩
  · rw [Dev.modCx_cst, Dev.cst_setCst]
  · rw [Dev.cx_modCx_same]
  · rw [Dev.modCx_quiet, Dev.setCst_quiet]
  · exact Dev.regsKept_trans (Dev.onlyRegs_p d _ _ _ (.inl (List.mem_singleton_self _))).2 (Dev.regsKept_of_regs (Dev.modCx_regs _ h e c _))

theorem Dev.drained_still {d : Dev} {h : Half} {e c : Nat} (hn : d.cst h e c ≠ .draining ∨ d.ctxBusy h e c = true) : d.drained h e c = d :=
  if_neg fun hd => hn.elim (fun hst => hst hd.1) (fun hb => Bool.false_ne_true (hd.2.symm.trans hb))

end Sys2Proof.Machine

open Sys2Proof Sys2Proof.Machine

/-- Settles O10: each command is one case of the state table; what it changes is its own registers, its context and the scan it asks for. -/
theorem contextCommandsFollowTheirStates : Obligations.ContextCommandsFollowTheirStates := by
  unfold Obligations.ContextCommandsFollowTheirStates
  intro s h e c hs
  refine ⟨fun hsole hok => ?arm, fun byRow hsole hst hrow => ?running, fun byRow hsole hst hrow => ?hold, fun hsole hst => ?abort, fun i hsole hi => ?rejected,
    fun hst hbusy => ?drained, fun hn => ?draining⟩
  case arm =>
    have hspec := Dev.arm_spec e.isLt c.isLt ((Dev.armOk_seq s.dev h c.isLt).trans hok)
    have hq := (s.dev.seq_row h e).1
    rw [Dev.g_seq_cx, Dev.cx_of_quiet hq, Dev.eng_of_quiet hq, Dev.chans_of_quiet hq] at hspec
    exact ⟨_, exec_arm hs hsole, rfl, rfl, hspec⟩
  case running =>
    have hst' := (s.dev.cst_seq h e c).trans hst
    have hrow' : byRow = true → 0 < rowDiff ((s.dev.seq (rowL h e)).g (cxL h e c) ROW_CMDROW.ROW) (if (s.dev.seq (rowL h e)).cst h e c = .hold then
        (s.dev.seq (rowL h e)).g (cxL h e c) ROW_HELDN.N else (s.dev.seq (rowL h e)).rownum h e c) := by
      rw [hst', if_neg (by decide), Dev.rownum, Dev.g_seq_cx, Dev.g_seq_cx]
      exact hrow
    refine ⟨⟨_, exec_hold hs hsole byRow, rfl, rfl, ?_⟩, ⟨_, exec_stop hs hsole byRow, rfl, rfl, ?_⟩⟩
    · dsimp only
      rw [Dev.pendCmd_pending (by rw [hst']; rfl) hrow', Dev.modCx_cst, Dev.cx_modCx_same, Dev.g_seq_cx]
      exact ⟨hst', rfl⟩
    · dsimp only
      rw [Dev.pendCmd_pending (by rw [hst']; rfl) hrow', Dev.modCx_cst, Dev.cx_modCx_same, Dev.g_seq_cx]
      exact ⟨hst', rfl⟩
  case hold =>
    have hst' := (s.dev.cst_seq h e c).trans hst
    have hrow' : byRow = true → 0 < rowDiff ((s.dev.seq (rowL h e)).g (cxL h e c) ROW_CMDROW.ROW) (if (s.dev.seq (rowL h e)).cst h e c = .hold then
        (s.dev.seq (rowL h e)).g (cxL h e c) ROW_HELDN.N else (s.dev.seq (rowL h e)).rownum h e c) := by
      rw [hst', if_pos rfl, Dev.g_seq_cx, Dev.g_seq_cx]
      exact hrow
    refine ⟨⟨_, exec_resume hs hsole byRow, rfl, rfl, ?_⟩, ⟨_, exec_stop hs hsole byRow, rfl, rfl, ?_⟩⟩
    · dsimp only
      rw [Dev.pendCmd_pending (by rw [hst']; rfl) hrow', Dev.modCx_cst, Dev.cx_modCx_same, Dev.g_seq_cx]
      exact ⟨hst', rfl⟩
    · dsimp only
      rw [Dev.pendCmd_pending (by rw [hst']; rfl) hrow', Dev.modCx_cst, Dev.cx_modCx_same, Dev.g_seq_cx]
      exact ⟨hst', rfl⟩
  case abort =>
    have hspec := Dev.abort_spec (e := e) (c := c) (fun hi => hst ((s.dev.cst_seq h e c).symm.trans hi))
    rw [Dev.chans_of_quiet (s.dev.seq_row h e).1] at hspec
    exact ⟨_, exec_abort hs hsole, rfl, rfl, hspec⟩
  case rejected =>
    have hexec : exec i s = .next { s with dev := (s.dev.seq (rowL h e)).cmdRej h e c } := by
      have hst' := s.dev.cst_seq h e c
      rcases hi with rfl | ⟨rfl, hno⟩ | ⟨rfl, hidle⟩ | ⟨byRow, rfl, hst⟩ | ⟨byRow, rfl, hst⟩ | ⟨byRow, rfl, hrun, hhold⟩
      · exact exec_rowCmdReserved hs hsole
      · rw [exec_arm hs hsole, Dev.arm_rejected ((Dev.armOk_seq s.dev h c.isLt).trans hno)]
      · rw [exec_abort hs hsole, Dev.abort_rejected (hst'.trans hidle)]
      · rw [exec_hold hs hsole, Dev.pendCmd_rejected byRow (by rw [hst']; simpa [RowCmd.allowedIn] using hst)]
      · rw [exec_resume hs hsole, Dev.pendCmd_rejected byRow (by rw [hst']; simpa [RowCmd.allowedIn] using hst)]
      · rw [exec_stop hs hsole, Dev.pendCmd_rejected byRow (by rw [hst']; simpa [RowCmd.allowedIn] using ⟨hrun, hhold⟩)]
    have hclk : (s.dev.seq (rowL h e)).clocked (rowL h e) = true := (Dev.clocked_seq s.dev _ _).trans hs.2
    exact ⟨_, hexec, rfl, rfl, Dev.cmdRej_raised c hclk,
      Dev.onlyRegs_trans (Dev.onlyRegs_mono (by simp) (s.dev.seq_row h e)) (Dev.cmdRej_frame _ h e c)⟩
  case drained => exact ⟨_, exec_drainingComplete hs, rfl, rfl, Dev.drained_spec hst hbusy⟩
  case draining => rw [exec_drainingComplete hs, Dev.drained_still hn]

end

section
/-! Registers that only an IDLE context takes (R75, R126, R128, R349) and the invalidation of the caches (R93, R113). -/
namespace Sys2Proof.Machine

open Sys2Proof

/-! ### The commands as writes and as acts of the engine -/

section
variable {s : State} {h : Half} {e : Fin 8} (hs : s.awake h (rowL h e))
include hs

theorem exec_rowBindWrite (hsole : s.sole h) (c : Fin 32) (v : Word) :
    exec (.rowBindWrite h e c v) s = .next { s with dev := (s.dev.seq (rowL h e)).bindWrite h e c v } := forwarded_row hs hsole fun h d => d.bindWrite h e c v
theorem exec_rowHistoryWrite (hsole : s.sole h) (c : Fin 32) (w : Fin 3) (v : Word) :
    exec (.rowHistoryWrite h e c w v) s = .next { s with dev := (s.dev.seq (rowL h e)).histWrite h e c w v } :=
  forwarded_row hs hsole fun h d => d.histWrite h e c w v
theorem exec_rowRidxWrite (hsole : s.sole h) (c : Fin 32) (v : Word) :
    exec (.rowRidxWrite h e c v) s = .next { s with dev := (s.dev.seq (rowL h e)).ridxWrite h e c v } := forwarded_row hs hsole fun h d => d.ridxWrite h e c v
theorem exec_tcinvAll (hsole : s.sole h) : exec (.tcinvAll h e) s = .next { s with dev := (s.dev.seq (rowL h e)).tcInv h e true } :=
  forwarded_row hs hsole fun h d => d.tcInv h e true
theorem exec_tcinvRange (hsole : s.sole h) : exec (.tcinvRange h e) s = .next { s with dev := (s.dev.seq (rowL h e)).tcInv h e false } :=
  forwarded_row hs hsole fun h d => d.tcInv h e false
theorem exec_mcinvAll (hsole : s.sole h) : exec (.mcinvAll h e) s = .next { s with dev := (s.dev.seq (rowL h e)).mcInv h e true } :=
  forwarded_row hs hsole fun h d => d.mcInv h e true
theorem exec_mcinvRange (hsole : s.sole h) : exec (.mcinvRange h e) s = .next { s with dev := (s.dev.seq (rowL h e)).mcInv h e false } :=
  forwarded_row hs hsole fun h d => d.mcInv h e false
theorem exec_tcinvDone : exec (.tcinvDone h e) s = .next { s with dev := s.dev.tcInvDone h e } := by
  unfold exec
  dsimp only
  rw [execTcinvDone, onBlock_live hs.1 hs.2]
theorem exec_mcinvDone : exec (.mcinvDone h e) s = .next { s with dev := s.dev.mcInvDone h e } := by
  unfold exec
  dsimp only
  rw [execMcinvDone, onBlock_live hs.1 hs.2]
end

/-! ### A write that an IDLE context takes -/

theorem Dev.idleWrite_idle {d : Dev} {h : Half} {e c : Nat} (hst : d.cst h e c = .idle) (l off mask : Nat) (v : Word) :
    d.idleWrite h e c l off mask v = d.wr l off (maskPut mask v (d.rd l off)) := if_pos hst
/-- Any other context's is dropped with BIND_REJ. -/
theorem Dev.idleWrite_rejected {d : Dev} {h : Half} {e c : Nat} (hst : d.cst h e c ≠ .idle) (l off mask : Nat) (v : Word) :
    d.idleWrite h e c l off mask v = d.raiseCtx (rowL h e) c 4 := if_neg hst
theorem Dev.histWrite_zero (d : Dev) (h : Half) (e c : Nat) (v : Word) :
    d.histWrite h e c 0 v = d.idleWrite h e c (rowL h e) (ROW_HR_LO.DLOG2.ix c).off 0xFFF0001F v := rfl
theorem Dev.histWrite_rejected {d : Dev} {h : Half} {e c : Nat} (hst : d.cst h e c ≠ .idle) (w : Nat) (v : Word) :
    d.histWrite h e c w v = d.raiseCtx (rowL h e) c 4 := by
  unfold Dev.histWrite
  split
  · exact Dev.idleWrite_rejected hst _ _ _ v
  · exact Dev.idleWrite_rejected hst _ _ _ v
  · split
    · rfl
    · exact Dev.idleWrite_rejected hst _ _ _ v

theorem Dev.rd_seq_row (d : Dev) (h : Half) (e : Nat) {o : Nat} (ho : o < 0x100000) (hne : o ≠ 0x03C) : (d.seq (rowL h e)).rd (rowL h e) o = d.rd (rowL h e) o := by
  refine Dev.rd_seq d _ ?_
  have hp := rowL_page h e
  unfold Loc at *
  omega

/-- A register of the page that an IDLE context takes reads as written under its mask. -/
theorem Dev.rd_idleWrite_row {d : Dev} {h : Half} {e c : Nat} (hst : d.cst h e c = .idle) {off : Nat} (hoff : 0x924 < off ∧ off < 0x1000) (mask : Nat) (v : Word) :
    ((d.seq (rowL h e)).idleWrite h e c (rowL h e) off mask v).rd (rowL h e) off = maskPut mask v (d.rd (rowL h e) off) := by
  rw [Dev.idleWrite_idle ((d.cst_seq h e c).trans hst), Dev.rd_wr_same, Dev.rd_seq_row d h e (by omega) (by omega)]

/-- So does ROW_BIND in the context's bank, where the other registers stay. -/
theorem Dev.bindWrite_idle {d : Dev} {h : Half} {e c : Nat} (hst : d.cst h e c = .idle) (v : Word) :
    ((d.seq (rowL h e)).bindWrite h e c v).rd (cxL h e c) 0x808 = d.rd (cxL h e c) 0x808 ∧
      ((d.seq (rowL h e)).bindWrite h e c v).rd (cxL h e c) 0x804 = maskPut 0xFFFF3FFF v (d.rd (cxL h e c) 0x804) := by
  have heq : (d.seq (rowL h e)).bindWrite h e c v = (d.seq (rowL h e)).wr (cxL h e c) 0x804 (maskPut 0xFFFF3FFF v (d.rd (cxL h e c) 0x804)) := by
    rw [← Dev.rd_seq_cx d h e c 0x804]
    exact Dev.idleWrite_idle ((d.cst_seq h e c).trans hst) _ _ _ v
  rw [heq, Dev.rd_wr_same, Dev.rd_wr_ne _ _ (by simp), Dev.rd_seq_cx]
  exact ⟨rfl, rfl⟩

/-! ### Invalidations -/

theorem Dev.invRange_seq (d : Dev) (h : Half) (e : Nat) : (d.seq (rowL h e)).invRange h e = d.invRange h e := by
  have hrow {f : Fld} (hf : f.off < 0x100000) (hne : f.off ≠ 0x03C) : (d.seq (rowL h e)).g (rowL h e) f = d.g (rowL h e) f := Dev.g_seq_page d h e h .row e hf hne
  unfold Dev.invRange
  simp only [hrow (f := ROW_TCINV_BASE_LO.BASE) (by decide) (by decide), hrow (f := ROW_TCINV_BASE_HI.BASE) (by decide) (by decide),
    hrow (f := ROW_TCINV_LEN.LEN) (by decide) (by decide)]

/-- A write of ROW_TCINV leaves the invalidation pending. -/
theorem Dev.tcInv_spec (d : Dev) (h : Half) (e : Nat) (all : Bool) :
    ((d.tcInv h e all).eng h e).tinv = some (if all then .all else d.invRange h e) ∧ (d.tcInv h e all).on (rowL h e) ROW_TCINV.BUSY = true := by
  unfold Dev.tcInv
  rw [Dev.p_eng, Dev.eng_modEng_same]
  exact ⟨rfl, Dev.on_p_one _ _ (by decide) rfl⟩
theorem Dev.mcInv_spec (d : Dev) (h : Half) (e : Nat) (all : Bool) :
    ((d.mcInv h e all).eng h e).minv = some (if all then .all else d.invRange h e) ∧ (d.mcInv h e all).on (rowL h e) ROW_MCINV.BUSY = true := by
  unfold Dev.mcInv
  rw [Dev.p_eng, Dev.eng_modEng_same]
  exact ⟨rfl, Dev.on_p_one _ _ (by decide) rfl⟩

theorem Dev.on_raise_row (d : Dev) (h : Half) (e n : Nat) {f : Fld} (hf : f.off < 0xBF0) (h14 : f.off ≠ 0x014) (h1C : f.off ≠ 0x01C) :
    (d.raise (rowL h e) n).on (rowL h e) f = d.on (rowL h e) f := by
  unfold Dev.on
  rw [Dev.g_raise d (rowL_page h e) n (rowL h e) f (evReg_header (pageOf h.n .row e) hf h14 h1C)]
theorem Dev.clocked_p_row (d : Dev) (l : Loc) (f : Fld) (v : Nat) (hf : f.off ≠ 0x00C) : (d.p l f v).clocked l = d.clocked l :=
  Dev.on_p_page d l v (Ne.symm hf)

/-- Between renders the invalidation removes what it covers. -/
theorem Dev.tcInvDone_spec {d : Dev} {h : Half} {e : Nat} {i : Inval} (hcur : (d.eng h e).cur = none) (hlcur : (d.eng h e).lcur = none)
    (hinv : (d.eng h e).tinv = some i) (hclk : d.clocked (rowL h e) = true) :
    (∀ y, y ∈ ((d.tcInvDone h e).eng h e).tc ↔ y ∈ (d.eng h e).tc ∧ i.covers y.1 = false) ∧ ((d.tcInvDone h e).eng h e).mc = (d.eng h e).mc ∧
      ((d.tcInvDone h e).eng h e).tinv = none ∧ (d.tcInvDone h e).on (rowL h e) ROW_TCINV.BUSY = false ∧ (d.tcInvDone h e).raised (rowL h e) 6 := by
  unfold Dev.tcInvDone
  rw [hcur, hlcur, hinv]
  dsimp only
  rw [Dev.raise_eng, Dev.p_eng, Dev.eng_modEng_same, Dev.on_raise_row _ h e _ (by decide) (by decide) (by decide)]
  refine ⟨fun y => ?_, rfl, rfl, Dev.on_p_zero _ _ (by decide) rfl, Dev.raise_raised _ (rowL_page h e) (by decide) ?_⟩
  · rw [List.mem_filter, Bool.not_eq_true']
  · rwa [Dev.clocked_p_row _ _ _ _ (by decide), Dev.clocked, Dev.modEng_on]
theorem Dev.mcInvDone_spec {d : Dev} {h : Half} {e : Nat} {i : Inval} (hcur : (d.eng h e).cur = none) (hlcur : (d.eng h e).lcur = none)
    (hinv : (d.eng h e).minv = some i) (hclk : d.clocked (rowL h e) = true) :
    (∀ y, y ∈ ((d.mcInvDone h e).eng h e).mc ↔ y ∈ (d.eng h e).mc ∧ i.covers y.1 = false) ∧ ((d.mcInvDone h e).eng h e).tc = (d.eng h e).tc ∧
      ((d.mcInvDone h e).eng h e).minv = none ∧ (d.mcInvDone h e).on (rowL h e) ROW_MCINV.BUSY = false ∧ (d.mcInvDone h e).raised (rowL h e) 13 := by
  unfold Dev.mcInvDone
  rw [hcur, hlcur, hinv]
  dsimp only
  rw [Dev.raise_eng, Dev.p_eng, Dev.eng_modEng_same, Dev.on_raise_row _ h e _ (by decide) (by decide) (by decide)]
  refine ⟨fun y => ?_, rfl, rfl, Dev.on_p_zero _ _ (by decide) rfl, Dev.raise_raised _ (rowL_page h e) (by decide) ?_⟩
  · rw [List.mem_filter, Bool.not_eq_true']
  · rwa [Dev.clocked_p_row _ _ _ _ (by decide), Dev.clocked, Dev.modEng_on]

end Sys2Proof.Machine

open Sys2Proof Sys2Proof.Machine

/-- Settles O13: a register's write is one masked store or one event; an invalidation stands in the engine until no render runs. -/
theorem bindingsAndCachesTakeTheirWrites : Obligations.BindingsAndCachesTakeTheirWrites := by
  unfold Obligations.BindingsAndCachesTakeTheirWrites
  refine ⟨fun s h e c v hs hsole => ⟨fun hidle => ?idle, fun hst i hi => ?rejected⟩, fun s h e hs =>
    ⟨fun hsole => ⟨_, exec_tcinvAll hs hsole, rfl, rfl, Dev.tcInv_spec _ h e true⟩, fun hsole => ?tcRange,
      fun hsole => ⟨_, exec_mcinvAll hs hsole, rfl, rfl, Dev.mcInv_spec _ h e true⟩, fun hsole => ?mcRange,
      fun i hcur hlcur hinv => ⟨_, exec_tcinvDone hs, rfl, rfl, Dev.tcInvDone_spec hcur hlcur hinv hs.2⟩,
      fun i hcur hlcur hinv => ⟨_, exec_mcinvDone hs, rfl, rfl, Dev.mcInvDone_spec hcur hlcur hinv hs.2⟩⟩⟩
  case idle =>
    refine ⟨⟨_, exec_rowBindWrite hs hsole c v, rfl, rfl, ?_⟩, ⟨_, exec_rowHistoryWrite hs hsole c 0 v, rfl, rfl, ?_⟩, ⟨_, exec_rowRidxWrite hs hsole c v, rfl, rfl, ?_⟩⟩
    · exact Dev.bindWrite_idle hidle v
    · dsimp only
      rw [Fin.val_zero, Dev.histWrite_zero, Dev.rd_idleWrite_row hidle (Fld.ix_perCtx (f := ROW_HR_LO.DLOG2) rfl c.isLt)]
    · dsimp only
      rw [Dev.ridxWrite, Dev.rd_idleWrite_row hidle (Fld.ix_perCtx (f := ROW_RIDX.BASE) rfl c.isLt)]
  case rejected =>
    have hst' : (s.dev.seq (rowL h e)).cst h e c ≠ .idle := fun hidle => hst ((s.dev.cst_seq h e c).symm.trans hidle)
    have hexec : exec i s = .next { s with dev := (s.dev.seq (rowL h e)).raiseCtx (rowL h e) c 4 } := by
      rcases hi with rfl | ⟨w, rfl⟩ | rfl
      · rw [exec_rowBindWrite hs hsole, Dev.bindWrite, Dev.idleWrite_rejected hst']
      · rw [exec_rowHistoryWrite hs hsole, Dev.histWrite_rejected hst']
      · rw [exec_rowRidxWrite hs hsole, Dev.ridxWrite, Dev.idleWrite_rejected hst']
    have hclk : (s.dev.seq (rowL h e)).clocked (rowL h e) = true := (Dev.clocked_seq s.dev _ _).trans hs.2
    exact ⟨_, hexec, rfl, rfl, Dev.raiseCtx_raised _ (rowL_page h e) c (by decide) hclk,
      Dev.onlyRegs_trans (Dev.onlyRegs_mono (by simp) (s.dev.seq_row h e)) (Dev.raiseCtx_frame _ (rowL_page h e) c 4 (by simp))⟩
  case tcRange =>
    have hspec := Dev.tcInv_spec (s.dev.seq (rowL h e)) h e false
    rw [Dev.invRange_seq] at hspec
    exact ⟨_, exec_tcinvRange hs hsole, rfl, rfl, hspec⟩
  case mcRange =>
    have hspec := Dev.mcInv_spec (s.dev.seq (rowL h e)) h e false
    rw [Dev.invRange_seq] at hspec
    exact ⟨_, exec_mcinvRange hs hsole, rfl, rfl, hspec⟩

end

section
/-! Row boundaries and markers: what they leave of the registers of contexts (R79, R80, R97, R126, R134, R137). -/
namespace Sys2Proof.Machine

open Sys2Proof

/-! ### A row boundary of a context keeps its state, its binding and its row number, and every other context's registers -/

/-- The registers that a row boundary of context `c` may write: those of pages, and those of its bank but ROW_BIND and ROW_ROWNUM. -/
def stepKey (h : Half) (e c k : Nat) : Prop :=
  k % 0x100000 < 0x1000 ∨ (cxL h e c ≤ k ∧ k < cxL h e c + 0x1000 ∧ k ≠ cxL h e c + 0x804 ∧ k ≠ cxL h e c + 0x818)

theorem stepKey_page (h : Half) (e c : Nat) {l : Loc} (hl : l % 0x100000 = 0) {o : Nat} (ho : o < 0x1000) : stepKey h e c (l + o) := by
  unfold stepKey Loc at *
  omega
theorem stepKey_bank (h : Half) (e c : Nat) {o : Nat} (ho : o < 0x1000) (hbind : o ≠ 0x804) (hrow : o ≠ 0x818) : stepKey h e c (cxL h e c + o) := by
  unfold stepKey
  generalize cxL h e c = l
  unfold Loc at *
  omega
theorem not_stepKey_bind (h : Half) (e : Nat) {c : Nat} (hc : c < 32) {o : Nat} (ho : o = 0x804 ∨ o = 0x818) : ¬ stepKey h e c (cxL h e c + o) := by
  have h1 := cxL_eq h e c
  have h2 := rowL_page h e
  unfold stepKey Loc at *
  omega
theorem not_stepKey_other (h : Half) (e : Nat) {c c' : Nat} (hc' : c' < 32) (hne : c' ≠ c) {o : Nat} (ho : o < 0x1000) : ¬ stepKey h e c (cxL h e c' + o) := by
  have h1 := cxL_eq h e c
  have h2 := cxL_eq h e c'
  have h3 := rowL_page h e
  unfold stepKey Loc at *
  omega

/-- The context's state stays, and every register outside `stepKey`. -/
def Dev.ctxKept (h : Half) (e c : Nat) (d d' : Dev) : Prop := d'.cst h e c = d.cst h e c ∧ d.regsOff (stepKey h e c) d'

section
variable {h : Half} {e c : Nat} {d d' d'' : Dev}

theorem Dev.ctxKept_refl (d : Dev) : Dev.ctxKept h e c d d := ⟨rfl, Dev.regsOff_refl _ d⟩
theorem Dev.ctxKept_trans (h1 : Dev.ctxKept h e c d d') (h2 : Dev.ctxKept h e c d' d'') : Dev.ctxKept h e c d d'' :=
  ⟨h2.1.trans h1.1, Dev.regsOff_trans h1.2 h2.2⟩
theorem Dev.ctxKept_of_regs (hr : d'.regs = d.regs) : Dev.ctxKept h e c d d' := ⟨Dev.cst_of_regs hr h e c, Dev.regsOff_of_regs hr⟩
theorem Dev.ctxKept_foldl {α : Type} {f : Dev → α → Dev} (xs : List α) (hf : ∀ (x : Dev), ∀ a ∈ xs, Dev.ctxKept h e c x (f x a)) (d : Dev) :
    Dev.ctxKept h e c d (xs.foldl f d) :=
  List.foldlRecOn (motive := fun x : Dev => Dev.ctxKept h e c d x) _ _ (Dev.ctxKept_refl d) (fun x hx a ha => Dev.ctxKept_trans hx (hf x a ha))
/-- Registers of pages. -/
theorem Dev.ctxKept_of_pages (hc : c < 32) (hr : d.regsOff (fun k => k % 0x100000 < 0x1000) d') : Dev.ctxKept h e c d d' := by
  refine ⟨Dev.cst_of_regsOff hr ?_ hc, Dev.regsOff_mono (fun _ => .inl) hr⟩
  have h1 := cxL_eq h e c
  have h2 := rowL_page h e
  unfold Loc at *
  omega
theorem Dev.ctxKept_p_page (hc : c < 32) (d : Dev) {l : Loc} (hl : l % 0x100000 = 0) {f : Fld} (hf : f.off < 0x1000) (v : Nat) :
    Dev.ctxKept h e c d (d.p l f v) := Dev.ctxKept_of_pages hc (Dev.regsOff_p d v (by unfold Loc at *; omega))
theorem Dev.ctxKept_raiseCtx (hc : c < 32) (d : Dev) {l : Loc} (hl : l % 0x100000 = 0) (c' n : Nat) : Dev.ctxKept h e c d (d.raiseCtx l c' n) :=
  Dev.ctxKept_of_pages hc (Dev.regsOff_raiseCtx d hl c' n (by unfold Loc at *; omega))
/-- Registers of the bank. -/
theorem Dev.ctxKept_wr_bank (hc : c < 32) (d : Dev) {o : Nat} (ho : o < 0x1000) (hst : o ≠ 0x814) (hbind : o ≠ 0x804) (hrow : o ≠ 0x818) (w : Word) :
    Dev.ctxKept h e c d (d.wr (cxL h e c) o w) := by
  have hr : d.regsOff (fun k => k = cxL h e c + o) (d.wr (cxL h e c) o w) := Dev.regsOff_wr d w rfl
  refine ⟨Dev.cst_of_regsOff hr (fun hk => hst (Nat.add_left_cancel hk).symm) hc, Dev.regsOff_mono (fun k hk => ?_) hr⟩
  rw [hk]
  exact stepKey_bank h e c ho hbind hrow
theorem Dev.ctxKept_p_bank (hc : c < 32) (d : Dev) {f : Fld} (ho : f.off < 0x1000) (hst : f.off ≠ 0x814) (hbind : f.off ≠ 0x804) (hrow : f.off ≠ 0x818) (v : Nat) :
    Dev.ctxKept h e c d (d.p (cxL h e c) f v) := Dev.ctxKept_wr_bank hc d ho hst hbind hrow _
/-- Fields of ROW_CSTAT above STATE. -/
theorem Dev.ctxKept_p_cstat (d : Dev) {f : Fld} (ho : f.off = 0x814) (hlo : 3 ≤ f.lo) (hw : f.lo + f.w ≤ 32) (v : Nat) :
    Dev.ctxKept h e c d (d.p (cxL h e c) f v) := by
  refine ⟨?_, Dev.regsOff_p d v ?_⟩
  · unfold Dev.cst
    rw [Dev.g_p_disj (f' := ROW_CSTAT.STATE) d _ v ho.symm hw (.inl hlo)]
  · rw [ho]
    exact stepKey_bank h e c (by decide) (by decide) (by decide)
end

/-! ### What a page's swap writes (R487, R490) -/

theorem get_foldr_set (d : Nat → Word) (xs : List (Nat × Word)) (m : SMap Word) {k : Nat} (hk : ∀ x ∈ xs, x.1 ≠ k) :
    SMap.get d (xs.foldr (fun x m => SMap.set d m x.1 x.2) m) k = SMap.get d m k := by
  induction xs with
  | nil => rfl
  | cons x xs ih =>
    rw [List.foldr_cons, SMap.get_set_ne _ _ (Ne.symm (hk x (List.mem_cons_self ..))), ih (fun y hy => hk y (List.mem_cons_of_mem _ hy))]

theorem Dev.swapPage_regs (d : Dev) {l : Loc} (hl : l % 0x100000 = 0) : d.regsOff (fun k => k % 0x100000 < 0x1000) (d.swapPage l) := by
  unfold Dev.swapPage
  extract_lets block m d1
  have h1 : d.regsOff (fun k => k % 0x100000 < 0x1000) d1 := by
    intro k hk _
    have hb : block k = false := by
      simp only [block, Bool.and_eq_false_iff, decide_eq_false_iff_not]
      unfold Loc at *
      omega
    change SMap.get regReset m k = _
    refine (get_foldr_set regReset _ _ (fun x hx he => ?_)).trans ?_
    · rw [List.mem_filter, he, hb] at hx
      exact Bool.false_ne_true hx.2
    · rw [SMap.get_erase, if_neg (by simp [hb])]
  refine Dev.regsOff_trans h1 (Dev.regsOff_trans (Dev.regsOff_p d1 0 ?_) (Dev.regsOff_p _ 0 ?_))
  all_goals
    change (l + 0x010) % 0x100000 < 0x1000
    unfold Loc at *
    omega
theorem Dev.quiet_regs (d : Dev) (m : SMap Word) : ({ d with regs := m } : Dev).quiet = d.quiet := rfl
theorem Dev.swapPage_quiet (d : Dev) (l : Loc) : (d.swapPage l).quiet = d.quiet := by
  unfold Dev.swapPage
  extract_lets block m d1
  rw [Dev.p_quiet, Dev.p_quiet]
  exact Dev.quiet_regs d m

theorem Dev.swapHrn_regs (d : Dev) (h : Half) : d.regsOff (fun k => k % 0x100000 < 0x1000) (d.swapHrn h) := by
  unfold Dev.swapHrn
  refine Dev.regsOff_trans (d.swapPage_regs (hLoc_page h .hrn 0)) (Dev.regsOff_trans (e := (d.swapPage (hLoc h .hrn)).modHarn h _) (Dev.regsOff_of_regs (Dev.modHarn_regs ..)) (Dev.regsOff_p _ 1 ?_))
  have hp := hLoc_page h .hrn 0
  change (hLoc h .hrn + 0x808) % 0x100000 < 0x1000
  unfold Loc at *
  omega
theorem Dev.rowGroup_page {d : Dev} {h : Half} {g : Nat} {p : Loc × Nat} (hp : p ∈ d.rowGroup h g) : p.1 % 0x100000 = 0 := by
  unfold Dev.rowGroup at hp
  split at hp
  · exact absurd hp List.not_mem_nil
  · obtain ⟨hin, _⟩ := List.mem_filter.1 hp
    rcases List.mem_append.1 hin with hin | hin
    · obtain ⟨e, _, rfl⟩ := List.mem_map.1 hin
      exact rowL_page h e
    · rw [List.mem_singleton.1 hin]
      exact hLoc_page h .hrn 0
theorem Dev.swapRowGroup_regs (d : Dev) (h : Half) {ps : List (Loc × Nat)} (hps : ∀ p ∈ ps, p.1 % 0x100000 = 0) :
    d.regsOff (fun k => k % 0x100000 < 0x1000) (d.swapRowGroup h ps) := by
  refine Dev.regsOff_foldl _ (fun x p hp => ?_) d
  split
  · exact x.swapHrn_regs h
  · exact x.swapPage_regs (hps p hp)
theorem Dev.refusePage_regs (d : Dev) {l : Loc} (hl : l % 0x100000 = 0) (code ev : Nat) : d.regsOff (fun k => k % 0x100000 < 0x1000) (d.refusePage l code ev) := by
  refine Dev.regsOff_trans (Dev.regsOff_p d code ?_) (Dev.regsOff_raise _ _ hl ev)
  change (l + 0x010) % 0x100000 < 0x1000
  unfold Loc at *
  omega

/-! ### Steps 1 and 2 of the prologue -/

theorem imageOffs_lt {o : Nat} (ho : o ∈ imageOffs) : o < 0x804 := by
  have hall : ∀ o ∈ imageOffs, o < 0x804 := by decide +kernel
  exact hall o ho

/-- The pages that swap with a context's set (R126). -/
def Dev.groupPages (d : Dev) (h : Half) (e c : Nat) : List (Loc × Nat) :=
  if d.groupReady h (d.g (rowL h e) (ROW_XCFG.GRP.ix c)) then d.rowGroup h (d.g (rowL h e) (ROW_XCFG.GRP.ix c)) else []
theorem Dev.groupPages_page {d : Dev} {h : Half} {e c : Nat} {p : Loc × Nat} (hp : p ∈ d.groupPages h e c) : p.1 % 0x100000 = 0 := by
  unfold Dev.groupPages at hp
  split at hp
  · exact Dev.rowGroup_page hp
  · exact absurd hp List.not_mem_nil
/-- The active set of a context becomes its shadow set. -/
def Dev.setSwapped (d : Dev) (h : Half) (e c : Nat) : Dev := imageOffs.foldl (fun x o => x.wr (cxL h e c) o (d.rdS (cxL h e c) o)) d
/-- A set refused with a code. -/
def Dev.setRefused (d : Dev) (h : Half) (e c code : Nat) : Dev :=
  (((d.p (cxL h e c) ROW_CSTAT.REFUSE code).p (rowL h e) PG_COMMIT.RESULT code).sat (cxL h e c) ROW_CCNT_XING.REFUSED).raiseCtx (rowL h e) c 2
theorem Dev.step1Swap_sound {d : Dev} {h : Half} {e c : Nat} (hok : d.setCodes h e c = []) :
    (d.step1Swap h e c).2 = (d.setSwapped h e c).swapRowGroup h (d.groupPages h e c) := by
  unfold Dev.step1Swap
  dsimp only
  rw [hok]
  rfl
theorem Dev.step1Swap_refused {d : Dev} {h : Half} {e c code : Nat} {codes : List Nat} (hno : d.setCodes h e c = code :: codes) :
    (d.step1Swap h e c).2 = if d.on (rowL h e) (ROW_XCFG.GLINK.ix c) then (d.groupPages h e c).foldl (fun x p => x.refusePage p.1 5 p.2) (d.setRefused h e c code)
      else (d.setRefused h e c code).swapRowGroup h (d.groupPages h e c) := by
  unfold Dev.step1Swap
  dsimp only
  rw [hno]
  dsimp only
  split <;> rfl

theorem Dev.setSwapped_kept (d : Dev) (h : Half) (e : Nat) {c : Nat} (hc : c < 32) : Dev.ctxKept h e c d (d.setSwapped h e c) := by
  refine Dev.ctxKept_foldl imageOffs (fun x o ho => ?_) d
  have hlt := imageOffs_lt ho
  exact Dev.ctxKept_wr_bank hc x (by omega) (by omega) (by omega) (by omega) _
theorem Dev.setRefused_kept (d : Dev) (h : Half) (e : Nat) {c : Nat} (hc : c < 32) (code : Nat) : Dev.ctxKept h e c d (d.setRefused h e c code) :=
  Dev.ctxKept_trans (Dev.ctxKept_p_cstat d rfl (by decide) (by decide) _) (Dev.ctxKept_trans (Dev.ctxKept_p_page hc _ (rowL_page h e) (by decide) _)
    (Dev.ctxKept_trans (Dev.ctxKept_p_bank hc _ (by decide) (by decide) (by decide) (by decide) _) (Dev.ctxKept_raiseCtx hc _ (rowL_page h e) c 2)))
theorem Dev.step1Swap_kept (d : Dev) (h : Half) (e : Nat) {c : Nat} (hc : c < 32) : Dev.ctxKept h e c d (d.step1Swap h e c).2 := by
  rcases hcodes : d.setCodes h e c with _ | ⟨code, codes⟩
  · rw [Dev.step1Swap_sound hcodes]
    exact Dev.ctxKept_trans (d.setSwapped_kept h e hc) (Dev.ctxKept_of_pages hc (Dev.swapRowGroup_regs _ h fun _ => Dev.groupPages_page))
  · rw [Dev.step1Swap_refused hcodes]
    split
    · exact Dev.ctxKept_trans (d.setRefused_kept h e hc code)
        (Dev.ctxKept_foldl _ (fun x p hp => Dev.ctxKept_of_pages hc (x.refusePage_regs (Dev.groupPages_page hp) 5 p.2)) _)
    · exact Dev.ctxKept_trans (d.setRefused_kept h e hc code) (Dev.ctxKept_of_pages hc (Dev.swapRowGroup_regs _ h fun _ => Dev.groupPages_page))

/-- The row of a plane that a write of ROW_PYLD loads, and the next row of a plane. -/
def Dev.loadY (d : Dev) (h : Half) (e c p : Nat) : Dev :=
  (d.pB (cxL h e c) (ROW_PYLD.LOAD.ix p) 0).p (cxL h e c) (ROW_PYPOS.Y.ix p) (d.g (cxL h e c) (ROW_PYLD.Y.ix p) % d.planeHc h e c p)
def Dev.nextY (d : Dev) (h : Half) (e c p : Nat) : Dev :=
  d.p (cxL h e c) (ROW_PYPOS.Y.ix p) ((d.g (cxL h e c) (ROW_PYPOS.Y.ix p) + 1) % d.planeHc h e c p)
theorem Dev.step1Y_eq (d : Dev) (h : Half) (e c : Nat) (swapped : Bool) : (d.step1Y h e c swapped).2.2 =
    (List.range 8).foldl (fun x p => x.nextY h e c p)
      (((List.range 8).filter (fun p => swapped && d.on (cxL h e c) (ROW_PYLD.LOAD.ix p))).foldl (fun x p => x.loadY h e c p) d) := rfl

theorem Dev.nextY_kept (d : Dev) (h : Half) (e : Nat) {c p : Nat} (hc : c < 32) (hp : p < 8) (v : Nat) :
    Dev.ctxKept h e c d (d.p (cxL h e c) (ROW_PYPOS.Y.ix p) v) := by
  have hoff : (ROW_PYPOS.Y.ix p).off = 0x830 + 4 * p := rfl
  exact Dev.ctxKept_p_bank hc d (by omega) (by omega) (by omega) (by omega) v
theorem Dev.loadY_kept (d : Dev) (h : Half) (e : Nat) {c p : Nat} (hc : c < 32) (hp : p < 8) : Dev.ctxKept h e c d (d.loadY h e c p) := by
  have hoff : (ROW_PYLD.LOAD.ix p).off = 0x328 + 0x40 * p := rfl
  refine Dev.ctxKept_trans (d' := d.pB (cxL h e c) (ROW_PYLD.LOAD.ix p) 0) (Dev.ctxKept_trans
    (Dev.ctxKept_p_bank (f := ROW_PYLD.LOAD.ix p) hc d (by omega) (by omega) (by omega) (by omega) 0) (Dev.ctxKept_of_regs (Dev.wrS_regs ..))) (Dev.nextY_kept _ h e hc hp _)
theorem Dev.step1Y_kept (d : Dev) (h : Half) (e : Nat) {c : Nat} (hc : c < 32) (swapped : Bool) : Dev.ctxKept h e c d (d.step1Y h e c swapped).2.2 := by
  rw [Dev.step1Y_eq]
  refine Dev.ctxKept_trans (Dev.ctxKept_foldl _ (fun x p hp => ?_) d) (Dev.ctxKept_foldl _ (fun x p hp => Dev.nextY_kept x h e hc (List.mem_range.1 hp) _) _)
  exact x.loadY_kept h e hc (List.mem_range.1 (List.mem_filter.1 hp).1)

/-- The slot of a release lies outside the registers. -/
theorem Dev.setSlot_regs (d : Dev) (h : Half) (core c : Nat) (r : Option Release) : (d.setSlot h core c r).regs = d.regs := rfl
theorem Dev.release_kept (d : Dev) (h : Half) (e : Nat) {c : Nat} (hc : c < 32) (r : Nat) : Dev.ctxKept h e c d (d.release h e c r) := by
  unfold Dev.release
  extract_lets l core first d1
  have h1 : Dev.ctxKept h e c d d1 := Dev.ctxKept_of_regs (Dev.modCx_regs ..)
  split
  · split
    · exact Dev.ctxKept_trans h1 (Dev.ctxKept_of_regs (Dev.setSlot_regs ..))
    · next old _ =>
      refine Dev.ctxKept_trans h1 (Dev.ctxKept_trans (Dev.ctxKept_of_regs (Dev.setSlot_regs d1 h core c (some ⟨c, r, true, old.first || first⟩))) ?_)
      exact Dev.ctxKept_trans (Dev.ctxKept_p_page hc _ (rowL_page h e) (Fld.ix_perCtx (f := ROW_RERR.SKIPS) rfl hc).2 _)
        (Dev.ctxKept_raiseCtx hc _ (rowL_page h e) c 20)
  · exact Dev.ctxKept_refl d

/-! ### Due entries -/

/-- What a new row's due entry leaves: steps 1 and 2 (R130). -/
theorem Dev.forwardDue_kept (d : Dev) (h : Half) (e : Nat) {c : Nat} (hc : c < 32) (r rev8 batch : Nat) : Dev.ctxKept h e c d (d.forwardDue h e c r rev8 batch).2 := by
  unfold Dev.forwardDue
  extract_lets l lc bind
  split
  · next late d1 sw y x d2 _ =>
    have h1 : Dev.ctxKept h e c d d1 := by
      unfold d1
      split
      · exact Dev.ctxKept_trans (Dev.ctxKept_p_bank hc d (by decide) (by decide) (by decide) (by decide) _) (Dev.ctxKept_raiseCtx hc _ (rowL_page h e) c 1)
      · exact Dev.ctxKept_refl d
    exact Dev.ctxKept_trans h1 (Dev.ctxKept_trans (d1.step1Swap_kept h e hc) (Dev.ctxKept_trans (sw.2.step1Y_kept h e hc sw.1)
      (Dev.ctxKept_trans (Dev.ctxKept_p_page hc y.2.2 (rowL_page h e) (Fld.ix_perCtx (f := ROW_REVST.PHASE) rfl hc).2 0) (Dev.release_kept _ h e hc r))))
  · exact Dev.ctxKept_refl d

theorem Dev.forwardDue_entry (d : Dev) (h : Half) (e c r rev8 batch : Nat) :
    (d.forwardDue h e c r rev8 batch).1.ctx = c ∧ (d.forwardDue h e c r rev8 batch).1.row = r := by
  unfold Dev.forwardDue
  extract_lets l lc bind
  split
  · exact ⟨rfl, rfl⟩
  · exact ⟨rfl, rfl⟩

theorem Dev.loupeAbandon_regs (d : Dev) (h : Half) (e : Nat) : d.regsOff (fun k => k = rowL h e + 0x900) (d.loupeAbandon h e) := by
  unfold Dev.loupeAbandon
  split
  · exact Dev.regsOff_refl _ d
  · extract_lets d1
    refine Dev.regsOff_trans (e := d1) (Dev.regsOff_of_regs (Dev.modEng_regs ..)) (Dev.regsOff_trans ?_ (Dev.regsOff_p _ 0 rfl))
    split
    · exact Dev.regsOff_p d1 0 rfl
    · exact Dev.regsOff_refl _ d1
theorem Dev.loupeAbandon_due (d : Dev) (h : Half) (e : Nat) : ((d.loupeAbandon h e).eng h e).due = (d.eng h e).due := by
  unfold Dev.loupeAbandon
  split
  · rfl
  · extract_lets d1
    have h1 : (d1.eng h e).due = (d.eng h e).due := by
      unfold d1
      rw [Dev.eng_modEng_same]
      dsimp only
      split <;> rfl
    rw [Dev.p_eng, ← h1]
    split
    · rw [Dev.p_eng]
    · rfl
theorem Dev.ctxKept_row {h : Half} {e c : Nat} {d d' : Dev} (hc : c < 32) {o : Nat} (ho : o < 0x1000) (hr : d.regsOff (fun k => k = rowL h e + o) d') :
    Dev.ctxKept h e c d d' := by
  refine Dev.ctxKept_of_pages hc (Dev.regsOff_mono (fun k hk => ?_) hr)
  have hp := rowL_page h e
  subst hk
  unfold Loc at *
  omega
theorem Dev.addDue_kept (d : Dev) (h : Half) (e : Nat) {c : Nat} (hc : c < 32) (x : Due) : Dev.ctxKept h e c d (d.addDue h e c x) := by
  unfold Dev.addDue
  split
  · exact Dev.ctxKept_of_regs (Dev.modCx_regs ..)
  · exact Dev.ctxKept_trans (Dev.ctxKept_of_regs (Dev.modEng_regs ..)) (Dev.ctxKept_row hc (by decide) (Dev.loupeAbandon_regs _ h e))

/-! ### Fills (R134, R137) -/

theorem Dev.fillBack_kept (d : Dev) (h : Half) (e : Nat) {c : Nat} (hc : c < 32) (n : Nat) : Dev.ctxKept h e c d (d.fillBack h e c n) := by
  unfold Dev.fillBack
  extract_lets b
  exact Dev.ctxKept_trans (d' := b.2) (Dev.ctxKept_of_regs (Dev.modEng_regs ..)) (Dev.ctxKept_foldl _ (fun x i _ => x.addDue_kept h e hc _) _)
theorem Dev.fillAhead_kept (d : Dev) (h : Half) (e : Nat) {c : Nat} (hc : c < 32) (lo count : Nat) : Dev.ctxKept h e c d (d.fillAhead h e c lo count) := by
  unfold Dev.fillAhead
  extract_lets b
  refine Dev.ctxKept_trans (d' := b.2) (Dev.ctxKept_of_regs (Dev.modEng_regs ..)) (Dev.ctxKept_foldl _ (fun x i _ => ?_) _)
  exact Dev.ctxKept_trans (x.forwardDue_kept h e hc _ _ _) (Dev.addDue_kept _ h e hc _)
theorem Dev.cancelFirst_kept (d : Dev) (h : Half) (e c : Nat) (dir : Bool) : Dev.ctxKept h e c d (d.cancelFirst h e c dir) := by
  unfold Dev.cancelFirst Dev.requestScan
  exact Dev.ctxKept_trans (Dev.ctxKept_of_regs (Dev.modCx_regs ..)) (Dev.ctxKept_of_regs (Dev.setScans_regs ..))
theorem Dev.dropDue_kept (d : Dev) (h : Half) (e c : Nat) : Dev.ctxKept h e c d (d.dropDue h e c) := by
  unfold Dev.dropDue
  exact Dev.ctxKept_trans (Dev.ctxKept_of_regs (Dev.modEng_regs ..)) (Dev.ctxKept_trans (Dev.ctxKept_of_regs (Dev.modCx_regs ..))
    (Dev.ctxKept_p_cstat _ rfl (by decide) (by decide) 0))

/-! ### A context at a marker -/

theorem Dev.setCst_regs (d : Dev) (h : Half) (e c : Nat) (x : CtxState) : d.regsOff (stepKey h e c) (d.setCst h e c x) :=
  Dev.regsOff_p d _ (stepKey_bank h e c (by decide) (by decide) (by decide))
/-- What holds a context: its state, the row it is held at, and whether a reversal limit holds it. -/
theorem Dev.enterHold_spec (d : Dev) (h : Half) (e : Nat) {c : Nat} (hc : c < 32) (lim : Bool) :
    (d.enterHold h e c lim).cst h e c = .hold ∧ (d.enterHold h e c lim).g (cxL h e c) ROW_HELDN.N = d.rownum h e c ∧
      (d.enterHold h e c lim).g (rowL h e) (ROW_REVST.REVHELD.ix c) = b2n lim ∧
      d.onlyRegs [cxL h e c + 0x814, cxL h e c + 0x850, rowL h e + (ROW_REVST.REVHELD.ix c).off] (d.enterHold h e c lim) := by
  have hoff := Fld.ix_perCtx (f := ROW_REVST.REVHELD) rfl hc
  have hrow : d.rownum h e c < 2 ^ 32 := fget_lt ROW_ROWNUM.N _
  unfold Dev.enterHold
  refine ⟨?_, ?_, ?_, ?_⟩
  · rw [Dev.cst_p_row _ h e c _ hoff.2, Dev.cst, Dev.g_p_page _ _ _ (by decide), ← Dev.cst, Dev.cst_setCst]
  · rw [Dev.g_p_row _ h e c _ _ hoff.2, Dev.g_p_word _ _ rfl rfl hrow]
  · rw [Dev.g_p_ix _ _ _ _ _ (by decide)]
    cases lim <;> rfl
  · exact Dev.onlyRegs_trans (Dev.onlyRegs_p d _ _ _ (.inl (by simp [ROW_CSTAT.STATE])))
      (Dev.onlyRegs_trans (Dev.onlyRegs_p _ _ _ _ (.inl (by simp [ROW_HELDN.N]))) (Dev.onlyRegs_p _ _ _ _ (.inl (by simp))))

theorem Dev.enterHold_stepped (d : Dev) (h : Half) (e : Nat) {c : Nat} (hc : c < 32) (lim : Bool) : d.regsOff (stepKey h e c) (d.enterHold h e c lim) := by
  refine Dev.regsOff_of_regsKept (d.enterHold_spec h e hc lim).2.2.2.2 (fun k hk => ?_)
  simp only [List.mem_cons, List.not_mem_nil, or_false] at hk
  rcases hk with rfl | rfl | rfl
  · exact stepKey_bank h e c (by decide) (by decide) (by decide)
  · exact stepKey_bank h e c (by decide) (by decide) (by decide)
  · exact stepKey_page h e c (rowL_page h e) (Fld.ix_perCtx (f := ROW_REVST.REVHELD) rfl hc).2

/-- A context that the reverse marker finds in RUNNING. -/
theorem Dev.reverseCtx_spec (d : Dev) (h : Half) (e : Nat) {c : Nat} (hc : c < 32) :
    (d.reverseCtx h e c).cst h e c = (if d.cst h e c = .running then if d.on (cxL h e c) ROW_BIND.REVERSIBLE then .reversing else .hold else d.cst h e c) ∧
      d.regsOff (stepKey h e c) (d.reverseCtx h e c) := by
  unfold Dev.reverseCtx
  extract_lets l d1 d2
  split
  · split
    · have h1 : Dev.ctxKept h e c (d.setCst h e c .reversing) d1 :=
        Dev.ctxKept_trans (Dev.ctxKept_p_page hc _ (rowL_page h e) (Fld.ix_perCtx (f := ROW_REVST.PHASE) rfl hc).2 1) (Dev.ctxKept_raiseCtx hc _ (rowL_page h e) c 16)
      have h2 : Dev.ctxKept h e c d1 d2 :=
        Dev.ctxKept_trans (Dev.ctxKept_p_page hc _ (rowL_page h e) (Fld.ix_perCtx (f := ROW_RERR.DUEDROP) rfl hc).2 _) (Dev.dropDue_kept _ h e c)
      obtain ⟨hcst, hr⟩ := Dev.ctxKept_trans h1 (Dev.ctxKept_trans h2 (Dev.ctxKept_trans (d2.cancelFirst_kept h e c false)
        (Dev.fillBack_kept _ h e hc (d.rownum h e c))))
      exact ⟨hcst.trans (d.cst_setCst h e c .reversing), Dev.regsOff_trans (d.setCst_regs h e c .reversing) hr⟩
    · exact ⟨(d.enterHold_spec h e hc false).1, d.enterHold_stepped h e hc false⟩
  · exact ⟨rfl, Dev.regsOff_refl _ d⟩

/-- A context that the forward marker finds in REVERSING. -/
theorem Dev.forwardCtx_spec (d : Dev) (h : Half) (e : Nat) {c : Nat} (hc : c < 32) :
    (d.forwardCtx h e c).cst h e c = (if d.cst h e c = .reversing then .running else d.cst h e c) ∧ d.regsOff (stepKey h e c) (d.forwardCtx h e c) := by
  unfold Dev.forwardCtx
  extract_lets l m d1 d2
  split
  · have h1 : Dev.ctxKept h e c (d.setCst h e c .running) d1 :=
      Dev.ctxKept_trans (Dev.ctxKept_p_page hc _ (rowL_page h e) (Fld.ix_perCtx (f := ROW_REVST.PHASE) rfl hc).2 2) (Dev.ctxKept_raiseCtx hc _ (rowL_page h e) c 17)
    have h2 : Dev.ctxKept h e c d1 d2 :=
      Dev.ctxKept_trans (Dev.ctxKept_p_page hc _ (rowL_page h e) (Fld.ix_perCtx (f := ROW_RERR.DUEDROP) rfl hc).2 _) (Dev.dropDue_kept _ h e c)
    obtain ⟨hcst, hr⟩ := Dev.ctxKept_trans h1 (Dev.ctxKept_trans h2 (Dev.ctxKept_trans (d2.cancelFirst_kept h e c true)
      (Dev.fillAhead_kept _ h e hc (m + 1) (d.leadOf h e c))))
    exact ⟨hcst.trans (d.cst_setCst h e c .running), Dev.regsOff_trans (d.setCst_regs h e c .running) hr⟩
  · exact ⟨rfl, Dev.regsOff_refl _ d⟩

/-! ### A marker acts on every context bound to its beam, and on each alone -/

/-- A view of one context that says its beam: where the act on a bound context changes that context's view by `φ` and no other's, so does the marker. -/
theorem Dev.onBound_view {α : Type} {h : Half} {e b : Nat} {f : Dev → Nat → Dev} (view : Dev → Nat → α) (φ : α → α)
    (hbeam : ∀ x y c, view x c = view y c → x.beamOf h e c = y.beamOf h e c) (hself : ∀ x c, c < 32 → view (f x c) c = φ (view x c))
    (hother : ∀ x c c', c < 32 → c' < 32 → c' ≠ c → view (f x c) c' = view x c') (d : Dev) {c : Nat} (hc : c < 32) :
    view (d.onBound h e b f) c = if d.beamOf h e c = b then φ (view d c) else view d c := by
  have hgen : ∀ n ≤ 32, view ((List.range n).foldl (fun x c => if x.beamOf h e c = b then f x c else x) d) c =
      if c < n ∧ d.beamOf h e c = b then φ (view d c) else view d c := by
    intro n hn
    induction n with
    | zero => simp
    | succ n ih =>
      have ih := ih (by omega)
      rw [List.range_succ, List.foldl_append, List.foldl_cons, List.foldl_nil]
      generalize (List.range n).foldl (fun x c => if x.beamOf h e c = b then f x c else x) d = x at ih
      by_cases hcn : c = n
      · subst hcn
        rw [if_neg (by omega)] at ih
        have hb := hbeam x d c ih
        by_cases hbound : d.beamOf h e c = b
        · rw [if_pos (hb.trans hbound), hself x c hc, ih, if_pos ⟨Nat.lt_succ_self c, hbound⟩]
        · rw [if_neg (fun hx => hbound (hb.symm.trans hx)), ih, if_neg (fun hx => hbound hx.2)]
      · have hstep : view (if x.beamOf h e n = b then f x n else x) c = view x c := by
          split
          · exact hother x n c (by omega) hc hcn
          · rfl
        rw [hstep, ih]
        exact if_congr (and_congr_left' ⟨fun hlt => by omega, fun hlt => by omega⟩) rfl rfl
  have hall := hgen 32 (le_refl 32)
  unfold Dev.onBound
  rw [hall]
  exact if_congr (and_iff_right hc) rfl rfl

/-- The binding and the state of a context. -/
def Dev.bound2 (d : Dev) (h : Half) (e c : Nat) : Word × CtxState := (d.rd (cxL h e c) 0x804, d.cst h e c)
theorem Dev.beamOf_of_bind {x y : Dev} {h : Half} {e c : Nat} (hb : x.rd (cxL h e c) 0x804 = y.rd (cxL h e c) 0x804) : x.beamOf h e c = y.beamOf h e c :=
  congrArg (fget ROW_BIND.BEAM) hb
theorem Dev.bind_of_stepKey {x y : Dev} {h : Half} {e c : Nat} (hc : c < 32) (hr : x.regsOff (stepKey h e c) y) : y.rd (cxL h e c) 0x804 = x.rd (cxL h e c) 0x804 :=
  Dev.rd_of_regsOff hr (not_stepKey_bind h e hc (.inl rfl)) (evReg_cx h e hc (by decide))
/-- What happens at one context stays there. -/
theorem Dev.bound2_other {x y : Dev} {h : Half} {e c c' : Nat} (hc' : c' < 32) (hne : c' ≠ c) (hr : x.regsOff (stepKey h e c) y) :
    y.bound2 h e c' = x.bound2 h e c' := by
  unfold Dev.bound2
  rw [Dev.rd_of_regsOff hr (not_stepKey_other h e hc' hne (by decide)) (evReg_cx h e hc' (by decide)),
    Dev.cst_of_regsOff hr (not_stepKey_other h e hc' hne (by decide)) hc']

theorem Dev.onBound_reverse (d : Dev) (h : Half) (e b : Nat) {c : Nat} (hc : c < 32) :
    (d.onBound h e b (fun x c => x.reverseCtx h e c)).cst h e c = (if d.beamOf h e c = b ∧ d.cst h e c = .running then
      (if d.on (cxL h e c) ROW_BIND.REVERSIBLE then .reversing else .hold) else d.cst h e c) := by
  have hview := Dev.onBound_view (h := h) (e := e) (b := b) (f := fun x c => x.reverseCtx h e c) (fun x c => x.bound2 h e c)
    (fun v => (v.1, if v.2 = .running then (if decide (fget ROW_BIND.REVERSIBLE v.1 = 1) then .reversing else .hold) else v.2))
    (fun _ _ _ hv => Dev.beamOf_of_bind (congrArg Prod.fst hv))
    (fun x c hc => by
      obtain ⟨hcst, hr⟩ := x.reverseCtx_spec h e hc
      exact Prod.ext (Dev.bind_of_stepKey hc hr) hcst)
    (fun x c c' hc hc' hne => Dev.bound2_other hc' hne (x.reverseCtx_spec h e hc).2) d hc
  refine (congrArg Prod.snd hview).trans ?_
  by_cases hb : d.beamOf h e c = b
  · rw [if_pos hb]
    exact if_congr ⟨fun hr => ⟨hb, hr⟩, fun hr => hr.2⟩ rfl rfl
  · rw [if_neg hb, if_neg (fun hn => hb hn.1)]
    rfl
theorem Dev.onBound_forward (d : Dev) (h : Half) (e b : Nat) {c : Nat} (hc : c < 32) :
    (d.onBound h e b (fun x c => x.forwardCtx h e c)).cst h e c = (if d.beamOf h e c = b ∧ d.cst h e c = .reversing then .running else d.cst h e c) := by
  have hview := Dev.onBound_view (h := h) (e := e) (b := b) (f := fun x c => x.forwardCtx h e c) (fun x c => x.bound2 h e c)
    (fun v => (v.1, if v.2 = .reversing then .running else v.2)) (fun _ _ _ hv => Dev.beamOf_of_bind (congrArg Prod.fst hv))
    (fun x c hc => by
      obtain ⟨hcst, hr⟩ := x.forwardCtx_spec h e hc
      exact Prod.ext (Dev.bind_of_stepKey hc hr) hcst)
    (fun x c c' hc hc' hne => Dev.bound2_other hc' hne (x.forwardCtx_spec h e hc).2) d hc
  refine (congrArg Prod.snd hview).trans ?_
  by_cases hb : d.beamOf h e c = b
  · rw [if_pos hb]
    exact if_congr ⟨fun hr => ⟨hb, hr⟩, fun hr => hr.2⟩ rfl rfl
  · rw [if_neg hb, if_neg (fun hn => hb hn.1)]
    rfl

/-! ### The state marker -/

/-- A context that the state marker finds. -/
def Dev.stopCtx (d : Dev) (h : Half) (e c : Nat) : Dev := if d.cst h e c = .running ∨ d.cst h e c = .reversing then d.enterHold h e c false else d
/-- What the state marker reads and writes of a context: binding, state, row number, row held at and whether a limit holds it. -/
structure CtxView where
  bind : Word
  state : CtxState
  row : Nat
  heldAt : Nat
  limit : Nat
def Dev.ctxView (d : Dev) (h : Half) (e c : Nat) : CtxView :=
  ⟨d.rd (cxL h e c) 0x804, d.cst h e c, d.rownum h e c, d.g (cxL h e c) ROW_HELDN.N, d.g (rowL h e) (ROW_REVST.REVHELD.ix c)⟩
/-- The view of a context that the state marker stops. -/
def CtxView.stopped (v : CtxView) : CtxView := if v.state = .running ∨ v.state = .reversing then ⟨v.bind, .hold, v.row, v.row, 0⟩ else v

theorem Dev.stopCtx_self (d : Dev) (h : Half) (e : Nat) {c : Nat} (hc : c < 32) : (d.stopCtx h e c).ctxView h e c = (d.ctxView h e c).stopped := by
  unfold Dev.stopCtx CtxView.stopped
  split
  · next hst =>
    obtain ⟨hcst, hheld, hlim, hregs⟩ := d.enterHold_spec h e hc false
    have hstep := d.enterHold_stepped h e hc false
    have hrow : (d.enterHold h e c false).rownum h e c = d.rownum h e c :=
      Dev.g_of_regsOff hstep (not_stepKey_bind h e hc (.inr rfl)) (evReg_cx h e hc (by decide))
    have hview : (d.ctxView h e c).state = .running ∨ (d.ctxView h e c).state = .reversing := hst
    rw [if_pos hview]
    unfold Dev.ctxView
    rw [Dev.bind_of_stepKey hc hstep, hcst, hrow, hheld, hlim]
    rfl
  · next hst =>
    have hview : ¬ ((d.ctxView h e c).state = .running ∨ (d.ctxView h e c).state = .reversing) := hst
    rw [if_neg hview]
theorem Dev.stopCtx_other (d : Dev) (h : Half) {e c c' : Nat} (he : e < 8) (hc : c < 32) (hc' : c' < 32) (hne : c' ≠ c) :
    (d.stopCtx h e c).ctxView h e c' = d.ctxView h e c' := by
  unfold Dev.stopCtx
  split
  · have hstep := d.enterHold_stepped h e hc false
    have hbank {f : Fld} (hf : f.off < 0x1000) : (d.enterHold h e c false).g (cxL h e c') f = d.g (cxL h e c') f :=
      Dev.g_of_regsOff hstep (not_stepKey_other h e hc' hne hf) (evReg_cx h e hc' hf)
    have hlim : (d.enterHold h e c false).g (rowL h e) (ROW_REVST.REVHELD.ix c') = d.g (rowL h e) (ROW_REVST.REVHELD.ix c') := by
      obtain ⟨hlo, hhi⟩ := Fld.ix_perCtx (f := ROW_REVST.REVHELD) rfl hc'
      refine congrArg (fget _) ((d.enterHold_spec h e hc false).2.2.2.2 _ (fun hk => ?_) (evReg_row h he hhi (by omega) (by omega)))
      have hoff (c : Nat) : (ROW_REVST.REVHELD.ix c).off = 0xC0C + 0x10 * c := rfl
      have hcx := cxL_eq h e c
      simp only [List.mem_cons, List.not_mem_nil, or_false, hoff] at hk
      unfold Loc at *
      omega
    obtain ⟨hbind, hcst⟩ := Prod.mk.inj (Dev.bound2_other hc' hne hstep)
    unfold Dev.ctxView Dev.rownum
    rw [hbind, hcst, hbank (by decide), hbank (by decide), hlim]
  · rfl

theorem Dev.onBound_stop (d : Dev) (h : Half) {e : Nat} (he : e < 8) (b : Nat) {c : Nat} (hc : c < 32) :
    (d.onBound h e b (fun x c => x.stopCtx h e c)).ctxView h e c = if d.beamOf h e c = b then (d.ctxView h e c).stopped else d.ctxView h e c :=
  Dev.onBound_view (fun x c => x.ctxView h e c) CtxView.stopped (fun _ _ _ hv => Dev.beamOf_of_bind (congrArg CtxView.bind hv)) (fun x _ hc => x.stopCtx_self h e hc)
    (fun x _ _ hc hc' hne => x.stopCtx_other h he hc hc' hne) d hc

theorem Dev.stateMarker_eq (d : Dev) (h : Half) (e b : Nat) {code : Nat} (dir : Bool) (hcode : code ≠ 2) :
    ∃ d2 : Dev, d2.regs = d.regs ∧ d.stateMarker h e b code dir = d2.onBound h e b (fun x c => x.stopCtx h e c) := by
  unfold Dev.stateMarker
  extract_lets put d1 d2
  rw [if_neg hcode]
  refine ⟨d2, ?_, ?_⟩
  · unfold d2
    split
    · exact (Dev.modHarn_regs ..).trans (Dev.modEng_regs ..)
    · exact Dev.modEng_regs ..
  · refine congrArg (d2.onBound h e b) (funext fun x => funext fun c => ?_)
    unfold Dev.stopCtx
    cases x.cst h e c <;> rfl

theorem Dev.beamOf_of_regs {d d' : Dev} (hr : d'.regs = d.regs) (h : Half) (e c : Nat) : d'.beamOf h e c = d.beamOf h e c := by
  unfold Dev.beamOf Dev.g Dev.rd
  rw [hr]
theorem Dev.rownum_of_regs {d d' : Dev} (hr : d'.regs = d.regs) (h : Half) (e c : Nat) : d'.rownum h e c = d.rownum h e c := by
  unfold Dev.rownum Dev.g Dev.rd
  rw [hr]
theorem Dev.ctxView_of_regs {d d' : Dev} (hr : d'.regs = d.regs) (h : Half) (e c : Nat) : d'.ctxView h e c = d.ctxView h e c := by
  unfold Dev.ctxView Dev.rownum Dev.cst Dev.g Dev.rd
  rw [hr]

/-- A state marker other than SYNCED stops the contexts it finds in RUNNING or REVERSING at their row. -/
theorem Dev.stateMarker_spec (d : Dev) (h : Half) {e : Nat} (he : e < 8) (b : Nat) {code : Nat} (dir : Bool) (hcode : code ≠ 2) {c : Nat} (hc : c < 32) :
    if d.beamOf h e c = b ∧ (d.cst h e c = .running ∨ d.cst h e c = .reversing) then
      (d.stateMarker h e b code dir).cst h e c = .hold ∧ (d.stateMarker h e b code dir).g (cxL h e c) ROW_HELDN.N = d.rownum h e c ∧
        (d.stateMarker h e b code dir).g (rowL h e) (ROW_REVST.REVHELD.ix c) = 0
    else (d.stateMarker h e b code dir).cst h e c = d.cst h e c := by
  obtain ⟨d2, hr, heq⟩ := d.stateMarker_eq h e b dir hcode
  have hview := d2.onBound_stop h he b hc
  rw [← heq, Dev.beamOf_of_regs hr, Dev.ctxView_of_regs hr] at hview
  by_cases hb : d.beamOf h e c = b
  · rw [if_pos hb, CtxView.stopped] at hview
    by_cases hst : d.cst h e c = .running ∨ d.cst h e c = .reversing
    · have hst' : (d.ctxView h e c).state = .running ∨ (d.ctxView h e c).state = .reversing := hst
      rw [if_pos hst'] at hview
      rw [if_pos ⟨hb, hst⟩]
      exact ⟨congrArg CtxView.state hview, congrArg CtxView.heldAt hview, congrArg CtxView.limit hview⟩
    · have hst' : ¬ ((d.ctxView h e c).state = .running ∨ (d.ctxView h e c).state = .reversing) := hst
      rw [if_neg hst'] at hview
      rw [if_neg fun hn => hst hn.2]
      exact congrArg CtxView.state hview
  · rw [if_neg hb] at hview
    rw [if_neg fun hn => hb hn.1]
    exact congrArg CtxView.state hview

/-! ### A reverse crossing (R135) -/

theorem Dev.addDue_ready {d : Dev} {h : Half} {e c : Nat} (hw : (d.cx h e c).waiting = false) (x : Due) :
    d.addDue h e c x = (d.modEng h e (fun y => { y with due := y.due ++ [x] })).loupeAbandon h e := by
  unfold Dev.addDue
  rw [if_neg (by rw [hw]; exact Bool.false_ne_true)]
theorem Dev.addDue_due {d : Dev} {h : Half} {e c : Nat} (hw : (d.cx h e c).waiting = false) (x : Due) :
    ((d.addDue h e c x).eng h e).due = (d.eng h e).due ++ [x] := by
  rw [Dev.addDue_ready hw, Dev.loupeAbandon_due, Dev.eng_modEng_same]
theorem Dev.addDue_regs {d : Dev} {h : Half} {e c : Nat} (hw : (d.cx h e c).waiting = false) (x : Due) :
    d.regsOff (fun k => k = rowL h e + 0x900) (d.addDue h e c x) := by
  rw [Dev.addDue_ready hw]
  exact Dev.regsOff_trans (Dev.regsOff_of_regs (Dev.modEng_regs ..)) (Dev.loupeAbandon_regs _ h e)

/-- The devices at a reverse crossing that ends the span of row `k`, before the re-render is added. -/
def Dev.stepBack (d : Dev) (h : Half) (e c k ang : Nat) : Dev :=
  ((d.p (cxL h e c) ROW_ROWNUM.N (k + 2 ^ 32 - 1)).modCx h e c (fun x => { x with ka := k, pa := ang })).modEng h e (fun x => { x with batch := x.batch + 1 })
theorem Dev.stepBack_regs (d : Dev) (h : Half) (e c k ang : Nat) : (d.stepBack h e c k ang).regs = (d.p (cxL h e c) ROW_ROWNUM.N (k + 2 ^ 32 - 1)).regs :=
  (Dev.modEng_regs ..).trans (Dev.modCx_regs ..)
theorem Dev.stepBack_due (d : Dev) (h : Half) (e c k ang : Nat) : ((d.stepBack h e c k ang).eng h e).due = (d.eng h e).due := by
  rw [Dev.stepBack, Dev.eng_modEng_same, Dev.modCx_eng, Dev.p_eng]
theorem Dev.stepBack_waiting (d : Dev) (h : Half) (e c k ang : Nat) : ((d.stepBack h e c k ang).cx h e c).waiting = (d.cx h e c).waiting := by
  rw [Dev.stepBack, Dev.modEng_cx, Dev.cx_modCx_same, Dev.p_cx]

theorem Dev.backward_eq {d : Dev} {h : Half} {e c : Nat} (rev8 : Nat) (hst : d.cst h e c = .reversing) (hpark : d.parked h e c = false)
    (hdue : d.dueOf h e c = []) : ∃ (ang : Nat) (x : Due), x.ctx = c ∧ x.kind = .reverse ∧
      x.row = (d.rownum h e c + 2 ^ 33 - 1 - d.leadOf h e c) % 2 ^ 32 ∧
      d.backward h e c rev8 = ((d.stepBack h e c (d.rownum h e c) ang).addDue h e c x).loupeAbandon h e := by
  unfold Dev.backward
  extract_lets lc
  rw [hst]
  rename_i k angle d1 b row x
  rw [hpark, if_neg Bool.false_ne_true, hdue, if_neg (fun hne => hne rfl)]
  exact ⟨rev8 % 256 * 2 ^ 32 + angle, _, rfl, rfl, rfl, rfl⟩

theorem Dev.backward_spec {d : Dev} {h : Half} {e c : Nat} (rev8 : Nat) (hc : c < 32) (hst : d.cst h e c = .reversing) (hpark : d.parked h e c = false)
    (hdue : d.dueOf h e c = []) (hw : (d.cx h e c).waiting = false) :
    ∃ x : Due, (d.backward h e c rev8).cst h e c = .reversing ∧ (d.backward h e c rev8).rownum h e c = (d.rownum h e c + 2 ^ 32 - 1) % 2 ^ 32 ∧
      ((d.backward h e c rev8).eng h e).due = (d.eng h e).due ++ [x] ∧ x.ctx = c ∧ x.kind = .reverse ∧
      x.row = (d.rownum h e c + 2 ^ 33 - 1 - d.leadOf h e c) % 2 ^ 32 ∧ d.regsKept [cxL h e c + 0x818, rowL h e + 0x900] (d.backward h e c rev8) := by
  obtain ⟨ang, x, hctx, hkind, hrow, heq⟩ := Dev.backward_eq rev8 hst hpark hdue
  have hwait := (d.stepBack_waiting h e c (d.rownum h e c) ang).trans hw
  have hr1 := d.stepBack_regs h e c (d.rownum h e c) ang
  have hr2 := Dev.regsOff_trans (Dev.addDue_regs hwait x) (Dev.loupeAbandon_regs _ h e)
  have hp : d.regsOff (fun k => k = cxL h e c + 0x818) (d.p (cxL h e c) ROW_ROWNUM.N (d.rownum h e c + 2 ^ 32 - 1)) := Dev.regsOff_p d _ rfl
  rw [heq]
  refine ⟨x, ?_, ?_, ?_, hctx, hkind, hrow, ?_⟩
  · rw [Dev.cst_of_regsOff hr2 (cx_ne_row h e c _ (by decide)) hc, Dev.cst_of_regs hr1, Dev.cst_of_regsOff hp (by simp) hc, hst]
  · have hback := Dev.rownum_of_regs hr1 h e c
    refine (Dev.g_of_regsOff hr2 (cx_ne_row h e c _ (by decide)) (evReg_cx h e hc (by decide))).trans (hback.trans ?_)
    exact Dev.g_p_same d _ ROW_ROWNUM.N _ (by decide)
  · rw [Dev.loupeAbandon_due, Dev.addDue_due hwait, Dev.stepBack_due]
  · refine Dev.regsKept_of_regsOff (W := fun k => k = cxL h e c + 0x818 ∨ k = rowL h e + 0x900) ?_ (fun k hk => by simpa using hk)
    exact Dev.regsOff_trans (Dev.regsOff_mono (fun _ => .inl) (Dev.regsOff_trans hp (Dev.regsOff_of_regs hr1))) (Dev.regsOff_mono (fun _ => .inr) hr2)

/-! ### The markers and the crossing as acts of the engine -/

section
variable {s : State} {h : Half} {e : Fin 8} (hs : s.awake h (rowL h e))
include hs

theorem exec_beamStateMarker (b code : Fin 4) (dir : Bool) : exec (.beamStateMarker h e b code dir) s = .next { s with dev := s.dev.stateMarker h e b code dir } := by
  unfold exec
  dsimp only
  rw [execBeamStateMarker, onBlock_live hs.1 hs.2]
theorem exec_reverseDirectionMarker (b : Fin 4) : exec (.reverseDirectionMarker h e b) s = .next { s with dev := s.dev.reverseMarker h e b } := by
  unfold exec
  dsimp only
  rw [execReverseDirectionMarker, onBlock_live hs.1 hs.2]
theorem exec_forwardDirectionMarker (b : Fin 4) : exec (.forwardDirectionMarker h e b) s = .next { s with dev := s.dev.forwardMarker h e b } := by
  unfold exec
  dsimp only
  rw [execForwardDirectionMarker, onBlock_live hs.1 hs.2]
theorem exec_reverseTrigger (c : Fin 32) (rev8 : BitVec 8) : exec (.reverseTrigger h e c rev8) s = .next { s with dev := s.dev.backward h e c rev8.toNat } := by
  unfold exec
  dsimp only
  rw [execReverseTrigger, onBlock_live hs.1 hs.2]
end

end Sys2Proof.Machine

open Sys2Proof Sys2Proof.Machine

/-- Settles O12: a marker acts on each context bound to its beam, and what it does at one leaves the state of the others. -/
theorem markersMoveAndReverseContexts : Obligations.MarkersMoveAndReverseContexts := by
  unfold Obligations.MarkersMoveAndReverseContexts
  refine ⟨fun s h e b hs => ⟨fun code dir hcode => ?state, ?reverse, ?forward⟩, fun s h e c rev8 hs hst hpark hdue hw => ?crossing⟩
  case state =>
    have hcode' : code.val ≠ 2 := fun hc => hcode (Fin.ext hc)
    exact ⟨_, exec_beamStateMarker hs b code dir, rfl, rfl, fun c hc => s.dev.stateMarker_spec h e.isLt b dir hcode' hc⟩
  case reverse =>
    refine ⟨_, exec_reverseDirectionMarker hs b, rfl, rfl, fun c hc => ?_⟩
    dsimp only
    rw [Dev.reverseMarker, Dev.onBound_reverse _ h e b hc, Dev.beamOf_of_regs (Dev.modEng_regs ..), Dev.modEng_cst, Dev.modEng_on]
  case forward =>
    refine ⟨_, exec_forwardDirectionMarker hs b, rfl, rfl, fun c hc => ?_⟩
    dsimp only
    rw [Dev.forwardMarker, Dev.onBound_forward _ h e b hc, Dev.beamOf_of_regs (Dev.modEng_regs ..), Dev.modEng_cst]
  case crossing =>
    obtain ⟨x, hspec⟩ := Dev.backward_spec rev8.toNat c.isLt hst hpark hdue hw
    exact ⟨_, x, exec_reverseTrigger hs c rev8, rfl, rfl, hspec⟩

end

section
/-! What the code of the memories and the decoder account for (R24, R25, R334–R338): everything that an access to memory changes besides memory. -/
namespace Sys2Proof.Machine

open Sys2Proof

/-! ### The accounts -/

/-- The registers of the accounts: the error counters and log index of every page, the pages of the scrubbers and the service EVC. -/
def errKey (k : Nat) : Prop :=
  k % 0x100000 = 0x024 ∨ k % 0x100000 = 0x028 ∨ k % 0x100000 = 0x02C ∨ k / 0x100000 = 0x68 ∨ k / 0x100000 = 0x1068 ∨ k / 0x100000 = 0x2034

/-- The devices without registers, events and the accounts: the units that do the machine's work. -/
def Dev.bare (d : Dev) : Dev :=
  { d.quiet with reports := [], seals := [], eccLog := [], esrcA := [], esrcB := [], prisms := [], buckets := [], ceWords := [], ueLines := [], caBad := [],
                 decBy := none, nvhs := [], outs := [] }
/-- Nothing but the accounts changed. -/
def Dev.errsOnly (d e : Dev) : Prop := e.bare = d.bare ∧ d.regsOff errKey e

section
variable {d e f : Dev}

theorem Dev.bare_of_quiet (h : e.quiet = d.quiet) : e.bare = d.bare := by
  unfold Dev.bare
  rw [h]
theorem Dev.errsOnly_refl (d : Dev) : d.errsOnly d := ⟨rfl, Dev.regsOff_refl _ d⟩
theorem Dev.errsOnly_trans (h1 : d.errsOnly e) (h2 : e.errsOnly f) : d.errsOnly f := ⟨h2.1.trans h1.1, Dev.regsOff_trans h1.2 h2.2⟩
theorem Dev.errsOnly_foldl {α : Type} {g : Dev → α → Dev} (xs : List α) (hg : ∀ (x : Dev), ∀ a ∈ xs, x.errsOnly (g x a)) (d : Dev) : d.errsOnly (xs.foldl g d) :=
  List.foldlRecOn (motive := fun x : Dev => d.errsOnly x) _ _ (Dev.errsOnly_refl d) (fun x hx a ha => Dev.errsOnly_trans hx (hg x a ha))
theorem Dev.errsOnly_of_onlyOff (h : d.onlyOff errKey e) : d.errsOnly e := ⟨Dev.bare_of_quiet h.1, h.2⟩
theorem Dev.errsOnly_of_bare (hb : e.bare = d.bare) (hr : e.regs = d.regs) : d.errsOnly e := ⟨hb, Dev.regsOff_of_regs hr⟩

/-! The units that the accounts leave alone. -/

theorem Dev.engines_of_bare (h : e.bare = d.bare) : e.engines = d.engines := (congrArg Dev.engines h : e.bare.engines = d.bare.engines)
theorem Dev.ctxs_of_bare (h : e.bare = d.bare) : e.ctxs = d.ctxs := (congrArg Dev.ctxs h : e.bare.ctxs = d.bare.ctxs)
theorem Dev.chans_of_bare (h : e.bare = d.bare) : e.chans = d.chans := (congrArg Dev.chans h : e.bare.chans = d.bare.chans)
theorem Dev.pipes_of_bare (h : e.bare = d.bare) : e.pipes = d.pipes := (congrArg Dev.pipes h : e.bare.pipes = d.bare.pipes)
theorem Dev.eng_of_bare (h : e.bare = d.bare) (k : Half) (i : Nat) : e.eng k i = d.eng k i := by unfold Dev.eng; rw [Dev.engines_of_bare h]
theorem Dev.chan_of_bare (h : e.bare = d.bare) (k : Half) (c : Nat) : e.chan k c = d.chan k c := by unfold Dev.chan; rw [Dev.chans_of_bare h]
theorem Dev.pipe_of_bare (h : e.bare = d.bare) (k : Half) (i : Nat) : e.pipe k i = d.pipe k i := by unfold Dev.pipe; rw [Dev.pipes_of_bare h]

theorem Dev.errsOnly_eccLog (d : Dev) (m : SMap Nat) : d.errsOnly { d with eccLog := m } := ⟨rfl, Dev.regsOff_of_regs rfl⟩
theorem Dev.errsOnly_buckets (d : Dev) (m : SMap Nat) : d.errsOnly { d with buckets := m } := ⟨rfl, Dev.regsOff_of_regs rfl⟩
theorem Dev.errsOnly_ceWords (d : Dev) (q : List (Nat × Nat × Nat)) : d.errsOnly { d with ceWords := q } := ⟨rfl, Dev.regsOff_of_regs rfl⟩
theorem Dev.errsOnly_caBad (d : Dev) (q : List Nat) : d.errsOnly { d with caBad := q } := ⟨rfl, Dev.regsOff_of_regs rfl⟩
theorem Dev.errsOnly_ueLines (d : Dev) (q : List Nat) : d.errsOnly { d with ueLines := q } := ⟨rfl, Dev.regsOff_of_regs rfl⟩
theorem Dev.errsOnly_ueCe (d : Dev) (q : List Nat) (p : List (Nat × Nat × Nat)) : d.errsOnly { d with ueLines := q, ceWords := p } := ⟨rfl, Dev.regsOff_of_regs rfl⟩
theorem Dev.errsOnly_prisms (d : Dev) (m : SMap Prism) : d.errsOnly { d with prisms := m } := ⟨rfl, Dev.regsOff_of_regs rfl⟩
theorem Dev.errsOnly_nvhs (d : Dev) (m : SMap Nvh) : d.errsOnly { d with nvhs := m } := ⟨rfl, Dev.regsOff_of_regs rfl⟩
theorem Dev.errsOnly_outs (d : Dev) (q : List OutWrite) : d.errsOnly { d with outs := q } := ⟨rfl, Dev.regsOff_of_regs rfl⟩
theorem Dev.errsOnly_decBy (d : Dev) (q : Option (Option Master × Nat)) : d.errsOnly { d with decBy := q } := ⟨rfl, Dev.regsOff_of_regs rfl⟩
theorem Dev.errsOnly_seals (d : Dev) (m : SMap SealUnit) : d.errsOnly { d with seals := m } := ⟨rfl, Dev.regsOff_of_regs rfl⟩
theorem Dev.errsOnly_reports (d : Dev) (q : List Report) (m : SMap SealUnit) : d.errsOnly { d with reports := q, seals := m } := ⟨rfl, Dev.regsOff_of_regs rfl⟩
theorem Dev.errsOnly_reports1 (d : Dev) (q : List Report) : d.errsOnly { d with reports := q } := ⟨rfl, Dev.regsOff_of_regs rfl⟩
theorem Dev.bare_setEsrc (d : Dev) (h : Half) (q : List Nat) : (d.setEsrc h q).bare = d.bare := by cases h <;> rfl
theorem Dev.setEsrc_regs (d : Dev) (h : Half) (q : List Nat) : (d.setEsrc h q).regs = d.regs := by cases h <;> rfl

/-! ### Reports, source entries and log entries -/

theorem Dev.errsOnly_reportP (d : Dev) (h : Half) (code obj : Nat) (l : Loc) : d.errsOnly (d.reportP h code obj l) :=
  d.errsOnly_reports _ _
theorem errKey_scb (h : Half) {o : Nat} (ho : o < 0x100000) : errKey (hLoc h .scb + o) := by
  have hA : hLoc .A .scb = 0x68 * 0x100000 := by decide
  have hB : hLoc .B .scb = 0x1068 * 0x100000 := by decide
  unfold errKey
  cases h
  · rw [hA]
    omega
  · rw [hB]
    omega
theorem errKey_page (p : Nat) {o : Nat} (ho : o = 0x024 ∨ o = 0x028 ∨ o = 0x02C) : errKey (locOf p + o) := by
  unfold errKey
  rw [locOf_add_mod p (show o < 0x100000 by omega)]
  omega
theorem Dev.errsOnly_p {l : Loc} {f : Fld} (d : Dev) (v : Nat) (h : errKey (l + f.off)) : d.errsOnly (d.p l f v) := Dev.errsOnly_of_onlyOff (Dev.onlyOff_p d v h)
theorem Dev.errsOnly_raise (d : Dev) {l : Loc} (hl : l % 0x100000 = 0) (n : Nat) : d.errsOnly (d.raise l n) := Dev.errsOnly_of_onlyOff (Dev.onlyOff_raise _ d hl n)

theorem Dev.errsOnly_sourceEntry (d : Dev) (walker : Half) (p mem kind : Nat) : d.errsOnly (d.sourceEntry walker p mem kind) := by
  unfold Dev.sourceEntry
  extract_lets by_ l
  split
  · exact Dev.errsOnly_trans (Dev.errsOnly_of_bare (Dev.bare_setEsrc ..) (Dev.setEsrc_regs ..)) (Dev.errsOnly_raise _ (hLoc_page by_ .scb 0) kind)
  · exact Dev.errsOnly_p d _ (errKey_scb by_ (by decide))
theorem Dev.errsOnly_eccEntry (d : Dev) (p entry : Nat) : d.errsOnly (d.eccEntry p entry).2 := by
  unfold Dev.eccEntry
  extract_lets l valid next
  split
  · exact Dev.errsOnly_refl d
  · refine Dev.errsOnly_trans (d.errsOnly_eccLog (SMap.set (fun _ => 0) d.eccLog (p * 8 + next) entry))
      (Dev.errsOnly_trans (Dev.errsOnly_p _ _ (errKey_page p (by decide))) (Dev.errsOnly_p _ _ (errKey_page p (by decide))))

/-! ### Corrected and uncorrectable words -/

/-- A correction counted, noted for its write-back and logged. -/
def Dev.ceNoted (d : Dev) (p mem w : Nat) : Bool × Dev :=
  ({ d.sat (locOf p) PG_ECC_CE.CE with ceWords := if d.ceWords.contains (p, mem, w) then d.ceWords else d.ceWords ++ [(p, mem, w)] } : Dev).eccEntry p (eccAddr p mem w)
/-- A page's bucket set to a level. -/
def Dev.bucketTo (d : Dev) (p level : Nat) : Dev := { d with buckets := SMap.set (fun _ => 0) d.buckets p level }
/-- The times of a correction in a privileged memory, kept for the seal unit of its half. -/
def Dev.ceSealed (d : Dev) (h : Half) (spills : Bool) : Dev :=
  { d with seals := SMap.modify (fun _ => ({} : SealUnit)) d.seals h.n (fun u =>
    { u with ceAt := d.tb h :: u.ceAt.filter (fun t => decide (d.tb h < t + 100000)), bucketAt := if spills then d.tb h + 1 else u.bucketAt }) }
/-- What a correction in a privileged memory does besides. -/
def Dev.cePriv (d : Dev) (by_ : Half) (p mem level : Nat) (spills : Bool) : Dev :=
  let d3 := if spills then (d.bucketTo p (if spills then 0 else level)).sourceEntry by_ p mem 1 else d.bucketTo p (if spills then 0 else level)
  match halfOfPage p with
  | none => d3
  | some h => d3.ceSealed h spills
theorem Dev.eccCe_eq (d : Dev) (by_ : Half) (p mem w : Nat) (priv : Bool) :
    d.eccCe by_ p mem w priv =
      if !priv then (if (d.ceNoted p mem w).1 then (d.ceNoted p mem w).2.sourceEntry by_ p mem 0 else (d.ceNoted p mem w).2)
      else
        let level := min 65535 (SMap.get (fun _ => 0) (d.ceNoted p mem w).2.buckets p + d.g (locOf p) PG_BUCKET.FILL)
        let spills := d.g (locOf p) PG_BUCKET.FILL ≠ 0 && d.g (locOf p) PG_BUCKET.THR ≤ level
        (d.ceNoted p mem w).2.cePriv by_ p mem level spills := rfl
theorem Dev.errsOnly_ceNoted (d : Dev) (p mem w : Nat) : d.errsOnly (d.ceNoted p mem w).2 :=
  Dev.errsOnly_trans (Dev.errsOnly_trans (Dev.errsOnly_p d _ (errKey_page p (by decide))) (Dev.errsOnly_ceWords _ _)) (Dev.errsOnly_eccEntry _ p _)
theorem Dev.errsOnly_cePriv (d : Dev) (by_ : Half) (p mem level : Nat) (spills : Bool) : d.errsOnly (d.cePriv by_ p mem level spills) := by
  have h2 : d.errsOnly (d.bucketTo p (if spills then 0 else level)) := Dev.errsOnly_buckets d _
  unfold Dev.cePriv
  generalize d.bucketTo p (if spills then 0 else level) = y at h2
  have h3 : d.errsOnly (if spills then y.sourceEntry by_ p mem 1 else y) := by
    split
    · exact Dev.errsOnly_trans h2 (y.errsOnly_sourceEntry by_ p mem 1)
    · exact h2
  generalize (if spills then y.sourceEntry by_ p mem 1 else y) = z at h3
  dsimp only
  split
  · exact h3
  · exact Dev.errsOnly_trans h3 (z.errsOnly_seals _)
theorem Dev.errsOnly_eccCe (d : Dev) (by_ : Half) (p mem w : Nat) (priv : Bool) : d.errsOnly (d.eccCe by_ p mem w priv) := by
  rw [Dev.eccCe_eq]
  have h1 : d.errsOnly (d.ceNoted p mem w).2 := d.errsOnly_ceNoted p mem w
  generalize d.ceNoted p mem w = n at h1
  split
  · split
    · exact Dev.errsOnly_trans h1 (n.2.errsOnly_sourceEntry by_ p mem 0)
    · exact h1
  · exact Dev.errsOnly_trans h1 (Dev.errsOnly_cePriv _ ..)
theorem Dev.errsOnly_przUe (d : Dev) (mem w : Nat) (priv : Bool) : d.errsOnly (d.przUe mem w priv) :=
  Dev.errsOnly_foldl _ (fun x _ _ => Dev.errsOnly_prisms x _) d
theorem Dev.errsOnly_eccUe (d : Dev) (by_ : Half) (p mem w : Nat) (priv : Bool) (obj : Nat) : d.errsOnly (d.eccUe by_ p mem w priv obj) := by
  unfold Dev.eccUe
  extract_lets l d0 d1
  have h0 : d.errsOnly d0 := Dev.errsOnly_trans (Dev.errsOnly_p d _ (errKey_page p (by decide)))
    (Dev.errsOnly_trans (Dev.errsOnly_eccEntry _ p _) (Dev.errsOnly_sourceEntry _ by_ p mem 2))
  have h1 : d.errsOnly d1 := by
    unfold d1
    split
    · exact Dev.errsOnly_trans h0 (d0.errsOnly_przUe mem w priv)
    · exact h0
  split
  · exact Dev.errsOnly_trans h1 (d1.errsOnly_reportP _ 0x04 obj l)
  · split
    · exact Dev.errsOnly_trans h1 (Dev.errsOnly_reports1 _ _)
    · exact h1
  · exact h1
theorem Dev.errsOnly_wordHit (d : Dev) (walker : Half) (w : Nat) : d.errsOnly (d.wordHit walker w) := d.errsOnly_eccUe ..
theorem Dev.errsOnly_readEcc (d : Dev) (walker : Half) (a n : Nat) : d.errsOnly (d.readEcc walker a n) := by
  unfold Dev.readEcc
  extract_lets hit d1 d2
  have h2 : d.errsOnly d2 := Dev.errsOnly_trans (Dev.errsOnly_foldl _ (fun x w _ => x.errsOnly_wordHit walker w) d)
    (Dev.errsOnly_foldl _ (fun x y _ => x.errsOnly_eccCe walker _ _ _ _) d1)
  split
  · exact h2
  · exact Dev.errsOnly_trans h2 (Dev.errsOnly_caBad _ _)

/-! ### Violations and writes to memory -/

theorem Dev.errsOnly_violation (d : Dev) (page off dom : Nat) (decode : Bool) : d.errsOnly (d.violation 2 page off dom decode) := by
  refine Dev.errsOnly_of_onlyOff (Dev.onlyOff_of_onlyRegs (Dev.violation_frame d 2 page off dom decode) (fun k hk => ?_))
  have hevc : rLoc 2 .evc = 0x2034 * 0x100000 := by decide
  have hlog : EVC_DVLOG.PAGE.off = 0x988 := rfl
  have hcnt : EVC_DVCNT.COUNT.off = 0x98C := rfl
  simp only [List.mem_cons, List.not_mem_nil, or_false, hevc, hlog, hcnt] at hk
  unfold errKey
  omega
theorem Dev.errsOnly_decodeErr (d : Dev) (m : Option Master) (a dom : Nat) : d.errsOnly (d.decodeErr m a dom) :=
  Dev.errsOnly_trans (d.errsOnly_violation (a / 4096) (a % 4096) dom true) (Dev.errsOnly_decBy _ _)
theorem Dev.errsOnly_fillAccess (d : Dev) (m : Mem) (h : Half) (line : Nat) (ue : Bool) : d.errsOnly (d.fillAccess m h line ue) := by
  unfold Dev.fillAccess
  extract_lets a d1
  have h1 : d.errsOnly d1 := by
    unfold d1
    split
    · exact d.errsOnly_ueLines _
    · exact Dev.errsOnly_refl d
  split
  · split
    · exact d.errsOnly_decodeErr none a (h.n + 1)
    · exact Dev.errsOnly_trans h1 (d1.errsOnly_readEcc h a 64)
  · exact Dev.errsOnly_refl d
theorem Dev.errsOnly_dirtied (d : Dev) (a n : Nat) : d.errsOnly (d.dirtied a n) := by
  unfold Dev.dirtied
  extract_lets k on
  split
  · exact Dev.errsOnly_refl d
  · exact Dev.errsOnly_nvhs d _
theorem Dev.errsOnly_storeAt (d : Dev) (walker : Half) (dom a : Nat) (bs : List Byte) : d.errsOnly (d.storeAt walker dom a bs).2 := by
  unfold Dev.storeAt
  extract_lets n covered part ops late d0 d1
  have h0 : d.errsOnly d0 := by
    unfold d0
    split
    · exact d.errsOnly_violation ..
    · exact Dev.errsOnly_refl d
  have h1 : d.errsOnly d1 := Dev.errsOnly_trans h0 (Dev.errsOnly_ueCe d0 _ _)
  split
  · exact Dev.errsOnly_refl d
  · exact Dev.errsOnly_trans h1 (Dev.errsOnly_trans (d1.errsOnly_dirtied a n) (Dev.errsOnly_foldl _ (fun x w _ => x.errsOnly_wordHit walker w) _))
theorem Dev.errsOnly_storeMem (d : Dev) (r : Referee) (walker : Half) (dom a : Nat) (bs : List Byte) : d.errsOnly (storeMem r d walker dom a bs).2 := by
  unfold storeMem
  split
  · exact Dev.errsOnly_outs d _
  · exact List.foldlRecOn (motive := fun x : List MemOp × Dev => d.errsOnly x.2) _ _ (Dev.errsOnly_refl d)
      (fun x hx t _ => Dev.errsOnly_trans hx (x.2.errsOnly_storeAt walker dom t bs))
end

/-! ### The other units, seen from the row engines -/

/-- The devices without registers, events, engines and contexts. -/
def Dev.rest (d : Dev) : Dev := { d.quiet with engines := [], ctxs := [] }
section
variable {d e : Dev}
theorem Dev.rest_of_quiet (h : e.quiet = d.quiet) : e.rest = d.rest := by
  unfold Dev.rest
  rw [h]
@[simp] theorem Dev.p_rest (d : Dev) (l : Loc) (f : Fld) (v : Nat) : (d.p l f v).rest = d.rest := Dev.rest_of_quiet (Dev.p_quiet d l f v)
@[simp] theorem Dev.raise_rest (d : Dev) (l : Loc) (n : Nat) : (d.raise l n).rest = d.rest := Dev.rest_of_quiet (Dev.raise_quiet d l n)
@[simp] theorem Dev.raiseCtx_rest (d : Dev) (l : Loc) (c n : Nat) : (d.raiseCtx l c n).rest = d.rest := Dev.rest_of_quiet (Dev.raiseCtx_quiet d l c n)
@[simp] theorem Dev.modEng_rest (d : Dev) (h : Half) (i : Nat) (f : Engine → Engine) : (d.modEng h i f).rest = d.rest := rfl
@[simp] theorem Dev.modCx_rest (d : Dev) (h : Half) (i c : Nat) (f : Ctx → Ctx) : (d.modCx h i c f).rest = d.rest := rfl
theorem Dev.rest_foldl {α : Type} {g : Dev → α → Dev} (xs : List α) (hg : ∀ (x : Dev), ∀ a ∈ xs, (g x a).rest = x.rest) (d : Dev) : (xs.foldl g d).rest = d.rest :=
  List.foldlRecOn (motive := fun x : Dev => x.rest = d.rest) _ _ rfl (fun x hx a ha => (hg x a ha).trans hx)
theorem Dev.chans_of_rest (h : e.rest = d.rest) : e.chans = d.chans := (congrArg Dev.chans h : e.rest.chans = d.rest.chans)
theorem Dev.pipes_of_rest (h : e.rest = d.rest) : e.pipes = d.pipes := (congrArg Dev.pipes h : e.rest.pipes = d.rest.pipes)
theorem Dev.scans_of_rest (h : e.rest = d.rest) (k : Half) : e.scans k = d.scans k := by
  cases k
  · exact (congrArg Dev.scansA h : e.rest.scansA = d.rest.scansA)
  · exact (congrArg Dev.scansB h : e.rest.scansB = d.rest.scansB)
end
theorem Dev.loupeAbandon_rest (d : Dev) (h : Half) (e : Nat) : (d.loupeAbandon h e).rest = d.rest := by
  unfold Dev.loupeAbandon
  split
  · rfl
  · extract_lets d1
    have h1 : d1.rest = d.rest := Dev.modEng_rest ..
    rw [Dev.p_rest, ← h1]
    split
    · exact Dev.p_rest ..
    · rfl
/-- An added render changes its engine or its context. -/
theorem Dev.addDue_rest (d : Dev) (h : Half) (e c : Nat) (x : Due) : (d.addDue h e c x).rest = d.rest := by
  unfold Dev.addDue
  split
  · exact Dev.modCx_rest ..
  · exact (Dev.loupeAbandon_rest _ h e).trans (Dev.modEng_rest ..)

/-! ### Registers that the accounts leave alone -/

/-- The pages of the engines, the harness, the queues, the seal unit and the pipes. -/
theorem not_errKey {p o : Nat} (hp : p % 4096 < 0x34) (ho : o < 0x100000) (hoff : 0x02C < o) : ¬ errKey (locOf p + o) := by
  have hmod := locOf_add_mod p ho
  have hdiv := locOf_add_div p ho
  unfold errKey
  rw [hmod, hdiv]
  omega
theorem not_errKey_cx (h : Half) {e c o : Nat} (he : e < 8) (hc : c < 255) (ho : o < 0x1000) : ¬ errKey (cxL h e c + o) := by
  have h1 := cxL_eq h e c
  have h2 := rowL_eq h he
  unfold errKey
  cases h <;> simp only [Half.n] at h2 <;> unfold Loc at * <;> omega
theorem not_errKey_row (h : Half) {e o : Nat} (he : e < 8) (ho : o < 0x100000) (hoff : 0x02C < o) : ¬ errKey (rowL h e + o) := by
  refine not_errKey ?_ ho hoff
  rw [pageOf_row h he]
  omega

end Sys2Proof.Machine
end

section
/-! Cancellation, expiry and loss of queued events (R158–R160): what a cancellation leaves in a channel, and that the queues change nothing else. -/
namespace Sys2Proof.Machine

open Sys2Proof

/-! ### Cancelling in one channel -/

@[simp] theorem Chan.cancel_q (p : QEv → Bool) (x : Chan) : (x.cancel p).q = x.q.filter (fun e => e.sent || !p e) :=
  List.filter_congr fun e _ => by simp
theorem Chan.cancel_canc (p : QEv → Bool) (x : Chan) : (x.cancel p).canc = (x.canc + (x.q.filter (fun e => !e.sent && p e)).length) % 2 ^ 32 := rfl
/-- A second cancellation finds nothing. -/
theorem Chan.cancel_cancel (p : QEv → Bool) (x : Chan) : (x.cancel p).cancel p = x.cancel p := by
  have hq : (x.cancel p).q.filter (fun e => !(!e.sent && p e)) = (x.cancel p).q := List.filter_eq_self.mpr fun e he => (List.mem_filter.mp he).2
  have hnone : (x.cancel p).q.filter (fun e => !e.sent && p e) = [] := List.filter_eq_nil_iff.mpr fun e he hp => by
    have hkept := (List.mem_filter.mp he).2
    rw [hp] at hkept
    exact Bool.noConfusion hkept
  have hmod : ((x.cancel p).canc + 0) % 2 ^ 32 = (x.cancel p).canc := by
    rw [Nat.add_zero, Chan.cancel_canc, Nat.mod_mod]
  calc (x.cancel p).cancel p
      = { x.cancel p with
          q := (x.cancel p).q.filter (fun e => !(!e.sent && p e))
          canc := ((x.cancel p).canc + ((x.cancel p).q.filter (fun e => !e.sent && p e)).length) % 2 ^ 32 } := rfl
    _ = x.cancel p := by rw [hq, hnone, List.length_nil, hmod]

/-! ### What the queues leave alone -/

/-- Nothing but the channels and the counter of late events changed. -/
def Dev.queuesOnly (h : Half) (d e : Dev) : Prop :=
  { e.quiet with chans := [] } = { d.quiet with chans := [] } ∧ d.regsOff (fun k => k = hLoc h .aeq + 0x838) e

section
variable {h : Half} {d e f : Dev}
theorem Dev.queuesOnly_refl (h : Half) (d : Dev) : Dev.queuesOnly h d d := ⟨rfl, Dev.regsOff_refl _ d⟩
theorem Dev.queuesOnly_trans (h1 : Dev.queuesOnly h d e) (h2 : Dev.queuesOnly h e f) : Dev.queuesOnly h d f := ⟨h2.1.trans h1.1, Dev.regsOff_trans h1.2 h2.2⟩
theorem Dev.queuesOnly_of_onlyOff (ho : d.onlyOff (fun k => k = hLoc h .aeq + 0x838) e) : Dev.queuesOnly h d e := ⟨by rw [ho.1], ho.2⟩
theorem Dev.queuesOnly_chans (h : Half) (d : Dev) (m : SMap Chan) : Dev.queuesOnly h d { d with chans := m } := ⟨rfl, Dev.regsOff_of_regs rfl⟩
theorem Dev.queuesOnly_foldl {α : Type} {g : Dev → α → Dev} (xs : List α) (hg : ∀ (x : Dev), ∀ a ∈ xs, Dev.queuesOnly h x (g x a)) (d : Dev) :
    Dev.queuesOnly h d (xs.foldl g d) :=
  List.foldlRecOn (motive := fun x : Dev => Dev.queuesOnly h d x) _ _ (Dev.queuesOnly_refl h d) (fun x hx a ha => Dev.queuesOnly_trans hx (hg x a ha))
theorem Dev.seals_of_queuesOnly (hq : Dev.queuesOnly h d e) : e.seals = d.seals :=
  (congrArg Dev.seals hq.1 : ({ e.quiet with chans := [] } : Dev).seals = ({ d.quiet with chans := [] } : Dev).seals)
theorem Dev.harness_of_queuesOnly (hq : Dev.queuesOnly h d e) : e.harness = d.harness :=
  (congrArg Dev.harness hq.1 : ({ e.quiet with chans := [] } : Dev).harness = ({ d.quiet with chans := [] } : Dev).harness)
theorem Dev.ports_of_queuesOnly (hq : Dev.queuesOnly h d e) : e.ports = d.ports :=
  (congrArg Dev.ports hq.1 : ({ e.quiet with chans := [] } : Dev).ports = ({ d.quiet with chans := [] } : Dev).ports)
theorem Dev.scans_of_queuesOnly (hq : Dev.queuesOnly h d e) (k : Half) : e.scans k = d.scans k := by
  cases k
  · exact (congrArg Dev.scansA hq.1 : ({ e.quiet with chans := [] } : Dev).scansA = ({ d.quiet with chans := [] } : Dev).scansA)
  · exact (congrArg Dev.scansB hq.1 : ({ e.quiet with chans := [] } : Dev).scansB = ({ d.quiet with chans := [] } : Dev).scansB)
theorem Dev.isHeld_of_seals (hs : e.seals = d.seals) (k : Half) (key : Nat) : e.isHeld k key = d.isHeld k key := by
  unfold Dev.isHeld Dev.sealU
  rw [hs]
end

/-- Looking for a late candidate counts and raises an event at most. -/
theorem Dev.candidate_onlyOff (d : Dev) (h : Half) (ch : Nat) : d.onlyOff (fun k => k = hLoc h .aeq + 0x838) (d.candidate h ch) := by
  unfold Dev.candidate
  split
  · exact Dev.onlyOff_refl _ d
  · dsimp only
    split
    · exact Dev.onlyOff_trans (Dev.onlyOff_sat d 1 rfl) (Dev.onlyOff_raise _ _ (hLoc_page h .aeq 0) 2)
    · exact Dev.onlyOff_refl _ d

/-! ### Cancelling in every channel -/

theorem Dev.cancelCh_queuesOnly (d : Dev) (h : Half) (p : QEv → Bool) (ch : Nat) : Dev.queuesOnly h d (d.cancelCh h p ch) := by
  have h1 : Dev.queuesOnly h d (d.modChan h ch (Chan.cancel p)) := Dev.queuesOnly_chans h d _
  unfold Dev.cancelCh
  dsimp only
  split
  · exact h1
  · exact Dev.queuesOnly_trans h1 (Dev.queuesOnly_of_onlyOff (Dev.candidate_onlyOff _ h ch))
theorem Dev.cancelCh_chan (d : Dev) (h : Half) (p : QEv → Bool) (ch : Nat) (k : Half) (i : Nat) :
    (d.cancelCh h p ch).chan k i = (d.modChan h ch (Chan.cancel p)).chan k i := by
  unfold Dev.cancelCh
  dsimp only
  split
  · rfl
  · exact Dev.chan_of_quiet (Dev.candidate_onlyOff _ h ch).1 k i

/-- One step of a cancellation over the keys of the channels. -/
def Dev.cancelKey (h : Half) (p : QEv → Bool) (d : Dev) (k : Nat) : Dev := if k / 65536 = h.n then d.cancelCh h p (k % 65536) else d
theorem Dev.cancelAll_eq (d : Dev) (h : Half) (p : QEv → Bool) : d.cancelAll h p = (d.chans.map (fun e => e.1)).foldl (Dev.cancelKey h p) d := rfl
theorem Dev.cancelKey_queuesOnly (d : Dev) (h : Half) (p : QEv → Bool) (k : Nat) : Dev.queuesOnly h d (Dev.cancelKey h p d k) := by
  unfold Dev.cancelKey
  split
  · exact d.cancelCh_queuesOnly h p _
  · exact Dev.queuesOnly_refl h d
theorem Dev.cancelAll_queuesOnly (d : Dev) (h : Half) (p : QEv → Bool) : Dev.queuesOnly h d (d.cancelAll h p) :=
  Dev.queuesOnly_foldl _ (fun x k _ => x.cancelKey_queuesOnly h p k) d
theorem Dev.cancelKey_chan (d : Dev) (h : Half) (p : QEv → Bool) (k : Nat) {ch : Nat} (hch : ch < 65536) :
    (Dev.cancelKey h p d k).chan h ch = if h.n * 65536 + ch = k then (d.chan h ch).cancel p else d.chan h ch := by
  unfold Dev.cancelKey
  by_cases hk : k / 65536 = h.n
  · rw [if_pos hk, Dev.cancelCh_chan]
    by_cases hc : ch = k % 65536
    · subst hc
      rw [Dev.chan_modChan_same, if_pos (by omega)]
    · rw [Dev.chan_modChan_ne _ _ _ _ _ _ (Nat.mod_lt _ (by decide)) hch (.inr hc), if_neg (by omega)]
  · rw [if_neg hk, if_neg (by omega)]
theorem Dev.cancelKeys_chan (h : Half) (p : QEv → Bool) {ch : Nat} (hch : ch < 65536) (ks : List Nat) (d : Dev) :
    (ks.foldl (Dev.cancelKey h p) d).chan h ch = if h.n * 65536 + ch ∈ ks then (d.chan h ch).cancel p else d.chan h ch := by
  induction ks generalizing d with
  | nil => rfl
  | cons k ks ih =>
    rw [List.foldl_cons, ih, d.cancelKey_chan h p k hch]
    by_cases hk : h.n * 65536 + ch = k
    · simp only [hk, if_pos, Chan.cancel_cancel, ite_self, List.mem_cons, true_or]
    · simp only [hk, if_false, List.mem_cons, false_or]
theorem SMap.get_absent {α : Type} (f : Nat → α) {m : SMap α} {k : Nat} (hk : k ∉ m.map (fun e => e.1)) : SMap.get f m k = f k := by
  induction m with
  | nil => rfl
  | cons x m ih =>
    obtain ⟨hx, hm⟩ := not_or.mp (fun hor => hk (List.mem_cons.mpr hor))
    exact (if_neg hx).trans (ih hm)
/-- A cancellation reaches every channel of its half: one that has no entry holds nothing. -/
theorem Dev.cancelAll_chan (d : Dev) (h : Half) (p : QEv → Bool) {ch : Nat} (hch : ch < 65536) : (d.cancelAll h p).chan h ch = (d.chan h ch).cancel p := by
  rw [Dev.cancelAll_eq, Dev.cancelKeys_chan h p hch]
  split
  · rfl
  · next hno =>
    have hnone : d.chan h ch = {} := SMap.get_absent _ hno
    rw [hnone]
    rfl

/-! ### The scan of a context -/

/-- The events that a cancellation of a context selects. -/
def Dev.ofCtx (d : Dev) (h : Half) (ctx : Nat) (dir : Option Bool) (e : QEv) : Bool :=
  !d.isHeld h e.inst && decide (e.ctx = ctx) && (match dir with | none => true | some v => evDir e.ev == v)
theorem Dev.cancelCtx_chan (d : Dev) (h : Half) (ctx : Nat) (dir : Option Bool) {ch : Nat} (hch : ch < 65536) :
    (d.cancelCtx h ctx dir).chan h ch = (d.chan h ch).cancel (d.ofCtx h ctx dir) := d.cancelAll_chan h _ hch
theorem Dev.cancelCtx_queuesOnly (d : Dev) (h : Half) (ctx : Nat) (dir : Option Bool) : Dev.queuesOnly h d (d.cancelCtx h ctx dir) := d.cancelAll_queuesOnly h _
@[simp] theorem Dev.setScans_seals (d : Dev) (h : Half) (q : List Scan) : (d.setScans h q).seals = d.seals := by cases h <;> rfl
@[simp] theorem Dev.scans_setScans (d : Dev) (h : Half) (q : List Scan) : (d.setScans h q).scans h = q := by cases h <;> rfl

/-- The renders that wait behind a scan. -/
theorem Dev.heldAdded_rest (d : Dev) (h : Half) (e c : Nat) (f : Ctx → Ctx) (xs : List Due) :
    (xs.foldl (fun x y => x.addDue h e c y) (d.modCx h e c f)).rest = d.rest :=
  (Dev.rest_foldl xs (fun x y _ => x.addDue_rest h e c y) _).trans (Dev.modCx_rest ..)
/-- The queues after the scan of a context; the renders that waited for it change none. -/
theorem Dev.scanDone_rest {d : Dev} {h : Half} {ctx : Nat} {x : Scan} (hx : (d.scans h).find? (fun y => y.ctx = ctx) = some x)
    (hgo : (if x.fills then (d.eng h (ctx / 32)).started (ctx % 32)
      else (d.eng h (ctx / 32)).laneOff && (d.eng h (ctx / 32)).lane.any (fun y => y.ctx = ctx % 32)) = false) :
    (d.scanDone h ctx).rest = ((d.setScans h ((d.scans h).erase x)).cancelCtx h ctx x.dir).rest := by
  unfold Dev.scanDone
  rw [hx]
  dsimp only
  rw [hgo, if_neg Bool.false_ne_true]
  split
  · exact Dev.heldAdded_rest ..
  · rfl
theorem Dev.scanDone_spec {d : Dev} {h : Half} {ctx : Nat} {x : Scan} (hx : (d.scans h).find? (fun y => y.ctx = ctx) = some x)
    (hfills : x.fills = true → (d.eng h (ctx / 32)).started (ctx % 32) = false) (hoff : x.fills = false → (d.eng h (ctx / 32)).laneOff = false) :
    (d.scanDone h ctx).scans h = (d.scans h).erase x ∧
    ∀ ch, ch < 65536 → (d.scanDone h ctx).chan h ch = (d.chan h ch).cancel (d.ofCtx h ctx x.dir) := by
  have hgo : (if x.fills then (d.eng h (ctx / 32)).started (ctx % 32)
      else (d.eng h (ctx / 32)).laneOff && (d.eng h (ctx / 32)).lane.any (fun y => y.ctx = ctx % 32)) = false := by
    cases hf : x.fills
    · rw [hoff hf]
      rfl
    · exact hfills hf
  have hrest := Dev.scanDone_rest hx hgo
  generalize hd : d.setScans h ((d.scans h).erase x) = y at hrest
  have hchans : y.chans = d.chans := by rw [← hd, Dev.setScans_chans]
  have hseals : y.seals = d.seals := by rw [← hd, Dev.setScans_seals]
  have hofctx : y.ofCtx h ctx x.dir = d.ofCtx h ctx x.dir := by
    funext ev
    unfold Dev.ofCtx
    rw [Dev.isHeld_of_seals hseals]
  constructor
  · rw [Dev.scans_of_rest hrest, Dev.scans_of_queuesOnly (y.cancelCtx_queuesOnly h ctx x.dir), ← hd, Dev.scans_setScans]
  · intro ch hch
    have hch' : (d.scanDone h ctx).chan h ch = (y.cancelCtx h ctx x.dir).chan h ch := by
      unfold Dev.chan
      rw [Dev.chans_of_rest hrest]
    rw [hch', Dev.cancelCtx_chan _ _ _ _ hch, hofctx]
    unfold Dev.chan
    rw [hchans]

/-! ### A beam that is disabled (R80) -/

/-- The contexts bound to a beam that are not IDLE. -/
def Dev.liveOn (d : Dev) (h : Half) (b k : Nat) : Bool := decide (d.cst h (k / 32) (k % 32) ≠ .idle) && decide (d.beamOf h (k / 32) (k % 32) = b)
/-- The cancellation for one context number. -/
def Dev.cancelBound (h : Half) (b : Nat) (d : Dev) (k : Nat) : Dev :=
  if d.cst h (k / 32) (k % 32) ≠ .idle ∧ d.beamOf h (k / 32) (k % 32) = b then d.cancelCtx h k none else d
/-- A port of the half in charge that replicates the beam opens a new session. -/
def Dev.reopen (r : Referee) (h : Half) (b : Nat) (d : Dev) (p : Nat) : Dev :=
  if d.rbeam h p = b ∧ d.pst h p = psUp ∧ r.leads h = true then d.modPort h p (fun x => { x with chg := some true, await := .crd }) else d
theorem Dev.beamDisabled_eq {d : Dev} (r : Referee) {h : Half} {b : Nat} (hoff : bit (d.harn h).offs b = true) (hnone : d.rendersOf h b = false) :
    d.beamDisabled r h b = (List.range 64).foldl (Dev.reopen r h b)
      ((List.range 256).foldl (Dev.cancelBound h b) (d.modHarn h (fun x => { x with offs := x.offs &&& (15 - 2 ^ b) }))) := if_pos ⟨hoff, hnone⟩
theorem Dev.beamDisabled_still {d : Dev} (r : Referee) {h : Half} {b : Nat} (hno : bit (d.harn h).offs b = false ∨ d.rendersOf h b = true) :
    d.beamDisabled r h b = d := by
  refine if_neg (fun hboth => ?_)
  rcases hno with ho | hr
  · exact Bool.noConfusion (ho.symm.trans hboth.1)
  · exact Bool.noConfusion (hr.symm.trans hboth.2)

/-- The queues leave the registers of contexts and of ports alone. -/
theorem Dev.cx_g_of_queuesOnly {h : Half} {d e : Dev} (hq : Dev.queuesOnly h d e) (i : Nat) {c : Nat} (hc : c < 32) {f : Fld} (hf : f.off < 0x1000) :
    e.g (cxL h i c) f = d.g (cxL h i c) f := by
  refine Dev.g_of_regsOff hq.2 (fun hk => ?_) (evReg_cx h i hc hf)
  have hbank := cxL_eq h i c
  have hrow := rowL_page h i
  have haeq := hLoc_page h .aeq 0
  unfold Loc at *
  omega
theorem Dev.liveOn_of_queuesOnly {h : Half} {d e : Dev} (hq : Dev.queuesOnly h d e) (b k : Nat) : e.liveOn h b k = d.liveOn h b k := by
  have hc : k % 32 < 32 := Nat.mod_lt _ (by decide)
  unfold Dev.liveOn Dev.cst Dev.beamOf
  rw [Dev.cx_g_of_queuesOnly hq _ hc (by decide), Dev.cx_g_of_queuesOnly hq _ hc (by decide)]
theorem Dev.cancelBound_queuesOnly (h : Half) (b : Nat) (d : Dev) (k : Nat) : Dev.queuesOnly h d (Dev.cancelBound h b d k) := by
  unfold Dev.cancelBound
  split
  · exact d.cancelCtx_queuesOnly h k none
  · exact Dev.queuesOnly_refl h d
theorem Dev.cancelBound_q (h : Half) (b : Nat) (d : Dev) (k : Nat) {ch : Nat} (hch : ch < 65536) :
    ((Dev.cancelBound h b d k).chan h ch).q = (d.chan h ch).q.filter (fun e => e.sent || !(!d.isHeld h e.inst && decide (e.ctx = k) && d.liveOn h b k)) := by
  have hlive : (d.cst h (k / 32) (k % 32) ≠ .idle ∧ d.beamOf h (k / 32) (k % 32) = b) ↔ d.liveOn h b k = true := by
    unfold Dev.liveOn
    rw [Bool.and_eq_true, decide_eq_true_iff, decide_eq_true_iff]
  unfold Dev.cancelBound
  by_cases hl : d.liveOn h b k = true
  · rw [if_pos (hlive.mpr hl), Dev.cancelCtx_chan _ _ _ _ hch, Chan.cancel_q, hl]
    rfl
  · rw [if_neg (fun hc => hl (hlive.mp hc)), Bool.eq_false_iff.mpr hl]
    exact (List.filter_eq_self.mpr fun e _ => by simp).symm
theorem Dev.cancelBounds_q (h : Half) (b : Nat) {ch : Nat} (hch : ch < 65536) (ks : List Nat) (d : Dev) :
    ((ks.foldl (Dev.cancelBound h b) d).chan h ch).q =
      (d.chan h ch).q.filter (fun e => e.sent || !(!d.isHeld h e.inst && decide (e.ctx ∈ ks) && d.liveOn h b e.ctx)) := by
  induction ks generalizing d with
  | nil => exact (List.filter_eq_self.mpr fun e _ => by simp).symm
  | cons k ks ih =>
    have hq := Dev.cancelBound_queuesOnly h b d k
    rw [List.foldl_cons, ih, Dev.cancelBound_q h b d k hch, List.filter_filter]
    refine List.filter_congr fun e _ => ?_
    rw [Dev.isHeld_of_seals (Dev.seals_of_queuesOnly hq), Dev.liveOn_of_queuesOnly hq]
    by_cases hk : e.ctx = k
    · subst hk
      cases e.sent <;> cases d.isHeld h e.inst <;> cases d.liveOn h b e.ctx <;> simp
    · simp [hk]
theorem Dev.reopen_regs (r : Referee) (h : Half) (b : Nat) (d : Dev) (p : Nat) : (Dev.reopen r h b d p).regs = d.regs := by
  unfold Dev.reopen
  split <;> rfl
theorem Dev.reopen_rest (r : Referee) (h : Half) (b : Nat) (d : Dev) (p : Nat) :
    (Dev.reopen r h b d p).chans = d.chans ∧ (Dev.reopen r h b d p).harness = d.harness := by
  unfold Dev.reopen
  split <;> exact ⟨rfl, rfl⟩
/-- Does a port open a new session when beam `b` is disabled? -/
def Dev.reopens (d : Dev) (r : Referee) (h : Half) (b p : Nat) : Bool := decide (d.rbeam h p = b ∧ d.pst h p = psUp ∧ r.leads h = true)
theorem Dev.reopens_of_regs {d e : Dev} (hr : e.regs = d.regs) (r : Referee) (h : Half) (b p : Nat) : e.reopens r h b p = d.reopens r h b p := by
  unfold Dev.reopens Dev.rbeam Dev.pst Dev.g Dev.rd
  rw [hr]
theorem Dev.reopen_chg (r : Referee) (h : Half) (b : Nat) (d : Dev) {p q : Nat} (hp : p < 64) (hq : q < 64) :
    ((Dev.reopen r h b d q).port h p).chg = if p = q ∧ d.reopens r h b p = true then some true else (d.port h p).chg := by
  unfold Dev.reopens Dev.reopen
  by_cases hpq : p = q
  · subst hpq
    split
    · next hc => rw [Dev.port_modPort_same, if_pos ⟨rfl, decide_eq_true hc⟩]
    · next hc => exact (if_neg (fun hn => hc (of_decide_eq_true hn.2))).symm
  · rw [if_neg (c := p = q ∧ _) (fun hn => hpq hn.1)]
    split
    · rw [Dev.port_modPort_ne _ _ _ _ _ _ hq hp (.inr hpq)]
    · rfl
theorem Dev.reopenAll_chg (r : Referee) (h : Half) (b : Nat) {p : Nat} (hp : p < 64) (qs : List Nat) (hqs : ∀ q ∈ qs, q < 64) (d : Dev) :
    ((qs.foldl (Dev.reopen r h b) d).port h p).chg = if p ∈ qs ∧ d.reopens r h b p = true then some true else (d.port h p).chg := by
  induction qs generalizing d with
  | nil => exact (if_neg (fun hn => (List.not_mem_nil hn.1))).symm
  | cons q qs ih =>
    rw [List.foldl_cons, ih (fun x hx => hqs x (List.mem_cons_of_mem q hx)), Dev.reopens_of_regs (Dev.reopen_regs r h b d q),
      Dev.reopen_chg r h b d hp (hqs q List.mem_cons_self)]
    by_cases hc : d.reopens r h b p = true
    · simp only [hc, and_true, List.mem_cons]
      by_cases hpq : p = q <;> simp [hpq]
    · simp [hc]
theorem Dev.reopenAll_rest (r : Referee) (h : Half) (b : Nat) (qs : List Nat) (d : Dev) :
    (qs.foldl (Dev.reopen r h b) d).chans = d.chans ∧ (qs.foldl (Dev.reopen r h b) d).harness = d.harness :=
  List.foldlRecOn (motive := fun x : Dev => x.chans = d.chans ∧ x.harness = d.harness) _ _ ⟨rfl, rfl⟩
    (fun x hx p _ => ⟨(Dev.reopen_rest r h b x p).1.trans hx.1, (Dev.reopen_rest r h b x p).2.trans hx.2⟩)

/-- Clearing bit `b` of the four beams' bits. -/
theorem bit_offs_cleared (x : Nat) {b : Nat} (hb : b < 4) : bit (x &&& (15 - 2 ^ b)) b = false := by
  have hmask : (15 - 2 ^ b).testBit b = false := by
    revert hb
    revert b
    decide
  have hclear : (x &&& (15 - 2 ^ b)).testBit b = false := by rw [Nat.testBit_and, hmask, Bool.and_false]
  simpa [bit, Nat.testBit_eq_decide_div_mod_eq] using hclear
theorem Dev.rlk_g_of_queuesOnly {h : Half} {d e : Dev} (hq : Dev.queuesOnly h d e) (p : Nat) {f : Fld} (hf : f.off < 0xBF0) (hne : f.off ≠ 0x838)
    (h14 : f.off ≠ 0x014) (h1C : f.off ≠ 0x01C) : e.g (hLoc h .rlk p) f = d.g (hLoc h .rlk p) f :=
  Dev.g_of_regsOff hq.2 (page_reg_ne (hLoc_page h .rlk p) (hLoc_page h .aeq 0) (by omega) (by decide) hne) (evReg_header _ hf h14 h1C)
theorem Dev.beamDisabled_spec {d : Dev} (r : Referee) {h : Half} {b : Nat} (hb : b < 4) (hoff : bit (d.harn h).offs b = true) (hnone : d.rendersOf h b = false) :
    bit ((d.beamDisabled r h b).harn h).offs b = false ∧
    (∀ ch, ch < 65536 → ((d.beamDisabled r h b).chan h ch).q =
      (d.chan h ch).q.filter (fun e => e.sent || !(!d.isHeld h e.inst && decide (e.ctx ∈ List.range 256) && d.liveOn h b e.ctx))) ∧
    (∀ p, p < 64 → ((d.beamDisabled r h b).port h p).chg = if d.rbeam h p = b ∧ d.pst h p = psUp ∧ r.leads h = true then some true else (d.port h p).chg) := by
  rw [Dev.beamDisabled_eq r hoff hnone]
  generalize hd : d.modHarn h (fun x => { x with offs := x.offs &&& (15 - 2 ^ b) }) = y
  have hregs : y.regs = d.regs := by rw [← hd, Dev.modHarn_regs]
  have hchans : y.chans = d.chans := by rw [← hd, Dev.modHarn_chans]
  have hports : y.ports = d.ports := by rw [← hd, Dev.modHarn_ports]
  have hseals : y.seals = d.seals := by rw [← hd, Dev.modHarn_seals]
  have hq : Dev.queuesOnly h y ((List.range 256).foldl (Dev.cancelBound h b) y) :=
    Dev.queuesOnly_foldl _ (fun x k _ => Dev.cancelBound_queuesOnly h b x k) y
  have hcancel := fun ch (hch : ch < 65536) => Dev.cancelBounds_q h b hch (List.range 256) y
  generalize (List.range 256).foldl (Dev.cancelBound h b) y = z at hq hcancel
  obtain ⟨hzchans, hzharn⟩ := Dev.reopenAll_rest r h b (List.range 64) z
  refine ⟨?_, fun ch hch => ?_, fun p hp => ?_⟩
  · unfold Dev.harn
    rw [hzharn, Dev.harness_of_queuesOnly hq, ← hd]
    change bit ((d.modHarn h _).harn h).offs b = false
    rw [Dev.harn_modHarn_same]
    exact bit_offs_cleared _ hb
  · have hlive (k : Nat) : y.liveOn h b k = d.liveOn h b k := by
      unfold Dev.liveOn
      rw [Dev.cst_of_regs hregs, Dev.beamOf_of_regs hregs]
    have hfinal : ((List.range 64).foldl (Dev.reopen r h b) z).chan h ch = z.chan h ch := by
      unfold Dev.chan
      rw [hzchans]
    have hsame : y.chan h ch = d.chan h ch := by
      unfold Dev.chan
      rw [hchans]
    rw [hfinal, hcancel ch hch, hsame]
    exact List.filter_congr fun e _ => by rw [Dev.isHeld_of_seals hseals, hlive]
  · have hport : z.port h p = d.port h p := by
      unfold Dev.port
      rw [Dev.ports_of_queuesOnly hq, hports]
    have hcond : z.reopens r h b p = d.reopens r h b p := by
      rw [← Dev.reopens_of_regs hregs]
      unfold Dev.reopens Dev.rbeam Dev.pst rlkL
      rw [Dev.rlk_g_of_queuesOnly hq p (by decide) (by decide) (by decide) (by decide), Dev.rlk_g_of_queuesOnly hq p (by decide) (by decide) (by decide) (by decide)]
    rw [Dev.reopenAll_chg r h b hp _ (fun q hq => List.mem_range.mp hq) z, hport, hcond]
    exact if_congr (by rw [Dev.reopens, decide_eq_true_iff]; exact and_iff_right (List.mem_range.mpr hp)) rfl rfl

/-! ### Latch, expiry, uncorrectable words (R158–R160) -/

/-- What an event leaves raised. -/
theorem Dev.raised_raise {d : Dev} {l : Loc} (hl : l % 0x100000 = 0) {n : Nat} (hr : d.raised l n) (m : Nat) : (d.raise l m).raised l n := by
  unfold Dev.raise
  split
  · exact hr
  · have hl' : (l : Nat) % 0x100000 = 0 := hl
    have hkeep (w : Word) (hw : bit w.toNat n = true) : bit (w ||| BitVec.ofNat 32 (2 ^ m)).toNat n = true := by
      have ht : w.toNat.testBit n = true := by simpa [bit, Nat.testBit_eq_decide_div_mod_eq] using hw
      have hor : (w ||| BitVec.ofNat 32 (2 ^ m)).toNat.testBit n = true := by rw [BitVec.toNat_or, Nat.testBit_or, ht, Bool.true_or]
      simpa [bit, Nat.testBit_eq_decide_div_mod_eq] using hor
    have hread (f : Dev → Dev) (o : Nat) (ho : o < 0xBF0) : (d.withLines (l / 0x100000) f).rd l o = (f d).rd l o :=
      Dev.withLines_reg d _ f _ (by unfold Loc at *; omega)
    constructor
    · rw [hread _ _ (by decide), Dev.rd_wr_ne _ _ (by unfold Loc at *; omega), Dev.rd_wr_same]
      exact hkeep _ hr.1
    · rw [hread _ _ (by decide), Dev.rd_wr_same, Dev.rd_wr_ne _ _ (by unfold Loc at *; omega)]
      exact hkeep _ hr.2
/-- A counter of a page keeps what is raised there. -/
theorem Dev.raised_p {d : Dev} {l : Loc} {n : Nat} (hr : d.raised l n) (f : Fld) (v : Nat) (h14 : f.off ≠ 0x014) (h1C : f.off ≠ 0x01C) :
    (d.p l f v).raised l n := by
  unfold Dev.raised Dev.p
  rw [Dev.rd_wr_ne _ _ (by unfold Loc at *; omega), Dev.rd_wr_ne _ _ (by unfold Loc at *; omega)]
  exact hr

theorem Dev.cntLatch_quiet (d : Dev) (h : Half) (ch : Nat) : (d.cntLatch h ch).quiet = d.quiet := by
  unfold Dev.cntLatch
  simp only [Dev.p_quiet]
theorem Dev.cntLatch_spec (d : Dev) (h : Half) (ch : Nat) :
    (d.cntLatch h ch).g (hLoc h .aeq) AEQ_CNT_IDX.CH = ch % 2 ^ 16 ∧
    (d.cntLatch h ch).g (hLoc h .aeq) AEQ_CNT_ENQ.COUNT = (d.chan h ch).enq % 2 ^ 32 ∧
    (d.cntLatch h ch).g (hLoc h .aeq) AEQ_CNT_FIRED.COUNT = (d.chan h ch).fired % 2 ^ 32 ∧
    (d.cntLatch h ch).g (hLoc h .aeq) AEQ_CNT_CANC.COUNT = (d.chan h ch).canc % 2 ^ 32 ∧
    (d.cntLatch h ch).g (hLoc h .aeq) AEQ_CNT_UNF.COUNT = (d.chan h ch).unf % 2 ^ 32 ∧
    (d.cntLatch h ch).g (hLoc h .aeq) AEQ_CNT_DROP.COUNT = (d.chan h ch).drop % 2 ^ 32 ∧
    (d.cntLatch h ch).g (hLoc h .aeq) AEQ_CHST.OCC = (d.chan h ch).occ % 16 ∧
    (d.cntLatch h ch).g (hLoc h .aeq) AEQ_CHST.SENT = (d.chan h ch).sentHeld % 16 := by
  unfold Dev.cntLatch
  generalize hLoc h .aeq = l
  refine ⟨?_, ?_, ?_, ?_, ?_, ?_, ?_, ?_⟩ <;>
    (simp (disch := decide) only [Dev.g_p_page, Dev.g_p_disj, Dev.g_p_same]; rfl)

theorem Chan.cancel_all (x : Chan) : (x.cancel (fun _ => true)).q = x.q.filter (fun y => y.sent) ∧
    (x.cancel (fun _ => true)).canc = (x.canc + x.occ) % 2 ^ 32 := by
  refine ⟨?_, ?_⟩
  · rw [Chan.cancel_q]
    exact List.filter_congr fun e _ => by simp
  · rw [Chan.cancel_canc]
    unfold Chan.occ
    simp


/-- A head that the beam has passed, cancelled alone. -/
def Chan.expire (x : Chan) : Chan :=
  { x with q := x.q.filter (fun y => y.sent) ++ (x.q.filter (fun y => !y.sent)).drop 1, canc := (x.canc + 1) % 2 ^ 32 }
/-- Is the head of a channel behind its running beam? -/
def Dev.passed (d : Dev) (h : Half) (ch : Nat) (e : QEv) : Bool :=
  d.beamRuns h (d.rbeam h (ch / 1024)) e.ev && decide (d.dist h (d.rbeam h (ch / 1024)) e.ev < 0)
theorem Dev.expire_eq {d : Dev} {h : Half} {ch : Nat} {e : QEv} (he : (d.chan h ch).head = some e) :
    d.expire h ch = if d.passed h ch e && d.on (hLoc h .aeq) AEQ_CFG.EXPIRE then
      (((d.modChan h ch Chan.expire).sat (hLoc h .aeq) AEQ_EXPIRED.COUNT).raise (hLoc h .aeq) 1).candidate h ch else d := by
  unfold Dev.expire
  rw [he]
  rfl
theorem Dev.candidate_raised {d : Dev} {h : Half} {n : Nat} (hr : d.raised (hLoc h .aeq) n) (ch : Nat) : (d.candidate h ch).raised (hLoc h .aeq) n := by
  unfold Dev.candidate
  split
  · exact hr
  · dsimp only
    split
    · exact Dev.raised_raise (hLoc_page h .aeq 0) (Dev.raised_p hr AEQ_LATE.COUNT _ (by decide) (by decide)) 2
    · exact hr
/-- What expiry counts and raises. -/
def Dev.expiryNoted (d : Dev) (h : Half) (ch : Nat) : Dev := ((d.sat (hLoc h .aeq) AEQ_EXPIRED.COUNT).raise (hLoc h .aeq) 1).candidate h ch
theorem Dev.expiryNoted_quiet (d : Dev) (h : Half) (ch : Nat) : (d.expiryNoted h ch).quiet = d.quiet := by
  unfold Dev.expiryNoted
  rw [(Dev.candidate_onlyOff _ h ch).1, Dev.raise_quiet, Dev.sat_quiet]
theorem Dev.expiryNoted_raised {d : Dev} {h : Half} (hc : d.clocked (hLoc h .aeq) = true) (ch : Nat) : (d.expiryNoted h ch).raised (hLoc h .aeq) 1 :=
  Dev.candidate_raised (Dev.raise_raised _ (hLoc_page h .aeq 0) (by decide) ((Dev.clocked_p_row d _ AEQ_EXPIRED.COUNT _ (by decide)).trans hc)) ch
theorem Dev.expire_passed {d : Dev} {h : Half} {ch : Nat} {e : QEv} (he : (d.chan h ch).head = some e) (hpast : d.passed h ch e = true)
    (hon : d.on (hLoc h .aeq) AEQ_CFG.EXPIRE = true) : d.expire h ch = (d.modChan h ch Chan.expire).expiryNoted h ch := by
  rw [Dev.expire_eq he, hpast, hon, Bool.and_self, if_pos rfl, Dev.expiryNoted]
theorem Dev.expire_spec {d : Dev} {h : Half} {ch : Nat} {e : QEv} (hch : ch < 65536) (hc : d.clocked (hLoc h .aeq) = true)
    (he : (d.chan h ch).head = some e) (hpast : d.passed h ch e = true) (hon : d.on (hLoc h .aeq) AEQ_CFG.EXPIRE = true) :
    (d.expire h ch).chan h ch = (d.chan h ch).expire ∧ (d.expire h ch).raised (hLoc h .aeq) 1 ∧
    ∀ c, c < 65536 → c ≠ ch → (d.expire h ch).chan h c = d.chan h c := by
  rw [Dev.expire_passed he hpast hon]
  have hchan (c : Nat) := Dev.chan_of_quiet (Dev.expiryNoted_quiet (d.modChan h ch Chan.expire) h ch) h c
  refine ⟨?_, Dev.expiryNoted_raised (d := d.modChan h ch Chan.expire) hc ch, fun c hcl hne => ?_⟩
  · rw [hchan, Dev.chan_modChan_same]
  · rw [hchan, Dev.chan_modChan_ne d h ch Chan.expire h c hch hcl (.inr hne)]
theorem Dev.expire_still {d : Dev} {h : Half} {ch : Nat} {e : QEv} (he : (d.chan h ch).head = some e) (hoff : d.on (hLoc h .aeq) AEQ_CFG.EXPIRE = false) :
    d.expire h ch = d := by
  rw [Dev.expire_eq he, hoff, Bool.and_false]
  rfl

/-- An uncorrectable word of a privileged memory of a half is reported by it. -/
theorem Dev.eccUe_reports (d : Dev) (by_ h : Half) {p : Nat} (hp : halfOfPage p = some h) (mem w obj : Nat) :
    ∃ r ∈ (d.eccUe by_ p mem w true obj).reports, r.half = h ∧ r.code = 0x04 := by
  unfold Dev.eccUe
  extract_lets l d0 d1
  rw [hp]
  clear_value d1
  exact ⟨_, List.mem_append_right d1.reports (List.mem_singleton_self _), rfl, rfl⟩
theorem Dev.queueUe_spec (d : Dev) (h : Half) {ch : Nat} (hch : ch < 65536) :
    ((d.queueUe h ch).chan h ch).q = (d.chan h ch).q.filter (fun y => y.sent) ∧
    ((d.queueUe h ch).chan h ch).canc = ((d.chan h ch).canc + (d.chan h ch).occ) % 2 ^ 32 ∧
    (∃ r ∈ (d.queueUe h ch).reports, r.half = h ∧ r.code = 0x04) ∧ ∀ c, c < 65536 → c ≠ ch → (d.queueUe h ch).chan h c = d.chan h c := by
  have hchan (c : Nat) : (d.queueUe h ch).chan h c = (d.modChan h ch (Chan.cancel (fun _ => true))).chan h c :=
    (Dev.chan_of_bare (Dev.errsOnly_eccUe (d.queueLost h ch) h (pageOf h.n .aeq 0) 0 (7 * ch) true ch).1 h c).trans
      (Dev.chan_of_quiet ((Dev.raise_quiet _ _ 3).trans (Dev.sat_quiet _ _ _ 1)) h c)
  have hpage : halfOfPage (pageOf h.n .aeq 0) = some h := by cases h <;> decide
  have hself : (d.queueUe h ch).chan h ch = (d.chan h ch).cancel (fun _ => true) := (hchan ch).trans (Dev.chan_modChan_same d h ch _)
  rw [hself]
  exact ⟨(Chan.cancel_all _).1, (Chan.cancel_all _).2, Dev.eccUe_reports _ h h hpage 0 (7 * ch) ch, fun c hcl hne =>
    (hchan c).trans (Dev.chan_modChan_ne d h ch _ h c hch hcl (.inr hne))⟩

/-! ### The commands as steps of the queues -/

section
variable {s : State} {h : Half} (hs : s.awake h (hLoc h .aeq))
include hs
theorem exec_cancelScanComplete (ctx : BitVec 8) : exec (.cancelScanComplete h ctx) s = .next { s with dev := s.dev.scanDone h ctx.toNat } := by
  unfold exec
  dsimp only
  rw [execCancelScanComplete, onBlock_live hs.1 hs.2]
theorem exec_beamDisabledCancel (b : Fin 4) : exec (.beamDisabledCancel h b) s = .next { s with dev := s.dev.beamDisabled s.ref h b } := by
  unfold exec
  dsimp only
  rw [execBeamDisabledCancel, onBlock_live hs.1 hs.2]
theorem exec_aeqCntLatch (hsole : s.sole h) (ch : BitVec 16) : exec (.aeqCntLatch h ch) s = .next { s with dev := (s.dev.seq (hLoc h .aeq)).cntLatch h ch.toNat } := by
  unfold exec
  dsimp only
  rw [execAeqCntLatch, forwarded_alone hsole, onWrite_live hs.1]
theorem exec_expired (ch : BitVec 16) : exec (.expired h ch) s = .next { s with dev := s.dev.expire h ch.toNat } := by
  unfold exec
  dsimp only
  rw [execExpired, onBlock_live hs.1 hs.2]
theorem exec_queueUe (ch : BitVec 16) : exec (.queueUe h ch) s = .next { s with dev := s.dev.queueUe h ch.toNat } := by
  unfold exec
  dsimp only
  rw [execQueueUe, onBlock_live hs.1 hs.2]
end

end Sys2Proof.Machine

open Sys2Proof Sys2Proof.Machine

/-- Settles O17: a cancellation filters each channel by its predicate and does nothing more a second time, so that the order in which the
channels are visited does not matter. -/
theorem queuesCancelExpireAndCount : Obligations.QueuesCancelExpireAndCount := by
  unfold Obligations.QueuesCancelExpireAndCount
  refine ⟨⟨fun s h ctx x hs hx hfills hoff => ?_, fun s h b hs => ⟨fun hoff hnone => ?_, fun hno => ?_⟩⟩,
    fun s h ch hs => ⟨fun hsole => ?_, fun e he hruns hpast => ⟨fun hon => ?_, fun hoff => ?_⟩, ?_⟩⟩
  · obtain ⟨hscans, hchan⟩ := Dev.scanDone_spec hx hfills hoff
    refine ⟨_, exec_cancelScanComplete hs ctx, rfl, rfl, hscans, fun k hk => ?_⟩
    rw [hchan k hk]
    exact ⟨Chan.cancel_q _ _, fun _ => Chan.cancel_canc _ _⟩
  · obtain ⟨hbit, hq, hports⟩ := Dev.beamDisabled_spec s.ref b.isLt hoff hnone
    refine ⟨_, exec_beamDisabledCancel hs b, rfl, rfl, hbit, fun k hk => (hq k hk).trans (List.filter_congr fun e _ => ?_), hports⟩
    simp only [Dev.liveOn, List.mem_range, Bool.and_assoc]
  · rw [exec_beamDisabledCancel hs, Dev.beamDisabled_still s.ref hno]
  · have hquiet : (s.dev.seq (hLoc h .aeq)).quiet = s.dev.quiet := (Dev.onlyRegs_seq s.dev _).1
    obtain ⟨hidx, hcounts⟩ := (s.dev.seq (hLoc h .aeq)).cntLatch_spec h ch.toNat
    rw [Dev.chan_of_quiet hquiet] at hcounts
    exact ⟨_, exec_aeqCntLatch hs hsole ch, rfl, rfl, (Dev.cntLatch_quiet _ h _).trans hquiet, hidx.trans (Nat.mod_eq_of_lt ch.isLt), hcounts⟩
  · have hpassed : s.dev.passed h ch.toNat e = true := by
      unfold Dev.passed
      rw [hruns, decide_eq_true hpast]
      rfl
    obtain ⟨hself, hraised, hothers⟩ := Dev.expire_spec ch.isLt hs.2 he hpassed hon
    exact ⟨_, exec_expired hs ch, rfl, rfl, congrArg Chan.q hself, congrArg Chan.canc hself, hraised, hothers⟩
  · rw [exec_expired hs, Dev.expire_still he hoff]
  · exact ⟨_, exec_queueUe hs ch, rfl, rfl, s.dev.queueUe_spec h ch.isLt⟩
end

section
/-! Triggers (R77, R79, R81, R82): what the row's prologue leaves to its due entry, the travel log, and faults. -/
namespace Sys2Proof.Machine

open Sys2Proof

/-! ### The prologue leaves the engines and the wait behind a cancellation alone -/

/-- The engines, and whether the context's renders wait for a cancellation, are as they were. -/
def Dev.workKept (h : Half) (e c : Nat) (d d' : Dev) : Prop := d'.engines = d.engines ∧ (d'.cx h e c).waiting = (d.cx h e c).waiting

section
variable {h : Half} {e c : Nat} {d d' d'' : Dev}
theorem Dev.workKept_refl (d : Dev) : Dev.workKept h e c d d := ⟨rfl, rfl⟩
theorem Dev.workKept_trans (h1 : Dev.workKept h e c d d') (h2 : Dev.workKept h e c d' d'') : Dev.workKept h e c d d'' := ⟨h2.1.trans h1.1, h2.2.trans h1.2⟩
theorem Dev.workKept_of_quiet (hq : d'.quiet = d.quiet) : Dev.workKept h e c d d' := ⟨Dev.engines_of_quiet hq, by rw [Dev.cx_of_quiet hq]⟩
theorem Dev.workKept_of_units (he : d'.engines = d.engines) (hc : d'.ctxs = d.ctxs) : Dev.workKept h e c d d' := ⟨he, by unfold Dev.cx; rw [hc]⟩
theorem Dev.workKept_modCx (d : Dev) {f : Ctx → Ctx} (hf : (f (d.cx h e c)).waiting = (d.cx h e c).waiting) : Dev.workKept h e c d (d.modCx h e c f) :=
  ⟨Dev.modCx_engines .., by rw [Dev.cx_modCx_same, hf]⟩
theorem Dev.workKept_foldl {α : Type} {f : Dev → α → Dev} (xs : List α) (hf : ∀ (x : Dev), ∀ a ∈ xs, Dev.workKept h e c x (f x a)) (d : Dev) :
    Dev.workKept h e c d (xs.foldl f d) :=
  List.foldlRecOn (motive := fun x : Dev => Dev.workKept h e c d x) _ _ (Dev.workKept_refl d) (fun x hx a ha => Dev.workKept_trans hx (hf x a ha))
theorem Dev.workKept_eng (hk : Dev.workKept h e c d d') (k : Half) (i : Nat) : d'.eng k i = d.eng k i := by
  unfold Dev.eng
  rw [hk.1]
end

section
variable {h : Half} {e c : Nat}
theorem Dev.swapHrn_work (d : Dev) (k : Half) : Dev.workKept h e c d (d.swapHrn k) := by
  unfold Dev.swapHrn
  refine Dev.workKept_trans (Dev.workKept_of_quiet (d.swapPage_quiet _)) (Dev.workKept_trans (d' := (d.swapPage (hLoc k .hrn)).modHarn k _)
    (Dev.workKept_of_units (Dev.modHarn_engines ..) (Dev.modHarn_ctxs ..)) (Dev.workKept_of_quiet (Dev.p_quiet ..)))
theorem Dev.swapRowGroup_work (d : Dev) (k : Half) (ps : List (Loc × Nat)) : Dev.workKept h e c d (d.swapRowGroup k ps) := by
  refine Dev.workKept_foldl ps (fun x p _ => ?_) d
  split
  · exact x.swapHrn_work k
  · exact Dev.workKept_of_quiet (x.swapPage_quiet p.1)
theorem Dev.refusePage_quiet (d : Dev) (l : Loc) (code ev : Nat) : (d.refusePage l code ev).quiet = d.quiet := by
  rw [Dev.refusePage, Dev.raise_quiet, Dev.p_quiet]
theorem Dev.setRefused_quiet (d : Dev) (h : Half) (e c code : Nat) : (d.setRefused h e c code).quiet = d.quiet := by
  rw [Dev.setRefused, Dev.raiseCtx_quiet, Dev.sat_quiet, Dev.p_quiet, Dev.p_quiet]
theorem Dev.step1Swap_work (d : Dev) : Dev.workKept h e c d (d.step1Swap h e c).2 := by
  rcases hcodes : d.setCodes h e c with _ | ⟨code, codes⟩
  · rw [Dev.step1Swap_sound hcodes]
    exact Dev.workKept_trans (Dev.workKept_foldl imageOffs (fun x o _ => Dev.workKept_of_quiet (Dev.wr_quiet ..)) d) (Dev.swapRowGroup_work _ h _)
  · rw [Dev.step1Swap_refused hcodes]
    have hrefused : Dev.workKept h e c d (d.setRefused h e c code) := Dev.workKept_of_quiet (d.setRefused_quiet h e c code)
    split
    · exact Dev.workKept_trans hrefused (Dev.workKept_foldl _ (fun x p _ => Dev.workKept_of_quiet (x.refusePage_quiet p.1 5 p.2)) _)
    · exact Dev.workKept_trans hrefused (Dev.swapRowGroup_work _ h _)
theorem Dev.step1Y_work (d : Dev) (swapped : Bool) : Dev.workKept h e c d (d.step1Y h e c swapped).2.2 := by
  rw [Dev.step1Y_eq]
  refine Dev.workKept_trans (Dev.workKept_foldl _ (fun x p _ => ?_) d) (Dev.workKept_foldl _ (fun x p _ => Dev.workKept_of_quiet (Dev.p_quiet ..)) _)
  unfold Dev.loadY
  refine Dev.workKept_trans (d' := x.pB (cxL h e c) (ROW_PYLD.LOAD.ix p) 0) (Dev.workKept_trans
    (Dev.workKept_of_quiet (Dev.p_quiet x (cxL h e c) (ROW_PYLD.LOAD.ix p) 0)) (Dev.workKept_of_units (Dev.wrS_engines ..) (Dev.wrS_ctxs ..)))
    (Dev.workKept_of_quiet (Dev.p_quiet ..))
theorem Dev.setSlot_work (d : Dev) (k : Half) (core i : Nat) (r : Option Release) : Dev.workKept h e c d (d.setSlot k core i r) :=
  Dev.workKept_of_units rfl rfl
theorem Dev.release_work (d : Dev) (r : Nat) : Dev.workKept h e c d (d.release h e c r) := by
  unfold Dev.release
  extract_lets l core first d1
  have h1 : Dev.workKept h e c d d1 := Dev.workKept_modCx d rfl
  split
  · split
    · exact Dev.workKept_trans h1 (d1.setSlot_work ..)
    · next old _ =>
      exact Dev.workKept_trans h1 (Dev.workKept_trans (d1.setSlot_work h core c (some ⟨c, r, true, old.first || first⟩))
        (Dev.workKept_of_quiet ((Dev.raiseCtx_quiet ..).trans (Dev.sat_quiet ..))))
  · exact Dev.workKept_refl d
theorem Dev.forwardDue_work (d : Dev) (r rev8 batch : Nat) : Dev.workKept h e c d (d.forwardDue h e c r rev8 batch).2 := by
  unfold Dev.forwardDue
  extract_lets l lc bind
  split
  · next late d1 sw y x d2 _ =>
    have h1 : Dev.workKept h e c d d1 := by
      unfold d1
      split
      · exact Dev.workKept_of_quiet ((Dev.raiseCtx_quiet ..).trans (Dev.sat_quiet ..))
      · exact Dev.workKept_refl d
    exact Dev.workKept_trans h1 (Dev.workKept_trans d1.step1Swap_work (Dev.workKept_trans (sw.2.step1Y_work sw.1)
      (Dev.workKept_trans (Dev.workKept_of_quiet (Dev.p_quiet y.2.2 l (ROW_REVST.PHASE.ix c) 0)) (Dev.release_work _ r))))
  · exact Dev.workKept_refl d
end

/-- A page request joins its half's list. -/
def Dev.askPage (d : Dev) (h : Half) (q : PageReq) : Dev := match h with | .A => { d with pagesA := d.pagesA ++ [q] } | .B => { d with pagesB := d.pagesB ++ [q] }
theorem Dev.askPage_units (d : Dev) (h : Half) (q : PageReq) :
    (d.askPage h q).regs = d.regs ∧ (d.askPage h q).engines = d.engines ∧ (d.askPage h q).ctxs = d.ctxs := by
  cases h <;> exact ⟨rfl, rfl, rfl⟩
theorem Dev.pageAhead_eq (d : Dev) (h : Half) (e c n rev8 angle : Nat) :
    d.pageAhead h e c n rev8 angle = d ∨ ∃ q, d.pageAhead h e c n rev8 angle = d.askPage h q := by
  unfold Dev.pageAhead
  extract_lets ahead b now rev t q
  split
  · exact .inl rfl
  · exact .inr ⟨q, rfl⟩
/-- A page-ahead request changes its list alone. -/
theorem Dev.pageAhead_units (d : Dev) (h : Half) (e c n rev8 angle : Nat) :
    (d.pageAhead h e c n rev8 angle).regs = d.regs ∧ (d.pageAhead h e c n rev8 angle).engines = d.engines ∧ (d.pageAhead h e c n rev8 angle).ctxs = d.ctxs := by
  rcases d.pageAhead_eq h e c n rev8 angle with heq | ⟨q, heq⟩
  · rw [heq]
    exact ⟨rfl, rfl, rfl⟩
  · rw [heq]
    exact d.askPage_units h q

/-! ### The travel log (R252) -/

/-- The newest entry of a pipe's log (R253). -/
def Dev.newestAt (d : Dev) (h : Half) (k : Nat) (x : Nat × Nat) : Dev :=
  { d with pipes := SMap.modify (fun _ => {}) d.pipes (h.n * 2 + k) (fun q => { q with newest := some x }) }
theorem Dev.newestAt_units (d : Dev) (h : Half) (k : Nat) (x : Nat × Nat) : (d.newestAt h k x).engines = d.engines ∧ (d.newestAt h k x).regs = d.regs := ⟨rfl, rfl⟩
/-- The entry of one pipe. -/
def Dev.travelStep (d : Dev) (r : Referee) (h : Half) (e c n : Nat) (y : List MemOp × Dev) (k : Nat) : List MemOp × Dev :=
  (y.1 ++ (storeMem r y.2 h (h.n + 1) (d.travelEntry h e c n k).1 (d.travelEntry h e c n k).2).1,
    (storeMem r y.2 h (h.n + 1) (d.travelEntry h e c n k).1 (d.travelEntry h e c n k).2).2.newestAt h k (n % 2 ^ 32, (d.cx h e c).armgen))
theorem Dev.travelLog_eq (d x : Dev) (r : Referee) (h : Half) (e c n : Nat) :
    d.travelLog x r h e c n = ((List.range 2).filter (fun k => d.travelLogs h e c k)).foldl (d.travelStep r h e c n) ([], x) := rfl
theorem Dev.travelStep_kept (d : Dev) (r : Referee) (h : Half) (e c n : Nat) (y : List MemOp × Dev) (k : Nat) :
    (d.travelStep r h e c n y k).2.engines = y.2.engines ∧ y.2.regsOff errKey (d.travelStep r h e c n y k).2 := by
  unfold Dev.travelStep
  have hstore := Dev.errsOnly_storeMem y.2 r h (h.n + 1) (d.travelEntry h e c n k).1 (d.travelEntry h e c n k).2
  generalize storeMem r y.2 h (h.n + 1) (d.travelEntry h e c n k).1 (d.travelEntry h e c n k).2 = z at hstore
  obtain ⟨hpe, hpr⟩ := z.2.newestAt_units h k (n % 2 ^ 32, (d.cx h e c).armgen)
  exact ⟨hpe.trans (Dev.engines_of_bare hstore.1), Dev.regsOff_trans hstore.2 (Dev.regsOff_of_regs hpr)⟩
/-- A travel log changes error accounts and the pipes. -/
theorem Dev.travelLog_kept (d x : Dev) (r : Referee) (h : Half) (e c n : Nat) :
    (d.travelLog x r h e c n).2.engines = x.engines ∧ x.regsOff errKey (d.travelLog x r h e c n).2 := by
  rw [Dev.travelLog_eq]
  refine List.foldlRecOn (motive := fun y : List MemOp × Dev => y.2.engines = x.engines ∧ x.regsOff errKey y.2) _ _ ⟨rfl, Dev.regsOff_refl _ x⟩
    (fun y hy k _ => ?_)
  obtain ⟨he, hr⟩ := d.travelStep_kept r h e c n y k
  exact ⟨he.trans hy.1, Dev.regsOff_trans hy.2 hr⟩
/-- Error accounts leave the state, row number and binding of a context alone. -/
theorem Dev.ctx_of_errKey {d d' : Dev} (hr : d.regsOff errKey d') (h : Half) {e c : Nat} (he : e < 8) (hc : c < 32) :
    d'.cst h e c = d.cst h e c ∧ d'.rownum h e c = d.rownum h e c :=
  ⟨Dev.cst_of_regsOff hr (not_errKey_cx h he (by omega) (by decide)) hc,
    Dev.g_of_regsOff (f := ROW_ROWNUM.N) hr (not_errKey_cx h he (by omega) (by decide)) (evReg_cx h e hc (by decide))⟩


/-! ### A trigger that finds no row outstanding (R77, R82) -/

/-- The batch of a trigger of row `n`, and the devices before its due entry is made. -/
def Dev.stepOn (d : Dev) (h : Half) (e c n ang : Nat) : Nat × Dev :=
  ((d.p (cxL h e c) ROW_ROWNUM.N n).modCx h e c (fun x => { x with ka := n % 2 ^ 32, pa := ang })).newBatch h e
theorem Dev.newBatch_regs (d : Dev) (h : Half) (e : Nat) : (d.newBatch h e).2.regs = d.regs := Dev.modEng_regs ..
theorem Dev.newBatch_due (d : Dev) (h : Half) (e : Nat) : ((d.newBatch h e).2.eng h e).due = (d.eng h e).due := by
  rw [Dev.newBatch, Dev.eng_modEng_same]
theorem Dev.newBatch_cx (d : Dev) (h : Half) (e c : Nat) : (d.newBatch h e).2.cx h e c = d.cx h e c := Dev.modEng_cx ..
theorem Dev.stepOn_regs (d : Dev) (h : Half) (e c n ang : Nat) : (d.stepOn h e c n ang).2.regs = (d.p (cxL h e c) ROW_ROWNUM.N n).regs :=
  (Dev.newBatch_regs ..).trans (Dev.modCx_regs ..)
theorem Dev.stepOn_due (d : Dev) (h : Half) (e c n ang : Nat) : ((d.stepOn h e c n ang).2.eng h e).due = (d.eng h e).due := by
  rw [Dev.stepOn, Dev.newBatch_due, Dev.modCx_eng, Dev.p_eng]
theorem Dev.stepOn_waiting (d : Dev) (h : Half) (e c n ang : Nat) : ((d.stepOn h e c n ang).2.cx h e c).waiting = (d.cx h e c).waiting := by
  rw [Dev.stepOn, Dev.newBatch_cx, Dev.cx_modCx_same, Dev.p_cx]
/-- The row added to the due list. -/
def Dev.rowDue (d : Dev) (h : Half) (e c : Nat) (x : Due) : Dev := (d.addDue h e c x).loupeAbandon h e
/-- The devices once the due entry of row `n` is made and added. -/
def Dev.rowMade (h : Half) (e c n rev8 ang lead : Nat) (y : Nat × Dev) : Dev :=
  ((y.2.forwardDue h e c ((n + lead) % 2 ^ 32) rev8 y.1).2.pageAhead h e c n rev8 ang).rowDue h e c (y.2.forwardDue h e c ((n + lead) % 2 ^ 32) rev8 y.1).1

theorem Dev.trigger_eq {d : Dev} (r : Referee) {h : Half} {e c : Nat} (n rev8 : Nat) (hpark : d.parked h e c = false) (hdue : d.dueOf h e c = []) :
    d.trigger r h e c n rev8 = d.travelLog (Dev.rowMade h e c n rev8 (d.crossAngle h e c false rev8) (d.leadOf h e c)
      (d.stepOn h e c n (rev8 % 256 * 2 ^ 32 + d.crossAngle h e c false rev8))) r h e c (n % 2 ^ 32) := by
  unfold Dev.trigger
  rw [hpark, if_neg Bool.false_ne_true, hdue, if_neg (fun hne => hne rfl)]
  rfl

/-- Making and adding a row's due entry keeps the state and row number of its context. -/
theorem Dev.rowMade_spec {y : Nat × Dev} {h : Half} {e c : Nat} (n rev8 ang lead : Nat) (hc : c < 32) (hw : (y.2.cx h e c).waiting = false) :
    Dev.ctxKept h e c y.2 (Dev.rowMade h e c n rev8 ang lead y) ∧
    ∃ x : Due, ((Dev.rowMade h e c n rev8 ang lead y).eng h e).due = (y.2.eng h e).due ++ [x] ∧ x.ctx = c ∧ x.row = (n + lead) % 2 ^ 32 := by
  unfold Dev.rowMade
  have hkept := y.2.forwardDue_kept h e hc ((n + lead) % 2 ^ 32) rev8 y.1
  have hwork : Dev.workKept h e c y.2 _ := y.2.forwardDue_work ((n + lead) % 2 ^ 32) rev8 y.1
  obtain ⟨hctx, hrow⟩ := y.2.forwardDue_entry h e c ((n + lead) % 2 ^ 32) rev8 y.1
  generalize y.2.forwardDue h e c ((n + lead) % 2 ^ 32) rev8 y.1 = x at hkept hwork hctx hrow
  obtain ⟨hpr, hpe, hpc⟩ := x.2.pageAhead_units h e c n rev8 ang
  have hwork2 : Dev.workKept h e c y.2 (x.2.pageAhead h e c n rev8 ang) := Dev.workKept_trans hwork (Dev.workKept_of_units hpe hpc)
  have hkept2 := Dev.ctxKept_trans hkept (Dev.ctxKept_of_regs (h := h) (e := e) (c := c) hpr)
  generalize x.2.pageAhead h e c n rev8 ang = z at hwork2 hkept2
  refine ⟨Dev.ctxKept_trans hkept2 (Dev.ctxKept_trans (z.addDue_kept h e hc x.1) (Dev.ctxKept_row hc (by decide) (Dev.loupeAbandon_regs _ h e))), x.1, ?_, hctx, hrow⟩
  rw [Dev.rowDue, Dev.loupeAbandon_due, Dev.addDue_due (hwork2.2.trans hw), Dev.workKept_eng hwork2]
theorem Dev.trigger_spec {d : Dev} (r : Referee) {h : Half} {e c : Nat} (n rev8 : Nat) (he : e < 8) (hc : c < 32) (hpark : d.parked h e c = false)
    (hdue : d.dueOf h e c = []) (hw : (d.cx h e c).waiting = false) :
    ∃ x : Due, (d.trigger r h e c n rev8).2.cst h e c = d.cst h e c ∧ (d.trigger r h e c n rev8).2.rownum h e c = n % 2 ^ 32 ∧
      ((d.trigger r h e c n rev8).2.eng h e).due = (d.eng h e).due ++ [x] ∧ x.ctx = c ∧ x.row = (n + d.leadOf h e c) % 2 ^ 32 := by
  rw [Dev.trigger_eq r n rev8 hpark hdue]
  generalize hang : rev8 % 256 * 2 ^ 32 + d.crossAngle h e c false rev8 = ang
  have hregs := d.stepOn_regs h e c n ang
  have hnum : (d.stepOn h e c n ang).2.rownum h e c = n % 2 ^ 32 := (Dev.rownum_of_regs hregs h e c).trans (Dev.g_p_same d _ ROW_ROWNUM.N n (by decide))
  have hst : (d.stepOn h e c n ang).2.cst h e c = d.cst h e c :=
    (Dev.cst_of_regs hregs h e c).trans (Dev.cst_of_regsOff (Dev.regsOff_p (W := fun k => k = cxL h e c + 0x818) d n rfl) (by simp) hc)
  have hlist := d.stepOn_due h e c n ang
  obtain ⟨hmade, x, hdueX, hctx, hrow⟩ := Dev.rowMade_spec n rev8 (d.crossAngle h e c false rev8) (d.leadOf h e c) hc ((d.stepOn_waiting h e c n ang).trans hw)
  generalize Dev.rowMade h e c n rev8 (d.crossAngle h e c false rev8) (d.leadOf h e c) (d.stepOn h e c n ang) = z at hmade hdueX
  obtain ⟨hlogE, hlogR⟩ := d.travelLog_kept z r h e c (n % 2 ^ 32)
  obtain ⟨hlogSt, hlogNum⟩ := Dev.ctx_of_errKey hlogR h he hc
  have hmadeNum := Dev.g_of_regsOff (f := ROW_ROWNUM.N) hmade.2 (not_stepKey_bind h e hc (.inr rfl)) (evReg_cx h e hc (by decide))
  refine ⟨x, hlogSt.trans (hmade.1.trans hst), hlogNum.trans (hmadeNum.trans hnum), ?_, hctx, hrow⟩
  unfold Dev.eng
  rw [hlogE]
  exact hdueX.trans (congrArg (· ++ [x]) hlist)

/-! ### A trigger that finds a row outstanding (R81) -/

/-- A fault before its report. -/
def Dev.faulted (d : Dev) (h : Half) (e c cause : Nat) : Dev :=
  (((((d.dueGone h e c).setCst h e c .fault).p (cxL h e c) ROW_CSTAT.FAULT_CAUSE cause).modCx h e c (fun x => { x with cmd := none })).raiseCtx (rowL h e) c 0)
theorem Dev.ctxFault_eq (d : Dev) (h : Half) (e c cause : Nat) :
    d.ctxFault h e c cause = if cause ≠ 4 ∧ d.on (cxL h e c) ROW_BIND.CRITICAL then (d.faulted h e c cause).reportP h 0x06 (32 * e + c) (rowL h e)
      else d.faulted h e c cause := rfl
/-- What holds after a fault and is no matter of its report holds if it holds before the report. -/
theorem Dev.ctxFault_view {α : Type} {h : Half} (view : Dev → α) (hv : ∀ (x : Dev) (k : Half) (code obj : Nat) (l : Loc), view (x.reportP k code obj l) = view x)
    (d : Dev) (e c cause : Nat) : view (d.ctxFault h e c cause) = view (d.faulted h e c cause) := by
  rw [Dev.ctxFault_eq]
  split
  · exact hv ..
  · rfl

theorem Dev.faulted_cst (d : Dev) (h : Half) (e : Nat) {c : Nat} (cause : Nat) (hc : c < 32) : (d.faulted h e c cause).cst h e c = .fault := by
  have hctx := Dev.regsOff_raiseCtx (W := fun k => k = rowL h e + 0x924) ((((d.dueGone h e c).setCst h e c .fault).p (cxL h e c) ROW_CSTAT.FAULT_CAUSE cause).modCx h e c
    (fun x => { x with cmd := none })) (rowL_page h e) c 0 rfl
  rw [Dev.faulted, Dev.cst_of_regsOff hctx (cx_ne_row h e c _ (by decide)) hc, Dev.modCx_cst, Dev.cst,
    Dev.g_p_disj (f := ROW_CSTAT.FAULT_CAUSE) (f' := ROW_CSTAT.STATE) _ _ _ rfl (by decide) (by decide), ← Dev.cst, Dev.cst_setCst]
theorem Dev.faulted_cause (d : Dev) (h : Half) (e : Nat) {c : Nat} (cause : Nat) (hc : c < 32) :
    (d.faulted h e c cause).g (cxL h e c) ROW_CSTAT.FAULT_CAUSE = cause % 2 ^ 4 := by
  have hctx := Dev.regsOff_raiseCtx (W := fun k => k = rowL h e + 0x924) ((((d.dueGone h e c).setCst h e c .fault).p (cxL h e c) ROW_CSTAT.FAULT_CAUSE cause).modCx h e c
    (fun x => { x with cmd := none })) (rowL_page h e) c 0 rfl
  rw [Dev.faulted, Dev.g_of_regsOff hctx (cx_ne_row h e c _ (by decide)) (evReg_cx h e hc (by decide)), Dev.modCx_g, Dev.g_p_same _ _ _ _ (by decide)]
  rfl
theorem Dev.faulted_eng (d : Dev) (h : Half) (e c cause : Nat) (k : Half) (i : Nat) : (d.faulted h e c cause).eng k i = (d.dueGone h e c).eng k i := by
  rw [Dev.faulted, Dev.eng_of_quiet (Dev.raiseCtx_quiet ..), Dev.modCx_eng, Dev.p_eng, Dev.setCst, Dev.p_eng]
theorem Dev.faulted_chans (d : Dev) (h : Half) (e c cause : Nat) : (d.faulted h e c cause).chans = d.chans := by
  rw [Dev.faulted, Dev.chans_of_quiet (Dev.raiseCtx_quiet ..), Dev.modCx_chans, Dev.p_chans, Dev.setCst, Dev.p_chans, Dev.dueGone_chans]
theorem Dev.clocked_p_cx (d : Dev) (h : Half) (e c : Nat) (f : Fld) (v : Nat) : (d.p (cxL h e c) f v).clocked (rowL h e) = d.clocked (rowL h e) := by
  have hne : rowL h e + PG_CTL.ENABLE.off ≠ cxL h e c + f.off := (cx_ne_row h e c f.off (o' := 0x00C) (by decide)).symm
  unfold Dev.clocked Dev.on
  rw [Dev.g_p_ne d v hne]
theorem Dev.clocked_modCx (d : Dev) (h : Half) (e c : Nat) (f : Ctx → Ctx) (l : Loc) : (d.modCx h e c f).clocked l = d.clocked l := Dev.modCx_on ..
theorem Dev.faulted_raised {d : Dev} {h : Half} {e : Nat} (c cause : Nat) (hc : d.clocked (rowL h e) = true) : (d.faulted h e c cause).raised (rowL h e) 0 := by
  refine Dev.raiseCtx_raised _ (rowL_page h e) c (by decide) ?_
  have hgone : (d.dueGone h e c).clocked (rowL h e) = true := by
    refine (Dev.on_of_regsOff (f := PG_CTL.ENABLE) (d.dueGone_regs h e c) ?_ (evReg_header _ (by decide) (by decide) (by decide))).trans hc
    intro hk
    have hbank := cxL_eq h e c
    change rowL h e + 0x00C = _ ∨ rowL h e + 0x00C = _ at hk
    unfold Loc at *
    omega
  rw [Dev.clocked_modCx, Dev.clocked_p_cx, Dev.setCst, Dev.clocked_p_cx, hgone]
theorem Dev.ctxFault_eng (d : Dev) (h : Half) (e c cause : Nat) : (d.ctxFault h e c cause).eng h e = (d.dueGone h e c).eng h e := by
  refine Eq.trans ?_ (d.faulted_eng h e c cause h e)
  unfold Dev.eng
  rw [Dev.ctxFault_view Dev.engines Dev.reportP_engines d e c cause]
theorem Dev.ctxFault_spec (d : Dev) (h : Half) {e c : Nat} (cause : Nat) (hc : c < 32) :
    (d.ctxFault h e c cause).cst h e c = .fault ∧ (d.ctxFault h e c cause).g (cxL h e c) ROW_CSTAT.FAULT_CAUSE = cause % 2 ^ 4 ∧
    (d.ctxFault h e c cause).dueOf h e c = [] ∧ (d.ctxFault h e c cause).parked h e c = false ∧ (d.ctxFault h e c cause).chans = d.chans := by
  have hregs : (d.ctxFault h e c cause).regs = (d.faulted h e c cause).regs := Dev.ctxFault_view Dev.regs Dev.reportP_regs d e c cause
  have heng := d.ctxFault_eng h e c cause
  refine ⟨(Dev.cst_of_regs hregs h e c).trans (d.faulted_cst h e cause hc), Eq.trans ?_ (d.faulted_cause h e cause hc),
    (Dev.dueOf_congr heng c).trans (d.dueGone_dueOf h e c), (Dev.parked_congr heng c).trans (d.dueGone_parked h e c),
    (Dev.ctxFault_view Dev.chans Dev.reportP_chans d e c cause).trans (d.faulted_chans h e c cause)⟩
  unfold Dev.g Dev.rd
  rw [hregs]
theorem Dev.raised_of_regs {d d' : Dev} (hr : d'.regs = d.regs) {l : Loc} {n : Nat} (h : d.raised l n) : d'.raised l n := by
  unfold Dev.raised Dev.rd at h ⊢
  rw [hr]
  exact h
theorem Dev.ctxFault_raised {d : Dev} {h : Half} {e : Nat} (c cause : Nat) (hc : d.clocked (rowL h e) = true) : (d.ctxFault h e c cause).raised (rowL h e) 0 :=
  Dev.raised_of_regs (Dev.ctxFault_view Dev.regs Dev.reportP_regs d e c cause) (Dev.faulted_raised c cause hc)
theorem Dev.ctxFault_reported {d : Dev} {h : Half} {e c cause : Nat} (hcause : cause ≠ 4) (hcrit : d.on (cxL h e c) ROW_BIND.CRITICAL = true) :
    ∃ r ∈ (d.ctxFault h e c cause).reports, r.half = h ∧ r.code = 0x06 := by
  rw [Dev.ctxFault_eq, if_pos ⟨hcause, hcrit⟩]
  generalize d.faulted h e c cause = y
  exact ⟨_, List.mem_append_right y.reports (List.mem_singleton_self _), rfl, rfl⟩

/-- The devices at a trigger that faults: ROW_ROWNUM is written before. -/
theorem Dev.trigger_fault {d : Dev} (r : Referee) {h : Half} {e c : Nat} (n rev8 : Nat) (hbusy : d.parked h e c = true ∨ d.dueOf h e c ≠ []) :
    ∃ f, d.trigger r h e c n rev8 = ([], ((d.p (cxL h e c) ROW_ROWNUM.N n).modCx h e c f).ctxFault h e c (if d.parked h e c then 2 else 1)) := by
  unfold Dev.trigger
  refine ⟨fun x => { x with ka := n % 2 ^ 32, pa := rev8 % 256 * 2 ^ 32 + d.crossAngle h e c false rev8 }, ?_⟩
  cases hp : d.parked h e c
  · rw [hp] at hbusy
    have hdue := hbusy.resolve_left Bool.false_ne_true
    rw [if_neg Bool.false_ne_true, if_neg Bool.false_ne_true, if_pos hdue]
  · rw [if_pos rfl, if_pos rfl]
theorem Dev.trigger_fault_spec {d : Dev} (r : Referee) {h : Half} {e c : Nat} (n rev8 : Nat) (hc : c < 32) (hclock : d.clocked (rowL h e) = true)
    (hbusy : d.parked h e c = true ∨ d.dueOf h e c ≠ []) :
    (d.trigger r h e c n rev8).1 = [] ∧ (d.trigger r h e c n rev8).2.cst h e c = .fault ∧
    (d.trigger r h e c n rev8).2.g (cxL h e c) ROW_CSTAT.FAULT_CAUSE = (if d.parked h e c then 2 else 1) ∧
    (d.trigger r h e c n rev8).2.dueOf h e c = [] ∧ (d.trigger r h e c n rev8).2.parked h e c = false ∧ (d.trigger r h e c n rev8).2.chans = d.chans ∧
    (d.trigger r h e c n rev8).2.raised (rowL h e) 0 ∧
    (d.on (cxL h e c) ROW_BIND.CRITICAL = true → ∃ x ∈ (d.trigger r h e c n rev8).2.reports, x.half = h ∧ x.code = 0x06) := by
  obtain ⟨f, heq⟩ := Dev.trigger_fault r n rev8 hbusy
  rw [heq]
  generalize hy : (d.p (cxL h e c) ROW_ROWNUM.N n).modCx h e c f = y
  have hchans : y.chans = d.chans := by rw [← hy, Dev.modCx_chans, Dev.p_chans]
  have hregs : y.regs = (d.p (cxL h e c) ROW_ROWNUM.N n).regs := by rw [← hy, Dev.modCx_regs]
  have hclock' : y.clocked (rowL h e) = true := by
    rw [← hy, Dev.clocked_modCx, Dev.clocked_p_cx, hclock]
  have hcrit : y.on (cxL h e c) ROW_BIND.CRITICAL = d.on (cxL h e c) ROW_BIND.CRITICAL := by
    rw [← hy, Dev.modCx_on]
    exact Dev.on_p_page d _ n (by decide)
  obtain ⟨hst, hcause, hdue, hpark, hch⟩ := y.ctxFault_spec h (e := e) (if d.parked h e c then 2 else 1) hc
  refine ⟨rfl, hst, hcause.trans (by split <;> rfl), hdue, hpark, hch.trans hchans, Dev.ctxFault_raised c _ hclock', fun hon => ?_⟩
  exact Dev.ctxFault_reported (by split <;> decide) (hcrit.trans hon)

/-! ### Forward crossings by the state of the context (R77, R79) -/

theorem Ctx.actsAt_none {x : Ctx} (hx : x.cmd = none) (n : Nat) : x.actsAt n = none := by
  unfold Ctx.actsAt
  rw [hx]
section
variable {d : Dev} (r : Referee) {h : Half} {e c : Nat} (rev8 : Nat)
theorem Dev.forward_armed (hst : d.cst h e c = .armed) (hsync : bit (d.eng h e).syncs (d.beamOf h e c) = true) :
    d.forward r h e c rev8 = (d.setCst h e c .running).trigger r h e c (((d.cx h e c).start + 2 ^ 32 - d.leadOf h e c) % 2 ^ 32) rev8 := by
  unfold Dev.forward
  rw [hst, hsync]
  rfl
theorem Dev.forward_running (hst : d.cst h e c = .running) (hcmd : (d.cx h e c).cmd = none) :
    d.forward r h e c rev8 = d.trigger r h e c ((d.rownum h e c + 1) % 2 ^ 32) rev8 := by
  unfold Dev.forward
  rw [hst]
  dsimp only
  rw [Ctx.actsAt_none hcmd]
theorem Dev.forward_hold (hst : d.cst h e c = .hold) (hcmd : (d.cx h e c).cmd = none) (hsync : bit (d.eng h e).syncs (d.beamOf h e c) = true)
    (hfwd : bit (d.eng h e).backs (d.beamOf h e c) = false) :
    d.forward r h e c rev8 =
      ([], (d.p (cxL h e c) ROW_HELDN.N ((d.g (cxL h e c) ROW_HELDN.N + 1) % 2 ^ 32)).sat (cxL h e c) ROW_CCNT_XING.HELD) := by
  unfold Dev.forward
  rw [hst, hsync, hfwd]
  dsimp only
  rw [Ctx.actsAt_none hcmd]
  rfl
end
/-- The held row steps on. -/
theorem Dev.heldStep_spec (d : Dev) (h : Half) (e : Nat) {c : Nat} (n : Nat) (hc : c < 32) :
    ((d.p (cxL h e c) ROW_HELDN.N n).sat (cxL h e c) ROW_CCNT_XING.HELD).cst h e c = d.cst h e c ∧
    ((d.p (cxL h e c) ROW_HELDN.N n).sat (cxL h e c) ROW_CCNT_XING.HELD).g (cxL h e c) ROW_HELDN.N = n % 2 ^ 32 ∧
    ((d.p (cxL h e c) ROW_HELDN.N n).sat (cxL h e c) ROW_CCNT_XING.HELD).rownum h e c = d.rownum h e c ∧
    ((d.p (cxL h e c) ROW_HELDN.N n).sat (cxL h e c) ROW_CCNT_XING.HELD).engines = d.engines ∧
    d.onlyRegs [cxL h e c + 0x850, cxL h e c + 0x828] ((d.p (cxL h e c) ROW_HELDN.N n).sat (cxL h e c) ROW_CCNT_XING.HELD) := by
  have hoff : d.onlyOff (fun k => k = cxL h e c + 0x850 ∨ k = cxL h e c + 0x828) ((d.p (cxL h e c) ROW_HELDN.N n).sat (cxL h e c) ROW_CCNT_XING.HELD) :=
    Dev.onlyOff_trans (Dev.onlyOff_p d n (.inl rfl)) (Dev.onlyOff_sat _ 1 (.inr rfl))
  refine ⟨Dev.cst_of_regsOff hoff.2 (by simp) hc, ?_, Dev.g_of_regsOff hoff.2 ?_ (evReg_cx h e hc (by decide)), Dev.engines_of_quiet hoff.1,
    Dev.onlyRegs_of_onlyOff hoff (fun k hk => by simpa using hk)⟩
  · rw [Dev.sat, Dev.g_p_page _ _ _ (by decide), Dev.g_p_same _ _ _ _ (by decide)]
    rfl
  · have hne : ROW_ROWNUM.N.off = 0x818 := rfl
    rw [hne]
    simp
/-- Entering RUNNING writes the state alone. -/
theorem Dev.setCst_units (d : Dev) (h : Half) (e : Nat) {c : Nat} (x : CtxState) :
    (∀ k i, (d.setCst h e c x).eng k i = d.eng k i) ∧ (∀ k i j, (d.setCst h e c x).cx k i j = d.cx k i j) ∧ (d.setCst h e c x).leadOf h e c = d.leadOf h e c :=
  ⟨Dev.eng_of_quiet (d.setCst_quiet h e c x), Dev.cx_of_quiet (d.setCst_quiet h e c x), congrArg (· + 1) (Dev.g_p_page d _ _ (by decide))⟩

/-- A forward crossing as an act of the engine. -/
theorem exec_rowTrigger {s : State} {h : Half} {e : Fin 8} (hs : s.awake h (rowL h e)) (c : Fin 32) (rev8 : BitVec 8) :
    exec (.rowTrigger h e c rev8) s = .next { s with mem := s.mem.applyAll (s.dev.forward s.ref h e c rev8.toNat).1, dev := (s.dev.forward s.ref h e c rev8.toNat).2 } := by
  have hlive : (s.ref.live h && s.dev.clocked (rowL h e)) = true := by rw [hs.1, hs.2]; rfl
  unfold exec
  dsimp only
  rw [execRowTrigger, onBlockMem, onMem_eq, if_pos hlive]

end Sys2Proof.Machine

open Sys2Proof Sys2Proof.Machine

/-- Settles O11: steps 1 and 2 of a row's prologue, the page request and the travel log leave the due lists and the row number alone, so that a
trigger adds its one entry; a fault drops the entries. -/
theorem triggersNumberRowsOrFault : Obligations.TriggersNumberRowsOrFault := by
  unfold Obligations.TriggersNumberRowsOrFault
  refine ⟨fun s h e c rev8 hs => ⟨fun hpark hdue hw n hn => ?_, fun hst hcmd hsync hfwd => ?_⟩, fun s h e c rev8 hs hst hcmd hbusy => ?_⟩
  · rcases hn with ⟨hst, hsync, rfl⟩ | ⟨hst, hcmd, rfl⟩
    · have heq := Dev.forward_armed s.ref rev8.toNat hst hsync
      obtain ⟨heng, hcx, hlead⟩ := s.dev.setCst_units h e (c := c) .running
      obtain ⟨x, hst', hnum, hlist, hctx, hrow⟩ := Dev.trigger_spec (d := s.dev.setCst h e c .running) s.ref
        (((s.dev.cx h e c).start + 2 ^ 32 - s.dev.leadOf h e c) % 2 ^ 32) rev8.toNat e.isLt c.isLt
        ((Dev.parked_congr (heng h e) c).trans hpark) ((Dev.dueOf_congr (heng h e) c).trans hdue) ((congrArg Ctx.waiting (hcx h e c)).trans hw)
      rw [← heq] at hst' hnum hlist
      exact ⟨_, x, exec_rowTrigger hs c rev8, rfl, hst'.trans (Dev.cst_setCst ..), hnum.trans (Nat.mod_mod ..), hlist.trans (by rw [heng]), hctx,
        hrow.trans (by rw [hlead])⟩
    · have heq := Dev.forward_running s.ref rev8.toNat hst hcmd
      obtain ⟨x, hst', hnum, hlist, hctx, hrow⟩ := Dev.trigger_spec (d := s.dev) s.ref ((s.dev.rownum h e c + 1) % 2 ^ 32) rev8.toNat e.isLt c.isLt hpark hdue hw
      rw [← heq] at hst' hnum hlist
      exact ⟨_, x, exec_rowTrigger hs c rev8, rfl, hst'.trans hst, hnum.trans (Nat.mod_mod ..), hlist, hctx, hrow⟩
  · have heq := Dev.forward_hold s.ref rev8.toNat hst hcmd hsync hfwd
    obtain ⟨hst', hn, hnum, heng, honly⟩ := s.dev.heldStep_spec h e ((s.dev.g (cxL h e c) ROW_HELDN.N + 1) % 2 ^ 32) c.isLt
    have hx := exec_rowTrigger hs c rev8
    rw [heq] at hx
    exact ⟨_, hx, rfl, rfl, hst'.trans hst, hn.trans (Nat.mod_mod ..), hnum, heng, honly⟩
  · have heq := Dev.forward_running s.ref rev8.toNat hst hcmd
    obtain ⟨hops, hfault, hcause, hdue, hpark, hchans, hraised, hreport⟩ :=
      Dev.trigger_fault_spec s.ref ((s.dev.rownum h e c + 1) % 2 ^ 32) rev8.toNat c.isLt hs.2 hbusy
    rw [← heq] at hops hfault hcause hdue hpark hchans hraised hreport
    exact ⟨_, exec_rowTrigger hs c rev8, rfl, congrArg s.mem.applyAll hops, hfault, hcause, hdue, hpark, hchans, hraised, hreport⟩
end

section
/-! Writes of whole words to DRAM (R25, R331), and what the render pipe leaves alone of its engine (R91). -/
namespace Sys2Proof.Machine

open Sys2Proof

/-! ### Whole words in DRAM -/

/-- The L7 range lies in frame SRAM. -/
theorem Dev.inL7_dram (d : Dev) {a : Nat} (ha : a < 2 ^ 36) : d.inL7 a = false := by
  unfold Dev.inL7
  simp only [Bool.and_eq_false_iff, decide_eq_false_iff_not]
  omega
theorem Dev.nvhs_regs (d : Dev) (m : SMap Nvh) : ({ d with nvhs := m } : Dev).regs = d.regs := rfl
theorem Dev.dirtied_regs (d : Dev) (a n : Nat) : (d.dirtied a n).regs = d.regs := by
  unfold Dev.dirtied
  extract_lets k on
  split
  · rfl
  · exact Dev.nvhs_regs d _
theorem Dev.wordsCured_regs (d : Dev) (q : List Nat) (p : List (Nat × Nat × Nat)) : ({ d with ueLines := q, ceWords := p } : Dev).regs = d.regs := rfl
/-- Whole words at DRAM that answers are stored; besides, errors there are cured. -/
theorem Dev.storeAt_whole {d : Dev} (walker : Half) (dom : Nat) {a : Nat} {bs : List Byte} (hpos : 0 < bs.length) (ha : a % 8 = 0) (hn : bs.length % 8 = 0)
    (hend : a + bs.length ≤ 2 ^ 36) (hback : ∀ i, i < bs.length → d.backed (a + i) = true) :
    (d.storeAt walker dom a bs).1 = storeBytes a bs ∧ (d.storeAt walker dom a bs).2.regs = d.regs := by
  have hfind : (List.range bs.length).find? (fun i => d.inL7 (a + i)) = none :=
    List.find?_eq_none.2 fun i hi => by simp [d.inL7_dram (show a + i < 2 ^ 36 by have := List.mem_range.1 hi; omega)]
  have hpart : d.ueLines.filter (fun w => a / 8 ≤ w && w ≤ (a + bs.length - 1) / 8 && !(a ≤ 8 * w && 8 * w + 8 ≤ a + bs.length)) = [] := by
    refine List.filter_eq_nil_iff.2 fun w _ hw => ?_
    simp only [Bool.and_eq_true, decide_eq_true_eq, Bool.not_eq_true', Bool.and_eq_false_iff, decide_eq_false_iff_not] at hw
    omega
  have hd0 : (match if dom = 4 then none else (List.range bs.length).find? (fun i => d.inL7 (a + i)) with
      | some i => d.violation 2 ((a + i) / 4096) ((a + i) % 4096) dom false
      | none => d) = d := by
    rw [hfind, ite_self]
  unfold Dev.storeAt
  extract_lets n covered part ops late d0 d1
  have hpart' : part = [] := hpart
  have hd0' : d0 = d := hd0
  rw [if_neg (show ¬ n = 0 from Nat.pos_iff_ne_zero.mp hpos)]
  refine ⟨?_, ?_⟩
  · change List.filter _ (d.put a bs) = _
    rw [Dev.put_backed d hback]
    refine List.filter_eq_self.2 fun o ho => ?_
    obtain ⟨i, b, hi, rfl⟩ := mem_storeBytes ho
    have hlt : a + i < 2 ^ 36 := by omega
    simp [hpart', Dev.writeShut, d.inL7_dram hlt, readOnly_dram hlt]
  · rw [hpart']
    exact (Dev.dirtied_regs d1 a n).trans ((Dev.wordsCured_regs d0 _ _).trans (congrArg Dev.regs hd0'))
theorem storeMem_whole {d : Dev} {r : Referee} (walker : Half) (dom : Nat) {a : Nat} {bs : List Byte} (hpos : 0 < bs.length) (ha : a % 8 = 0) (hn : bs.length % 8 = 0)
    (hend : a + bs.length ≤ 2 ^ 36) (hback : ∀ i, i < bs.length → d.backed (a + i) = true) (htargets : r.targets a = [a]) :
    (storeMem r d walker dom a bs).1 = storeBytes a bs ∧ (storeMem r d walker dom a bs).2.regs = d.regs := by
  have hout : d.outboundAt a = none := outboundAt_dram (show a < 2 ^ 36 by omega) d
  unfold storeMem
  rw [hout, htargets]
  exact Dev.storeAt_whole walker dom hpos ha hn hend hback
/-- Memory after a store: its bytes, and every other byte as it was. -/
theorem Mem.byte_stored (m : Mem) (a : Nat) (bs : List Byte) :
    (∀ i, i < bs.length → (m.applyAll (storeBytes a bs)).byte (a + i) = bs.getD i 0) ∧
    ∀ b, (b < a ∨ a + bs.length ≤ b) → (m.applyAll (storeBytes a bs)).byte b = m.byte b := by
  refine ⟨fun i hi => ?_, fun b hb => ?_⟩
  · rw [Mem.byte_storeBytes, if_pos (Nat.le_add_right a i), Nat.add_sub_cancel_left, List.getD_eq_getElem?_getD, List.getElem?_eq_getElem hi]
    rfl
  · rw [Mem.byte_storeBytes]
    split
    · next hle => rw [List.getElem?_eq_none (by omega), Option.getD_none]
    · rfl

/-- Whether memory answers depends on the memory controllers' registers alone. -/
theorem Dev.backed_of_regsOff {W : Nat → Prop} {d e : Dev} (hr : d.regsOff W e) (hw : ∀ l : Loc, l % 0x100000 = 0 → ¬ W (l + 0x800) ∧ ¬ W (l + 0x804)) (a : Nat) :
    e.backed a = d.backed a := by
  have hgeom (h : Half) (i : Nat) {f : Fld} (hf : f.off = 0x800) : e.g (hLoc h .mec i) f = d.g (hLoc h .mec i) f :=
    Dev.g_of_regsOff hr (by rw [hf]; exact (hw _ (hLoc_page h .mec i)).1) (evReg_header _ (by omega) (by omega) (by omega))
  have hfill (h : Half) : e.on (hLoc h .mec) MEC_STAT.FILLING = d.on (hLoc h .mec) MEC_STAT.FILLING :=
    Dev.on_of_regsOff (f := MEC_STAT.FILLING) hr (hw _ (hLoc_page h .mec 0)).2 (evReg_header _ (by decide) (by decide) (by decide))
  have hsize (h : Half) : e.dramSize h = d.dramSize h := by
    unfold Dev.dramSize Dev.on
    dsimp only
    rw [hgeom h 0 rfl, hgeom h 0 rfl, hgeom h 0 rfl, hgeom h 1 rfl]
  unfold Dev.backed
  rw [hsize, hsize, hfill, hfill]
theorem toBytes_getD (v : Nat) {n i : Nat} (hi : i < n) : (toBytes v n).getD i 0 = BitVec.ofNat 8 (v / 2 ^ (8 * i)) := by
  induction n generalizing v i with
  | zero => exact absurd hi (Nat.not_lt_zero i)
  | succ n ih =>
    rw [toBytes]
    cases i with
    | zero => simp
    | succ i =>
      rw [List.getD_cons_succ, ih (v / 256) (Nat.lt_of_succ_lt_succ hi), Nat.div_div_eq_div_mul, Nat.mul_succ, Nat.add_comm (8 * i) 8, Nat.pow_add]

/-! ### The render pipe and its engine -/

/-- An engine without what the render pipe works on: the caches, the lines it waits for, its steps and cells, and the pool's blocks. -/
def Engine.desk (g : Engine) : Engine :=
  { g with rrc := [], blocks := [], blocked := false, step := 0, tc := [], want := [], cells := [], mc := [], wantM := [], mcells := [] }
theorem Engine.claim_desk (g : Engine) : g.claim.desk = g.desk := by
  unfold Engine.claim
  dsimp only
  split
  · rfl
  · split
    · rfl
    · split <;> rfl
theorem Pass.step_desk (d : Dev) (m : Mem) (h : Half) (pool : Bool) (x : Due) (p : Pass) : (p.step d m h pool x).eng.desk = p.eng.desk := by
  unfold Pass.step
  dsimp only
  split
  · split
    · split
      · exact Engine.claim_desk p.eng
      · rfl
    · split <;> rfl
  · split
    · rfl
    · split <;> rfl
theorem Pass.run_desk (d : Dev) (m : Mem) (h : Half) (pool : Bool) (x : Due) (n : Nat) (p : Pass) : (p.run d m h pool x n).eng.desk = p.eng.desk := by
  induction n generalizing p with
  | zero => rfl
  | succ n ih =>
    rw [Pass.run]
    split
    · rfl
    · rw [ih, Pass.step_desk]

section
variable {g g' : Engine}
theorem Engine.due_of_desk (hd : g'.desk = g.desk) : g'.due = g.due := (congrArg Engine.due hd : g'.desk.due = g.desk.due)
theorem Engine.cur_of_desk (hd : g'.desk = g.desk) : g'.cur = g.cur := (congrArg Engine.cur hd : g'.desk.cur = g.desk.cur)
theorem Engine.kept_of_desk (hd : g'.desk = g.desk) : g'.kept = g.kept := (congrArg Engine.kept hd : g'.desk.kept = g.desk.kept)
theorem Engine.loupe_of_desk (hd : g'.desk = g.desk) : g'.loupe = g.loupe := (congrArg Engine.loupe hd : g'.desk.loupe = g.desk.loupe)
theorem Engine.loupeQ_of_desk (hd : g'.desk = g.desk) : g'.loupeQ = g.loupeQ := (congrArg Engine.loupeQ hd : g'.desk.loupeQ = g.desk.loupeQ)
end

/-- The counters of a pass (R86, R91). -/
def passKey (h : Half) (e k : Nat) : Prop :=
  k = rowL h e + 0x914 ∨ k = rowL h e + 0x918 ∨ k = rowL h e + 0x960 ∨ k = rowL h e + 0x964 ∨ ∃ c, k = cxL h e c + 0x824
/-- One counter of a pass. -/
def Dev.satSome (d : Dev) (l : Loc) (f : Fld) (n : Nat) : Dev := if n = 0 then d else d.sat l f n
theorem Dev.satSome_onlyOff {h : Half} {e : Nat} (d : Dev) {l : Loc} {f : Fld} (n : Nat) (hk : passKey h e (l + f.off)) : d.onlyOff (passKey h e) (d.satSome l f n) := by
  unfold Dev.satSome
  split
  · exact Dev.onlyOff_refl _ d
  · exact Dev.onlyOff_sat d n hk
theorem Dev.countPass_eq (d : Dev) (h : Half) (e c : Nat) (p : Pass) : d.countPass h e c p =
    (((((d.satSome (rowL h e) ROW_TC_HIT.COUNT p.hits).satSome (rowL h e) ROW_TC_MISS.COUNT p.misses).satSome (rowL h e) ROW_MC_HIT.COUNT p.mhits).satSome (rowL h e)
      ROW_MC_MISS.COUNT p.mmisses).satSome (cxL h e c) ROW_CCNT_ERR.MAP_RSV p.rsv).satSome (cxL h e c) ROW_CCNT_ERR.TILE_RANGE p.range := rfl
theorem Dev.countPass_onlyOff (d : Dev) (h : Half) (e c : Nat) (p : Pass) : d.onlyOff (passKey h e) (d.countPass h e c p) := by
  rw [Dev.countPass_eq]
  refine Dev.onlyOff_trans ?_ (Dev.satSome_onlyOff _ _ (.inr (.inr (.inr (.inr ⟨c, rfl⟩)))))
  refine Dev.onlyOff_trans ?_ (Dev.satSome_onlyOff _ _ (.inr (.inr (.inr (.inr ⟨c, rfl⟩)))))
  refine Dev.onlyOff_trans ?_ (Dev.satSome_onlyOff _ _ (.inr (.inr (.inr (.inl rfl)))))
  refine Dev.onlyOff_trans ?_ (Dev.satSome_onlyOff _ _ (.inr (.inr (.inl rfl))))
  exact Dev.onlyOff_trans (Dev.satSome_onlyOff d _ (.inl rfl)) (Dev.satSome_onlyOff _ _ (.inr (.inl rfl)))

section
variable {d : Dev} {m : Mem} {h : Half} {e : Nat}
theorem Dev.pipeOn_cur {x : Due} (hc : (d.eng h e).cur = some x) :
    d.pipeOn m h e = (d.modEng h e (fun _ => (Pass.run d m h true x ((d.eng h e).fuel x) { eng := d.eng h e }).eng)).countPass h e x.ctx
      (Pass.run d m h true x ((d.eng h e).fuel x) { eng := d.eng h e }) := by
  unfold Dev.pipeOn
  dsimp only
  rw [hc]
theorem Dev.pipeOn_lcur {x : Due} (hc : (d.eng h e).cur = none) (hl : (d.eng h e).lcur = some x) :
    d.pipeOn m h e = d.modEng h e (fun _ => (Pass.run d m h false x ((d.eng h e).fuel x) { eng := d.eng h e }).eng) := by
  unfold Dev.pipeOn
  dsimp only
  rw [hc, hl]
theorem Dev.pipeOn_still (hc : (d.eng h e).cur = none) (hl : (d.eng h e).lcur = none) : d.pipeOn m h e = d := by
  unfold Dev.pipeOn
  dsimp only
  rw [hc, hl]
/-- The pipe at work leaves the engine's lists and entries, the contexts and the other units alone. -/
theorem Dev.pipeOn_desk : ((d.pipeOn m h e).eng h e).desk = (d.eng h e).desk := by
  rcases hc : (d.eng h e).cur with _ | x
  · rcases hl : (d.eng h e).lcur with _ | x
    · rw [Dev.pipeOn_still hc hl]
    · rw [Dev.pipeOn_lcur hc hl, Dev.eng_modEng_same, Pass.run_desk]
  · rw [Dev.pipeOn_cur hc, Dev.eng_of_quiet (Dev.countPass_onlyOff ..).1, Dev.eng_modEng_same, Pass.run_desk]
theorem Dev.pipeOn_rest : (d.pipeOn m h e).rest = d.rest := by
  rcases hc : (d.eng h e).cur with _ | x
  · rcases hl : (d.eng h e).lcur with _ | x
    · rw [Dev.pipeOn_still hc hl]
    · rw [Dev.pipeOn_lcur hc hl, Dev.modEng_rest]
  · rw [Dev.pipeOn_cur hc, Dev.rest_of_quiet (Dev.countPass_onlyOff ..).1, Dev.modEng_rest]
theorem Dev.pipeOn_ctxs : (d.pipeOn m h e).ctxs = d.ctxs := by
  rcases hc : (d.eng h e).cur with _ | x
  · rcases hl : (d.eng h e).lcur with _ | x
    · rw [Dev.pipeOn_still hc hl]
    · rw [Dev.pipeOn_lcur hc hl, Dev.modEng_ctxs]
  · rw [Dev.pipeOn_cur hc, Dev.ctxs_of_quiet (Dev.countPass_onlyOff ..).1, Dev.modEng_ctxs]
theorem Dev.pipeOn_regs : d.regsOff (passKey h e) (d.pipeOn m h e) := by
  rcases hc : (d.eng h e).cur with _ | x
  · rcases hl : (d.eng h e).lcur with _ | x
    · rw [Dev.pipeOn_still hc hl]
      exact Dev.regsOff_refl _ d
    · rw [Dev.pipeOn_lcur hc hl]
      exact Dev.regsOff_of_regs (Dev.modEng_regs ..)
  · rw [Dev.pipeOn_cur hc]
    exact Dev.regsOff_trans (Dev.regsOff_of_regs (Dev.modEng_regs ..)) (Dev.countPass_onlyOff ..).2
end

end Sys2Proof.Machine
end

section
/-! Pipes (R83, R247, R252, R254–R256, R261): the close of a row, Loupe requests at the engines, records in the ring, and the windows of a pipe's tables. -/
namespace Sys2Proof.Machine

open Sys2Proof

/-! ### What the close of a row settles -/

/-- What stands raised stands when another event is raised, of this page or another. -/
theorem Dev.raised_raise_page {d : Dev} {l l' : Loc} (hl : l % 0x100000 = 0) (hl' : l' % 0x100000 = 0) {n : Nat} (hr : d.raised l n) (m : Nat) : (d.raise l' m).raised l n := by
  by_cases hne : l' = l
  · rw [hne]
    exact Dev.raised_raise hl hr m
  · unfold Dev.raise
    split
    · exact hr
    · have hread (f : Dev → Dev) (o : Nat) (ho : o < 0xBF0) : (d.withLines (l' / 0x100000) f).rd l o = (f d).rd l o :=
        Dev.withLines_reg d _ f _ (by unfold Loc at *; omega)
      constructor
      · rw [hread _ _ (by decide), Dev.rd_wr_ne _ _ (by unfold Loc at *; omega), Dev.rd_wr_ne _ _ (by unfold Loc at *; omega)]
        exact hr.1
      · rw [hread _ _ (by decide), Dev.rd_wr_ne _ _ (by unfold Loc at *; omega), Dev.rd_wr_ne _ _ (by unfold Loc at *; omega)]
        exact hr.2

/-- What the close of a row leaves for good: the row and the last closed one, ROWOPEN and the counters of what was not compared. -/
structure CloseView where
  row : Option OpenRow
  closed : Option (Nat × Nat)
  opened : Bool
  uncmp : Nat
  noexp : Nat
  norec : Nat
def Dev.closeView (d : Dev) (h : Half) (k : Nat) : CloseView :=
  ⟨(d.pipe h k).row, (d.pipe h k).closed, d.on (lpeL h k) LPE_STAT.ROWOPEN, d.g (lpeL h k) LPE_CREG.UNCMP, d.g (lpeL h k) LPE_CEXP.NOEXP, d.g (lpeL h k) LPE_CEXP.NOREC⟩
/-- The rules that follow the count leave that and event 4 of the pipe alone. -/
def Dev.viewKept (h : Half) (k : Nat) (d e : Dev) : Prop := e.closeView h k = d.closeView h k ∧ (d.raised (lpeL h k) 4 → e.raised (lpeL h k) 4)

theorem lpeL_page (h : Half) (k : Nat) : lpeL h k % 0x100000 = 0 := hLoc_page h .lpe k
section
variable {h : Half} {k : Nat} {d e f : Dev}
theorem Dev.viewKept_refl (d : Dev) : Dev.viewKept h k d d := ⟨rfl, id⟩
theorem Dev.viewKept_trans (h1 : Dev.viewKept h k d e) (h2 : Dev.viewKept h k e f) : Dev.viewKept h k d f := ⟨h2.1.trans h1.1, fun hr => h2.2 (h1.2 hr)⟩
theorem Dev.viewKept_foldl {α : Type} {g : Dev → α → Dev} (xs : List α) (hg : ∀ (x : Dev), ∀ a ∈ xs, Dev.viewKept h k x (g x a)) (d : Dev) :
    Dev.viewKept h k d (xs.foldl g d) :=
  List.foldlRecOn (motive := fun x : Dev => Dev.viewKept h k d x) _ _ (Dev.viewKept_refl d) (fun x hx a ha => Dev.viewKept_trans hx (hg x a ha))
theorem Dev.closeView_of {d e : Dev} (hp : (e.pipe h k).row = (d.pipe h k).row ∧ (e.pipe h k).closed = (d.pipe h k).closed)
    (hg : ∀ f : Fld, f = LPE_STAT.ROWOPEN ∨ f = LPE_CREG.UNCMP ∨ f = LPE_CEXP.NOEXP ∨ f = LPE_CEXP.NOREC → e.g (lpeL h k) f = d.g (lpeL h k) f) :
    e.closeView h k = d.closeView h k := by
  unfold Dev.closeView Dev.on
  rw [hp.1, hp.2, hg _ (.inl rfl), hg _ (.inr (.inl rfl)), hg _ (.inr (.inr (.inl rfl))), hg _ (.inr (.inr (.inr rfl)))]
theorem Dev.viewKept_of_units (hp : e.pipes = d.pipes) (hr : e.regs = d.regs) : Dev.viewKept h k d e := by
  refine ⟨Dev.closeView_of ?_ (fun f _ => ?_), Dev.raised_of_regs hr⟩
  · unfold Dev.pipe
    rw [hp]
    exact ⟨rfl, rfl⟩
  · unfold Dev.g Dev.rd
    rw [hr]
theorem Dev.viewKept_modPipe (d : Dev) {f : Pipe → Pipe} (hrow : (f (d.pipe h k)).row = (d.pipe h k).row) (hclosed : (f (d.pipe h k)).closed = (d.pipe h k).closed) :
    Dev.viewKept h k d (d.modPipe h k f) := by
  refine ⟨Dev.closeView_of ?_ (fun f _ => Dev.modPipe_g ..), Dev.raised_of_regs (Dev.modPipe_regs ..)⟩
  rw [Dev.pipe_modPipe_same]
  exact ⟨hrow, hclosed⟩
theorem Dev.viewKept_p (d : Dev) {f : Fld} (v : Nat) (hoff : f.off ≠ 0x800 ∧ f.off ≠ 0x838 ∧ f.off ≠ 0x840) (h14 : f.off ≠ 0x014) (h1C : f.off ≠ 0x01C) :
    Dev.viewKept h k d (d.p (lpeL h k) f v) := by
  refine ⟨Dev.closeView_of ?_ (fun q hq => Dev.g_p_page d _ v ?_), fun hr => Dev.raised_p hr f v h14 h1C⟩
  · rw [Dev.pipe_of_quiet (Dev.p_quiet ..)]
    exact ⟨rfl, rfl⟩
  · have hopen : LPE_STAT.ROWOPEN.off = 0x800 := rfl
    have hreg : LPE_CREG.UNCMP.off = 0x840 := rfl
    have hexp : LPE_CEXP.NOEXP.off = 0x838 := rfl
    have hrec : LPE_CEXP.NOREC.off = 0x838 := rfl
    rcases hq with rfl | rfl | rfl | rfl <;> omega
theorem Dev.viewKept_stopreq (d : Dev) (v : Nat) : Dev.viewKept h k d (d.p (lpeL h k) LPE_STAT.STOPREQ v) := by
  refine ⟨Dev.closeView_of ?_ (fun q hq => ?_), fun hr => Dev.raised_p hr _ v (by decide) (by decide)⟩
  · rw [Dev.pipe_of_quiet (Dev.p_quiet ..)]
    exact ⟨rfl, rfl⟩
  · rcases hq with rfl | rfl | rfl | rfl
    · exact Dev.g_p_disj d _ v rfl (by decide) (by decide)
    all_goals exact Dev.g_p_page d _ v (by decide)
theorem Dev.viewKept_raise (d : Dev) {l : Loc} (hl : l % 0x100000 = 0) (n : Nat) : Dev.viewKept h k d (d.raise l n) := by
  refine ⟨Dev.closeView_of ?_ (fun q hq => Dev.g_raise d hl n _ q ?_), fun hr => Dev.raised_raise_page (lpeL_page h k) hl hr n⟩
  · rw [Dev.pipe_of_quiet (Dev.raise_quiet ..)]
    exact ⟨rfl, rfl⟩
  · rcases hq with rfl | rfl | rfl | rfl <;> exact evReg_header _ (by decide) (by decide) (by decide)
end

/-- A stop request at the pipe, and at the referee (R264). -/
def Dev.rulesAfresh (d : Dev) (h : Half) (k : Nat) : Dev :=
  ((d.modPipe h k (fun x => { x with window := [], streaks := [] })).p (lpeL h k) LPE_STAT.STOPREQ 1).raise (lpeL h k) 3
def Dev.stopAsked (d : Dev) (h : Half) : Dev := { d with stopReqs := if d.stopReqs.contains h then d.stopReqs else d.stopReqs ++ [h] }
theorem Dev.stopReq_eq (d : Dev) (h : Half) (k : Nat) : d.stopReq h k = ((d.rulesAfresh h k).stopAsked h).raise (rLoc 3 .ref) 7 := rfl
theorem Dev.stopAsked_units (d : Dev) (h : Half) : (d.stopAsked h).pipes = d.pipes ∧ (d.stopAsked h).regs = d.regs := ⟨rfl, rfl⟩
theorem Dev.rulesAfresh_kept (d : Dev) (h : Half) (k : Nat) : Dev.viewKept h k d (d.rulesAfresh h k) ∧ ((d.rulesAfresh h k).pipe h k).recs = (d.pipe h k).recs := by
  unfold Dev.rulesAfresh
  refine ⟨Dev.viewKept_trans (Dev.viewKept_modPipe d (f := fun x => { x with window := [], streaks := [] }) rfl rfl)
    (Dev.viewKept_trans (Dev.viewKept_stopreq _ 1) (Dev.viewKept_raise _ (lpeL_page h k) 3)), ?_⟩
  rw [Dev.pipe_of_quiet (Dev.raise_quiet ..), Dev.pipe_of_quiet (Dev.p_quiet ..), Dev.pipe_modPipe_same]
theorem Dev.stopReq_kept (d : Dev) (h : Half) (k : Nat) : Dev.viewKept h k d (d.stopReq h k) ∧ ((d.stopReq h k).pipe h k).recs = (d.pipe h k).recs := by
  obtain ⟨hfresh, hrecs⟩ := d.rulesAfresh_kept h k
  rw [Dev.stopReq_eq]
  generalize d.rulesAfresh h k = y at hfresh hrecs
  obtain ⟨hp, hr⟩ := y.stopAsked_units h
  refine ⟨Dev.viewKept_trans hfresh (Dev.viewKept_trans (Dev.viewKept_of_units hp hr) (Dev.viewKept_raise _ (rLoc_page 3 .ref 0) 7)), ?_⟩
  rw [Dev.pipe_of_quiet (Dev.raise_quiet ..), ← hrecs]
  unfold Dev.pipe
  rw [hp]
theorem Dev.windowRule_kept (d : Dev) (h : Half) (k : Nat) (counting : Bool) :
    Dev.viewKept h k d (d.windowRule h k counting) ∧ ((d.windowRule h k counting).pipe h k).recs = (d.pipe h k).recs := by
  unfold Dev.windowRule
  extract_lets l w n d1
  have h1 : Dev.viewKept h k d d1 := Dev.viewKept_modPipe d rfl rfl
  have hrecs : (d1.pipe h k).recs = (d.pipe h k).recs := by
    unfold d1
    rw [Dev.pipe_modPipe_same]
  split
  · exact ⟨Dev.viewKept_trans h1 (d1.stopReq_kept h k).1, (d1.stopReq_kept h k).2.trans hrecs⟩
  · exact ⟨h1, hrecs⟩
theorem Dev.ringPut_kept (d : Dev) (h : Half) (k rec : Nat) : Dev.viewKept h k d (d.ringPut h k rec) := by
  unfold Dev.ringPut
  extract_lets l used d1
  have h1 : Dev.viewKept h k d d1 := Dev.viewKept_p d _ (by decide) (by decide) (by decide)
  split
  · exact Dev.viewKept_trans h1 (Dev.viewKept_trans (Dev.viewKept_p d1 _ (by decide) (by decide) (by decide)) (Dev.viewKept_raise _ (lpeL_page h k) 1))
  · exact Dev.viewKept_trans h1 (Dev.viewKept_modPipe d1 rfl rfl)


/-! ### The close of a row (R254, R256) -/

/-- The row closed. -/
def Dev.shut (d : Dev) (h : Half) (k : Nat) (o : OpenRow) : Dev :=
  (d.modPipe h k (fun y => { y with
    row := none, closed := some (o.row, ((d.pipe h k).newest.map (·.2)).getD 0), gone := y.gone.filter (fun r => decide (0 < rowDiff r o.row)) })).p (lpeL h k) LPE_STAT.ROWOPEN 0
/-- What is counted of a row that is not compared, or whose expected row did not come. -/
def Dev.uncompared (d : Dev) (h : Half) (k : Nat) (regok : Bool) : Dev := if regok then d else d.sat (lpeL h k) LPE_CREG.UNCMP
def Dev.unexpected (d : Dev) (h : Half) (k : Nat) (got : Option ExpRow) (gone : Bool) : Dev :=
  match got, gone with
  | some _, _ => d
  | none, true => d.sat (lpeL h k) LPE_CEXP.NOREC
  | none, false => (d.sat (lpeL h k) LPE_CEXP.NOEXP).raise (lpeL h k) 4
/-- The streaks after a close, the meeting of each record, and whether one is long enough to stop. -/
def Dev.streaksMet (d win : Dev) (h : Half) (k : Nat) (rs : List Run) : List Streak × List Bool × Bool :=
  rs.foldl (fun (t : List Streak × List Bool × Bool) r =>
    if bit (d.g (lpeL h k) LPE_STOPCLS.COUNT) r.cls then
      let m := streakMeet t.1 r
      (m.2.2, t.2.1 ++ [m.1], t.2.2 || (d.g (lpeL h k) LPE_STOPWIN.STREAKN ≠ 0 && decide (d.g (lpeL h k) LPE_STOPWIN.STREAKN ≤ m.2.1)))
    else (t.1, t.2.1 ++ [false], t.2.2)) ((win.pipe h k).streaks.map (fun s => { s with fresh := false }), [], false)
/-- The rules that a close applies to its runs (R260–R264). -/
def Dev.closeRules (d d1 : Dev) (h : Half) (k : Nat) (runs : List Run) : Dev :=
  let d2 := if d.g (lpeL h k) LPE_AGG.RECMAX < runs.length then (d1.sat (lpeL h k) LPE_CLOST.OVF).raise (lpeL h k) 6 else d1
  let d3 := if (limitRuns (d.g (lpeL h k) LPE_AGG.RECMAX) runs).any (fun r => bit (d.g (lpeL h k) LPE_STOPCLS.NOW) r.cls) then d2.stopReq h k else d2
  d3.windowRule h k ((limitRuns (d.g (lpeL h k) LPE_AGG.RECMAX) runs).any (fun r => bit (d.g (lpeL h k) LPE_STOPCLS.COUNT) r.cls))
def Dev.closeStreaks (win : Dev) (h : Half) (k : Nat) (met : List Streak × List Bool × Bool) : Dev :=
  if met.2.2 then (win.modPipe h k (fun y => { y with streaks := met.1.filter (fun s => s.fresh) })).stopReq h k
  else win.modPipe h k (fun y => { y with streaks := met.1.filter (fun s => s.fresh) })
/-- The runs of a row that is compared with the row it was expected to be. -/
def Dev.closeRuns (d : Dev) (h : Half) (k : Nat) (compare : Bool) (o : OpenRow) (got : Option ExpRow) : List Run :=
  match compare && d.on (lpeL h k) LPE_STAT.REGOK, got with
  | true, some y => joinRuns (d.g (lpeL h k) LPE_AGG.GAP) (d.defects h k o y.codes)
  | _, _ => []

theorem Dev.closeRow_eq {d : Dev} {h : Half} {k : Nat} {o : OpenRow} (compare : Bool) (ho : (d.pipe h k).row = some o) :
    ∃ recs : List Nat, ((d.closeRuns h k compare o ((d.pipe h k).exp.find? (fun y => y.row = o.row)) = []) → recs = []) ∧
      d.closeRow h k compare =
        let got := (d.pipe h k).exp.find? (fun y => y.row = o.row)
        let runs := d.closeRuns h k compare o got
        let d1 := ((d.shut h k o).uncompared h k (d.on (lpeL h k) LPE_STAT.REGOK)).unexpected h k got ((d.pipe h k).gone.contains o.row)
        let win := d.closeRules d1 h k runs
        recs.foldl (fun y r => y.ringPut h k r) (win.closeStreaks h k (d.streaksMet win h k (limitRuns (d.g (lpeL h k) LPE_AGG.RECMAX) runs))) := by
  unfold Dev.closeRow
  dsimp only
  rw [ho]
  refine ⟨_, fun hnone => ?_, rfl⟩
  change ((limitRuns (d.g (lpeL h k) LPE_AGG.RECMAX) (d.closeRuns h k compare o ((d.pipe h k).exp.find? (fun y => y.row = o.row)))).zip _).map _ = []
  rw [hnone]
  rfl

theorem Dev.closeRules_kept (d d1 : Dev) (h : Half) (k : Nat) (runs : List Run) :
    Dev.viewKept h k d1 (d.closeRules d1 h k runs) ∧ ((d.closeRules d1 h k runs).pipe h k).recs = (d1.pipe h k).recs := by
  unfold Dev.closeRules
  extract_lets d2 d3
  have h2 : Dev.viewKept h k d1 d2 ∧ (d2.pipe h k).recs = (d1.pipe h k).recs := by
    unfold d2
    split
    · refine ⟨Dev.viewKept_trans (Dev.viewKept_p d1 _ (by decide) (by decide) (by decide)) (Dev.viewKept_raise _ (lpeL_page h k) 6), ?_⟩
      rw [Dev.pipe_of_quiet (Dev.raise_quiet ..), Dev.pipe_of_quiet (Dev.sat_quiet ..)]
    · exact ⟨Dev.viewKept_refl d1, rfl⟩
  have h3 : Dev.viewKept h k d2 d3 ∧ (d3.pipe h k).recs = (d2.pipe h k).recs := by
    unfold d3
    split
    · exact d2.stopReq_kept h k
    · exact ⟨Dev.viewKept_refl d2, rfl⟩
  have hwin := d3.windowRule_kept h k ((limitRuns (d.g (lpeL h k) LPE_AGG.RECMAX) runs).any (fun r => bit (d.g (lpeL h k) LPE_STOPCLS.COUNT) r.cls))
  exact ⟨Dev.viewKept_trans h2.1 (Dev.viewKept_trans h3.1 hwin.1), hwin.2.trans (h3.2.trans h2.2)⟩
theorem Dev.closeStreaks_kept (d : Dev) (h : Half) (k : Nat) (met : List Streak × List Bool × Bool) :
    Dev.viewKept h k d (d.closeStreaks h k met) ∧ ((d.closeStreaks h k met).pipe h k).recs = (d.pipe h k).recs := by
  unfold Dev.closeStreaks
  have h1 : Dev.viewKept h k d (d.modPipe h k (fun y => { y with streaks := met.1.filter (fun s => s.fresh) })) := Dev.viewKept_modPipe d rfl rfl
  have hrecs : ((d.modPipe h k (fun y => { y with streaks := met.1.filter (fun s => s.fresh) })).pipe h k).recs = (d.pipe h k).recs := by rw [Dev.pipe_modPipe_same]
  generalize d.modPipe h k (fun y => { y with streaks := met.1.filter (fun s => s.fresh) }) = x at h1 hrecs
  split
  · exact ⟨Dev.viewKept_trans h1 (x.stopReq_kept h k).1, (x.stopReq_kept h k).2.trans hrecs⟩
  · exact ⟨h1, hrecs⟩

/-! The counts of a closed row. -/

/-- A saturating counter after one more. -/
theorem Dev.g_sat_same (d : Dev) (l : Loc) (f : Fld) (hw : f.lo + f.w ≤ 32) : (d.sat l f).g l f = min (d.g l f + 1) (2 ^ f.w - 1) := by
  have hpos : 0 < 2 ^ f.w := Nat.two_pow_pos f.w
  rw [Dev.sat, Dev.g_p_same d l f _ hw, Nat.mod_eq_of_lt (by omega)]
theorem Dev.shut_view (d : Dev) (h : Half) (k : Nat) (o : OpenRow) :
    (d.shut h k o).closeView h k = { d.closeView h k with row := none, closed := some (o.row, ((d.pipe h k).newest.map (·.2)).getD 0), opened := false } ∧
    ((d.shut h k o).pipe h k).recs = (d.pipe h k).recs := by
  unfold Dev.shut Dev.closeView Dev.on
  rw [Dev.pipe_of_quiet (Dev.p_quiet ..), Dev.pipe_modPipe_same, Dev.g_p_same _ _ _ _ (by decide), Dev.g_p_page _ _ _ (by decide), Dev.g_p_page _ _ _ (by decide),
    Dev.g_p_page _ _ _ (by decide)]
  exact ⟨rfl, rfl⟩
theorem Dev.uncompared_view (d : Dev) (h : Half) (k : Nat) (regok : Bool) :
    (d.uncompared h k regok).closeView h k =
      { d.closeView h k with uncmp := if regok then d.g (lpeL h k) LPE_CREG.UNCMP else min (d.g (lpeL h k) LPE_CREG.UNCMP + 1) (2 ^ LPE_CREG.UNCMP.w - 1) } ∧
    ((d.uncompared h k regok).pipe h k).recs = (d.pipe h k).recs := by
  cases regok
  · unfold Dev.uncompared
    rw [if_neg Bool.false_ne_true, if_neg Bool.false_ne_true]
    unfold Dev.closeView Dev.on
    rw [Dev.pipe_of_quiet (Dev.sat_quiet ..), Dev.g_sat_same _ _ _ (by decide), Dev.sat, Dev.g_p_page _ _ _ (by decide), Dev.g_p_page _ _ _ (by decide),
      Dev.g_p_page _ _ _ (by decide)]
    exact ⟨rfl, rfl⟩
  · exact ⟨rfl, rfl⟩
theorem Dev.unexpected_view (d : Dev) (h : Half) (k : Nat) (gone : Bool) :
    (d.unexpected h k none gone).closeView h k =
      (if gone then { d.closeView h k with norec := min (d.g (lpeL h k) LPE_CEXP.NOREC + 1) (2 ^ LPE_CEXP.NOREC.w - 1) }
        else { d.closeView h k with noexp := min (d.g (lpeL h k) LPE_CEXP.NOEXP + 1) (2 ^ LPE_CEXP.NOEXP.w - 1) }) ∧
    ((d.unexpected h k none gone).pipe h k).recs = (d.pipe h k).recs := by
  cases gone
  · unfold Dev.unexpected
    dsimp only
    have hview : ((d.sat (lpeL h k) LPE_CEXP.NOEXP).raise (lpeL h k) 4).closeView h k = (d.sat (lpeL h k) LPE_CEXP.NOEXP).closeView h k :=
      (Dev.viewKept_raise _ (lpeL_page h k) 4).1
    rw [hview, if_neg Bool.false_ne_true, Dev.pipe_of_quiet (Dev.raise_quiet ..), Dev.pipe_of_quiet (Dev.sat_quiet ..)]
    unfold Dev.closeView Dev.on
    rw [Dev.pipe_of_quiet (Dev.sat_quiet ..), Dev.g_sat_same _ _ _ (by decide), Dev.sat, Dev.g_p_page _ _ _ (by decide), Dev.g_p_page _ _ _ (by decide),
      Dev.g_p_disj (f := LPE_CEXP.NOEXP) (f' := LPE_CEXP.NOREC) d _ _ rfl (by decide) (by decide)]
    exact ⟨rfl, rfl⟩
  · unfold Dev.unexpected Dev.closeView Dev.on
    dsimp only
    rw [if_pos rfl, Dev.pipe_of_quiet (Dev.sat_quiet ..), Dev.g_sat_same _ _ _ (by decide), Dev.sat, Dev.g_p_page _ _ _ (by decide), Dev.g_p_page _ _ _ (by decide),
      Dev.g_p_disj (f := LPE_CEXP.NOREC) (f' := LPE_CEXP.NOEXP) d _ _ rfl (by decide) (by decide)]
    exact ⟨rfl, rfl⟩
theorem Dev.unexpected_always (d : Dev) (h : Half) (k : Nat) (got : Option ExpRow) (gone : Bool) :
    ((d.unexpected h k got gone).closeView h k).row = (d.closeView h k).row ∧ ((d.unexpected h k got gone).closeView h k).closed = (d.closeView h k).closed ∧
    ((d.unexpected h k got gone).closeView h k).opened = (d.closeView h k).opened ∧ ((d.unexpected h k got gone).closeView h k).uncmp = (d.closeView h k).uncmp := by
  cases got with
  | some y => exact ⟨rfl, rfl, rfl, rfl⟩
  | none =>
    rw [(d.unexpected_view h k gone).1]
    cases gone <;> exact ⟨rfl, rfl, rfl, rfl⟩
theorem Dev.unexpected_raised {d : Dev} {h : Half} {k : Nat} (hc : d.clocked (lpeL h k) = true) : (d.unexpected h k none false).raised (lpeL h k) 4 :=
  Dev.raise_raised _ (lpeL_page h k) (by decide) ((Dev.clocked_p_row d _ LPE_CEXP.NOEXP _ (by decide)).trans hc)
theorem Dev.shut_clocked (d : Dev) (h : Half) (k : Nat) (o : OpenRow) : (d.shut h k o).clocked (lpeL h k) = d.clocked (lpeL h k) := by
  unfold Dev.shut
  rw [Dev.clocked_p_row _ _ _ _ (by decide)]
  exact Dev.modPipe_on ..
theorem Dev.uncompared_clocked (d : Dev) (h : Half) (k : Nat) (regok : Bool) : (d.uncompared h k regok).clocked (lpeL h k) = d.clocked (lpeL h k) := by
  unfold Dev.uncompared
  split
  · rfl
  · exact Dev.clocked_p_row d _ _ _ (by decide)

/-- The rules after the count, and the records they form. -/
theorem Dev.closeRow_kept {d : Dev} {h : Half} {k : Nat} {o : OpenRow} (compare : Bool) (ho : (d.pipe h k).row = some o) :
    Dev.viewKept h k (((d.shut h k o).uncompared h k (d.on (lpeL h k) LPE_STAT.REGOK)).unexpected h k ((d.pipe h k).exp.find? (fun y => y.row = o.row))
      ((d.pipe h k).gone.contains o.row)) (d.closeRow h k compare) ∧
    ((d.pipe h k).exp.find? (fun y => y.row = o.row) = none → ((d.closeRow h k compare).pipe h k).recs =
      ((((d.shut h k o).uncompared h k (d.on (lpeL h k) LPE_STAT.REGOK)).unexpected h k none ((d.pipe h k).gone.contains o.row)).pipe h k).recs) := by
  obtain ⟨recs, hrecs, heq⟩ := Dev.closeRow_eq compare ho
  rw [heq]
  dsimp only
  generalize (d.pipe h k).exp.find? (fun y => y.row = o.row) = got at hrecs
  generalize hd1 : ((d.shut h k o).uncompared h k (d.on (lpeL h k) LPE_STAT.REGOK)).unexpected h k got ((d.pipe h k).gone.contains o.row) = d1
  obtain ⟨hrules, hrulesRecs⟩ := d.closeRules_kept d1 h k (d.closeRuns h k compare o got)
  generalize d.closeRules d1 h k (d.closeRuns h k compare o got) = win at hrules hrulesRecs
  obtain ⟨hstreaks, hstreaksRecs⟩ := win.closeStreaks_kept h k (d.streaksMet win h k (limitRuns (d.g (lpeL h k) LPE_AGG.RECMAX) (d.closeRuns h k compare o got)))
  generalize win.closeStreaks h k _ = y at hstreaks hstreaksRecs
  refine ⟨Dev.viewKept_trans hrules (Dev.viewKept_trans hstreaks (Dev.viewKept_foldl recs (fun x r _ => x.ringPut_kept h k r) y)), fun hgot => ?_⟩
  subst hgot
  have hnone : d.closeRuns h k compare o none = [] := by
    unfold Dev.closeRuns
    split
    · next hsome => exact absurd hsome (by simp)
    · rfl
  rw [hrecs hnone, List.foldl_nil, hstreaksRecs, hrulesRecs, hd1]

theorem Dev.closeRow_spec {d : Dev} {h : Half} {k : Nat} {o : OpenRow} (compare : Bool) (hc : d.clocked (lpeL h k) = true) (ho : (d.pipe h k).row = some o) :
    ((d.closeRow h k compare).pipe h k).row = none ∧ (d.closeRow h k compare).on (lpeL h k) LPE_STAT.ROWOPEN = false ∧
    (∃ g, ((d.closeRow h k compare).pipe h k).closed = some (o.row, g)) ∧
    (d.on (lpeL h k) LPE_STAT.REGOK = false →
      (d.closeRow h k compare).g (lpeL h k) LPE_CREG.UNCMP = min (d.g (lpeL h k) LPE_CREG.UNCMP + 1) (2 ^ LPE_CREG.UNCMP.w - 1)) ∧
    (d.on (lpeL h k) LPE_STAT.REGOK = true → (d.closeRow h k compare).g (lpeL h k) LPE_CREG.UNCMP = d.g (lpeL h k) LPE_CREG.UNCMP) ∧
    ((d.pipe h k).exp.find? (fun y => y.row = o.row) = none →
      ((d.closeRow h k compare).pipe h k).recs = (d.pipe h k).recs ∧
      ((d.pipe h k).gone.contains o.row = false → (d.closeRow h k compare).raised (lpeL h k) 4 ∧
        (d.closeRow h k compare).g (lpeL h k) LPE_CEXP.NOEXP = min (d.g (lpeL h k) LPE_CEXP.NOEXP + 1) (2 ^ LPE_CEXP.NOEXP.w - 1)) ∧
      ((d.pipe h k).gone.contains o.row = true →
        (d.closeRow h k compare).g (lpeL h k) LPE_CEXP.NOREC = min (d.g (lpeL h k) LPE_CEXP.NOREC + 1) (2 ^ LPE_CEXP.NOREC.w - 1))) := by
  obtain ⟨⟨hkept, hraised⟩, hrecs⟩ := Dev.closeRow_kept compare ho
  have hshut := d.shut_view h k o
  have hclock := (d.shut h k o).uncompared_clocked h k (d.on (lpeL h k) LPE_STAT.REGOK)
  rw [Dev.shut_clocked, hc] at hclock
  have huncmp := (d.shut h k o).uncompared_view h k (d.on (lpeL h k) LPE_STAT.REGOK)
  have hcount : (d.shut h k o).g (lpeL h k) LPE_CREG.UNCMP = d.g (lpeL h k) LPE_CREG.UNCMP := congrArg CloseView.uncmp hshut.1
  rw [hcount] at huncmp
  generalize (d.shut h k o).uncompared h k (d.on (lpeL h k) LPE_STAT.REGOK) = y at hkept hraised hrecs hclock huncmp
  obtain ⟨hrow, hclosed, hopen, hun⟩ := y.unexpected_always h k ((d.pipe h k).exp.find? (fun y => y.row = o.row)) ((d.pipe h k).gone.contains o.row)
  rw [← hkept, huncmp.1] at hrow hclosed hopen hun
  rw [hshut.1] at hrow hclosed hopen
  refine ⟨hrow, hopen, ⟨_, hclosed⟩, fun hreg => hun.trans (if_neg (by rw [hreg]; exact Bool.false_ne_true)), fun hreg => hun.trans (if_pos hreg), fun hgot => ?_⟩
  have hview := y.unexpected_view h k ((d.pipe h k).gone.contains o.row)
  have hexp : y.g (lpeL h k) LPE_CEXP.NOEXP = d.g (lpeL h k) LPE_CEXP.NOEXP := (congrArg CloseView.noexp huncmp.1).trans (congrArg CloseView.noexp hshut.1)
  have hrec : y.g (lpeL h k) LPE_CEXP.NOREC = d.g (lpeL h k) LPE_CEXP.NOREC := (congrArg CloseView.norec huncmp.1).trans (congrArg CloseView.norec hshut.1)
  rw [hgot] at hkept hraised
  rw [hexp, hrec, ← hkept] at hview
  refine ⟨(hrecs hgot).trans (hview.2.trans (huncmp.2.trans hshut.2)), fun hgone => ?_, fun hgone => ?_⟩
  · rw [hgone] at hview hraised
    exact ⟨hraised (Dev.unexpected_raised hclock), congrArg CloseView.noexp hview.1⟩
  · rw [hgone] at hview
    exact congrArg CloseView.norec hview.1


/-! ### Loupe requests at an engine (R83, R255) -/

/-- The request an engine serves, the requests that wait, and ROW_STAT.LOUPE. -/
def Dev.served (d : Dev) (h : Half) (e : Nat) : Option LReq × List LReq × Bool := ((d.eng h e).loupe, (d.eng h e).loupeQ, d.on (rowL h e) ROW_STAT.LOUPE)
theorem Dev.served_eq {d : Dev} {h : Half} {e : Nat} {a : Option LReq} {b : List LReq} {o : Bool} (hs : d.served h e = (a, b, o)) :
    (d.eng h e).loupe = a ∧ (d.eng h e).loupeQ = b ∧ d.on (rowL h e) ROW_STAT.LOUPE = o := by
  unfold Dev.served at hs
  rwa [Prod.mk.injEq, Prod.mk.injEq] at hs
theorem Dev.served_of {d y : Dev} {h : Half} {e : Nat} (hl : (y.eng h e).loupe = (d.eng h e).loupe) (hq : (y.eng h e).loupeQ = (d.eng h e).loupeQ)
    (ho : y.on (rowL h e) ROW_STAT.LOUPE = d.on (rowL h e) ROW_STAT.LOUPE) : y.served h e = d.served h e := by
  unfold Dev.served
  rw [hl, hq, ho]
theorem Dev.served_regsOff {W : Nat → Prop} {d y : Dev} {h : Half} {e : Nat} (he : e < 8) (heng : y.eng h e = d.eng h e) (hr : d.regsOff W y) (hw : ¬ W (rowL h e + 0x900)) :
    y.served h e = d.served h e :=
  Dev.served_of (by rw [heng]) (by rw [heng]) (Dev.on_of_regsOff (f := ROW_STAT.LOUPE) hr hw (evReg_row h he (by decide) (by decide) (by decide)))
theorem Dev.served_p_stat (d : Dev) (h : Half) (e : Nat) {f : Fld} (v : Nat) (ho : f.off = 0x900) (hw : f.lo + f.w ≤ 16) :
    (d.p (rowL h e) f v).served h e = d.served h e := by
  refine Dev.served_of ?_ ?_ (Dev.on_p_disj d _ v ho.symm (by omega) (.inr hw)) <;> rw [Dev.p_eng]
theorem Dev.served_p_cx (d : Dev) (h : Half) (e c : Nat) (f : Fld) (v : Nat) (he : e < 8) : (d.p (cxL h e c) f v).served h e = d.served h e :=
  Dev.served_regsOff (W := fun k => k = cxL h e c + f.off) he (Dev.p_eng ..) (Dev.regsOff_p d v rfl) fun hk => cx_ne_row h e c f.off (by decide) hk.symm
theorem Dev.served_modEng (d : Dev) (h : Half) (e : Nat) {f : Engine → Engine} (hl : (f (d.eng h e)).loupe = (d.eng h e).loupe)
    (hq : (f (d.eng h e)).loupeQ = (d.eng h e).loupeQ) : (d.modEng h e f).served h e = d.served h e :=
  Dev.served_of (by rw [Dev.eng_modEng_same, hl]) (by rw [Dev.eng_modEng_same, hq]) (Dev.modEng_on ..)
theorem Dev.served_errsOnly {d y : Dev} {h : Half} {e : Nat} (he : e < 8) (hr : d.errsOnly y) : y.served h e = d.served h e :=
  Dev.served_regsOff he (Dev.eng_of_bare hr.1 h e) hr.2 (not_errKey_row h he (by decide) (by decide))

theorem Engine.abandon_served (x : Engine) (c : Nat) : (x.abandon c).loupe = x.loupe ∧ (x.abandon c).loupeQ = x.loupeQ := by
  unfold Engine.abandon
  dsimp only
  split <;> exact ⟨rfl, rfl⟩
theorem Dev.dueGone_served (d : Dev) (h : Half) {e : Nat} (c : Nat) (he : e < 8) : (d.dueGone h e c).served h e = d.served h e := by
  have hdrop : (d.dropDue h e c).served h e = d.served h e := by
    refine Dev.served_of ?_ ?_ (Dev.on_of_regsOff (f := ROW_STAT.LOUPE) (d.dropDue_regs h e c) (fun hk => cx_ne_row h e c 0x814 (by decide) hk.symm)
      (evReg_row h he (by decide) (by decide) (by decide))) <;> rw [Dev.dropDue_eng]
  unfold Dev.dueGone
  refine Eq.trans ?_ hdrop
  generalize d.dropDue h e c = y
  unfold Dev.abandon
  dsimp only
  have hgone : (y.modEng h e (fun x => x.abandon c)).served h e = y.served h e := Dev.served_modEng y h e (Engine.abandon_served _ c).1 (Engine.abandon_served _ c).2
  split
  · rw [Dev.served_p_stat _ h e _ rfl (by decide), hgone]
  · exact hgone
theorem Dev.ctxFault_served (d : Dev) (h : Half) {e : Nat} (c cause : Nat) (he : e < 8) : (d.ctxFault h e c cause).served h e = d.served h e := by
  have hreport (x : Dev) (k : Half) (code obj : Nat) (l : Loc) : (x.reportP k code obj l).served h e = x.served h e :=
    Dev.served_errsOnly he (x.errsOnly_reportP k code obj l)
  rw [Dev.ctxFault_view (fun x => x.served h e) hreport, Dev.faulted,
    Dev.served_regsOff he (Dev.eng_of_quiet (Dev.raiseCtx_quiet ..) h e) (Dev.regsOff_raiseCtx (W := fun k => k = rowL h e + 0x924) _ (rowL_page h e) c 0 rfl) (by simp)]
  generalize hy : (((d.dueGone h e c).setCst h e c .fault).p (cxL h e c) ROW_CSTAT.FAULT_CAUSE cause) = y
  have hcx : (y.modCx h e c (fun x => { x with cmd := none })).served h e = y.served h e := Dev.served_of (by rw [Dev.modCx_eng]) (by rw [Dev.modCx_eng]) (Dev.modCx_on ..)
  rw [hcx, ← hy, Dev.served_p_cx _ h e c _ _ he, Dev.setCst, Dev.served_p_cx _ h e c _ _ he, d.dueGone_served h c he]
theorem Dev.motFault_served (d : Dev) (h : Half) {e : Nat} (x : Due) (he : e < 8) : (d.motFault h e x).served h e = d.served h e := by
  unfold Dev.motFault
  extract_lets d1
  have h1 : d1.served h e = d.served h e := Dev.served_errsOnly he (d.errsOnly_eccUe ..)
  split
  · exact h1
  · rw [d1.ctxFault_served h x.ctx 4 he, h1]
theorem Dev.pipeOn_served (d : Dev) (m : Mem) (h : Half) {e : Nat} (he : e < 8) : (d.pipeOn m h e).served h e = d.served h e := by
  have hdesk : ((d.pipeOn m h e).eng h e).desk = (d.eng h e).desk := Dev.pipeOn_desk
  refine Dev.served_of (Engine.loupe_of_desk hdesk) (Engine.loupeQ_of_desk hdesk)
    (Dev.on_of_regsOff (f := ROW_STAT.LOUPE) Dev.pipeOn_regs ?_ (evReg_row h he (by decide) (by decide) (by decide)))
  have hoff : ROW_STAT.LOUPE.off = 0x900 := rfl
  rw [hoff]
  rintro (hk | hk | hk | hk | ⟨c, hk⟩)
  · exact absurd (Nat.add_left_cancel hk) (by decide)
  · exact absurd (Nat.add_left_cancel hk) (by decide)
  · exact absurd (Nat.add_left_cancel hk) (by decide)
  · exact absurd (Nat.add_left_cancel hk) (by decide)
  · exact cx_ne_row h e c 0x824 (by decide) hk.symm
/-- The pipe starts a Loupe render. -/
def Dev.loupeBegin (d : Dev) (m : Mem) (h : Half) (e c : Nat) (k : List (Nat × Nat) × Nat × Nat × Bool) (x : Due) : Dev :=
  (((d.modEng h e (fun g => { g.begin k with lcur := some x })).p (rowL h e) ROW_STAT.BUSY 1).p (rowL h e) ROW_STAT.CUR c).pipeOn m h e
theorem Dev.loupeBegin_served (d : Dev) (m : Mem) (h : Half) {e : Nat} (c : Nat) (k : List (Nat × Nat) × Nat × Nat × Bool) (x : Due) (he : e < 8) :
    (d.loupeBegin m h e c k x).served h e = d.served h e := by
  unfold Dev.loupeBegin
  rw [Dev.pipeOn_served _ m h he, Dev.served_p_stat _ h e _ rfl (by decide), Dev.served_p_stat _ h e _ rfl (by decide), Dev.served_modEng]
  · rfl
  · rfl
theorem Dev.loupeStart_served (d : Dev) (m : Mem) (h : Half) {e : Nat} (q : LReq) (he : e < 8) : (d.loupeStart m h e q).served h e = d.served h e := by
  unfold Dev.loupeStart
  extract_lets l c x0 d1 x k
  have h1 : d1.served h e = d.served h e := Dev.served_errsOnly he (d.errsOnly_readEcc ..)
  split
  · rfl
  · split
    · exact h1
    · split
      · rw [d1.motFault_served h x he, h1]
      · exact (d1.loupeBegin_served m h c k x he).trans h1
theorem Dev.loupeStart_absent {d : Dev} (m : Mem) {h : Half} {e : Nat} {q : LReq}
    (hno : d.ringD h e (d.lpeC h q.pipe) = 0 ∨ d.rowValid h e (d.lpeC h q.pipe) q.row = false) : d.loupeStart m h e q = d :=
  if_pos (by rw [Bool.not_eq_true']; exact hno)

/-- A request taken from the head of the list. -/
def Dev.loupeTaken (d : Dev) (h : Half) (e : Nat) (q : LReq) (rest : List LReq) : Dev :=
  (d.modEng h e (fun g => { g with loupe := some q, loupeQ := rest })).p (rowL h e) ROW_STAT.LOUPE 1
theorem Dev.loupeTake_eq {d : Dev} (m : Mem) {h : Half} {e : Nat} {q : LReq} {rest : List LReq} (hl : (d.eng h e).loupe = none) (hq : (d.eng h e).loupeQ = q :: rest)
    (hc : (d.eng h e).cur = none) (hd : (d.eng h e).due = []) (ht : (d.eng h e).tinv = none) (hm : (d.eng h e).minv = none) :
    d.loupeTake m h e = (d.loupeTaken h e q rest).loupeStart m h e q := by
  unfold Dev.loupeTake
  dsimp only
  rw [hl, hq, hc, hd, ht, hm]
  dsimp only
  rw [Dev.loupeTaken]
  exact if_neg (by decide)
theorem Dev.loupeTake_busy {d : Dev} (m : Mem) {h : Half} {e : Nat} (hd : (d.eng h e).due ≠ []) : d.loupeTake m h e = d := by
  unfold Dev.loupeTake
  dsimp only
  split
  · next hnil => exact absurd hnil hd
  · rfl
theorem Dev.loupeTaken_served (d : Dev) (h : Half) (e : Nat) (q : LReq) (rest : List LReq) : (d.loupeTaken h e q rest).served h e = (some q, rest, true) := by
  unfold Dev.served Dev.loupeTaken
  rw [Dev.p_eng, Dev.eng_modEng_same, Dev.on_p_one _ _ (by decide) (by decide)]
theorem Dev.loupeTaken_regs (d : Dev) (h : Half) (e : Nat) (q : LReq) (rest : List LReq) : d.regsOff (fun k => k = rowL h e + 0x900) (d.loupeTaken h e q rest) :=
  Dev.regsOff_trans (Dev.regsOff_of_regs (Dev.modEng_regs ..)) (Dev.regsOff_p _ 1 rfl)
/-- Taking a request changes neither the ring of a context nor the rows valid in it. -/
theorem Dev.loupeTaken_rows (d : Dev) (h : Half) {e : Nat} (q : LReq) (rest : List LReq) (he : e < 8) :
    (d.loupeTaken h e q rest).lpeC h q.pipe = d.lpeC h q.pipe ∧ ∀ c, c < 32 → (d.loupeTaken h e q rest).ringD h e c = d.ringD h e c ∧
      ∀ r, (d.loupeTaken h e q rest).rowValid h e c r = d.rowValid h e c r := by
  have hr := d.loupeTaken_regs h e q rest
  have hcx (c : Nat) : (d.loupeTaken h e q rest).cx h e c = d.cx h e c := by rw [Dev.loupeTaken, Dev.p_cx, Dev.modEng_cx]
  have hrow {f : Fld} (hf : f.perCtx = true) {c : Nat} (hc : c < 32) (hne : 0x900 < (f.ix c).off) :
      (d.loupeTaken h e q rest).g (rowL h e) (f.ix c) = d.g (rowL h e) (f.ix c) := by
    have hoff := Fld.ix_perCtx hf hc
    refine Dev.g_of_regsOff hr (fun hk => ?_) (evReg_row h he hoff.2 (by omega) (by omega))
    have := Nat.add_left_cancel hk
    omega
  refine ⟨Dev.g_of_regsOff (f := LPE_BIND.CTX) hr (page_reg_ne (lpeL_page h _) (rowL_page h e) (by decide) (by decide) (by decide))
    (evReg_header _ (by decide) (by decide) (by decide)), fun c hc => ⟨?_, fun r => ?_⟩⟩
  · unfold Dev.ringD
    rw [hrow (f := ROW_HR_LO.DLOG2) rfl hc (by have := Fld.ix_perCtx (f := ROW_HR_LO.DLOG2) rfl hc; omega)]
  · unfold Dev.rowValid
    rw [hcx, hrow (f := ROW_HWM.H) rfl hc (by have := Fld.ix_perCtx (f := ROW_HWM.H) rfl hc; omega),
      hrow (f := ROW_REVST.RECS) rfl hc (by have := Fld.ix_perCtx (f := ROW_REVST.RECS) rfl hc; omega)]
theorem Dev.loupeTake_spec {d : Dev} (m : Mem) {h : Half} {e : Nat} {q : LReq} {rest : List LReq} (he : e < 8) (hl : (d.eng h e).loupe = none)
    (hq : (d.eng h e).loupeQ = q :: rest) (hc : (d.eng h e).cur = none) (hd : (d.eng h e).due = []) (ht : (d.eng h e).tinv = none) (hm : (d.eng h e).minv = none) :
    ((d.loupeTake m h e).eng h e).loupe = some q ∧ ((d.loupeTake m h e).eng h e).loupeQ = rest ∧ (d.loupeTake m h e).on (rowL h e) ROW_STAT.LOUPE = true ∧
    ((d.ringD h e (d.lpeC h q.pipe) = 0 ∨ d.rowValid h e (d.lpeC h q.pipe) q.row = false) →
      ((d.loupeTake m h e).eng h e).lcur = (d.eng h e).lcur ∧ d.regsKept [rowL h e + 0x900] (d.loupeTake m h e)) := by
  rw [Dev.loupeTake_eq m hl hq hc hd ht hm]
  have hserved := ((d.loupeTaken h e q rest).loupeStart_served m h q he).trans (d.loupeTaken_served h e q rest)
  obtain ⟨hloupe, hrest, hon⟩ := Dev.served_eq hserved
  refine ⟨hloupe, hrest, hon, fun hno => ?_⟩
  obtain ⟨hctx, hrows⟩ := d.loupeTaken_rows h q rest he
  have hlt : d.lpeC h q.pipe < 32 := fget_lt LPE_BIND.CTX _
  obtain ⟨hring, hvalid⟩ := hrows _ hlt
  rw [Dev.loupeStart_absent m (by rw [hctx, hring, hvalid]; exact hno)]
  refine ⟨?_, Dev.regsKept_of_regsOff (d.loupeTaken_regs h e q rest) fun k hk => by rw [hk]; exact List.mem_singleton_self _⟩
  rw [Dev.loupeTaken, Dev.p_eng, Dev.eng_modEng_same]

/-! ### The end of a Loupe request -/

theorem Dev.dropLoupe_rest (d : Dev) (h : Half) (e : Nat) : (d.dropLoupe h e).rest = d.rest := by
  rw [Dev.dropLoupe, Dev.p_rest, Dev.modEng_rest]
/-- The render of a request, dropped where there is one. -/
def Dev.loupeDropped (d : Dev) (h : Half) (e : Nat) : Dev := if (d.eng h e).lcur.isSome then d.dropLoupe h e else d
theorem Dev.loupeEnd_eq (d : Dev) (h : Half) (e : Nat) :
    d.loupeEnd h e = ((d.loupeDropped h e).modEng h e (fun g => { g with loupe := none })).p (rowL h e) ROW_STAT.LOUPE 0 := rfl
theorem Dev.loupeDropped_spec (d : Dev) (h : Half) (e : Nat) : (d.loupeDropped h e).rest = d.rest ∧ ((d.loupeDropped h e).eng h e).lcur = none ∧
    d.regsOff (fun k => k = rowL h e + 0x900) (d.loupeDropped h e) := by
  unfold Dev.loupeDropped
  split
  · refine ⟨d.dropLoupe_rest h e, ?_, Dev.regsOff_trans (Dev.regsOff_of_regs (Dev.modEng_regs ..)) (Dev.regsOff_p _ 0 rfl)⟩
    rw [Dev.dropLoupe, Dev.p_eng, Dev.eng_modEng_same]
  · next hnone => exact ⟨rfl, Option.not_isSome_iff_eq_none.mp hnone, Dev.regsOff_refl _ d⟩
theorem Dev.loupeEnd_spec (d : Dev) (h : Half) (e : Nat) : (d.loupeEnd h e).rest = d.rest ∧ ((d.loupeEnd h e).eng h e).loupe = none ∧
    ((d.loupeEnd h e).eng h e).lcur = none ∧ (d.loupeEnd h e).on (rowL h e) ROW_STAT.LOUPE = false ∧
    d.regsOff (fun k => k = rowL h e + 0x900) (d.loupeEnd h e) := by
  obtain ⟨hrest, hlcur, hregs⟩ := d.loupeDropped_spec h e
  rw [Dev.loupeEnd_eq]
  generalize d.loupeDropped h e = y at hrest hlcur hregs
  refine ⟨by rw [Dev.p_rest, Dev.modEng_rest, hrest], ?_, ?_, Dev.on_p_zero _ _ (by decide) (by decide),
    Dev.regsOff_trans hregs (Dev.regsOff_trans (Dev.regsOff_of_regs (Dev.modEng_regs ..)) (Dev.regsOff_p _ 0 rfl))⟩
  · rw [Dev.p_eng, Dev.eng_modEng_same]
  · rw [Dev.p_eng, Dev.eng_modEng_same, hlcur]
/-- A request ends with its pipe told. -/
theorem Dev.loupeTold_spec (d : Dev) (h : Half) (e p : Nat) (f : Pipe → Pipe) :
    (((d.loupeEnd h e).modPipe h p f).eng h e).loupe = none ∧ (((d.loupeEnd h e).modPipe h p f).eng h e).lcur = none ∧
    ((d.loupeEnd h e).modPipe h p f).pipe h p = f (d.pipe h p) ∧ ((d.loupeEnd h e).modPipe h p f).on (rowL h e) ROW_STAT.LOUPE = false ∧
    d.regsKept [rowL h e + 0x900] ((d.loupeEnd h e).modPipe h p f) := by
  obtain ⟨hrest, hloupe, hlcur, hon, hregs⟩ := d.loupeEnd_spec h e
  have heng : ((d.loupeEnd h e).modPipe h p f).eng h e = (d.loupeEnd h e).eng h e := by unfold Dev.eng; rw [Dev.modPipe_engines]
  rw [heng]
  refine ⟨hloupe, hlcur, ?_, (Dev.modPipe_on ..).trans hon, ?_⟩
  · rw [Dev.pipe_modPipe_same]
    unfold Dev.pipe
    rw [Dev.pipes_of_rest hrest]
  · exact Dev.regsKept_of_regsOff (Dev.regsOff_trans hregs (Dev.regsOff_of_regs (Dev.modPipe_regs ..))) fun k hk => by rw [hk]; exact List.mem_singleton_self _
section
variable {d : Dev} {h : Half} {e : Nat} {q : LReq}
theorem Dev.loupeDone_absent (hl : (d.eng h e).loupe = some q) (hc : (d.eng h e).lcur = none) :
    d.loupeDone h e = (d.loupeEnd h e).modPipe h q.pipe (fun x => x.loseRow q.row) := by
  unfold Dev.loupeDone
  dsimp only
  rw [hl, hc]
theorem Dev.loupeDone_drawn {y : Due} (hl : (d.eng h e).loupe = some q) (hc : (d.eng h e).lcur = some y) (hd : (d.eng h e).drawn y = true) :
    d.loupeDone h e = (d.loupeEnd h e).modPipe h q.pipe (fun x => x.takeRow ⟨q.row, ((d.eng h e).row y).1, ((d.eng h e).row y).2⟩) := by
  unfold Dev.loupeDone
  dsimp only
  rw [hl, hc]
  exact if_pos hd
theorem Dev.loupeDone_waits {y : Due} (hl : (d.eng h e).loupe = some q) (hc : (d.eng h e).lcur = some y) (hd : (d.eng h e).drawn y = false) : d.loupeDone h e = d := by
  unfold Dev.loupeDone
  dsimp only
  rw [hl, hc]
  exact if_neg (by rw [hd]; exact Bool.false_ne_true)
end
theorem Pipe.mem_takeRow (x : Pipe) (r : ExpRow) : r ∈ (x.takeRow r).exp := List.mem_append_right _ (List.mem_singleton_self r)
theorem mem_addNew (l : List Nat) (x : Nat) : x ∈ addNew l x := by
  unfold addNew
  split
  · next hin => exact List.contains_iff_mem.mp hin
  · exact List.mem_append_right _ (List.mem_singleton_self x)

/-! ### The ring of records (R261) -/

/-- A record leaves the list, and WR steps. -/
def Dev.recTaken (d : Dev) (h : Half) (k : Nat) (rest : List Nat) : Dev := (d.modPipe h k (fun x => { x with recs := rest })).wrap (lpeL h k) LPE_RING_WR.IDX
/-- The threshold of the ring, as the response passes it. -/
def Dev.ringSeen (d : Dev) (h : Half) (k new : Nat) (full : Prop) [Decidable full] : Dev :=
  if full then (d.modPipe h k (fun x => { x with ringAt := new })).raise (lpeL h k) 0 else d
/-- The place of the next record. -/
def Dev.ringSlot (d : Dev) (h : Half) (k : Nat) : Nat :=
  halfAddr h (d.g (lpeL h k) LPE_RING_LO.BASE * 2 ^ 12 + d.g (lpeL h k) LPE_RING_HI.BASE * 2 ^ 32) +
    d.g (lpeL h k) LPE_RING_WR.IDX % 2 ^ d.g (lpeL h k) LPE_RING_CFG.LOG2 * 16
theorem Dev.ringWritten_eq {d : Dev} (r0 : Referee) {h : Half} {k r : Nat} {rest : List Nat} (hr : (d.pipe h k).recs = r :: rest) :
    ∃ y : Dev, (y.pipe h k).recs = rest ∧ d.regsOff (fun i => i = lpeL h k + 0x810) y ∧
      y.g (lpeL h k) LPE_RING_WR.IDX = (d.g (lpeL h k) LPE_RING_WR.IDX + 1) % 2 ^ 21 ∧
      d.ringWritten r0 h k = storeMem r0 y h (h.n + 1) (d.ringSlot h k) (toBytes r 16) := by
  have htaken : ((d.recTaken h k rest).pipe h k).recs = rest ∧ d.regsOff (fun i => i = lpeL h k + 0x810) (d.recTaken h k rest) ∧
      (d.recTaken h k rest).g (lpeL h k) LPE_RING_WR.IDX = (d.g (lpeL h k) LPE_RING_WR.IDX + 1) % 2 ^ 21 := by
    refine ⟨?_, Dev.regsOff_trans (Dev.regsOff_of_regs (Dev.modPipe_regs ..)) (Dev.regsOff_p _ _ rfl), ?_⟩
    · rw [Dev.recTaken, Dev.wrap, Dev.pipe_of_quiet (Dev.p_quiet ..), Dev.pipe_modPipe_same]
    · rw [Dev.recTaken, Dev.wrap, Dev.g_p_same _ _ _ _ (by decide), Dev.modPipe_g]
      rfl
  have hseen (new : Nat) (full : Prop) [Decidable full] (x : Dev) : ((x.ringSeen h k new full).pipe h k).recs = (x.pipe h k).recs ∧
      x.regsOff (fun i => i = lpeL h k + 0x810) (x.ringSeen h k new full) ∧
      (x.ringSeen h k new full).g (lpeL h k) LPE_RING_WR.IDX = x.g (lpeL h k) LPE_RING_WR.IDX := by
    unfold Dev.ringSeen
    split
    · refine ⟨?_, Dev.regsOff_trans (Dev.regsOff_of_regs (Dev.modPipe_regs ..)) (Dev.regsOff_raise _ _ (lpeL_page h k) 0), ?_⟩
      · rw [Dev.pipe_of_quiet (Dev.raise_quiet ..), Dev.pipe_modPipe_same]
      · exact (Dev.g_raise _ (lpeL_page h k) 0 (lpeL h k) LPE_RING_WR.IDX (evReg_header _ (by decide) (by decide) (by decide))).trans (Dev.modPipe_g ..)
    · exact ⟨rfl, Dev.regsOff_refl _ x, rfl⟩
  unfold Dev.ringWritten
  extract_lets l
  rw [hr]
  refine ⟨(d.recTaken h k rest).ringSeen h k ((d.g (lpeL h k) LPE_RING_WR.IDX + 1) % 2 ^ 21) _, ?_, ?_, ?_, rfl⟩
  · exact (hseen _ _ _).1.trans htaken.1
  · exact Dev.regsOff_trans htaken.2.1 (hseen _ _ _).2.1
  · exact (hseen _ _ _).2.2.trans htaken.2.2
theorem halfAddr_aligned (h : Half) (b c : Nat) : halfAddr h (b * 2 ^ 12 + c * 2 ^ 32) % 16 = 0 := by
  unfold halfAddr
  split <;> omega
theorem Dev.ringSlot_aligned (d : Dev) (h : Half) (k : Nat) : d.ringSlot h k % 16 = 0 := by
  have hbase := halfAddr_aligned h (d.g (lpeL h k) LPE_RING_LO.BASE) (d.g (lpeL h k) LPE_RING_HI.BASE)
  unfold Dev.ringSlot
  omega
theorem Dev.ringWritten_spec {d : Dev} {r0 : Referee} (m : Mem) {h : Half} {k r : Nat} {rest : List Nat} (hk : k < 2) (hr : (d.pipe h k).recs = r :: rest) :
    ((d.ringWritten r0 h k).2.pipe h k).recs = rest ∧
    (d.ringWritten r0 h k).2.g (lpeL h k) LPE_RING_WR.IDX = (d.g (lpeL h k) LPE_RING_WR.IDX + 1) % 2 ^ 21 ∧
    (d.ringSlot h k < 2 ^ 36 → (∀ i, i < 16 → d.backed (d.ringSlot h k + i) = true) → r0.targets (d.ringSlot h k) = [d.ringSlot h k] →
      (∀ i, i < 16 → (m.applyAll (d.ringWritten r0 h k).1).byte (d.ringSlot h k + i) = BitVec.ofNat 8 (r / 2 ^ (8 * i))) ∧
      (∀ b, (b < d.ringSlot h k ∨ d.ringSlot h k + 16 ≤ b) → (m.applyAll (d.ringWritten r0 h k).1).byte b = m.byte b) ∧
      d.regsKept [lpeL h k + LPE_RING_WR.IDX.off] (d.ringWritten r0 h k).2) := by
  obtain ⟨y, hrecs, hregs, hidx, heq⟩ := Dev.ringWritten_eq r0 hr
  rw [heq]
  have hstore := y.errsOnly_storeMem r0 h (h.n + 1) (d.ringSlot h k) (toBytes r 16)
  have hlpe : ¬ errKey (lpeL h k + LPE_RING_WR.IDX.off) := by
    have hpage : (pageOf h.n .lpe k) % 4096 < 0x34 := by
      have hcases : k = 0 ∨ k = 1 := by omega
      rcases hcases with rfl | rfl <;> cases h <;> decide
    exact not_errKey hpage (by decide) (by decide)
  refine ⟨?_, ?_, fun hlt hback htargets => ?_⟩
  · rw [Dev.pipe_of_bare hstore.1, hrecs]
  · exact (Dev.g_of_regsOff hstore.2 hlpe (evReg_header _ (by decide) (by decide) (by decide))).trans hidx
  · have halign := d.ringSlot_aligned h k
    have hlen : (toBytes r 16).length = 16 := toBytes_length r 16
    have hbacked (a : Nat) : y.backed a = d.backed a := Dev.backed_of_regsOff hregs (fun l hl =>
      ⟨page_reg_ne hl (lpeL_page h k) (by decide) (by decide) (by decide), page_reg_ne hl (lpeL_page h k) (by decide) (by decide) (by decide)⟩) a
    obtain ⟨hops, hkept⟩ := storeMem_whole (d := y) (r := r0) h (h.n + 1) (a := d.ringSlot h k) (bs := toBytes r 16) (by rw [hlen]; decide) (by omega)
      (by rw [hlen]) (by rw [hlen]; omega) (fun i hi => (hbacked _).trans (hback i (by rw [hlen] at hi; exact hi))) htargets
    obtain ⟨hin, hout⟩ := Mem.byte_stored m (d.ringSlot h k) (toBytes r 16)
    rw [hlen] at hin hout
    rw [hops]
    refine ⟨fun i hi => (hin i hi).trans (toBytes_getD r hi), hout, ?_⟩
    exact Dev.regsKept_of_regsOff (Dev.regsOff_trans hregs (Dev.regsOff_of_regs hkept)) fun i hi => by rw [hi]; exact List.mem_singleton_self _

/-! ### The windows of a pipe (R247, R252, R261) -/

theorem Dev.g_seq_lpe (d : Dev) (h : Half) (k : Nat) {f : Fld} (hf : f.off < 0x100000) (hne : f.off ≠ 0x03C) : (d.seq (lpeL h k)).g (lpeL h k) f = d.g (lpeL h k) f :=
  Dev.g_seq_locOf d _ _ hf hne
theorem Dev.on_seq_lpe (d : Dev) (h : Half) (k : Nat) {f : Fld} (hf : f.off < 0x100000) (hne : f.off ≠ 0x03C) : (d.seq (lpeL h k)).on (lpeL h k) f = d.on (lpeL h k) f := by
  unfold Dev.on
  rw [Dev.g_seq_lpe d h k hf hne]
theorem Dev.seq_lpe (d : Dev) (h : Half) (k : Nat) : d.onlyRegs [lpeL h k + 0x03C] (d.seq (lpeL h k)) := Dev.onlyRegs_seq d _
theorem Dev.pipe_seq_lpe (d : Dev) (h : Half) (k : Nat) : (d.seq (lpeL h k)).pipe h k = d.pipe h k := Dev.pipe_of_quiet (d.seq_lpe h k).1 h k
/-- A write that is dropped: WREJ, and the count of accepted writes. -/
theorem Dev.wrej_spec (d : Dev) (h : Half) (k : Nat) (hc : d.clocked (lpeL h k) = true) :
    ((d.seq (lpeL h k)).raise (lpeL h k) 7).raised (lpeL h k) 7 ∧ d.onlyRegs [lpeL h k + 0x03C] ((d.seq (lpeL h k)).raise (lpeL h k) 7) :=
  ⟨Dev.raise_raised _ (lpeL_page h k) (by decide) ((d.on_seq_lpe h k (f := PG_CTL.ENABLE) (by decide) (by decide)).trans hc),
    Dev.onlyRegs_trans (d.seq_lpe h k) (Dev.raise_frame _ (lpeL_page h k) 7 _)⟩
/-- A write of one register behind the count of accepted writes. -/
theorem Dev.seq_wr_onlyRegs (d : Dev) (h : Half) (k o : Nat) (v : Word) :
    d.onlyRegs [lpeL h k + 0x03C, lpeL h k + o] ((d.seq (lpeL h k)).wr (lpeL h k) o v) := by
  have hseq : d.onlyOff (fun i => i = lpeL h k + 0x03C ∨ i = lpeL h k + o) (d.seq (lpeL h k)) :=
    Dev.onlyOff_of_onlyRegs (d.seq_lpe h k) fun i hi => .inl (List.mem_singleton.mp hi)
  exact Dev.onlyRegs_of_onlyOff (Dev.onlyOff_trans hseq (Dev.onlyOff_wr _ v (.inr rfl))) fun i hi => by simpa using hi

/-- One entry of the flat field, or of the knots, in the shadow bank. -/
def Pipe.entryWritten (x : Pipe) (knot : Bool) (i : Nat) (v : Word) : Pipe :=
  match knot, x.active1 with
  | false, true => { x with ff0 := SMap.set (fun _ => 0) x.ff0 i v.toNat }
  | false, false => { x with ff1 := SMap.set (fun _ => 0) x.ff1 i v.toNat }
  | true, true => { x with kn0 := SMap.set (fun _ => 0) x.kn0 i v.toNat }
  | true, false => { x with kn1 := SMap.set (fun _ => 0) x.kn1 i v.toNat }
theorem bankAt_set (b : List (Nat × Nat)) (j : Nat) (v : Nat) (i : Nat) : bankAt (SMap.set (fun _ => 0) b j v) i = if i = j then v else bankAt b i := SMap.get_set b j i v
theorem Pipe.entryWritten_ff (x : Pipe) (j : Nat) (v : Word) : (x.entryWritten false j v).ff = x.ff ∧ (x.entryWritten false j v).kn = x.kn ∧
    (x.entryWritten false j v).knS = x.knS ∧ ∀ i, bankAt (if (x.entryWritten false j v).active1 then (x.entryWritten false j v).ff0 else (x.entryWritten false j v).ff1) i =
      if i = j then v.toNat else bankAt (if x.active1 then x.ff0 else x.ff1) i := by
  unfold Pipe.entryWritten Pipe.ff Pipe.kn Pipe.knS
  cases ha : x.active1 <;> exact ⟨rfl, rfl, rfl, bankAt_set _ j _⟩
theorem Pipe.entryWritten_kn (x : Pipe) (j : Nat) (v : Word) : (x.entryWritten true j v).ff = x.ff ∧ (x.entryWritten true j v).kn = x.kn ∧
    ∀ i, bankAt (x.entryWritten true j v).knS i = if i = j then v.toNat else bankAt x.knS i := by
  unfold Pipe.entryWritten Pipe.ff Pipe.kn Pipe.knS
  cases ha : x.active1 <;> exact ⟨rfl, rfl, bankAt_set _ j _⟩
/-- The index after a write, where AUTOINC = 1. -/
def Dev.stepIdx (d : Dev) (l : Loc) (auto : Bool) (f : Fld) (i : Nat) : Dev := if auto then d.p l f i else d
theorem Dev.lpeTable_taken {d : Dev} {h : Half} {k : Nat} (v : Word) (hp : d.on (lpeL h k) PG_COMMIT.PENDING = false) (hcopy : (d.pipe h k).copying = false) :
    d.lpeTable h k false v = (d.modPipe h k (fun x => x.entryWritten false (d.g (lpeL h k) LPE_FFW_IDX.IDX) v)).stepIdx (lpeL h k) (d.on (lpeL h k) LPE_FFW_IDX.AUTOINC)
      LPE_FFW_IDX.IDX (d.g (lpeL h k) LPE_FFW_IDX.IDX + 1) ∧
    (d.g (lpeL h k) LPE_KNW_IDX.IDX ≤ 64 →
      d.lpeTable h k true v = (d.modPipe h k (fun x => x.entryWritten true (d.g (lpeL h k) LPE_KNW_IDX.IDX) v)).stepIdx (lpeL h k) (d.on (lpeL h k) LPE_KNW_IDX.AUTOINC)
        LPE_KNW_IDX.IDX (d.g (lpeL h k) LPE_KNW_IDX.IDX + 1)) := by
  refine ⟨?_, fun hi => ?_⟩
  · unfold Dev.lpeTable
    dsimp only
    rw [hp, hcopy]
    rfl
  · unfold Dev.lpeTable
    dsimp only
    rw [hp, hcopy, if_pos rfl, decide_eq_false (Nat.not_lt.mpr hi)]
    rfl
theorem Dev.lpeTable_dropped {d : Dev} {h : Half} {k : Nat} (knot : Bool) (v : Word) (hno : (d.on (lpeL h k) PG_COMMIT.PENDING || (d.pipe h k).copying) = true) :
    d.lpeTable h k knot v = d.raise (lpeL h k) 7 := by
  unfold Dev.lpeTable
  dsimp only
  rw [hno, Bool.true_or]
  exact if_pos rfl
/-- An entry written behind the count of accepted writes. -/
theorem Dev.entryStep_spec (d : Dev) (h : Half) (k : Nat) (auto : Bool) (f : Fld) (i : Nat) (g : Pipe → Pipe) :
    ((((d.seq (lpeL h k)).modPipe h k g).stepIdx (lpeL h k) auto f i).pipe h k) = g (d.pipe h k) ∧
    d.regsKept [lpeL h k + 0x03C, lpeL h k + f.off] (((d.seq (lpeL h k)).modPipe h k g).stepIdx (lpeL h k) auto f i) := by
  have hseq : d.regsOff (fun i => i = lpeL h k + 0x03C ∨ i = lpeL h k + f.off) (d.seq (lpeL h k)) :=
    Dev.regsOff_of_regsKept (d.seq_lpe h k).2 fun i hi => .inl (List.mem_singleton.mp hi)
  have hpipe : ((d.seq (lpeL h k)).modPipe h k g).pipe h k = g (d.pipe h k) := by rw [Dev.pipe_modPipe_same, Dev.pipe_seq_lpe]
  have hmod := Dev.regsOff_trans hseq (Dev.regsOff_of_regs (Dev.modPipe_regs (d.seq (lpeL h k)) h k g))
  generalize (d.seq (lpeL h k)).modPipe h k g = y at hpipe hmod
  unfold Dev.stepIdx
  split
  · exact ⟨(Dev.pipe_of_quiet (Dev.p_quiet ..) h k).trans hpipe,
      Dev.regsKept_of_regsOff (Dev.regsOff_trans hmod (Dev.regsOff_p y i (.inr rfl))) fun j hj => by simpa using hj⟩
  · exact ⟨hpipe, Dev.regsKept_of_regsOff hmod fun j hj => by simpa using hj⟩

/-- The banks after the copy. -/
theorem Dev.lpeCopied_spec {d : Dev} {h : Half} {k : Nat} (hcopy : (d.pipe h k).copying = true) : (d.lpeCopied h k).regs = d.regs ∧
    ((d.lpeCopied h k).pipe h k).copying = false ∧ ((d.lpeCopied h k).pipe h k).ff0 = (d.pipe h k).ff ∧ ((d.lpeCopied h k).pipe h k).ff1 = (d.pipe h k).ff ∧
    ((d.lpeCopied h k).pipe h k).kn0 = (d.pipe h k).kn ∧ ((d.lpeCopied h k).pipe h k).kn1 = (d.pipe h k).kn := by
  refine ⟨Dev.modPipe_regs .., ?_⟩
  rw [Dev.lpeCopied, Dev.pipe_modPipe_same, if_pos hcopy]
  unfold Pipe.ff Pipe.kn
  cases ha : (d.pipe h k).active1 <;> exact ⟨rfl, rfl, rfl, rfl, rfl⟩

/-! ### The commands of the pipes -/

/-- A write of a pipe's page that no other half takes over. -/
theorem forwarded_lpe {s : State} {h : Half} {k : Nat} (hl : s.ref.live h = true) (hsole : s.sole h) (f : Half → Dev → Dev) :
    forwarded h (fun h => onWrite h (lpeL h k) (fun _ d => f h d)) s = .next { s with dev := f h (s.dev.seq (lpeL h k)) } := by
  rw [forwarded_alone hsole, onWrite_live hl]
section
variable {s : State} {h : Half}
theorem exec_loupeRowTimeout {k : Fin 2} (hs : s.awake h (lpeL h k)) (hrun : s.dev.on (lpeL h k) LPE_STAT.RUN = true) :
    exec (.loupeRowTimeout h k) s = .next { s with dev := s.dev.closeRow h k true } := by
  unfold exec
  dsimp only
  rw [execLoupeRowTimeout, onBlock_live hs.1 hs.2, if_pos hrun]
theorem exec_loupeRenderRequest {e : Fin 8} (hs : s.awake h (rowL h e)) : exec (.loupeRenderRequest h e) s = .next { s with dev := s.dev.loupeTake s.mem h e } := by
  unfold exec
  dsimp only
  rw [execLoupeRenderRequest, onBlock_live hs.1 hs.2]
theorem exec_expectedRowArrive {e : Fin 8} (hs : s.awake h (rowL h e)) : exec (.expectedRowArrive h e) s = .next { s with dev := s.dev.loupeDone h e } := by
  unfold exec
  dsimp only
  rw [execExpectedRowArrive, onBlock_live hs.1 hs.2]
theorem exec_defectRecordWritten {k : Fin 2} (hl : s.ref.live h = true) : exec (.defectRecordWritten h k) s =
    .next { s with mem := s.mem.applyAll (s.dev.ringWritten s.ref h k).1, dev := (s.dev.ringWritten s.ref h k).2 } := by
  unfold exec
  dsimp only
  rw [execDefectRecordWritten, onMem_eq, if_pos hl]
variable {k : Fin 2} (hl : s.ref.live h = true)
include hl
theorem exec_lpeBankCopyDone (hc : s.dev.clocked (lpeL h k) = true) : exec (.lpeBankCopyDone h k) s = .next { s with dev := s.dev.lpeCopied h k } := by
  unfold exec
  dsimp only
  rw [execLpeBankCopyDone, onBlock_live hl hc]
variable (hsole : s.sole h) (v : Word)
include hsole
theorem exec_lpeTableWrite (knot : Bool) : exec (.lpeTableWrite h k knot v) s = .next { s with dev := (s.dev.seq (lpeL h k)).lpeTable h k knot v } :=
  forwarded_lpe hl hsole fun h d => d.lpeTable h k knot v
theorem exec_lpeRingRdWrite : exec (.lpeRingRdWrite h k v) s = .next { s with dev := (s.dev.seq (lpeL h k)).ringRd h k v } :=
  forwarded_lpe hl hsole fun h d => d.ringRd h k v
theorem exec_lpeTlogWrite (hi : Bool) : exec (.lpeTlogWrite h k hi v) s = .next { s with dev := (s.dev.seq (lpeL h k)).tlogWrite h k hi v } :=
  forwarded_lpe hl hsole fun h d => d.tlogWrite h k hi v
end
/-- RD takes a value that leaves at most a ring of records, and no other (R261). -/
theorem Dev.ringRd_spec (d : Dev) (h : Half) (k : Nat) (v : Word) :
    ((d.g (lpeL h k) LPE_RING_WR.IDX + 2 ^ 21 - fget LPE_RING_RD.IDX v) % 2 ^ 21 ≤ 2 ^ d.g (lpeL h k) LPE_RING_CFG.LOG2 →
      ((d.seq (lpeL h k)).ringRd h k v).g (lpeL h k) LPE_RING_RD.IDX = fget LPE_RING_RD.IDX v ∧
      d.onlyRegs [lpeL h k + 0x03C, lpeL h k + LPE_RING_RD.IDX.off] ((d.seq (lpeL h k)).ringRd h k v)) ∧
    (d.clocked (lpeL h k) = true → 2 ^ d.g (lpeL h k) LPE_RING_CFG.LOG2 < (d.g (lpeL h k) LPE_RING_WR.IDX + 2 ^ 21 - fget LPE_RING_RD.IDX v) % 2 ^ 21 →
      ((d.seq (lpeL h k)).ringRd h k v).raised (lpeL h k) 7 ∧ d.onlyRegs [lpeL h k + 0x03C] ((d.seq (lpeL h k)).ringRd h k v)) := by
  unfold Dev.ringRd
  dsimp only
  rw [Dev.g_seq_lpe d h k (by decide) (by decide), Dev.g_seq_lpe d h k (by decide) (by decide)]
  refine ⟨fun hle => ?_, fun hc hlt => ?_⟩
  · rw [if_neg (Nat.not_lt.mpr hle)]
    exact ⟨(Dev.g_p_same _ _ _ _ (by decide)).trans (Nat.mod_eq_of_lt (fget_lt ..)), Dev.seq_wr_onlyRegs ..⟩
  · rw [if_pos hlt]
    exact d.wrej_spec h k hc
/-- The travel log's base takes a write while the pipe is disabled (R252). -/
theorem Dev.tlogWrite_spec (d : Dev) (h : Half) (k : Nat) (hi : Bool) (v : Word) :
    (d.clocked (lpeL h k) = false →
      ((d.seq (lpeL h k)).tlogWrite h k hi v).rd (lpeL h k) (if hi then LPE_TLOG_HI.BASE.off else LPE_TLOG_LO.BASE.off) = (if hi then v &&& 0xFF else v &&& 0xFFFFF01F) ∧
      d.onlyRegs [lpeL h k + 0x03C, lpeL h k + (if hi then LPE_TLOG_HI.BASE.off else LPE_TLOG_LO.BASE.off)] ((d.seq (lpeL h k)).tlogWrite h k hi v)) ∧
    (d.clocked (lpeL h k) = true →
      ((d.seq (lpeL h k)).tlogWrite h k hi v).raised (lpeL h k) 7 ∧ d.onlyRegs [lpeL h k + 0x03C] ((d.seq (lpeL h k)).tlogWrite h k hi v)) := by
  have hclocked : (d.seq (lpeL h k)).clocked (lpeL h k) = d.clocked (lpeL h k) := d.on_seq_lpe h k (by decide) (by decide)
  unfold Dev.tlogWrite
  dsimp only
  rw [hclocked]
  refine ⟨fun hc => ?_, fun hc => ?_⟩
  · rw [if_neg (by rw [hc]; exact Bool.false_ne_true)]
    cases hi <;> exact ⟨Dev.rd_wr_same .., Dev.seq_wr_onlyRegs ..⟩
  · rw [if_pos hc]
    exact d.wrej_spec h k hc
/-- A dropped write of a table window (R247). -/
theorem Dev.tableDropped_spec (d : Dev) (h : Half) (k : Nat) (knot : Bool) (v : Word) (hc : d.clocked (lpeL h k) = true)
    (hno : (d.on (lpeL h k) PG_COMMIT.PENDING || (d.pipe h k).copying) = true) :
    ((d.seq (lpeL h k)).lpeTable h k knot v).raised (lpeL h k) 7 ∧ d.onlyRegs [lpeL h k + 0x03C] ((d.seq (lpeL h k)).lpeTable h k knot v) := by
  rw [Dev.lpeTable_dropped knot v (by rw [Dev.on_seq_lpe d h k (by decide) (by decide), Dev.pipe_seq_lpe]; exact hno)]
  exact d.wrej_spec h k hc
section
variable {d : Dev} {h : Half} {k : Nat} (v : Word) (hp : d.on (lpeL h k) PG_COMMIT.PENDING = false) (hcopy : (d.pipe h k).copying = false)
include hp hcopy
/-- A write of the flat field's window (R247). -/
theorem Dev.flatWritten_spec : (((d.seq (lpeL h k)).lpeTable h k false v).pipe h k) = (d.pipe h k).entryWritten false (d.g (lpeL h k) LPE_FFW_IDX.IDX) v ∧
    d.regsKept [lpeL h k + 0x03C, lpeL h k + LPE_FFW_IDX.IDX.off] ((d.seq (lpeL h k)).lpeTable h k false v) := by
  rw [(Dev.lpeTable_taken v (by rw [Dev.on_seq_lpe d h k (by decide) (by decide)]; exact hp) (by rw [Dev.pipe_seq_lpe]; exact hcopy)).1,
    Dev.g_seq_lpe d h k (by decide) (by decide)]
  exact d.entryStep_spec h k _ LPE_FFW_IDX.IDX _ _
/-- A write of the knots' window (R247). -/
theorem Dev.knotWritten_spec (hi : d.g (lpeL h k) LPE_KNW_IDX.IDX ≤ 64) :
    (((d.seq (lpeL h k)).lpeTable h k true v).pipe h k) = (d.pipe h k).entryWritten true (d.g (lpeL h k) LPE_KNW_IDX.IDX) v ∧
    d.regsKept [lpeL h k + 0x03C, lpeL h k + LPE_KNW_IDX.IDX.off] ((d.seq (lpeL h k)).lpeTable h k true v) := by
  have hidx : (d.seq (lpeL h k)).g (lpeL h k) LPE_KNW_IDX.IDX = d.g (lpeL h k) LPE_KNW_IDX.IDX := Dev.g_seq_lpe d h k (by decide) (by decide)
  rw [(Dev.lpeTable_taken v (by rw [Dev.on_seq_lpe d h k (by decide) (by decide)]; exact hp) (by rw [Dev.pipe_seq_lpe]; exact hcopy)).2 (hidx.trans_le hi), hidx]
  exact d.entryStep_spec h k _ LPE_KNW_IDX.IDX _ _
end
end Sys2Proof.Machine
open Sys2Proof Sys2Proof.Machine

/-- Settles O31: a row that closes keeps its view of counters and reports through the rules of the window and the records put in the ring, a Loupe
request is carried through by the engine's view of it, and a record is stored by the reasoning rule of an aligned store. -/
theorem pipesCloseRowsByTheirTables : Obligations.PipesCloseRowsByTheirTables := by
  unfold Obligations.PipesCloseRowsByTheirTables
  refine ⟨fun s h => ⟨fun k o hs hrun ho => ?_, fun e hs => ⟨fun q rest hl hq hc hd ht hm => ?_, fun hd => ?_, fun q hl => ⟨fun hc => ?_, fun y hc => ⟨fun hd => ?_, fun hd => ?_⟩⟩⟩,
      fun k r rest hl hr => ?_⟩,
    fun s h k v hl hsole => ⟨fun knot hc hno => ?_, fun hp hcopy => ?_, fun hp hcopy hi => ?_, fun hc hcopy => ?_, fun hle => ?_, fun hc hlt => ?_,
      fun hi => ⟨fun hc => ?_, fun hc => ?_⟩⟩⟩
  · exact ⟨_, exec_loupeRowTimeout hs hrun, rfl, rfl, Dev.closeRow_spec true hs.2 ho⟩
  · exact ⟨_, exec_loupeRenderRequest hs, rfl, rfl, Dev.loupeTake_spec s.mem e.isLt hl hq hc hd ht hm⟩
  · rw [exec_loupeRenderRequest hs, Dev.loupeTake_busy s.mem hd]
  · obtain ⟨hnone, -, hpipe, hon, hkept⟩ := s.dev.loupeTold_spec h e q.pipe (fun x => x.loseRow q.row)
    rw [exec_expectedRowArrive hs, Dev.loupeDone_absent hl hc]
    refine ⟨_, rfl, rfl, rfl, hnone, ?_, ?_, hon, hkept⟩
    · rw [hpipe]
      exact mem_addNew _ _
    · rw [hpipe]
      rfl
  · obtain ⟨hnone, hlcur, hpipe, hon, hkept⟩ := s.dev.loupeTold_spec h e q.pipe
      (fun x => x.takeRow ⟨q.row, ((s.dev.eng h e).row y).1, ((s.dev.eng h e).row y).2⟩)
    rw [exec_expectedRowArrive hs, Dev.loupeDone_drawn hl hc hd]
    refine ⟨_, rfl, rfl, rfl, hnone, hlcur, ?_, hon, hkept⟩
    rw [hpipe]
    exact Pipe.mem_takeRow _ _
  · rw [exec_expectedRowArrive hs, Dev.loupeDone_waits hl hc hd]
  · exact ⟨_, exec_defectRecordWritten hl, rfl, Dev.ringWritten_spec s.mem k.isLt hr⟩
  · exact ⟨_, exec_lpeTableWrite hl hsole v knot, rfl, rfl, s.dev.tableDropped_spec h k knot v hc hno⟩
  · obtain ⟨hpipe, hkept⟩ := Dev.flatWritten_spec v hp hcopy
    obtain ⟨hff, hkn, hknS, hbank⟩ := (s.dev.pipe h k).entryWritten_ff (s.dev.g (lpeL h k) LPE_FFW_IDX.IDX) v
    refine ⟨_, exec_lpeTableWrite hl hsole v false, rfl, rfl, ?_⟩
    rw [hpipe]
    exact ⟨hff, hkn, hknS, hbank, hkept⟩
  · obtain ⟨hpipe, hkept⟩ := Dev.knotWritten_spec v hp hcopy hi
    obtain ⟨hff, hkn, hbank⟩ := (s.dev.pipe h k).entryWritten_kn (s.dev.g (lpeL h k) LPE_KNW_IDX.IDX) v
    refine ⟨_, exec_lpeTableWrite hl hsole v true, rfl, rfl, ?_⟩
    rw [hpipe]
    exact ⟨hff, hkn, hbank, hkept⟩
  · exact ⟨_, exec_lpeBankCopyDone hl hc, rfl, rfl, Dev.lpeCopied_spec hcopy⟩
  · exact ⟨_, exec_lpeRingRdWrite hl hsole v, rfl, rfl, (s.dev.ringRd_spec h k v).1 hle⟩
  · exact ⟨_, exec_lpeRingRdWrite hl hsole v, rfl, rfl, (s.dev.ringRd_spec h k v).2 hc hlt⟩
  · exact ⟨_, exec_lpeTlogWrite hl hsole v hi, rfl, rfl, (s.dev.tlogWrite_spec h k hi v).1 hc⟩
  · exact ⟨_, exec_lpeTlogWrite hl hsole v hi, rfl, rfl, (s.dev.tlogWrite_spec h k hi v).2 hc⟩
end

section
/-! The gather of a rendered row into the queues (R150–R157), and the row-state record (R129, R130). -/
namespace Sys2Proof.Machine

open Sys2Proof

/-! ### What a gather leaves alone -/

/-- The registers that the gather of a channel counts in. -/
def gatherKey (h : Half) (k : Nat) : Prop :=
  errKey k ∨ k = hLoc h .hrn + 0x820 ∨ k = hLoc h .hrn + 0x824 ∨ k = hLoc h .hrn + 0x828 ∨ k = hLoc h .aeq + 0x830 ∨ k = hLoc h .aeq + 0x838
/-- Of the units that do the machine's work only the queues changed, and of the registers only counters. -/
def Dev.laneKept (h : Half) (d e : Dev) : Prop := e.engines = d.engines ∧ d.regsOff (gatherKey h) e

section
variable {h : Half} {d e f : Dev}
theorem Dev.laneKept_refl (h : Half) (d : Dev) : Dev.laneKept h d d := ⟨rfl, Dev.regsOff_refl _ d⟩
theorem Dev.laneKept_trans (h1 : Dev.laneKept h d e) (h2 : Dev.laneKept h e f) : Dev.laneKept h d f := ⟨h2.1.trans h1.1, Dev.regsOff_trans h1.2 h2.2⟩
theorem Dev.laneKept_of_onlyOff (ho : d.onlyOff (gatherKey h) e) : Dev.laneKept h d e := ⟨Dev.engines_of_quiet ho.1, ho.2⟩
theorem Dev.laneKept_of_errsOnly (he : d.errsOnly e) : Dev.laneKept h d e := ⟨Dev.engines_of_bare he.1, Dev.regsOff_mono (fun _ hk => .inl hk) he.2⟩
theorem Dev.laneKept_of_units (he : e.engines = d.engines) (hr : e.regs = d.regs) : Dev.laneKept h d e := ⟨he, Dev.regsOff_of_regs hr⟩
theorem Dev.laneKept_count (d : Dev) {l : Loc} {f : Fld} (n : Nat) (hl : l % 0x100000 = 0) (hk : gatherKey h (l + f.off)) : d.onlyOff (gatherKey h) ((d.sat l f).raise l n) :=
  Dev.onlyOff_trans (Dev.onlyOff_sat d 1 hk) (Dev.onlyOff_raise _ _ hl n)
end

/-- The counters' offsets lie in 0x820 to 0x838. -/
theorem gatherKey_offset {h : Half} {k : Nat} (hk : gatherKey h k) : errKey k ∨ 0x820 ≤ k % 0x100000 ∧ k % 0x100000 ≤ 0x838 := by
  have hhrn := hLoc_page h .hrn 0
  have haeq := hLoc_page h .aeq 0
  rcases hk with hk | hk
  · exact .inl hk
  · refine .inr ?_
    generalize hLoc h .hrn = a at hhrn hk
    generalize hLoc h .aeq = b at haeq hk
    unfold Loc at *
    omega
theorem not_gatherKey_row (h : Half) {e o : Nat} (he : e < 8) (ho : o < 0x100000) (hoff : 0x838 < o) : ¬ gatherKey h (rowL h e + o) := fun hk => by
  have hrow := rowL_page h e
  rcases gatherKey_offset hk with hk | hk
  · exact not_errKey_row h he ho (by omega) hk
  · unfold Loc at *
    omega
theorem rlkPage_lt (h : Half) {p : Nat} (hp : p < 64) : pageOf h.n .rlk p % 4096 < 0x68 ∧ pageOf h.n .rlk p < 0x2000 := by
  have hreg : h.n < 2 := by cases h <;> decide
  rw [pageOf_rlk h hp]
  omega
theorem not_gatherKey_rbeam (h : Half) {p : Nat} (hp : p < 64) : ¬ gatherKey h (hLoc h .rlk p + 0x040) := fun hk => by
  obtain ⟨hlow, hreg⟩ := rlkPage_lt h hp
  have hmod : (hLoc h .rlk p + 0x040) % 0x100000 = 0x040 := locOf_add_mod (pageOf h.n .rlk p) (by decide)
  have hdiv : (hLoc h .rlk p + 0x040) / 0x100000 = pageOf h.n .rlk p := locOf_add_div (pageOf h.n .rlk p) (by decide)
  rcases gatherKey_offset hk with hk | hk
  · unfold errKey at hk
    rw [hmod, hdiv] at hk
    omega
  · rw [hmod] at hk
    omega

/-! ### One channel -/

/-- A queue after its channel's gather (R156, R157). -/
def queueAfter (q : List QEv) (ctx key : Nat) (clear : Bool) (r : GRes) : List QEv :=
  match r with
  | .ev v => if q.length < 8 then q ++ [⟨v, false, 0, ctx, key, clear⟩] else q
  | _ => q
theorem queueAfter_none (q : List QEv) (ctx key : Nat) (clear : Bool) : queueAfter q ctx key clear .none = q := rfl
/-- The channels after a change of one channel at most, with that one's queue. -/
def Dev.chanStep (h : Half) (d e : Dev) (ch : Nat) (q : List QEv) : Prop :=
  (e.chan h ch).q = q ∧ ∀ i, i < 65536 → i ≠ ch → e.chan h i = d.chan h i

theorem Dev.chan_of_chans {d e : Dev} (hc : e.chans = d.chans) (h : Half) (i : Nat) : e.chan h i = d.chan h i := by
  unfold Dev.chan
  rw [hc]
theorem Dev.chanStep_of_chans {h : Half} {d e : Dev} (hc : e.chans = d.chans) (ch : Nat) : Dev.chanStep h d e ch (d.chan h ch).q :=
  ⟨by rw [Dev.chan_of_chans hc], fun i _ _ => Dev.chan_of_chans hc h i⟩
theorem Dev.chanStep_modChan (h : Half) (d : Dev) {ch : Nat} (hch : ch < 65536) (f : Chan → Chan) :
    Dev.chanStep h d (d.modChan h ch f) ch (f (d.chan h ch)).q :=
  ⟨by rw [Dev.chan_modChan_same], fun _ hi hne => Dev.chan_modChan_ne _ _ _ _ _ _ hch hi (.inr hne)⟩
theorem Dev.chanStep_then {h : Half} {d e f : Dev} {ch : Nat} {q : List QEv} (h1 : Dev.chanStep h d e ch q) (hc : f.chans = e.chans) : Dev.chanStep h d f ch q :=
  ⟨by rw [Dev.chan_of_chans hc]; exact h1.1, fun i hi hne => (Dev.chan_of_chans hc h i).trans (h1.2 i hi hne)⟩

theorem Dev.enqueue_spec (d : Dev) (h : Half) {ch : Nat} (x : QEv) (hch : ch < 65536) :
    Dev.chanStep h d (d.enqueue h ch x) ch (if (d.chan h ch).q.length < 8 then (d.chan h ch).q ++ [x] else (d.chan h ch).q) ∧ Dev.laneKept h d (d.enqueue h ch x) := by
  unfold Dev.enqueue
  dsimp only
  by_cases hfull : 8 ≤ (d.chan h ch).q.length
  · rw [if_pos hfull, if_neg (Nat.not_lt.mpr hfull)]
    have hdrop := Dev.chanStep_modChan h d hch (fun x => { x with drop := (x.drop + 1) % 2 ^ 32 })
    have hunits : Dev.laneKept h d (d.modChan h ch (fun x => { x with drop := (x.drop + 1) % 2 ^ 32 })) :=
      Dev.laneKept_of_units (Dev.modChan_engines ..) (Dev.modChan_regs ..)
    generalize d.modChan h ch (fun x => { x with drop := (x.drop + 1) % 2 ^ 32 }) = y at hdrop hunits
    have hcount : y.onlyOff (gatherKey h) ((y.sat (hLoc h .aeq) AEQ_QFULL.COUNT).raise (hLoc h .aeq) 0) :=
      y.laneKept_count 0 (hLoc_page h .aeq 0) (.inr (.inr (.inr (.inr (.inl rfl)))))
    generalize (y.sat (hLoc h .aeq) AEQ_QFULL.COUNT).raise (hLoc h .aeq) 0 = z at hcount
    have hz := Dev.chanStep_then hdrop (Dev.chans_of_quiet hcount.1)
    have hkept := Dev.laneKept_trans hunits (Dev.laneKept_of_onlyOff hcount)
    split
    · have hrep := z.errsOnly_reportP h 0x08 ch (hLoc h .aeq)
      exact ⟨Dev.chanStep_then hz (Dev.chans_of_bare hrep.1), Dev.laneKept_trans hkept (Dev.laneKept_of_errsOnly hrep)⟩
    · exact ⟨hz, hkept⟩
  · rw [if_neg hfull, if_pos (Nat.lt_of_not_le hfull)]
    have hput := Dev.chanStep_modChan h d hch (fun y => { y with q := y.q ++ [x], enq := (y.enq + 1) % 2 ^ 32 })
    have hunits : Dev.laneKept h d (d.modChan h ch (fun y => { y with q := y.q ++ [x], enq := (y.enq + 1) % 2 ^ 32 })) :=
      Dev.laneKept_of_units (Dev.modChan_engines ..) (Dev.modChan_regs ..)
    generalize d.modChan h ch (fun y => { y with q := y.q ++ [x], enq := (y.enq + 1) % 2 ^ 32 }) = y at hput hunits
    split
    · have hcand := y.candidate_onlyOff h ch
      exact ⟨Dev.chanStep_then hput (Dev.chans_of_quiet hcand.1), Dev.laneKept_trans hunits
        (Dev.laneKept_of_onlyOff (Dev.onlyOff_mono (fun _ hk => .inr (.inr (.inr (.inr (.inr hk))))) hcand))⟩
    · exact ⟨hput, hunits⟩

theorem Dev.gatherPut_spec (d : Dev) (h : Half) (phys ctx key : Nat) (clear : Bool) (r : Nat × GRes) (hch : r.1 < 65536) :
    Dev.chanStep h d (d.gatherPut h phys ctx key clear r) r.1 (queueAfter (d.chan h r.1).q ctx key clear r.2) ∧
    Dev.laneKept h d (d.gatherPut h phys ctx key clear r) := by
  obtain ⟨ch, res⟩ := r
  cases res with
  | none => exact ⟨Dev.chanStep_of_chans rfl ch, Dev.laneKept_refl h d⟩
  | masked =>
    have hcount : d.onlyOff (gatherKey h) (d.sat (hLoc h .hrn) HRN_GMASKED.COUNT) := Dev.onlyOff_sat d 1 (.inr (.inr (.inl rfl)))
    exact ⟨Dev.chanStep_of_chans (Dev.chans_of_quiet hcount.1) ch, Dev.laneKept_of_onlyOff hcount⟩
  | mis =>
    have hcount : d.onlyOff (gatherKey h) ((d.sat (hLoc h .hrn) HRN_CERR.BEAMMIS).raise (hLoc h .hrn) 1) :=
      d.laneKept_count 1 (hLoc_page h .hrn 0) (.inr (.inl rfl))
    exact ⟨Dev.chanStep_of_chans (Dev.chans_of_quiet hcount.1) ch, Dev.laneKept_of_onlyOff hcount⟩
  | ue =>
    have hcount : d.onlyOff (gatherKey h) ((d.sat (hLoc h .hrn) HRN_UE.COUNT).raise (hLoc h .hrn) 3) :=
      d.laneKept_count 3 (hLoc_page h .hrn 0) (.inr (.inr (.inr (.inl rfl))))
    unfold Dev.gatherPut
    dsimp only
    generalize (d.sat (hLoc h .hrn) HRN_UE.COUNT).raise (hLoc h .hrn) 3 = y at hcount
    have hue := y.errsOnly_eccUe h (pageOf h.n .hrn 0) 0 (phys * 32768 + ch / 2) true ch
    exact ⟨Dev.chanStep_of_chans ((Dev.chans_of_bare hue.1).trans (Dev.chans_of_quiet hcount.1)) ch,
      Dev.laneKept_trans (Dev.laneKept_of_onlyOff hcount) (Dev.laneKept_of_errsOnly hue)⟩
  | ev v => exact d.enqueue_spec h _ hch

/-! ### One segment -/

/-- A gather of a list of channels, each of them once. -/
theorem Dev.gatherPuts_spec (h : Half) (phys ctx key : Nat) (clear : Bool) (rs : List (Nat × GRes)) (d : Dev) (hlt : ∀ r ∈ rs, r.1 < 65536)
    (hnd : (rs.map Prod.fst).Nodup) :
    Dev.laneKept h d (rs.foldl (fun y r => y.gatherPut h phys ctx key clear r) d) ∧
    (∀ r ∈ rs, ((rs.foldl (fun y r => y.gatherPut h phys ctx key clear r) d).chan h r.1).q = queueAfter (d.chan h r.1).q ctx key clear r.2) ∧
    ∀ i, i < 65536 → i ∉ rs.map Prod.fst → (rs.foldl (fun y r => y.gatherPut h phys ctx key clear r) d).chan h i = d.chan h i := by
  induction rs generalizing d with
  | nil => exact ⟨Dev.laneKept_refl h d, fun _ hr => absurd hr List.not_mem_nil, fun _ _ _ => rfl⟩
  | cons r rs ih =>
    obtain ⟨⟨hq, hrest⟩, hkept⟩ := d.gatherPut_spec h phys ctx key clear r (hlt r (List.mem_cons_self ..))
    rw [List.map_cons, List.nodup_cons] at hnd
    obtain ⟨hfresh, hnd⟩ := hnd
    rw [List.foldl_cons]
    generalize d.gatherPut h phys ctx key clear r = y at hq hrest hkept
    obtain ⟨hkept', hin, hout⟩ := ih y (fun x hx => hlt x (List.mem_cons_of_mem _ hx)) hnd
    refine ⟨Dev.laneKept_trans hkept hkept', fun x hx => ?_, fun i hi hni => ?_⟩
    · rcases List.mem_cons.mp hx with rfl | hx
      · rw [hout _ (hlt _ (List.mem_cons_self ..)) hfresh, hq]
      · have hne : x.1 ≠ r.1 := fun he => hfresh (he ▸ List.mem_map_of_mem hx)
        rw [hin x hx, hrest x.1 (hlt x (List.mem_cons_of_mem _ hx)) hne]
    · rw [List.map_cons, List.mem_cons, not_or] at hni
      rw [hout i hi hni.2, hrest i hi hni.1]

/-- A channel of a segment that the gather takes stands in its results. -/
theorem mem_gatherSeg {d : Dev} {h : Half} {e : Nat} {g : GSrc} {seg : Nat} {r : Nat × GRes} :
    r ∈ gatherSeg d h e g seg ↔ r.1 / 1024 = seg ∧ takesPart g.due e r.1 = true ∧ r.2 = gatherCh d h e g r.1 := by
  unfold gatherSeg
  rw [List.mem_filterMap]
  constructor
  · rintro ⟨i, hi, hr⟩
    have hi := List.mem_range.mp hi
    split at hr
    · next htake =>
      cases hr
      exact ⟨by dsimp only; omega, htake, rfl⟩
    · cases hr
  · rintro ⟨hseg, htake, hres⟩
    have hch : 1024 * seg + r.1 % 1024 = r.1 := by omega
    refine ⟨r.1 % 1024, List.mem_range.mpr (Nat.mod_lt _ (by decide)), ?_⟩
    rw [hch, if_pos htake, ← hres]
theorem gatherSeg_nodup (d : Dev) (h : Half) (e : Nat) (g : GSrc) (seg : Nat) : ((gatherSeg d h e g seg).map Prod.fst).Nodup := by
  have hmap : (gatherSeg d h e g seg).map Prod.fst = ((List.range 1024).map (fun i => 1024 * seg + i)).filter (fun c => takesPart g.due e c) := by
    unfold gatherSeg
    rw [List.map_filterMap, List.filter_map, ← List.filterMap_eq_filter, List.map_filterMap]
    refine List.filterMap_congr fun i _ => ?_
    by_cases ht : takesPart g.due e (1024 * seg + i) = true
    · simp [ht]
    · simp [ht]
  rw [hmap]
  refine List.Nodup.filter _ (List.Nodup.map (fun a b hab => ?_) List.nodup_range)
  omega
/-- The result for a channel, where the gather of the segment takes it. -/
def segRes (d : Dev) (h : Half) (e : Nat) (g : GSrc) (seg ch : Nat) : GRes := if ch / 1024 = seg ∧ takesPart g.due e ch = true then gatherCh d h e g ch else .none

/-- The channels' results first, then the job of the seal unit. -/
theorem Dev.gatherPutSeg_eq (d : Dev) (r : Referee) (h : Half) (e : Nat) (g : GSrc) (key0 seg : Nat) : ∃ jobs : SealUnit → SealUnit,
    d.gatherPutSeg r h e g key0 seg = if r.split
      then (gatherSeg d h e g seg).foldl (fun y c => y.gatherPut h g.due.phys (32 * e + g.due.ctx) (key0 + seg * 2 ^ 8) (!r.gated h) c) d
      else ((gatherSeg d h e g seg).foldl (fun y c => y.gatherPut h g.due.phys (32 * e + g.due.ctx) (key0 + seg * 2 ^ 8) (!r.gated h) c) d).modSeal h jobs :=
  ⟨_, rfl⟩
theorem Dev.gatherPutSeg_spec (d : Dev) (r : Referee) (h : Half) (e : Nat) (g : GSrc) (key0 : Nat) {seg : Nat} (hseg : seg < 64) :
    Dev.laneKept h d (d.gatherPutSeg r h e g key0 seg) ∧
    (∀ ch, ch < 65536 → ch / 1024 ≠ seg → (d.gatherPutSeg r h e g key0 seg).chan h ch = d.chan h ch) ∧
    ∀ ch, ch < 65536 → ((d.gatherPutSeg r h e g key0 seg).chan h ch).q =
      queueAfter (d.chan h ch).q (32 * e + g.due.ctx) (key0 + seg * 2 ^ 8) (!r.gated h) (segRes d h e g seg ch) := by
  obtain ⟨hkept, hin, hout⟩ := Dev.gatherPuts_spec h g.due.phys (32 * e + g.due.ctx) (key0 + seg * 2 ^ 8) (!r.gated h) (gatherSeg d h e g seg) d
    (fun x hx => by have := (mem_gatherSeg.mp hx).1; omega) (gatherSeg_nodup d h e g seg)
  have hother (ch : Nat) (hch : ch < 65536) (hno : ¬(ch / 1024 = seg ∧ takesPart g.due e ch = true)) := hout ch hch fun hm => by
    obtain ⟨x, hx, rfl⟩ := List.mem_map.mp hm
    obtain ⟨hs, ht, -⟩ := mem_gatherSeg.mp hx
    exact hno ⟨hs, ht⟩
  obtain ⟨jobs, heq⟩ := d.gatherPutSeg_eq r h e g key0 seg
  rw [heq]
  generalize (gatherSeg d h e g seg).foldl (fun y c => y.gatherPut h g.due.phys (32 * e + g.due.ctx) (key0 + seg * 2 ^ 8) (!r.gated h) c) d = y at hkept hin hother
  have hspec : Dev.laneKept h d y ∧ (∀ ch, ch < 65536 → ch / 1024 ≠ seg → y.chan h ch = d.chan h ch) ∧
      ∀ ch, ch < 65536 → (y.chan h ch).q = queueAfter (d.chan h ch).q (32 * e + g.due.ctx) (key0 + seg * 2 ^ 8) (!r.gated h) (segRes d h e g seg ch) := by
    refine ⟨hkept, fun ch hch hne => hother ch hch fun hc => hne hc.1, fun ch hch => ?_⟩
    unfold segRes
    by_cases htake : ch / 1024 = seg ∧ takesPart g.due e ch = true
    · rw [if_pos htake]
      exact hin (ch, gatherCh d h e g ch) (mem_gatherSeg.mpr ⟨htake.1, htake.2, rfl⟩)
    · rw [if_neg htake, hother ch hch htake, queueAfter_none]
  split
  · exact hspec
  · have hmod (f : SealUnit → SealUnit) : (y.modSeal h f).chans = y.chans := Dev.modSeal_chans ..
    refine ⟨Dev.laneKept_trans hspec.1 (Dev.laneKept_of_units (Dev.modSeal_engines ..) (Dev.modSeal_regs ..)), fun ch hch hne => ?_, fun ch hch => ?_⟩
    · exact (Dev.chan_of_chans (hmod _) h ch).trans (hspec.2.1 ch hch hne)
    · rw [Dev.chan_of_chans (hmod _)]
      exact hspec.2.2 ch hch

/-! ### A row -/

/-- What a gather reads of a channel: its reference state and the registers of the engine and of the port. -/
theorem gatherCh_congr {d e : Dev} {h : Half} {i : Nat} (hi : i < 8) {x : Due} {codes bad : List Nat} {ka pa ch : Nat} (hch : ch < 65536) (ht : takesPart x i ch = true)
    (hregs : d.regsOff (gatherKey h) e) (hchan : e.chan h ch = d.chan h ch) :
    gatherCh e h i ⟨x, codes, ka, pa, fun c => (e.chan h c).ref, bad⟩ ch = gatherCh d h i ⟨x, codes, ka, pa, fun c => (d.chan h c).ref, bad⟩ ch := by
  have hctx : x.ctx < 256 := by
    unfold takesPart enCtx at ht
    simp only [Bool.and_eq_true, beq_iff_eq] at ht
    omega
  have hoff : (ROW_XCFG.RSHIFT.ix x.ctx).off = 0xB80 + 4 * x.ctx := rfl
  have hshift : e.g (rowL h i) (ROW_XCFG.RSHIFT.ix x.ctx) = d.g (rowL h i) (ROW_XCFG.RSHIFT.ix x.ctx) :=
    Dev.g_of_regsOff hregs (not_gatherKey_row h hi (by omega) (by omega)) (evReg_row h hi (by omega) (by omega) (by omega))
  have hbeam : e.rbeam h (ch / 1024) = d.rbeam h (ch / 1024) :=
    Dev.g_of_regsOff hregs (not_gatherKey_rbeam h (by omega)) (evReg_header _ (by decide) (by decide) (by decide))
  unfold gatherCh
  simp only [hshift, hbeam, hchan]

/-- The lane's gather of segments of a row, each of them once. -/
theorem Dev.gatherSegs_spec (r : Referee) (h : Half) {e : Nat} (he : e < 8) (x : Due) (g : Gath) (segs : List Nat) (d : Dev) (hlt : ∀ s ∈ segs, s < 64) (hnd : segs.Nodup) :
    Dev.laneKept h d (d.gatherSegs r h e x g segs) ∧
    ∀ ch, ch < 65536 → ((d.gatherSegs r h e x g segs).chan h ch).q = queueAfter (d.chan h ch).q (32 * e + x.ctx) (g.key + ch / 1024 * 2 ^ 8) (!r.gated h)
      (if segs.contains (ch / 1024) && takesPart x e ch then gatherCh d h e ⟨x, g.codes, g.ka, g.pa, fun c => (d.chan h c).ref, g.bad⟩ ch else .none) := by
  induction segs generalizing d with
  | nil =>
    refine ⟨Dev.laneKept_refl h d, fun ch _ => ?_⟩
    rw [List.contains_nil, Bool.false_and, if_neg Bool.false_ne_true]
    rfl
  | cons s segs ih =>
    obtain ⟨hfresh, hnd⟩ := List.nodup_cons.mp hnd
    obtain ⟨hkept, hother, hq⟩ := d.gatherPutSeg_spec r h e ⟨x, g.codes, g.ka, g.pa, fun c => (d.chan h c).ref, g.bad⟩ g.key (hlt s (List.mem_cons_self ..))
    unfold Dev.gatherSegs
    rw [List.foldl_cons]
    generalize d.gatherPutSeg r h e ⟨x, g.codes, g.ka, g.pa, fun c => (d.chan h c).ref, g.bad⟩ g.key s = y at hkept hother hq
    obtain ⟨hkept', hq'⟩ := ih y (fun i hi => hlt i (List.mem_cons_of_mem _ hi)) hnd
    refine ⟨Dev.laneKept_trans hkept hkept', fun ch hch => (hq' ch hch).trans ?_⟩
    by_cases hs : ch / 1024 = s
    · have hnot : segs.contains (ch / 1024) = false := by simpa [hs] using hfresh
      have hyes : (s :: segs).contains (ch / 1024) = true := by simp [hs]
      rw [hnot, hyes, Bool.false_and, Bool.true_and, if_neg Bool.false_ne_true, hq ch hch, hs]
      refine (queueAfter_none ..).trans (congrArg _ ?_)
      unfold segRes
      simp only [hs, true_and]
    · rw [hother ch hch hs]
      have hcons : (s :: segs).contains (ch / 1024) = segs.contains (ch / 1024) := by simp [hs]
      rw [hcons]
      by_cases ht : takesPart x e ch = true
      · rw [gatherCh_congr he hch ht hkept.2 (hother ch hch hs)]
      · simp [ht]

/-! ### GATHER_START -/

theorem sealKey_seg (d : Dev) (h : Half) (e : Nat) (x : Due) (kind : RKind) (rev : Bool) (seg : Nat) :
    sealKey d h e x kind rev seg = sealKey d h e x kind rev 0 + seg * 2 ^ 8 := by
  unfold sealKey
  omega
theorem segsOf_nodup (v : Nat) : (segsOf v).Nodup := List.Nodup.filter _ List.nodup_range
theorem lt_of_mem_segsOf {v s : Nat} (hs : s ∈ segsOf v) : s < 64 := List.mem_range.mp (List.mem_filter.mp hs).1
theorem bit_eq_testBit (v i : Nat) : bit v i = v.testBit i := by simp [bit, Nat.testBit_eq_decide_div_mod_eq]
theorem bit_lane_set (v : Nat) {e : Nat} (he : e < 8) : bit ((v ||| 2 ^ e) % 2 ^ 8) e = true := by
  rw [bit_eq_testBit, Nat.testBit_mod_two_pow, Nat.testBit_or, Nat.testBit_two_pow_self]
  simp [he]
theorem bit_lane_clear (v : Nat) {e : Nat} (he : e < 8) : bit ((v &&& (255 - 2 ^ e)) % 2 ^ 8) e = false := by
  have hmask : (255 - 2 ^ e).testBit e = false := by
    revert he
    revert e
    decide
  rw [bit_eq_testBit, Nat.testBit_mod_two_pow, Nat.testBit_and, hmask, Bool.and_false, Bool.and_false]

/-- The entries that a gather finds uncorrectable now (R155). -/
def Dev.entriesLost (d : Dev) (h : Half) (phys : Nat) (bad : List Nat) : Dev :=
  { d with ueWords := (bad.flatMap (fun ch => [2 * (ch / 2), 2 * (ch / 2) + 1])).foldl (fun l ch =>
      if l.contains (pageOf h.n .hrn 0, phys, ch) then l else l ++ [(pageOf h.n .hrn 0, phys, ch)]) d.ueWords }
/-- What the lane of an engine knows of a row that it takes. -/
def Dev.gathOf (d : Dev) (h : Half) (e : Nat) (row : RRow) (bad : List Nat) : Gath :=
  ⟨row.codes, (d.cx h e row.due.ctx).ka, (d.cx h e row.due.ctx).pa, sealKey d h e row.due row.due.kind (row.due.kind == .reverse) 0,
    d.badEntries h row.due.phys bad, (segsOf row.due.segs).drop 1⟩
/-- The lane takes a row. -/
def Engine.laneTaken (g : Engine) (row : RRow) (rest : List RRow) (gt : Gath) : Engine :=
  { g with lane := some row.due, laneOff := false, gath := gt, ready := rest
           recs := if row.due.kind = .new then g.recs ++ [⟨row.due, row.fids, row.mdrop⟩] else g.recs }
/-- The lane shows in LANES. -/
def Dev.laneShown (d : Dev) (h : Half) (e : Nat) : Dev := d.p (hLoc h .hrn) HRN_STAT.LANES (d.g (hLoc h .hrn) HRN_STAT.LANES ||| 2 ^ e)
theorem Dev.entriesLost_units (d : Dev) (h : Half) (phys : Nat) (bad : List Nat) : (d.entriesLost h phys bad).regs = d.regs ∧
    (d.entriesLost h phys bad).chans = d.chans ∧ (d.entriesLost h phys bad).engines = d.engines := ⟨rfl, rfl, rfl⟩

section
variable {d : Dev} {h : Half} {e : Nat}
theorem Dev.gatherStart_eq {row : RRow} {rest : List RRow} (r : Referee) (bad : List Nat) (hre : (d.eng h e).renewing = false) (hl : (d.eng h e).lane = none)
    (hr : (d.eng h e).ready = row :: rest) : d.gatherStart r h e bad =
      (((d.entriesLost h row.due.phys bad).modEng h e (fun g => g.laneTaken row rest (d.gathOf h e row bad))).gatherSegs r h e row.due (d.gathOf h e row bad)
        ((segsOf row.due.segs).take 1)).laneShown h e := by
  unfold Dev.gatherStart
  dsimp only
  rw [hre, hl, hr]
  rfl
theorem Dev.gatherStart_spec (r : Referee) {row : RRow} {rest : List RRow} (bad : List Nat) (he : e < 8) (hre : (d.eng h e).renewing = false)
    (hl : (d.eng h e).lane = none) (hr : (d.eng h e).ready = row :: rest) :
    ((d.gatherStart r h e bad).eng h e).lane = some row.due ∧ ((d.gatherStart r h e bad).eng h e).ready = rest ∧
    bit ((d.gatherStart r h e bad).g (hLoc h .hrn) HRN_STAT.LANES) e = true ∧
    ∀ ch, ch < 65536 → ((d.gatherStart r h e bad).chan h ch).q = queueAfter (d.chan h ch).q (32 * e + row.due.ctx)
      (sealKey d h e row.due row.due.kind (row.due.kind == .reverse) (ch / 1024)) (!r.gated h)
      (if (segsOf row.due.segs).head? = some (ch / 1024) ∧ takesPart row.due e ch = true then gatherCh d h e ⟨row.due, row.codes, (d.cx h e row.due.ctx).ka,
        (d.cx h e row.due.ctx).pa, fun c => (d.chan h c).ref, d.badEntries h row.due.phys bad⟩ ch else .none) := by
  rw [Dev.gatherStart_eq r bad hre hl hr]
  obtain ⟨hregs, hchans, hengines⟩ := d.entriesLost_units h row.due.phys bad
  generalize d.entriesLost h row.due.phys bad = y at hregs hchans hengines
  have hgath : d.gathOf h e row bad = ⟨row.codes, (d.cx h e row.due.ctx).ka, (d.cx h e row.due.ctx).pa,
      sealKey d h e row.due row.due.kind (row.due.kind == .reverse) 0, d.badEntries h row.due.phys bad, (segsOf row.due.segs).drop 1⟩ := rfl
  generalize d.gathOf h e row bad = gt at hgath
  have heng : (y.modEng h e (fun g => g.laneTaken row rest gt)).eng h e = (y.eng h e).laneTaken row rest gt := Dev.eng_modEng_same ..
  have hregs' : (y.modEng h e (fun g => g.laneTaken row rest gt)).regs = d.regs := (Dev.modEng_regs ..).trans hregs
  have hchans' : (y.modEng h e (fun g => g.laneTaken row rest gt)).chans = d.chans := (Dev.modEng_chans ..).trans hchans
  generalize y.modEng h e (fun g => g.laneTaken row rest gt) = z at heng hregs' hchans'
  obtain ⟨hkept, hq⟩ := Dev.gatherSegs_spec r h he row.due gt ((segsOf row.due.segs).take 1) z (fun s hs => lt_of_mem_segsOf (List.mem_of_mem_take hs))
    ((segsOf_nodup _).take)
  generalize z.gatherSegs r h e row.due gt ((segsOf row.due.segs).take 1) = w at hkept hq
  unfold Dev.laneShown
  have hw : w.eng h e = (y.eng h e).laneTaken row rest gt := by
    rw [← heng]
    unfold Dev.eng
    rw [hkept.1]
  refine ⟨by rw [Dev.p_eng, hw]; rfl, by rw [Dev.p_eng, hw]; rfl, ?_, fun ch hch => ?_⟩
  · rw [Dev.g_p_same _ _ _ _ (by decide)]
    exact bit_lane_set _ he
  · rw [Dev.chan_of_chans (Dev.p_chans ..), hq ch hch, Dev.chan_of_chans hchans']
    have hkey : gt.key + ch / 1024 * 2 ^ 8 = sealKey d h e row.due row.due.kind (row.due.kind == .reverse) (ch / 1024) := by
      rw [hgath, sealKey_seg d h e _ _ _ (ch / 1024)]
    rw [hkey]
    refine congrArg (queueAfter _ _ _ _) ?_
    have hfirst : ((segsOf row.due.segs).take 1).contains (ch / 1024) = true ↔ (segsOf row.due.segs).head? = some (ch / 1024) := by
      cases segsOf row.due.segs with
      | nil => simp
      | cons s segs => simp [eq_comm]
    by_cases htake : (segsOf row.due.segs).head? = some (ch / 1024) ∧ takesPart row.due e ch = true
    · rw [if_pos htake, if_pos (by rw [hfirst.mpr htake.1, htake.2]; rfl), gatherCh_congr he hch htake.2 (Dev.regsOff_of_regs hregs') (Dev.chan_of_chans hchans' h ch), hgath]
    · rw [if_neg htake, if_neg (fun hc => htake ?_)]
      rw [Bool.and_eq_true] at hc
      exact ⟨hfirst.mp hc.1, hc.2⟩
end

/-! ### GATHER_COMPLETE -/

theorem Engine.lane_of_desk {g g' : Engine} (hd : g'.desk = g.desk) : g'.lane = g.lane := (congrArg Engine.lane hd : g'.desk.lane = g.desk.lane)
/-- The lane is free again. -/
def Engine.laneFreed (g : Engine) (x : Due) : Engine :=
  { g with lane := none, laneOff := false, gath := {}
           rrc := if g.laneOff then g.rrc.filter (fun y => y.gathered || y.due ≠ x) else g.rrc.map (fun y => if y.due = x then { y with gathered := true } else y) }
/-- An entry beyond W is counted (R153). -/
def Dev.rangeCounted (d : Dev) (h : Half) (err : Bool) : Dev := if err then (d.sat (hLoc h .hrn) HRN_CERR.COLRANGE).raise (hLoc h .hrn) 0 else d
/-- The lane is free again and shows so. -/
def Dev.laneEnds (d : Dev) (h : Half) (e : Nat) (x : Due) (cycles : Nat) : Dev :=
  let y := (d.maxF (hLoc h .hrn) HRN_MAXGATH.CYCLES cycles).modEng h e (fun g => g.laneFreed x)
  y.p (hLoc h .hrn) HRN_STAT.LANES (y.g (hLoc h .hrn) HRN_STAT.LANES &&& (255 - 2 ^ e))
/-- The word that says how far the lane of an abandoned row came (R81). -/
def Dev.laneWord (d : Dev) (off : Bool) : Word × Dev := if off then d.free else (0, d)
theorem Dev.laneWord_units (d : Dev) (off : Bool) : (d.laneWord off).2.regs = d.regs ∧ (d.laneWord off).2.chans = d.chans ∧ (d.laneWord off).2.engines = d.engines := by
  cases off <;> exact ⟨rfl, rfl, rfl⟩

section
variable {d : Dev} {h : Half} {e : Nat}
theorem Dev.gatherDone_free (r : Referee) (m : Mem) (hl : (d.eng h e).lane = none) : d.gatherDone r m h e = d := by
  unfold Dev.gatherDone
  dsimp only
  rw [hl]
theorem Dev.gatherDone_eq {x : Due} (r : Referee) (m : Mem) (hl : (d.eng h e).lane = some x) :
    ∃ k, k ≤ (d.eng h e).gath.segs.length ∧ ((d.eng h e).laneOff = false → k = (d.eng h e).gath.segs.length) ∧
      d.gatherDone r m h e =
        ((((d.laneWord (d.eng h e).laneOff).2.gatherSegs r h e x (d.eng h e).gath ((d.eng h e).gath.segs.take k)).rangeCounted h
          (x.rangeErr e (d.eng h e).gath.bad ((segsOf x.segs).take 1 ++ (d.eng h e).gath.segs.take k))).laneEnds h e x
          (24 * ((segsOf x.segs).take 1 ++ (d.eng h e).gath.segs.take k).length + 40)).unblock m h e := by
  unfold Dev.gatherDone
  dsimp only
  rw [hl]
  cases hoff : (d.eng h e).laneOff with
  | false =>
    refine ⟨_, Nat.le_refl _, fun _ => rfl, ?_⟩
    rw [List.take_length]
    rfl
  | true => exact ⟨d.free.1.toNat % ((d.eng h e).gath.segs.length + 1), Nat.lt_succ_iff.mp (Nat.mod_lt _ (Nat.succ_pos _)), fun hf => (Bool.noConfusion hf), rfl⟩

theorem Dev.rangeCounted_onlyOff (d : Dev) (h : Half) (err : Bool) : d.onlyOff (gatherKey h) (d.rangeCounted h err) := by
  unfold Dev.rangeCounted
  split
  · exact d.laneKept_count 0 (hLoc_page h .hrn 0) (.inr (.inl rfl))
  · exact Dev.onlyOff_refl _ d
theorem Dev.laneEnds_spec (d : Dev) (h : Half) {e : Nat} (x : Due) (cycles : Nat) (he : e < 8) :
    (d.laneEnds h e x cycles).eng h e = (d.eng h e).laneFreed x ∧ (d.laneEnds h e x cycles).chans = d.chans ∧
    bit ((d.laneEnds h e x cycles).g (hLoc h .hrn) HRN_STAT.LANES) e = false ∧
    d.regsOff (fun i => i = hLoc h .hrn + HRN_STAT.LANES.off ∨ i = hLoc h .hrn + HRN_MAXGATH.CYCLES.off) (d.laneEnds h e x cycles) := by
  unfold Dev.laneEnds Dev.maxF
  dsimp only
  have hmax : d.regsOff (fun i => i = hLoc h .hrn + HRN_STAT.LANES.off ∨ i = hLoc h .hrn + HRN_MAXGATH.CYCLES.off)
      (d.p (hLoc h .hrn) HRN_MAXGATH.CYCLES (max (d.g (hLoc h .hrn) HRN_MAXGATH.CYCLES) (min cycles (2 ^ HRN_MAXGATH.CYCLES.w - 1)))) := Dev.regsOff_p d _ (.inr rfl)
  have hengine : (d.p (hLoc h .hrn) HRN_MAXGATH.CYCLES (max (d.g (hLoc h .hrn) HRN_MAXGATH.CYCLES) (min cycles (2 ^ HRN_MAXGATH.CYCLES.w - 1)))).eng h e = d.eng h e := Dev.p_eng ..
  have hchans : (d.p (hLoc h .hrn) HRN_MAXGATH.CYCLES (max (d.g (hLoc h .hrn) HRN_MAXGATH.CYCLES) (min cycles (2 ^ HRN_MAXGATH.CYCLES.w - 1)))).chans = d.chans := Dev.p_chans ..
  generalize d.p (hLoc h .hrn) HRN_MAXGATH.CYCLES (max (d.g (hLoc h .hrn) HRN_MAXGATH.CYCLES) (min cycles (2 ^ HRN_MAXGATH.CYCLES.w - 1))) = y at hmax hengine hchans
  refine ⟨?_, ?_, ?_, Dev.regsOff_trans (Dev.regsOff_trans hmax (Dev.regsOff_of_regs (Dev.modEng_regs ..))) (Dev.regsOff_p _ _ (.inl rfl))⟩
  · rw [Dev.p_eng, Dev.eng_modEng_same, hengine]
  · rw [Dev.p_chans, Dev.modEng_chans, hchans]
  · rw [Dev.g_p_same _ _ _ _ (by decide)]
    exact bit_lane_clear _ he

/-- A render that waited for a block goes on (R328). -/
theorem Dev.unblock_spec (d : Dev) (m : Mem) (h : Half) (e : Nat) : ((d.unblock m h e).eng h e).desk = (d.eng h e).desk ∧ (d.unblock m h e).chans = d.chans ∧
    d.regsOff (passKey h e) (d.unblock m h e) ∧ ((d.eng h e).blocked = false → d.unblock m h e = d) := by
  unfold Dev.unblock
  cases hb : (d.eng h e).blocked with
  | false => exact ⟨rfl, rfl, Dev.regsOff_refl _ d, fun _ => rfl⟩
  | true =>
    rw [if_pos rfl]
    refine ⟨?_, ?_, Dev.regsOff_trans (Dev.regsOff_of_regs (Dev.modEng_regs ..)) Dev.pipeOn_regs, fun hf => Bool.noConfusion hf⟩
    · rw [Dev.pipeOn_desk, Dev.eng_modEng_same]
      rfl
    · rw [Dev.chans_of_rest Dev.pipeOn_rest, Dev.modEng_chans]
/-- No counter of a pass is HRN_STAT. -/
theorem not_passKey_lanes (h : Half) (e : Nat) : ¬ passKey h e (hLoc h .hrn + HRN_STAT.LANES.off) := by
  have hoff : HRN_STAT.LANES.off = 0x808 := rfl
  have hhrn := hLoc_page h .hrn 0
  have hrow := rowL_page h e
  rw [hoff]
  rintro (hk | hk | hk | hk | ⟨c, hk⟩)
  all_goals
    have hcx (c : Nat) := cxL_eq h e c
    generalize hLoc h .hrn = a at hhrn hk
    generalize rowL h e = b at hrow hk hcx
    try rw [hcx] at hk
    unfold Loc at *
    omega

theorem Dev.gatherDone_spec (r : Referee) (m : Mem) {x : Due} (he : e < 8) (hl : (d.eng h e).lane = some x)
    (hsegs : (d.eng h e).gath.segs = (segsOf x.segs).drop 1) :
    ∃ k, k ≤ (d.eng h e).gath.segs.length ∧ ((d.eng h e).laneOff = false → k = (d.eng h e).gath.segs.length) ∧
      ((d.gatherDone r m h e).eng h e).lane = none ∧ bit ((d.gatherDone r m h e).g (hLoc h .hrn) HRN_STAT.LANES) e = false ∧
      (∀ ch, ch < 65536 → ((d.gatherDone r m h e).chan h ch).q = queueAfter (d.chan h ch).q (32 * e + x.ctx) ((d.eng h e).gath.key + ch / 1024 * 2 ^ 8) (!r.gated h)
        (if ((d.eng h e).gath.segs.take k).contains (ch / 1024) && takesPart x e ch then gatherCh d h e ⟨x, (d.eng h e).gath.codes, (d.eng h e).gath.ka,
          (d.eng h e).gath.pa, fun c => (d.chan h c).ref, (d.eng h e).gath.bad⟩ ch else .none)) ∧
      ((d.eng h e).blocked = false → (d.eng h e).gath.segs = [] → x.rangeErr e (d.eng h e).gath.bad (segsOf x.segs) = false →
        (d.gatherDone r m h e).chans = d.chans ∧ d.regsKept [hLoc h .hrn + HRN_STAT.LANES.off, hLoc h .hrn + HRN_MAXGATH.CYCLES.off] (d.gatherDone r m h e)) := by
  obtain ⟨k, hk, hfull, heq⟩ := Dev.gatherDone_eq r m hl
  refine ⟨k, hk, hfull, ?_⟩
  rw [heq]
  clear heq
  obtain ⟨hregs, hchans, hengines⟩ := d.laneWord_units (d.eng h e).laneOff
  generalize (d.laneWord (d.eng h e).laneOff).2 = y at hregs hchans hengines
  generalize hg : (d.eng h e).gath = gt at hsegs hk hfull
  have hnow : ∀ s ∈ gt.segs.take k, s ∈ segsOf x.segs := fun s hs => by
    have hs := List.mem_of_mem_take hs
    rw [hsegs] at hs
    exact List.mem_of_mem_drop hs
  have hnd : (gt.segs.take k).Nodup := by
    rw [hsegs]
    exact ((segsOf_nodup _).drop).take
  obtain ⟨hkept, hq⟩ := Dev.gatherSegs_spec r h he x gt (gt.segs.take k) y (fun s hs => lt_of_mem_segsOf (hnow s hs)) hnd
  have hnone : gt.segs = [] → y.gatherSegs r h e x gt (gt.segs.take k) = y := fun hnil => by rw [hnil, List.take_nil]; rfl
  generalize y.gatherSegs r h e x gt (gt.segs.take k) = z at hkept hq hnone
  have hrange := z.rangeCounted_onlyOff h (x.rangeErr e gt.bad ((segsOf x.segs).take 1 ++ gt.segs.take k))
  have hsound : gt.segs = [] → x.rangeErr e gt.bad (segsOf x.segs) = false →
      z.rangeCounted h (x.rangeErr e gt.bad ((segsOf x.segs).take 1 ++ gt.segs.take k)) = z := fun hnil hok => by
    have hfirst : x.rangeErr e gt.bad ((segsOf x.segs).take 1 ++ gt.segs.take k) = false := by
      rw [hnil, List.take_nil, List.append_nil]
      unfold Due.rangeErr at hok ⊢
      rw [List.any_eq_false] at hok ⊢
      exact fun s hs => hok s (List.mem_of_mem_take hs)
    rw [hfirst]
    rfl
  generalize z.rangeCounted h (x.rangeErr e gt.bad ((segsOf x.segs).take 1 ++ gt.segs.take k)) = w at hrange hsound
  obtain ⟨hfreed, hfchans, hlanes, hfregs⟩ := w.laneEnds_spec h x (24 * ((segsOf x.segs).take 1 ++ gt.segs.take k).length + 40) he
  generalize w.laneEnds h e x (24 * ((segsOf x.segs).take 1 ++ gt.segs.take k).length + 40) = v at hfreed hfchans hlanes hfregs
  obtain ⟨hdesk, huchans, huregs, hstill⟩ := v.unblock_spec m h e
  refine ⟨?_, ?_, fun ch hch => ?_, fun hb hnil hok => ?_⟩
  · rw [Engine.lane_of_desk hdesk, hfreed]
    rfl
  · rw [Dev.g_of_regsOff huregs (not_passKey_lanes h e) (evReg_header _ (by decide) (by decide) (by decide))]
    exact hlanes
  · rw [Dev.chan_of_chans huchans, Dev.chan_of_chans hfchans, Dev.chan_of_chans (Dev.chans_of_quiet hrange.1), hq ch hch, Dev.chan_of_chans hchans]
    refine congrArg (queueAfter _ _ _ _) ?_
    by_cases htake : ((gt.segs.take k).contains (ch / 1024) && takesPart x e ch) = true
    · rw [if_pos htake, if_pos htake]
      exact gatherCh_congr he hch (Bool.and_eq_true .. ▸ htake).2 (Dev.regsOff_of_regs hregs) (Dev.chan_of_chans hchans h ch)
    · rw [if_neg htake, if_neg htake]
  · have hwz := hsound hnil hok
    have hzy := hnone hnil
    have hblocked : (v.eng h e).blocked = false := by
      have hyd : y.eng h e = d.eng h e := by unfold Dev.eng; rw [hengines]
      rw [hfreed, hwz, hzy, hyd]
      exact hb
    rw [hstill hblocked]
    refine ⟨by rw [hfchans, hwz, hzy, hchans], ?_⟩
    rw [hwz, hzy] at hfregs
    exact Dev.regsKept_of_regsOff (Dev.regsOff_trans (Dev.regsOff_of_regs hregs) hfregs) fun i hi => by simpa using hi
end

/-! ### The contexts of a half that rejoins (R221) -/

/-- A page of a half lies in the half's region, or is none of Table 25.4. -/
theorem pageOf_region (h : Half) (b : Block) (i : Nat) : pageOf h.n b i / 4096 = h.n ∨ pageOf h.n b i = 0xFFFF := by
  have hreg : h.n < 2 := by cases h <;> decide
  have hfit : ∀ row ∈ pageRowsHalf, row.base + row.count ≤ 4096 := by decide
  unfold pageOf
  dsimp only
  rw [if_pos hreg]
  split
  · next row hfind =>
    have hrow := hfit row (List.mem_of_find?_eq_some hfind)
    have hsel := List.find?_some hfind
    simp only [Bool.and_eq_true, decide_eq_true_eq] at hsel
    omega
  · exact .inr rfl
/-- Nothing of a half's engines, nor of its registers, changed. -/
def Dev.halfKept (h : Half) (d e : Dev) : Prop := e.engines = d.engines ∧ ∀ k, k / 2 ^ 32 = h.n → SMap.get regReset e.regs k = SMap.get regReset d.regs k
theorem Dev.halfKept_refl (h : Half) (d : Dev) : Dev.halfKept h d d := ⟨rfl, fun _ _ => rfl⟩
theorem Dev.halfKept_trans {h : Half} {d e f : Dev} (h1 : Dev.halfKept h d e) (h2 : Dev.halfKept h e f) : Dev.halfKept h d f :=
  ⟨h2.1.trans h1.1, fun k hk => (h2.2 k hk).trans (h1.2 k hk)⟩
theorem Dev.halfKept_foldl {α : Type} {h : Half} {g : Dev → α → Dev} (hg : ∀ (x : Dev) a, Dev.halfKept h x (g x a)) (xs : List α) (d : Dev) :
    Dev.halfKept h d (xs.foldl g d) :=
  List.foldlRecOn (motive := fun x : Dev => Dev.halfKept h d x) _ _ (Dev.halfKept_refl h d) (fun x hx a _ => Dev.halfKept_trans hx (hg x a))
theorem Dev.halfKept_copySets {h x : Half} (hx : x.n ≠ h.n) (d : Dev) (sel : Nat → Bool) : Dev.halfKept h d (d.copySets x sel) := by
  have hregs (k : Nat) (hk : k / 2 ^ 32 ≠ x.n) : SMap.get regReset (d.copySets x sel).regs k = SMap.get regReset d.regs k :=
    get_mirrorKeys regReset d.regs (by decide) x.peer.n x.n sel fun he => absurd he hk
  have hengines : (d.copySets x sel).engines = d.engines := rfl
  exact ⟨hengines, fun k hk => hregs k (by rw [hk]; exact hx.symm)⟩
theorem Dev.halfKept_of_units {h : Half} {d e : Dev} (he : e.engines = d.engines) (hr : e.regs = d.regs) : Dev.halfKept h d e := ⟨he, fun _ _ => by rw [hr]⟩
theorem Dev.withChans_units (d : Dev) (m : SMap Chan) : ({ d with chans := m } : Dev).engines = d.engines ∧ ({ d with chans := m } : Dev).regs = d.regs := ⟨rfl, rfl⟩
theorem row_region (h : Half) (e : Nat) {o : Nat} (ho : o < 0x100000) : (rowL h e + o) / 2 ^ 32 = h.n ∨ (rowL h e + o) / 2 ^ 32 = 15 := by
  have hdiv : (rowL h e + o) / 0x100000 = pageOf h.n .row e := locOf_add_div _ ho
  have hpage := pageOf_region h .row e
  rw [← hdiv] at hpage
  unfold Loc at *
  omega
theorem Dev.halfKept_wr {h x : Half} (hx : x.n ≠ h.n) (d : Dev) (e : Nat) {o : Nat} (ho : o < 0x100000) (w : Word) : Dev.halfKept h d (d.wr (rowL x e) o w) := by
  have hn : h.n < 2 := by cases h <;> decide
  refine ⟨Dev.engines_of_quiet (Dev.wr_quiet ..), fun k hk => SMap.get_set_ne _ _ fun hkl => ?_⟩
  have hreg := row_region x e ho
  rw [← hkl, hk] at hreg
  unfold Loc at hreg
  omega
/-- STATE of a context touches the half that takes it alone. -/
theorem Dev.halfKept_copyCtx {h x : Half} (hx : x.n ≠ h.n) (d : Dev) (k : Nat) : Dev.halfKept h d (d.copyCtx x k) := by
  have hoffs : ∀ c < 32, ∀ off ∈ ctxWords c, off < 0x100000 := by decide
  unfold Dev.copyCtx
  extract_lets e c page d1 d2 src d3
  have h1 : Dev.halfKept h d d1 := Dev.halfKept_copySets hx d _
  have h2 : Dev.halfKept h d1 d2 := List.foldlRecOn (motive := fun y : Dev => Dev.halfKept h d1 y) _ _ (Dev.halfKept_refl h d1)
    (fun y hy off ho => Dev.halfKept_trans hy (Dev.halfKept_wr hx y e (hoffs c (Nat.mod_lt _ (by decide)) off ho) _))
  have h3 : Dev.halfKept h d2 d3 := Dev.halfKept_of_units (Dev.modCx_engines ..) (Dev.modCx_regs ..)
  obtain ⟨hengines, hregs⟩ := d3.withChans_units (mirrorKeys (fun _ => {}) d3.chans 65536 x.peer.n x.n (d3.names x.peer k))
  exact Dev.halfKept_trans h1 (Dev.halfKept_trans h2 (Dev.halfKept_trans h3 (Dev.halfKept_of_units hengines hregs)))
theorem RD.halfKept_transfer {x : RD} {h : Half} (hj : x.1.rjHalf = some h.peer) (ks : List Nat) : Dev.halfKept h x.2 (x.transfer ks).2 := by
  have hx : h.peer.n ≠ h.n := by cases h <;> decide
  unfold RD.transfer
  rw [hj]
  dsimp only
  split
  · exact Dev.halfKept_refl h x.2
  · exact Dev.halfKept_foldl (fun y k => Dev.halfKept_copyCtx hx y k) _ x.2
theorem Dev.g_row_of_halfKept {d y : Dev} {h : Half} (hk : Dev.halfKept h d y) {e : Nat} (he : e < 8) {f : Fld} (hf : f.off < 0x100000) :
    y.g (rowL h e) f = d.g (rowL h e) f := by
  have hkey : (rowL h e + f.off) / 2 ^ 32 = h.n := by
    have hrow := rowL_eq h he
    unfold Loc at *
    omega
  unfold Dev.g Dev.rd
  rw [hk.2 _ hkey]

/-! ### ROW_RECORD_WRITE -/

/-- A row whose record need not wait: H takes it, and the row counts. -/
def Dev.recordDue (d : Dev) (h : Half) (e c : Nat) (y : RecJob) : Dev :=
  ((d.modEng h e (fun g => { g with recs := g.recs.erase y })).p (rowL h e) (ROW_HWM.H.ix c) y.due.row).wrap (cxL h e c) ROW_CCNT_REND.ROWS
/-- One more record is valid, up to the ring's depth. -/
def Dev.recordCounted (d : Dev) (h : Half) (e c depth : Nat) : Dev := d.p (rowL h e) (ROW_REVST.RECS.ix c) (min depth (d.g (rowL h e) (ROW_REVST.RECS.ix c) + 1))

/-- The registers of a record: H, RECS and the count of rows. -/
def recordKeys (h : Half) (e c : Nat) : List Nat := [rowL h e + (ROW_HWM.H.ix c).off, rowL h e + (ROW_REVST.RECS.ix c).off, cxL h e c + ROW_CCNT_REND.ROWS.off]

section
variable {d : Dev} {h : Half} {e c : Nat} {y : RecJob}
theorem Dev.recordWrite_eq (r : Referee) (hf : (d.eng h e).recs.find? (fun y => y.due.ctx = c) = some y) (hs : d.unsealed h e y.due = false) :
    d.recordWrite r h e c = if d.ringD h e c = 0 then some ([], d.recordDue h e c y)
      else some (storeMem r ((d.recordDue h e c y).recordCounted h e c (d.ringD h e c)) h (h.n + 1) (d.recAddr h e c y.due.row) (d.recBytes h e y.due y.fids y.mdrop)) := by
  unfold Dev.recordWrite
  dsimp only
  rw [hf]
  exact if_neg (by rw [hs]; exact Bool.false_ne_true)
theorem Dev.recordDue_spec (d : Dev) (h : Half) {e c : Nat} (y : RecJob) (hc : c < 32) : ((d.recordDue h e c y).eng h e).recs = (d.eng h e).recs.erase y ∧
    (d.recordDue h e c y).g (rowL h e) (ROW_HWM.H.ix c) = y.due.row % 2 ^ 32 ∧
    (d.recordDue h e c y).g (rowL h e) (ROW_REVST.RECS.ix c) = d.g (rowL h e) (ROW_REVST.RECS.ix c) ∧
    d.regsOff (fun k => k ∈ recordKeys h e c) (d.recordDue h e c y) := by
  have hhwm : (ROW_HWM.H.ix c).off = 0xC08 + 0x10 * c := rfl
  have hrecs : (ROW_REVST.RECS.ix c).off = 0xC0C + 0x10 * c := rfl
  have hne : rowL h e + (ROW_REVST.RECS.ix c).off ≠ rowL h e + (ROW_HWM.H.ix c).off := by unfold Loc; omega
  unfold Dev.recordDue Dev.wrap
  refine ⟨?_, ?_, ?_, Dev.regsOff_trans (Dev.regsOff_trans (Dev.regsOff_of_regs (Dev.modEng_regs ..)) (Dev.regsOff_p _ _ (by simp [recordKeys])))
    (Dev.regsOff_p _ _ (by simp [recordKeys]))⟩
  · rw [Dev.p_eng, Dev.p_eng, Dev.eng_modEng_same]
  · rw [Dev.g_p_cx _ h e c _ _ (by omega)]
    exact Dev.g_p_ix _ _ _ _ _ (by decide)
  · rw [Dev.g_p_cx _ h e c _ _ (by omega), Dev.g_p_ne _ _ hne, Dev.modEng_g]
theorem Dev.recordCounted_spec (d : Dev) (h : Half) {e c : Nat} (depth : Nat) : ((d.recordCounted h e c depth).eng h e).recs = (d.eng h e).recs ∧
    (d.recordCounted h e c depth).g (rowL h e) (ROW_HWM.H.ix c) = d.g (rowL h e) (ROW_HWM.H.ix c) ∧
    (depth ≤ 65536 → (d.recordCounted h e c depth).g (rowL h e) (ROW_REVST.RECS.ix c) = min depth (d.g (rowL h e) (ROW_REVST.RECS.ix c) + 1)) ∧
    d.regsOff (fun k => k ∈ recordKeys h e c) (d.recordCounted h e c depth) := by
  have hhwm : (ROW_HWM.H.ix c).off = 0xC08 + 0x10 * c := rfl
  have hrecs : (ROW_REVST.RECS.ix c).off = 0xC0C + 0x10 * c := rfl
  have hwidth : ROW_REVST.RECS.w = 17 := rfl
  have hne : rowL h e + (ROW_HWM.H.ix c).off ≠ rowL h e + (ROW_REVST.RECS.ix c).off := by unfold Loc; omega
  unfold Dev.recordCounted
  refine ⟨by rw [Dev.p_eng], Dev.g_p_ne _ _ hne, fun hd => ?_, Dev.regsOff_p _ _ (by simp [recordKeys])⟩
  rw [Dev.g_p_ix _ _ _ _ _ (by decide), hwidth]
  exact Nat.mod_eq_of_lt (by omega)
theorem Dev.recAddr_aligned (d : Dev) (h : Half) (e c r : Nat) : d.recAddr h e c r % 1024 = 0 := by
  unfold Dev.recAddr Dev.ringBase halfAddr
  split <;> omega

/-- The record, once it is written: the engine's list, H, RECS, and the bytes where memory takes them. -/
theorem Dev.recordWrite_spec (r : Referee) (he : e < 8) (hc : c < 32) (hf : (d.eng h e).recs.find? (fun y => y.due.ctx = c) = some y)
    (hs : d.unsealed h e y.due = false) :
    ∃ w, d.recordWrite r h e c = some w ∧ w.2.g (rowL h e) (ROW_HWM.H.ix c) = y.due.row % 2 ^ 32 ∧ (w.2.eng h e).recs = (d.eng h e).recs.erase y ∧
      (d.ringD h e c = 0 → w.1 = [] ∧ w.2.g (rowL h e) (ROW_REVST.RECS.ix c) = d.g (rowL h e) (ROW_REVST.RECS.ix c) ∧ d.regsKept (recordKeys h e c) w.2) ∧
      (d.ringD h e c ≠ 0 →
        (d.ringD h e c ≤ 65536 → w.2.g (rowL h e) (ROW_REVST.RECS.ix c) = min (d.ringD h e c) (d.g (rowL h e) (ROW_REVST.RECS.ix c) + 1)) ∧
        (d.recAddr h e c y.due.row < 2 ^ 36 → (∀ i, i < 1024 → d.backed (d.recAddr h e c y.due.row + i) = true) →
          r.targets (d.recAddr h e c y.due.row) = [d.recAddr h e c y.due.row] → (d.recBytes h e y.due y.fids y.mdrop).length = 1024 →
          w.1 = storeBytes (d.recAddr h e c y.due.row) (d.recBytes h e y.due y.fids y.mdrop) ∧ d.regsKept (recordKeys h e c) w.2)) := by
  have hhwm : (ROW_HWM.H.ix c).off = 0xC08 + 0x10 * c := rfl
  have hrecs : (ROW_REVST.RECS.ix c).off = 0xC0C + 0x10 * c := rfl
  have hal := d.recAddr_aligned h e c y.due.row
  obtain ⟨heng, hH, hR, hregs⟩ := d.recordDue_spec h y hc
  rw [Dev.recordWrite_eq r hf hs]
  generalize d.recordDue h e c y = x at heng hH hR hregs
  by_cases hring : d.ringD h e c = 0
  · rw [if_pos hring]
    exact ⟨_, rfl, hH, heng, fun _ => ⟨rfl, hR, Dev.regsKept_of_regsOff hregs fun _ hk => hk⟩, fun hne => absurd hring hne⟩
  · rw [if_neg hring]
    obtain ⟨heng', hH', hR', hregs'⟩ := x.recordCounted_spec h (e := e) (c := c) (d.ringD h e c)
    generalize x.recordCounted h e c (d.ringD h e c) = z at heng' hH' hR' hregs'
    have hall := Dev.regsOff_trans hregs hregs'
    have herrs := z.errsOnly_storeMem r h (h.n + 1) (d.recAddr h e c y.due.row) (d.recBytes h e y.due y.fids y.mdrop)
    refine ⟨_, rfl, ?_, ?_, fun h0 => absurd h0 hring, fun _ => ⟨fun hd => ?_, fun hlt hback htargets hlen => ?_⟩⟩
    · rw [Dev.g_of_regsOff herrs.2 (not_errKey_row h he (by omega) (by omega)) (evReg_row h he (by omega) (by omega) (by omega)), hH', hH]
    · rw [Dev.eng_of_bare herrs.1, heng', heng]
    · rw [Dev.g_of_regsOff herrs.2 (not_errKey_row h he (by omega) (by omega)) (evReg_row h he (by omega) (by omega) (by omega)), hR' hd, hR]
    · have hbacked (a : Nat) : z.backed a = d.backed a := Dev.backed_of_regsOff hall (fun l hl => by
        have hrow := rowL_page h e
        have hcx := cxL_eq h e c
        simp only [recordKeys, List.mem_cons, List.not_mem_nil, or_false, hhwm, hrecs]
        have hrows : ROW_CCNT_REND.ROWS.off = 0x820 := rfl
        unfold Loc at *
        omega) a
      obtain ⟨hops, hstored⟩ := storeMem_whole (d := z) (r := r) h (h.n + 1) (a := d.recAddr h e c y.due.row) (bs := d.recBytes h e y.due y.fids y.mdrop)
        (by omega) (by omega) (by omega) (by omega) (fun i hi => (hbacked _).trans (hback i (by omega))) htargets
      exact ⟨hops, Dev.regsKept_of_regsOff (Dev.regsOff_trans hall (Dev.regsOff_of_regs hstored)) fun _ hk => hk⟩
end

/-! ### The commands -/

section
variable {s : State} {h : Half} {e : Fin 8}
theorem exec_gatherStart (hs : s.awake h (hLoc h .hrn)) (bad : List (BitVec 16)) :
    exec (.gatherStart h e bad) s = .next { s with dev := s.dev.gatherStart s.ref h e (bad.map (·.toNat)) } := by
  unfold exec
  dsimp only
  rw [execGatherStart, onBlock_live hs.1 hs.2]
theorem exec_gatherComplete (hs : s.awake h (hLoc h .hrn)) : exec (.gatherComplete h e) s = .next { s with dev := s.dev.gatherDone s.ref s.mem h e } := by
  unfold exec
  dsimp only
  rw [execGatherComplete, onBlock_live hs.1 hs.2]
/-- The devices and the referee once a record is written: a context that waits for it is transferred. -/
def RD.recordNext (x : RD) (h : Half) (k : Nat) : RD := if x.1.rjHalf = some h.peer then x.transfer (k :: x.idleWaiting) else x
theorem exec_rowRecordWrite {c : Fin 32} (hs : s.awake h (rowL h e)) {w : List MemOp × Dev} (hw : s.dev.recordWrite s.ref h e c = some w) :
    exec (.rowRecordWrite h e c) s = .next { s with
      ref := (RD.recordNext (s.ref, w.2) h (32 * e.val + c.val)).1
      mem := s.mem.applyAll w.1
      dev := (RD.recordNext (s.ref, w.2) h (32 * e.val + c.val)).2 } := by
  have hon : (s.ref.live h && s.dev.clocked (rowL h e)) = true := by rw [hs.1, hs.2]; rfl
  unfold exec
  dsimp only
  rw [execRowRecordWrite, onRef_eq, if_pos hon, hw]
  rfl
end
theorem RD.recordNext_spec (x : RD) (h : Half) (k : Nat) : Dev.halfKept h x.2 (x.recordNext h k).2 ∧ (x.1.rjHalf ≠ some h.peer → x.recordNext h k = x) := by
  unfold RD.recordNext
  split
  · next hj => exact ⟨RD.halfKept_transfer hj _, fun hne => absurd hj hne⟩
  · exact ⟨Dev.halfKept_refl h x.2, fun _ => rfl⟩

end Sys2Proof.Machine
open Sys2Proof Sys2Proof.Machine

/-- Settles O15: a gather changes one channel's queue for each of its results, no channel stands in two segments, and what the gather of a channel
reads is no counter of a gather; a record is stored by the reasoning rule of an aligned store, and the transfer of a context touches the other
half alone. -/
theorem gatherQueuesAndRecordsRows : Obligations.GatherQueuesAndRecordsRows := by
  unfold Obligations.GatherQueuesAndRecordsRows
  refine ⟨fun s h e hs => ⟨fun row rest bad hre hl hr => ?_, fun x hl hsegs => ?_, fun hl => ?_⟩, fun s h e c hs y hf hseal => ?_⟩
  · obtain ⟨hlane, hready, hbit, hq⟩ := Dev.gatherStart_spec s.ref (bad.map (·.toNat)) e.isLt hre hl hr
    exact ⟨_, exec_gatherStart hs bad, rfl, rfl, hlane, hready, hbit, hq⟩
  · obtain ⟨k, hk, hfull, hlane, hbit, hq, hstill⟩ := Dev.gatherDone_spec s.ref s.mem e.isLt hl hsegs
    exact ⟨_, k, exec_gatherComplete hs, rfl, rfl, hlane, hbit, hk, hfull, hq, hstill⟩
  · rw [exec_gatherComplete hs, Dev.gatherDone_free s.ref s.mem hl]
  · obtain ⟨w, hw, hH, hrecs, hnoring, hring⟩ := Dev.recordWrite_spec s.ref e.isLt c.isLt hf hseal
    obtain ⟨hkept, halone⟩ := RD.recordNext_spec (s.ref, w.2) h (32 * e.val + c.val)
    have heng : (RD.recordNext (s.ref, w.2) h (32 * e.val + c.val)).2.eng h e = w.2.eng h e := by
      unfold Dev.eng
      rw [hkept.1]
    have hoffs : (ROW_HWM.H.ix c).off < 0x100000 ∧ (ROW_REVST.RECS.ix c).off < 0x100000 :=
      ⟨Nat.lt_trans (Fld.ix_perCtx rfl c.isLt).2 (by decide), Nat.lt_trans (Fld.ix_perCtx rfl c.isLt).2 (by decide)⟩
    have hR := Dev.g_row_of_halfKept hkept e.isLt hoffs.2
    refine ⟨_, exec_rowRecordWrite hs hw, (Dev.g_row_of_halfKept hkept e.isLt hoffs.1).trans hH, (congrArg Engine.recs heng).trans hrecs,
      fun hj => congrArg Prod.fst (halone hj), fun h0 => ?_, fun h0 => ⟨fun hd => hR.trans ((hring h0).1 hd), fun hlt hback htargets hlen => ?_⟩⟩
    · obtain ⟨hops, hsame, hregs⟩ := hnoring h0
      refine ⟨by dsimp only; rw [hops]; rfl, hR.trans hsame, fun hj => ?_⟩
      dsimp only
      rw [halone hj]
      exact hregs
    · obtain ⟨hops, hregs⟩ := (hring h0).2 hlt hback htargets hlen
      obtain ⟨hin, hout⟩ := Mem.byte_stored s.mem (s.dev.recAddr h e c y.due.row) (s.dev.recBytes h e y.due y.fids y.mdrop)
      rw [hlen] at hin hout
      dsimp only
      rw [hops]
      refine ⟨hin, hout, fun hj => ?_⟩
      rw [halone hj]
      exact hregs
end

section
/-! The writer of the motif stores (R103, R104). -/
namespace Sys2Proof.Machine

open Sys2Proof

/-! ### A master's staging words and index -/

theorem Dev.mawIdx_of_quiet {d e : Dev} (h : e.quiet = d.quiet) : e.mawIdx = d.mawIdx := (congrArg Dev.mawIdx h : e.quiet.mawIdx = d.quiet.mawIdx)
theorem Dev.staging_of_quiet {d e : Dev} (h : e.quiet = d.quiet) : e.staging = d.staging := (congrArg Dev.staging h : e.quiet.staging = d.quiet.staging)

theorem Dev.stage_setStage (d : Dev) (p : Nat) (m : Master) (k j : Nat) (w : Word) :
    (d.setStage p m k w).stage p m j = if j = k then w else d.stage p m j := by
  unfold Dev.setStage Dev.stage
  rw [SMap.get_set]
  by_cases hjk : j = k
  · rw [if_pos (by omega), if_pos hjk]
  · rw [if_neg (by omega), if_neg hjk]
theorem Dev.setStage_units (d : Dev) (p : Nat) (m : Master) (k : Nat) (w : Word) : (d.setStage p m k w).regs = d.regs ∧ (d.setStage p m k w).motifs = d.motifs ∧
    (d.setStage p m k w).mawIdx = d.mawIdx ∧ (d.setStage p m k w).shadow = d.shadow := ⟨rfl, rfl, rfl, rfl⟩
theorem Dev.setMaw_units (d : Dev) (p : Nat) (m : Master) (w : Word) : (d.setMaw p m w).regs = d.regs ∧ (d.setMaw p m w).motifs = d.motifs ∧
    (d.setMaw p m w).staging = d.staging ∧ (d.setMaw p m w).shadow = d.shadow := ⟨rfl, rfl, rfl, rfl⟩
theorem Dev.maw_setMaw (d : Dev) (p : Nat) (m : Master) (w : Word) : (d.setMaw p m w).maw p m = w := SMap.get_set_same ..

/-- The first `n` staging words loaded one by one. -/
theorem Dev.stages_spec (p : Nat) (m : Master) (f : Nat → Word) {n : Nat} (hn : n ≤ 8) (d : Dev) :
    let y := (List.range n).foldl (fun y k => y.setStage p m k (f k)) d
    (y.regs = d.regs ∧ y.motifs = d.motifs ∧ y.mawIdx = d.mawIdx) ∧ ∀ k, k < n → y.stage p m k = f k := by
  induction n with
  | zero => exact ⟨⟨rfl, rfl, rfl⟩, fun k hk => absurd hk (Nat.not_lt_zero k)⟩
  | succ n ih =>
    obtain ⟨⟨hregs, hmotifs, hmaw⟩, hstage⟩ := ih (by omega)
    dsimp only at hregs hmotifs hmaw hstage ⊢
    rw [List.range_succ, List.foldl_append, List.foldl_cons, List.foldl_nil]
    generalize (List.range n).foldl (fun y k => y.setStage p m k (f k)) d = y at hregs hmotifs hmaw hstage
    obtain ⟨hr, hm, hw, -⟩ := y.setStage_units p m n (f n)
    refine ⟨⟨hr.trans hregs, hm.trans hmotifs, hw.trans hmaw⟩, fun k hk => ?_⟩
    rw [Dev.stage_setStage]
    split
    · next hkn => rw [hkn]
    · exact hstage k (by omega)

theorem Dev.mawIdxWrite_spec (d : Dev) (m : Master) (h : Half) (e : Nat) (v : Word) :
    (d.mawIdxWrite m h e v).motifs = d.motifs ∧ (d.mawIdxWrite m h e v).maw (pageOf h.n .row e) m = v &&& 0x00010FFF ∧
    (∀ k, k < 8 → (d.mawIdxWrite m h e v).stage (pageOf h.n .row e) m k = BitVec.ofNat 32 (d.motif h e (fget ROW_MAW_IDX.IDX v) / 2 ^ (32 * k))) ∧
    (d.mawIdxWrite m h e v).regs = d.regs := by
  have hidx : fget ROW_MAW_IDX.IDX (v &&& 0x00010FFF) = fget ROW_MAW_IDX.IDX v := by
    unfold fget
    rw [BitVec.toNat_and]
    change (v.toNat &&& 0x00010FFF) / 2 ^ 0 % 2 ^ 12 = v.toNat / 2 ^ 0 % 2 ^ 12
    rw [Nat.pow_zero, Nat.div_one, Nat.div_one, Nat.and_mod_two_pow]
    change v.toNat % 2 ^ 12 &&& 2 ^ 12 - 1 = v.toNat % 2 ^ 12
    rw [Nat.and_two_pow_sub_one_eq_mod, Nat.mod_mod]
  unfold Dev.mawIdxWrite
  dsimp only
  rw [hidx]
  have hset := d.setMaw_units (pageOf h.n .row e) m (v &&& 0x00010FFF)
  have hmaw := d.maw_setMaw (pageOf h.n .row e) m (v &&& 0x00010FFF)
  generalize d.setMaw (pageOf h.n .row e) m (v &&& 0x00010FFF) = y at hset hmaw
  obtain ⟨⟨hregs, hmotifs, hidxs⟩, hstage⟩ := Dev.stages_spec (pageOf h.n .row e) m (fun k => BitVec.ofNat 32 (d.motif h e (fget ROW_MAW_IDX.IDX v) / 2 ^ (32 * k)))
    (Nat.le_refl 8) y
  refine ⟨hmotifs.trans hset.2.1, ?_, hstage, hregs.trans hset.1⟩
  unfold Dev.maw
  rw [hidxs]
  exact hmaw

/-! ### An entry is written -/

/-- The entry takes its value as one unit, and is correct again. -/
def Dev.entryStored (d : Dev) (h : Half) (e i x : Nat) : Dev :=
  { d with motifs := SMap.set (fun _ => 0) d.motifs ((h.n * 8 + e) * 4096 + i) x, ueWords := d.ueWords.filter (fun u => u ≠ (pageOf h.n .row e, 4, i)) }
/-- The index after the write of an entry. -/
def Dev.idxStepped (d : Dev) (p : Nat) (m : Master) (w : Word) : Dev :=
  if fget ROW_MAW_IDX.AUTOINC w = 1 then d.setMaw p m (fput ROW_MAW_IDX.IDX (fget ROW_MAW_IDX.IDX w + 1) w) else d
/-- Does the write of entry `i` concern a context: is it not IDLE, and does a table of its sets hold the entry? -/
def Dev.concerns (d : Dev) (h : Half) (e i c : Nat) : Prop := d.cst h e c ≠ .idle ∧ (inTable (d.rd (cxL h e c) 0x140) i ∨ inTable (d.rdS (cxL h e c) 0x140) i)
/-- A live write counts for one context (R104). -/
def Dev.liveCounted (h : Half) (e i : Nat) (y : Dev) (c : Nat) : Dev :=
  if y.cst h e c ≠ .idle ∧ (inTable (y.rd (cxL h e c) 0x140) i ∨ inTable (y.rdS (cxL h e c) 0x140) i) then
    (y.sat (rowL h e) (ROW_MERR.LIVEWR.ix c)).raiseCtx (rowL h e) c 10
  else y
theorem Dev.mawEntryWrite_eq (d : Dev) (m : Master) (h : Half) (e : Nat) (v : Word) :
    d.mawEntryWrite m h e v = (List.range 32).foldl (Dev.liveCounted h e (fget ROW_MAW_IDX.IDX (d.maw (pageOf h.n .row e) m)))
      (((d.setStage (pageOf h.n .row e) m 7 v).entryStored h e (fget ROW_MAW_IDX.IDX (d.maw (pageOf h.n .row e) m))
        ((List.range 8).foldr (fun k acc => acc * 2 ^ 32 + ((d.setStage (pageOf h.n .row e) m 7 v).stage (pageOf h.n .row e) m k).toNat) 0)).idxStepped
          (pageOf h.n .row e) m (d.maw (pageOf h.n .row e) m)) := rfl

/-- The registers that live writes count in. -/
def liveKey (h : Half) (e k : Nat) : Prop := k = rowL h e + 0x924 ∨ ∃ c, c < 32 ∧ k = rowL h e + (ROW_MERR.LIVEWR.ix c).off
theorem liveKey_cx {h : Half} {e c o : Nat} : ¬ liveKey h e (cxL h e c + o) := by
  rintro (hk | ⟨c', hc', hk⟩)
  · exact cx_ne_row h e c o (by decide) hk
  · exact cx_ne_row h e c o (Fld.ix_perCtx rfl hc').2 hk
section
variable {d y : Dev} {h : Half} {e : Nat}
theorem Dev.liveCounted_onlyOff (y : Dev) (h : Half) (e i : Nat) {c : Nat} (hc : c < 32) : y.onlyOff (liveKey h e) (Dev.liveCounted h e i y c) := by
  unfold Dev.liveCounted
  split
  · exact Dev.onlyOff_trans (Dev.onlyOff_sat y 1 (.inr ⟨c, hc, rfl⟩)) (Dev.onlyOff_raiseCtx _ (rowL_page h e) c 10 (.inl rfl))
  · exact Dev.onlyOff_refl _ y
theorem Dev.concerns_of_onlyOff (ho : d.onlyOff (liveKey h e) y) (i : Nat) {c : Nat} (hc : c < 32) : y.concerns h e i c ↔ d.concerns h e i c := by
  have hrd : y.rd (cxL h e c) 0x140 = d.rd (cxL h e c) 0x140 := Dev.rd_of_regsOff ho.2 liveKey_cx (evReg_cx h e hc (by decide))
  have hrdS : y.rdS (cxL h e c) 0x140 = d.rdS (cxL h e c) 0x140 := by
    unfold Dev.rdS
    rw [Dev.shadow_of_quiet ho.1]
  unfold Dev.concerns
  rw [Dev.cst_of_regsOff ho.2 liveKey_cx hc, hrd, hrdS]
/-- The count of one context. -/
theorem Dev.liveCounted_spec (y : Dev) (h : Half) {e i c : Nat} (he : e < 8) (hc : c < 32) :
    (y.concerns h e i c → (Dev.liveCounted h e i y c).g (rowL h e) (ROW_MERR.LIVEWR.ix c) = min (y.g (rowL h e) (ROW_MERR.LIVEWR.ix c) + 1) (2 ^ ROW_MERR.LIVEWR.w - 1)) ∧
    (¬ y.concerns h e i c → Dev.liveCounted h e i y c = y) ∧
    ∀ c', c' < 32 → c' ≠ c → (Dev.liveCounted h e i y c).g (rowL h e) (ROW_MERR.LIVEWR.ix c') = y.g (rowL h e) (ROW_MERR.LIVEWR.ix c') := by
  have hoff (c : Nat) : (ROW_MERR.LIVEWR.ix c).off = 0xA04 + 8 * c := rfl
  have hraise (z : Dev) {c' : Nat} (hc' : c' < 32) : (z.raiseCtx (rowL h e) c 10).g (rowL h e) (ROW_MERR.LIVEWR.ix c') = z.g (rowL h e) (ROW_MERR.LIVEWR.ix c') :=
    Dev.g_of_regsOff (W := fun k => k = rowL h e + 0x924) (Dev.regsOff_raiseCtx z (rowL_page h e) c 10 rfl) (by rw [hoff]; unfold Loc; omega)
      (evReg_row h he (by rw [hoff]; omega) (by rw [hoff]; omega) (by rw [hoff]; omega))
  unfold Dev.liveCounted Dev.concerns
  refine ⟨fun hyes => ?_, fun hno => if_neg hno, fun c' hc' hne => ?_⟩
  · rw [if_pos hyes, hraise _ hc]
    exact Dev.g_sat_same _ _ (ROW_MERR.LIVEWR.ix c) (by exact Nat.le_refl 32)
  · split
    · rw [hraise _ hc', Dev.sat_eq]
      exact Dev.g_p_ne _ _ (by rw [hoff, hoff]; unfold Loc; omega)
    · rfl
/-- Every context of a list counts a live write once. -/
theorem Dev.liveCounts_spec (h : Half) {e : Nat} (i : Nat) (he : e < 8) (cs : List Nat) (hlt : ∀ c ∈ cs, c < 32) (hnd : cs.Nodup) (y : Dev) :
    y.onlyOff (liveKey h e) (cs.foldl (Dev.liveCounted h e i) y) ∧ ∀ c, c < 32 →
      (c ∈ cs → y.concerns h e i c →
        (cs.foldl (Dev.liveCounted h e i) y).g (rowL h e) (ROW_MERR.LIVEWR.ix c) = min (y.g (rowL h e) (ROW_MERR.LIVEWR.ix c) + 1) (2 ^ ROW_MERR.LIVEWR.w - 1)) ∧
      (¬ (c ∈ cs ∧ y.concerns h e i c) → (cs.foldl (Dev.liveCounted h e i) y).g (rowL h e) (ROW_MERR.LIVEWR.ix c) = y.g (rowL h e) (ROW_MERR.LIVEWR.ix c)) := by
  induction cs generalizing y with
  | nil => exact ⟨Dev.onlyOff_refl _ y, fun c _ => ⟨fun hc => absurd hc List.not_mem_nil, fun _ => rfl⟩⟩
  | cons b cs ih =>
    have hb := hlt b (List.mem_cons_self ..)
    obtain ⟨hfresh, hnd⟩ := List.nodup_cons.mp hnd
    have honly := y.liveCounted_onlyOff h e i hb
    obtain ⟨hyes, hno, hother⟩ := y.liveCounted_spec h (e := e) (i := i) he hb
    rw [List.foldl_cons]
    generalize Dev.liveCounted h e i y b = z at honly hyes hno hother
    obtain ⟨honly', hrest⟩ := ih (fun c hc => hlt c (List.mem_cons_of_mem _ hc)) hnd z
    refine ⟨Dev.onlyOff_trans honly honly', fun c hc => ?_⟩
    obtain ⟨hcount, hstill⟩ := hrest c hc
    by_cases hcb : c = b
    · subst hcb
      have hz := hstill fun hin => hfresh hin.1
      refine ⟨fun _ hcon => hz.trans (hyes hcon), fun hnot => ?_⟩
      rw [hz, hno fun hcon => hnot ⟨List.mem_cons_self .., hcon⟩]
    · have hsame := hother c hc hcb
      have hcon := Dev.concerns_of_onlyOff honly i hc
      refine ⟨fun hin hy => ?_, fun hnot => ?_⟩
      · rw [hcount ((List.mem_cons.mp hin).resolve_left hcb) (hcon.mpr hy), hsame]
      · rw [hstill fun hin => hnot ⟨List.mem_cons_of_mem _ hin.1, hcon.mp hin.2⟩, hsame]

theorem Dev.entryStored_units (d : Dev) (h : Half) (e i x : Nat) : (d.entryStored h e i x).regs = d.regs ∧ (d.entryStored h e i x).mawIdx = d.mawIdx ∧
    (d.entryStored h e i x).shadow = d.shadow := ⟨rfl, rfl, rfl⟩
theorem Dev.entryStored_motif (d : Dev) (h : Half) (e i x j : Nat) : (d.entryStored h e i x).motif h e j = if j = i then x else d.motif h e j := by
  unfold Dev.entryStored Dev.motif
  rw [SMap.get_set]
  by_cases hji : j = i
  · rw [if_pos (by omega), if_pos hji]
  · rw [if_neg (by omega), if_neg hji]
theorem Dev.idxStepped_spec (d : Dev) (p : Nat) (m : Master) (w : Word) (hw : d.maw p m = w) : ((d.idxStepped p m w).regs = d.regs ∧ (d.idxStepped p m w).motifs = d.motifs ∧
    (d.idxStepped p m w).shadow = d.shadow) ∧
    fget ROW_MAW_IDX.IDX ((d.idxStepped p m w).maw p m) = (fget ROW_MAW_IDX.IDX w + fget ROW_MAW_IDX.AUTOINC w) % 2 ^ 12 := by
  have hidx : fget ROW_MAW_IDX.IDX w < 2 ^ 12 := fget_lt ..
  have hauto : fget ROW_MAW_IDX.AUTOINC w < 2 ^ 1 := fget_lt ..
  unfold Dev.idxStepped
  split
  · next h1 =>
    obtain ⟨hregs, hmotifs, -, hshadow⟩ := d.setMaw_units p m (fput ROW_MAW_IDX.IDX (fget ROW_MAW_IDX.IDX w + 1) w)
    refine ⟨⟨hregs, hmotifs, hshadow⟩, ?_⟩
    rw [Dev.maw_setMaw, fget_fput_same _ _ _ (by decide), h1]
    rfl
  · next h1 =>
    refine ⟨⟨rfl, rfl, rfl⟩, ?_⟩
    have h0 : fget ROW_MAW_IDX.AUTOINC w = 0 := by omega
    rw [hw, h0, Nat.add_zero, Nat.mod_eq_of_lt hidx]
end

/-- The motif entry that the staging words make. -/
def Dev.stagedEntry (d : Dev) (p : Nat) (m : Master) (v : Word) : Nat :=
  (List.range 8).foldr (fun k acc => acc * 2 ^ 32 + (if k = 7 then v else d.stage p m k).toNat) 0
theorem Dev.stagedEntry_eq (d : Dev) (p : Nat) (m : Master) (v : Word) :
    (List.range 8).foldr (fun k acc => acc * 2 ^ 32 + ((d.setStage p m 7 v).stage p m k).toNat) 0 = d.stagedEntry p m v := by
  simp only [Dev.stage_setStage]
  rfl

theorem Dev.mawEntryWrite_spec (d : Dev) (m : Master) (h : Half) {e : Nat} (v : Word) (he : e < 8) :
    (∀ i, (d.mawEntryWrite m h e v).motif h e i = if i = fget ROW_MAW_IDX.IDX (d.maw (pageOf h.n .row e) m) then d.stagedEntry (pageOf h.n .row e) m v else d.motif h e i) ∧
    fget ROW_MAW_IDX.IDX ((d.mawEntryWrite m h e v).maw (pageOf h.n .row e) m) =
      (fget ROW_MAW_IDX.IDX (d.maw (pageOf h.n .row e) m) + fget ROW_MAW_IDX.AUTOINC (d.maw (pageOf h.n .row e) m)) % 2 ^ 12 ∧
    (∀ c, c < 32 → (d.mawEntryWrite m h e v).g (rowL h e) (ROW_MERR.LIVEWR.ix c) =
      if d.cst h e c ≠ .idle ∧ (inTable (d.rd (cxL h e c) 0x140) (fget ROW_MAW_IDX.IDX (d.maw (pageOf h.n .row e) m)) ∨
          inTable (d.rdS (cxL h e c) 0x140) (fget ROW_MAW_IDX.IDX (d.maw (pageOf h.n .row e) m)))
      then min (d.g (rowL h e) (ROW_MERR.LIVEWR.ix c) + 1) (2 ^ ROW_MERR.LIVEWR.w - 1) else d.g (rowL h e) (ROW_MERR.LIVEWR.ix c)) ∧
    d.regsOff (liveKey h e) (d.mawEntryWrite m h e v) := by
  rw [Dev.mawEntryWrite_eq, Dev.stagedEntry_eq]
  generalize hi : fget ROW_MAW_IDX.IDX (d.maw (pageOf h.n .row e) m) = i
  obtain ⟨hsregs, hsmotifs, hsmaw, hsshadow⟩ := d.setStage_units (pageOf h.n .row e) m 7 v
  have hsmotif (j : Nat) : (d.setStage (pageOf h.n .row e) m 7 v).motif h e j = d.motif h e j := by unfold Dev.motif; rw [hsmotifs]
  generalize d.setStage (pageOf h.n .row e) m 7 v = x at hsregs hsmaw hsshadow hsmotif
  obtain ⟨heregs, hemaw, heshadow⟩ := x.entryStored_units h e i (d.stagedEntry (pageOf h.n .row e) m v)
  have hemotif := x.entryStored_motif h e i (d.stagedEntry (pageOf h.n .row e) m v)
  generalize x.entryStored h e i (d.stagedEntry (pageOf h.n .row e) m v) = y at heregs hemaw heshadow hemotif
  have hymaw : y.maw (pageOf h.n .row e) m = d.maw (pageOf h.n .row e) m := by unfold Dev.maw; rw [hemaw, hsmaw]
  obtain ⟨⟨hiregs, himotifs, hishadow⟩, hidx⟩ := y.idxStepped_spec (pageOf h.n .row e) m _ hymaw
  generalize y.idxStepped (pageOf h.n .row e) m (d.maw (pageOf h.n .row e) m) = z at hiregs himotifs hishadow hidx
  have hregs : z.regs = d.regs := hiregs.trans (heregs.trans hsregs)
  have hcon (c : Nat) : z.concerns h e i c ↔ d.concerns h e i c := by
    unfold Dev.concerns Dev.cst Dev.g Dev.rd Dev.rdS
    rw [hregs, hishadow, heshadow, hsshadow]
  have hg (c : Nat) : z.g (rowL h e) (ROW_MERR.LIVEWR.ix c) = d.g (rowL h e) (ROW_MERR.LIVEWR.ix c) := by
    unfold Dev.g Dev.rd
    rw [hregs]
  obtain ⟨honly, hlive⟩ := Dev.liveCounts_spec h i he (List.range 32) (fun c hc => List.mem_range.mp hc) List.nodup_range z
  generalize (List.range 32).foldl (Dev.liveCounted h e i) z = w at honly hlive
  refine ⟨fun j => ?_, ?_, fun c hc => ?_, Dev.regsOff_trans (Dev.regsOff_of_regs hregs) honly.2⟩
  · have hw : w.motif h e j = y.motif h e j := by
      unfold Dev.motif
      rw [Dev.motifs_of_quiet honly.1, himotifs]
    rw [hw, hemotif, hsmotif]
  · have hw : w.maw (pageOf h.n .row e) m = z.maw (pageOf h.n .row e) m := by
      unfold Dev.maw
      rw [Dev.mawIdx_of_quiet honly.1]
    rw [hw, hidx, hi]
  · obtain ⟨hyes, hno⟩ := hlive c hc
    split
    · next hd => rw [hyes (List.mem_range.mpr hc) ((hcon c).mpr hd), hg]
    · next hd => rw [hno fun hz => hd ((hcon c).mp hz.2), hg]

end Sys2Proof.Machine
end

section
/-! Renders (R82, R91, R129, R138, R153) and the commands of the motif writer (R103, R104). -/
namespace Sys2Proof.Machine

open Sys2Proof

/-! ### What a render leaves alone -/

/-- The accounts' registers, and the page's from ROW_STAT on with the contexts' banks behind them. -/
def renderKey (h : Half) (e k : Nat) : Prop := errKey k ∨ rowL h e + 0x900 ≤ k
theorem renderKey_row {h : Half} {e o : Nat} (ho : 0x900 ≤ o) : renderKey h e (rowL h e + o) := .inr (Nat.add_le_add_left ho _)
theorem renderKey_cx {h : Half} {e c o : Nat} : renderKey h e (cxL h e c + o) := .inr (by rw [cxL_eq]; unfold Loc; omega)
/-- The headers of the page (PG_CTL, PG_COMMIT) are none of them. -/
theorem not_renderKey_header (h : Half) {e o : Nat} (he : e < 8) (ho : o < 0x024) : ¬ renderKey h e (rowL h e + o) := by
  have hrow := rowL_eq h he
  have hn : h.n < 2 := by cases h <;> decide
  unfold renderKey errKey
  rw [hrow]
  unfold Loc
  omega
theorem passKey_renderKey {h : Half} {e k : Nat} (hk : passKey h e k) : renderKey h e k := by
  rcases hk with rfl | rfl | rfl | rfl | ⟨c, rfl⟩
  · exact renderKey_row (by decide)
  · exact renderKey_row (by decide)
  · exact renderKey_row (by decide)
  · exact renderKey_row (by decide)
  · exact renderKey_cx
section
variable {d y : Dev} {h : Half} {e : Nat}
theorem Dev.clocked_of_render (he : e < 8) (hr : d.regsOff (renderKey h e) y) : y.clocked (rowL h e) = d.clocked (rowL h e) :=
  Dev.on_of_regsOff (f := PG_CTL.ENABLE) hr (not_renderKey_header h he (by decide)) (evReg_row h he (by decide) (by decide) (by decide))
theorem Dev.armed_of_render (he : e < 8) (hr : d.regsOff (renderKey h e) y) : y.armed (pageOf h.n .row e) = d.armed (pageOf h.n .row e) :=
  Dev.on_of_regsOff (f := PG_COMMIT.PENDING) hr (not_renderKey_header h he (by decide)) (evReg_row h he (by decide) (by decide) (by decide))
/-- No commit is armed: the edge between renders changes nothing (R97). -/
theorem Dev.rowEdge_still (ha : d.armed (pageOf h.n .row e) = false) : d.rowEdge h e = d := by
  unfold Dev.rowEdge Dev.ownEdge
  dsimp only
  split
  · rfl
  · exact if_neg (by rw [ha]; simp)
theorem Dev.rowEdge_after (he : e < 8) (ha : d.armed (pageOf h.n .row e) = false) (hr : d.regsOff (renderKey h e) y) : y.rowEdge h e = y :=
  Dev.rowEdge_still ((Dev.armed_of_render he hr).trans ha)
/-- No counter of a pass is ROW_STAT. -/
theorem not_passKey_stat (h : Half) (e : Nat) : ¬ passKey h e (rowL h e + 0x900) := by
  rintro (hk | hk | hk | hk | ⟨c, hk⟩)
  · exact absurd (Nat.add_left_cancel hk) (by decide)
  · exact absurd (Nat.add_left_cancel hk) (by decide)
  · exact absurd (Nat.add_left_cancel hk) (by decide)
  · exact absurd (Nat.add_left_cancel hk) (by decide)
  · exact cx_ne_row h e c 0x824 (by decide) hk.symm
end

/-! ### RENDER_START -/

/-- The head of the due list leaves it. -/
def Dev.headTaken (d : Dev) (h : Half) (e : Nat) (rest : List Due) : Dev := d.modEng h e (fun g => { g with due := rest })
/-- A render begins with its motif scan done. -/
def Dev.renderBegun (d : Dev) (h : Half) (e : Nat) (x : Due) (k : List (Nat × Nat) × Nat × Nat × Bool) : Dev :=
  ((d.modEng h e (fun g => { g.begin k with cur := some x })).p (rowL h e) ROW_STAT.BUSY 1).p (rowL h e) ROW_STAT.CUR x.ctx
theorem Dev.startWith_eq {d : Dev} (m : Mem) {h : Half} {e : Nat} {x : Due} (hue : d.motUe h e x.image = false) :
    d.startWith m h e x = (d.renderBegun h e x (d.scanMotifs h e x)).pipeOn m h e := by
  unfold Dev.startWith
  exact if_neg (by rw [hue]; exact Bool.false_ne_true)
theorem Dev.motUe_headTaken (d : Dev) (h : Half) (e : Nat) (rest : List Due) (img : List Word) : (d.headTaken h e rest).motUe h e img = d.motUe h e img := rfl
theorem Dev.motif_headTaken (d : Dev) (h : Half) (e : Nat) (rest : List Due) (i : Nat) : (d.headTaken h e rest).motif h e i = d.motif h e i := rfl
theorem Dev.scanMotifs_headTaken (d : Dev) (h : Half) (e : Nat) (rest : List Due) (x : Due) : (d.headTaken h e rest).scanMotifs h e x = d.scanMotifs h e x := by
  have htable : (d.headTaken h e rest).motTable h e x.image = d.motTable h e x.image := by
    unfold Dev.motTable
    simp only [Dev.motif_headTaken]
  unfold Dev.scanMotifs
  rw [htable]
theorem Dev.renderBegun_spec (d : Dev) (h : Half) (e : Nat) (x : Due) (k : List (Nat × Nat) × Nat × Nat × Bool) :
    (d.renderBegun h e x k).eng h e = { (d.eng h e).begin k with cur := some x } ∧ (d.renderBegun h e x k).on (rowL h e) ROW_STAT.BUSY = true ∧
    (d.renderBegun h e x k).g (rowL h e) ROW_STAT.CUR = x.ctx % 32 ∧ (d.renderBegun h e x k).chans = d.chans ∧ (d.renderBegun h e x k).ctxs = d.ctxs ∧
    d.regsOff (renderKey h e) (d.renderBegun h e x k) := by
  unfold Dev.renderBegun
  refine ⟨?_, ?_, Dev.g_p_same _ _ _ _ (by decide), ?_, ?_, ?_⟩
  · rw [Dev.p_eng, Dev.p_eng, Dev.eng_modEng_same]
  · refine Eq.trans ?_ (Dev.on_p_one (d.modEng h e (fun g => { g.begin k with cur := some x })) (rowL h e) (f := ROW_STAT.BUSY) (by decide) (by decide))
    unfold Dev.on
    rw [Dev.g_p_disj (f := ROW_STAT.CUR) (f' := ROW_STAT.BUSY) _ _ _ rfl (by decide) (by decide)]
  · rw [Dev.p_chans, Dev.p_chans, Dev.modEng_chans]
  · rw [Dev.p_ctxs, Dev.p_ctxs, Dev.modEng_ctxs]
  · exact Dev.regsOff_trans (Dev.regsOff_trans (Dev.regsOff_of_regs (Dev.modEng_regs ..)) (Dev.regsOff_p _ _ (renderKey_row (by decide))))
      (Dev.regsOff_p _ _ (renderKey_row (by decide)))

section
variable {d : Dev} {m : Mem} {h : Half} {e : Nat} {x : Due} {rest : List Due}
/-- A render from the active set, or once more. -/
theorem Dev.renderStart_new (hc : (d.eng h e).cur = none) (hl : (d.eng h e).lcur = none) (hd : (d.eng h e).due = x :: rest) (ht : (d.eng h e).tinv = none)
    (hm : (d.eng h e).minv = none) (hk : x.kind = .new ∨ x.again = true) : d.renderStart m h e = (d.headTaken h e rest).startWith m h e x := by
  unfold Dev.renderStart
  dsimp only
  rw [hc, hl, hd, ht, hm]
  dsimp only
  rw [if_neg (by decide)]
  rcases hk with hk | hk
  · rw [hk]
    cases x.again <;> rfl
  · rw [hk]
    rfl
/-- A replay or re-render from its record. -/
theorem Dev.renderStart_record (hc : (d.eng h e).cur = none) (hl : (d.eng h e).lcur = none) (hd : (d.eng h e).due = x :: rest) (ht : (d.eng h e).tinv = none)
    (hm : (d.eng h e).minv = none) (hk : x.kind = .replay ∨ x.kind = .reverse) (ha : x.again = false) : d.renderStart m h e =
      if ((d.eng h e).newRows x.ctx).contains x.row then d
      else if (d.headTaken h e rest).rowValid h e x.ctx x.row then
        (if (d.headTaken h e rest).recOk m h e x.ctx x.row then ((d.headTaken h e rest).readRec h e x.ctx x.row).startWith m h e ((d.headTaken h e rest).fromRecord m h e x)
          else ((d.headTaken h e rest).readRec h e x.ctx x.row).limit h e x true)
      else (d.headTaken h e rest).limit h e x false := by
  unfold Dev.renderStart
  dsimp only
  rw [hc, hl, hd, ht, hm]
  dsimp only
  rw [if_neg (by decide), ha]
  rcases hk with hk | hk <;> rw [hk] <;> rfl
theorem Dev.renderStart_new_spec (hc : (d.eng h e).cur = none) (hl : (d.eng h e).lcur = none) (hd : (d.eng h e).due = x :: rest) (ht : (d.eng h e).tinv = none)
    (hm : (d.eng h e).minv = none) (hk : x.kind = .new ∨ x.again = true) (hue : d.motUe h e x.image = false) (he : e < 8) :
    (((d.renderStart m h e).eng h e).cur = some x ∧ ((d.renderStart m h e).eng h e).due = rest ∧
      ((d.renderStart m h e).eng h e).kept = (d.scanMotifs h e x).1 ∧ (d.renderStart m h e).on (rowL h e) ROW_STAT.BUSY = true ∧
      (d.renderStart m h e).g (rowL h e) ROW_STAT.CUR = x.ctx % 32 ∧ (d.renderStart m h e).chans = d.chans ∧ (d.renderStart m h e).ctxs = d.ctxs) ∧
    d.regsOff (renderKey h e) (d.renderStart m h e) := by
  rw [Dev.renderStart_new hc hl hd ht hm hk, Dev.startWith_eq m (by rw [Dev.motUe_headTaken]; exact hue), Dev.scanMotifs_headTaken]
  have heng : (d.headTaken h e rest).eng h e = { d.eng h e with due := rest } := Dev.eng_modEng_same ..
  have hchans : (d.headTaken h e rest).chans = d.chans := Dev.modEng_chans ..
  have hctxs : (d.headTaken h e rest).ctxs = d.ctxs := Dev.modEng_ctxs ..
  have hregs : (d.headTaken h e rest).regs = d.regs := Dev.modEng_regs ..
  generalize d.headTaken h e rest = y at heng hchans hctxs hregs
  obtain ⟨hbeng, hbusy, hcur, hbchans, hbctxs, hbregs⟩ := y.renderBegun_spec h e x (d.scanMotifs h e x)
  generalize y.renderBegun h e x (d.scanMotifs h e x) = z at hbeng hbusy hcur hbchans hbctxs hbregs
  have hdesk : ((z.pipeOn m h e).eng h e).desk = (z.eng h e).desk := Dev.pipeOn_desk
  have hstat (f : Fld) (hf : f.off = 0x900) : (z.pipeOn m h e).g (rowL h e) f = z.g (rowL h e) f :=
    Dev.g_of_regsOff Dev.pipeOn_regs (by rw [hf]; exact not_passKey_stat h e) (evReg_row h he (by omega) (by omega) (by omega))
  refine ⟨⟨?_, ?_, ?_, ?_, (hstat _ rfl).trans hcur, ?_, ?_⟩, ?_⟩
  · rw [Engine.cur_of_desk hdesk, hbeng]
  · rw [Engine.due_of_desk hdesk, hbeng, heng]
    rfl
  · rw [Engine.kept_of_desk hdesk, hbeng]
    rfl
  · unfold Dev.on
    rw [hstat _ rfl]
    exact hbusy
  · rw [Dev.chans_of_rest Dev.pipeOn_rest, hbchans, hchans]
  · rw [Dev.pipeOn_ctxs, hbctxs, hctxs]
  · exact Dev.regsOff_trans (Dev.regsOff_of_regs hregs) (Dev.regsOff_trans hbregs (Dev.regsOff_mono (fun _ => passKey_renderKey) Dev.pipeOn_regs))

/-- The context is held at the limit. -/
def Dev.limitHeld (d : Dev) (h : Half) (e : Nat) (x : Due) : Dev :=
  (d.modEng h e (fun g => { g with due := g.due.filter (fun y => !(decide (y.ctx = x.ctx) && decide (y.batch = x.batch))) })).enterHold h e x.ctx true
theorem Dev.limit_invalid (d : Dev) (h : Half) (e : Nat) (x : Due) :
    d.limit h e x false = ((d.limitHeld h e x).sat (rowL h e) (ROW_RERR.LIMIT.ix x.ctx)).raiseCtx (rowL h e) x.ctx 18 := by
  unfold Dev.limit
  exact if_neg Bool.false_ne_true
theorem Dev.limit_spec (he : e < 8) (hctx : x.ctx < 32) (hclock : d.clocked (rowL h e) = true) :
    (((d.limit h e x false).eng h e).cur = (d.eng h e).cur ∧ (d.limit h e x false).cst h e x.ctx = .hold ∧
      (d.limit h e x false).on (rowL h e) (ROW_REVST.REVHELD.ix x.ctx) = true ∧ (d.limit h e x false).raised (rowL h e) 18) ∧
    d.regsOff (renderKey h e) (d.limit h e x false) := by
  have hrevoff : (ROW_REVST.REVHELD.ix x.ctx).off = 0xC0C + 0x10 * x.ctx := rfl
  have hlimoff : (ROW_RERR.LIMIT.ix x.ctx).off = 0xE04 + 8 * x.ctx := rfl
  have hheld : ((d.limitHeld h e x).eng h e).cur = (d.eng h e).cur ∧ (d.limitHeld h e x).cst h e x.ctx = .hold ∧
      (d.limitHeld h e x).g (rowL h e) (ROW_REVST.REVHELD.ix x.ctx) = 1 ∧ d.regsOff (renderKey h e) (d.limitHeld h e x) := by
    unfold Dev.limitHeld
    have hy : ((d.modEng h e (fun g => { g with due := g.due.filter (fun y => !(decide (y.ctx = x.ctx) && decide (y.batch = x.batch))) })).eng h e).cur = (d.eng h e).cur := by
      rw [Dev.eng_modEng_same]
    have hregs := Dev.modEng_regs d h e (fun g => { g with due := g.due.filter (fun y => !(decide (y.ctx = x.ctx) && decide (y.batch = x.batch))) })
    generalize d.modEng h e (fun g => { g with due := g.due.filter (fun y => !(decide (y.ctx = x.ctx) && decide (y.batch = x.batch))) }) = y at hy hregs
    obtain ⟨hcst, -, hrev, honly⟩ := y.enterHold_spec h e hctx true
    refine ⟨by rw [Dev.eng_of_quiet honly.1, hy], hcst, hrev, Dev.regsOff_trans (Dev.regsOff_of_regs hregs) (Dev.regsOff_of_regsKept honly.2 fun k hk => ?_)⟩
    simp only [List.mem_cons, List.not_mem_nil, or_false] at hk
    rcases hk with rfl | rfl | rfl
    · exact renderKey_cx
    · exact renderKey_cx
    · exact renderKey_row (by omega)
  rw [Dev.limit_invalid]
  generalize d.limitHeld h e x = y at hheld
  obtain ⟨hcur, hcst, hrev, hregs⟩ := hheld
  have hsat : y.onlyOff (fun k => k = rowL h e + (ROW_RERR.LIMIT.ix x.ctx).off) (y.sat (rowL h e) (ROW_RERR.LIMIT.ix x.ctx)) := Dev.onlyOff_sat y 1 rfl
  generalize y.sat (rowL h e) (ROW_RERR.LIMIT.ix x.ctx) = z at hsat
  have hraise : z.onlyOff (fun k => k = rowL h e + 0x924) (z.raiseCtx (rowL h e) x.ctx 18) := Dev.onlyOff_raiseCtx z (rowL_page h e) x.ctx 18 rfl
  have hz : d.regsOff (renderKey h e) z := Dev.regsOff_trans hregs (Dev.regsOff_mono (fun k hk => by rw [hk]; exact renderKey_row (by omega)) hsat.2)
  refine ⟨⟨?_, ?_, ?_, Dev.raiseCtx_raised z (rowL_page h e) x.ctx (by decide) ((Dev.clocked_of_render he hz).trans hclock)⟩,
    Dev.regsOff_trans hz (Dev.regsOff_mono (fun k hk => by rw [hk]; exact renderKey_row (by decide)) hraise.2)⟩
  · rw [Dev.eng_of_quiet hraise.1, Dev.eng_of_quiet hsat.1, hcur]
  · rw [Dev.cst_of_regsOff hraise.2 (cx_ne_row h e _ _ (by decide)) hctx, Dev.cst_of_regsOff hsat.2 (cx_ne_row h e _ _ (by omega)) hctx, hcst]
  · unfold Dev.on
    rw [Dev.g_of_regsOff hraise.2 (by unfold Loc; omega) (evReg_row h he (by omega) (by omega) (by omega)),
      Dev.g_of_regsOff hsat.2 (by unfold Loc; omega) (evReg_row h he (by omega) (by omega) (by omega)), hrev]
    rfl
theorem Dev.rowValid_headTaken (d : Dev) (h : Half) (e : Nat) (rest : List Due) (c r : Nat) : (d.headTaken h e rest).rowValid h e c r = d.rowValid h e c r := by
  unfold Dev.rowValid Dev.headTaken
  rw [Dev.modEng_g, Dev.modEng_g, Dev.modEng_cx]
theorem Dev.renderStart_limit_spec (hc : (d.eng h e).cur = none) (hl : (d.eng h e).lcur = none) (hd : (d.eng h e).due = x :: rest) (ht : (d.eng h e).tinv = none)
    (hm : (d.eng h e).minv = none) (hk : x.kind = .replay ∨ x.kind = .reverse) (ha : x.again = false) (hnew : ((d.eng h e).newRows x.ctx).contains x.row = false)
    (hctx : x.ctx < 32) (hno : d.rowValid h e x.ctx x.row = false) (he : e < 8) (hclock : d.clocked (rowL h e) = true) :
    (((d.renderStart m h e).eng h e).cur = none ∧ (d.renderStart m h e).cst h e x.ctx = .hold ∧
      (d.renderStart m h e).on (rowL h e) (ROW_REVST.REVHELD.ix x.ctx) = true ∧ (d.renderStart m h e).raised (rowL h e) 18) ∧
    d.regsOff (renderKey h e) (d.renderStart m h e) := by
  rw [Dev.renderStart_record hc hl hd ht hm hk ha, if_neg (by rw [hnew]; exact Bool.false_ne_true),
    if_neg (by rw [Dev.rowValid_headTaken, hno]; exact Bool.false_ne_true)]
  have heng : ((d.headTaken h e rest).eng h e).cur = none := by
    unfold Dev.headTaken
    rw [Dev.eng_modEng_same]
    exact hc
  have hregs : (d.headTaken h e rest).regs = d.regs := Dev.modEng_regs ..
  have hon : (d.headTaken h e rest).clocked (rowL h e) = true := (Dev.modEng_on ..).trans hclock
  generalize d.headTaken h e rest = y at heng hregs hon
  obtain ⟨⟨hcur, hcst, hrev, hraised⟩, hkept⟩ := Dev.limit_spec (x := x) he hctx hon
  exact ⟨⟨hcur.trans heng, hcst, hrev, hraised⟩, Dev.regsOff_trans (Dev.regsOff_of_regs hregs) hkept⟩
end

/-! ### LINE_FILL_RETURN -/

/-- A line enters the cache that waits for it. -/
def Engine.lineIn (g : Engine) (mot : Bool) (line v : Nat) : Engine :=
  if mot then { g with wantM := g.wantM.erase line, mc := cacheFill 512 g.mc line v } else { g with want := g.want.erase line, tc := cacheFill 1024 g.tc line v }
theorem mem_cacheFill (sets : Nat) (c : List (Nat × Nat)) (line v : Nat) : (line, v) ∈ cacheFill sets c line v := by
  unfold cacheFill
  dsimp only
  split <;> exact List.mem_cons_self ..
theorem Engine.lineIn_cur (g : Engine) (mot : Bool) (line v : Nat) : (g.lineIn mot line v).cur = g.cur := by cases mot <;> rfl
theorem Engine.lineIn_spec (g : Engine) (mot : Bool) (line v : Nat) :
    (g.lineIn mot line v).want = (if mot then g.want else g.want.erase line) ∧ (g.lineIn mot line v).wantM = (if mot then g.wantM.erase line else g.wantM) ∧
    (g.lineIn mot line v).cells = g.cells ∧ (line, v) ∈ (if mot then (g.lineIn mot line v).mc else (g.lineIn mot line v).tc) := by
  cases mot
  · exact ⟨rfl, rfl, rfl, mem_cacheFill 1024 g.tc line v⟩
  · exact ⟨rfl, rfl, rfl, mem_cacheFill 512 g.mc line v⟩
/-- With other lines outstanding, or without a block, the pipe still waits. -/
theorem Engine.lineIn_stalled (g : Engine) {mot : Bool} {line : Nat} (v : Nat) (hin : line ∈ (if mot then g.wantM else g.want))
    (hmore : 1 < g.want.length + g.wantM.length ∨ g.blocked = true) : (g.lineIn mot line v).stalled = true := by
  have hempty {α : Type} (l : List α) : l.isEmpty = false ↔ 0 < l.length := by cases l <;> simp
  have hst (q : Engine) (hq : 0 < q.want.length + q.wantM.length ∨ q.blocked = true) : q.stalled = true := by
    unfold Engine.stalled
    rcases hq with hq | hq
    · rcases Nat.eq_zero_or_pos q.want.length with h0 | h0
      · rw [(hempty q.wantM).mpr (by omega)]
        simp
      · rw [(hempty q.want).mpr h0]
        rfl
    · rw [hq, Bool.or_true]
  refine hst _ ?_
  cases mot
  · have hlen : (g.want.erase line).length = g.want.length - 1 := List.length_erase_of_mem hin
    have hpos : 0 < g.want.length := List.length_pos_of_mem hin
    change 0 < (g.want.erase line).length + g.wantM.length ∨ g.blocked = true
    rw [hlen]
    exact hmore.imp_left fun h => by omega
  · have hlen : (g.wantM.erase line).length = g.wantM.length - 1 := List.length_erase_of_mem hin
    have hpos : 0 < g.wantM.length := List.length_pos_of_mem hin
    change 0 < g.want.length + (g.wantM.erase line).length ∨ g.blocked = true
    rw [hlen]
    exact hmore.imp_left fun h => by omega

/-- The pipe goes on where it no longer waits. -/
def Dev.pipeNext (d : Dev) (m : Mem) (h : Half) (e : Nat) : Dev := if (d.eng h e).stalled then d else d.pipeOn m h e
section
variable {d : Dev} {m : Mem} {h : Half} {e : Nat} {x : Due} {mot ue : Bool} {line : Nat}
theorem Dev.lineFill_eq (hin : line ∈ (if mot then (d.eng h e).wantM else (d.eng h e).want)) : d.lineFill m h e mot line ue =
    match d.fillMark m h line ue with
    | .data => ((d.fillAccess m h line ue).modEng h e (fun g => g.lineIn mot line (lineData d m h line))).pipeNext m h e
    | .absent => (d.fillAccess m h line ue).park h e line
    | .uncorrectable => (d.fillAccess m h line ue).lineLost h e := by
  have hwaits : (if mot then (d.eng h e).wantM else (d.eng h e).want).contains line = true := List.contains_iff_mem.mpr hin
  unfold Dev.lineFill
  dsimp only
  rw [if_pos hwaits]
  cases d.fillMark m h line ue with
  | data => cases mot <;> rfl
  | absent => rfl
  | uncorrectable => rfl

theorem Dev.lineFill_data (hc : (d.eng h e).cur = some x) (hin : line ∈ (if mot then (d.eng h e).wantM else (d.eng h e).want))
    (hmark : d.fillMark m h line ue = .data) :
    ((d.lineFill m h e mot line ue).eng h e).cur = some x ∧ (d.lineFill m h e mot line ue).chans = d.chans ∧ (d.lineFill m h e mot line ue).ctxs = d.ctxs ∧
    ((1 < (d.eng h e).want.length + (d.eng h e).wantM.length ∨ (d.eng h e).blocked = true) →
      ((d.lineFill m h e mot line ue).eng h e).want = (if mot then (d.eng h e).want else (d.eng h e).want.erase line) ∧
      ((d.lineFill m h e mot line ue).eng h e).wantM = (if mot then (d.eng h e).wantM.erase line else (d.eng h e).wantM) ∧
      ((d.lineFill m h e mot line ue).eng h e).cells = (d.eng h e).cells ∧
      (line, lineData d m h line) ∈ (if mot then ((d.lineFill m h e mot line ue).eng h e).mc else ((d.lineFill m h e mot line ue).eng h e).tc)) := by
  rw [Dev.lineFill_eq hin, hmark]
  dsimp only
  have herrs := d.errsOnly_fillAccess m h line ue
  generalize d.fillAccess m h line ue = y at herrs
  have heng : (y.modEng h e (fun g => g.lineIn mot line (lineData d m h line))).eng h e = (d.eng h e).lineIn mot line (lineData d m h line) := by
    rw [Dev.eng_modEng_same, Dev.eng_of_bare herrs.1]
  have hchans : (y.modEng h e (fun g => g.lineIn mot line (lineData d m h line))).chans = d.chans := (Dev.modEng_chans ..).trans (Dev.chans_of_bare herrs.1)
  have hctxs : (y.modEng h e (fun g => g.lineIn mot line (lineData d m h line))).ctxs = d.ctxs := (Dev.modEng_ctxs ..).trans (Dev.ctxs_of_bare herrs.1)
  generalize y.modEng h e (fun g => g.lineIn mot line (lineData d m h line)) = z at heng hchans hctxs
  have hcur : (z.eng h e).cur = some x := by rw [heng, Engine.lineIn_cur, hc]
  have hnext : ((z.pipeNext m h e).eng h e).cur = some x ∧ (z.pipeNext m h e).chans = d.chans ∧ (z.pipeNext m h e).ctxs = d.ctxs := by
    unfold Dev.pipeNext
    split
    · exact ⟨hcur, hchans, hctxs⟩
    · exact ⟨(Engine.cur_of_desk Dev.pipeOn_desk).trans hcur, (Dev.chans_of_rest Dev.pipeOn_rest).trans hchans, Dev.pipeOn_ctxs.trans hctxs⟩
  refine ⟨hnext.1, hnext.2.1, hnext.2.2, fun hmore => ?_⟩
  have hwaits : z.pipeNext m h e = z := by
    unfold Dev.pipeNext
    rw [heng, Engine.lineIn_stalled _ _ hin hmore]
    exact if_pos rfl
  rw [hwaits, heng]
  exact Engine.lineIn_spec ..

/-- The present render is gone (R91). -/
theorem Dev.dropRender_spec (d : Dev) (h : Half) (e : Nat) : (d.dropRender h e).eng h e = { (d.eng h e).clearPipe with cur := none } ∧
    (d.dropRender h e).chans = d.chans ∧ d.regsOff (renderKey h e) (d.dropRender h e) := by
  unfold Dev.dropRender
  refine ⟨?_, ?_, Dev.regsOff_trans (Dev.regsOff_of_regs (Dev.modEng_regs ..)) (Dev.regsOff_p _ _ (renderKey_row (by decide)))⟩
  · rw [Dev.p_eng, Dev.eng_modEng_same]
  · rw [Dev.p_chans, Dev.modEng_chans]
/-- A parked render waits for its line. -/
def Dev.parkedFor (d : Dev) (h : Half) (e : Nat) (x : Due) (line : Nat) : Dev :=
  (d.modEng h e (fun g => { g with parked := g.parked ++ [(x, line)] })).p (cxL h e x.ctx) ROW_CSTAT.PARKED 1
theorem Dev.park_eq (hc : (d.eng h e).cur = some x) : d.park h e line =
    (((d.dropRender h e).parkedFor h e x line).sat (cxL h e x.ctx) ROW_CCNT_LATE.PARKS).raiseCtx (rowL h e) x.ctx 5 := by
  unfold Dev.park
  dsimp only
  rw [hc]
  rfl
theorem Dev.parkedFor_spec (d : Dev) (h : Half) (e : Nat) (x : Due) (line : Nat) :
    (d.parkedFor h e x line).eng h e = { d.eng h e with parked := (d.eng h e).parked ++ [(x, line)] } ∧
    (d.parkedFor h e x line).on (cxL h e x.ctx) ROW_CSTAT.PARKED = true ∧ (d.parkedFor h e x line).chans = d.chans ∧
    d.regsOff (renderKey h e) (d.parkedFor h e x line) := by
  unfold Dev.parkedFor
  refine ⟨?_, Dev.on_p_one _ _ (by decide) (by decide), ?_, Dev.regsOff_trans (Dev.regsOff_of_regs (Dev.modEng_regs ..)) (Dev.regsOff_p _ _ renderKey_cx)⟩
  · rw [Dev.p_eng, Dev.eng_modEng_same]
  · rw [Dev.p_chans, Dev.modEng_chans]
theorem Dev.park_spec (he : e < 8) (hctx : x.ctx < 32) (hclock : d.clocked (rowL h e) = true) (hc : (d.eng h e).cur = some x) :
    (((d.park h e line).eng h e).cur = none ∧ (x, line) ∈ ((d.park h e line).eng h e).parked ∧ (d.park h e line).on (cxL h e x.ctx) ROW_CSTAT.PARKED = true ∧
      (d.park h e line).raised (rowL h e) 5 ∧ (d.park h e line).chans = d.chans) ∧ d.regsOff (renderKey h e) (d.park h e line) := by
  rw [Dev.park_eq hc]
  obtain ⟨hdeng, hdchans, hdregs⟩ := d.dropRender_spec h e
  generalize d.dropRender h e = y at hdeng hdchans hdregs
  obtain ⟨hpeng, hpon, hpchans, hpregs⟩ := y.parkedFor_spec h e x line
  generalize y.parkedFor h e x line = z at hpeng hpon hpchans hpregs
  have hsat : z.onlyOff (fun k => k = cxL h e x.ctx + 0x82C) (z.sat (cxL h e x.ctx) ROW_CCNT_LATE.PARKS) := Dev.onlyOff_sat z 1 rfl
  generalize z.sat (cxL h e x.ctx) ROW_CCNT_LATE.PARKS = w at hsat
  have hraise : w.onlyOff (fun k => k = rowL h e + 0x924) (w.raiseCtx (rowL h e) x.ctx 5) := Dev.onlyOff_raiseCtx w (rowL_page h e) x.ctx 5 rfl
  have hw : d.regsOff (renderKey h e) w := Dev.regsOff_trans (Dev.regsOff_trans hdregs hpregs) (Dev.regsOff_mono (fun k hk => by rw [hk]; exact renderKey_cx) hsat.2)
  have heng : (w.raiseCtx (rowL h e) x.ctx 5).eng h e = { y.eng h e with parked := (y.eng h e).parked ++ [(x, line)] } := by
    rw [Dev.eng_of_quiet hraise.1, Dev.eng_of_quiet hsat.1, hpeng]
  have hstat : ROW_CSTAT.PARKED.off = 0x814 := rfl
  refine ⟨⟨?_, ?_, ?_, Dev.raiseCtx_raised w (rowL_page h e) x.ctx (by decide) ((Dev.clocked_of_render he hw).trans hclock), ?_⟩,
    Dev.regsOff_trans hw (Dev.regsOff_mono (fun k hk => by rw [hk]; exact renderKey_row (by decide)) hraise.2)⟩
  · rw [heng, hdeng]
  · rw [heng]
    exact List.mem_append_right _ (List.mem_singleton_self _)
  · rw [Dev.on_of_regsOff hraise.2 (cx_ne_row h e _ _ (by decide)) (evReg_cx h e hctx (by decide)),
      Dev.on_of_regsOff hsat.2 (by rw [hstat]; unfold Loc; omega) (evReg_cx h e hctx (by decide)), hpon]
  · rw [Dev.chans_of_quiet hraise.1, Dev.chans_of_quiet hsat.1, hpchans, hdchans]
theorem Dev.lineFill_absent (he : e < 8) (hctx : x.ctx < 32) (hclock : d.clocked (rowL h e) = true) (hc : (d.eng h e).cur = some x)
    (hin : line ∈ (if mot then (d.eng h e).wantM else (d.eng h e).want)) (hmark : d.fillMark m h line ue = .absent) :
    (((d.lineFill m h e mot line ue).eng h e).cur = none ∧ (x, line) ∈ ((d.lineFill m h e mot line ue).eng h e).parked ∧
      (d.lineFill m h e mot line ue).on (cxL h e x.ctx) ROW_CSTAT.PARKED = true ∧ (d.lineFill m h e mot line ue).raised (rowL h e) 5 ∧
      (d.lineFill m h e mot line ue).chans = d.chans) ∧ d.regsOff (renderKey h e) (d.lineFill m h e mot line ue) := by
  rw [Dev.lineFill_eq hin, hmark]
  dsimp only
  have herrs := d.errsOnly_fillAccess m h line ue
  generalize d.fillAccess m h line ue = y at herrs
  have hregs : d.regsOff (renderKey h e) y := Dev.regsOff_mono (fun _ hk => .inl hk) herrs.2
  obtain ⟨⟨hcur, hparked, hon, hraised, hchans⟩, hkept⟩ := Dev.park_spec (d := y) (line := line) he hctx ((Dev.clocked_of_render he hregs).trans hclock)
    ((congrArg Engine.cur (Dev.eng_of_bare herrs.1 h e)).trans hc)
  exact ⟨⟨hcur, hparked, hon, hraised, hchans.trans (Dev.chans_of_bare herrs.1)⟩, Dev.regsOff_trans hregs hkept⟩

theorem Engine.abandon_cur_none {g : Engine} (hg : g.cur = none) (c : Nat) : (g.abandon c).cur = none := by
  unfold Engine.abandon
  rw [hg]
  exact hg
theorem Dev.ctxFault_cur (hc : (d.eng h e).cur = none) (c cause : Nat) : ((d.ctxFault h e c cause).eng h e).cur = none := by
  rw [Dev.ctxFault_eng, Dev.dueGone_eng, Dev.dropDue_eng]
  refine Engine.abandon_cur_none ?_ c
  exact hc
theorem Dev.ctxFault_regsOff (d : Dev) (h : Half) (e c cause : Nat) : d.regsOff (renderKey h e) (d.ctxFault h e c cause) := by
  have hreport : (d.ctxFault h e c cause).regs = (d.faulted h e c cause).regs := Dev.ctxFault_view Dev.regs Dev.reportP_regs d e c cause
  refine Dev.regsOff_trans (e := d.faulted h e c cause) ?_ (Dev.regsOff_of_regs hreport)
  have hgone : d.regsOff (renderKey h e) (d.dueGone h e c) := Dev.regsOff_mono (fun k hk => by
    rcases hk with rfl | rfl
    · exact renderKey_cx
    · exact renderKey_row (by decide)) (d.dueGone_regs h e c)
  unfold Dev.faulted Dev.setCst
  generalize d.dueGone h e c = y at hgone
  exact Dev.regsOff_trans hgone (Dev.regsOff_trans (Dev.regsOff_trans (Dev.regsOff_trans (Dev.regsOff_p y _ renderKey_cx) (Dev.regsOff_p _ _ renderKey_cx))
    (Dev.regsOff_of_regs (Dev.modCx_regs ..))) (Dev.regsOff_raiseCtx _ (rowL_page h e) c 0 (renderKey_row (by decide))))
theorem Dev.lineFill_lost (hctx : x.ctx < 32) (hc : (d.eng h e).cur = some x) (hin : line ∈ (if mot then (d.eng h e).wantM else (d.eng h e).want))
    (hmark : d.fillMark m h line ue = .uncorrectable) :
    (((d.lineFill m h e mot line ue).eng h e).cur = none ∧ (d.lineFill m h e mot line ue).cst h e x.ctx = .fault ∧
      (d.lineFill m h e mot line ue).g (cxL h e x.ctx) ROW_CSTAT.FAULT_CAUSE = 3 ∧ (d.lineFill m h e mot line ue).chans = d.chans) ∧
    d.regsOff (renderKey h e) (d.lineFill m h e mot line ue) := by
  rw [Dev.lineFill_eq hin, hmark]
  dsimp only
  have herrs := d.errsOnly_fillAccess m h line ue
  generalize d.fillAccess m h line ue = y at herrs
  have hyc : (y.eng h e).cur = some x := (congrArg Engine.cur (Dev.eng_of_bare herrs.1 h e)).trans hc
  have hlost : y.lineLost h e = (y.dropRender h e).ctxFault h e x.ctx 3 := by
    unfold Dev.lineLost
    dsimp only
    rw [hyc]
  rw [hlost]
  obtain ⟨hdeng, hdchans, hdregs⟩ := y.dropRender_spec h e
  generalize y.dropRender h e = z at hdeng hdchans hdregs
  obtain ⟨hcst, hcause, -, -, hchans⟩ := z.ctxFault_spec h (e := e) 3 hctx
  refine ⟨⟨Dev.ctxFault_cur (by rw [hdeng]) x.ctx 3, hcst, hcause, ?_⟩,
    Dev.regsOff_trans (Dev.regsOff_mono (fun _ hk => .inl hk) herrs.2) (Dev.regsOff_trans hdregs (z.ctxFault_regsOff h e x.ctx 3))⟩
  rw [hchans, hdchans, Dev.chans_of_bare herrs.1]
end

/-! ### RENDER_COMPLETE -/

/-- A row that is drawn. -/
def Engine.rowOf (g : Engine) (x : Due) : RRow := ⟨{ x with again := false }, (g.row x).1, (g.row x).2, g.mdrop, false, g.blocks⟩
/-- The engine with a row drawn: the row waits for its lane. -/
def Engine.rowDrawn (g : Engine) (x : Due) (r : RRow) : Engine :=
  { g.clearPipe with cur := none, ready := if x.again then r :: g.ready else g.ready ++ [r], rrc := g.rrc ++ [r] }
/-- A row is drawn, and the pipe is free. -/
def Dev.rowDrawn (d : Dev) (h : Half) (e : Nat) (x : Due) : Dev :=
  ((d.poolWritten h e x.width (d.eng h e).blocks).modEng h e (fun g => g.rowDrawn x ((d.eng h e).rowOf x))).p (rowL h e) ROW_STAT.BUSY 0
/-- Nothing but what a render counts behind ROW_STAT, and the lines to prefetch, changed. -/
def Dev.countsOnly (h : Half) (e : Nat) (d y : Dev) : Prop :=
  y.chans = d.chans ∧ { y.eng h e with pf := [] } = ({ d.eng h e with pf := [] } : Engine) ∧ d.regsOff (fun k => rowL h e + 0x900 < k) y
/-- What a row that was drawn for the first time counts. -/
def Dev.rowCounted (d : Dev) (h : Half) (e : Nat) (x : Due) (g : Engine) : Dev :=
  match x.kind with
  | .new => d.countMotifs h e x.ctx g
  | .replay => d.sat (rowL h e) (ROW_RCNT.REPLAYS.ix x.ctx)
  | .reverse => d.sat (rowL h e) (ROW_RCNT.REVROWS.ix x.ctx)
  | _ => d

section
variable {d y z : Dev} {h : Half} {e : Nat} {x : Due}
theorem Dev.countsOnly_refl (h : Half) (e : Nat) (d : Dev) : Dev.countsOnly h e d d := ⟨rfl, rfl, Dev.regsOff_refl _ d⟩
theorem Dev.countsOnly_trans (h1 : Dev.countsOnly h e d y) (h2 : Dev.countsOnly h e y z) : Dev.countsOnly h e d z :=
  ⟨h2.1.trans h1.1, h2.2.1.trans h1.2.1, Dev.regsOff_trans h1.2.2 h2.2.2⟩
theorem Dev.countsOnly_of_onlyOff (ho : d.onlyOff (fun k => rowL h e + 0x900 < k) y) : Dev.countsOnly h e d y :=
  ⟨Dev.chans_of_quiet ho.1, by rw [Dev.eng_of_quiet ho.1], ho.2⟩
theorem Dev.onlyOff_sat_row (d : Dev) {f : Fld} (n : Nat) (hf : 0x900 < f.off) : d.onlyOff (fun k => rowL h e + 0x900 < k) (d.sat (rowL h e) f n) :=
  Dev.onlyOff_sat d n (Nat.add_lt_add_left hf _)
theorem Dev.onlyOff_maxF_row (d : Dev) {f : Fld} (v : Nat) (hf : 0x900 < f.off) : d.onlyOff (fun k => rowL h e + 0x900 < k) (d.maxF (rowL h e) f v) :=
  Dev.onlyOff_p d _ (Nat.add_lt_add_left hf _)
theorem Dev.onlyOff_raiseCtx_row (d : Dev) (c n : Nat) : d.onlyOff (fun k => rowL h e + 0x900 < k) (d.raiseCtx (rowL h e) c n) :=
  Dev.onlyOff_raiseCtx d (rowL_page h e) c n (Nat.add_lt_add_left (by decide) _)
theorem Fld.ix_off_ge (f : Fld) (i : Nat) : f.off ≤ (f.ix i).off := Nat.le_add_right ..
theorem Dev.countMotifs_onlyOff (d : Dev) (h : Half) (e c : Nat) (g : Engine) : d.onlyOff (fun k => rowL h e + 0x900 < k) (d.countMotifs h e c g) := by
  have hix {f : Fld} (hf : 0x900 < f.off) : 0x900 < (f.ix c).off := Nat.lt_of_lt_of_le hf (f.ix_off_ge c)
  unfold Dev.countMotifs
  extract_lets l lost d1 d2 d3 d4
  have h1 : d.onlyOff (fun k => rowL h e + 0x900 < k) d1 := by
    unfold d1
    split
    · exact Dev.onlyOff_refl _ d
    · exact Dev.onlyOff_trans (Dev.onlyOff_sat_row d _ (hix (by decide))) (Dev.onlyOff_raiseCtx_row _ c 9)
  have h2 : d1.onlyOff (fun k => rowL h e + 0x900 < k) d2 := by
    unfold d2
    split
    · exact Dev.onlyOff_refl _ d1
    · exact Dev.onlyOff_trans (Dev.onlyOff_trans (Dev.onlyOff_sat_row d1 _ (hix (by decide))) (Dev.onlyOff_sat_row _ _ (hix (by decide)))) (Dev.onlyOff_raiseCtx_row _ c 8)
  have h3 : d2.onlyOff (fun k => rowL h e + 0x900 < k) d3 := by
    unfold d3
    split
    · exact Dev.onlyOff_raiseCtx_row d2 c 11
    · exact Dev.onlyOff_refl _ d2
  have h4 : d3.onlyOff (fun k => rowL h e + 0x900 < k) d4 := Dev.onlyOff_maxF_row d3 _ (hix (by decide))
  have hall := Dev.onlyOff_trans (Dev.onlyOff_trans (Dev.onlyOff_trans h1 h2) h3) h4
  split
  · exact hall
  · exact Dev.onlyOff_trans hall (Dev.onlyOff_trans (Dev.onlyOff_sat_row d4 _ (hix (by decide))) (Dev.onlyOff_raiseCtx_row _ c 12))
theorem Dev.rowCounted_onlyOff (d : Dev) (h : Half) (e : Nat) (x : Due) (g : Engine) : d.onlyOff (fun k => rowL h e + 0x900 < k) (d.rowCounted h e x g) := by
  unfold Dev.rowCounted
  split
  · exact d.countMotifs_onlyOff h e x.ctx g
  · exact Dev.onlyOff_sat_row d 1 (Nat.lt_of_lt_of_le (by decide) (Fld.ix_off_ge ROW_RCNT.REPLAYS x.ctx))
  · exact Dev.onlyOff_sat_row d 1 (Nat.lt_of_lt_of_le (by decide) (Fld.ix_off_ge ROW_RCNT.REVROWS x.ctx))
  · exact Dev.onlyOff_refl _ d
theorem Dev.prefetch_counts (d : Dev) (m : Mem) (h : Half) (e : Nat) (x : Due) : Dev.countsOnly h e d (d.prefetch m h e x) := by
  unfold Dev.prefetch
  split
  · exact ⟨Dev.modEng_chans .., by rw [Dev.eng_modEng_same], Dev.regsOff_of_regs (Dev.modEng_regs ..)⟩
  · exact Dev.countsOnly_refl h e d
theorem Dev.unblock_still (m : Mem) (hb : (d.eng h e).blocked = false) : d.unblock m h e = d := (d.unblock_spec m h e).2.2.2 hb
theorem Engine.notBlocked_of_drawn {g : Engine} (hd : g.drawn x = true) : g.blocked = false := by
  unfold Engine.drawn Engine.stalled at hd
  simp only [Bool.and_eq_true, Bool.not_eq_true', Bool.or_eq_false_iff] at hd
  exact hd.1.2
theorem Dev.renderDone_waits (m : Mem) (stall : Nat) (hc : (d.eng h e).cur = some x) (hd : (d.eng h e).drawn x = false) (hb : (d.eng h e).blocked = false) :
    d.renderDone m h e stall = d := by
  unfold Dev.renderDone
  dsimp only
  rw [Dev.unblock_still m hb, hc]
  dsimp only
  rw [hd]
  exact if_pos rfl
theorem Dev.renderDone_eq (m : Mem) (stall : Nat) (hc : (d.eng h e).cur = some x) (hd : (d.eng h e).drawn x = true) : d.renderDone m h e stall =
    if x.again then (d.rowDrawn h e x).sat (rowL h e) ROW_STALL.CYCLES (renderCycles x (d.eng h e).kept + stall)
    else ((((d.rowDrawn h e x).sat (rowL h e) ROW_STALL.CYCLES stall).maxF (rowL h e) ROW_MAXREND.CYCLES (renderCycles x (d.eng h e).kept + stall)).rowCounted h e x
      (d.eng h e)).prefetch m h e x := by
  unfold Dev.renderDone
  dsimp only
  rw [Dev.unblock_still m (Engine.notBlocked_of_drawn hd), hc]
  dsimp only
  exact if_neg (by rw [hd]; decide)
theorem Dev.poolWritten_units (d : Dev) (h : Half) (e w : Nat) (bs : List Nat) : (d.poolWritten h e w bs).engines = d.engines ∧ (d.poolWritten h e w bs).chans = d.chans ∧
    (d.poolWritten h e w bs).regs = d.regs := by
  unfold Dev.poolWritten
  split <;> exact ⟨rfl, rfl, rfl⟩
theorem Dev.rowDrawn_spec (d : Dev) (h : Half) (e : Nat) (x : Due) : (d.rowDrawn h e x).eng h e = (d.eng h e).rowDrawn x ((d.eng h e).rowOf x) ∧
    (d.rowDrawn h e x).chans = d.chans ∧ (d.rowDrawn h e x).on (rowL h e) ROW_STAT.BUSY = false ∧ d.regsOff (renderKey h e) (d.rowDrawn h e x) := by
  unfold Dev.rowDrawn
  obtain ⟨hengines, hchans, hregs⟩ := d.poolWritten_units h e x.width (d.eng h e).blocks
  generalize d.poolWritten h e x.width (d.eng h e).blocks = y at hengines hchans hregs
  have heng : y.eng h e = d.eng h e := by unfold Dev.eng; rw [hengines]
  refine ⟨?_, ?_, Dev.on_p_zero _ _ (by decide) (by decide), Dev.regsOff_trans (Dev.regsOff_of_regs ((Dev.modEng_regs ..).trans hregs))
    (Dev.regsOff_p _ _ (renderKey_row (by decide)))⟩
  · rw [Dev.p_eng, Dev.eng_modEng_same, heng]
  · rw [Dev.p_chans, Dev.modEng_chans, hchans]
/-- What follows a drawn row only counts. -/
theorem Dev.renderDone_counts (m : Mem) (stall : Nat) (hc : (d.eng h e).cur = some x) (hd : (d.eng h e).drawn x = true) :
    Dev.countsOnly h e (d.rowDrawn h e x) (d.renderDone m h e stall) := by
  rw [Dev.renderDone_eq m stall hc hd]
  generalize d.rowDrawn h e x = y
  split
  · exact Dev.countsOnly_of_onlyOff (Dev.onlyOff_sat_row y _ (by decide))
  · refine Dev.countsOnly_trans (Dev.countsOnly_of_onlyOff ?_) (Dev.prefetch_counts ..)
    exact Dev.onlyOff_trans (Dev.onlyOff_trans (Dev.onlyOff_sat_row y stall (by decide)) (Dev.onlyOff_maxF_row _ _ (by decide))) (Dev.rowCounted_onlyOff ..)
theorem Dev.renderDone_spec (m : Mem) (stall : Nat) (he : e < 8) (hc : (d.eng h e).cur = some x) (hd : (d.eng h e).drawn x = true) :
    (((d.renderDone m h e stall).eng h e).cur = none ∧
      ((d.renderDone m h e stall).eng h e).ready = (if x.again then (d.eng h e).rowOf x :: (d.eng h e).ready else (d.eng h e).ready ++ [(d.eng h e).rowOf x]) ∧
      (d.eng h e).rowOf x ∈ ((d.renderDone m h e stall).eng h e).rrc ∧ ((d.renderDone m h e stall).eng h e).due = (d.eng h e).due ∧
      (d.renderDone m h e stall).on (rowL h e) ROW_STAT.BUSY = false ∧ (d.renderDone m h e stall).chans = d.chans) ∧
    d.regsOff (renderKey h e) (d.renderDone m h e stall) := by
  obtain ⟨hdeng, hdchans, hdbusy, hdregs⟩ := d.rowDrawn_spec h e x
  obtain ⟨hchans, heng, hregs⟩ := Dev.renderDone_counts m stall hc hd
  generalize d.renderDone m h e stall = z at hchans heng hregs
  generalize d.rowDrawn h e x = y at hdeng hdchans hdbusy hdregs hchans heng hregs
  rw [hdeng] at heng
  refine ⟨⟨?_, ?_, ?_, ?_, ?_, hchans.trans hdchans⟩, Dev.regsOff_trans hdregs (Dev.regsOff_mono (fun k hk => .inr (Nat.le_of_lt hk)) hregs)⟩
  · exact (congrArg Engine.cur heng : _)
  · exact (congrArg Engine.ready heng : _)
  · have hrrc : (z.eng h e).rrc = (d.eng h e).rrc ++ [(d.eng h e).rowOf x] := (congrArg Engine.rrc heng : _)
    rw [hrrc]
    exact List.mem_append_right _ (List.mem_singleton_self _)
  · exact (congrArg Engine.due heng : _)
  · rw [Dev.on_of_regsOff hregs (Nat.lt_irrefl _) (evReg_row h he (by decide) (by decide) (by decide)), hdbusy]
theorem Engine.row_length (g : Engine) (x : Due) : (g.row x).1.length = fget ROW_BIND.W_M1 x.bind + 1 := by
  unfold Engine.row
  rw [List.length_map, List.length_map, List.length_range]
  rfl
end

/-! ### The commands -/

section
variable (d : Dev) (h : Half) (e : Nat)
theorem Dev.motif_seq (i : Nat) : (d.seq (rowL h e)).motif h e i = d.motif h e i := by
  unfold Dev.motif
  rw [Dev.motifs_of_quiet (d.seq_row h e).1]
theorem Dev.maw_seq (p : Nat) (m : Master) : (d.seq (rowL h e)).maw p m = d.maw p m := by
  unfold Dev.maw
  rw [Dev.mawIdx_of_quiet (d.seq_row h e).1]
theorem Dev.stagedEntry_seq (p : Nat) (m : Master) (v : Word) : (d.seq (rowL h e)).stagedEntry p m v = d.stagedEntry p m v := by
  unfold Dev.stagedEntry Dev.stage
  rw [Dev.staging_of_quiet (d.seq_row h e).1]
end

section
variable {s : State} {h : Half} {e : Fin 8}
section
variable (hs : s.awake h (rowL h e))
include hs
theorem exec_renderStart (ha : s.dev.armed (pageOf h.n .row e) = false) (hr : s.dev.regsOff (renderKey h e) (s.dev.renderStart s.mem h e)) :
    exec (.renderStart h e) s = .next { s with dev := s.dev.renderStart s.mem h e } := by
  unfold exec
  dsimp only
  rw [execRenderStart, onBlock_live hs.1 hs.2, Dev.rowEdge_still ha, Dev.rowEdge_after e.isLt ha hr]
theorem exec_lineFillReturn (mot ue : Bool) (line : BitVec 34) (hr : (s.dev.lineFill s.mem h e mot line.toNat ue).rowEdge h e = s.dev.lineFill s.mem h e mot line.toNat ue) :
    exec (.lineFillReturn h e mot line ue) s = .next { s with dev := s.dev.lineFill s.mem h e mot line.toNat ue } := by
  unfold exec
  dsimp only
  rw [execLineFillReturn, onBlock_live hs.1 hs.2, hr]
theorem exec_renderComplete (stall : Nat) (ha : s.dev.armed (pageOf h.n .row e) = false) (hr : s.dev.regsOff (renderKey h e) (s.dev.renderDone s.mem h e stall)) :
    exec (.renderComplete h e stall) s = .next { s with dev := s.dev.renderDone s.mem h e stall } := by
  unfold exec
  dsimp only
  rw [execRenderComplete, onBlock_live hs.1 hs.2, Dev.rowEdge_after e.isLt ha hr]
end
/-- A write of a known master that no other half takes over. -/
theorem forwardedBy_row (hs : s.awake h (rowL h e)) (hsole : s.sole h) (m : Master) (f : Half → Dev → Dev) :
    forwardedBy m h (fun h => onWrite h (rowL h e) (fun _ d => f h d)) s = .next { s with dev := f h (s.dev.seq (rowL h e)) } := by
  unfold forwardedBy
  split
  · exact forwarded_row hs hsole f
  · exact onWrite_live hs.1
theorem exec_mawIdxWrite (hs : s.awake h (rowL h e)) (hsole : s.sole h) (m : Master) (v : Word) :
    exec (.mawIdxWrite m h e v) s = .next { s with dev := (s.dev.seq (rowL h e)).mawIdxWrite m h e v } := forwardedBy_row hs hsole m fun h d => d.mawIdxWrite m h e v
theorem exec_mawEntryWrite (hs : s.awake h (rowL h e)) (hsole : s.sole h) (m : Master) (v : Word) :
    exec (.mawEntryWrite m h e v) s = .next { s with dev := (s.dev.seq (rowL h e)).mawEntryWrite m h e v } := forwardedBy_row hs hsole m fun h d => d.mawEntryWrite m h e v
end

end Sys2Proof.Machine
open Sys2Proof Sys2Proof.Machine

/-- Settles O14: what the steps of a render change lies in the page from ROW_STAT on, in the contexts' banks or in the accounts, so no commit of the
page is armed between them; the pipe at work leaves the engine's desk alone, and what a drawn row counts lies behind ROW_STAT. The write of an entry
counts once for each context that it concerns. -/
theorem rendersDrawRowsAndMotifs : Obligations.RendersDrawRowsAndMotifs := by
  unfold Obligations.RendersDrawRowsAndMotifs
  refine ⟨fun s h e hs ha => ⟨fun x rest hc hl hd ht hm => ⟨fun hk hue => ?_, fun hk hag hnew => ?_, fun hk hag hnew hctx hno => ?_⟩,
      fun x mot ue line hc hctx hin => ⟨fun hmark => ?_, fun hmark => ?_, fun hmark => ?_⟩, fun x stall hc hd => ?_, fun x stall hc hd hb => ?_⟩,
    fun s m h e v hs hsole => ⟨?_, ?_⟩⟩
  · obtain ⟨hspec, hkept⟩ := Dev.renderStart_new_spec (m := s.mem) hc hl hd ht hm hk hue e.isLt
    exact ⟨_, exec_renderStart hs ha hkept, rfl, rfl, hspec⟩
  · have hsame : s.dev.renderStart s.mem h e = s.dev := (Dev.renderStart_record hc hl hd ht hm hk hag).trans (if_pos hnew)
    rw [exec_renderStart hs ha (by rw [hsame]; exact Dev.regsOff_refl _ _), hsame]
  · obtain ⟨hspec, hkept⟩ := Dev.renderStart_limit_spec (m := s.mem) hc hl hd ht hm hk hag hnew hctx hno e.isLt hs.2
    exact ⟨_, exec_renderStart hs ha hkept, rfl, rfl, hspec⟩
  · have hspec := Dev.lineFill_data hc hin hmark
    have hedge : (s.dev.lineFill s.mem h e mot line.toNat ue).rowEdge h e = s.dev.lineFill s.mem h e mot line.toNat ue := by
      unfold Dev.rowEdge
      rw [hspec.1]
      rfl
    exact ⟨_, exec_lineFillReturn hs mot ue line hedge, rfl, rfl, hspec⟩
  · obtain ⟨hspec, hkept⟩ := Dev.lineFill_absent e.isLt hctx hs.2 hc hin hmark
    exact ⟨_, exec_lineFillReturn hs mot ue line (Dev.rowEdge_after e.isLt ha hkept), rfl, rfl, hspec⟩
  · obtain ⟨hspec, hkept⟩ := Dev.lineFill_lost hctx hc hin hmark
    exact ⟨_, exec_lineFillReturn hs mot ue line (Dev.rowEdge_after e.isLt ha hkept), rfl, rfl, hspec⟩
  · obtain ⟨⟨hcur, hready, hrrc, hdue, hbusy, hchans⟩, hkept⟩ := Dev.renderDone_spec s.mem stall e.isLt hc hd
    exact ⟨_, (s.dev.eng h e).rowOf x, exec_renderComplete hs stall ha hkept, rfl, rfl, hcur, hready, rfl, rfl, Engine.row_length _ x, hrrc, hdue, hbusy, hchans⟩
  · have hsame := Dev.renderDone_waits s.mem stall hc hd hb
    rw [exec_renderComplete hs stall ha (by rw [hsame]; exact Dev.regsOff_refl _ _), hsame]
  · have hseq := s.dev.seq_row h e
    obtain ⟨hmotifs, hmaw, hstage, hregs⟩ := (s.dev.seq (rowL h e)).mawIdxWrite_spec m h e v
    refine ⟨_, exec_mawIdxWrite hs hsole m v, rfl, rfl, hmotifs.trans (Dev.motifs_of_quiet hseq.1), hmaw, fun k hk => ?_, ?_⟩
    · rw [← Dev.motif_seq]
      exact hstage k hk
    · exact Dev.regsKept_of_regsOff (Dev.regsOff_trans (Dev.regsOff_of_regsKept hseq.2 fun _ hk => hk) (Dev.regsOff_of_regs hregs)) fun _ hk => hk
  · have hseq := s.dev.seq_row h e
    obtain ⟨hmotif, hidx, hlive, hregs⟩ := (s.dev.seq (rowL h e)).mawEntryWrite_spec m h v e.isLt
    rw [Dev.maw_seq] at hmotif hidx hlive
    refine ⟨_, exec_mawEntryWrite hs hsole m v, rfl, rfl, fun i => ?_, hidx, fun c hc => ?_, ?_⟩
    · refine (hmotif i).trans ?_
      rw [Dev.stagedEntry_seq, Dev.motif_seq]
      rfl
    · have hg : (s.dev.seq (rowL h e)).g (rowL h e) (ROW_MERR.LIVEWR.ix c) = s.dev.g (rowL h e) (ROW_MERR.LIVEWR.ix c) := by
        have hoff := Fld.ix_perCtx (f := ROW_MERR.LIVEWR) rfl hc
        exact Dev.g_seq_page s.dev h e h .row e (by omega) (by omega)
      refine (hlive c hc).trans ?_
      rw [Dev.cst_seq, Dev.rd_seq_cx, Dev.rdS_seq, hg]
    · refine Dev.regsKept_of_regsOff (W := fun k => k = rowL h e + 0x03C ∨ liveKey h e k)
        (Dev.regsOff_trans (Dev.regsOff_of_regsKept hseq.2 fun k hk => .inl (List.mem_singleton.mp hk)) (Dev.regsOff_mono (fun _ hk => .inr hk) hregs)) fun k hk => ?_
      rcases hk with rfl | rfl | ⟨c, hc, rfl⟩
      · exact List.mem_append_left _ (List.mem_cons_self ..)
      · exact List.mem_append_left _ (List.mem_cons_of_mem _ (List.mem_singleton_self _))
      · exact List.mem_append_right _ (List.mem_map.mpr ⟨c, List.mem_range.mpr hc, rfl⟩)
end

section
/-! A Kuxon core's words, and how its units and exceptions end (R281, R283, R285). -/
namespace Sys2Proof.Machine

open Sys2Proof

/-! ### Registers and control words of a core -/

theorem Kux.cw_of_ctl {j k : Kux} (h : j.ctl = k.ctl) (w : Nat) : j.cw w = k.cw w := by unfold Kux.cw; rw [h]
theorem Kux.st_of_ctl {j k : Kux} (h : j.ctl = k.ctl) (i : Nat) : j.st i = k.st i := by unfold Kux.st; rw [Kux.cw_of_ctl h]
theorem Kux.reg_of_k {j k : Kux} (h : j.k = k.k) (i : Nat) : j.reg i = k.reg i := by unfold Kux.reg; rw [h]
theorem Kux.reg_setReg (k : Kux) (i j v : Nat) : (k.setReg i v).reg j = if j = i then v % 65536 else k.reg j := by
  unfold Kux.reg Kux.setReg
  rw [SMap.get_set]
  split <;> simp
theorem Kux.cw_setCw (k : Kux) (w v x : Nat) : (k.setCw w v).cw x = if x = w then v % 65536 else k.cw x := by
  split
  · next h => rw [h, Kux.cw_setCw_same]
  · next h => exact Kux.cw_setCw_ne k v h
theorem Kux.cw_lt (k : Kux) (w : Nat) : k.cw w < 65536 := Nat.mod_lt _ (by decide)
/-- A write of a control word changes the stored words alone. -/
theorem Kux.setCw_eq (k : Kux) (w v : Nat) : ∃ m, k.setCw w v = { k with ctl := m } := ⟨_, rfl⟩
/-- A write of a register changes the registers alone. -/
theorem Kux.setReg_eq (k : Kux) (i v : Nat) : ∃ g, k.setReg i v = { k with k := g } := ⟨_, rfl⟩
theorem Kux.cw_setSt {k : Kux} {i : Nat} {v : Bool} {w : Nat} (hw : w ≠ 0x01) : (k.setSt i v).cw w = k.cw w := Kux.cw_setCw_ne k _ hw
/-- A flag turns on its own word alone. -/
theorem Kux.st_setCw {k : Kux} {w v i : Nat} (hw : 0x01 ≠ w) : (k.setCw w v).st i = k.st i := by
  unfold Kux.st
  rw [Kux.cw_setCw_ne k v hw]

/-- Adding the weight of a clear bit sets that bit alone. -/
theorem bit_add_two_pow (y i j : Nat) (hy : bit y i = false) : bit (y + 2 ^ i) j = if j = i then true else bit y j := by
  unfold bit at *
  rw [decide_eq_false_iff_not] at hy
  rcases Nat.lt_trichotomy j i with h | rfl | h
  · obtain ⟨e, rfl⟩ : ∃ e, i = j + 1 + e := ⟨i - (j + 1), by omega⟩
    rw [if_neg (by omega), show 2 ^ (j + 1 + e) = 2 ^ j * (2 * 2 ^ e) by ring, Nat.add_mul_div_left _ _ (Nat.two_pow_pos j), Nat.add_mul_mod_self_left]
  · rw [if_pos rfl, Nat.add_div_right _ (Nat.two_pow_pos j)]
    exact decide_eq_true (by omega)
  · obtain ⟨e, rfl⟩ : ∃ e, j = i + 1 + e := ⟨j - (i + 1), by omega⟩
    rw [if_neg (by omega), Nat.pow_add, Nat.pow_succ, ← Nat.div_div_eq_div_mul, ← Nat.div_div_eq_div_mul, ← Nat.div_div_eq_div_mul,
      ← Nat.div_div_eq_div_mul, Nat.add_div_right _ (Nat.two_pow_pos i), show (y / 2 ^ i).succ / 2 = y / 2 ^ i / 2 by omega]
/-- A number with one bit put to a value: that bit, and every other as before. -/
theorem bit_put (x i j : Nat) (v : Bool) : bit (x - b2n (bit x i) * 2 ^ i + b2n v * 2 ^ i) j = if j = i then v else bit x j := by
  obtain ⟨y, b, hy, rfl⟩ : ∃ y b, bit y i = false ∧ x = y + b2n b * 2 ^ i := by
    by_cases h : bit x i = true
    · have hle : 2 ^ i ≤ x := by
        by_contra hlt
        simp [bit, Nat.div_eq_of_lt (Nat.lt_of_not_le hlt)] at h
      refine ⟨x - 2 ^ i, true, ?_, by simp [b2n, hle]⟩
      unfold bit at h ⊢
      rw [decide_eq_true_eq] at h
      have hsub : (x - 2 ^ i + 2 ^ i) / 2 ^ i = (x - 2 ^ i) / 2 ^ i + 1 := Nat.add_div_right _ (Nat.two_pow_pos i)
      rw [Nat.sub_add_cancel hle] at hsub
      exact decide_eq_false (by omega)
    · exact ⟨x, false, by simpa using h, by simp [b2n]⟩
  have hb : ∀ (u : Bool) (n : Nat), bit (y + b2n u * 2 ^ i) n = if n = i then u else bit y n := by
    rintro (_ | _) n
    · by_cases hn : n = i <;> simp [b2n, hn, hy]
    · simpa [b2n] using bit_add_two_pow y i n hy
  rw [hb b i, if_pos rfl, Nat.add_sub_cancel, hb, hb]
  split <;> rfl
theorem Kux.st_setSt (k : Kux) {i j : Nat} (v : Bool) (hj : j < 16) : (k.setSt i v).st j = if j = i then v else k.st j := by
  unfold Kux.setSt Kux.st
  rw [Kux.cw_setCw_same, bit_eq_testBit, show 65536 = 2 ^ 16 from rfl, Nat.testBit_mod_two_pow, decide_eq_true hj, Bool.true_and, ← bit_eq_testBit]
  exact bit_put _ _ _ _

/-! ### The PC moves past a unit (R285) -/

@[simp] theorem Kux.cw_pc (k : Kux) (p w : Nat) : ({ k with pc := p } : Kux).cw w = k.cw w := rfl
@[simp] theorem Kux.st_pc (k : Kux) (p i : Nat) : ({ k with pc := p } : Kux).st i = k.st i := rfl
/-- The loop goes back while KLC counts. -/
theorem Kux.next_back {k : Kux} {len : Nat} (h : k.st 9 = true ∧ (k.pc + len - 1) % 2 ^ 14 = k.cw 0x11) (hn : k.cw 0x12 ≠ 1) :
    k.next len = { k.setCw 0x12 ((k.cw 0x12 + 65535) % 65536) with pc := k.cw 0x10 % 2 ^ 14 } := by
  have := Kux.cw_lt k 0x12
  unfold Kux.next
  dsimp only
  rw [if_pos h, if_pos (by omega)]
/-- It ends with KLC at 0. -/
theorem Kux.next_end {k : Kux} {len : Nat} (h : k.st 9 = true ∧ (k.pc + len - 1) % 2 ^ 14 = k.cw 0x11) (hn : k.cw 0x12 = 1) :
    k.next len = { (k.setCw 0x12 0).setSt 9 false with pc := (k.pc + len) % 2 ^ 14 } := by
  unfold Kux.next
  dsimp only
  rw [if_pos h, hn, if_neg (by decide)]
/-- Anywhere else the PC alone moves. -/
theorem Kux.next_past {k : Kux} {len : Nat} (h : ¬ (k.st 9 = true ∧ (k.pc + len - 1) % 2 ^ 14 = k.cw 0x11)) :
    k.next len = { k with pc := (k.pc + len) % 2 ^ 14 } := by
  unfold Kux.next
  dsimp only
  rw [if_neg h]
/-- Moving past a unit changes the PC, KSTAT and KLC alone. -/
theorem Kux.next_frame (k : Kux) (len : Nat) :
    (∃ p m, k.next len = { k with pc := p, ctl := m }) ∧ ∀ w, w ≠ 0x01 → w ≠ 0x12 → (k.next len).cw w = k.cw w := by
  by_cases hloop : k.st 9 = true ∧ (k.pc + len - 1) % 2 ^ 14 = k.cw 0x11
  · by_cases hlast : k.cw 0x12 = 1
    · rw [Kux.next_end hloop hlast]
      refine ⟨?_, fun w h1 h12 => by rw [Kux.cw_pc, Kux.cw_setSt h1, Kux.cw_setCw_ne _ _ h12]⟩
      obtain ⟨m, hm⟩ : ∃ m, (k.setCw 0x12 0).setSt 9 false = { k with ctl := m } := by
        unfold Kux.setSt Kux.setCw
        exact ⟨_, rfl⟩
      rw [hm]
      exact ⟨_, m, rfl⟩
    · rw [Kux.next_back hloop hlast]
      refine ⟨?_, fun w _ h12 => by rw [Kux.cw_pc, Kux.cw_setCw_ne _ _ h12]⟩
      obtain ⟨m, hm⟩ := k.setCw_eq 0x12 ((k.cw 0x12 + 65535) % 65536)
      rw [hm]
      exact ⟨_, m, rfl⟩
  · rw [Kux.next_past hloop]
    exact ⟨⟨_, _, rfl⟩, fun w _ _ => rfl⟩
/-- Moving past a unit is going as R285 says. -/
theorem Kux.went_next (k : Kux) (len : Nat) : k.went (k.next len) len [] := by
  unfold Kux.went
  by_cases hloop : k.st 9 = true ∧ (k.pc + len - 1) % 2 ^ 14 = k.cw 0x11
  · rw [if_pos hloop]
    by_cases hlast : k.cw 0x12 = 1
    · rw [Kux.next_end hloop hlast]
      refine ⟨fun i hi h9 _ => ?_, fun hne => absurd hlast hne, fun _ => ⟨rfl, ?_, ?_⟩⟩
      · rw [Kux.st_pc, Kux.st_setSt _ _ hi, if_neg h9, Kux.st_setCw (by decide)]
      · rw [Kux.st_pc, Kux.st_setSt _ _ (by decide), if_pos rfl]
      · rw [Kux.cw_pc, Kux.cw_setSt (by decide), Kux.cw_setCw_same]
    · rw [Kux.next_back hloop hlast]
      refine ⟨fun i _ _ _ => ?_, fun _ => ⟨rfl, ?_, ?_⟩, fun he => absurd he hlast⟩
      · rw [Kux.st_pc, Kux.st_setCw (by decide)]
      · rw [Kux.st_pc, Kux.st_setCw (by decide), hloop.1]
      · rw [Kux.cw_pc, Kux.cw_setCw_same, Nat.mod_mod]
  · rw [if_neg hloop, Kux.next_past hloop]
    exact ⟨fun i _ _ _ => rfl, rfl, rfl, rfl⟩
/-- R285 reads the PC, KSTAT and the loop's words of the core before a unit. -/
theorem Kux.went_congr {j k x : Kux} {len : Nat} {fs : List Nat} (hpc : j.pc = k.pc) (hcw : ∀ w, w ≤ 0x12 → j.cw w = k.cw w) (h : j.went x len fs) :
    k.went x len fs := by
  have hst : ∀ i, j.st i = k.st i := fun i => by unfold Kux.st; rw [hcw 0x01 (by decide)]
  unfold Kux.went at *
  rw [hpc, hst 9, hcw 0x10 (by decide), hcw 0x11 (by decide), hcw 0x12 (by decide)] at h
  exact ⟨fun i hi h9 hf => (h.1 i hi h9 hf).trans (hst i), h.2⟩

/-! ### Entry to a handler (R283) -/

/-- The control space as entry writes it. -/
def Kux.entryWords (k : Kux) : Kux := ((((k.setCw 0x05 k.pc).setCw 0x06 (k.cw 0x01)).setSt 8 false).setSt 9 false).setSt 11 true
theorem Kux.enter_eq (k : Kux) (ix : Nat) : k.enter ix = { k.entryWords with
    saved := k.pair, pair := { k.pair with replay := .empty, first := none }, wait := .none, pc := (k.cw 0x04 + ix) % 2 ^ 14 } := rfl
theorem Kux.entryWords_eq (k : Kux) : ∃ m, k.entryWords = { k with ctl := m } := by
  unfold Kux.entryWords Kux.setSt Kux.setCw
  exact ⟨_, rfl⟩
theorem Kux.cw_entryWords (k : Kux) {w : Nat} (hw : w ≠ 0x01) :
    k.entryWords.cw w = if w = 0x06 then k.cw 0x01 else if w = 0x05 then k.pc % 65536 else k.cw w := by
  unfold Kux.entryWords
  rw [Kux.cw_setSt hw, Kux.cw_setSt hw, Kux.cw_setSt hw, Kux.cw_setCw, Kux.cw_setCw, Nat.mod_eq_of_lt (Kux.cw_lt k 0x01)]
theorem Kux.st_entryWords (k : Kux) {i : Nat} (hi : i < 16) :
    k.entryWords.st i = if i = 11 then true else if i = 9 then false else if i = 8 then false else k.st i := by
  unfold Kux.entryWords
  rw [Kux.st_setSt _ _ hi, Kux.st_setSt _ _ hi, Kux.st_setSt _ _ hi, Kux.st_setCw (by decide), Kux.st_setCw (by decide)]
/-- What entry leaves: the handler's address, what was saved, IE and LA clear, INH set. -/
theorem Kux.enter_entered (k : Kux) (ix : Nat) : k.entered (k.enter ix) ix := by
  have hcw : ∀ w, w ≠ 0x01 → (k.enter ix).cw w = if w = 0x06 then k.cw 0x01 else if w = 0x05 then k.pc % 65536 else k.cw w :=
    fun w hw => (Kux.cw_of_ctl (by rw [Kux.enter_eq]) w).trans (k.cw_entryWords hw)
  have hst : ∀ i, i < 16 → (k.enter ix).st i = if i = 11 then true else if i = 9 then false else if i = 8 then false else k.st i :=
    fun i hi => (Kux.st_of_ctl (by rw [Kux.enter_eq]) i).trans (k.st_entryWords hi)
  have hreg : ∀ i, (k.enter ix).reg i = k.reg i := by
    obtain ⟨m, hm⟩ := k.entryWords_eq
    rw [Kux.enter_eq, hm]
    exact fun i => rfl
  refine ⟨by rw [Kux.enter_eq], hcw 0x05 (by decide), hcw 0x06 (by decide), hst 8 (by decide), hst 9 (by decide), hst 11 (by decide),
    fun i hi => ?_, fun i _ => hreg i⟩
  rw [hst i (by omega), if_neg (by omega), if_neg (by omega), if_neg (by omega)]

end Sys2Proof.Machine
end

section
/-! How a Kuxon core's unit, wait or load ends: the core itself, its state and what stays (R281, R283, R286). -/
namespace Sys2Proof.Machine

open Sys2Proof

/-! ### A core and its page -/

@[simp] theorem Dev.kx_p (d : Dev) (l : Loc) (f : Fld) (v r c : Nat) : (d.p l f v).kx r c = d.kx r c := by
  unfold Dev.kx
  rw [Dev.p_kux]
@[simp] theorem Dev.kx_raise (d : Dev) (l : Loc) (n r c : Nat) : (d.raise l n).kx r c = d.kx r c := by
  unfold Dev.kx
  rw [Dev.raise_kux]
theorem Dev.kstate_raise (d : Dev) (r c n : Nat) : (d.raise (kxcL r c) n).kstate r c = d.kstate r c :=
  Dev.g_raise d (rLoc_page r .kxc c) n _ _ (evReg_header _ (by decide) (by decide) (by decide))
theorem Dev.kstate_p_same (d : Dev) (r c v : Nat) : (d.p (kxcL r c) KXC_STAT.STATE v).kstate r c = v % 2 ^ 3 :=
  Dev.g_p_same d _ _ v (by decide)
theorem Dev.kstate_p_pc (d : Dev) (r c v : Nat) : (d.p (kxcL r c) KXC_PC.PC v).kstate r c = d.kstate r c :=
  Dev.g_p_ne d v (Nat.add_left_cancel_iff.not.mpr (by decide))

/-- The devices but for their cores, registers and event delivery. -/
def Dev.butCores (d : Dev) : Dev := { d.quiet with kux := [] }
@[simp] theorem Dev.butCores_setKx (d : Dev) (r c : Nat) (k : Kux) : (d.setKx r c k).butCores = d.butCores := rfl
@[simp] theorem Dev.butCores_p (d : Dev) (l : Loc) (f : Fld) (v : Nat) : (d.p l f v).butCores = d.butCores := by
  unfold Dev.butCores
  rw [Dev.p_quiet]
@[simp] theorem Dev.butCores_raise (d : Dev) (l : Loc) (n : Nat) : (d.raise l n).butCores = d.butCores := by
  unfold Dev.butCores
  rw [Dev.raise_quiet]

/-! ### A unit is over (R281) -/

/-- A core that waits for nothing stops as it is, but for STEP and the watchdog's count. -/
theorem Dev.kx_kstop (d : Dev) (r c st : Nat) (hw : (d.kx r c).wait = .none) :
    ∃ m n, (d.kstop r c st).kx r c = { d.kx r c with stepping := false, wdogRan := m, wdogFrom := n } := by
  have habandon : (d.kx r c).abandon = d.kx r c := by
    unfold Kux.abandon
    rw [hw]
    dsimp only
    rw [← hw]
  unfold Dev.kstop
  simp only [Dev.kx_p, Dev.kx_setKx_same, habandon]
  split
  · exact ⟨_, _, rfl⟩
  · exact ⟨_, _, rfl⟩
theorem Dev.kstate_kstop (d : Dev) (r c st : Nat) : (d.kstop r c st).kstate r c = st % 2 ^ 3 := by
  unfold Dev.kstop
  dsimp only
  rw [Dev.kstate_p_pc, Dev.kstate_p_same]
/-- At the end of a unit the core is as the unit leaves it, but for STEP and the watchdog's count. -/
theorem Dev.kx_kdone (d : Dev) (r c : Nat) {k : Kux} (hw : k.wait = .none) :
    ∃ b m n, (d.kdone r c k).kx r c = { k with stepping := b, wdogRan := m, wdogFrom := n } := by
  unfold Dev.kdone Dev.khalt
  dsimp only
  split
  · obtain ⟨m, n, h⟩ := ((d.setKx r c k).p (kxcL r c) KXC_STAT.STATE ksRun).kx_kstop r c ksHalted (by simpa using hw)
    exact ⟨false, m, n, by simpa using h⟩
  · exact ⟨k.stepping, k.wdogRan, k.wdogFrom, by simp⟩
/-- The core runs on, or has halted where a STEP was in progress. -/
theorem Dev.kstate_kdone (d : Dev) (r c : Nat) (k : Kux) : (d.kdone r c k).kstate r c = if k.stepping then ksHalted else ksRun := by
  unfold Dev.kdone Dev.khalt
  dsimp only
  split
  · rw [Dev.kstate_raise, Dev.kstate_kstop]
    rfl
  · exact Dev.kstate_p_same ..
/-- Every other unit is as it was. -/
theorem Dev.butCores_kdone (d : Dev) (r c : Nat) (k : Kux) : (d.kdone r c k).butCores = d.butCores := by
  unfold Dev.kdone Dev.khalt Dev.kstop
  dsimp only
  split
  · rw [Dev.butCores_raise, Dev.butCores_p, Dev.butCores_p, Dev.butCores_setKx, Dev.butCores_p, Dev.butCores_setKx]
  · rw [Dev.butCores_p, Dev.butCores_setKx]
/-- Without a STEP no event is raised. -/
theorem Dev.kip_kdone (d : Dev) {r c : Nat} {k : Kux} (h : k.stepping = false) : (d.kdone r c k).kip = d.kip := by
  unfold Dev.kdone
  dsimp only
  rw [h, if_neg (by decide), Dev.p_kip]
  rfl

/-! ### A load or a wait is over (R286, R296) -/

/-- Core `c` of region `r`, which stood as `k` at a unit of `len` words, has its result `v` in register `rd` and goes on (R281, R285). -/
def Dev.resumed (d : Dev) (r c : Nat) (k : Kux) (rd len v : Nat) : Prop :=
  (d.kx r c).reg rd = v ∧ (d.kx r c).wait = .none ∧ k.went (d.kx r c) len [] ∧ (∀ i, i < 16 → i ≠ rd → (d.kx r c).reg i = k.reg i) ∧
    d.kstate r c = if k.stepping then ksHalted else ksRun

/-- A load that is complete: its register holds the word, the PC has moved, nothing else of the core has changed but that it waits no more. -/
theorem Kux.loaded_spec (k : Kux) (rd v len : Nat) :
    (k.loaded rd v len none).reg rd = v % 65536 ∧ (∀ i, i ≠ rd → (k.loaded rd v len none).reg i = k.reg i) ∧ k.went (k.loaded rd v len none) len [] ∧
      (∀ w, w ≠ 0x01 → w ≠ 0x12 → (k.loaded rd v len none).cw w = k.cw w) ∧
      ∃ p m g, k.loaded rd v len none = { k with wait := .none, k := g, pc := p, ctl := m } := by
  have hloaded : k.loaded rd v len none = ({ k with wait := .none }.setReg rd v).next len := rfl
  obtain ⟨g, hg⟩ := { k with wait := .none }.setReg_eq rd v
  have hreg : ∀ i, ({ k with wait := .none }.setReg rd v).reg i = if i = rd then v % 65536 else k.reg i := fun i => Kux.reg_setReg _ rd i v
  rw [hg] at hreg hloaded
  have hgo := Kux.went_next { k with wait := .none, k := g } len
  obtain ⟨⟨p, m, heq⟩, hcw⟩ := Kux.next_frame { k with wait := .none, k := g } len
  rw [← hloaded] at hgo heq hcw
  have hall : ∀ i, (k.loaded rd v len none).reg i = if i = rd then v % 65536 else k.reg i := fun i =>
    (Kux.reg_of_k (by rw [heq]) i).trans (hreg i)
  exact ⟨(hall rd).trans (if_pos rfl), fun i hi => (hall i).trans (if_neg hi), Kux.went_congr rfl (fun _ _ => rfl) hgo, hcw, p, m, g, heq⟩

/-- Cores at the same unit: PC, STEP, registers and the control words up to KLC agree. -/
def Kux.sameUnit (j k : Kux) : Prop :=
  j.pc = k.pc ∧ j.stepping = k.stepping ∧ (∀ i, j.reg i = k.reg i) ∧ ∀ w, w ≤ 0x12 → j.cw w = k.cw w
theorem Kux.sameUnit_refl (k : Kux) : k.sameUnit k := ⟨rfl, rfl, fun _ => rfl, fun _ _ => rfl⟩

/-- A core at the unit of `k` whose load or wait is over goes on from there. -/
theorem Dev.resumed_of_loaded (d : Dev) (r c rd len : Nat) {j k : Kux} {v : Nat} (hv : v < 65536) (hjk : j.sameUnit k) :
    (d.kdone r c (j.loaded rd v len none)).resumed r c k rd len v := by
  obtain ⟨hpc, hstep, hreg, hcw⟩ := hjk
  obtain ⟨hrd, hothers, hwent, -, p, m, g, heq⟩ := j.loaded_spec rd v len
  obtain ⟨b, x, y, hkx⟩ := d.kx_kdone r c (k := j.loaded rd v len none) (by rw [heq])
  refine ⟨?_, ?_, ?_, ?_, ?_⟩
  · rw [hkx]
    exact hrd.trans (Nat.mod_eq_of_lt hv)
  · rw [hkx, heq]
  · rw [hkx]
    exact Kux.went_congr hpc hcw hwent
  · intro i _ hi
    rw [hkx]
    exact (hothers i hi).trans (hreg i)
  · rw [Dev.kstate_kdone, heq]
    dsimp only
    rw [hstep]
/-- Its pair state, its accounts of far writes and the control words but KSTAT and KLC are as they were. -/
theorem Dev.kdone_loaded_frame (d : Dev) (r c rd v len : Nat) (j : Kux) :
    let x := (d.kdone r c (j.loaded rd v len none)).kx r c
    x.pair = j.pair ∧ x.saved = j.saved ∧ x.posted = j.posted ∧ ∀ w, w ≠ 0x01 → w ≠ 0x12 → x.cw w = j.cw w := by
  obtain ⟨-, -, -, hcw, p, m, g, heq⟩ := j.loaded_spec rd v len
  obtain ⟨b, x, y, hkx⟩ := d.kx_kdone r c (k := j.loaded rd v len none) (by rw [heq])
  dsimp only
  rw [hkx]
  refine ⟨?_, ?_, ?_, hcw⟩ <;> rw [heq]

/-! ### A core waits, or takes an exception (R283, R286) -/

theorem Dev.kx_ksleep (d : Dev) (r c : Nat) (w : KWait) : (d.ksleep r c w).kx r c = { d.kx r c with wait := w, waitFrom := d.tbR r } := by
  unfold Dev.ksleep
  rw [Dev.kx_p, Dev.kx_setKx_same]
theorem Dev.kstate_ksleep (d : Dev) (r c : Nat) (w : KWait) : (d.ksleep r c w).kstate r c = ksWait := Dev.kstate_p_same ..
/-- Core `c` of region `r`, which stood as `k`, waits for `w` from the time `t` on. -/
def Dev.sleeps (d : Dev) (r c : Nat) (k : Kux) (w : KWait) (t : Nat) : Prop :=
  (d.kx r c).wait = w ∧ (d.kx r c).pc = k.pc ∧ (d.kx r c).waitFrom = t ∧ d.kstate r c = ksWait ∧ ∀ i, i < 16 → (d.kx r c).reg i = k.reg i
theorem Dev.ksleep_sleeps (d : Dev) (r c : Nat) (w : KWait) : (d.ksleep r c w).sleeps r c (d.kx r c) w (d.tbR r) := by
  unfold Dev.sleeps
  rw [Dev.kx_ksleep]
  exact ⟨rfl, rfl, rfl, Dev.kstate_ksleep .., fun _ _ => rfl⟩

/-- Entry with a cause is entry; KCAUSE holds the cause. -/
theorem Kux.entered_cause (k : Kux) (cause ix : Nat) : k.entered ((k.setCw 0x07 cause).enter ix) ix := by
  obtain ⟨hpc, hepc, hestat, hie, hla, hinh, hflags, hregs⟩ := (k.setCw 0x07 cause).enter_entered ix
  rw [Kux.cw_setCw_ne _ _ (by decide)] at hpc hestat
  exact ⟨hpc, hepc, hestat, hie, hla, hinh, fun i hi => (hflags i hi).trans (Kux.st_setCw (by decide)), hregs⟩
theorem Kux.cw_enter_cause (k : Kux) {cause : Nat} (hc : cause < 65536) (ix : Nat) : ((k.setCw 0x07 cause).enter ix).cw 0x07 = cause := by
  have hctl : ((k.setCw 0x07 cause).enter ix).ctl = (k.setCw 0x07 cause).entryWords.ctl := by rw [Kux.enter_eq]
  rw [Kux.cw_of_ctl hctl, Kux.cw_entryWords _ (by decide), if_neg (by decide), if_neg (by decide), Kux.cw_setCw_same, Nat.mod_eq_of_lt hc]
/-- An exception outside a handler enters its own (R283). -/
theorem Dev.kexc_spec (d : Dev) (r c : Nat) {k : Kux} {cause : Nat} (hc : cause < 65536) (h : k.st 11 = false) :
    let x := (d.kexc r c k cause).kx r c
    k.entered x (16 + cause) ∧ x.cw 0x07 = cause ∧ x.wait = .none ∧ x.posted = k.posted ∧ x.touts = k.touts := by
  obtain ⟨m, hm⟩ : ∃ m, (k.setCw 0x07 cause).entryWords = { k with ctl := m } := by
    obtain ⟨m, hm⟩ := (k.setCw 0x07 cause).entryWords_eq
    obtain ⟨m', hm'⟩ := k.setCw_eq 0x07 cause
    exact ⟨m, by rw [hm, hm']⟩
  have heq := (k.setCw 0x07 cause).enter_eq (16 + cause)
  have hentered := k.entered_cause cause (16 + cause)
  have hcause := k.cw_enter_cause hc (16 + cause)
  have hkexc : d.kexc r c k cause = (d.kdone r c ((k.setCw 0x07 cause).enter (16 + cause))).p (kxcL r c) KXC_STAT.CAUSE cause := by
    unfold Dev.kexc
    rw [h, if_neg (by decide)]
  rw [hm] at heq
  generalize (k.setCw 0x07 cause).enter (16 + cause) = x at heq hentered hcause hkexc
  obtain ⟨b, y, z, hkx⟩ := d.kx_kdone r c (k := x) (by rw [heq])
  dsimp only
  rw [hkexc, Dev.kx_p, hkx]
  refine ⟨hentered, hcause, ?_, ?_, ?_⟩ <;> rw [heq]

end Sys2Proof.Machine
end

section
/-! What the wait instructions find: a release, an angle, an event line (R122, R286). -/
namespace Sys2Proof.Machine

open Sys2Proof

theorem Dev.kwake_eq (d : Dev) (r c rd v : Nat) : d.kwake r c rd v = d.kdone r c ((d.kx r c).loaded rd v 1 none) := rfl
/-- A wait that ends with `v` leaves that in its register, and the core goes on. -/
theorem Dev.kwake_resumed (d : Dev) (r c rd : Nat) {k : Kux} {v : Nat} (hv : v < 65536) (hk : (d.kx r c).sameUnit k) :
    (d.kwake r c rd v).resumed r c k rd 1 v := by
  rw [Dev.kwake_eq]
  exact Dev.resumed_of_loaded d r c rd 1 hv hk

/-! ### The release queue (R122) -/

/-- The first occupied place among `n`. -/
theorem findSome?_range_first {α : Type} {f : Nat → Option α} {n i : Nat} {x : α} (hi : i < n) (hx : f i = some x) (hlow : ∀ j, j < i → f j = none) :
    (List.range n).findSome? f = some x := by
  obtain ⟨m, rfl⟩ : ∃ m, n = i + (m + 1) := ⟨n - (i + 1), by omega⟩
  rw [List.findSome?_eq_some_iff]
  refine ⟨List.range i, i, (List.range m).map fun y => i + (y + 1), ?_, hx, fun j hj => hlow j (List.mem_range.mp hj)⟩
  rw [List.range_add, List.range_succ_eq_map, List.map_cons, List.map_map]
  rfl
/-- The release `x` is open at a beam core, out of its slot, its row in KRROW. -/
def Dev.withOpen (d : Dev) (r c : Nat) (x : Release) : Dev :=
  let d1 := (d.setSlot (Half.ofRegion r) c x.ctx none).setOpen (Half.ofRegion r) c (some x)
  d1.setKx r c (((d1.kx r c).setCw 0x24 (x.row % 2 ^ 16)).setCw 0x25 (x.row / 2 ^ 16))
theorem Dev.openR_setOpen_same (d : Dev) (h : Half) (c : Nat) (x : Option Release) : (d.setOpen h c x).openR h c = x := by
  unfold Dev.openR Dev.setOpen
  exact SMap.get_set_same _ _ _
theorem Dev.slot_setSlot_same (d : Dev) (h : Half) (c i : Nat) (x : Option Release) : (d.setSlot h c i x).slot h c i = x := by
  unfold Dev.slot Dev.setSlot
  exact SMap.get_set_same _ _ _
theorem Dev.openR_setKx (d : Dev) (r c : Nat) (k : Kux) (h : Half) (i : Nat) : (d.setKx r c k).openR h i = d.openR h i := rfl
theorem Dev.slot_setKx (d : Dev) (r c : Nat) (k : Kux) (h : Half) (i x : Nat) : (d.setKx r c k).slot h i x = d.slot h i x := rfl
theorem Dev.slot_setOpen (d : Dev) (h : Half) (c : Nat) (x : Option Release) (k : Half) (i y : Nat) : (d.setOpen h c x).slot k i y = d.slot k i y := rfl
theorem Dev.openR_ksleep (d : Dev) (r c : Nat) (w : KWait) (h : Half) (i : Nat) : (d.ksleep r c w).openR h i = d.openR h i := by
  unfold Dev.ksleep Dev.openR
  rw [Dev.p_openRel]
  rfl
theorem Dev.openR_withOpen (d : Dev) (r c : Nat) (x : Release) : (d.withOpen r c x).openR (Half.ofRegion r) c = some x := by
  unfold Dev.withOpen
  rw [Dev.openR_setKx, Dev.openR_setOpen_same]
theorem Dev.slot_withOpen (d : Dev) (r c : Nat) (x : Release) : (d.withOpen r c x).slot (Half.ofRegion r) c x.ctx = none := by
  unfold Dev.withOpen
  rw [Dev.slot_setKx, Dev.slot_setOpen, Dev.slot_setSlot_same]
theorem Dev.takeRelease_first {d : Dev} {r c i : Nat} {x : Release} (hi : i < 32) (hx : d.slot (Half.ofRegion r) c i = some x)
    (hlow : ∀ j, j < i → d.slot (Half.ofRegion r) c j = none) (rd : Nat) :
    d.takeRelease r c rd = some ((d.withOpen r c x).kwake r c rd (x.ctx % 32 + b2n x.skipped * 2 ^ 5 + b2n x.first * 2 ^ 6)) := by
  unfold Dev.takeRelease
  dsimp only
  rw [findSome?_range_first hi hx hlow]
  rfl
theorem Dev.takeRelease_empty {d : Dev} {r c : Nat} (h : ∀ j, j < 32 → d.slot (Half.ofRegion r) c j = none) (rd : Nat) : d.takeRelease r c rd = none := by
  unfold Dev.takeRelease
  dsimp only
  rw [List.findSome?_eq_none_iff.mpr fun j hj => h j (List.mem_range.mp hj)]

theorem Dev.slot_of_butCores {d e : Dev} (h : e.butCores = d.butCores) (k : Half) (c i : Nat) : e.slot k c i = d.slot k c i :=
  (congrArg (fun x : Dev => x.slot k c i) h : e.butCores.slot k c i = d.butCores.slot k c i)
theorem Dev.openR_of_butCores {d e : Dev} (h : e.butCores = d.butCores) (k : Half) (c : Nat) : e.openR k c = d.openR k c :=
  (congrArg (fun x : Dev => x.openR k c) h : e.butCores.openR k c = d.butCores.openR k c)

/-- Core `c` of region `r`, which stood as `k` at a WAITROW, has taken the release `x`. -/
def Dev.tookRelease (d : Dev) (r c : Nat) (k : Kux) (rd : Nat) (x : Release) : Prop :=
  d.resumed r c k rd 1 (x.ctx % 32 + b2n x.skipped * 32 + b2n x.first * 64) ∧ d.openR (Half.ofRegion r) c = some x ∧
    d.slot (Half.ofRegion r) c x.ctx = none ∧ (d.kx r c).cw 0x24 = x.row % 65536 ∧ (d.kx r c).cw 0x25 = x.row / 65536 % 65536
theorem Dev.kwake_tookRelease (d : Dev) (r c rd : Nat) (x : Release) :
    ((d.withOpen r c x).kwake r c rd (x.ctx % 32 + b2n x.skipped * 2 ^ 5 + b2n x.first * 2 ^ 6)).tookRelease r c (d.kx r c) rd x := by
  have hv : x.ctx % 32 + b2n x.skipped * 2 ^ 5 + b2n x.first * 2 ^ 6 < 65536 := by
    have h1 : b2n x.skipped ≤ 1 := by cases x.skipped <;> decide
    have h2 : b2n x.first ≤ 1 := by cases x.first <;> decide
    omega
  have hkx : (d.withOpen r c x).kx r c = ((d.kx r c).setCw 0x24 (x.row % 2 ^ 16)).setCw 0x25 (x.row / 2 ^ 16) := Dev.kx_setKx_same ..
  have hunit : ((d.withOpen r c x).kx r c).sameUnit (d.kx r c) := by
    rw [hkx]
    exact ⟨rfl, rfl, fun _ => rfl, fun w hw => by rw [Kux.cw_setCw_ne _ _ (by omega), Kux.cw_setCw_ne _ _ (by omega)]⟩
  have hrest := (d.withOpen r c x).butCores_kdone r c (((d.withOpen r c x).kx r c).loaded rd
    (x.ctx % 32 + b2n x.skipped * 2 ^ 5 + b2n x.first * 2 ^ 6) 1 none)
  obtain ⟨-, -, -, hcw⟩ := (d.withOpen r c x).kdone_loaded_frame r c rd
    (x.ctx % 32 + b2n x.skipped * 2 ^ 5 + b2n x.first * 2 ^ 6) 1 ((d.withOpen r c x).kx r c)
  rw [← Dev.kwake_eq] at hrest hcw
  refine ⟨Dev.kwake_resumed _ r c rd hv hunit, (Dev.openR_of_butCores hrest _ c).trans (d.openR_withOpen r c x),
    (Dev.slot_of_butCores hrest _ c _).trans (d.slot_withOpen r c x), ?_, ?_⟩
  · rw [hcw 0x24 (by decide) (by decide), hkx, Kux.cw_setCw_ne _ _ (by decide), Kux.cw_setCw_same]
    exact Nat.mod_mod _ _
  · rw [hcw 0x25 (by decide) (by decide), hkx, Kux.cw_setCw_same]
    rfl

/-! ### The broadcast angle (R286) -/

/-- The difference of two positions of 40 bits, read as signed, is not negative while it is below half the turn. -/
theorem sgn_usgn_sub_nonneg {p q : Nat} (hq : q < 2 ^ 40) : 0 ≤ sgn 40 (usgn 40 ((p : Int) - (q : Int))) ↔ (p + 2 ^ 40 - q) % 2 ^ 40 < 2 ^ 39 := by
  have husgn : usgn 40 ((p : Int) - (q : Int)) = (p + 2 ^ 40 - q) % 2 ^ 40 := by
    unfold usgn
    omega
  rw [husgn]
  unfold sgn
  rw [Nat.mod_mod]
  split <;> omega
/-- The position that a core's WAITANGLE waits for, and the one that beam `b` of half `h` shows. -/
def Kux.angleAwaited (k : Kux) : Nat := k.cw 0x2A % 256 * 2 ^ 32 + k.cw 0x28 + k.cw 0x29 * 2 ^ 16
def Dev.angleShown (d : Dev) (h : Half) (b : Nat) : Nat :=
  d.g (hLoc h .beam) (BEAM_REV.REV.ix b) % 256 * 2 ^ 32 + d.g (hLoc h .beam) (BEAM_ANGLE.ANGLE.ix b)
theorem Kux.angleAwaited_lt (k : Kux) : k.angleAwaited < 2 ^ 40 := by
  have h1 := k.cw_lt 0x28
  have h2 := k.cw_lt 0x29
  unfold Kux.angleAwaited
  omega
theorem Dev.angleMet_stopped {d : Dev} {r c : Nat}
    (h : (d.beam (Half.ofRegion r) ((d.kx r c).cw 0x2A / 256 % 4)).bState = .off ∨ (d.beam (Half.ofRegion r) ((d.kx r c).cw 0x2A / 256 % 4)).bState = .fault) :
    d.angleMet r c = some 1 := by
  unfold Dev.angleMet
  exact if_pos h
/-- A beam that is SYNCED, outside hysteresis and runs forward meets a forward wait from the target on, half a turn far. -/
theorem Dev.angleMet_synced {d : Dev} {r c : Nat} {x : Beam} (hx : d.beam (Half.ofRegion r) ((d.kx r c).cw 0x2A / 256 % 4) = x) (hs : x.bState = .synced)
    (hh : x.bInHyst = false) (hd : x.bDir = false) (hb : bit ((d.kx r c).cw 0x2A) 10 = false) :
    d.angleMet r c = if (d.angleShown (Half.ofRegion r) ((d.kx r c).cw 0x2A / 256 % 4) + 2 ^ 40 - (d.kx r c).angleAwaited) % 2 ^ 40 < 2 ^ 39
      then some 0 else none := by
  have hdist := sgn_usgn_sub_nonneg (p := d.angleShown (Half.ofRegion r) ((d.kx r c).cw 0x2A / 256 % 4)) (d.kx r c).angleAwaited_lt
  unfold Dev.angleShown Kux.angleAwaited at hdist ⊢
  unfold Dev.angleMet
  simp only [Nat.reducePow, hx, hs, hh, hd, hb, reduceCtorEq, or_self, if_false, Bool.not_false, Bool.false_eq_true, true_and] at hdist ⊢
  simp only [hdist]

/-! ### Event lines (R282, R286) -/

theorem lt_of_evtLine {d : Dev} {r c m i : Nat} (h : d.evtLine r c m = some i) : i < 16 :=
  List.mem_range.mp (List.mem_of_find?_eq_some (p := fun i => bit _ i) h)

/-- Setting line `j` of a core pending leaves its other lines as they were. -/
theorem Dev.bit_kipOf_orKip (d : Dev) (r c i : Nat) {j : Nat} (hj : j < 16) :
    bit ((d.orKip r c (2 ^ j)).kipOf r c) i = (bit (d.kipOf r c) i || decide (j = i)) := by
  unfold Dev.kipOf Dev.orKip
  rw [SMap.get_modify, if_pos rfl, bit_eq_testBit, Nat.testBit_or, Nat.mod_eq_of_lt (Nat.pow_lt_pow_right (n := 16) (by decide) hj),
    Nat.testBit_two_pow, bit_eq_testBit]
/-- Clearing line `i` of a core clears it. -/
theorem Dev.bit_kipOf_clearKip (d : Dev) (r c : Nat) {i : Nat} (hi : i < 16) : bit ((d.clearKip r c (2 ^ i)).kipOf r c) i = false := by
  have hmask : (0xFFFF - 2 ^ i % 0x10000).testBit i = false := by
    revert hi
    revert i
    decide
  unfold Dev.kipOf Dev.clearKip
  rw [SMap.get_modify, if_pos rfl, bit_eq_testBit, Nat.testBit_and, hmask, Bool.and_false]
/-- The lines of a mask that are high are set pending again, one after the other. -/
theorem Dev.bit_kipOf_relight (r c m i : Nat) (js : List Nat) (hjs : ∀ j ∈ js, j < 16) (d : Dev) :
    bit ((js.foldl (fun x j => if bit m j && x.coreLineHigh r c j then x.orKip r c (2 ^ j) else x) d).kipOf r c) i =
      (bit (d.kipOf r c) i || decide (i ∈ js) && (bit m i && d.coreLineHigh r c i)) := by
  induction js generalizing d with
  | nil => simp
  | cons j js ih =>
    rw [List.foldl_cons, ih fun y hy => hjs y (List.mem_cons_of_mem _ hy)]
    by_cases hset : (bit m j && d.coreLineHigh r c j) = true
    · have hhigh : (d.orKip r c (2 ^ j)).coreLineHigh r c i = d.coreLineHigh r c i := rfl
      rw [if_pos hset, hhigh, Dev.bit_kipOf_orKip d r c i (hjs j (List.mem_cons_self ..))]
      by_cases hij : i = j
      · subst hij
        simp [hset]
      · simp [hij, Ne.symm hij]
    · rw [if_neg hset]
      by_cases hij : i = j
      · subst hij
        simp [hset]
      · simp [hij]
/-- A line that is taken stays pending exactly while a source holds it high. -/
theorem Dev.bit_kipOf_kipAck (d : Dev) (r c : Nat) {i : Nat} (hi : i < 14) : bit ((d.kipAck r c (2 ^ i)).kipOf r c) i = d.coreLineHigh r c i := by
  have hrange : ∀ j ∈ List.range 14, j < 16 := fun j hj => by
    have := List.mem_range.mp hj
    omega
  have hbit : bit (2 ^ i) i = true := by rw [bit_eq_testBit, Nat.testBit_two_pow_self]
  have hhigh : (d.clearKip r c (2 ^ i)).coreLineHigh r c i = d.coreLineHigh r c i := rfl
  unfold Dev.kipAck
  rw [Dev.bit_kipOf_relight r c (2 ^ i) i _ hrange, Dev.bit_kipOf_clearKip d r c (by omega), hbit, hhigh]
  simp [hi]
theorem Dev.kux_kipAck (d : Dev) (r c m : Nat) : (d.kipAck r c m).kux = d.kux := by
  unfold Dev.kipAck
  refine List.foldlRecOn (motive := fun x : Dev => x.kux = d.kux) _ _ rfl fun x hx j _ => ?_
  split
  · exact hx
  · exact hx

/-- Line `i` is taken: below the mailboxes' lines its pending bit clears. -/
def Dev.lineTaken (d : Dev) (r c i : Nat) : Dev := if i < 14 then d.kipAck r c (2 ^ i) else d
theorem Dev.kx_lineTaken (d : Dev) (r c i : Nat) : (d.lineTaken r c i).kx r c = d.kx r c := by
  unfold Dev.lineTaken Dev.kx
  split
  · rw [Dev.kux_kipAck]
  · rfl
theorem Dev.takeEvt_some {d : Dev} {r c m i : Nat} (h : d.evtLine r c m = some i) (rd : Nat) :
    d.takeEvt r c rd m = some ((d.lineTaken r c i).kwake r c rd i) := by
  unfold Dev.takeEvt
  rw [h]
  rfl
theorem Dev.takeEvt_none {d : Dev} {r c m : Nat} (h : d.evtLine r c m = none) (rd : Nat) : d.takeEvt r c rd m = none := by
  unfold Dev.takeEvt
  rw [h]
/-- The core goes on with the line's number. -/
theorem Dev.lineTaken_resumed {d : Dev} {r c m i : Nat} (h : d.evtLine r c m = some i) (rd : Nat) :
    ((d.lineTaken r c i).kwake r c rd i).resumed r c (d.kx r c) rd 1 i :=
  Dev.kwake_resumed _ r c rd (by have := lt_of_evtLine h; omega) (by rw [Dev.kx_lineTaken]; exact Kux.sameUnit_refl _)
/-- Where no STEP halts the core, the line stays pending while a source holds it high. -/
theorem Dev.lineTaken_kip (d : Dev) (r c rd : Nat) {i : Nat} (hi : i < 14) (hs : (d.kx r c).stepping = false) :
    bit (((d.lineTaken r c i).kwake r c rd i).kipOf r c) i = d.coreLineHigh r c i := by
  have hstep : (((d.lineTaken r c i).kx r c).loaded rd i 1 none).stepping = false := by
    obtain ⟨-, -, -, -, p, m, g, heq⟩ := ((d.lineTaken r c i).kx r c).loaded_spec rd i 1
    rw [heq, Dev.kx_lineTaken]
    exact hs
  have hkip : ((d.lineTaken r c i).kwake r c rd i).kipOf r c = (d.kipAck r c (2 ^ i)).kipOf r c := by
    unfold Dev.kipOf
    rw [Dev.kwake_eq, Dev.kip_kdone _ hstep, Dev.lineTaken, if_pos hi]
  rw [hkip, Dev.bit_kipOf_kipAck d r c hi]

end Sys2Proof.Machine
end

section
/-! The responses of far accesses and the waits as commands (R122, R277, R279, R286, R296), and the statement on how they end. -/
namespace Sys2Proof.Machine

open Sys2Proof

/-! ### Shapes of a core's commands -/

/-- A unit that issues runs. -/
theorem onUnitDev_issues {s : State} {r : Fin 3} {c : Fin 20} {ws : List Nat} (h : s.issues r c ws) (f : State → Dev) :
    onUnitDev r c ws f s = .next { s with dev := f s } := by
  unfold onUnitDev issue issueMem
  rw [onDev_eq, h.1, h.2]
  rfl

/-! ### The waits (R122, R286) -/

section
variable {s : State} {r : Fin 3} {c : Fin 20} {rd : Fin 16}

theorem exec_waitrow (hrole : roleOf r c = .beam) (hi : s.issues r c [encI 0x0 rd 0x12]) :
    exec (.waitrow r c rd) s = .next { s with
      dev := ((s.dev.setOpen (Half.ofRegion r) c none).takeRelease r c rd).getD ((s.dev.setOpen (Half.ofRegion r) c none).ksleep r c (.row rd)) } := by
  refine (onUnitDev_issues hi _).trans ?_
  rw [if_neg (by simp [hrole])]
theorem exec_waitrowComplete (hon : s.coreOn r c = true) (hw : (s.dev.kx r c).wait = .row rd) :
    exec (.waitrowComplete r c) s = .next { s with dev := (s.dev.takeRelease r c rd).getD s.dev } := by
  unfold exec
  dsimp only
  unfold execWaitrowComplete
  rw [onDev_eq, hon, hw]
  dsimp only
  rw [if_neg (by decide)]
theorem exec_waitangle (hrole : roleOf r c ≠ .service) (hi : s.issues r c [encI 0x0 rd 0x13]) :
    exec (.waitangle r c rd) s = .next { s with dev := s.dev.ksleep r c (.angle rd) } := by
  refine (onUnitDev_issues hi _).trans ?_
  rw [if_neg hrole]
theorem exec_waitangleComplete (hon : s.coreOn r c = true) (hw : (s.dev.kx r c).wait = .angle rd) :
    exec (.waitangleComplete r c) s = .next { s with dev := ((s.dev.angleMet r c).map (s.dev.kwake r c rd)).getD s.dev } := by
  unfold exec
  dsimp only
  unfold execWaitangleComplete
  rw [onDev_eq, hon, hw]
  rw [if_neg (by decide)]
  cases s.dev.angleMet r c <;> rfl
theorem exec_waitevt {rs : Fin 16} (hi : s.issues r c [encR 0xC rd rs 2]) :
    exec (.waitevt r c rd rs) s = .next { s with
      dev := (s.dev.takeEvt r c rd ((s.dev.kx r c).reg rs)).getD (s.dev.ksleep r c (.evt rd ((s.dev.kx r c).reg rs))) } :=
  onUnitDev_issues hi _
theorem exec_waitevtComplete {m : Nat} (hon : s.coreOn r c = true) (hw : (s.dev.kx r c).wait = .evt rd m) :
    exec (.waitevtComplete r c) s = .next { s with dev := (s.dev.takeEvt r c rd m).getD s.dev } := by
  unfold exec
  dsimp only
  unfold execWaitevtComplete
  rw [onDev_eq, hon, hw]
  dsimp only
  rw [if_neg (by decide)]

/-- The ticks of KWTMO. -/
def Kux.waitLimit (k : Kux) : Nat := k.cw 0x2C + k.cw 0x2D * 65536
theorem exec_waitTimeout_over (hon : s.coreOn r c = true)
    (hw : (s.dev.kx r c).wait = .row rd ∨ (s.dev.kx r c).wait = .angle rd ∨ ∃ m, (s.dev.kx r c).wait = .evt rd m) (h0 : (s.dev.kx r c).waitLimit ≠ 0)
    (h : (s.dev.kx r c).waitFrom + (s.dev.kx r c).waitLimit ≤ s.dev.tbR r) :
    exec (.waitTimeout r c) s = .next { s with dev := s.dev.kwake r c rd 0x8000 } := by
  unfold Kux.waitLimit at h0 h
  unfold exec
  dsimp only
  unfold execWaitTimeout
  rw [onDev_eq, hon]
  dsimp only
  rw [if_neg (by decide), if_neg (by omega)]
  rcases hw with hw | hw | ⟨m, hw⟩ <;> rw [hw]
theorem exec_waitTimeout_early (hon : s.coreOn r c = true) (h : s.dev.tbR r < (s.dev.kx r c).waitFrom + (s.dev.kx r c).waitLimit) :
    exec (.waitTimeout r c) s = .next s := by
  unfold Kux.waitLimit at h
  unfold exec
  dsimp only
  unfold execWaitTimeout
  rw [onDev_eq, hon]
  dsimp only
  rw [if_neg (by decide), if_pos (by omega)]

/-! ### Far accesses (R279, R296) -/

theorem exec_farReadResponse_load {a len : Nat} {t0 : KTarget} {v : Nat} {l : Option (Nat × Nat)} (hon : s.coreOn r c = true)
    (hw : (s.dev.kx r c).wait = .load rd a len none t0) (hbus : kbusRead s r c (s.dev.kx r c).pair.latch t0 = ⟨some v, l, s.dev⟩) :
    exec (.farReadResponse r c false) s = .next { s with
      dev := (s.dev.setLatch r c l).kdone r c (((s.dev.setLatch r c l).kx r c).loaded rd v len none) } := by
  unfold exec
  dsimp only
  unfold execFarReadResponse
  rw [onMem_eq, hon, hw]
  dsimp only
  rw [hbus]
  rfl
theorem exec_farReadResponse_replay {saved : Bool} (hon : s.coreOn r c = true) (hw : (s.dev.kx r c).wait = .none) :
    exec (.farReadResponse r c saved) s = .next { s with dev := kreplay s r c saved } := by
  unfold exec
  dsimp only
  unfold execFarReadResponse
  rw [onMem_eq, hon, hw]
  cases saved <;> rfl
theorem exec_farerr_load {x a len : Nat} {inc : Option Nat} {t0 : KTarget} (hon : s.coreOn r c = true) (hw : (s.dev.kx r c).wait = .load x a len inc t0)
    (hfar : t0.isFar = true) : exec (.farerr r c false false) s = .next { s with dev := s.dev.kexc r c { s.dev.kx r c with wait := .none } 3 } := by
  unfold exec
  dsimp only
  unfold execFarerr
  rw [onDev_eq, hon]
  dsimp only
  rw [hw]
  dsimp only
  rw [hfar, if_neg (by decide), if_neg (by decide), if_neg (by decide), if_pos rfl]
theorem exec_farerr_write (hon : s.coreOn r c = true) (hp : (s.dev.kx r c).posted ≠ 0) (saved : Bool) :
    exec (.farerr r c true saved) s = .next { s with dev := s.dev.setKx r c { s.dev.kx r c with
      posted := (s.dev.kx r c).posted - 1, touts := (s.dev.kx r c).touts + 1 } } := by
  unfold exec
  dsimp only
  unfold execFarerr
  rw [onDev_eq, hon]
  dsimp only
  rw [if_neg (by decide), if_pos rfl, if_neg hp]
theorem exec_farSync {len : Nat} {inc : Option Nat} (hon : s.coreOn r c = true) (hw : (s.dev.kx r c).wait = .sync rd len inc) :
    exec (.farSync r c) s = .next { s with dev := s.dev.ksynced r c rd len inc } := by
  unfold exec
  dsimp only
  unfold execFarSync
  rw [onDev_eq, hon, hw]
  dsimp only
  rw [if_neg (by decide)]
end

/-! ### What the responses leave (R277, R296) -/

theorem Dev.kx_setLatch (d : Dev) (r c : Nat) (l : Option (Nat × Nat)) :
    (d.setLatch r c l).kx r c = { d.kx r c with pair := { (d.kx r c).pair with latch := l } } := by
  unfold Dev.setLatch
  dsimp only
  split
  · next h => rw [← h]
  · exact Dev.kx_setKx_same ..
/-- The word of an abandoned read, with the latch its load leaves, is ready in the replay register it was awaited in; nothing else changes. -/
theorem kreplay_ready {s : State} {r : Fin 3} {c : Fin 20} {saved : Bool} {a : Nat} {t0 : KTarget} {v : Nat} {l : Option (Nat × Nat)}
    (hp : (if saved then (s.dev.kx r c).saved.replay else (s.dev.kx r c).pair.replay) = .awaited a t0)
    (hbus : kbusRead s r c (if saved then (s.dev.kx r c).saved.latch else (s.dev.kx r c).pair.latch) t0 = ⟨some v, l, s.dev⟩) :
    kreplay s r c saved = s.dev.setKx r c (if saved then { s.dev.kx r c with saved := { (s.dev.kx r c).saved with replay := .ready a v l } }
      else { s.dev.kx r c with pair := { (s.dev.kx r c).pair with replay := .ready a v l } }) := by
  unfold kreplay
  cases saved
  case false =>
    simp only [Bool.false_eq_true, if_false] at hp hbus ⊢
    rw [hp]
    dsimp only
    rw [hbus]
    dsimp only
    rw [hp]
    rfl
  case true =>
    simp only [if_true] at hp hbus ⊢
    rw [hp]
    dsimp only
    rw [hbus]
    dsimp only
    rw [hp]
    rfl

/-! ### KFSYNC (R279) -/

/-- A core's count of far writes starts again. -/
def Kux.cleared (k : Kux) : Kux := { k with posted := 0, touts := 0 }
theorem Kux.cleared_sameUnit (k : Kux) : k.cleared.sameUnit k := ⟨rfl, rfl, fun _ => rfl, fun _ _ => rfl⟩
theorem Dev.ksynced_eq (d : Dev) (r c rd len : Nat) (inc : Option Nat) : d.ksynced r c rd len inc =
    if (d.kx r c).touts = 0 then d.kdone r c ((d.kx r c).cleared.loaded rd (d.kx r c).touts len inc)
    else d.kexc r c ((d.kx r c).cleared.loaded rd (d.kx r c).touts len inc) 3 := rfl
/-- Where no posted write timed out the load ends with 0. -/
theorem Dev.ksynced_resumed {d : Dev} {r c : Nat} (rd len : Nat) (h : (d.kx r c).touts = 0) :
    (d.ksynced r c rd len none).resumed r c (d.kx r c) rd len 0 ∧ ((d.ksynced r c rd len none).kx r c).posted = 0 := by
  rw [Dev.ksynced_eq, if_pos h, h]
  exact ⟨Dev.resumed_of_loaded d r c rd len (by decide) (Kux.cleared_sameUnit _), (d.kdone_loaded_frame r c rd 0 len (d.kx r c).cleared).2.2.1⟩
/-- Else it returns their number and the core takes FARERR after it. -/
theorem Dev.ksynced_farerr {d : Dev} {r c : Nat} {rd : Nat} (len : Nat) (hrd : rd < 16) (h : (d.kx r c).touts ≠ 0) (hinh : (d.kx r c).st 11 = false) :
    let x := (d.ksynced r c rd len none).kx r c
    x.posted = 0 ∧ x.touts = 0 ∧ x.reg rd = (d.kx r c).touts % 65536 ∧ x.cw 0x07 = 3 ∧ x.st 11 = true := by
  obtain ⟨hreg, -, ⟨hflags, -⟩, -, p, m, g, heq⟩ := (d.kx r c).cleared.loaded_spec rd (d.kx r c).touts len
  have hinh' : ((d.kx r c).cleared.loaded rd (d.kx r c).touts len none).st 11 = false :=
    (hflags 11 (by decide) (by decide) (by decide)).trans hinh
  obtain ⟨⟨-, -, -, -, -, hset, -, hregs⟩, hcause, -, hposted, htouts⟩ := d.kexc_spec r c (cause := 3) (by decide) hinh'
  rw [Dev.ksynced_eq, if_neg h]
  exact ⟨hposted.trans (by rw [heq]; rfl), htouts.trans (by rw [heq]; rfl), (hregs rd hrd).trans hreg, hcause, hset⟩

end Sys2Proof.Machine
open Sys2Proof Sys2Proof.Machine

/-- Settles O36: a load or a wait that ends is a load of one unit that completes, so one lemma says for all of them what the core holds and where it goes;
what each finds (the word, the release, the angle, the line) and the exception that ends the others are said apart. -/
theorem farAccessesAndWaitsEnd : Obligations.FarAccessesAndWaitsEnd := by
  unfold Obligations.FarAccessesAndWaitsEnd
  refine ⟨fun s r c hon => ⟨fun rd a len t0 v l hw hbus hv => ?_, fun saved a t0 v l hp hw hbus => ?_, fun rd a len inc t0 hw hfar hinh => ?_,
      fun saved hp => ?_, fun rd len hw h0 => ?_, fun rd len hw h0 hinh => ?_⟩,
    fun s r c rd rs => ⟨fun hrole hi => ⟨fun i x hlow => ?_, fun hempty => ?_⟩, fun hon hw i x hlow => ?_, fun hrole hi => ?_,
      fun hon hw => ⟨fun hx => ?_, fun hs hh hd hb => ⟨fun hp => ?_, fun hp => ?_⟩⟩, fun hi => ⟨fun i hline => ?_, fun hline => ?_⟩,
      fun hon m i hw hline => ?_, fun hon hw h0 => ⟨fun ht => ?_, fun ht => ?_⟩⟩⟩
  · have hkx := s.dev.kx_setLatch r c l
    have hunit : ((s.dev.setLatch r c l).kx r c).sameUnit (s.dev.kx r c) := by
      rw [hkx]
      exact Kux.sameUnit_refl _
    obtain ⟨hrd, hnone, hwent, hregs, hstate⟩ := (s.dev.setLatch r c l).resumed_of_loaded r c rd len hv hunit
    obtain ⟨hpair, hsaved, -, -⟩ := (s.dev.setLatch r c l).kdone_loaded_frame r c rd v len ((s.dev.setLatch r c l).kx r c)
    exact ⟨_, exec_farReadResponse_load hon hw hbus, rfl, rfl, hnone, hrd, hpair.trans (by rw [hkx]), hsaved.trans (by rw [hkx]), hregs, hwent, hstate⟩
  · exact ⟨_, exec_farReadResponse_replay hon hw, rfl, rfl, by rw [kreplay_ready hp hbus]; rfl, by rw [kreplay_ready hp hbus]; exact Dev.kx_setKx_same ..⟩
  · obtain ⟨hentered, hcause, hnone, -, -⟩ := s.dev.kexc_spec r c (k := { s.dev.kx r c with wait := .none }) (cause := 3) (by decide) hinh
    exact ⟨_, exec_farerr_load hon hw hfar, rfl, rfl, hentered, hcause, hnone⟩
  · refine ⟨_, exec_farerr_write hon hp saved, rfl, rfl, rfl, ?_⟩
    dsimp only
    rw [Dev.kx_setKx_same]
    exact ⟨rfl, rfl, rfl⟩
  · obtain ⟨⟨hrd, hnone, hwent, -, -⟩, hposted⟩ := Dev.ksynced_resumed rd len h0
    exact ⟨_, exec_farSync hon hw, rfl, rfl, hposted, hrd, hnone, hwent⟩
  · exact ⟨_, exec_farSync hon hw, rfl, rfl, Dev.ksynced_farerr len rd.isLt h0 hinh⟩
  · obtain ⟨hi32, hx, hbelow⟩ := hlow
    obtain ⟨hwoke, hgot⟩ := (s.dev.setOpen (Half.ofRegion r) c none).kwake_tookRelease r c rd x
    have htake := Dev.takeRelease_first (d := s.dev.setOpen (Half.ofRegion r) c none) hi32 hx hbelow rd
    exact ⟨_, exec_waitrow hrole hi, by rw [htake]; exact ⟨⟨rfl, rfl, hwoke⟩, hgot⟩⟩
  · have htake := Dev.takeRelease_empty (d := s.dev.setOpen (Half.ofRegion r) c none) hempty rd
    have hslept := (s.dev.setOpen (Half.ofRegion r) c none).ksleep_sleeps r c (.row rd)
    refine ⟨_, exec_waitrow hrole hi, ?_⟩
    rw [htake]
    exact ⟨⟨rfl, rfl, hslept⟩, (Dev.openR_ksleep ..).trans (s.dev.openR_setOpen_same ..)⟩
  · obtain ⟨hi32, hx, hbelow⟩ := hlow
    obtain ⟨hwoke, hgot⟩ := s.dev.kwake_tookRelease r c rd x
    exact ⟨_, exec_waitrowComplete hon hw, by rw [Dev.takeRelease_first hi32 hx hbelow]; exact ⟨⟨rfl, rfl, hwoke⟩, hgot⟩⟩
  · exact ⟨_, exec_waitangle hrole hi, rfl, rfl, s.dev.ksleep_sleeps r c (.angle rd)⟩
  · refine ⟨_, exec_waitangleComplete hon hw, ?_⟩
    rw [Dev.angleMet_stopped hx]
    exact ⟨rfl, rfl, s.dev.kwake_resumed r c rd (by decide) (Kux.sameUnit_refl _)⟩
  · have hmet : s.dev.angleMet r c = some 0 := (Dev.angleMet_synced rfl hs hh hd hb).trans (if_pos hp)
    refine ⟨_, exec_waitangleComplete hon hw, ?_⟩
    rw [hmet]
    exact ⟨rfl, rfl, s.dev.kwake_resumed r c rd (by decide) (Kux.sameUnit_refl _)⟩
  · have hmet : s.dev.angleMet r c = none := (Dev.angleMet_synced rfl hs hh hd hb).trans (if_neg (Nat.not_lt.mpr hp))
    rw [exec_waitangleComplete hon hw, hmet]
    rfl
  · refine ⟨_, exec_waitevt hi, ?_⟩
    rw [Dev.takeEvt_some hline]
    exact ⟨⟨rfl, rfl, Dev.lineTaken_resumed hline rd⟩, fun h14 hstep => s.dev.lineTaken_kip r c rd h14 hstep⟩
  · refine ⟨_, exec_waitevt hi, ?_⟩
    rw [Dev.takeEvt_none hline]
    exact ⟨rfl, rfl, s.dev.ksleep_sleeps r c (.evt rd ((s.dev.kx r c).reg rs))⟩
  · refine ⟨_, exec_waitevtComplete hon hw, ?_⟩
    rw [Dev.takeEvt_some hline]
    exact ⟨rfl, rfl, Dev.lineTaken_resumed hline rd⟩
  · exact ⟨_, exec_waitTimeout_over hon hw h0 ht, rfl, rfl, s.dev.kwake_resumed r c rd (by decide) (Kux.sameUnit_refl _)⟩
  · exact exec_waitTimeout_early hon ht
end

section
/-! The harness banks (R145, R147): a write of the table window, the end of a validation, the swap and the copy back. -/
namespace Sys2Proof.Machine

open Sys2Proof

/-! ### The harness page -/

/-- The harness page of a half stands in Table 25.4. -/
theorem hrnPage (h : Half) : ∃ row, pageRowOf (pageOf h.n .hrn 0) = some (row, 0) ∧ pageOf h.n .hrn 0 / 4096 = h.n ∧ row.block = .hrn ∧
    pageOf h.n .hrn 0 < pageOf 2 .gpx 0 := by
  cases h <;> exact ⟨_, rfl, rfl, rfl, by decide⟩
theorem Half.ofRegion_n (h : Half) : Half.ofRegion h.n = h := by cases h <;> rfl
theorem Dev.harness_of_quiet {d e : Dev} (hq : e.quiet = d.quiet) : e.harness = d.harness :=
  (congrArg Dev.harness hq : e.quiet.harness = d.quiet.harness)
theorem Dev.harn_of_harness {d e : Dev} (hh : e.harness = d.harness) (h : Half) : e.harn h = d.harn h := by
  unfold Dev.harn
  rw [hh]
theorem Dev.harn_of_quiet {d e : Dev} (hq : e.quiet = d.quiet) (h : Half) : e.harn h = d.harn h := Dev.harn_of_harness (Dev.harness_of_quiet hq) h
/-- Counting a write of a page changes its count alone. -/
theorem Dev.onlyRegs_seq_hLoc (d : Dev) (h : Half) (b : Block) (i : Nat) : d.onlyRegs [hLoc h b i + 0x03C] (d.seq (hLoc h b i)) := Dev.onlyRegs_seq d _
theorem Dev.g_seq_hLoc (d : Dev) (h : Half) (b : Block) (i : Nat) {f : Fld} (hf : f.off < 0x100000) (hne : f.off ≠ 0x03C) :
    (d.seq (hLoc h b i)).g (hLoc h b i) f = d.g (hLoc h b i) f := Dev.g_seq_locOf d _ _ hf hne
theorem Dev.on_seq_hLoc (d : Dev) (h : Half) (b : Block) (i : Nat) {f : Fld} (hf : f.off < 0x100000) (hne : f.off ≠ 0x03C) :
    (d.seq (hLoc h b i)).on (hLoc h b i) f = d.on (hLoc h b i) f := by
  unfold Dev.on
  rw [Dev.g_seq_hLoc d h b i hf hne]

/-! ### Banks -/

@[simp] theorem Harness.active_setShadow (x : Harness) (b : SMap Nat) : (x.setShadow b).active = x.active := by
  unfold Harness.setShadow Harness.active
  cases x.active1 <;> simp
@[simp] theorem Harness.shadow_setShadow (x : Harness) (b : SMap Nat) : (x.setShadow b).shadow = b := by
  unfold Harness.setShadow Harness.shadow
  cases x.active1 <;> simp
/-- Whether a bank holds a transform that Table 06.2 reserves. -/
def illegalBank (b : SMap Nat) : Bool := b.any (fun e => decide (4 ≤ enXform e.2) && decide (enXform e.2 < 15))
/-- The banks exchanged, with the segment maps of the last validation. -/
def Harness.swapped (x : Harness) : Harness := { x with active1 := !x.active1, maps := x.newMaps }
theorem Harness.swapped_spec (x : Harness) : x.swapped.active = x.shadow ∧ x.swapped.shadow = x.active ∧ x.swapped.maps = x.newMaps := by
  unfold Harness.swapped Harness.active Harness.shadow
  cases x.active1 <;> exact ⟨rfl, rfl, rfl⟩

/-! ### A write of the table window -/

/-- May the table window be written: no request pends and neither the copy nor a validation runs? -/
def Dev.bankBusy (d : Dev) (h : Half) : Bool :=
  d.on (hLoc h .hrn) PG_COMMIT.PENDING || d.on (hLoc h .hrn) HRN_STAT.COPY || d.on (hLoc h .hrn) HRN_STAT.VALIDATING
theorem Dev.bankBusy_seq (d : Dev) (h : Half) : (d.seq (hLoc h .hrn)).bankBusy h = d.bankBusy h := by
  unfold Dev.bankBusy
  rw [Dev.on_seq_hLoc _ _ _ _ (by decide) (by decide), Dev.on_seq_hLoc _ _ _ _ (by decide) (by decide), Dev.on_seq_hLoc _ _ _ _ (by decide) (by decide)]
theorem Dev.twWrite_busy {d : Dev} {h : Half} (hb : d.bankBusy h = true) (v : Word) : d.twWrite h v = d.raise (hLoc h .hrn) 2 := if_pos hb
/-- The shadow bank with an entry written, which heals an uncorrectable word there. -/
def Dev.entryWritten (d : Dev) (h : Half) (i : Nat) (v : Word) : Dev :=
  { d.modHarn h (fun x => x.setShadow (SMap.set (fun _ => 0) x.shadow i v.toNat)) with
    ueWords := d.ueWords.filter (fun u => u ≠ (pageOf h.n .hrn 0, if (d.harn h).active1 then 0 else 1, i)) }
theorem Dev.twWrite_taken {d : Dev} {h : Half} (hb : d.bankBusy h = false) (v : Word) :
    d.twWrite h v = if d.on (hLoc h .hrn) HRN_TW_IDX.AUTOINC then
        (d.entryWritten h (d.g (hLoc h .hrn) HRN_TW_IDX.IDX) v).p (hLoc h .hrn) HRN_TW_IDX.IDX (d.g (hLoc h .hrn) HRN_TW_IDX.IDX + 1)
      else d.entryWritten h (d.g (hLoc h .hrn) HRN_TW_IDX.IDX) v := by
  have hguard : ¬ (d.on (hLoc h .hrn) PG_COMMIT.PENDING || d.on (hLoc h .hrn) HRN_STAT.COPY || d.on (hLoc h .hrn) HRN_STAT.VALIDATING) = true :=
    Bool.eq_false_iff.mp hb
  exact if_neg hguard
theorem Dev.harn_entryWritten (d : Dev) (h : Half) (i : Nat) (v : Word) :
    (d.entryWritten h i v).harn h = (d.harn h).setShadow (SMap.set (fun _ => 0) (d.harn h).shadow i v.toNat) :=
  (Dev.harn_of_harness (d := d.modHarn h (fun x => x.setShadow (SMap.set (fun _ => 0) x.shadow i v.toNat))) rfl h).trans (Dev.harn_modHarn_same d h _)
/-- The index after a write: one further with AUTOINC = 1. -/
theorem Dev.twWrite_spec {d : Dev} {h : Half} (hb : d.bankBusy h = false) (v : Word) :
    (d.twWrite h v).harn h = (d.harn h).setShadow (SMap.set (fun _ => 0) (d.harn h).shadow (d.g (hLoc h .hrn) HRN_TW_IDX.IDX) v.toNat) ∧
    (d.twWrite h v).g (hLoc h .hrn) HRN_TW_IDX.IDX = (d.g (hLoc h .hrn) HRN_TW_IDX.IDX + d.g (hLoc h .hrn) HRN_TW_IDX.AUTOINC) % 65536 ∧
    d.regsKept [hLoc h .hrn + HRN_TW_IDX.IDX.off] (d.twWrite h v) := by
  have hidx : d.g (hLoc h .hrn) HRN_TW_IDX.IDX < 65536 := fget_lt HRN_TW_IDX.IDX _
  have hinc : d.g (hLoc h .hrn) HRN_TW_IDX.AUTOINC < 2 := fget_lt HRN_TW_IDX.AUTOINC _
  have hharn := d.harn_entryWritten h (d.g (hLoc h .hrn) HRN_TW_IDX.IDX) v
  rw [Dev.twWrite_taken hb]
  split
  · next hon =>
    have hone : d.g (hLoc h .hrn) HRN_TW_IDX.AUTOINC = 1 := of_decide_eq_true hon
    rw [hone]
    refine ⟨(Dev.harn_of_quiet (Dev.p_quiet ..) h).trans hharn, Dev.g_p_same _ _ _ _ (by decide), ?_⟩
    exact Dev.regsKept_of_regsOff (W := fun k => k = hLoc h .hrn + HRN_TW_IDX.IDX.off) (Dev.regsOff_p _ _ rfl) (fun _ hk => List.mem_singleton.mpr hk)
  · next hoff =>
    have hzero : d.g (hLoc h .hrn) HRN_TW_IDX.AUTOINC = 0 := by
      have hne : d.g (hLoc h .hrn) HRN_TW_IDX.AUTOINC ≠ 1 := fun he => hoff (decide_eq_true he)
      omega
    rw [hzero]
    exact ⟨hharn, (Nat.mod_eq_of_lt hidx).symm, Dev.regsKept_of_regs rfl⟩

/-! ### The end of a validation -/

theorem Dev.armedWith_alone {d : Dev} {p : Nat} (hg : d.grp p = 0) (ha : d.armed p = true) : d.armedWith p = [p] := by
  unfold Dev.armedWith Dev.members
  rw [if_pos hg, List.filter_cons_of_pos ha, List.filter_nil]
/-- A page that is in no group has no contexts to tell of its refusal. -/
theorem Dev.refuseAll_alone {d : Dev} {p : Nat} {codes : Nat → List Nat} {c : Nat} (hg : d.grp p = 0) (hc : codes p = [c]) :
    d.refuseAll [p] codes = d.refuse p c := by
  have hgrp : (d.refuse p c).grp p = 0 := (Dev.refuse_commit_ne d p p c rfl (.inr (by decide))).trans hg
  unfold Dev.refuseAll Dev.tellContexts
  simp [hc, hgrp]
/-- A validation that has ended on an illegal bank. -/
theorem Dev.hrnValidated_illegal {d : Dev} {h : Half} (hv : d.on (hLoc h .hrn) HRN_STAT.VALIDATING = true) (ha : d.armed (pageOf h.n .hrn 0) = true)
    (hg : d.grp (pageOf h.n .hrn 0) = 0) (hb : illegalBank (d.harn h).shadow = true) :
    d.hrnValidated h = ((d.p (hLoc h .hrn) HRN_STAT.VALIDATING 0).p (hLoc h .hrn) PG_COMMIT.PENDING 0).refuse (pageOf h.n .hrn 0) 0x60 := by
  have hloc : locOf (pageOf h.n .hrn 0) = hLoc h .hrn := rfl
  have hps : (d.p (hLoc h .hrn) HRN_STAT.VALIDATING 0).armedWith (pageOf h.n .hrn 0) = [pageOf h.n .hrn 0] :=
    Dev.armedWith_alone ((Dev.g_p_page d (hLoc h .hrn) 0 (by decide)).trans hg) ((Dev.on_p_page d (hLoc h .hrn) 0 (by decide)).trans ha)
  have hgrp : ((d.p (hLoc h .hrn) HRN_STAT.VALIDATING 0).p (hLoc h .hrn) PG_COMMIT.PENDING 0).grp (pageOf h.n .hrn 0) = 0 := by
    rw [Dev.grp, hloc, Dev.g_p_disj (f := PG_COMMIT.PENDING) (f' := PG_COMMIT.GROUP) _ _ _ rfl (by decide) (.inr (by decide)), Dev.g_p_page d _ _ (by decide)]
    exact hg
  have hany : ((d.harn h).shadow.any fun e => decide (4 ≤ enXform e.2) && decide (enXform e.2 < 15)) = true := hb
  unfold Dev.hrnValidated
  dsimp only
  rw [hv, Bool.not_true, if_neg Bool.false_ne_true, hps, List.foldl_cons, List.foldl_nil, hloc, if_pos hany, Dev.refuseAll_alone hgrp (if_pos rfl)]
theorem Dev.hrnValidated_refused {d : Dev} {h : Half} (hv : d.on (hLoc h .hrn) HRN_STAT.VALIDATING = true) (ha : d.armed (pageOf h.n .hrn 0) = true)
    (hg : d.grp (pageOf h.n .hrn 0) = 0) (hb : illegalBank (d.harn h).shadow = true) :
    (d.hrnValidated h).harness = d.harness ∧ (d.hrnValidated h).armed (pageOf h.n .hrn 0) = false ∧
    (d.hrnValidated h).g (hLoc h .hrn) PG_COMMIT.RESULT = 0x60 ∧ (d.hrnValidated h).on (hLoc h .hrn) HRN_STAT.VALIDATING = false := by
  rw [Dev.hrnValidated_illegal hv ha hg hb]
  generalize hy : (d.p (hLoc h .hrn) HRN_STAT.VALIDATING 0).p (hLoc h .hrn) PG_COMMIT.PENDING 0 = y
  obtain ⟨hquiet, hregs⟩ := Dev.cfgErr_frame (y.p (hLoc h .hrn) PG_COMMIT.RESULT 0x60) (pageOf h.n .hrn 0) []
  have hstat := Dev.on_of_regsOff (W := fun _ => False) (l := hLoc h .hrn) (f := HRN_STAT.VALIDATING)
    (Dev.regsOff_of_regsKept hregs (fun _ hk => absurd hk List.not_mem_nil)) not_false (evReg_header _ (by decide) (by decide) (by decide))
  refine ⟨Dev.harness_of_quiet (hquiet.trans ?_), ?_, Dev.refuse_result_same y _ (by decide), hstat.trans ?_⟩
  · rw [Dev.p_quiet, ← hy, Dev.p_quiet, Dev.p_quiet]
  · unfold Dev.armed Dev.on
    rw [Dev.refuse_commit_ne y _ _ _ rfl (.inr (by decide)), ← hy]
    exact Dev.on_p_zero _ (hLoc h .hrn) (by decide) rfl
  · rw [Dev.on_p_page _ _ _ (by decide), ← hy, Dev.on_p_page _ _ _ (by decide)]
    exact Dev.on_p_zero d _ (by decide) rfl

/-- The harness page's checks were made by its validation, and its swap adds nothing to the exchange of the banks. -/
theorem Dev.attempt_hrn (d : Dev) (h : Half) : d.attempt [pageOf h.n .hrn 0] = d.swapHrn h := by
  obtain ⟨row, hrow, hdiv, hblock, hgpx⟩ := hrnPage h
  have hcodes : d.pageCodes [pageOf h.n .hrn 0] (pageOf h.n .hrn 0) = [] := by
    unfold Dev.pageCodes
    rw [hrow]
    dsimp only
    rw [hblock]
  have hswap : d.swapOne (pageOf h.n .hrn 0) = d.swapHrn h := by
    unfold Dev.swapOne
    rw [hrow]
    dsimp only
    rw [if_pos hblock, hdiv, Half.ofRegion_n]
  have hhook (e : Dev) : d.hook e (pageOf h.n .hrn 0) = e := by
    unfold Dev.hook
    rw [hrow]
    dsimp only
    rw [hblock]
  have hpins : [pageOf h.n .hrn 0].filter (fun q => decide (pageOf 2 .gpx 0 ≤ q ∧ q ≤ pageOf 2 .gpx 9)) = [] :=
    List.filter_eq_nil_iff.mpr fun q hq => by
      rw [List.mem_singleton.mp hq, decide_eq_true_iff]
      exact fun hin => Nat.not_le.mpr hgpx hin.1
  unfold Dev.attempt Dev.swapAll
  simp only [List.cons_ne_nil, if_false, List.any_cons, List.any_nil, hcodes, ne_eq, not_true_eq_false, decide_false, Bool.or_self, Bool.false_eq_true,
    List.foldl_cons, List.foldl_nil, hswap, hhook, hpins, if_true]
/-- An immediate request of the harness page alone, validated, swaps. -/
theorem Dev.settle_hrn {d : Dev} {h : Half} (hv : d.on (hLoc h .hrn) HRN_STAT.VALIDATING = false) (ha : d.armed (pageOf h.n .hrn 0) = true)
    (hg : d.grp (pageOf h.n .hrn 0) = 0) (hb : d.bound (pageOf h.n .hrn 0) = 0) : d.settle (pageOf h.n .hrn 0) = d.swapHrn h := by
  obtain ⟨row, hrow, -, hblock, -⟩ := hrnPage h
  have hwaits : d.waits (pageOf h.n .hrn 0) = false := by
    unfold Dev.waits
    rw [hrow]
    dsimp only
    rw [hblock]
    exact hv
  unfold Dev.settle
  rw [Dev.armedWith_alone hg ha]
  dsimp only
  rw [if_pos ⟨ha, .inl ⟨by simp [hb], by simp [hwaits]⟩⟩, Dev.attempt_hrn]
/-- A sound bank at the end of its validation: its segment maps wait for the swap. -/
def Dev.hrnSound (d : Dev) (h : Half) : Dev :=
  ((d.p (hLoc h .hrn) HRN_STAT.VALIDATING 0).p (hLoc h .hrn) PG_COMMIT.RESULT 0).modHarn h (fun x => { x with newMaps := segMaps (d.harn h).shadow })
theorem Dev.harn_hrnSound (d : Dev) (h : Half) : (d.hrnSound h).harn h = { d.harn h with newMaps := segMaps (d.harn h).shadow } := by
  rw [Dev.hrnSound, Dev.harn_modHarn_same, Dev.harn_of_quiet (Dev.p_quiet ..), Dev.harn_of_quiet (Dev.p_quiet ..)]
theorem Dev.hrnValidated_sound {d : Dev} {h : Half} (hv : d.on (hLoc h .hrn) HRN_STAT.VALIDATING = true) (ha : d.armed (pageOf h.n .hrn 0) = true)
    (hg : d.grp (pageOf h.n .hrn 0) = 0) (hb : d.bound (pageOf h.n .hrn 0) = 0) (hs : illegalBank (d.harn h).shadow = false) :
    d.hrnValidated h = (d.hrnSound h).swapHrn h := by
  have hkept {f : Fld} (hne : f.off ≠ HRN_STAT.VALIDATING.off) (hd : f.off = 0x010) (hlo : f.lo + f.w ≤ 16) : (d.hrnSound h).g (hLoc h .hrn) f = d.g (hLoc h .hrn) f :=
    by rw [Dev.hrnSound, Dev.modHarn_g, Dev.g_p_disj (f := PG_COMMIT.RESULT) _ _ _ hd (by decide) (.inl hlo), Dev.g_p_page d _ _ hne]
  have hsettle : (d.hrnSound h).settle (pageOf h.n .hrn 0) = (d.hrnSound h).swapHrn h := by
    refine Dev.settle_hrn ?_ ?_ ((hkept (by decide) rfl (by decide)).trans hg) ((hkept (by decide) rfl (by decide)).trans hb)
    · rw [Dev.hrnSound, Dev.modHarn_on, Dev.on_p_page _ _ _ (by decide), Dev.on_p_zero d _ (by decide) rfl]
    · exact (congrArg (fun v => decide (v = 1)) (hkept (f := PG_COMMIT.PENDING) (by decide) rfl (by decide))).trans ha
  have hguard : ¬ illegalBank (d.harn h).shadow = true := Bool.eq_false_iff.mp hs
  unfold Dev.hrnValidated
  dsimp only
  rw [hv, Bool.not_true, if_neg Bool.false_ne_true]
  exact (if_neg hguard).trans hsettle
theorem Dev.swapPage_eq (d : Dev) (l : Loc) : ∃ m, d.swapPage l = (({ d with regs := m } : Dev).p l PG_COMMIT.PENDING 0).p l PG_COMMIT.RESULT 0 := ⟨_, rfl⟩
theorem Dev.swapHrn_spec (d : Dev) (h : Half) : (d.swapHrn h).harn h = (d.harn h).swapped ∧ (d.swapHrn h).armed (pageOf h.n .hrn 0) = false ∧
    (d.swapHrn h).g (hLoc h .hrn) PG_COMMIT.RESULT = 0 ∧ (d.swapHrn h).on (hLoc h .hrn) HRN_STAT.COPY = true := by
  obtain ⟨m, hpage⟩ := d.swapPage_eq (hLoc h .hrn)
  refine ⟨?_, ?_, ?_, by rw [Dev.swapHrn, Dev.on_p_one _ _ (by decide) rfl]⟩
  · rw [Dev.swapHrn, Dev.harn_of_quiet (Dev.p_quiet ..), Dev.harn_modHarn_same, Dev.harn_of_quiet (Dev.swapPage_quiet ..), Harness.swapped]
  · change (d.swapHrn h).on (hLoc h .hrn) PG_COMMIT.PENDING = false
    rw [Dev.swapHrn, Dev.on_p_page _ _ _ (by decide), Dev.modHarn_on, hpage,
      Dev.on_p_disj (f := PG_COMMIT.RESULT) (g := PG_COMMIT.PENDING) _ _ _ rfl (by decide) (.inl (by decide)), Dev.on_p_zero _ _ (by decide) rfl]
  · rw [Dev.swapHrn, Dev.g_p_page _ _ _ (by decide), Dev.modHarn_g, hpage, Dev.g_p_same _ _ _ _ (by decide)]
    rfl

/-! ### The copy back -/

theorem Dev.harn_ueWords (d : Dev) (ws : List (Nat × Nat × Nat)) (h : Half) : ({ d with ueWords := ws } : Dev).harn h = d.harn h := rfl
theorem Dev.on_ueWords (d : Dev) (ws : List (Nat × Nat × Nat)) (l : Loc) (f : Fld) : ({ d with ueWords := ws } : Dev).on l f = d.on l f := rfl
/-- With no uncorrectable word in the banks the copy is exact. -/
theorem Dev.hrnCopyDone_clean {d : Dev} {h : Half} (hc : d.on (hLoc h .hrn) HRN_STAT.COPY = true) (hu : ∀ u ∈ d.ueWords, u.1 ≠ pageOf h.n .hrn 0) :
    (d.hrnCopyDone h).harn h = (d.harn h).setShadow (d.harn h).active ∧ (d.hrnCopyDone h).on (hLoc h .hrn) HRN_STAT.COPY = false := by
  have hbad (act : Nat) : d.ueWords.filter (fun u => decide (u.1 = pageOf h.n .hrn 0) && decide (u.2.1 = act)) = [] :=
    List.filter_eq_nil_iff.mpr fun u hin => by simp [hu u hin]
  unfold Dev.hrnCopyDone
  dsimp only
  rw [if_pos hc, hbad]
  simp only [List.map_nil, List.foldl_nil]
  rw [Dev.harn_ueWords, Dev.on_ueWords, Dev.harn_of_quiet (Dev.p_quiet ..), Dev.harn_modHarn_same, Dev.on_p_zero _ _ (by decide) rfl]
  exact ⟨rfl, rfl⟩

/-! ### The commands -/

theorem exec_hrnTwDataWrite {s : State} {h : Half} (hs : s.awake h (hLoc h .hrn)) (hsole : s.sole h) (v : Word) :
    exec (.hrnTwDataWrite h v) s = .next { s with dev := (s.dev.seq (hLoc h .hrn)).twWrite h v } := by
  unfold exec
  dsimp only
  rw [execHrnTwDataWrite, forwarded_alone hsole, onWrite_live hs.1]
theorem exec_hrnValidationDone {s : State} {h : Half} (hl : s.ref.live h = true) : exec (.hrnValidationDone h) s = .next { s with dev := s.dev.hrnValidated h } := by
  unfold exec
  dsimp only
  rw [execHrnValidationDone, onHalf_live hl]
theorem exec_hrnCopyDone {s : State} {h : Half} (hs : s.awake h (hLoc h .hrn)) : exec (.hrnCopyDone h) s = .next { s with dev := s.dev.hrnCopyDone h } := by
  unfold exec
  dsimp only
  rw [execHrnCopyDone, onBlock_live hs.1 hs.2]

end Sys2Proof.Machine

open Sys2Proof Sys2Proof.Machine

/-- Settles O16: the window writes one entry of the shadow bank, a validation of the page alone ends in one refusal or in the exchange of the banks,
and the copy with no uncorrectable word is exact. -/
theorem harnessBanksSwapWhole : Obligations.HarnessBanksSwapWhole := by
  unfold Obligations.HarnessBanksSwapWhole
  refine fun s h => ⟨fun v hs hsole => ⟨fun hp hc hv => ?_, fun hbusy => ?_⟩, fun hl hv ha hg => ⟨fun hbad => ?_, fun hgood hb => ?_⟩, fun hs hc hu => ?_⟩
  · have hfree : (s.dev.seq (hLoc h .hrn)).bankBusy h = false := by
      rw [Dev.bankBusy_seq]
      unfold Dev.bankBusy
      rw [hp, hc, hv]
      rfl
    obtain ⟨hquiet, hseq⟩ := s.dev.onlyRegs_seq_hLoc h .hrn 0
    obtain ⟨hharn, hidx, hregs⟩ := Dev.twWrite_spec hfree v
    rw [Dev.g_seq_hLoc _ _ _ _ (by decide) (by decide)] at hharn hidx
    rw [Dev.g_seq_hLoc _ _ _ _ (by decide) (by decide)] at hidx
    rw [Dev.harn_of_quiet hquiet] at hharn
    refine ⟨_, exec_hrnTwDataWrite hs hsole v, rfl, rfl, ?_, fun ch => ?_, hidx, fun k hk he => ?_⟩
    · rw [hharn, Harness.active_setShadow]
    · rw [hharn, Harness.shadow_setShadow]
      exact SMap.get_set _ _ _ _
    · obtain ⟨hk1, hk2⟩ := not_or.mp (fun hin => hk (List.mem_cons.mpr hin))
      exact (hregs k hk2 he).trans (hseq k (fun hin => hk1 (List.mem_singleton.mp hin)) he)
  · have hstop : (s.dev.seq (hLoc h .hrn)).bankBusy h = true := (Dev.bankBusy_seq _ h).trans hbusy
    have hclock : (s.dev.seq (hLoc h .hrn)).clocked (hLoc h .hrn) = true := (Dev.clocked_seq ..).trans hs.2
    refine ⟨_, exec_hrnTwDataWrite hs hsole v, rfl, rfl, ?_, ?_⟩ <;> dsimp only <;> rw [Dev.twWrite_busy hstop]
    · exact Dev.raise_raised _ (hLoc_page h .hrn 0) (by decide) hclock
    · exact Dev.onlyRegs_trans (s.dev.onlyRegs_seq_hLoc h .hrn 0) (Dev.raise_frame _ (hLoc_page h .hrn 0) 2 _)
  · exact ⟨_, exec_hrnValidationDone hl, rfl, rfl, Dev.hrnValidated_refused hv ha hg hbad⟩
  · obtain ⟨hharn, harmed, hresult, hcopy⟩ := (s.dev.hrnSound h).swapHrn_spec h
    obtain ⟨hact, hshadow, hmaps⟩ := ((s.dev.hrnSound h).harn h).swapped_spec
    rw [← hharn] at hact hshadow hmaps
    rw [Dev.harn_hrnSound] at hact hshadow hmaps
    refine ⟨_, exec_hrnValidationDone hl, rfl, rfl, ?_⟩
    dsimp only
    rw [Dev.hrnValidated_sound hv ha hg hb hgood]
    exact ⟨hact, hshadow, hmaps, harmed, hresult, hcopy⟩
  · obtain ⟨hharn, hoff⟩ := Dev.hrnCopyDone_clean hc hu
    refine ⟨_, exec_hrnCopyDone hs, rfl, rfl, ?_, ?_, hoff⟩
    · rw [hharn, Harness.shadow_setShadow]
    · rw [hharn, Harness.active_setShadow]
end

section
/-! What a port's transmitter does at a frame boundary (R158, R161, R167–R172, R176, R177, R184, R196, R213). -/
namespace Sys2Proof.Machine

open Sys2Proof

/-! ### A port and its page -/

theorem rlkL_page (h : Half) (p : Nat) : rlkL h p % 0x100000 = 0 := hLoc_page h .rlk p
theorem evReg_rlk (h : Half) (p : Nat) {o : Nat} (ho : o < 0xBF0) (h14 : o ≠ 0x014) (h1C : o ≠ 0x01C) : evReg (rlkL h p + o) = false := evReg_header _ ho h14 h1C
theorem Dev.port_of_ports {d e : Dev} (he : e.ports = d.ports) (h : Half) (p : Nat) : e.port h p = d.port h p := by
  unfold Dev.port
  rw [he]
theorem Dev.port_raise (d : Dev) (l : Loc) (n : Nat) (h : Half) (p : Nat) : (d.raise l n).port h p = d.port h p := Dev.port_of_ports (Dev.raise_ports d l n) h p
theorem Dev.port_p (d : Dev) (l : Loc) (f : Fld) (v : Nat) (h : Half) (p : Nat) : (d.p l f v).port h p = d.port h p := rfl
/-- An event leaves the fields of a port's page alone. -/
theorem Dev.g_raise_rlk (d : Dev) (h : Half) (p n : Nat) {f : Fld} (hf : f.off < 0xBF0) (h14 : f.off ≠ 0x014) (h1C : f.off ≠ 0x01C) :
    (d.raise (rlkL h p) n).g (rlkL h p) f = d.g (rlkL h p) f := Dev.g_raise d (rlkL_page h p) n _ f (evReg_rlk h p hf h14 h1C)

/-- An event that is counted is raised. -/
theorem Dev.raised_sat_raise {d : Dev} {h : Half} {p : Nat} (hk : d.clocked (rlkL h p) = true) {f : Fld} (hf : f.off ≠ 0x00C) {n : Nat} (hn : n < 32) :
    ((d.sat (rlkL h p) f).raise (rlkL h p) n).raised (rlkL h p) n := by
  refine Dev.raise_raised _ (rlkL_page h p) hn ?_
  rw [Dev.sat_eq, Dev.clocked_p_row _ _ _ _ hf]
  exact hk
theorem Dev.g_of_regs {d e : Dev} (hr : e.regs = d.regs) (l : Loc) (f : Fld) : e.g l f = d.g l f := by
  unfold Dev.g Dev.rd
  rw [hr]
theorem Dev.pst_modPort (d : Dev) (h : Half) (p : Nat) (f : Port → Port) (h' : Half) (p' : Nat) : (d.modPort h p f).pst h' p' = d.pst h' p' := rfl

/-! ### What leaves on the line -/

/-- A port apart from the code groups on its line. -/
def Port.offLine (x : Port) : Port := { x with wire := [], disp := false }
/-- The transmitter at the beginning of a frame boundary: nothing has left yet. -/
def Dev.quietLine (d : Dev) (h : Half) (p : Nat) : Dev := d.modPort h p (fun x => { x with wire := [] })
/-- An idle set leaves where no frame does (R167). -/
def Dev.fillLine (d : Dev) (h : Half) (p : Nat) : Dev := if (d.port h p).wire = [] then d.modPort h p Port.idle else d
/-- A frame as it stands in the transmitter. -/
def Port.framed (x : Port) (syms : List Nat) : Port := { x with sent := syms, wire := (codeSet x.disp syms).1, disp := (codeSet x.disp syms).2 }

section
variable (d : Dev) (h : Half) (p : Nat)
@[simp] theorem Port.offLine_idle (x : Port) : x.idle.offLine = x.offLine := by
  unfold Port.idle Port.offLine
  split <;> rfl
theorem Dev.offLine_fillLine : ((d.fillLine h p).port h p).offLine = (d.port h p).offLine := by
  unfold Dev.fillLine
  split
  · rw [Dev.port_modPort_same, Port.offLine_idle]
  · rfl
theorem Dev.fillLine_regs : (d.fillLine h p).regs = d.regs := by
  unfold Dev.fillLine
  split <;> rfl
theorem Dev.fillLine_chans : (d.fillLine h p).chans = d.chans := by
  unfold Dev.fillLine
  split <;> rfl
theorem Dev.sent_fillLine : ((d.fillLine h p).port h p).sent = (d.port h p).sent :=
  (congrArg Port.sent (d.offLine_fillLine h p) : ((d.fillLine h p).port h p).offLine.sent = (d.port h p).offLine.sent)
theorem Dev.port_quietLine : (d.quietLine h p).port h p = { d.port h p with wire := [] } := Dev.port_modPort_same d h p _
end
theorem Dev.port_sendFrame {d : Dev} {h : Half} {p : Nat} (hd : (d.port h p).drvOff = false) (ty seq : Nat) (ws : List Nat) :
    (d.sendFrame h p ty seq ws).port h p = (d.port h p).framed (frameSyms ty seq (d.g (rlkL h p) RLK_EPOCH.EPOCH :: ws)) := by
  exact (Dev.port_modPort_same d h p _).trans (if_neg (by rw [hd]; exact Bool.false_ne_true))

/-- From `d` the port sends a frame with its epoch in word 0, and no queue changes. -/
def Dev.sends (d : Dev) (h : Half) (p ty seq : Nat) (ws : List Nat) (e : Dev) : Prop :=
  (e.port h p).sent = frameSyms ty seq (d.g (rlkL h p) RLK_EPOCH.EPOCH :: ws) ∧ e.chans = d.chans

section
variable {d e : Dev} {h : Half} {p ty seq : Nat} {ws : List Nat}
theorem Dev.sends_sendFrame (hd : (d.port h p).drvOff = false) : d.sends h p ty seq ws (d.sendFrame h p ty seq ws) :=
  ⟨by rw [Dev.port_sendFrame hd]; rfl, rfl⟩
theorem Dev.sends_modPort {f : Port → Port} (hs : d.sends h p ty seq ws e) (hf : (f (e.port h p)).sent = (e.port h p).sent) :
    d.sends h p ty seq ws (e.modPort h p f) := ⟨by rw [Dev.port_modPort_same, hf, hs.1], hs.2⟩
theorem Dev.sends_sat (hs : d.sends h p ty seq ws e) (l : Loc) (f : Fld) (n : Nat) : d.sends h p ty seq ws (e.sat l f n) := hs
theorem Dev.sends_fillLine (hs : d.sends h p ty seq ws e) : d.sends h p ty seq ws (e.fillLine h p) :=
  ⟨(e.sent_fillLine h p).trans hs.1, (e.fillLine_chans h p).trans hs.2⟩
theorem Dev.sends_from {y : Dev} (hs : y.sends h p ty seq ws e) (hg : y.g (rlkL h p) RLK_EPOCH.EPOCH = d.g (rlkL h p) RLK_EPOCH.EPOCH) (hc : y.chans = d.chans) :
    d.sends h p ty seq ws e := ⟨hg ▸ hs.1, hs.2.trans hc⟩
end

/-! ### A port in UP: the order of frames (R176) -/

section
variable {d : Dev} {r : Referee} {h : Half} {p elapsed clk : Nat}
theorem Dev.frameBoundary_up (hf : r.fence h = false) (hst : d.pst h p = psUp) :
    d.frameBoundary r h p elapsed clk = ((d.quietLine h p).upFrame r h p elapsed clk).fillLine h p := by
  have hst' : (d.quietLine h p).pst h p = psUp := hst
  unfold Dev.frameBoundary
  dsimp only
  rw [hf, hst, if_neg (by decide), if_neg (by decide), if_neg Bool.false_ne_true]
  change ((d.quietLine h p).nextFrame r h p elapsed clk).fillLine h p = _
  congr 1
  unfold Dev.nextFrame
  dsimp only
  rw [hf, hst', if_neg Bool.false_ne_true, if_neg (by decide), if_pos rfl]

/-- Has the transmitter no CHG to send and no snapshot that its board has not had, or may it send none (R176)? -/
def Dev.pastBeam (d : Dev) (h : Half) (p : Nat) : Prop :=
  (d.port h p).chg = none ∧ ((d.port h p).await = .ack ∨ (d.port h p).snap = (d.snap h (d.rbeam h p)).tb)

theorem Dev.upFrame_chg (hc : (d.port h p).chg = some false) (hd : (d.port h p).drvOff = false) :
    d.sends h p 0x07 0 [h.n * 2 ^ 8, (d.port h p).rxNext] (d.upFrame r h p elapsed clk) := by
  have hport : (d.modPort h p (fun x => { x with chg := none })).port h p = { d.port h p with chg := none } := Dev.port_modPort_same ..
  have hsent := Dev.sends_sendFrame (ty := 0x07) (seq := 0) (ws := [h.n * 2 ^ 8, (d.port h p).rxNext])
    (show ((d.modPort h p (fun x => { x with chg := none })).port h p).drvOff = false by rw [hport]; exact hd)
  unfold Dev.upFrame Dev.sendChg
  dsimp only
  rw [hc]
  simp only [Bool.false_eq_true, if_false, b2n, Nat.zero_add, hport]
  exact Dev.sends_from hsent rfl rfl
theorem Dev.upFrame_beam (hc : (d.port h p).chg = none) (ha : (d.port h p).await ≠ .ack) (hs : (d.port h p).snap ≠ (d.snap h (d.rbeam h p)).tb)
    (hd : (d.port h p).drvOff = false) : d.sends h p 0x01 0 (d.beamWords h p elapsed) (d.upFrame r h p elapsed clk) := by
  unfold Dev.upFrame
  dsimp only
  rw [hc]
  dsimp only
  rw [if_pos ⟨ha, hs⟩]
  exact Dev.sends_modPort (Dev.sends_sendFrame hd) rfl
theorem Dev.upFrame_pastBeam (hb : d.pastBeam h p) : d.upFrame r h p elapsed clk =
    if (d.port h p).ack then
      (let y := (d.sendFrame h p 0x03 0 [(d.port h p).rxNext + b2n (d.port h p).retry * 2 ^ 16]).modPort h p (fun x => { x with ack := false, retry := false })
       if (d.port h p).retry then y.sat (rlkL h p) RLK_RETX.RETRY else y)
    else if (d.port h p).aud then
      (d.sendFrame h p 0x08 0 [(d.port h p).credits, d.g (rlkL h p) RLK_ES.COUNT, d.g (rlkL h p) RLK_CR.COUNT]).modPort h p (fun x => { x with aud := false })
    else if (d.port h p).hb then d.sendHb r h p clk
    else if (d.port h p).await ≠ .none then d
    else match (d.port h p).rtx with
    | s :: rest =>
      (match (d.port h p).unack.find? (fun f => f.seq = s) with
       | some f => (((d.sendFrame h p f.type f.seq f.words).sat (rlkL h p) RLK_RETX.RESENT).modPort h p (fun x => { x with rtx := rest }))
       | none => d.modPort h p (fun x => { x with rtx := rest }))
    | [] =>
      let d1 := if (d.port h p).closed = none ∧ (d.port h p).unack.length < 128 then d.closeEvt r h p else d
      let d2 := if (d1.port h p).closed = none ∧ (d.port h p).unack.length < 128 then d1.closeMgt r h p else d1
      d2.sendClosed h p := by
  obtain ⟨hc, hs⟩ := hb
  have hno : ¬ ((d.port h p).await ≠ .ack ∧ (d.port h p).snap ≠ (d.snap h (d.rbeam h p)).tb) := fun hn => hs.elim hn.1 hn.2
  unfold Dev.upFrame
  dsimp only
  rw [hc]
  dsimp only
  exact if_neg hno
theorem Dev.upFrame_ack (hb : d.pastBeam h p) (ha : (d.port h p).ack = true) (hd : (d.port h p).drvOff = false) :
    d.sends h p 0x03 0 [(d.port h p).rxNext + b2n (d.port h p).retry * 2 ^ 16] (d.upFrame r h p elapsed clk) := by
  rw [Dev.upFrame_pastBeam hb, if_pos ha]
  dsimp only
  split
  · exact Dev.sends_sat (Dev.sends_modPort (Dev.sends_sendFrame hd) rfl) _ _ _
  · exact Dev.sends_modPort (Dev.sends_sendFrame hd) rfl
theorem Dev.upFrame_aud (hb : d.pastBeam h p) (ha : (d.port h p).ack = false) (hau : (d.port h p).aud = true) (hd : (d.port h p).drvOff = false) :
    d.sends h p 0x08 0 [(d.port h p).credits, d.g (rlkL h p) RLK_ES.COUNT, d.g (rlkL h p) RLK_CR.COUNT] (d.upFrame r h p elapsed clk) := by
  rw [Dev.upFrame_pastBeam hb, ha, if_neg Bool.false_ne_true, if_pos hau]
  exact Dev.sends_modPort (Dev.sends_sendFrame hd) rfl
/-- A heartbeat (Table 07.8). -/
theorem Dev.sendHb_sends {clk : BitVec 16} (hd : (d.port h p).drvOff = false) :
    d.sends h p 0x06 0 [clk.toNat + d.g (rlkL h p) RLK_STAT.LOCKED * 2 ^ 16 + b2n (d.pst h p == psFenced) * 2 ^ 17 + b2n (r.leads h) * 2 ^ 18,
      d.g (rlkL h p) RLK_PDLY.PDLY] (d.sendHb r h p clk.toNat) := by
  have hclk : clk.toNat % 65536 = clk.toNat := Nat.mod_eq_of_lt clk.isLt
  unfold Dev.sendHb
  dsimp only
  rw [hclk]
  exact Dev.sends_modPort (Dev.sends_sendFrame hd) rfl
theorem Dev.upFrame_hb (hb : d.pastBeam h p) (ha : (d.port h p).ack = false) (hau : (d.port h p).aud = false) (hh : (d.port h p).hb = true) :
    d.upFrame r h p elapsed clk = d.sendHb r h p clk := by
  rw [Dev.upFrame_pastBeam hb, ha, if_neg Bool.false_ne_true, hau, if_neg Bool.false_ne_true, if_pos hh]
theorem Dev.upFrame_rtx {n : Nat} {rest : List Nat} {f : Frame} (hb : d.pastBeam h p) (ha : (d.port h p).ack = false) (hau : (d.port h p).aud = false)
    (hh : (d.port h p).hb = false) (haw : (d.port h p).await = .none) (hr : (d.port h p).rtx = n :: rest)
    (hf : (d.port h p).unack.find? (fun f => f.seq = n) = some f) (hd : (d.port h p).drvOff = false) :
    d.sends h p f.type f.seq f.words (d.upFrame r h p elapsed clk) := by
  rw [Dev.upFrame_pastBeam hb, ha, if_neg Bool.false_ne_true, hau, if_neg Bool.false_ne_true, hh, if_neg Bool.false_ne_true, if_neg (fun hne => hne haw), hr]
  dsimp only
  rw [hf]
  exact Dev.sends_modPort (Dev.sends_sat (Dev.sends_sendFrame hd) _ _ _) rfl
/-- With nothing older to send and no frame closed, the calendar closes one (R161). -/
theorem Dev.upFrame_new {f : Frame} (hb : d.pastBeam h p) (ha : (d.port h p).ack = false) (hau : (d.port h p).aud = false)
    (hh : (d.port h p).hb = false) (haw : (d.port h p).await = .none) (hr : (d.port h p).rtx = []) (hc : (d.port h p).closed = none)
    (hu : (d.port h p).unack.length < 128) (hf : ((d.closeEvt r h p).port h p).closed = some f) :
    d.upFrame r h p elapsed clk = (d.closeEvt r h p).sendClosed h p := by
  rw [Dev.upFrame_pastBeam hb, ha, if_neg Bool.false_ne_true, hau, if_neg Bool.false_ne_true, hh, if_neg Bool.false_ne_true, if_neg (fun hne => hne haw), hr]
  dsimp only
  have hcl : (if (d.port h p).closed = none ∧ (d.port h p).unack.length < 128 then d.closeEvt r h p else d) = d.closeEvt r h p := if_pos ⟨hc, hu⟩
  rw [hcl, if_neg (fun hn => Option.some_ne_none f (hf.symm.trans hn.1))]
end

/-! ### Under the fence (R177, R213) -/

/-- What the transmitter has on its line and whether a heartbeat is due. -/
def Port.line (x : Port) : List Nat × List Nat × Bool × Bool × Bool := (x.sent, x.wire, x.disp, x.drvOff, x.hb)
/-- The registers that entering FENCED may change: the port's state and the sequence numbers. -/
def fenceKey (h : Half) (p k : Nat) : Prop := k = rlkL h p + 0x800 ∨ k = rlkL h p + 0x810

section
variable (d : Dev) (h : Half) (p : Nat)
/-- A frame that waited, counted as sent. -/
def Port.tookClosed (x : Port) (f : Frame) : Port := { x with closed := none, confirmed := false, unack := x.unack ++ [f] }
theorem Dev.closedSent_none (hc : (d.port h p).closed = none) : d.closedSent h p = d := by
  unfold Dev.closedSent
  rw [hc]
theorem Dev.closedSent_some {f : Frame} (hc : (d.port h p).closed = some f) :
    d.closedSent h p = (d.p (rlkL h p) RLK_SEQ.TXNEXT (f.seq + 1)).modPort h p (fun x => x.tookClosed f) := by
  unfold Dev.closedSent
  rw [hc]
  rfl
theorem Dev.closedSent_line : ((d.closedSent h p).port h p).line = (d.port h p).line ∧ (d.closedSent h p).chans = d.chans ∧
    d.regsOff (fun k => k = rlkL h p + 0x810) (d.closedSent h p) := by
  cases hc : (d.port h p).closed with
  | none =>
    rw [d.closedSent_none h p hc]
    exact ⟨rfl, rfl, Dev.regsOff_refl _ d⟩
  | some f =>
    rw [d.closedSent_some h p hc, Dev.port_modPort_same, Dev.port_p]
    refine ⟨rfl, ?_, ?_⟩
    · rw [Dev.modPort_chans, Dev.p_chans]
    · exact Dev.regsOff_trans (e := d.p (rlkL h p) RLK_SEQ.TXNEXT (f.seq + 1)) (Dev.regsOff_p d (f := RLK_SEQ.TXNEXT) (f.seq + 1) rfl) (Dev.regsOff_of_regs rfl)
/-- A port that enters FENCED, with the confirmation left to say. -/
theorem Dev.enterFenced_spec : ((d.enterFenced h p).port h p).line = (d.port h p).line ∧ (d.enterFenced h p).chans = d.chans ∧
    d.regsOff (fenceKey h p) (d.enterFenced h p) ∧ (d.enterFenced h p).pst h p = psFenced ∧
    (d.enterFenced h p).g (rlkL h p) RLK_STAT.LOCKED = d.g (rlkL h p) RLK_STAT.LOCKED := by
  obtain ⟨hline, hchans, hregs⟩ := d.closedSent_line h p
  have hlocked : (d.closedSent h p).g (rlkL h p) RLK_STAT.LOCKED = d.g (rlkL h p) RLK_STAT.LOCKED :=
    Dev.g_of_regsOff hregs (page_reg_ne (rlkL_page h p) (rlkL_page h p) (by decide) (by decide) (by decide)) (evReg_rlk h p (by decide) (by decide) (by decide))
  unfold Dev.enterFenced Dev.freshLink
  generalize d.closedSent h p = y at hline hchans hregs hlocked
  refine ⟨?_, ?_, ?_, ?_, ?_⟩
  · rw [Dev.port_raise, Dev.port_modPort_same, Dev.port_modPort_same, Dev.port_p, ← hline]
    rfl
  · rw [Dev.raise_chans, Dev.modPort_chans, Dev.modPort_chans, Dev.p_chans, hchans]
  · refine Dev.regsOff_trans (Dev.regsOff_mono (fun _ hk => .inr hk) hregs) (Dev.regsOff_trans (Dev.regsOff_p y (f := RLK_STAT.STATE) psFenced (.inl rfl)) ?_)
    exact Dev.regsOff_trans (e := ((y.p (rlkL h p) RLK_STAT.STATE psFenced).modPort h p _).modPort h p _) (Dev.regsOff_of_regs rfl)
      (Dev.regsOff_raise _ _ (rlkL_page h p) 0)
  · rw [Dev.pst, Dev.g_raise_rlk _ _ _ _ (by decide) (by decide) (by decide), Dev.modPort_g, Dev.modPort_g, Dev.g_p_same _ _ _ _ (by decide)]
    rfl
  · rw [Dev.g_raise_rlk _ _ _ _ (by decide) (by decide) (by decide), Dev.modPort_g, Dev.modPort_g,
      Dev.g_p_disj (f := RLK_STAT.STATE) (f' := RLK_STAT.LOCKED) _ _ _ rfl (by decide) (by decide), hlocked]

theorem Port.line_fenced (x : Port) : ({ x with fenced := true } : Port).line = x.line := rfl
/-- The port at a frame boundary under the fence: out of UP, and confirmed. -/
def Dev.fencedPort (d : Dev) (h : Half) (p : Nat) : Dev :=
  (if d.pst h p = psUp then d.enterFenced h p else d).modPort h p (fun x => { x with fenced := true })
theorem Dev.fencedPort_spec : ((d.fencedPort h p).port h p).line = (d.port h p).line ∧ ((d.fencedPort h p).port h p).fenced = true ∧
    (d.fencedPort h p).chans = d.chans ∧ d.regsOff (fenceKey h p) (d.fencedPort h p) ∧
    (d.fencedPort h p).pst h p = (if d.pst h p = psUp then psFenced else d.pst h p) ∧
    (d.fencedPort h p).g (rlkL h p) RLK_STAT.LOCKED = d.g (rlkL h p) RLK_STAT.LOCKED := by
  obtain ⟨hline, hchans, hregs, hst, hlocked⟩ := d.enterFenced_spec h p
  unfold Dev.fencedPort
  by_cases hup : d.pst h p = psUp
  · rw [if_pos hup, if_pos hup, Dev.port_modPort_same, Dev.modPort_chans, Dev.modPort_g, Dev.pst_modPort]
    exact ⟨(Port.line_fenced _).trans hline, rfl, hchans, Dev.regsOff_trans hregs (Dev.regsOff_of_regs (Dev.modPort_regs ..)), hst, hlocked⟩
  · rw [if_neg hup, if_neg hup, Dev.port_modPort_same, Dev.modPort_chans, Dev.modPort_g, Dev.pst_modPort]
    exact ⟨rfl, rfl, rfl, Dev.regsOff_of_regs rfl, rfl, rfl⟩
end

section
variable {d : Dev} {r : Referee} {h : Half} {p elapsed clk : Nat}
theorem Dev.frameBoundary_down (hst : d.pst h p = psDown) :
    d.frameBoundary r h p elapsed clk = if r.fence h then d.modPort h p (fun x => { x with fenced := true }) else d := by
  unfold Dev.frameBoundary
  dsimp only
  rw [hst, if_pos rfl, if_neg (show ¬ psDown = psUp by decide)]
theorem Dev.frameBoundary_fence_quarantine (hf : r.fence h = true) (hst : d.pst h p = psQuarantine) :
    d.frameBoundary r h p elapsed clk = (d.fencedPort h p).modPort h p Port.idle := by
  unfold Dev.frameBoundary Dev.fencedPort
  dsimp only
  rw [hf, hst, if_neg (by decide), if_pos rfl, if_pos rfl]
theorem Dev.frameBoundary_fence (hf : r.fence h = true) (hd : d.pst h p ≠ psDown) (hq : d.pst h p ≠ psQuarantine) :
    d.frameBoundary r h p elapsed clk = (let y := (d.fencedPort h p).quietLine h p
      if (y.port h p).hb then y.sendHb r h p clk else y).fillLine h p := by
  have hnext : ((d.fencedPort h p).quietLine h p).nextFrame r h p elapsed clk = (let y := (d.fencedPort h p).quietLine h p
      if (y.port h p).hb then y.sendHb r h p clk else y) := by
    unfold Dev.nextFrame
    dsimp only
    rw [if_pos hf]
  rw [← hnext]
  unfold Dev.frameBoundary
  dsimp only
  rw [if_neg hd, if_neg hq, if_pos hf]
  rfl

/-- Under the fence a port without a heartbeat due sends an idle set. -/
theorem Dev.fenced_idles (hf : r.fence h = true) (hd : d.pst h p ≠ psDown) (hh : (d.port h p).hb = false) (ho : (d.port h p).drvOff = false) :
    ((d.frameBoundary r h p elapsed clk).port h p).sent = (d.port h p).sent ∧
    ((d.frameBoundary r h p elapsed clk).port h p).wire = (idleSet (d.port h p).disp).1 ∧
    ((d.frameBoundary r h p elapsed clk).port h p).fenced = true ∧ (d.frameBoundary r h p elapsed clk).chans = d.chans ∧
    (d.frameBoundary r h p elapsed clk).pst h p = (if d.pst h p = psUp then psFenced else d.pst h p) := by
  obtain ⟨hline, hfenced, hchans, -, hst, -⟩ := d.fencedPort_spec h p
  simp only [Port.line, Prod.mk.injEq] at hline
  obtain ⟨hsent, -, hdisp, hdrv, hhb⟩ := hline
  have hidle (x : Port) (hx : x.drvOff = false) : x.idle = { x with wire := (idleSet x.disp).1, disp := (idleSet x.disp).2 } :=
    if_neg (by rw [hx]; exact Bool.false_ne_true)
  by_cases hq : d.pst h p = psQuarantine
  · rw [Dev.frameBoundary_fence_quarantine hf hq, Dev.port_modPort_same, Dev.modPort_chans, Dev.pst_modPort, hidle _ (hdrv.trans ho)]
    exact ⟨hsent, by rw [← hdisp], hfenced, hchans, hst⟩
  · have hport := (d.fencedPort h p).port_quietLine h p
    have hnone : (((d.fencedPort h p).quietLine h p).port h p).hb = false := by
      rw [hport]
      exact hhb.trans hh
    rw [Dev.frameBoundary_fence hf hd hq]
    dsimp only
    rw [hnone, if_neg Bool.false_ne_true, Dev.fillLine, hport, if_pos rfl, Dev.port_modPort_same, hport,
      hidle { (d.fencedPort h p).port h p with wire := [] } (hdrv.trans ho), Dev.modPort_chans, Dev.pst_modPort, Dev.quietLine, Dev.modPort_chans, Dev.pst_modPort]
    exact ⟨hsent, by rw [← hdisp], hfenced, hchans, hst⟩
/-- Under the fence a heartbeat that is due leaves. -/
theorem Dev.fenced_sendsHb {clk : BitVec 16} (hf : r.fence h = true) (hd : d.pst h p ≠ psDown) (hq : d.pst h p ≠ psQuarantine) (hh : (d.port h p).hb = true)
    (ho : (d.port h p).drvOff = false) :
    d.sends h p 0x06 0 [clk.toNat + d.g (rlkL h p) RLK_STAT.LOCKED * 2 ^ 16 + b2n (d.pst h p == psFenced || d.pst h p == psUp) * 2 ^ 17 + b2n (r.leads h) * 2 ^ 18,
      d.g (rlkL h p) RLK_PDLY.PDLY] (d.frameBoundary r h p elapsed clk.toNat) := by
  obtain ⟨hline, -, hchans, hregs, hst, hlocked⟩ := d.fencedPort_spec h p
  simp only [Port.line, Prod.mk.injEq] at hline
  obtain ⟨-, -, -, hdrv, hhb⟩ := hline
  have hport := (d.fencedPort h p).port_quietLine h p
  have hkept {f : Fld} (hf : f.off < 0xBF0) (h14 : f.off ≠ 0x014) (h1C : f.off ≠ 0x01C) (h800 : f.off ≠ 0x800) (h810 : f.off ≠ 0x810) :
      ((d.fencedPort h p).quietLine h p).g (rlkL h p) f = d.g (rlkL h p) f :=
    (Dev.modPort_g ..).trans (Dev.g_of_regsOff hregs (fun hk => hk.elim
      (page_reg_ne (rlkL_page h p) (rlkL_page h p) (by omega) (by decide) h800) (page_reg_ne (rlkL_page h p) (rlkL_page h p) (by omega) (by decide) h810))
      (evReg_rlk h p hf h14 h1C))
  have hdue : (((d.fencedPort h p).quietLine h p).port h p).hb = true := by
    rw [hport]
    exact hhb.trans hh
  have hstate : (((d.fencedPort h p).quietLine h p).pst h p == psFenced) = (d.pst h p == psFenced || d.pst h p == psUp) := by
    rw [show ((d.fencedPort h p).quietLine h p).pst h p = _ from hst]
    split
    · next hup =>
      rw [hup]
      rfl
    · next hup => rw [beq_eq_false_iff_ne.mpr hup, Bool.or_false]
  have hsend := Dev.sendHb_sends (d := (d.fencedPort h p).quietLine h p) (r := r) (h := h) (p := p) (clk := clk) (by rw [hport]; exact hdrv.trans ho)
  rw [hstate, hkept (f := RLK_PDLY.PDLY) (by decide) (by decide) (by decide) (by decide) (by decide),
    show ((d.fencedPort h p).quietLine h p).g (rlkL h p) RLK_STAT.LOCKED = _ from hlocked] at hsend
  rw [Dev.frameBoundary_fence hf hd hq]
  dsimp only
  rw [hdue, if_pos rfl]
  exact Dev.sends_fillLine (Dev.sends_from hsend (hkept (by decide) (by decide) (by decide) (by decide) (by decide)) hchans)
end

/-! ### A new EVT frame (R158, R161, R184) -/

section
variable {d : Dev} {r : Referee} {h : Half} {p : Nat}
/-- Taking events changes the queues and the counter of late candidates. -/
theorem Dev.takeEvents_queuesOnly (d : Dev) (r : Referee) (h : Half) (p seq n : Nat) :
    Dev.queuesOnly h d (d.takeEvents r h p seq n).2 ∧ (d.takeEvents r h p seq n).1.length ≤ n := by
  induction n generalizing d with
  | zero => exact ⟨Dev.queuesOnly_refl h d, Nat.le_refl 0⟩
  | succ n ih =>
    unfold Dev.takeEvents
    split
    · exact ⟨Dev.queuesOnly_refl h d, Nat.zero_le _⟩
    · next ch e _ =>
      have hstep : Dev.queuesOnly h d ((d.modChan h ch (Chan.send seq)).candidate h ch) :=
        Dev.queuesOnly_trans (Dev.queuesOnly_chans h d _) (Dev.queuesOnly_of_onlyOff (Dev.candidate_onlyOff _ h ch))
      obtain ⟨hq, hlen⟩ := ih ((d.modChan h ch (Chan.send seq)).candidate h ch)
      exact ⟨Dev.queuesOnly_trans hstep hq, Nat.succ_le_succ hlen⟩
theorem Dev.takeEvents_first {ch : Nat} {e : QEv} {n : Nat} (hp : d.pick r h p = some (ch, e)) (hn : 0 < n) (seq : Nat) :
    ∃ evs, (d.takeEvents r h p seq n).1 = (ch, e.ev) :: evs := by
  obtain ⟨m, rfl⟩ := Nat.exists_eq_add_of_lt hn
  rw [Nat.zero_add]
  unfold Dev.takeEvents
  rw [hp]
  exact ⟨_, rfl⟩

/-- Credits spent for `n` events that were sent. -/
def Dev.charged (d : Dev) (h : Half) (p n : Nat) : Dev := (d.setCredits h p ((d.port h p).credits + 2 ^ 32 - n)).wrap (rlkL h p) RLK_ES.COUNT n
theorem Dev.charged_spec (d : Dev) (h : Half) (p n : Nat) :
    (d.charged h p n).port h p = { d.port h p with credits := ((d.port h p).credits + 2 ^ 32 - n) % 2 ^ 32 } ∧
    (d.charged h p n).g (rlkL h p) RLK_CREDIT.C = ((d.port h p).credits + 2 ^ 32 - n) % 2 ^ 32 % 65536 ∧
    (d.charged h p n).g (rlkL h p) RLK_ES.COUNT = (d.g (rlkL h p) RLK_ES.COUNT + n) % 2 ^ 32 ∧
    ∀ f : Fld, f.off ≠ 0x814 → f.off ≠ 0x818 → (d.charged h p n).g (rlkL h p) f = d.g (rlkL h p) f := by
  unfold Dev.charged Dev.setCredits
  rw [Dev.wrap_eq, Dev.port_p, Dev.port_modPort_same, Dev.port_p]
  refine ⟨rfl, ?_, ?_, fun f h814 h818 => ?_⟩
  · rw [Dev.g_p_page (f := RLK_ES.COUNT) _ _ _ (by decide), Dev.modPort_g, Dev.g_p_same _ _ _ _ (by decide)]
    rfl
  · rw [Dev.g_p_same _ _ _ _ (by decide), Dev.modPort_g, Dev.g_p_page (f := RLK_CREDIT.C) _ _ _ (by decide)]
    rfl
  · rw [Dev.g_p_page (f := RLK_ES.COUNT) _ _ _ h818, Dev.modPort_g, Dev.g_p_page (f := RLK_CREDIT.C) _ _ _ h814]

/-- The EVT frame that carries events. -/
def evtFrame (seq : Nat) (evs : List (Nat × Nat)) : Frame := ⟨seq, 0x02, evs.flatMap (fun e => [e.2 % 2 ^ 32, e.2 / 2 ^ 32]), evs.map (·.1)⟩
theorem evtFrame_words (seq : Nat) (evs : List (Nat × Nat)) : (evtFrame seq evs).words.length = 2 * (evtFrame seq evs).chans.length := by
  simp [evtFrame, List.length_flatMap, Nat.mul_comm]
/-- The port after a frame was closed under the next SEQ. -/
def Port.closing (x : Port) (m : Bool) (f : Frame) : Port := { x with closed := some f, confirmed := !m, mirrors := if m then x.mirrors ++ [f] else x.mirrors }
theorem Dev.closeEvt_spec {ch : Nat} {e : QEv} (hp : d.pick r h p = some (ch, e)) (hs : 0 < (d.port h p).spendable) :
    ∃ f, f.seq = d.g (rlkL h p) RLK_SEQ.TXNEXT ∧ f.type = 0x02 ∧ 1 ≤ f.chans.length ∧ f.chans.length ≤ min 16 (d.port h p).spendable ∧
      f.chans.head? = some ch ∧ f.words.length = 2 * f.chans.length ∧
      (d.closeEvt r h p).port h p =
        ({ d.port h p with credits := ((d.port h p).credits + 2 ^ 32 - f.chans.length) % 2 ^ 32 } : Port).closing (r.mirrors h) f ∧
      (d.closeEvt r h p).g (rlkL h p) RLK_CREDIT.C = ((d.port h p).credits + 2 ^ 32 - f.chans.length) % 2 ^ 32 % 65536 ∧
      (d.closeEvt r h p).g (rlkL h p) RLK_ES.COUNT = (d.g (rlkL h p) RLK_ES.COUNT + f.chans.length) % 2 ^ 32 ∧
      (d.closeEvt r h p).g (rlkL h p) RLK_SEQ.TXNEXT = d.g (rlkL h p) RLK_SEQ.TXNEXT ∧
      (d.closeEvt r h p).g (rlkL h p) RLK_EPOCH.EPOCH = d.g (rlkL h p) RLK_EPOCH.EPOCH := by
  obtain ⟨hq, hlen⟩ := d.takeEvents_queuesOnly r h p (d.g (rlkL h p) RLK_SEQ.TXNEXT) (min 16 (d.port h p).spendable)
  obtain ⟨evs, hevs⟩ := Dev.takeEvents_first hp (show 0 < min 16 (d.port h p).spendable by omega) (d.g (rlkL h p) RLK_SEQ.TXNEXT)
  have hclose : d.closeEvt r h p = ((d.takeEvents r h p (d.g (rlkL h p) RLK_SEQ.TXNEXT) (min 16 (d.port h p).spendable)).2.charged h p ((ch, e.ev) :: evs).length).closeFrame
      r h p (evtFrame (d.g (rlkL h p) RLK_SEQ.TXNEXT) ((ch, e.ev) :: evs)) := by
    have hport := Dev.port_of_ports (Dev.ports_of_queuesOnly hq) h p
    unfold Dev.closeEvt
    dsimp only
    rw [hevs, Dev.charged, hport]
    rfl
  rw [hevs] at hlen
  generalize (d.takeEvents r h p (d.g (rlkL h p) RLK_SEQ.TXNEXT) (min 16 (d.port h p).spendable)).2 = y at hq hclose
  have hport : y.port h p = d.port h p := Dev.port_of_ports (Dev.ports_of_queuesOnly hq) h p
  have hreg {f : Fld} (hf : f.off < 0xBF0) (hne : f.off ≠ 0x838) (h14 : f.off ≠ 0x014) (h1C : f.off ≠ 0x01C) : y.g (rlkL h p) f = d.g (rlkL h p) f :=
    Dev.rlk_g_of_queuesOnly hq p hf hne h14 h1C
  obtain ⟨hcport, hcredit, hes, hrest⟩ := y.charged_spec h p ((ch, e.ev) :: evs).length
  have hn : (evtFrame (d.g (rlkL h p) RLK_SEQ.TXNEXT) ((ch, e.ev) :: evs)).chans.length = ((ch, e.ev) :: evs).length := List.length_map ..
  refine ⟨evtFrame (d.g (rlkL h p) RLK_SEQ.TXNEXT) ((ch, e.ev) :: evs), rfl, rfl, ?_, ?_, rfl, evtFrame_words _ _, ?_, ?_, ?_, ?_, ?_⟩
  · rw [hn]
    exact Nat.succ_le_succ (Nat.zero_le _)
  · exact hn.trans_le hlen
  · rw [hclose, hn, Dev.closeFrame, Dev.port_modPort_same, hcport, hport]
    rfl
  · rw [hclose, hn, Dev.closeFrame, Dev.modPort_g, hcredit, hport]
  · rw [hclose, hn, Dev.closeFrame, Dev.modPort_g, hes, hreg (by decide) (by decide) (by decide) (by decide)]
  · rw [hclose, Dev.closeFrame, Dev.modPort_g, hrest _ (by decide) (by decide), hreg (by decide) (by decide) (by decide) (by decide)]
  · rw [hclose, Dev.closeFrame, Dev.modPort_g, hrest _ (by decide) (by decide), hreg (by decide) (by decide) (by decide) (by decide)]

/-- A closed frame that waits for its mirror confirmation stays. -/
theorem Dev.sendClosed_waits (hc : (d.port h p).confirmed = false) : d.sendClosed h p = d := by
  unfold Dev.sendClosed
  rw [hc]
  split
  · next heq => exact absurd heq Bool.false_ne_true
  · rfl
/-- A closed frame that need not wait leaves and is unacknowledged. -/
theorem Dev.sendClosed_leaves {f : Frame} (hf : (d.port h p).closed = some f) (hc : (d.port h p).confirmed = true) (hd : (d.port h p).drvOff = false) :
    (d.sendClosed h p).port h p = ((d.port h p).framed (frameSyms f.type f.seq (d.g (rlkL h p) RLK_EPOCH.EPOCH :: f.words))).tookClosed f ∧
    (d.sendClosed h p).g (rlkL h p) RLK_SEQ.TXNEXT = (f.seq + 1) % 65536 ∧
    ∀ g : Fld, g.off ≠ 0x810 → (d.sendClosed h p).g (rlkL h p) g = d.g (rlkL h p) g := by
  have hport := Dev.port_sendFrame hd f.type f.seq f.words
  have hclosed : ((d.sendFrame h p f.type f.seq f.words).port h p).closed = some f := by
    rw [hport]
    exact hf
  have heq : d.sendClosed h p = (d.sendFrame h p f.type f.seq f.words).closedSent h p := by
    unfold Dev.sendClosed
    rw [hf, hc]
  rw [heq, Dev.closedSent_some _ _ _ hclosed]
  refine ⟨?_, ?_, fun g hg => ?_⟩
  · rw [Dev.port_modPort_same, Dev.port_p, hport]
  · rw [Dev.modPort_g, Dev.g_p_same _ _ _ _ (by decide)]
    rfl
  · rw [Dev.modPort_g, Dev.g_p_page (f := RLK_SEQ.TXNEXT) _ _ _ hg, Dev.sendFrame, Dev.modPort_g]
end

/-! ### Mirror records (R196) -/

section
variable {d : Dev} {h : Half} {p : Nat}
theorem Dev.mirrorEvent_queuesOnly (d : Dev) (h : Half) (seq ch ev : Nat) : Dev.queuesOnly h d (d.mirrorEvent h seq ch ev) := by
  have h1 : Dev.queuesOnly h d (d.modChan h ch (Chan.mirrored seq ev)) := Dev.queuesOnly_chans h d _
  unfold Dev.mirrorEvent
  dsimp only
  split
  · exact h1
  · exact Dev.queuesOnly_trans h1 (Dev.queuesOnly_of_onlyOff (Dev.candidate_onlyOff _ h ch))
/-- The events of a mirror record, counted as sent by the half that takes it. -/
def Dev.mirrorEvents (d : Dev) (h : Half) (f : Frame) : Dev :=
  (List.range f.chans.length).foldl (fun y i => y.mirrorEvent h f.seq (f.chans.getD i 0) (f.words.getD (2 * i) 0 + f.words.getD (2 * i + 1) 0 * 2 ^ 32)) d
/-- The oldest mirror record taken from a port, and its confirmation on the way. -/
def Port.mirrorTaken (x : Port) (rest : List Frame) : Port := { x with mirrors := rest, confirms := x.confirms + 1 }
theorem Dev.mirrorTake_spec (hp : p < 64) {f : Frame} {rest : List Frame} (hm : (d.port h.peer p).mirrors = f :: rest) :
    (d.mirrorTake h p).port h.peer p = (d.port h.peer p).mirrorTaken rest ∧ (d.mirrorTake h p).port h p =
      { d.port h p with credits := ((d.port h p).credits + 2 ^ 32 - f.chans.length) % 2 ^ 32, unack := (d.port h p).unack ++ [f] } ∧
    (d.mirrorTake h p).g (rlkL h p) RLK_SEQ.TXNEXT = (f.seq + 1) % 65536 ∧
    (d.mirrorTake h p).g (rlkL h p) RLK_CREDIT.C = ((d.port h p).credits + 2 ^ 32 - f.chans.length) % 2 ^ 32 % 65536 ∧
    (d.mirrorTake h p).g (rlkL h p) RLK_ES.COUNT = (d.g (rlkL h p) RLK_ES.COUNT + f.chans.length) % 2 ^ 32 := by
  have hq : Dev.queuesOnly h (d.modPort h.peer p (fun x => x.mirrorTaken rest)) ((d.modPort h.peer p (fun x => x.mirrorTaken rest)).mirrorEvents h f) :=
    Dev.queuesOnly_foldl _ (fun x i _ => Dev.mirrorEvent_queuesOnly x h _ _ _) _
  have hself : ((d.modPort h.peer p (fun x => x.mirrorTaken rest)).port h p) = d.port h p :=
    Dev.port_modPort_ne d h.peer p _ h p hp hp (.inl (Half.peer_ne h).symm)
  have heq : d.mirrorTake h p = (((((d.modPort h.peer p (fun x => x.mirrorTaken rest)).mirrorEvents h f).p (rlkL h p) RLK_SEQ.TXNEXT (f.seq + 1)).charged h p
      f.chans.length).modPort h p (fun x => { x with unack := x.unack ++ [f] })) := by
    have hport : ((((d.modPort h.peer p (fun x => x.mirrorTaken rest)).mirrorEvents h f).p (rlkL h p) RLK_SEQ.TXNEXT (f.seq + 1)).port h p) = d.port h p := by
      rw [Dev.port_p, Dev.port_of_ports (Dev.ports_of_queuesOnly hq), hself]
    unfold Dev.mirrorTake
    rw [hm, Dev.charged, hport]
    rfl
  generalize hy : (d.modPort h.peer p (fun x => x.mirrorTaken rest)).mirrorEvents h f = y at hq heq
  have hport (k : Half) := Dev.port_of_ports (Dev.ports_of_queuesOnly hq) k p
  have hes : y.g (rlkL h p) RLK_ES.COUNT = d.g (rlkL h p) RLK_ES.COUNT := Dev.rlk_g_of_queuesOnly hq p (by decide) (by decide) (by decide) (by decide)
  obtain ⟨hcport, hccredit, hces, hcrest⟩ := (y.p (rlkL h p) RLK_SEQ.TXNEXT (f.seq + 1)).charged_spec h p f.chans.length
  rw [Dev.port_p, hport, hself] at hcport hccredit
  rw [heq]
  refine ⟨?_, ?_, ?_, ?_, ?_⟩
  · have hpeer : (((y.p (rlkL h p) RLK_SEQ.TXNEXT (f.seq + 1)).charged h p f.chans.length).port h.peer p) = y.port h.peer p := by
      unfold Dev.charged Dev.setCredits
      rw [Dev.wrap_eq, Dev.port_p, Dev.port_modPort_ne _ _ _ _ _ _ hp hp (.inl (Half.peer_ne h)), Dev.port_p, Dev.port_p]
    rw [Dev.port_modPort_ne _ _ _ _ _ _ hp hp (.inl (Half.peer_ne h)), hpeer, hport, Dev.port_modPort_same]
  · rw [Dev.port_modPort_same, hcport]
  · rw [Dev.modPort_g, hcrest _ (by decide) (by decide), Dev.g_p_same _ _ _ _ (by decide)]
    rfl
  · rw [Dev.modPort_g, hccredit]
  · rw [Dev.modPort_g, hces, Dev.g_p_page (f := RLK_SEQ.TXNEXT) _ _ _ (by decide), hes]
theorem Dev.mirrorConfirm_some (hc : 0 < (d.port h p).confirms) : d.mirrorConfirm h p =
    d.modPort h p (fun x => { x with confirms := x.confirms - 1, confirmed := x.confirmed || x.closed.isSome }) := if_pos hc
/-- A confirmation that does not come in time. -/
theorem Dev.mirrorLate_waiting (hc : (d.port h p).closed ≠ none) (hn : (d.port h p).confirmed = false) :
    d.mirrorLate h p = ((d.sat (rlkL h p) RLK_MIRR.LATE).raise (rlkL h p) 9).reportP h 0x0B p (rlkL h p) := by
  have hguard : ((d.port h p).closed.isSome && !(d.port h p).confirmed) = true := by
    rw [Option.isSome_iff_ne_none.mpr hc, hn]
    rfl
  exact if_pos hguard
theorem Dev.mirrorLate_none (hc : (d.port h p).closed = none) : d.mirrorLate h p = d := by
  unfold Dev.mirrorLate
  dsimp only
  rw [hc]
  rfl
end

/-! ### The commands -/

section
variable {s : State} {h : Half} {p : Fin 64} (hs : s.awake h (rlkL h p))
include hs
/-- A frame boundary with no commit of the port's page waiting, in a half past INIT. -/
theorem exec_frameBoundary (hi : s.ref.hs h ≠ .init) (ha : s.dev.armed (pageOf h.n .rlk p) = false) (elapsed : Nat) (clk : BitVec 16) :
    exec (.frameBoundary h p elapsed clk) s = .next { s with dev := s.dev.frameBoundary s.ref h p elapsed clk.toNat } := by
  have hedge : s.dev.ownEdge (pageOf h.n .rlk p) = s.dev := by
    unfold Dev.ownEdge
    rw [ha]
    exact if_neg (fun hn => Bool.false_ne_true hn.1)
  unfold exec
  dsimp only
  rw [execFrameBoundary, onBlock_live hs.1 hs.2, hedge]
  dsimp only
  rw [if_neg hi]
theorem exec_mirrorRecordReceive : exec (.mirrorRecordReceive h p) s = .next { s with dev := s.dev.mirrorTake h p } := by
  unfold exec
  dsimp only
  rw [execMirrorRecordReceive, onBlock_live hs.1 hs.2]
theorem exec_mirrorConfirm : exec (.mirrorConfirm h p) s = .next { s with dev := s.dev.mirrorConfirm h p } := by
  unfold exec
  dsimp only
  rw [execMirrorConfirm, onBlock_live hs.1 hs.2]
theorem exec_mirrorLate : exec (.mirrorLate h p) s = .next { s with dev := s.dev.mirrorLate h p } := by
  unfold exec
  dsimp only
  rw [execMirrorLate, onBlock_live hs.1 hs.2]
end

/-! ### What leaves at a frame boundary -/

theorem Dev.pick_modPort (d : Dev) (r : Referee) (h : Half) (p : Nat) (f : Port → Port) (h' : Half) (p' : Nat) : (d.modPort h p f).pick r h' p' = d.pick r h' p' := rfl
theorem Port.offLine_fields {x y : Port} (hxy : x.offLine = y.offLine) :
    x.credits = y.credits ∧ x.sent = y.sent ∧ x.closed = y.closed ∧ x.confirmed = y.confirmed ∧ x.mirrors = y.mirrors ∧ x.unack = y.unack := by
  simp only [Port.offLine, Port.mk.injEq] at hxy
  tauto

theorem Dev.pastBeam_quietLine {d : Dev} {h : Half} {p : Nat} (hb : d.pastBeam h p) : (d.quietLine h p).pastBeam h p := by
  have hport := d.port_quietLine h p
  exact ⟨(congrArg Port.chg hport).trans hb.1, hb.2.imp (congrArg Port.await hport).trans (congrArg Port.snap hport).trans⟩

section
variable {d : Dev} {r : Referee} {h : Half} {p elapsed : Nat} {clk : BitVec 16} (hf : r.fence h = false) (hst : d.pst h p = psUp) (ho : (d.port h p).drvOff = false)
include hf hst
theorem Dev.frameBoundary_sends {ty seq : Nat} {ws : List Nat}
    (hs : (d.quietLine h p).sends h p ty seq ws ((d.quietLine h p).upFrame r h p elapsed clk.toNat)) :
    d.sends h p ty seq ws (d.frameBoundary r h p elapsed clk.toNat) := by
  rw [Dev.frameBoundary_up hf hst]
  exact Dev.sends_from (Dev.sends_fillLine hs) (Dev.modPort_g ..) (Dev.modPort_chans ..)
include ho
theorem Dev.boundary_chg (hc : (d.port h p).chg = some false) :
    d.sends h p 0x07 0 [h.n * 2 ^ 8, (d.port h p).rxNext] (d.frameBoundary r h p elapsed clk.toNat) := by
  have hport := d.port_quietLine h p
  have hsend := Dev.upFrame_chg (r := r) (elapsed := elapsed) (clk := clk.toNat) ((congrArg Port.chg hport).trans hc) ((congrArg Port.drvOff hport).trans ho)
  rw [hport] at hsend
  exact Dev.frameBoundary_sends hf hst hsend
theorem Dev.boundary_beam (hc : (d.port h p).chg = none) (ha : (d.port h p).await ≠ .ack) (hs : (d.port h p).snap ≠ (d.snap h (d.rbeam h p)).tb) :
    d.sends h p 0x01 0 (d.beamWords h p elapsed) (d.frameBoundary r h p elapsed clk.toNat) := by
  have hport := d.port_quietLine h p
  have hsend := Dev.upFrame_beam (d := d.quietLine h p) (h := h) (p := p) (r := r) (elapsed := elapsed) (clk := clk.toNat) ((congrArg Port.chg hport).trans hc)
    (fun hn => ha ((congrArg Port.await hport).symm.trans hn)) (fun hn => hs ((congrArg Port.snap hport).symm.trans hn)) ((congrArg Port.drvOff hport).trans ho)
  exact Dev.frameBoundary_sends hf hst hsend
theorem Dev.boundary_ack (hb : d.pastBeam h p) (ha : (d.port h p).ack = true) :
    d.sends h p 0x03 0 [(d.port h p).rxNext + b2n (d.port h p).retry * 2 ^ 16] (d.frameBoundary r h p elapsed clk.toNat) := by
  have hport := d.port_quietLine h p
  have hsend := Dev.upFrame_ack (r := r) (elapsed := elapsed) (clk := clk.toNat) (Dev.pastBeam_quietLine hb) ((congrArg Port.ack hport).trans ha)
    ((congrArg Port.drvOff hport).trans ho)
  rw [hport] at hsend
  exact Dev.frameBoundary_sends hf hst hsend
theorem Dev.boundary_aud (hb : d.pastBeam h p) (ha : (d.port h p).ack = false) (hau : (d.port h p).aud = true) :
    d.sends h p 0x08 0 [(d.port h p).credits, d.g (rlkL h p) RLK_ES.COUNT, d.g (rlkL h p) RLK_CR.COUNT] (d.frameBoundary r h p elapsed clk.toNat) := by
  have hport := d.port_quietLine h p
  have hsend := Dev.upFrame_aud (r := r) (elapsed := elapsed) (clk := clk.toNat) (Dev.pastBeam_quietLine hb) ((congrArg Port.ack hport).trans ha)
    ((congrArg Port.aud hport).trans hau) ((congrArg Port.drvOff hport).trans ho)
  rw [hport] at hsend
  exact Dev.frameBoundary_sends hf hst hsend
theorem Dev.boundary_hb (hb : d.pastBeam h p) (ha : (d.port h p).ack = false) (hau : (d.port h p).aud = false) (hh : (d.port h p).hb = true) :
    d.sends h p 0x06 0 [clk.toNat + d.g (rlkL h p) RLK_STAT.LOCKED * 2 ^ 16 + 0 * 2 ^ 17 + b2n (r.leads h) * 2 ^ 18, d.g (rlkL h p) RLK_PDLY.PDLY]
      (d.frameBoundary r h p elapsed clk.toNat) := by
  have hport := d.port_quietLine h p
  have hsend := Dev.sendHb_sends (d := d.quietLine h p) (r := r) (h := h) (p := p) (clk := clk) ((congrArg Port.drvOff hport).trans ho)
  rw [show ((d.quietLine h p).pst h p == psFenced) = false from beq_eq_false_iff_ne.mpr (fun hn => absurd (hst.symm.trans hn) (by decide))] at hsend
  rw [← Dev.upFrame_hb (elapsed := elapsed) (Dev.pastBeam_quietLine hb) ((congrArg Port.ack hport).trans ha)
    ((congrArg Port.aud hport).trans hau) ((congrArg Port.hb hport).trans hh)] at hsend
  exact Dev.frameBoundary_sends hf hst hsend
theorem Dev.boundary_rtx (hb : d.pastBeam h p) (ha : (d.port h p).ack = false) (hau : (d.port h p).aud = false) (hh : (d.port h p).hb = false)
    (haw : (d.port h p).await = .none) {n : Nat} {rest : List Nat} {f : Frame} (hr : (d.port h p).rtx = n :: rest)
    (hfind : (d.port h p).unack.find? (fun f => f.seq = n) = some f) :
    d.sends h p f.type f.seq f.words (d.frameBoundary r h p elapsed clk.toNat) := by
  have hport := d.port_quietLine h p
  have hunack : ((d.quietLine h p).port h p).unack = (d.port h p).unack := by rw [hport]
  have hsend := Dev.upFrame_rtx (r := r) (elapsed := elapsed) (clk := clk.toNat) (Dev.pastBeam_quietLine hb) ((congrArg Port.ack hport).trans ha)
    ((congrArg Port.aud hport).trans hau) ((congrArg Port.hb hport).trans hh) ((congrArg Port.await hport).trans haw) ((congrArg Port.rtx hport).trans hr)
    (by rw [hunack]; exact hfind) ((congrArg Port.drvOff hport).trans ho)
  exact Dev.frameBoundary_sends hf hst hsend

/-- A new frame leaves, or is mirrored and waits (R161, R196). -/
theorem Dev.boundary_new (hb : d.pastBeam h p) (ha : (d.port h p).ack = false) (hau : (d.port h p).aud = false) (hh : (d.port h p).hb = false)
    (haw : (d.port h p).await = .none) (hr : (d.port h p).rtx = []) (hc : (d.port h p).closed = none) (hu : (d.port h p).unack.length < 128)
    (hs : 0 < (d.port h p).spendable) {ch : Nat} {e : QEv} (hp : d.pick r h p = some (ch, e)) :
    let y := d.frameBoundary r h p elapsed clk.toNat
    ∃ f, f.seq = d.g (rlkL h p) RLK_SEQ.TXNEXT ∧ f.type = 0x02 ∧ 1 ≤ f.chans.length ∧ f.chans.length ≤ min 16 (d.port h p).spendable ∧
      f.chans.head? = some ch ∧ f.words.length = 2 * f.chans.length ∧
      (y.port h p).credits = ((d.port h p).credits + 2 ^ 32 - f.chans.length) % 2 ^ 32 ∧
      y.g (rlkL h p) RLK_CREDIT.C = (y.port h p).credits % 65536 ∧
      y.g (rlkL h p) RLK_ES.COUNT = (d.g (rlkL h p) RLK_ES.COUNT + f.chans.length) % 2 ^ 32 ∧
      (if r.mirrors h then (y.port h p).sent = (d.port h p).sent ∧ (y.port h p).closed = some f ∧ (y.port h p).confirmed = false ∧
          (y.port h p).mirrors = (d.port h p).mirrors ++ [f] ∧ (y.port h p).unack = (d.port h p).unack ∧ y.g (rlkL h p) RLK_SEQ.TXNEXT = f.seq
        else (y.port h p).sent = frameSyms 0x02 f.seq (d.g (rlkL h p) RLK_EPOCH.EPOCH :: f.words) ∧ (y.port h p).closed = none ∧
          (y.port h p).unack = (d.port h p).unack ++ [f] ∧ y.g (rlkL h p) RLK_SEQ.TXNEXT = (f.seq + 1) % 65536) := by
  intro y
  have hport := d.port_quietLine h p
  have hpick : (d.quietLine h p).pick r h p = some (ch, e) := (Dev.pick_modPort ..).trans hp
  obtain ⟨f, hseq, hty, hmin, hmax, hhead, hwords, hcport, hcredit, hes, htx, hep⟩ :=
    Dev.closeEvt_spec hpick (show 0 < ((d.quietLine h p).port h p).spendable by rw [hport]; exact hs)
  have hclosed : (((d.quietLine h p).closeEvt r h p).port h p).closed = some f := by
    rw [hcport]
    rfl
  have hy : y = (((d.quietLine h p).closeEvt r h p).sendClosed h p).fillLine h p := by
    rw [show y = _ from Dev.frameBoundary_up hf hst, Dev.upFrame_new (Dev.pastBeam_quietLine hb) ((congrArg Port.ack hport).trans ha)
      ((congrArg Port.aud hport).trans hau) ((congrArg Port.hb hport).trans hh) ((congrArg Port.await hport).trans haw) ((congrArg Port.rtx hport).trans hr)
      ((congrArg Port.closed hport).trans hc) (by rw [hport]; exact hu) hclosed]
  have hg (g : Fld) : y.g (rlkL h p) g = (((d.quietLine h p).closeEvt r h p).sendClosed h p).g (rlkL h p) g := by
    rw [hy]
    exact Dev.g_of_regs (Dev.fillLine_regs ..) _ _
  have hoff : (y.port h p).offLine = ((((d.quietLine h p).closeEvt r h p).sendClosed h p).port h p).offLine := by
    rw [hy]
    exact Dev.offLine_fillLine ..
  have hq (g : Fld) : (d.quietLine h p).g (rlkL h p) g = d.g (rlkL h p) g := Dev.modPort_g ..
  rw [hq] at hseq hes htx hep
  rw [hport] at hmax hcport hcredit
  refine ⟨f, hseq, hty, hmin, hmax, hhead, hwords, ?_⟩
  rw [hg, hg, hg]
  cases hm : r.mirrors h with
  | true =>
    rw [hm] at hcport
    rw [Dev.sendClosed_waits (by rw [hcport]; rfl), hcport] at hoff
    rw [Dev.sendClosed_waits (by rw [hcport]; rfl), if_pos rfl, hseq]
    obtain ⟨hcr, hsent, hcl, hconf, hmirr, hun⟩ := Port.offLine_fields hoff
    exact ⟨hcr, by rw [hcr]; exact hcredit, hes, hsent, hcl, hconf, hmirr, hun, htx⟩
  | false =>
    rw [hm] at hcport
    obtain ⟨hsport, hstx, hsrest⟩ := Dev.sendClosed_leaves hclosed (by rw [hcport]; rfl) (by rw [hcport]; exact ho)
    rw [hsport, hcport] at hoff
    rw [hstx, hsrest _ (by decide), hsrest _ (by decide), if_neg Bool.false_ne_true]
    obtain ⟨hcr, hsent, hcl, -, -, hun⟩ := Port.offLine_fields hoff
    exact ⟨hcr, by rw [hcr]; exact hcredit, hes, by rw [← hty, ← hep]; exact hsent, hcl, hun, rfl⟩
end

/-- A late confirmation is counted, raised and reported. -/
theorem Dev.mirrorLate_spec {d : Dev} {h : Half} {p : Nat} (hk : d.clocked (rlkL h p) = true) (hc : (d.port h p).closed ≠ none) (hn : (d.port h p).confirmed = false) :
    (d.mirrorLate h p).g (rlkL h p) RLK_MIRR.LATE = min (d.g (rlkL h p) RLK_MIRR.LATE + 1) 65535 ∧ (d.mirrorLate h p).raised (rlkL h p) 9 ∧
    (d.mirrorLate h p).ports = d.ports ∧ ∃ r ∈ (d.mirrorLate h p).reports, r.half = h ∧ r.code = 0x0B := by
  have hraised := Dev.raised_sat_raise hk (f := RLK_MIRR.LATE) (by decide) (n := 9) (by decide)
  rw [Dev.mirrorLate_waiting hc hn]
  refine ⟨?_, Dev.raised_of_regs (Dev.reportP_regs ..) hraised, ?_, ⟨_, List.mem_append_right _ (List.mem_singleton_self _), rfl, rfl⟩⟩
  · rw [Dev.g_of_regs (Dev.reportP_regs ..), Dev.g_raise_rlk _ _ _ _ (by decide) (by decide) (by decide), Dev.g_sat_same _ _ _ (by decide)]
    rfl
  · rw [Dev.reportP_ports, Dev.raise_ports, Dev.sat_eq, Dev.p_ports]

end Sys2Proof.Machine

open Sys2Proof Sys2Proof.Machine

/-- Settles O19: the transmitter of a port by its state and by what waits to be sent, then the mirror of a closed frame. -/
theorem portsSendFramesInOrderAndMirror : Obligations.PortsSendFramesInOrderAndMirror := by
  unfold Obligations.PortsSendFramesInOrderAndMirror
  refine ⟨?_, ?_⟩
  · intro s h p elapsed clk hs hi ha ho l x out
    have hexec := exec_frameBoundary hs hi ha elapsed clk
    have hout {ty seq : Nat} {ws : List Nat} (hsend : s.dev.sends h p ty seq ws (s.dev.frameBoundary s.ref h p elapsed clk.toNat)) : out ty seq ws :=
      ⟨_, hexec, rfl, rfl, hsend.1, hsend.2⟩
    refine ⟨fun hst => ?_, fun hf hd hh => ⟨_, hexec, rfl, rfl, Dev.fenced_idles hf hd hh ho⟩, fun hf hd hq hh => hout (Dev.fenced_sendsHb hf hd hq hh ho),
      fun hf hst => ⟨fun hc => hout (Dev.boundary_chg hf hst ho hc), fun hc haw hsn => hout (Dev.boundary_beam hf hst ho hc haw hsn), fun hc hb => ?_⟩⟩
    · refine ⟨_, hexec, rfl, rfl, ?_⟩
      rw [Dev.frameBoundary_down hst]
      split
      · rw [Dev.port_modPort_same]
        exact ⟨rfl, rfl, rfl, rfl⟩
      · exact ⟨rfl, rfl, rfl, rfl⟩
    · have hpast : s.dev.pastBeam h p := ⟨hc, hb⟩
      exact ⟨fun hack => hout (Dev.boundary_ack hf hst ho hpast hack), fun hack haud => hout (Dev.boundary_aud hf hst ho hpast hack haud),
        fun hack haud hhb => hout (Dev.boundary_hb hf hst ho hpast hack haud hhb),
        fun hack haud hhb haw n rest f hr hfind => hout (Dev.boundary_rtx hf hst ho hpast hack haud hhb haw hr hfind)⟩
  · intro s h p hs
    refine ⟨?_, fun f rest hm => ?_, fun hc => ?_, fun hc hn => ?_, fun hc => ?_⟩
    · intro elapsed clk hi ha ho hf hst hchg haw hsn hack haud hhb hr hc hu hsp ch e hpick
      obtain ⟨f, hspec⟩ := Dev.boundary_new (elapsed := elapsed) (clk := clk) hf hst ho ⟨hchg, .inr hsn⟩ hack haud hhb haw hr hc hu hsp hpick
      exact ⟨_, f, exec_frameBoundary hs hi ha elapsed clk, rfl, rfl, hspec⟩
    · obtain ⟨hpeer, hself, htx, hcr, hes⟩ := Dev.mirrorTake_spec p.isLt hm
      exact ⟨_, exec_mirrorRecordReceive hs, rfl, rfl, congrArg Port.mirrors hpeer, congrArg Port.confirms hpeer, congrArg Port.unack hself, htx,
        congrArg Port.credits hself, by rw [hself]; exact hcr, hes⟩
    · refine ⟨_, exec_mirrorConfirm hs, rfl, rfl, ?_⟩
      rw [Dev.mirrorConfirm_some hc, Dev.port_modPort_same]
      refine ⟨rfl, rfl, rfl, rfl, fun hcl => ?_⟩
      change ((s.dev.port h p).confirmed || (s.dev.port h p).closed.isSome) = true
      rw [Option.isSome_iff_ne_none.mpr hcl, Bool.or_true]
    · exact ⟨_, exec_mirrorLate hs, rfl, rfl, Dev.mirrorLate_spec hs.2 hc hn⟩
    · rw [exec_mirrorLate hs, Dev.mirrorLate_none hc]
end
section
/-! What a port's receiver does with the frames of its board (R156, R169, R182–R185, R191, R194). -/
namespace Sys2Proof.Machine

open Sys2Proof

/-! ### A frame that reaches the receiver (R169, R194) -/

/-- The port has heard a valid frame. -/
def Dev.heard (d : Dev) (h : Half) (p : Nat) : Dev := d.modPort h p (fun x => { x with validAt := d.tb h })

section
variable (d : Dev) (h : Half) (p : Nat)
theorem Dev.port_heard : (d.heard h p).port h p = { d.port h p with validAt := d.tb h } := Dev.port_modPort_same ..
theorem Dev.pst_heard : (d.heard h p).pst h p = d.pst h p := Dev.pst_modPort ..
theorem Dev.g_heard (l : Loc) (f : Fld) : (d.heard h p).g l f = d.g l f := Dev.modPort_g ..
theorem Dev.clocked_modPort (f : Port → Port) (l : Loc) : (d.modPort h p f).clocked l = d.clocked l := rfl
theorem Dev.clocked_heard (l : Loc) : (d.heard h p).clocked l = d.clocked l := Dev.clocked_modPort ..
theorem Dev.chan_heard (k : Half) (c : Nat) : (d.heard h p).chan k c = d.chan k c := Dev.chan_of_chans (Dev.modPort_chans ..) k c
theorem Dev.heard_ignored : (d.heard h p).regs = d.regs ∧ (d.heard h p).chans = d.chans ∧ (d.heard h p).port h p = { d.port h p with validAt := d.tb h } :=
  ⟨Dev.modPort_regs .., Dev.modPort_chans .., d.port_heard h p⟩
end

section
variable {d : Dev} {h : Half} {p epoch : Nat} {f : Dev → Dev}
theorem Dev.receive_ok (hd : d.pst h p ≠ psDown) (hq : d.pst h p ≠ psQuarantine) (he : epoch ≤ d.g (rlkL h p) RLK_EPOCH.EPOCH) :
    d.receive h p .ok epoch f = f (d.heard h p) := by
  unfold Dev.receive
  dsimp only
  rw [if_neg (not_or.mpr ⟨hd, hq⟩)]
  exact if_neg (Nat.not_lt.mpr he)
theorem Dev.receive_ahead (hd : d.pst h p ≠ psDown) (hq : d.pst h p ≠ psQuarantine) (he : d.g (rlkL h p) RLK_EPOCH.EPOCH < epoch) :
    d.receive h p .ok epoch f = ((d.heard h p).sat (rlkL h p) RLK_RPT.AHEAD).raise (rlkL h p) 8 := by
  unfold Dev.receive
  dsimp only
  rw [if_neg (not_or.mpr ⟨hd, hq⟩)]
  exact if_pos he
theorem Dev.receive_damaged {rx : Rx} (hd : d.pst h p ≠ psDown) (hq : d.pst h p ≠ psQuarantine) (hrx : rx ≠ .ok) :
    d.receive h p rx epoch f = d.rxError h p (decide (rx = .codeError)) := by
  unfold Dev.receive
  dsimp only
  rw [if_neg (not_or.mpr ⟨hd, hq⟩)]
  cases rx with
  | ok => exact absurd rfl hrx
  | codeError => rfl
  | bad => rfl
/-- A frame of a higher epoch is only counted. -/
theorem Dev.receive_ahead_spec (hk : d.clocked (rlkL h p) = true) (hd : d.pst h p ≠ psDown) (hq : d.pst h p ≠ psQuarantine)
    (he : d.g (rlkL h p) RLK_EPOCH.EPOCH < epoch) : (d.receive h p .ok epoch f).raised (rlkL h p) 8 ∧ (d.receive h p .ok epoch f).chans = d.chans ∧
    d.regsKept [rlkL h p + 0x834] (d.receive h p .ok epoch f) := by
  rw [Dev.receive_ahead hd hq he]
  refine ⟨Dev.raised_sat_raise ((Dev.clocked_heard ..).trans hk) (by decide) (by decide), ?_, ?_⟩
  · rw [Dev.raise_chans, Dev.sat_eq, Dev.p_chans, Dev.heard, Dev.modPort_chans]
  · refine Dev.regsKept_of_regsOff (W := fun k => k = rlkL h p + 0x834) ?_ (fun k hk => List.mem_singleton.mpr hk)
    exact Dev.regsOff_trans (Dev.regsOff_of_regs (Dev.modPort_regs ..)) (Dev.regsOff_trans (Dev.regsOff_sat (d.heard h p) (f := RLK_RPT.AHEAD) 1 rfl)
      (Dev.regsOff_raise _ _ (rlkL_page h p) 8))
theorem Dev.established_of_linked (hst : d.pst h p = psUp ∨ d.pst h p = psFenced) : d.established h p = true := by
  have hne : d.pst h p ≠ psTraining := by
    rcases hst with hst | hst <;> rw [hst] <;> decide
  unfold Dev.established
  rw [decide_eq_true hne, Bool.true_or]
theorem Dev.up_of_linked (hst : d.pst h p = psUp ∨ d.pst h p = psFenced) : d.pst h p ≠ psDown ∧ d.pst h p ≠ psQuarantine := by
  rcases hst with hst | hst <;> rw [hst] <;> decide
theorem Dev.reply_none (ha : (d.port h p).await = .none) (isAck now : Bool) : d.reply h p isAck now = d := by
  unfold Dev.reply
  dsimp only
  rw [ha]
  split <;> rfl
end

/-! ### A damaged frame (R169, R180) -/

/-- The registers of a port that a lost link may change. -/
def linkKey (h : Half) (p k : Nat) : Prop := k = rlkL h p + 0x800 ∨ k = rlkL h p + 0x830 ∨ k = rlkL h p + 0x040

section
variable (d : Dev) (h : Half) (p : Nat)
theorem Dev.leavesUp_frame : (d.leavesUp h p).chans = d.chans ∧ (d.leavesUp h p).regs = d.regs := by
  unfold Dev.leavesUp
  split
  · exact ⟨rfl, rfl⟩
  · exact ⟨rfl, rfl⟩
/-- The port in state `n`, its receiver not locked. -/
def Dev.unlocked (d : Dev) (h : Half) (p n : Nat) (f : Port → Port) : Dev := ((d.p (rlkL h p) RLK_STAT.STATE n).p (rlkL h p) RLK_STAT.LOCKED 0).modPort h p f
theorem Dev.unlocked_spec {n : Nat} (hn : n < 8) (f : Port → Port) : (d.unlocked h p n f).chans = d.chans ∧ d.regsOff (linkKey h p) (d.unlocked h p n f) ∧
    (d.unlocked h p n f).pst h p = n := by
  unfold Dev.unlocked
  refine ⟨?_, ?_, ?_⟩
  · rw [Dev.modPort_chans, Dev.p_chans, Dev.p_chans]
  · exact Dev.regsOff_trans (Dev.regsOff_p d (f := RLK_STAT.STATE) _ (.inl rfl)) (Dev.regsOff_trans (Dev.regsOff_p _ (f := RLK_STAT.LOCKED) _ (.inl rfl))
      (Dev.regsOff_of_regs (Dev.modPort_regs ..)))
  · rw [Dev.pst_modPort, Dev.pst, Dev.g_p_disj (f := RLK_STAT.LOCKED) (f' := RLK_STAT.STATE) _ _ _ rfl (by decide) (by decide), Dev.g_p_same _ _ _ _ (by decide)]
    exact Nat.mod_eq_of_lt hn
theorem Dev.enterTraining_spec : (d.enterTraining h p).chans = d.chans ∧ d.regsOff (linkKey h p) (d.enterTraining h p) ∧
    (d.enterTraining h p).pst h p = psTraining := d.unlocked_spec h p (by decide) _
theorem Dev.enterDown_spec : (d.enterDown h p).chans = d.chans ∧ d.regsOff (linkKey h p) (d.enterDown h p) ∧
    (d.enterDown h p).pst h p = psDown := d.unlocked_spec h p (by decide) _
/-- A retraining, counted and raised. -/
def Dev.retrained (d : Dev) (h : Half) (p : Nat) (times : List Nat) : Dev :=
  (((d.sat (rlkL h p) RLK_LINK.RETRAIN).raise (rlkL h p) 1).modPort h p (fun x => { x with retrains := times })).leavesUp h p
theorem Dev.retrained_frame (times : List Nat) : (d.retrained h p times).chans = d.chans ∧ d.regsOff (linkKey h p) (d.retrained h p times) := by
  obtain ⟨hchans, hregs⟩ := (((d.sat (rlkL h p) RLK_LINK.RETRAIN).raise (rlkL h p) 1).modPort h p (fun x => { x with retrains := times })).leavesUp_frame h p
  refine ⟨?_, Dev.regsOff_trans (Dev.regsOff_sat d (f := RLK_LINK.RETRAIN) 1 (.inr (.inl rfl))) (Dev.regsOff_trans (Dev.regsOff_raise _ _ (rlkL_page h p) 1)
    (Dev.regsOff_of_regs (hregs.trans (Dev.modPort_regs ..))))⟩
  rw [Dev.retrained, hchans, Dev.modPort_chans, Dev.raise_chans, Dev.sat_eq, Dev.p_chans]
/-- A port whose link goes down trains again or is DOWN, unless it had no link. -/
theorem Dev.linkDown_spec : (d.linkDown h p).chans = d.chans ∧ d.regsOff (linkKey h p) (d.linkDown h p) ∧
    ((d.linkDown h p).pst h p = d.pst h p → d.linkDown h p = d) := by
  by_cases hst : d.pst h p = psUp ∨ d.pst h p = psFenced
  · have hlinked : ∀ n, n = psTraining ∨ n = psDown → n ≠ d.pst h p := by
      rintro n (rfl | rfl) <;> rcases hst with hst | hst <;> rw [hst] <;> decide
    obtain ⟨times, heq⟩ : ∃ times, d.linkDown h p = if 8 < times.length then (((d.retrained h p times).enterDown h p).p (rlkL h p) RLK_CFG.EN 0).raise (rlkL h p) 3
        else (d.retrained h p times).enterTraining h p := ⟨_, if_pos hst⟩
    obtain ⟨hchans, hregs⟩ := d.retrained_frame h p times
    generalize d.retrained h p times = y at heq hchans hregs
    rw [heq]
    split
    · obtain ⟨hdchans, hdregs, hdst⟩ := y.enterDown_spec h p
      refine ⟨?_, ?_, fun hn => absurd hn (hlinked _ (.inr ?_))⟩
      · rw [Dev.raise_chans, Dev.p_chans, hdchans, hchans]
      · exact Dev.regsOff_trans hregs (Dev.regsOff_trans hdregs (Dev.regsOff_trans (Dev.regsOff_p _ (f := RLK_CFG.EN) 0 (.inr (.inr rfl)))
          (Dev.regsOff_raise _ _ (rlkL_page h p) 3)))
      · rw [Dev.pst, Dev.g_raise_rlk _ _ _ _ (by decide) (by decide) (by decide), Dev.g_p_page (f := RLK_CFG.EN) _ _ _ (by decide)]
        exact hdst
    · obtain ⟨htchans, htregs, htst⟩ := y.enterTraining_spec h p
      exact ⟨htchans.trans hchans, Dev.regsOff_trans hregs htregs, fun hn => absurd hn (hlinked _ (.inl htst))⟩
  · have heq : d.linkDown h p = d := if_neg hst
    rw [heq]
    exact ⟨rfl, Dev.regsOff_refl _ d, fun _ => rfl⟩

/-- The counter of an error at the receiver. -/
def errFld (code : Bool) : Fld := if code then RLK_ERR.CODE else RLK_ERR.CRC
theorem errFld_off (code : Bool) : (errFld code).off = 0x828 := by
  cases code <;> rfl
theorem Dev.g_sat_errFld (code : Bool) : (d.sat (rlkL h p) (errFld code)).g (rlkL h p) (errFld code) = min (d.g (rlkL h p) (errFld code) + 1) 65535 ∧
    (d.sat (rlkL h p) (errFld code)).g (rlkL h p) (errFld !code) = d.g (rlkL h p) (errFld !code) := by
  cases code with
  | true => exact ⟨Dev.g_sat_same _ _ _ (by decide), Dev.g_p_disj (f := RLK_ERR.CODE) (f' := RLK_ERR.CRC) _ _ _ rfl (by decide) (by decide)⟩
  | false => exact ⟨Dev.g_sat_same _ _ _ (by decide), Dev.g_p_disj (f := RLK_ERR.CRC) (f' := RLK_ERR.CODE) _ _ _ rfl (by decide) (by decide)⟩
/-- An error is counted; where it takes the link, more changes. -/
theorem Dev.rxError_spec (code : Bool) : (d.rxError h p code).chans = d.chans ∧
    ((d.rxError h p code).pst h p = d.pst h p → d.regsKept [rlkL h p + 0x828] (d.rxError h p code)) ∧
    (d.rxError h p code).g (rlkL h p) (errFld code) = min (d.g (rlkL h p) (errFld code) + 1) 65535 ∧
    (d.rxError h p code).g (rlkL h p) (errFld !code) = d.g (rlkL h p) (errFld !code) := by
  obtain ⟨f, heq⟩ : ∃ f, d.rxError h p code = if ((d.sat (rlkL h p) (errFld code)).modPort h p f).linkLost h p
      then ((d.sat (rlkL h p) (errFld code)).modPort h p f).linkDown h p else (d.sat (rlkL h p) (errFld code)).modPort h p f := by
    cases code <;> exact ⟨_, rfl⟩
  have hsat : d.regsOff (fun k => k = rlkL h p + 0x828) (d.sat (rlkL h p) (errFld code)) := Dev.regsOff_sat d 1 (by rw [errFld_off])
  have hkept : d.regsOff (fun k => k = rlkL h p + 0x828) ((d.sat (rlkL h p) (errFld code)).modPort h p f) :=
    Dev.regsOff_trans hsat (Dev.regsOff_of_regs (Dev.modPort_regs ..))
  have hst : ((d.sat (rlkL h p) (errFld code)).modPort h p f).pst h p = d.pst h p := by
    rw [Dev.pst_modPort]
    exact Dev.g_of_regsOff hsat (page_reg_ne (rlkL_page h p) (rlkL_page h p) (by decide) (by decide) (by decide)) (evReg_rlk h p (by decide) (by decide) (by decide))
  obtain ⟨hsame, hother⟩ := d.g_sat_errFld h p code
  have hchans : ((d.sat (rlkL h p) (errFld code)).modPort h p f).chans = d.chans := by
    rw [Dev.modPort_chans, Dev.sat_eq, Dev.p_chans]
  rw [← Dev.modPort_g (d.sat (rlkL h p) (errFld code)) h p f] at hsame hother
  rw [heq]
  generalize (d.sat (rlkL h p) (errFld code)).modPort h p f = y at hkept hst hsame hother hchans
  split
  · obtain ⟨hlchans, hlregs, hlst⟩ := y.linkDown_spec h p
    have herr (b : Bool) : (y.linkDown h p).g (rlkL h p) (errFld b) = y.g (rlkL h p) (errFld b) := by
      refine Dev.g_of_regsOff hlregs ?_ ?_ <;> rw [errFld_off]
      · rintro (hk | hk | hk)
        · exact absurd hk (page_reg_ne (rlkL_page h p) (rlkL_page h p) (by decide) (by decide) (by decide))
        · exact absurd hk (page_reg_ne (rlkL_page h p) (rlkL_page h p) (by decide) (by decide) (by decide))
        · exact absurd hk (page_reg_ne (rlkL_page h p) (rlkL_page h p) (by decide) (by decide) (by decide))
      · exact evReg_rlk h p (by decide) (by decide) (by decide)
    refine ⟨hlchans.trans hchans, fun hn => ?_, by rw [herr, hsame], by rw [herr, hother]⟩
    rw [hlst (hn.trans hst.symm)]
    exact Dev.regsKept_of_regsOff hkept (fun k hk => List.mem_singleton.mpr hk)
  · exact ⟨hchans, fun _ => Dev.regsKept_of_regsOff hkept (fun k hk => List.mem_singleton.mpr hk), hsame, hother⟩
end

/-! ### ACK and CRD (R156, R182–R184) -/

theorem Dev.chan_modChan_other (d : Dev) (h : Half) {ch c : Nat} (f : Chan → Chan) (hne : c ≠ ch) : (d.modChan h ch f).chan h c = d.chan h c := by
  unfold Dev.modChan Dev.chan
  rw [SMap.get_modify, if_neg (by omega)]
/-- Is an event in channel `ch` one of those that the frame carried? -/
def Frame.carries (f : Frame) (ch : Nat) (e : QEv) : Bool := e.sent && e.seq == f.seq && f.chans.contains ch
/-- Events of a channel that an ACK frees. -/
def Chan.freed (n : Nat) (x : Chan) : Chan := { x with q := x.q.filter (fun e => !(e.sent && e.seq == n)) }

section
variable (d : Dev) (h : Half)
theorem Dev.freed_q (n : Nat) (cs : List Nat) (ch : Nat) :
    ((cs.foldl (fun y c => y.modChan h c (Chan.freed n)) d).chan h ch).q = (d.chan h ch).q.filter (fun e => !(e.sent && e.seq == n && cs.contains ch)) := by
  induction cs generalizing d with
  | nil => simp
  | cons c cs ih =>
    rw [List.foldl_cons, ih]
    by_cases hc : ch = c
    · rw [hc, Dev.chan_modChan_same, Chan.freed, List.filter_filter]
      refine List.filter_congr fun e _ => ?_
      simp only [List.contains_cons, beq_self_eq_true, Bool.true_or, Bool.and_true]
      cases e.sent && e.seq == n <;> simp
    · rw [Dev.chan_modChan_other _ _ _ hc]
      refine List.filter_congr fun e _ => ?_
      rw [List.contains_cons, beq_eq_false_iff_ne.mpr hc, Bool.false_or]
theorem Dev.freeFrame_q (f : Frame) (ch : Nat) : ((d.freeFrame h f).chan h ch).q = (d.chan h ch).q.filter (fun e => !f.carries ch e) := Dev.freed_q d h f.seq f.chans ch
theorem Dev.freeFrame_frame (f : Frame) : (d.freeFrame h f).regs = d.regs ∧ (d.freeFrame h f).ports = d.ports :=
  List.foldlRecOn (motive := fun y : Dev => y.regs = d.regs ∧ y.ports = d.ports) _ _ ⟨rfl, rfl⟩ (fun _ hy _ _ => hy)
/-- The events of some frames, freed. -/
def Dev.freeFrames (d : Dev) (h : Half) (fs : List Frame) : Dev := fs.foldl (fun y f => y.freeFrame h f) d
theorem Dev.freeFrames_frame (fs : List Frame) : (d.freeFrames h fs).regs = d.regs ∧ (d.freeFrames h fs).ports = d.ports :=
  List.foldlRecOn (motive := fun y : Dev => y.regs = d.regs ∧ y.ports = d.ports) _ _ ⟨rfl, rfl⟩
    (fun y hy f _ => ⟨(y.freeFrame_frame h f).1.trans hy.1, (y.freeFrame_frame h f).2.trans hy.2⟩)
theorem Dev.freeFrames_q (fs : List Frame) (ch : Nat) :
    ((d.freeFrames h fs).chan h ch).q = (d.chan h ch).q.filter (fun e => !fs.any (fun f => f.carries ch e)) := by
  induction fs generalizing d with
  | nil => simp [Dev.freeFrames]
  | cons f fs ih =>
    rw [show d.freeFrames h (f :: fs) = (d.freeFrame h f).freeFrames h fs from rfl, ih, Dev.freeFrame_q, List.filter_filter]
    refine List.filter_congr fun e _ => ?_
    rw [List.any_cons, Bool.not_or, Bool.and_comm]
end

/-- Does an ACK with NEXT cover a SEQ? -/
def ackCovers (oldest next n : Nat) : Bool := decide (seqDiff n oldest < seqDiff next oldest)
/-- From `d` to `e` an ACK that covers `c` has been taken, up to what is to be resent. -/
def Dev.acked (d : Dev) (h : Half) (p next : Nat) (c : Nat → Bool) (e : Dev) : Prop :=
  e.g (rlkL h p) RLK_SEQ.OLDEST = next % 65536 ∧ (e.port h p).unack = (d.port h p).unack.filter (fun f => !c f.seq) ∧
  (∀ ch, (e.chan h ch).q = (d.chan h ch).q.filter (fun x => !((d.port h p).unack.filter (fun f => c f.seq)).any (fun f => f.carries ch x))) ∧
  d.regsKept [rlkL h p + 0x810] e

section
variable {d e : Dev} {h : Half} {p next : Nat} {c : Nat → Bool}
theorem Dev.acked_resendAll (ha : d.acked h p next c e) : d.acked h p next c (e.resendAll h p) := by
  obtain ⟨hg, hun, hq, hk⟩ := ha
  unfold Dev.resendAll
  refine ⟨(Dev.modPort_g ..).trans hg, ?_, fun ch => ?_, Dev.regsKept_trans hk (Dev.regsKept_of_regs (Dev.modPort_regs ..))⟩
  · rw [Dev.port_modPort_same, ← hun]
  · rw [Dev.chan_of_chans (Dev.modPort_chans ..)]
    exact hq ch
/-- The port after an ACK that covers `c`. -/
def Port.acked (c : Nat → Bool) (x : Port) : Port :=
  { x with unack := x.unack.filter (fun f => !c f.seq), dead := x.dead.filter (fun s => !c s), rtx := x.rtx.filter (fun s => !c s) }
/-- The frames that `c` covers are freed, and OLDEST moves to `next`. -/
def Dev.ackTaken (d : Dev) (h : Half) (p next : Nat) (c : Nat → Bool) : Dev :=
  ((d.freeFrames h ((d.port h p).unack.filter (fun y => c y.seq))).modPort h p (Port.acked c)).p (rlkL h p) RLK_SEQ.OLDEST next
theorem Dev.port_ackTaken (d : Dev) (h : Half) (p next : Nat) (c : Nat → Bool) : (d.ackTaken h p next c).port h p = (d.port h p).acked c := by
  rw [Dev.ackTaken, Dev.port_p, Dev.port_modPort_same, Dev.port_of_ports (Dev.freeFrames_frame ..).2]
theorem Dev.acked_ackTaken (d : Dev) (h : Half) (p next : Nat) (c : Nat → Bool) : d.acked h p next c (d.ackTaken h p next c) := by
  have hq := d.freeFrames_q h ((d.port h p).unack.filter (fun f => c f.seq))
  refine ⟨?_, ?_, fun ch => ?_, ?_⟩
  · rw [Dev.ackTaken, Dev.g_p_same _ _ _ _ (by decide)]
    rfl
  · rw [Dev.port_ackTaken, Port.acked]
  · rw [Dev.ackTaken, Dev.chan_of_chans ((Dev.p_chans ..).trans (Dev.modPort_chans ..)), hq]
  · exact Dev.regsKept_p (f := RLK_SEQ.OLDEST) (Dev.regsKept_of_regs ((Dev.modPort_regs ..).trans (Dev.freeFrames_frame ..).1)) (List.mem_singleton_self _) next
/-- An ACK inside the window is taken. -/
theorem Dev.ackReceive_acked (hst : d.pst h p = psUp ∨ d.pst h p = psFenced) (ha : (d.port h p).await = .none)
    (hin : seqDiff next (d.g (rlkL h p) RLK_SEQ.OLDEST) ≤ seqDiff (d.g (rlkL h p) RLK_SEQ.TXNEXT) (d.g (rlkL h p) RLK_SEQ.OLDEST)) (epoch : Nat) (retry : Bool) :
    d.acked h p next (ackCovers (d.g (rlkL h p) RLK_SEQ.OLDEST) next) (d.ackReceive h p epoch next retry) := by
  have heq : d.ackReceive h p epoch next retry = (let z := d.ackTaken h p next (ackCovers (d.g (rlkL h p) RLK_SEQ.OLDEST) next)
      (if retry ∧ z.pst h p = psUp ∧ (z.port h p).await = .none then z.resendAll h p else z).reply h p true (epoch = d.g (rlkL h p) RLK_EPOCH.EPOCH)) := by
    unfold Dev.ackReceive
    dsimp only
    rw [Dev.established_of_linked hst, if_neg (by decide), if_neg (Nat.not_lt.mpr hin)]
    rfl
  have hz := d.acked_ackTaken h p next (ackCovers (d.g (rlkL h p) RLK_SEQ.OLDEST) next)
  have hawait : ((d.ackTaken h p next (ackCovers (d.g (rlkL h p) RLK_SEQ.OLDEST) next)).port h p).await = .none := by
    rw [Dev.port_ackTaken]
    exact ha
  generalize d.ackTaken h p next (ackCovers (d.g (rlkL h p) RLK_SEQ.OLDEST) next) = y at hz heq hawait
  rw [heq]
  dsimp only
  split
  · rw [Dev.reply_none (by rw [Dev.resendAll, Dev.port_modPort_same]; exact hawait)]
    exact Dev.acked_resendAll hz
  · rw [Dev.reply_none hawait]
    exact hz
theorem Dev.ackReceive_outside (hst : d.pst h p = psUp ∨ d.pst h p = psFenced)
    (hout : seqDiff (d.g (rlkL h p) RLK_SEQ.TXNEXT) (d.g (rlkL h p) RLK_SEQ.OLDEST) < seqDiff next (d.g (rlkL h p) RLK_SEQ.OLDEST)) (epoch : Nat) (retry : Bool) :
    d.ackReceive h p epoch next retry = d := by
  unfold Dev.ackReceive
  dsimp only
  rw [Dev.established_of_linked hst, if_neg (by decide), if_pos hout]
/-- A taken ACK frees nothing but events of the frames it covers, and all of those. -/
theorem Dev.acked_queues (ha : d.acked h p next c e) (ch : Nat) :
    (∀ x ∈ (e.chan h ch).q, x ∈ (d.chan h ch).q ∧ (x.sent = true → ∀ f ∈ (d.port h p).unack, c f.seq = true → ch ∈ f.chans → x.seq ≠ f.seq)) ∧
    ∀ x ∈ (d.chan h ch).q, x.sent = false → x ∈ (e.chan h ch).q := by
  obtain ⟨-, -, hq, -⟩ := ha
  rw [hq]
  refine ⟨fun x hx => ?_, fun x hx hs => ?_⟩
  · obtain ⟨hmem, hnone⟩ := List.mem_filter.mp hx
    refine ⟨hmem, fun hs f hf hcov hch heq => ?_⟩
    have hcarries : f.carries ch x = true := by simp [Frame.carries, hs, heq, hch]
    rw [List.any_eq_true.mpr ⟨f, List.mem_filter.mpr ⟨hf, hcov⟩, hcarries⟩] at hnone
    exact absurd hnone (by decide)
  · exact List.mem_filter.mpr ⟨hx, by simp [Frame.carries, hs]⟩

theorem Port.await_credits (x : Port) (n : Nat) : ({ x with credits := n } : Port).await = x.await := rfl
/-- A CRD that is ahead adds its credits. -/
theorem Dev.crdReceive_ahead {ct : Nat} (hst : d.pst h p = psUp ∨ d.pst h p = psFenced) (ha : (d.port h p).await = .none)
    (hadd : 0 < sgn 32 (ct + 2 ^ 32 - d.g (rlkL h p) RLK_CR.COUNT)) : d.crdReceive h p ct =
      (d.setCredits h p ((d.port h p).credits + (ct + 2 ^ 32 - d.g (rlkL h p) RLK_CR.COUNT) % 2 ^ 32)).p (rlkL h p) RLK_CR.COUNT ct := by
  have hval : (sgn 32 (ct + 2 ^ 32 - d.g (rlkL h p) RLK_CR.COUNT)).toNat = (ct + 2 ^ 32 - d.g (rlkL h p) RLK_CR.COUNT) % 2 ^ 32 := by
    unfold sgn at hadd ⊢
    split at hadd <;> omega
  unfold Dev.crdReceive
  dsimp only
  rw [Dev.established_of_linked hst, if_neg (by decide), if_pos hadd, hval]
  refine Dev.reply_none ?_ _ _
  rw [Dev.port_p, Dev.setCredits, Dev.port_modPort_same, Port.await_credits, Dev.port_p]
  exact ha
theorem Dev.crdReceive_behind {ct : Nat} (hst : d.pst h p = psUp ∨ d.pst h p = psFenced) (ha : (d.port h p).await = .none)
    (hadd : sgn 32 (ct + 2 ^ 32 - d.g (rlkL h p) RLK_CR.COUNT) ≤ 0) : d.crdReceive h p ct = d := by
  unfold Dev.crdReceive
  dsimp only
  rw [Dev.established_of_linked hst, if_neg (by decide), if_neg (Int.not_lt.mpr hadd)]
  exact Dev.reply_none ha _ _
theorem Dev.credited_spec (d : Dev) (h : Half) (p n ct : Nat) :
    let e := (d.setCredits h p n).p (rlkL h p) RLK_CR.COUNT ct
    e.g (rlkL h p) RLK_CR.COUNT = ct % 2 ^ 32 ∧ (e.port h p).credits = n % 2 ^ 32 ∧ e.g (rlkL h p) RLK_CREDIT.C = (e.port h p).credits % 65536 ∧ e.chans = d.chans ∧
    d.regsKept [rlkL h p + 0x81C, rlkL h p + 0x814] e := by
  intro e
  have hcr : (e.port h p).credits = n % 2 ^ 32 := by
    rw [show e = _ from rfl, Dev.port_p, Dev.setCredits, Dev.port_modPort_same]
  refine ⟨Dev.g_p_same _ _ _ _ (by decide), hcr, ?_, ?_, ?_⟩
  · rw [hcr, show e = _ from rfl, Dev.g_p_page (f := RLK_CR.COUNT) _ _ _ (by decide), Dev.setCredits, Dev.modPort_g, Dev.g_p_same _ _ _ _ (by decide)]
    rfl
  · rw [show e = _ from rfl, Dev.p_chans, Dev.setCredits, Dev.modPort_chans, Dev.p_chans]
  · exact Dev.regsKept_p (f := RLK_CR.COUNT) (Dev.regsKept_trans (Dev.regsKept_p (f := RLK_CREDIT.C) (Dev.regsKept_refl _ d) (by simp [RLK_CREDIT.C]) _)
      (Dev.regsKept_of_regs (Dev.modPort_regs ..))) (by simp [RLK_CR.COUNT]) ct
end

/-! ### STS (R159, R182, R191) -/

/-- A report counted for its channel: FIRED for result 0, else UNF. -/
def Chan.counted (res : Nat) (x : Chan) : Chan :=
  if res = 0 then { x with fired := (x.fired + 1) % 2 ^ 32, unrep := x.unrep - 1 } else { x with unf := (x.unf + 1) % 2 ^ 32, unrep := x.unrep - 1 }
theorem Chan.counted_spec (res : Nat) (x : Chan) : (x.counted res).unrep = x.unrep - 1 ∧ (x.counted res).q = x.q ∧
    if res = 0 then (x.counted res).fired = (x.fired + 1) % 2 ^ 32 ∧ (x.counted res).unf = x.unf
    else (x.counted res).unf = (x.unf + 1) % 2 ^ 32 ∧ (x.counted res).fired = x.fired := by
  unfold Chan.counted
  split
  · exact ⟨rfl, rfl, rfl, rfl⟩
  · exact ⟨rfl, rfl, rfl, rfl⟩
/-- A report counted as bad. -/
def Dev.badReport (d : Dev) (h : Half) (p : Nat) : Dev := (d.sat (rlkL h p) RLK_RPT.RPTBAD).raise (rlkL h p) 7

section
variable (d : Dev) (h : Half) (p : Nat)
theorem Dev.badReport_frame : (d.badReport h p).chans = d.chans ∧ (d.badReport h p).ports = d.ports ∧ d.regsOff (fun k => k = rlkL h p + 0x834) (d.badReport h p) := by
  refine ⟨?_, ?_, Dev.regsOff_trans (Dev.regsOff_sat d (f := RLK_RPT.RPTBAD) 1 rfl) (Dev.regsOff_raise _ _ (rlkL_page h p) 7)⟩
  · rw [Dev.badReport, Dev.raise_chans, Dev.sat_eq, Dev.p_chans]
  · rw [Dev.badReport, Dev.raise_ports, Dev.sat_eq, Dev.p_ports]
theorem Dev.badReport_raised (hk : d.clocked (rlkL h p) = true) : (d.badReport h p).raised (rlkL h p) 7 := Dev.raised_sat_raise hk (by decide) (by decide)
theorem Dev.fireReport_frame (w : Nat) : (d.fireReport h p w).ports = d.ports ∧ d.regsOff (fun k => k = rlkL h p + 0x834) (d.fireReport h p w) := by
  unfold Dev.fireReport
  dsimp only
  split
  · exact (d.badReport_frame h p).2
  · split
    · exact (Dev.badReport_frame (d.modChan h _ _) h p).2
    · exact ⟨rfl, Dev.regsOff_of_regs rfl⟩
theorem Dev.fireReport_bad {w : Nat} (hu : (d.chan h (1024 * p + w % 1024)).unrep = 0) : d.fireReport h p w = d.badReport h p := if_pos hu
theorem Dev.fireReport_chans {w : Nat} (hu : 0 < (d.chan h (1024 * p + w % 1024)).unrep) :
    (d.fireReport h p w).chans = (d.modChan h (1024 * p + w % 1024) (Chan.counted (w / 2 ^ 10 % 8))).chans := by
  unfold Dev.fireReport
  dsimp only
  rw [if_neg (Nat.ne_of_gt hu)]
  split
  · exact (Dev.badReport_frame (d.modChan h _ _) h p).1
  · rfl
end

/-- From `d` to `e` one report of result `res` has been counted for channel `ch`, or as bad. -/
def Dev.reported (d : Dev) (h : Half) (p ch res : Nat) (e : Dev) : Prop :=
  (0 < (d.chan h ch).unrep → (e.chan h ch).unrep = (d.chan h ch).unrep - 1 ∧ (e.chan h ch).q = (d.chan h ch).q ∧
    (if res = 0 then (e.chan h ch).fired = ((d.chan h ch).fired + 1) % 2 ^ 32 ∧ (e.chan h ch).unf = (d.chan h ch).unf
      else (e.chan h ch).unf = ((d.chan h ch).unf + 1) % 2 ^ 32 ∧ (e.chan h ch).fired = (d.chan h ch).fired)) ∧
  ((d.chan h ch).unrep = 0 → e.chan h ch = d.chan h ch ∧ e.raised (rlkL h p) 7) ∧ ∀ c, c < 65536 → c ≠ ch → e.chan h c = d.chan h c

section
variable {d e : Dev} {h : Half} {p : Nat}
theorem Dev.fireReport_reported (hk : d.clocked (rlkL h p) = true) (w : Nat) : d.reported h p (1024 * p + w % 1024) (w / 2 ^ 10 % 8) (d.fireReport h p w) := by
  refine ⟨fun hu => ?_, fun hu => ?_, fun c _ hc => ?_⟩
  · rw [Dev.chan_of_chans (Dev.fireReport_chans d h p hu), Dev.chan_modChan_same]
    exact Chan.counted_spec _ _
  · rw [Dev.fireReport_bad d h p hu]
    exact ⟨Dev.chan_of_chans (Dev.badReport_frame d h p).1 _ _, Dev.badReport_raised d h p hk⟩
  · rcases Nat.eq_zero_or_pos (d.chan h (1024 * p + w % 1024)).unrep with hu | hu
    · rw [Dev.fireReport_bad d h p hu]
      exact Dev.chan_of_chans (Dev.badReport_frame d h p).1 _ _
    · rw [Dev.chan_of_chans (Dev.fireReport_chans d h p hu)]
      exact Dev.chan_modChan_other _ _ _ hc
theorem Dev.reported_of_same {ch res : Nat} {y z : Dev} (hr : d.reported h p ch res e) (hy : y.chans = d.chans) (hz : z.chans = e.chans) (hregs : z.regs = e.regs) :
    y.reported h p ch res z := by
  obtain ⟨hcount, hbad, hrest⟩ := hr
  unfold Dev.reported
  simp only [Dev.chan_of_chans hy, Dev.chan_of_chans hz]
  exact ⟨hcount, fun hu => ⟨(hbad hu).1, Dev.raised_of_regs hregs (hbad hu).2⟩, hrest⟩
end

/-- The status of the board and the result of its audit, taken from an STS (R185, R191). -/
def Dev.stsStatus (d : Dev) (h : Half) (p : Nat) (x : StsRec) : Dev :=
  ((d.p (rlkL h p) RLK_STAT.RSTALE (b2n (bit x.status 1))).p (rlkL h p) RLK_STAT.BFAULT (x.status / 2 ^ 8)).p (rlkL h p) RLK_AUDD.D x.audd
/-- An audit that the board found wrong. -/
def Dev.stsAudit (d : Dev) (h : Half) (p : Nat) (crit : Bool) : Dev :=
  let y := (d.sat (rlkL h p) RLK_AUDF.AUDIT).raise (rlkL h p) 6
  if crit then y.report h 0x0A p p else y
/-- The port after an STS in sequence. -/
def Port.stsTaken (x : StsRec) (y : Port) : Port := { y with rxNext := (y.rxNext + 1) % 65536, sts := (y.sts ++ [x]).drop (y.sts.length + 1 - 64) }

section
variable (d : Dev) (h : Half) (p : Nat)
theorem Dev.report_frame (code obj det : Nat) : (d.report h code obj det).chans = d.chans ∧ (d.report h code obj det).ports = d.ports ∧
    (d.report h code obj det).regs = d.regs := ⟨rfl, rfl, rfl⟩
theorem Dev.stsAudit_frame (crit : Bool) : (d.stsAudit h p crit).chans = d.chans ∧ (d.stsAudit h p crit).ports = d.ports ∧
    d.regsOff (fun k => k = rlkL h p + 0x838) (d.stsAudit h p crit) := by
  have hchans : ((d.sat (rlkL h p) RLK_AUDF.AUDIT).raise (rlkL h p) 6).chans = d.chans := by rw [Dev.raise_chans, Dev.sat_eq, Dev.p_chans]
  have hports : ((d.sat (rlkL h p) RLK_AUDF.AUDIT).raise (rlkL h p) 6).ports = d.ports := by rw [Dev.raise_ports, Dev.sat_eq, Dev.p_ports]
  have hregs : d.regsOff (fun k => k = rlkL h p + 0x838) ((d.sat (rlkL h p) RLK_AUDF.AUDIT).raise (rlkL h p) 6) :=
    Dev.regsOff_trans (Dev.regsOff_sat d (f := RLK_AUDF.AUDIT) 1 rfl) (Dev.regsOff_raise _ _ (rlkL_page h p) 6)
  unfold Dev.stsAudit
  dsimp only
  generalize (d.sat (rlkL h p) RLK_AUDF.AUDIT).raise (rlkL h p) 6 = y at hchans hports hregs
  obtain ⟨hrchans, hrports, hrregs⟩ := y.report_frame h 0x0A p p
  split
  · exact ⟨hrchans.trans hchans, hrports.trans hports, Dev.regsOff_trans hregs (Dev.regsOff_of_regs hrregs)⟩
  · exact ⟨hchans, hports, hregs⟩
theorem Dev.stsStatus_spec (x : StsRec) : (d.stsStatus h p x).chans = d.chans ∧ (d.stsStatus h p x).ports = d.ports ∧
    (d.stsStatus h p x).clocked (rlkL h p) = d.clocked (rlkL h p) ∧ (d.stsStatus h p x).g (rlkL h p) RLK_AUDD.D = x.audd % 2 ^ 32 ∧
    (d.stsStatus h p x).g (rlkL h p) RLK_STAT.BFAULT = x.status / 2 ^ 8 % 256 := by
  unfold Dev.stsStatus
  refine ⟨?_, ?_, ?_, Dev.g_p_same _ _ _ _ (by decide), ?_⟩
  · rw [Dev.p_chans, Dev.p_chans, Dev.p_chans]
  · rw [Dev.p_ports, Dev.p_ports, Dev.p_ports]
  · rw [Dev.clocked_p_row _ _ _ _ (by decide), Dev.clocked_p_row _ _ _ _ (by decide), Dev.clocked_p_row _ _ _ _ (by decide)]
  · rw [Dev.g_p_page (f := RLK_AUDD.D) _ _ _ (by decide), Dev.g_p_same _ _ _ _ (by decide)]
    rfl
theorem Dev.applySts_one (seq status audd w : Nat) : ∃ y : Dev, d.applySts h p ⟨seq, status, audd, [w]⟩ = (y.fireReport h p w).modPort h p (Port.stsTaken ⟨seq, status, audd, [w]⟩) ∧
    y.chans = d.chans ∧ y.ports = d.ports ∧ y.clocked (rlkL h p) = d.clocked (rlkL h p) ∧ y.g (rlkL h p) RLK_AUDD.D = audd % 2 ^ 32 ∧
    y.g (rlkL h p) RLK_STAT.BFAULT = status / 2 ^ 8 % 256 := by
  obtain ⟨hchans, hports, hclk, haudd, hfault⟩ := d.stsStatus_spec h p ⟨seq, status, audd, [w]⟩
  by_cases haudit : bit status 3 ∧ d.pst h p = psUp
  · refine ⟨(d.stsStatus h p ⟨seq, status, audd, [w]⟩).stsAudit h p (d.on (rlkL h p) RLK_CFG.AUDIT_CRIT), ?_, ?_⟩
    · unfold Dev.applySts
      dsimp only
      rw [if_pos haudit]
      rfl
    · generalize d.stsStatus h p ⟨seq, status, audd, [w]⟩ = x at hchans hports hclk haudd hfault
      obtain ⟨hachans, haports, haregs⟩ := x.stsAudit_frame h p (d.on (rlkL h p) RLK_CFG.AUDIT_CRIT)
      have hkept {f : Fld} (hf : f.off < 0xBF0) (h14 : f.off ≠ 0x014) (h1C : f.off ≠ 0x01C) (h838 : f.off ≠ 0x838) :
          (x.stsAudit h p (d.on (rlkL h p) RLK_CFG.AUDIT_CRIT)).g (rlkL h p) f = x.g (rlkL h p) f :=
        Dev.g_of_regsOff haregs (page_reg_ne (rlkL_page h p) (rlkL_page h p) (by omega) (by decide) h838) (evReg_rlk h p hf h14 h1C)
      refine ⟨hachans.trans hchans, haports.trans hports, Eq.trans ?_ hclk, ?_, ?_⟩
      · exact Dev.on_of_regsOff (f := PG_CTL.ENABLE) haregs (page_reg_ne (rlkL_page h p) (rlkL_page h p) (by decide) (by decide) (by decide))
          (evReg_rlk h p (by decide) (by decide) (by decide))
      · rw [hkept (by decide) (by decide) (by decide) (by decide), haudd]
      · rw [hkept (by decide) (by decide) (by decide) (by decide), hfault]
  · refine ⟨d.stsStatus h p ⟨seq, status, audd, [w]⟩, ?_, hchans, hports, hclk, haudd, hfault⟩
    unfold Dev.applySts
    dsimp only
    rw [if_neg haudit]
    rfl
end

/-- A sequenced frame is answered by an ACK, with RETRY or not (R182). -/
def Dev.answer (d : Dev) (h : Half) (p : Nat) (again : Bool) : Dev := d.modPort h p (fun z => { z with ack := true, retry := z.retry || again })

section
variable {d : Dev} {r : Referee} {h : Half} {p : Nat}
theorem seqDiff_self {n : Nat} : seqDiff n n = 0 := by
  unfold seqDiff
  omega
/-- A half with authority takes the next frame and answers the others. -/
theorem Dev.inSeq_leads (hl : r.leads h = true) (seq : Nat) (f : Dev → Dev) : d.inSeq r h p seq f =
    if seqDiff seq (d.port h p).rxNext = 0 then (f d).answer h p false
    else if 32768 ≤ seqDiff seq (d.port h p).rxNext ∨ (d.port h p).retryFor = some (d.port h p).rxNext then d.answer h p false
    else (d.answer h p true).modPort h p (fun z => { z with retryFor := some (d.port h p).rxNext }) := by
  have hnot : ¬ (r.hs h = .standby ∨ r.hs h = .rejoining) := by
    intro hn
    unfold Referee.leads at hl
    rcases hn with hn | hn <;> rw [hn] at hl <;> exact absurd hl (by decide)
  unfold Dev.inSeq
  dsimp only
  rw [if_neg (show ¬ ((r.hs h = .standby ∨ r.hs h = .rejoining) ∧ seqDiff seq (d.port h p).rxNext < 32768) from fun hn => hnot hn.1), hl]
  rfl
theorem Dev.stsReceive_linked (hst : d.pst h p = psUp ∨ d.pst h p = psFenced) (x : StsRec) : d.stsReceive r h p x = d.inSeq r h p x.seq (fun y => y.applySts h p x) := by
  unfold Dev.stsReceive
  rw [Dev.established_of_linked hst]
  exact if_neg (by decide)
/-- The next STS, with one report. -/
theorem Dev.stsReceive_next (hst : d.pst h p = psUp ∨ d.pst h p = psFenced) (hl : r.leads h = true) (hk : d.clocked (rlkL h p) = true) (status audd w : Nat) :
    let e := d.stsReceive r h p ⟨(d.port h p).rxNext, status, audd, [w]⟩
    (e.port h p).rxNext = ((d.port h p).rxNext + 1) % 65536 ∧ (e.port h p).ack = true ∧ e.g (rlkL h p) RLK_AUDD.D = audd % 2 ^ 32 ∧
    e.g (rlkL h p) RLK_STAT.BFAULT = status / 2 ^ 8 % 256 ∧ d.reported h p (1024 * p + w % 1024) (w / 2 ^ 10 % 8) e := by
  intro e
  have he : e = (d.applySts h p ⟨(d.port h p).rxNext, status, audd, [w]⟩).answer h p false := by
    rw [show e = _ from Dev.stsReceive_linked hst _, Dev.inSeq_leads hl, if_pos seqDiff_self]
  obtain ⟨y, hy, hchans, hports, hclk, haudd, hfault⟩ := d.applySts_one h p (d.port h p).rxNext status audd w
  obtain ⟨hfports, hfregs⟩ := y.fireReport_frame h p w
  have hrep := Dev.fireReport_reported (hclk.trans hk) w
  generalize hx : y.fireReport h p w = x at hy hfports hfregs hrep
  have hport : e.port h p = { (d.port h p).stsTaken ⟨(d.port h p).rxNext, status, audd, [w]⟩ with ack := true, retry := (d.port h p).retry || false } := by
    rw [he, Dev.answer, Dev.port_modPort_same, hy, Dev.port_modPort_same, Dev.port_of_ports (hfports.trans hports)]
    rfl
  have hregs : e.regs = x.regs := by rw [he, Dev.answer, Dev.modPort_regs, hy, Dev.modPort_regs]
  have hechans : e.chans = x.chans := by rw [he, Dev.answer, Dev.modPort_chans, hy, Dev.modPort_chans]
  have hkept {f : Fld} (hf : f.off < 0xBF0) (h14 : f.off ≠ 0x014) (h1C : f.off ≠ 0x01C) (h834 : f.off ≠ 0x834) : e.g (rlkL h p) f = y.g (rlkL h p) f :=
    (Dev.g_of_regs hregs _ _).trans (Dev.g_of_regsOff hfregs (page_reg_ne (rlkL_page h p) (rlkL_page h p) (by omega) (by decide) h834) (evReg_rlk h p hf h14 h1C))
  refine ⟨by rw [hport]; rfl, by rw [hport], ?_, ?_, Dev.reported_of_same hrep hchans.symm hechans hregs⟩
  · rw [hkept (by decide) (by decide) (by decide) (by decide), haudd]
  · rw [hkept (by decide) (by decide) (by decide) (by decide), hfault]
/-- An STS that repeats an old one is answered alone. -/
theorem Dev.stsReceive_late (hst : d.pst h p = psUp ∨ d.pst h p = psFenced) (hl : r.leads h = true) {x : StsRec} (hs : 32768 ≤ seqDiff x.seq (d.port h p).rxNext) :
    d.stsReceive r h p x = d.answer h p false := by
  rw [Dev.stsReceive_linked hst, Dev.inSeq_leads hl, if_neg (by omega), if_pos (.inl hs)]
/-- An STS after a gap is answered with RETRY, once for the gap. -/
theorem Dev.stsReceive_early (hst : d.pst h p = psUp ∨ d.pst h p = psFenced) (hl : r.leads h = true) {x : StsRec} (h1 : 1 ≤ seqDiff x.seq (d.port h p).rxNext)
    (h2 : seqDiff x.seq (d.port h p).rxNext < 32768) :
    let e := d.stsReceive r h p x
    e.regs = d.regs ∧ e.chans = d.chans ∧ (e.port h p).rxNext = (d.port h p).rxNext ∧ (e.port h p).retryFor = some (d.port h p).rxNext ∧ (e.port h p).ack = true ∧
      ((d.port h p).retryFor ≠ some (d.port h p).rxNext → (e.port h p).retry = true) := by
  intro e
  have he : e = _ := (Dev.stsReceive_linked hst x).trans (Dev.inSeq_leads hl x.seq _)
  rw [if_neg (by omega)] at he
  by_cases hf : (d.port h p).retryFor = some (d.port h p).rxNext
  · rw [if_pos (.inr hf), Dev.answer] at he
    rw [he, Dev.port_modPort_same]
    exact ⟨Dev.modPort_regs .., Dev.modPort_chans .., rfl, hf, rfl, fun hn => absurd hf hn⟩
  · rw [if_neg (not_or.mpr ⟨Nat.not_le.mpr h2, hf⟩), Dev.answer] at he
    rw [he, Dev.port_modPort_same, Dev.port_modPort_same, Dev.modPort_regs, Dev.modPort_regs, Dev.modPort_chans, Dev.modPort_chans]
    exact ⟨rfl, rfl, rfl, rfl, rfl, fun _ => Bool.or_true _⟩
end

/-! ### The commands of the receiver -/

section
variable {s : State} {h : Half} {p : Fin 64} (hs : s.awake h (rlkL h p)) {rx : Rx} {epoch : Word}
include hs
theorem exec_ackReceive (next : BitVec 16) (retry : Bool) : exec (.ackReceive h p rx epoch next retry) s =
    .next { s with dev := s.dev.receive h p rx epoch.toNat (fun d => d.ackReceive h p epoch.toNat next.toNat retry) } := by
  unfold exec
  dsimp only
  rw [execAckReceive, onBlock_live hs.1 hs.2]
theorem exec_crdReceive (ct : Word) : exec (.crdReceive h p rx epoch ct) s =
    .next { s with dev := s.dev.receive h p rx epoch.toNat (fun d => d.crdReceive h p ct.toNat) } := by
  unfold exec
  dsimp only
  rw [execCrdReceive, onBlock_live hs.1 hs.2]
theorem exec_stsReceive {reports : List Word} {status : Word} (hlen : rx = .ok → reports.length = status.toNat / 2 ^ 16 % 64) (hmax : reports.length ≤ 32)
    (seq : BitVec 16) (audd : Word) : exec (.stsReceive h p rx epoch seq status audd reports) s =
    .next { s with dev := s.dev.receive h p rx epoch.toNat (fun d => d.stsReceive s.ref h p ⟨seq.toNat, status.toNat, audd.toNat, reports.map (·.toNat)⟩) } := by
  have hrx : (if rx = .ok ∧ reports.length ≠ status.toNat / 2 ^ 16 % 64 ∨ 32 < reports.length then Rx.bad else rx) = rx :=
    if_neg (not_or.mpr ⟨fun hn => hn.2 (hlen hn.1), Nat.not_lt.mpr hmax⟩)
  unfold exec
  dsimp only
  rw [execStsReceive, onBlock_live hs.1 hs.2]
  dsimp only
  rw [hrx]
/-- A damaged board frame of any kind. -/
theorem exec_damaged (hd : s.dev.pst h p ≠ psDown) (hq : s.dev.pst h p ≠ psQuarantine) (hrx : rx ≠ .ok) {next seq pool : BitVec 16} {times : HbTimes}
    {retry locked sess active fenced : Bool} {ct status audd id : Word} {tag st ver : BitVec 8} {op : Fin 4} {count : Fin 16} {reports data : List Word} {i : Instr}
    (hmax : reports.length ≤ 32)
    (hi : i = .ackReceive h p rx epoch next retry ∨ i = .crdReceive h p rx epoch ct ∨ i = .stsReceive h p rx epoch seq status audd reports ∨
      i = .mgtResponseReceive h p rx epoch seq tag op count st data ∨ i = .hbReceive h p rx epoch times locked sess active fenced ver pool id) :
    exec i s = .next { s with dev := s.dev.rxError h p (decide (rx = .codeError)) } := by
  rcases hi with rfl | rfl | rfl | rfl | rfl
  · rw [exec_ackReceive hs, Dev.receive_damaged hd hq hrx]
  · rw [exec_crdReceive hs, Dev.receive_damaged hd hq hrx]
  · rw [exec_stsReceive hs (fun hn => absurd hn hrx) hmax, Dev.receive_damaged hd hq hrx]
  · unfold exec
    dsimp only
    rw [execMgtResponseReceive, onBlock_live hs.1 hs.2]
    dsimp only
    rw [if_neg (fun hn => hrx hn.1), Dev.receive_damaged hd hq hrx]
  · unfold exec
    dsimp only
    rw [execHbReceive, onBlock_live hs.1 hs.2]
    dsimp only
    rw [if_neg (fun hn => hrx hn.1), Dev.receive_damaged hd hq hrx]
end

end Sys2Proof.Machine

open Sys2Proof Sys2Proof.Machine

/-- Settles O20: what the receiver takes by the frame's kind, its epoch and its damage, then the reports of an STS by its place in the sequence. -/
theorem returnsAndReportsCountOnce : Obligations.ReturnsAndReportsCountOnce := by
  unfold Obligations.ReturnsAndReportsCountOnce
  refine ⟨?_, ?_⟩
  · intro s h p epoch hs hd hq
    refine ⟨?_, ?_, fun he next retry ct i hi => ?_⟩
    · intro he hst haw ignored oldest
      have hok (f : Dev → Dev) : s.dev.receive h p .ok epoch.toNat f = f (s.dev.heard h p) := Dev.receive_ok hd hq he
      have hport := s.dev.port_heard h p
      have hst' : (s.dev.heard h p).pst h p = psUp ∨ (s.dev.heard h p).pst h p = psFenced := by
        rw [Dev.pst_heard]
        exact hst
      have haw' : ((s.dev.heard h p).port h p).await = .none := (congrArg Port.await hport).trans haw
      refine ⟨fun next retry hin => ?_, fun next retry hout => ?_, fun ct hadd => ?_, fun ct hadd => ?_⟩
      · have hack := Dev.ackReceive_acked hst' haw' (next := next.toNat) (by rw [Dev.g_heard, Dev.g_heard]; exact hin) epoch.toNat retry
        have hqueues := Dev.acked_queues hack
        obtain ⟨hold, hun, -, hkept⟩ := hack
        rw [hport, Dev.g_heard] at hun
        simp only [hport, Dev.g_heard, Dev.chan_heard, ackCovers, decide_eq_true_eq] at hqueues
        refine ⟨_, exec_ackReceive hs next retry, rfl, rfl, ?_⟩
        dsimp only
        rw [hok]
        refine ⟨hold.trans (Nat.mod_eq_of_lt next.isLt), hun, fun ch _ => (hqueues ch).1, fun ch _ => (hqueues ch).2, ?_⟩
        exact Dev.regsKept_trans (Dev.regsKept_of_regs (s.dev.heard_ignored h p).1) hkept
      · refine ⟨_, exec_ackReceive hs next retry, rfl, rfl, ?_⟩
        dsimp only
        rw [hok, Dev.ackReceive_outside hst' (by rw [Dev.g_heard, Dev.g_heard]; exact hout)]
        exact s.dev.heard_ignored h p
      · refine ⟨_, exec_crdReceive hs ct, rfl, rfl, ?_⟩
        obtain ⟨hcr, hcred, hc, hchans, hkept⟩ := (s.dev.heard h p).credited_spec h p
          (((s.dev.heard h p).port h p).credits + (ct.toNat + 2 ^ 32 - (s.dev.heard h p).g (rlkL h p) RLK_CR.COUNT) % 2 ^ 32) ct.toNat
        dsimp only
        rw [hok, Dev.crdReceive_ahead hst' haw' (by rw [Dev.g_heard]; exact hadd)]
        refine ⟨hcr.trans (Nat.mod_eq_of_lt ct.isLt), ?_, hc, hchans.trans (s.dev.heard_ignored h p).2.1, ?_⟩
        · rw [hcred, Dev.g_heard, hport]
        · exact Dev.regsKept_trans (Dev.regsKept_of_regs (s.dev.heard_ignored h p).1) hkept
      · refine ⟨_, exec_crdReceive hs ct, rfl, rfl, ?_⟩
        dsimp only
        rw [hok, Dev.crdReceive_behind hst' haw' (by rw [Dev.g_heard]; exact hadd)]
        exact s.dev.heard_ignored h p
    · intro next seq pool times retry locked sess active fenced ct status audd id tag st ver op count reports data i rx hrx hmax hi
      refine ⟨_, exec_damaged hs hd hq hrx hmax hi, rfl, rfl, ?_⟩
      obtain ⟨hchans, hkept, hsame, hother⟩ := s.dev.rxError_spec h p (decide (rx = .codeError))
      refine ⟨hchans, hkept, ?_⟩
      split
      · next hcode =>
        rw [decide_eq_true hcode] at hsame hother ⊢
        exact ⟨hsame, hother⟩
      · next hcode =>
        rw [decide_eq_false hcode] at hsame hother ⊢
        exact ⟨hsame, hother⟩
    · rcases hi with rfl | rfl
      · exact ⟨_, exec_ackReceive hs next retry, rfl, rfl, Dev.receive_ahead_spec hs.2 hd hq he⟩
      · exact ⟨_, exec_crdReceive hs ct, rfl, rfl, Dev.receive_ahead_spec hs.2 hd hq he⟩
  · intro s h p epoch seq status audd hs hst he hl hnext
    obtain ⟨hd, hq⟩ := Dev.up_of_linked hst
    have hok (f : Dev → Dev) : s.dev.receive h p .ok epoch.toNat f = f (s.dev.heard h p) := Dev.receive_ok hd hq he
    have hport := s.dev.port_heard h p
    have hst' : (s.dev.heard h p).pst h p = psUp ∨ (s.dev.heard h p).pst h p = psFenced := by
      rw [Dev.pst_heard]
      exact hst
    have hrx : ((s.dev.heard h p).port h p).rxNext = (s.dev.port h p).rxNext := by rw [hport]
    have hrf : ((s.dev.heard h p).port h p).retryFor = (s.dev.port h p).retryFor := by rw [hport]
    refine ⟨?_, fun reports hlen hmax => ⟨fun hlate => ?_, fun h1 h2 => ?_⟩⟩
    · intro w hcount hseq ch
      have hspec := Dev.stsReceive_next hst' hl ((Dev.clocked_heard ..).trans hs.2) status.toNat audd.toNat w.toNat
      rw [hrx, ← hseq] at hspec
      obtain ⟨hrxn, hack, haudd, hfault, hrep⟩ := hspec
      obtain ⟨hcnt, hbad, hrest⟩ := Dev.reported_of_same hrep (s.dev.heard_ignored h p).2.1.symm rfl rfl
      refine ⟨_, exec_stsReceive hs (reports := [w]) (fun _ => hcount.symm) (Nat.succ_le_succ (Nat.zero_le 31)) seq audd, rfl, rfl, ?_⟩
      dsimp only
      rw [hok, ← hseq]
      exact ⟨hrxn, hack, haudd.trans (Nat.mod_eq_of_lt audd.isLt), hfault, hcnt, hbad, hrest⟩
    · refine ⟨_, exec_stsReceive hs (fun _ => hlen) hmax seq audd, rfl, rfl, ?_⟩
      dsimp only
      rw [hok, Dev.stsReceive_late hst' hl (by rw [hrx]; exact hlate), Dev.answer, Dev.port_modPort_same, Dev.modPort_regs, Dev.modPort_chans, hport]
      exact ⟨(s.dev.heard_ignored h p).1, (s.dev.heard_ignored h p).2.1, rfl, Bool.or_false _, rfl⟩
    · refine ⟨_, exec_stsReceive hs (fun _ => hlen) hmax seq audd, rfl, rfl, ?_⟩
      obtain ⟨hregs, hchans, hrxn, hfor, hack, hretry⟩ := Dev.stsReceive_early (x := ⟨seq.toNat, status.toNat, audd.toNat, reports.map (·.toNat)⟩) hst' hl
        (by rw [hrx]; exact h1) (by rw [hrx]; exact h2)
      rw [hrx] at hrxn hfor hretry
      rw [hrf] at hretry
      dsimp only
      rw [hok]
      exact ⟨hregs.trans (s.dev.heard_ignored h p).1, hchans.trans (s.dev.heard_ignored h p).2.1, hrxn, hfor, hack, hretry⟩
end
